-- ==== Sys2Proof/Word.lean ====
section
/-! DEFINITION. The word types of the machine: 64-bit registers and addresses, instruction words, vector
registers of 512 bytes and masks of 1,024 bits (R125), and the sparse table used for numbered state. -/

namespace Sys2Proof

/-- A 64-bit scalar register, address or CSR (R125, R128). -/
abbrev W64 := BitVec 64
/-- A 32-bit instruction word (R130). -/
abbrev W32 := BitVec 32
/-- One byte. -/
abbrev Byte := BitVec 8
/-- A register number of x0 to x31. -/
abbrev XReg := BitVec 5
/-- A register number of p0 to p7 or m0 to m7. -/
abbrev PReg := BitVec 3
/-- A vector operand field: 0 to 47 name v0 to v47, 48 to 55 name b0 to b7 (R134). -/
abbrev VField := BitVec 6
/-- A vector register or latch: 512 bytes (R125). -/
abbrev VWord := BitVec 4096
/-- A mask register: one bit per element, 1,024 bits (R125). -/
abbrev MWord := BitVec 1024

/-- A table of numbered things: pairs of a number and its value, numbers strictly rising. -/
abbrev Table (α : Type) := List (Nat × α)

end Sys2Proof
end

