-- ==== Sys2Proof/Codes.lean ====
section
/-! DEFINITION. The closed sets of names that instruction fields and device operations use: sizes,
formats, conditions, scopes, roles, element types, engines and links. Their codes are in Decode.lean. -/

namespace Sys2Proof

/-- Class 0x0 operation width (R132): 64 bits, or 32 bits with the result sign-extended. -/
inductive Size | d64 | w32
  deriving DecidableEq, Repr, Inhabited
/-- Source width of SEXT and ZEXT (R154). -/
inductive ExtW | b8 | h16 | w32
  deriving DecidableEq, Repr, Inhabited
/-- Conditions of CMPP (R156). -/
inductive Cond | eq | ne | lt | ge | ltn | gen
  deriving DecidableEq, Repr, Inhabited
/-- Operations of PLOG (R157). -/
inductive PlogOp | and | or | xor | andn | orn | not
  deriving DecidableEq, Repr, Inhabited
/-- Scalar float formats (R132, R162). -/
inductive FFmt | f32 | bf16 | f16
  deriving DecidableEq, Repr, Inhabited
/-- The rounding field of class 0x2 (R132): dynamic or one of the five modes of R99. -/
inductive Rnd | dyn | rne | rtz | rdn | rup | rna
  deriving DecidableEq, Repr, Inhabited
/-- The five rounding modes (R99). -/
inductive RMode | rne | rtz | rdn | rup | rna
  deriving DecidableEq, Repr, Inhabited
/-- Relations of FCMPP (R165). -/
inductive FRel | eq | lt | le | un | ne | ord
  deriving DecidableEq, Repr, Inhabited
/-- Integer types of FCVTI and ICVTF (R166). -/
inductive IntTy | s64 | n64 | s32 | n32
  deriving DecidableEq, Repr, Inhabited
/-- Widths of LDX and STX (R177). -/
inductive MemW | b | h | w | d
  deriving DecidableEq, Repr, Inhabited
/-- Target of PFH (R179). -/
inductive PfhTo | pool | l2
  deriving DecidableEq, Repr, Inhabited
/-- Operation of CBO (R180). -/
inductive CboOp | clean | flush
  deriving DecidableEq, Repr, Inhabited
/-- Publication scopes (R195). -/
inductive Scope | core | cluster | die | package | system
  deriving DecidableEq, Repr, Inhabited
/-- The sz field of AMO, AMOCAS and AMOF (R132): publish at a scope, or publish nothing. -/
inductive AmoScope | pub (s : Scope) | unpublished
  deriving DecidableEq, Repr, Inhabited
/-- Operations of AMO (R132, R223). -/
inductive AmoOp | add | and | or | xor | swp | min | max | minn | maxn
  deriving DecidableEq, Repr, Inhabited
/-- Engine codes of class 0x5 (R215). -/
inductive Eng | seq | vec | copy | mx
  deriving DecidableEq, Repr, Inhabited
/-- The engines Nimbus watches (R350, R353). -/
inductive EngId | vec | copy | mx
  deriving DecidableEq, Repr, Inhabited
/-- The base register of a copy record (R316). -/
inductive RecBase | x8 | x16 | x24
  deriving DecidableEq, Repr, Inhabited
/-- The mode of CPRED (R333). -/
inductive RedMode | acc | fp32
  deriving DecidableEq, Repr, Inhabited
/-- Roles (R31). -/
inductive Role | epilogue | arith | loader
  deriving DecidableEq, Repr, Inhabited
/-- Vector element types (R246). -/
inductive VType | i8 | n8 | i16 | n16 | i32 | n32 | fp32 | bf16 | fp16 | tf8 | i4 | n4
  deriving DecidableEq, Repr, Inhabited
/-- The register space a DEVICE_REGISTER_WRITE names: BAR0 of the bridge (R410) or the physical
device-register range (R73). -/
inductive RegSpace | bar0 | device
  deriving DecidableEq, Repr, Inhabited
/-- Whose access is parked (R87): a slot's own, or that of a running engine entry of the core. -/
inductive ParkOwner | slot (k : Nat) | engine (e : EngId)
  deriving DecidableEq, Repr, Inhabited
/-- An atomic that a member's task makes to the host window, for the host bridge to carry out (R211). -/
inductive HostAtomic
  | amo (op : AmoOp) (operand : W64)
  | cas (expected new : W64)
  | addF (addend : W32)
  /-- An element of a reduction (R333): its mode, where each of its bytes lies in the host window, and the element merged. -/
  | merge (mode : RedMode) (offsets : List Nat) (element : List (BitVec 8))
  deriving DecidableEq, Repr, Inhabited
/-- What a Berby flit carries, as far as the device's own rules give it a meaning: a semaphore operation for
a home on another device with its queue and generation (R213, R363), its answer (R231), its withdrawal and the answer to that (R244), a
TCB release (R51), a queue fence and its acknowledgement (R364), a mailbox command for a group member with the queue
block a CREATE names, its answer (R413, R419) and the member's information block (R410), a member's traffic through the
host window and what it returns (R211, R409), a write or an atomic with its queue and generation unless it is firmware's (R363), a
snapshot trigger (R406), a request for measurements and the answer (R425), a port's new cost (R399),
or 64 bytes whose meaning is another device's. -/
inductive FlitBody
  | semUpdate (name amount : W64) (op launch tcb : Nat) (srcDev : BitVec 20) (core slot task queue : Nat)
      (gen : BitVec 8)
  | semAnswer (core slot task : Nat) (value : W64)
  | semCancel (name : W64) (srcDev : BitVec 20) (core slot task : Nat)
  | semCancelled (core slot task : Nat)
  | tcbRelease (launch tcb : Nat) (gen : BitVec 8)
  | fence (srcDev : BitVec 20) (queue : Nat) (gen : BitVec 8)
  | fenceAck (srcDev : BitVec 20) (queue : Nat) (gen : BitVec 8)
  | mailboxCommand (src : BitVec 20) (tag : W32) (opcode : BitVec 16) (args block : List W64)
  | mailboxAnswer (tag : W32) (result : BitVec 16) (values : List W64)
  | infoBlock (src : BitVec 20) (words : List W64)
  | hostWrite (srcDev : BitVec 20) (stamp : Option (Nat × BitVec 8)) (offset : Nat) (bytes : List (BitVec 8))
  | hostRead (srcDev : BitVec 20) (tag offset size : Nat)
  | hostAtomic (srcDev : BitVec 20) (stamp : Option (Nat × BitVec 8)) (tag offset size : Nat) (op : HostAtomic)
  | hostValue (tag : Nat) (bytes : List (BitVec 8))
  | measureRequest (srcDev : BitVec 20) (nonce : BitVec 256)
  | measureAnswer (signature : BitVec 768)
  | routeCost (srcDev : BitVec 20) (port cost : Nat)
  | snapTrigger
  | payload (bits : BitVec 512)
  deriving DecidableEq, Repr, Inhabited
/-- A device reached over Berby links when the system is enumerated: its identity word, its hop count, and the port through
which it is reached (R409), with the further routes to it by hop count and port (R412), and whether another bridge has
claimed it. -/
structure Reached where
  id : BitVec 20
  hops : Nat
  port : Nat
  more : List (Nat × Nat)
  claimed : Bool
  deriving DecidableEq, Repr, Inhabited
/-- A flit is routed by its 20-bit destination (R412). -/
structure Flit where
  dest : BitVec 20
  body : FlitBody
  deriving DecidableEq, Repr, Inhabited

end Sys2Proof
end

