-- ==== Sys2Proof/Syntax.lean ====
section
/-! DEFINITION. The operations of the machine: one constructor per row of spec/opcode_table.json. The rows with
an encoding carry the operand fields of their word (R131 to R137, R422), named as the table names them; the rows
without one are the device operations and events of spec/95_what_each_step_holds.md, with the unit they concern. -/

namespace Sys2Proof

/-- One constructor per row of the opcode table (R133, R422, and spec/95_what_each_step_holds.md). -/
inductive Instr
  /-- R150: Writes the high half of the signed product of s1 and s2. -/
  | mulh (d : BitVec 5) (a : BitVec 5) (b : BitVec 5) (s : Size)
  /-- R150: Writes the high half of the unsigned product of s1 and s2. -/
  | mulhn (d : BitVec 5) (a : BitVec 5) (b : BitVec 5) (s : Size)
  /-- R151: Signed division truncating towards zero, with defined results for zero divisors and overflow. -/
  | div (d : BitVec 5) (a : BitVec 5) (b : BitVec 5) (s : Size)
  /-- R151: Unsigned division truncating towards zero. -/
  | divn (d : BitVec 5) (a : BitVec 5) (b : BitVec 5) (s : Size)
  /-- R151: Signed remainder, taking the sign of the dividend. -/
  | rem (d : BitVec 5) (a : BitVec 5) (b : BitVec 5) (s : Size)
  /-- R151: Unsigned remainder. -/
  | remn (d : BitVec 5) (a : BitVec 5) (b : BitVec 5) (s : Size)
  /-- R148: Writes the unsigned minimum of s1 and s2. -/
  | minn (d : BitVec 5) (a : BitVec 5) (b : BitVec 5) (s : Size)
  /-- R148: Writes the unsigned maximum of s1 and s2. -/
  | maxn (d : BitVec 5) (a : BitVec 5) (b : BitVec 5) (s : Size)
  /-- R148: Writes 1 if s1 < s2 signed, else 0. -/
  | slt (d : BitVec 5) (a : BitVec 5) (b : BitVec 5) (s : Size)
  /-- R148: Writes 1 if s1 < s2 unsigned, else 0. -/
  | sltn (d : BitVec 5) (a : BitVec 5) (b : BitVec 5) (s : Size)
  /-- R148: Writes 1 if s1 = s2, else 0. -/
  | seq (d : BitVec 5) (a : BitVec 5) (b : BitVec 5) (s : Size)
  /-- R148: Writes 1 if s1 ≠ s2, else 0. -/
  | sne (d : BitVec 5) (a : BitVec 5) (b : BitVec 5) (s : Size)
  /-- R152: Counts the leading zeros of s1. -/
  | clz (d : BitVec 5) (a : BitVec 5) (s : Size)
  /-- R152: Counts the trailing zeros of s1. -/
  | ctz (d : BitVec 5) (a : BitVec 5) (s : Size)
  /-- R152: Counts the set bits of s1. -/
  | popc (d : BitVec 5) (a : BitVec 5) (s : Size)
  /-- R152: Reverses the bit order of s1. -/
  | brev (d : BitVec 5) (a : BitVec 5) (s : Size)
  /-- R153: Extracts a bit field of s1 described by s2, zero- or sign-extended. -/
  | bfx (d : BitVec 5) (a : BitVec 5) (b : BitVec 5) (s : Size) (g : Bool)
  /-- R153: Inserts the low bits of s1 into a field of xd described by s2. -/
  | bfi (d : BitVec 5) (a : BitVec 5) (b : BitVec 5) (s : Size)
  /-- R154: Sign-extends s1 from 8, 16 or 32 bits. -/
  | sext (d : BitVec 5) (a : BitVec 5) (w : ExtW)
  /-- R154: Zero-extends s1 from 8, 16 or 32 bits. -/
  | zext (d : BitVec 5) (a : BitVec 5) (w : ExtW)
  /-- R155: Writes s1 when the named predicate is 1, else s2. -/
  | sel (d : BitVec 5) (a : BitVec 5) (b : BitVec 5) (s : Size) (p : BitVec 3)
  /-- R155: Writes xd + s1 × s2 to xd. -/
  | madd (d : BitVec 5) (a : BitVec 5) (b : BitVec 5) (s : Size)
  /-- R156: Writes a predicate with the truth of a comparison of s1 and s2. -/
  | cmpp (d : BitVec 3) (a : BitVec 5) (b : BitVec 5) (s : Size) (c : Cond)
  /-- R157: Writes a predicate with a logical operation on two predicates. -/
  | plog (d : BitVec 3) (a : BitVec 3) (b : BitVec 3) (c : PlogOp)
  /-- R157: Copies a predicate into an x register as 0 or 1. -/
  | movp (d : BitVec 5) (a : BitVec 3)
  /-- R157: Sets a predicate to whether s1 is nonzero. -/
  | pmov (d : BitVec 3) (a : BitVec 5) (s : Size)
  /-- R159: Writes s1 + imm to xd. -/
  | addi (d : BitVec 5) (a : BitVec 5) (i : BitVec 12)
  /-- R159: Writes s1 AND imm to xd. -/
  | andi (d : BitVec 5) (a : BitVec 5) (i : BitVec 12)
  /-- R159: Writes s1 OR imm to xd. -/
  | ori (d : BitVec 5) (a : BitVec 5) (i : BitVec 12)
  /-- R159: Writes s1 XOR imm to xd. -/
  | xori (d : BitVec 5) (a : BitVec 5) (i : BitVec 12)
  /-- R160: Shifts s1 left by an immediate amount. -/
  | slli (d : BitVec 5) (a : BitVec 5) (h : BitVec 6)
  /-- R160: Shifts s1 logically right by an immediate amount. -/
  | srli (d : BitVec 5) (a : BitVec 5) (h : BitVec 6)
  /-- R160: Shifts s1 arithmetically right by an immediate amount. -/
  | srai (d : BitVec 5) (a : BitVec 5) (h : BitVec 6)
  /-- R159: Writes 1 if s1 < imm signed, else 0. -/
  | slti (d : BitVec 5) (a : BitVec 5) (i : BitVec 12)
  /-- R159: Writes 1 if s1 < imm unsigned, else 0. -/
  | sltni (d : BitVec 5) (a : BitVec 5) (i : BitVec 12)
  /-- R159: Writes 1 if s1 = imm, else 0. -/
  | seqi (d : BitVec 5) (a : BitVec 5) (i : BitVec 12)
  /-- R159: Writes the low 64 bits of s1 × imm. -/
  | muli (d : BitVec 5) (a : BitVec 5) (i : BitVec 12)
  /-- R159: Writes the immediate to xd. -/
  | li (d : BitVec 5) (i : BitVec 12)
  /-- R161: Writes the address of the ADDPC word plus imm to xd. -/
  | addpc (d : BitVec 5) (i : BitVec 12)
  /-- R160: Extracts an immediate-described bit field of s1, zero-extended. -/
  | bfxi (d : BitVec 5) (a : BitVec 5) (l : BitVec 6) (p : BitVec 6)
  /-- R160: Inserts s1 into an immediate-described bit field of xd. -/
  | bfii (d : BitVec 5) (a : BitVec 5) (l : BitVec 6) (p : BitVec 6)
  /-- R163: Floating-point add, rounded once. -/
  | fadd (d : BitVec 5) (a : BitVec 5) (b : BitVec 5) (s : FFmt) (r : Rnd)
  /-- R163: Floating-point subtract, rounded once. -/
  | fsub (d : BitVec 5) (a : BitVec 5) (b : BitVec 5) (s : FFmt) (r : Rnd)
  /-- R163: Floating-point multiply, rounded once. -/
  | fmul (d : BitVec 5) (a : BitVec 5) (b : BitVec 5) (s : FFmt) (r : Rnd)
  /-- R163: Fused multiply-add s1 × s2 + xd with one rounding. -/
  | ffma (d : BitVec 5) (a : BitVec 5) (b : BitVec 5) (s : FFmt) (r : Rnd)
  /-- R163: Floating-point divide, rounded once. -/
  | fdiv (d : BitVec 5) (a : BitVec 5) (b : BitVec 5) (s : FFmt) (r : Rnd)
  /-- R163: Floating-point square root, rounded once. -/
  | fsqrt (d : BitVec 5) (a : BitVec 5) (s : FFmt) (r : Rnd)
  /-- R164: Floating-point minimum ordering −0 below +0. -/
  | fmin (d : BitVec 5) (a : BitVec 5) (b : BitVec 5) (s : FFmt) (r : Rnd)
  /-- R164: Floating-point maximum ordering −0 below +0. -/
  | fmax (d : BitVec 5) (a : BitVec 5) (b : BitVec 5) (s : FFmt) (r : Rnd)
  /-- R164: Clears the sign bit of the operand. -/
  | fabs (d : BitVec 5) (a : BitVec 5) (s : FFmt) (r : Rnd)
  /-- R164: Inverts the sign bit of the operand. -/
  | fneg (d : BitVec 5) (a : BitVec 5) (s : FFmt) (r : Rnd)
  /-- R165: Writes a predicate with a floating-point relation of s1 and s2. -/
  | fcmpp (d : BitVec 3) (a : BitVec 5) (b : BitVec 5) (s : FFmt) (c : FRel)
  /-- R166: Converts a float to an integer type with rounding and saturation. -/
  | fcvti (d : BitVec 5) (a : BitVec 5) (t : IntTy) (s : FFmt) (r : Rnd)
  /-- R166: Converts an integer to a float format. -/
  | icvtf (d : BitVec 5) (a : BitVec 5) (t : IntTy) (s : FFmt) (r : Rnd)
  /-- R167: Converts between FP32, BF16 and FP16. -/
  | fcvt (d : BitVec 5) (a : BitVec 5) (t : FFmt) (s : FFmt) (r : Rnd)
  /-- R168: Writes a one-hot class mask of the operand. -/
  | fclass (d : BitVec 5) (a : BitVec 5) (s : FFmt) (r : Rnd)
  /-- R172: Loads a sign-extended byte. -/
  | ldS8 (d : BitVec 5) (a : BitVec 5) (i : BitVec 12)
  /-- R172: Loads a zero-extended byte. -/
  | ldN8 (d : BitVec 5) (a : BitVec 5) (i : BitVec 12)
  /-- R172: Loads a sign-extended halfword. -/
  | ldS16 (d : BitVec 5) (a : BitVec 5) (i : BitVec 12)
  /-- R172: Loads a zero-extended halfword. -/
  | ldN16 (d : BitVec 5) (a : BitVec 5) (i : BitVec 12)
  /-- R172: Loads a sign-extended word. -/
  | ldS32 (d : BitVec 5) (a : BitVec 5) (i : BitVec 12)
  /-- R172: Loads a zero-extended word. -/
  | ldN32 (d : BitVec 5) (a : BitVec 5) (i : BitVec 12)
  /-- R172: Loads a dword. -/
  | ld64 (d : BitVec 5) (a : BitVec 5) (i : BitVec 12)
  /-- R172: Stores a byte as a pending store. -/
  | st8 (d : BitVec 5) (a : BitVec 5) (i : BitVec 12)
  /-- R172: Stores a halfword as a pending store. -/
  | st16 (d : BitVec 5) (a : BitVec 5) (i : BitVec 12)
  /-- R172: Stores a word as a pending store. -/
  | st32 (d : BitVec 5) (a : BitVec 5) (i : BitVec 12)
  /-- R172: Stores a dword as a pending store. -/
  | st64 (d : BitVec 5) (a : BitVec 5) (i : BitVec 12)
  /-- R177: Loads with a scaled register index. -/
  | ldx (d : BitVec 5) (a : BitVec 5) (b : BitVec 5) (s : MemW) (e : Bool) (k : BitVec 2)
  /-- R177: Stores with a scaled register index. -/
  | stx (d : BitVec 5) (a : BitVec 5) (b : BitVec 5) (s : MemW) (k : BitVec 2)
  /-- R179: Prefetch hint into the pool cache or the die's L2. -/
  | pfh (t : PfhTo) (a : BitVec 5) (i : BitVec 12)
  /-- R180: Cleans or flushes the cached copies of a line to its home. -/
  | cbo (o : CboOp) (a : BitVec 5) (i : BitVec 12)
  /-- R182: Looks up a key in the tag table. -/
  | tlook (d : BitVec 5) (a : BitVec 5) (f : Bool)
  /-- R183: Inserts a key and range into a tag-table entry. -/
  | tins (a : BitVec 5) (b : BitVec 5)
  /-- R184: Clears V in a tag-table entry. -/
  | tdel (a : BitVec 5)
  /-- R185: Branches if s1 = s2. -/
  | beq (a : BitVec 5) (b : BitVec 5) (o : BitVec 14)
  /-- R185: Branches if s1 ≠ s2. -/
  | bne (a : BitVec 5) (b : BitVec 5) (o : BitVec 14)
  /-- R185: Branches if s1 < s2 signed. -/
  | blt (a : BitVec 5) (b : BitVec 5) (o : BitVec 14)
  /-- R185: Branches if s1 ≥ s2 signed. -/
  | bge (a : BitVec 5) (b : BitVec 5) (o : BitVec 14)
  /-- R185: Branches if s1 < s2 unsigned. -/
  | bltn (a : BitVec 5) (b : BitVec 5) (o : BitVec 14)
  /-- R185: Branches if s1 ≥ s2 unsigned. -/
  | bgen (a : BitVec 5) (b : BitVec 5) (o : BitVec 14)
  /-- R185: Branches if the predicate is 1. -/
  | bpt (p : BitVec 3) (o : BitVec 14)
  /-- R185: Branches if the predicate is 0. -/
  | bpf (p : BitVec 3) (o : BitVec 14)
  /-- R186: Decrements a counter and branches while it is nonzero. -/
  | loop (a : BitVec 5) (o : BitVec 14)
  /-- R187: Writes the return address and jumps to s1 + offset. -/
  | jalr (d : BitVec 5) (a : BitVec 5) (o : BitVec 14)
  /-- R187: Writes the return address and jumps pc-relative. -/
  | jal (d : BitVec 5) (o : BitVec 19)
  /-- R216: Publishes at its scope, then sends a saturating add to the semaphore's home. -/
  | semSig (a : BitVec 5) (b : BitVec 5) (s : Scope)
  /-- R217: Holds the slot until the semaphore meets the threshold, optionally taking it. -/
  | semWait (d : BitVec 5) (a : BitVec 5) (b : BitVec 5) (t : Bool)
  /-- R218: Adds a signed amount to a semaphore with clamping and returns the old value. -/
  | semAdd (d : BitVec 5) (a : BitVec 5) (b : BitVec 5)
  /-- R218: Sets a semaphore to a value. -/
  | semSet (a : BitVec 5) (b : BitVec 5)
  /-- R219: Arms a TCB on a semaphore and threshold and returns a result code. -/
  | semArm (d : BitVec 5) (a : BitVec 5) (b : BitVec 5)
  /-- R220: Publishes pending stores and joined engine writes at a scope, optionally writing a checkpoint. -/
  | phase (s : Scope) (c : Bool)
  /-- R221: Publishes at package scope and arrives at a gang barrier generation. -/
  | bar (d : BitVec 5) (a : BitVec 5)
  /-- R222: Joins a gang, stalling while a generation is open. -/
  | gangJoin (a : BitVec 5)
  /-- R222: Leaves a gang, possibly closing the open generation. -/
  | gangLeave (a : BitVec 5)
  /-- R223: Performs an 8-byte atomic operation at the location's home, optionally publishing first. -/
  | amo (d : BitVec 5) (a : BitVec 5) (b : BitVec 5) (s : AmoScope) (o : AmoOp)
  /-- R224: Atomic compare-and-swap at the home. -/
  | amocas (d : BitVec 5) (a : BitVec 5) (b : BitVec 5) (s : AmoScope)
  /-- R225: Atomic FP32 add at the home. -/
  | amof (d : BitVec 5) (a : BitVec 5) (b : BitVec 5) (s : AmoScope)
  /-- R227: Increments a token counter, at once or by an engine entry. -/
  | toksig (e : Eng) (t : BitVec 3)
  /-- R227: Waits for and decrements a token counter, in the sequencer or by an engine entry. -/
  | tokwait (e : Eng) (t : BitVec 3)
  /-- R228: Waits until at most k of the slot's entries of an engine queue have not ended. -/
  | waite (e : Eng) (k : BitVec 5)
  /-- R229: Waits until a watermark passes an address and returns its state. -/
  | waitwm (d : BitVec 5) (a : BitVec 5) (n : BitVec 3)
  /-- R230: Waits until every entry of the slot in the named engine queues has ended. -/
  | fenceE (m : BitVec 3)
  /-- R218: Reads a semaphore's value at its home. -/
  | semRead (d : BitVec 5) (a : BitVec 5)
  /-- R319: Appends a plain copy record that lands in ascending address order. -/
  | cp (r : RecBase)
  /-- R338: Appends a timed copy placed in the time-sorted buffer. -/
  | cpt (r : RecBase)
  /-- R336: Appends a copy into the next free slot of a ring. -/
  | cpr (r : RecBase)
  /-- R332: Appends a gather copy driven by an index table. -/
  | cpg (r : RecBase)
  /-- R332: Appends a scatter copy driven by an index table. -/
  | cps (r : RecBase)
  /-- R334: Appends a fill of the footprint with an 8-byte pattern. -/
  | cpf (r : RecBase)
  /-- R333: Appends a reduction of source rows into destination rows in ACC128 or FP32 mode. -/
  | cpred (r : RecBase) (m : RedMode)
  /-- R335: Appends a prefetch hint of source rows into an L2. -/
  | cppf (r : RecBase) (n : Bool) (d : BitVec 3)
  /-- R341: Cancels the copy entry holding a watermark register. -/
  | cpx (n : BitVec 3)
  /-- R341: Reads WM and STAT, or LO and HI, of a watermark register. -/
  | wmrd (d : BitVec 5) (e : BitVec 5) (g : Bool) (n : BitVec 3)
  /-- R336: Waits for a filled ring slot and acquires it. -/
  | rngaw (d : BitVec 5) (r : BitVec 2)
  /-- R336: Releases the oldest acquired ring slot. -/
  | rngrel (r : BitVec 2)
  /-- R337: Initialises a ring's base, slot size and slot count and clears its counters. -/
  | rnginit (a : BitVec 5) (b : BitVec 5) (r : BitVec 2)
  /-- R341: Reads the copy queue status word and clears LATE. -/
  | cpq (d : BitVec 5)
  /-- R306: Writes one 128-bit word of the shadow loop-nest table. -/
  | mxcfg (a : BitVec 5) (b : BitVec 5) (i : BitVec 4)
  /-- R308: Loads a weight plane into the shadow plane without scales. -/
  | mxldw (a : BitVec 5) (p : BitVec 4)
  /-- R308: Loads a weight plane and its scales into the shadow plane. -/
  | mxldwScaled (a : BitVec 5) (b : BitVec 5) (p : BitVec 4)
  /-- R311: Stores rows of the committed bank in an output format. -/
  | mxsta (a : BitVec 5) (b : BitVec 5) (n : BitVec 7) (f : BitVec 4)
  /-- R307: Writes the anchor field of shadow word 3. -/
  | mxanc (a : BitVec 5)
  /-- R313: Reads the mark of the latest matrix nest at its end. -/
  | mxmrk (a : BitVec 5) (b : BitVec 5)
  /-- R253: Vector add. -/
  | vadd (d : BitVec 6) (a : BitVec 6) (b : BitVec 6) (w : BitVec 2) (n : Bool) (m : Bool)
  /-- R253: Vector subtract. -/
  | vsub (d : BitVec 6) (a : BitVec 6) (b : BitVec 6) (w : BitVec 2) (n : Bool) (m : Bool)
  /-- R253: Vector multiply. -/
  | vmul (d : BitVec 6) (a : BitVec 6) (b : BitVec 6) (w : BitVec 2) (n : Bool) (m : Bool)
  /-- R253: Vector fused multiply-add into vd. -/
  | vfma (d : BitVec 6) (a : BitVec 6) (b : BitVec 6) (w : BitVec 2) (n : Bool) (m : Bool)
  /-- R253: Vector minimum. -/
  | vmin (d : BitVec 6) (a : BitVec 6) (b : BitVec 6) (w : BitVec 2) (n : Bool) (m : Bool)
  /-- R253: Vector maximum. -/
  | vmax (d : BitVec 6) (a : BitVec 6) (b : BitVec 6) (w : BitVec 2) (n : Bool) (m : Bool)
  /-- R253: Vector absolute value. -/
  | vabs (d : BitVec 6) (a : BitVec 6) (w : BitVec 2) (n : Bool) (m : Bool)
  /-- R253: Vector negation. -/
  | vneg (d : BitVec 6) (a : BitVec 6) (w : BitVec 2) (n : Bool) (m : Bool)
  /-- R253: Vector bitwise AND. -/
  | vand (d : BitVec 6) (a : BitVec 6) (b : BitVec 6) (w : BitVec 2) (n : Bool) (m : Bool)
  /-- R253: Vector bitwise OR. -/
  | vor (d : BitVec 6) (a : BitVec 6) (b : BitVec 6) (w : BitVec 2) (n : Bool) (m : Bool)
  /-- R253: Vector bitwise XOR. -/
  | vxor (d : BitVec 6) (a : BitVec 6) (b : BitVec 6) (w : BitVec 2) (n : Bool) (m : Bool)
  /-- R253: Vector a AND NOT b. -/
  | vandn (d : BitVec 6) (a : BitVec 6) (b : BitVec 6) (w : BitVec 2) (n : Bool) (m : Bool)
  /-- R253: Vector shift left. -/
  | vshl (d : BitVec 6) (a : BitVec 6) (b : BitVec 6) (w : BitVec 2) (n : Bool) (m : Bool)
  /-- R253: Vector logical shift right. -/
  | vshr (d : BitVec 6) (a : BitVec 6) (b : BitVec 6) (w : BitVec 2) (n : Bool) (m : Bool)
  /-- R253: Vector arithmetic shift right. -/
  | vsra (d : BitVec 6) (a : BitVec 6) (b : BitVec 6) (w : BitVec 2) (n : Bool) (m : Bool)
  /-- R254: Widening vector add. -/
  | vaddw (d : BitVec 6) (a : BitVec 6) (b : BitVec 6) (w : BitVec 2) (n : Bool) (m : Bool)
  /-- R254: Widening vector subtract. -/
  | vsubw (d : BitVec 6) (a : BitVec 6) (b : BitVec 6) (w : BitVec 2) (n : Bool) (m : Bool)
  /-- R254: Widening vector multiply. -/
  | vmulw (d : BitVec 6) (a : BitVec 6) (b : BitVec 6) (w : BitVec 2) (n : Bool) (m : Bool)
  /-- R255: Adds pairwise products into double-width elements of vd. -/
  | vdotw (d : BitVec 6) (a : BitVec 6) (b : BitVec 6) (w : BitVec 2) (n : Bool) (m : Bool)
  /-- R253: Vector rounding average. -/
  | vavg (d : BitVec 6) (a : BitVec 6) (b : BitVec 6) (w : BitVec 2) (n : Bool) (m : Bool)
  /-- R253: Vector saturating add. -/
  | vsadd (d : BitVec 6) (a : BitVec 6) (b : BitVec 6) (w : BitVec 2) (n : Bool) (m : Bool)
  /-- R253: Vector saturating subtract. -/
  | vssub (d : BitVec 6) (a : BitVec 6) (b : BitVec 6) (w : BitVec 2) (n : Bool) (m : Bool)
  /-- R253: Vector multiply high half. -/
  | vmulh (d : BitVec 6) (a : BitVec 6) (b : BitVec 6) (w : BitVec 2) (n : Bool) (m : Bool)
  /-- R253: Clamps vd between a and b. -/
  | vclamp (d : BitVec 6) (a : BitVec 6) (b : BitVec 6) (w : BitVec 2) (n : Bool) (m : Bool)
  /-- R256: Vector add with a broadcast scalar operand. -/
  | vaddScalar (d : BitVec 6) (a : BitVec 6) (x : BitVec 5) (w : BitVec 2) (n : Bool) (m : Bool)
  /-- R256: Vector subtract of a broadcast scalar. -/
  | vsubScalar (d : BitVec 6) (a : BitVec 6) (x : BitVec 5) (w : BitVec 2) (n : Bool) (m : Bool)
  /-- R256: Vector multiply by a broadcast scalar. -/
  | vmulScalar (d : BitVec 6) (a : BitVec 6) (x : BitVec 5) (w : BitVec 2) (n : Bool) (m : Bool)
  /-- R256: Vector fused multiply-add with a broadcast scalar. -/
  | vfmaScalar (d : BitVec 6) (a : BitVec 6) (x : BitVec 5) (w : BitVec 2) (n : Bool) (m : Bool)
  /-- R256: Vector minimum with a broadcast scalar. -/
  | vminScalar (d : BitVec 6) (a : BitVec 6) (x : BitVec 5) (w : BitVec 2) (n : Bool) (m : Bool)
  /-- R256: Vector maximum with a broadcast scalar. -/
  | vmaxScalar (d : BitVec 6) (a : BitVec 6) (x : BitVec 5) (w : BitVec 2) (n : Bool) (m : Bool)
  /-- R256: Vector AND with a broadcast scalar. -/
  | vandScalar (d : BitVec 6) (a : BitVec 6) (x : BitVec 5) (w : BitVec 2) (n : Bool) (m : Bool)
  /-- R256: Vector OR with a broadcast scalar. -/
  | vorScalar (d : BitVec 6) (a : BitVec 6) (x : BitVec 5) (w : BitVec 2) (n : Bool) (m : Bool)
  /-- R256: Vector XOR with a broadcast scalar. -/
  | vxorScalar (d : BitVec 6) (a : BitVec 6) (x : BitVec 5) (w : BitVec 2) (n : Bool) (m : Bool)
  /-- R256: Vector AND NOT with a broadcast scalar. -/
  | vandnScalar (d : BitVec 6) (a : BitVec 6) (x : BitVec 5) (w : BitVec 2) (n : Bool) (m : Bool)
  /-- R256: Vector shift left by a broadcast scalar. -/
  | vshlScalar (d : BitVec 6) (a : BitVec 6) (x : BitVec 5) (w : BitVec 2) (n : Bool) (m : Bool)
  /-- R256: Vector logical shift right by a broadcast scalar. -/
  | vshrScalar (d : BitVec 6) (a : BitVec 6) (x : BitVec 5) (w : BitVec 2) (n : Bool) (m : Bool)
  /-- R256: Vector arithmetic shift right by a broadcast scalar. -/
  | vsraScalar (d : BitVec 6) (a : BitVec 6) (x : BitVec 5) (w : BitVec 2) (n : Bool) (m : Bool)
  /-- R256: Widening vector add of a broadcast scalar. -/
  | vaddwScalar (d : BitVec 6) (a : BitVec 6) (x : BitVec 5) (w : BitVec 2) (n : Bool) (m : Bool)
  /-- R256: Widening vector subtract of a broadcast scalar. -/
  | vsubwScalar (d : BitVec 6) (a : BitVec 6) (x : BitVec 5) (w : BitVec 2) (n : Bool) (m : Bool)
  /-- R256: Widening vector multiply by a broadcast scalar. -/
  | vmulwScalar (d : BitVec 6) (a : BitVec 6) (x : BitVec 5) (w : BitVec 2) (n : Bool) (m : Bool)
  /-- R256: Pairwise dot product with a broadcast scalar. -/
  | vdotwScalar (d : BitVec 6) (a : BitVec 6) (x : BitVec 5) (w : BitVec 2) (n : Bool) (m : Bool)
  /-- R256: Vector rounding average with a broadcast scalar. -/
  | vavgScalar (d : BitVec 6) (a : BitVec 6) (x : BitVec 5) (w : BitVec 2) (n : Bool) (m : Bool)
  /-- R256: Vector saturating add of a broadcast scalar. -/
  | vsaddScalar (d : BitVec 6) (a : BitVec 6) (x : BitVec 5) (w : BitVec 2) (n : Bool) (m : Bool)
  /-- R256: Vector saturating subtract of a broadcast scalar. -/
  | vssubScalar (d : BitVec 6) (a : BitVec 6) (x : BitVec 5) (w : BitVec 2) (n : Bool) (m : Bool)
  /-- R256: Vector multiply high by a broadcast scalar. -/
  | vmulhScalar (d : BitVec 6) (a : BitVec 6) (x : BitVec 5) (w : BitVec 2) (n : Bool) (m : Bool)
  /-- R256: Vector clamp with a broadcast scalar upper bound. -/
  | vclampScalar (d : BitVec 6) (a : BitVec 6) (x : BitVec 5) (w : BitVec 2) (n : Bool) (m : Bool)
  /-- R257: Sets mask bits where elements are equal. -/
  | vcmpeq (d : BitVec 3) (a : BitVec 6) (b : BitVec 6) (w : BitVec 2) (m : Bool)
  /-- R257: Sets mask bits where elements differ. -/
  | vcmpne (d : BitVec 3) (a : BitVec 6) (b : BitVec 6) (w : BitVec 2) (m : Bool)
  /-- R257: Sets mask bits where a < b by the type. -/
  | vcmplt (d : BitVec 3) (a : BitVec 6) (b : BitVec 6) (w : BitVec 2) (m : Bool)
  /-- R257: Sets mask bits where a ≤ b by the type. -/
  | vcmple (d : BitVec 3) (a : BitVec 6) (b : BitVec 6) (w : BitVec 2) (m : Bool)
  /-- R257: Sets mask bits where a < b unsigned. -/
  | vcmpltn (d : BitVec 3) (a : BitVec 6) (b : BitVec 6) (w : BitVec 2) (m : Bool)
  /-- R257: Sets mask bits where a ≤ b unsigned. -/
  | vcmplen (d : BitVec 3) (a : BitVec 6) (b : BitVec 6) (w : BitVec 2) (m : Bool)
  /-- R257: Equality compare against a broadcast scalar. -/
  | vcmpeqScalar (d : BitVec 3) (a : BitVec 6) (x : BitVec 5) (w : BitVec 2) (m : Bool)
  /-- R257: Inequality compare against a broadcast scalar. -/
  | vcmpneScalar (d : BitVec 3) (a : BitVec 6) (x : BitVec 5) (w : BitVec 2) (m : Bool)
  /-- R257: Less-than compare against a broadcast scalar. -/
  | vcmpltScalar (d : BitVec 3) (a : BitVec 6) (x : BitVec 5) (w : BitVec 2) (m : Bool)
  /-- R257: Less-or-equal compare against a broadcast scalar. -/
  | vcmpleScalar (d : BitVec 3) (a : BitVec 6) (x : BitVec 5) (w : BitVec 2) (m : Bool)
  /-- R257: Unsigned less-than compare against a broadcast scalar. -/
  | vcmpltnScalar (d : BitVec 3) (a : BitVec 6) (x : BitVec 5) (w : BitVec 2) (m : Bool)
  /-- R257: Unsigned less-or-equal compare against a broadcast scalar. -/
  | vcmplenScalar (d : BitVec 3) (a : BitVec 6) (x : BitVec 5) (w : BitVec 2) (m : Bool)
  /-- R258: Selects elements of vs1 or vs2 by the MSEL mask. -/
  | vsel (d : BitVec 6) (a : BitVec 6) (b : BitVec 6) (w : BitVec 2) (n : Bool)
  /-- R258: Bitwise AND of two masks. -/
  | vmand (d : BitVec 3) (a : BitVec 3) (b : BitVec 3) (m : Bool)
  /-- R258: Bitwise OR of two masks. -/
  | vmor (d : BitVec 3) (a : BitVec 3) (b : BitVec 3) (m : Bool)
  /-- R258: Bitwise XOR of two masks. -/
  | vmxor (d : BitVec 3) (a : BitVec 3) (b : BitVec 3) (m : Bool)
  /-- R258: Bitwise NOT of a mask. -/
  | vmnot (d : BitVec 3) (a : BitVec 3) (m : Bool)
  /-- R258: Counts the set bits of a mask into an x register. -/
  | vmpop (d : BitVec 5) (a : BitVec 3) (m : Bool)
  /-- R258: Writes the index of the lowest set mask bit. -/
  | vmfirst (d : BitVec 5) (a : BitVec 3) (m : Bool)
  /-- R259: Permutes elements of vs1 by indices in vs2. -/
  | vperm (d : BitVec 6) (a : BitVec 6) (b : BitVec 6) (w : BitVec 2) (n : Bool) (m : Bool)
  /-- R259: Rotates the elements of vs1 by a scalar amount. -/
  | vrot (d : BitVec 6) (a : BitVec 6) (x : BitVec 5) (w : BitVec 2) (n : Bool) (m : Bool)
  /-- R259: Slides elements up by a scalar amount. -/
  | vslideup (d : BitVec 6) (a : BitVec 6) (x : BitVec 5) (w : BitVec 2) (n : Bool) (m : Bool)
  /-- R259: Slides elements down by a scalar amount, filling with zero. -/
  | vslidedn (d : BitVec 6) (a : BitVec 6) (x : BitVec 5) (w : BitVec 2) (n : Bool) (m : Bool)
  /-- R259: Interleaves two vectors into a double group. -/
  | vzip (d : BitVec 6) (a : BitVec 6) (b : BitVec 6) (w : BitVec 2) (n : Bool) (m : Bool)
  /-- R259: De-interleaves a double group. -/
  | vunzip (d : BitVec 6) (a : BitVec 6) (w : BitVec 2) (n : Bool) (m : Bool)
  /-- R259: Broadcasts a scalar to every element. -/
  | vbcast (d : BitVec 6) (x : BitVec 5) (w : BitVec 2) (n : Bool) (m : Bool)
  /-- R259: Inserts a scalar at a scalar-indexed element. -/
  | vins (d : BitVec 6) (a : BitVec 5) (x : BitVec 5) (w : BitVec 2) (n : Bool) (m : Bool)
  /-- R259: Extracts one element into an x register. -/
  | vext (d : BitVec 5) (a : BitVec 6) (x : BitVec 5) (w : BitVec 2)
  /-- R259: Packs the mask-selected elements of vs1 into vd. -/
  | vcompress (d : BitVec 6) (a : BitVec 6) (k : BitVec 3) (w : BitVec 2) (n : Bool)
  /-- R259: Writes running counts of set mask bits. -/
  | viota (d : BitVec 6) (k : BitVec 3) (w : BitVec 2) (n : Bool) (m : Bool)
  /-- R259: Copies a vector register or latch. -/
  | vmovv (d : BitVec 6) (a : BitVec 6) (w : BitVec 2) (n : Bool) (m : Bool)
  /-- R260: Loads a vector group from contiguous memory. -/
  | vld (d : BitVec 6) (a : BitVec 5) (b : BitVec 5) (w : BitVec 2) (n : Bool) (m : Bool)
  /-- R260: Stores a vector group to contiguous memory as an engine write. -/
  | vst (d : BitVec 6) (a : BitVec 5) (b : BitVec 5) (w : BitVec 2) (m : Bool)
  /-- R260: Strided vector load. -/
  | vlds (d : BitVec 6) (a : BitVec 5) (b : BitVec 5) (w : BitVec 2) (n : Bool) (m : Bool)
  /-- R260: Strided vector store. -/
  | vsts (d : BitVec 6) (a : BitVec 5) (b : BitVec 5) (w : BitVec 2) (m : Bool)
  /-- R260: Gather vector load by element indices. -/
  | vldg (d : BitVec 6) (a : BitVec 5) (b : BitVec 6) (w : BitVec 2) (n : Bool) (m : Bool)
  /-- R260: Scatter vector store by element indices. -/
  | vstg (d : BitVec 6) (a : BitVec 5) (b : BitVec 6) (w : BitVec 2) (m : Bool)
  /-- R265: Converts elements from a named source type to VCFG.T. -/
  | vcvt (d : BitVec 6) (a : BitVec 6) (t : VType) (w : BitVec 2) (n : Bool) (m : Bool)
  /-- R268: Quantises 512 FP32 elements into TF8 blocks with scale bytes in a register pair. -/
  | vqnt (d : BitVec 6) (a : BitVec 6) (k : BitVec 5) (n : Bool)
  /-- R269: Dequantises TF8 codes into FP32 under block scales. -/
  | vdqnt (d : BitVec 6) (a : BitVec 6) (k : BitVec 5) (n : Bool)
  /-- R267: Rounds float elements to integral values. -/
  | vround (d : BitVec 6) (a : BitVec 6) (w : BitVec 2) (n : Bool) (m : Bool)
  /-- R266: Narrows integers with rounding shift and saturation. -/
  | vnarrow (d : BitVec 6) (a : BitVec 6) (x : BitVec 5) (w : BitVec 2) (n : Bool) (m : Bool)
  /-- R247: Writes VCFG's type, mask selection and masking mode in the sequencer. -/
  | vsett (t : VType) (z : Bool) (s : BitVec 3)
  /-- R270: Vector 2^a. -/
  | vexp2 (d : BitVec 6) (a : BitVec 6) (w : BitVec 2) (n : Bool) (m : Bool)
  /-- R270: Vector log2 a. -/
  | vlog2 (d : BitVec 6) (a : BitVec 6) (w : BitVec 2) (n : Bool) (m : Bool)
  /-- R270: Vector e^a. -/
  | vexp (d : BitVec 6) (a : BitVec 6) (w : BitVec 2) (n : Bool) (m : Bool)
  /-- R270: Vector ln a. -/
  | vlog (d : BitVec 6) (a : BitVec 6) (w : BitVec 2) (n : Bool) (m : Bool)
  /-- R270: Vector reciprocal. -/
  | vrcp (d : BitVec 6) (a : BitVec 6) (w : BitVec 2) (n : Bool) (m : Bool)
  /-- R270: Vector reciprocal square root. -/
  | vrsq (d : BitVec 6) (a : BitVec 6) (w : BitVec 2) (n : Bool) (m : Bool)
  /-- R270: Vector square root. -/
  | vsqrt (d : BitVec 6) (a : BitVec 6) (w : BitVec 2) (n : Bool) (m : Bool)
  /-- R270: Vector tanh. -/
  | vtanh (d : BitVec 6) (a : BitVec 6) (w : BitVec 2) (n : Bool) (m : Bool)
  /-- R270: Vector logistic sigmoid. -/
  | vsigm (d : BitVec 6) (a : BitVec 6) (w : BitVec 2) (n : Bool) (m : Bool)
  /-- R270: Vector sine. -/
  | vsin (d : BitVec 6) (a : BitVec 6) (w : BitVec 2) (n : Bool) (m : Bool)
  /-- R270: Vector cosine. -/
  | vcos (d : BitVec 6) (a : BitVec 6) (w : BitVec 2) (n : Bool) (m : Bool)
  /-- R270: Vector IEEE division. -/
  | vdiv (d : BitVec 6) (a : BitVec 6) (b : BitVec 6) (w : BitVec 2) (n : Bool) (m : Bool)
  /-- R271: Sums the elements by a fixed pairwise tree into element 0. -/
  | vredsum (d : BitVec 6) (a : BitVec 6) (n : Bool) (m : Bool)
  /-- R271: Reduces the elements to their maximum. -/
  | vredmax (d : BitVec 6) (a : BitVec 6) (n : Bool) (m : Bool)
  /-- R271: Reduces the elements to their minimum. -/
  | vredmin (d : BitVec 6) (a : BitVec 6) (n : Bool) (m : Bool)
  /-- R271: Sequential prefix sum of the elements. -/
  | vscan (d : BitVec 6) (a : BitVec 6) (n : Bool) (m : Bool)
  /-- R272: Writes the largest exponent of the active elements to an x register. -/
  | vexpmax (d : BitVec 5) (a : BitVec 6) (m : Bool)
  /-- R274: Accumulates elements exactly into an ACC128 lane set. -/
  | vacc (d : BitVec 6) (a : BitVec 6) (f : BitVec 6) (m : Bool)
  /-- R275: Converts ACC128 lanes to VCFG.T. -/
  | vacccvt (d : BitVec 6) (a : BitVec 6) (n : Bool) (m : Bool)
  /-- R276: Computes Philox4x32-10 on 32 counter lanes with a scalar key. -/
  | vrng (d : BitVec 6) (a : BitVec 6) (k : BitVec 5) (n : Bool)
  /-- R233: Creates a child task of the launch. -/
  | spawn (a : BitVec 5) (b : BitVec 5) (r : Role)
  /-- R233: Creates a child task that joins a gang at admission. -/
  | spawng (a : BitVec 5) (b : BitVec 5) (r : Role) (g : BitVec 6)
  /-- R236: Makes the slot not ready for n + 1 cycles. -/
  | yield (n : BitVec 8)
  /-- R237: Sets the slot's issue role. -/
  | role (r : Role)
  /-- R238: Reads a CSR into an x register. -/
  | csrr (d : BitVec 5) (c : BitVec 12)
  /-- R238: Writes a CSR field by field per Access. -/
  | csrw (a : BitVec 5) (c : BitVec 12)
  /-- R238: Sets bits of RW fields of a CSR. -/
  | csrs (a : BitVec 5) (c : BitVec 12)
  /-- R238: Clears bits of RW fields of a CSR. -/
  | csrc (a : BitVec 5) (c : BitVec 12)
  /-- R239: Raises SWTRAP with an immediate. -/
  | trap (i : BitVec 10)
  /-- R239: Raises BKPT with an immediate. -/
  | bkpt (i : BitVec 10)
  /-- R242: Publishes at package scope and queues a launch descriptor on the task's host queue. -/
  | launch (a : BitVec 5)
  /-- R148: Writes s1 + s2 to xd, wrapping at 64 bits or, with sz = 1, at 32 bits. -/
  | add (d : BitVec 5) (a : BitVec 5) (b : BitVec 5) (s : Size)
  /-- R148: Writes s1 − s2 to xd. -/
  | sub (d : BitVec 5) (a : BitVec 5) (b : BitVec 5) (s : Size)
  /-- R148: Writes the bitwise AND of s1 and s2 to xd. -/
  | and (d : BitVec 5) (a : BitVec 5) (b : BitVec 5) (s : Size)
  /-- R148: Writes the bitwise OR of s1 and s2 to xd. -/
  | or (d : BitVec 5) (a : BitVec 5) (b : BitVec 5) (s : Size)
  /-- R148: Writes the bitwise XOR of s1 and s2 to xd. -/
  | xor (d : BitVec 5) (a : BitVec 5) (b : BitVec 5) (s : Size)
  /-- R148: Writes s1 & ~s2 to xd. -/
  | andn (d : BitVec 5) (a : BitVec 5) (b : BitVec 5) (s : Size)
  /-- R148: Writes s1 | ~s2 to xd. -/
  | orn (d : BitVec 5) (a : BitVec 5) (b : BitVec 5) (s : Size)
  /-- R149: Shifts s1 left by the low bits of s2. -/
  | sll (d : BitVec 5) (a : BitVec 5) (b : BitVec 5) (s : Size)
  /-- R149: Shifts s1 logically right by the low bits of s2. -/
  | srl (d : BitVec 5) (a : BitVec 5) (b : BitVec 5) (s : Size)
  /-- R149: Shifts s1 arithmetically right by the low bits of s2. -/
  | sra (d : BitVec 5) (a : BitVec 5) (b : BitVec 5) (s : Size)
  /-- R149: Rotates s1 left by the low bits of s2. -/
  | rol (d : BitVec 5) (a : BitVec 5) (b : BitVec 5) (s : Size)
  /-- R149: Rotates s1 right by the low bits of s2. -/
  | ror (d : BitVec 5) (a : BitVec 5) (b : BitVec 5) (s : Size)
  /-- R150: Writes the low bits of s1 × s2 to xd. -/
  | mul (d : BitVec 5) (a : BitVec 5) (b : BitVec 5) (s : Size)
  /-- R148: Writes the signed minimum of s1 and s2. -/
  | min (d : BitVec 5) (a : BitVec 5) (b : BitVec 5) (s : Size)
  /-- R148: Writes the signed maximum of s1 and s2. -/
  | max (d : BitVec 5) (a : BitVec 5) (b : BitVec 5) (s : Size)
  /-- R137: Long-immediate prefix that widens the immediate of the following I- or M-format word. -/
  | lix (i : BitVec 28)
  /-- R309: Exchanges the shadow and active planes. -/
  | mxswp
  /-- R310: Checks and captures the table and appends a loop-nest entry. -/
  | mxgo
  /-- R310: Checks and captures the table and appends a grouped adapter nest entry. -/
  | mxgog
  /-- R312: Clears the core's committed bank. -/
  | mxclr
  /-- R235: Removes token waits, fences, leaves gangs, publishes at package scope and ends the task. -/
  | exit
  /-- R240: Returns from a trap handler to TPC and clears INH. -/
  | eret
  /-- R241: Does nothing for one issue cycle. -/
  | nop
  /-- R423: Flambeol: stages the next packet of a resident queue and advances HEAD. -/
  | rfetch (a : BitVec 5) (d : BitVec 5)
  /-- R423: Flambeol: extracts a zero-extended bit field. -/
  | flambeolBfx (b : BitVec 5) (a : BitVec 5) (d : BitVec 5)
  /-- R423: Flambeol: sleeps until a masked pending bit is set or a timeout passes. -/
  | swait (b : BitVec 5) (a : BitVec 5) (d : BitVec 5)
  /-- R423: Flambeol: offers a staged packet to a die scheduler. -/
  | disp (b : BitVec 5) (a : BitVec 5) (d : BitVec 5)
  /-- R415: Host packet that does nothing. -/
  | nopPacket (q : Nat)
  /-- R415: Host packet that queues a launch behind every earlier launch of the queue. -/
  | launchPacket (q : Nat)
  /-- R415: Host packet that holds the next packet until a semaphore meets a threshold. -/
  | waitPacket (q : Nat)
  /-- R415: Host packet that applies SEM.SIG's update. -/
  | signalPacket (q : Nat)
  /-- R416: Host packet that waits for earlier launches, copies bytes as firmware, publishes and signals. -/
  | copyPacket (q : Nat)
  /-- R394: Host packet that switches the queue's determinism level once earlier work has drained. -/
  | detlevel (q : Nat)
  /-- R395: Host packet that sets, or with PERIOD 0 stops, the queue's cadence. -/
  | cadence (q : Nat)
  /-- R415: Host packet that waits for earlier launches to end and then signals. -/
  | barrier (q : Nat)
  /-- R417: Host write of a queue's new TAIL, filtered, recorded and waking its queue core. -/
  | doorbell (q : Nat) (tail : BitVec 32)
  /-- R417: Every 100 µs the management cores scan the pending doorbell map of non-resident queues. -/
  | pendingMapScan
  /-- R413: Mailbox command creating a queue from its configuration block. -/
  | create
  /-- R420: Mailbox command removing an idle queue. -/
  | destroy
  /-- R364: Mailbox command performing a queue reset with a new generation. -/
  | qreset
  /-- R371: Mailbox command starting the pre-emption ladder on a queue. -/
  | preempt
  /-- R375: Mailbox command restoring a pre-empted queue's images and resuming it. -/
  | resume
  /-- R362: Mailbox command performing a package reset. -/
  | pkgreset
  /-- R426: Mailbox command performing a live firmware update. -/
  | update
  /-- R420: Mailbox command writing an image into a non-running slot. -/
  | slotwrite
  /-- R424: Mailbox command verifying an image slot. -/
  | slotverify
  /-- R420: Mailbox command marking a verified slot active for the next boot. -/
  | setslot
  /-- R429: Mailbox command setting the module power cap. -/
  | pcap
  /-- R420: Mailbox command setting SHOOT_WAIT, FTPER or STEPLEN. -/
  | setparam
  /-- R406: Mailbox host command that triggers a snapshot in mode 3. -/
  | snapshot
  /-- R420: Mailbox command reading a device register. -/
  | devread
  /-- R420: Mailbox command writing one of the writable Nimbus or snapshot registers. -/
  | devwrite
  /-- R400: Mailbox command clearing one bit of the disable bitmap after boot. -/
  | clearmap
  /-- R409: Mailbox command reporting the members present in the host group. -/
  | group
  /-- R425: SPDM request answered with the recorded measurements. -/
  | getMeasurements
  /-- R425: SPDM challenge answered with a signature of the device identity key. -/
  | challenge (nonce : BitVec 256)
  /-- R10: A write to a register with no row of its own, applied field by field per Access. -/
  | deviceRegisterWrite (space : RegSpace) (addr value : BitVec 64)
  /-- R426: The new image writes HBEAT to accept or refuse the handover. -/
  | hbeat (value : BitVec 64)
  /-- R426: No heartbeat within 50 ms of the new image's start: the old image is restarted and ROLLBACK posted. -/
  | heartbeatTimeout
  /-- R424: At power-up the boot ROM verifies the image slots and starts the active or the other slot, or enters recovery. -/
  | boot
  /-- R409: After link training, bridging devices claim group members and assign their DEVIDs. -/
  | systemEnumeration (found : List Reached) (others : List (BitVec 20)) (stepLen : Nat)
  /-- R428: Once training and calibration finish and no launch is admitted, the device enters full service. -/
  | reducedServiceEnd
  /-- R412: A Berby flit arrives and is routed by its destination DEVID. -/
  | flit (f : Flit)
  /-- R399: A route-cost flit updates the routing tables by a port's new cost. -/
  | routeCostFlit (port : Nat) (cost : Nat)
  /-- R40: The die scheduler checks and admits the head of its admission sequence once it can be placed. -/
  | launchAdmission (die : Nat)
  /-- R43: Admits the tasks of the next launch phase once every task of the previous phase has ended. -/
  | phaseAdmission (launch : Nat)
  /-- R48: Moves the head of a spill queue into the pending pool when the pool has room. -/
  | spillRefill (die : Nat)
  /-- R38: A launch whose tasks and queues are empty ends, is published at system scope and frees arm records. -/
  | launchEnd (launch : Nat)
  /-- R214: A semaphore operation is applied at its home, releasing TCBs and completing waiters. -/
  | semUpdateAtHome (die : Nat)
  /-- R217: A waiting SEM.WAIT's result reaches its slot and the wait completes. -/
  | semWaitComplete (core slot : Nat)
  /-- R55: A BAR arrival, join or leave is applied at the gang's home, possibly closing a generation. -/
  | gangArrivalAtHome (die : Nat)
  /-- R221: A member's BAR completes with its status and refreshes. -/
  | barComplete (core slot : Nat)
  /-- R210: An atomic is performed at its home, or forwarded by the host bridge. -/
  | atomicAtHome (core slot : Nat)
  /-- R333: A CPRED element merge is applied at the destination's home, dropping duplicates. -/
  | reductionMerge (core : Nat)
  /-- R364: A queue-reset fence reaches a home, which then drops writes of old generations and acknowledges. -/
  | homeFence (q home : Nat)
  /-- R364: Every home has acknowledged the fence and completion is reported to the host. -/
  | queueResetComplete (q : Nat)
  /-- R87: A published write reaches a monitored page-table line and the walker walks again. -/
  | parkWake (core : Nat) (owner : ParkOwner)
  /-- R89: A park lasts its limit and raises PARK_TIMEOUT. -/
  | parkTimeout (core : Nat) (owner : ParkOwner)
  /-- R92: Flambeol posts a shootdown of a range to the cores that may hold it. -/
  | shootdown (q : Nat) (base : BitVec 64) (pages : Nat)
  /-- R92: Every task present at the shootdown reaches a quiescent point and the core removes the stale translations. -/
  | shootdownAck (core : Nat)
  /-- R93: A core has not acknowledged within SHOOT_WAIT, so lagging tasks are stopped at their next boundary. -/
  | shootWaitExpiry (core : Nat)
  /-- R249: The vector engine starts an entry, reading its sources. -/
  | vectorEntryStart (core : Nat)
  /-- R249: A vector entry ends in queue order, writing back, pushing its latch and merging flags. -/
  | vectorEntryEnd (core : Nat)
  /-- R322: The copy engine starts an entry, taking its watermark register or claiming a ring slot. -/
  | copyEntryStart (core : Nat)
  /-- R338: A timed copy's time arrives and it starts from the time-sorted buffer. -/
  | cptRelease (core : Nat)
  /-- R323: A row or further 4 KiB of a copy has landed; WM and the mark advance and stalled accesses proceed. -/
  | copyRowLanded (core entry : Nat)
  /-- R327: A finished copy entry ends in slot order and signals its completion semaphore. -/
  | copyEntryEnd (core entry : Nat)
  /-- R304: The matrix engine starts a nest, reading the adapter table and starting the first plane load. -/
  | matrixEntryStart (core : Nat)
  /-- R303: A plane load into the shadow plane completes. -/
  | planeLoadDone (core : Nat)
  /-- R290: A pass starts after swap, plane load and an owned window, streaming rows into the uncommitted bank. -/
  | matrixPass (core : Nat)
  /-- R292: After a pass at the commit level the bank drains, is stored, marked and swapped. -/
  | matrixCommit (core : Nat)
  /-- R367: A pending engine-origin trap is taken at the issuing slot's next instruction boundary. -/
  | engineTrapDelivery (core slot : Nat)
  /-- R351: An engine makes no progress for NBWDOG.LIMIT cycles and Nimbus raises an alarm. -/
  | watchdog (core : Nat) (engine : EngId)
  /-- R351: A parity error in engine control state raises an alarm. -/
  | parityAlarm (core : Nat) (engine : EngId)
  /-- R351: An engine receives a response its state does not allow, raising an alarm. -/
  | protocolAlarm (core : Nat) (engine : EngId)
  /-- R354: An armed NBTEST fires when the target core's CYCLE reaches NBTCYC. -/
  | testAlarm (die : Nat)
  /-- R356: An engine due in the Drizzle round-robin is reset once it has written a mark or is idle. -/
  | drizzleReset (die : Nat)
  /-- R359: Clears a core's state and pool and restarts its tasks from checkpoints or entry points. -/
  | coreReset (core : Nat)
  /-- R361: Resets every core of a die and readmits the current phase of affected launches. -/
  | dieReset (die : Nat)
  /-- R362: Stops every queue, clears device registers and restarts Flambeol. -/
  | packageReset
  /-- R371: Admitted tasks have not ended within T1, so the ladder saves the queue's cores. -/
  | drainTimeout (q : Nat)
  /-- R339: A core's save image is complete once every remapped landing has arrived. -/
  | saveComplete (core : Nat)
  /-- R371: Cores not saved within T2 are reset. -/
  | saveTimeout (q : Nat)
  /-- R382: GSTEP advances; SCYC restarts and supersteps are admitted or completed. -/
  | stepBoundary
  /-- R383: SCYC reaches STEPLEN − SLACK and the cluster holds until the step boundary. -/
  | scycHold (cluster : Nat)
  /-- R381: A shadow latch detects a late transition and the cluster stops 2 cycles to repeat it. -/
  | replay (cluster : Nat)
  /-- R380: Detected supply droop stretches an elastic cluster's cycle. -/
  | droopStretch (cluster : Nat)
  /-- R393: A Drizzle window opens on a D2 die; running engines raise SCHED_BREAK and one engine is reset. -/
  | drizzleWindow (die : Nat)
  /-- R395: At step T >> 16 the cadence releases its head launch, advances T and counts missed ticks. -/
  | cadenceTick (q : Nat)
  /-- R394: Once earlier work has ended, a DETLEVEL takes effect and dies change clock regime. -/
  | levelSwitch (q : Nat)
  /-- R397: A flit is carried with a corrected lane error; a lasting lane is swapped out. -/
  | laneError (link lane : Nat)
  /-- R398: Every 2^20 reference cycles the next lane hands its traffic to the shadow lane and is recalibrated. -/
  | laneRotation (link : Nat)
  /-- R401: A corrected ECC error in an L2 way is counted; a lasting way is disabled. -/
  | l2EccError (die set way : Nat) (corrected : Bool) (line : Nat)
  /-- R402: A corrected ECC error in a pool line is counted; a lasting line is disabled. -/
  | poolEccError (core line : Nat) (corrected : Bool)
  /-- R404: A cluster falls due for its periodic test; Flambeol empties it and tests it. -/
  | inFieldTest (cluster : Nat)
  /-- R405: A cluster test ends; a failure retires the cluster and posts SUSPECT. -/
  | clusterTestResult (cluster : Nat) (pass : Bool)
  /-- R406: An armed snapshot trigger latches every snapshot register at a step start. -/
  | snapshotLatch
  /-- R407: Every 2^16 reference cycles the monitors sample into MON and throttle levels are set. -/
  | monSample (cluster : Nat) (proc vdd temp : BitVec 16) (watts : Nat)
  /-- R139: A word that is not an instruction (all-zero, class 0xE or 0xF, reserved op or field, or a custom-0 word of a Flambeol core with funct7 not 0 or funct3 4 to 7) raises ILLEGAL precisely, or mcause 2 on a Flambeol core. -/
  | illegal (word : BitVec 32)
  /-- R423: A Flambeol core sleeping in SWAIT with a nonzero limit wakes with rd = 0 when rs2 reference cycles have passed. -/
  | swaitTimeout (fcore : Nat)
  /-- R398: Flambeol retrains a Berby port while no D2 context routes over it, restoring full width, the lane calibration and the shadow-lane rotation. -/
  | linkRetrain (link : Nat)
  /-- R404: A cluster held for its in-field test that has not emptied within 1 s is emptied by the pre-emption ladder. -/
  | clusterEmptyTimeout (cluster : Nat)
  deriving DecidableEq, Repr

end Sys2Proof
end

