-- ==== Sys2Proof/WellFormed.lean ====
section
/-! DEFINITION. Which operations are well formed: the limits on operand fields that R134 to R136 and the
instruction descriptions place beyond the fixed bits of the word, and the numbers of units that exist (R15, R410). -/

namespace Sys2Proof

/-- The group size G that the W field selects (R134). -/
def groupSize (w : BitVec 2) : Nat := 2 ^ w.toNat

/-- A source field (R134): v0 to v47 at a multiple of G, or a latch when W = 0. -/
def vsrcOk (f : VField) (w : BitVec 2) : Bool :=
  (decide (f.toNat < 48) && f.toNat % groupSize w == 0) || (decide (48 ≤ f.toNat) && decide (f.toNat < 56) && w == 0)

/-- A field that names a group of `g` vector registers and no latch. -/
def vgroupOk (f : VField) (g : Nat) : Bool := decide (f.toNat < 48) && f.toNat % g == 0

/-- A destination field (R134): with nw = 1 it must be 0, otherwise a group of G registers. -/
def vdstOk (f : VField) (w : BitVec 2) (nw : Bool) : Bool := if nw then f == 0 else vgroupOk f (groupSize w)

/-- The destination field of a widening instruction (R135): a group of 2G registers. -/
def vwideDstOk (f : VField) (w : BitVec 2) (nw : Bool) : Bool :=
  if nw then f == 0 else vgroupOk f (2 * groupSize w)

/-- A register pair: an even number from 2 to 30 (R215, R268). -/
def pairOk (r : XReg) : Bool := r.toNat % 2 == 0 && decide (2 ≤ r.toNat)

/-- The operand limits of each operation. -/
def Instr.wf : Instr → Bool
  | .mulh _ _ _ _ => true
  | .mulhn _ _ _ _ => true
  | .div _ _ _ _ => true
  | .divn _ _ _ _ => true
  | .rem _ _ _ _ => true
  | .remn _ _ _ _ => true
  | .minn _ _ _ _ => true
  | .maxn _ _ _ _ => true
  | .slt _ _ _ _ => true
  | .sltn _ _ _ _ => true
  | .seq _ _ _ _ => true
  | .sne _ _ _ _ => true
  | .clz _ _ _ => true
  | .ctz _ _ _ => true
  | .popc _ _ _ => true
  | .brev _ _ _ => true
  | .bfx _ _ _ _ _ => true
  | .bfi _ _ _ _ => true
  | .sext _ _ _ => true
  | .zext _ _ _ => true
  | .sel _ _ _ _ _ => true
  | .madd _ _ _ _ => true
  | .cmpp _ _ _ _ _ => true
  | .plog _ _ b c => c != PlogOp.not || b == 0
  | .movp _ _ => true
  | .pmov _ _ _ => true
  | .addi _ _ _ => true
  | .andi _ _ _ => true
  | .ori _ _ _ => true
  | .xori _ _ _ => true
  | .slli _ _ _ => true
  | .srli _ _ _ => true
  | .srai _ _ _ => true
  | .slti _ _ _ => true
  | .sltni _ _ _ => true
  | .seqi _ _ _ => true
  | .muli _ _ _ => true
  | .li _ _ => true
  | .addpc _ _ => true
  | .bfxi _ _ _ _ => true
  | .bfii _ _ _ _ => true
  | .fadd _ _ _ _ _ => true
  | .fsub _ _ _ _ _ => true
  | .fmul _ _ _ _ _ => true
  | .ffma _ _ _ _ _ => true
  | .fdiv _ _ _ _ _ => true
  | .fsqrt _ _ _ _ => true
  | .fmin _ _ _ _ _ => true
  | .fmax _ _ _ _ _ => true
  | .fabs _ _ _ _ => true
  | .fneg _ _ _ _ => true
  | .fcmpp _ _ _ _ _ => true
  | .fcvti _ _ _ _ _ => true
  | .icvtf _ _ _ _ _ => true
  | .fcvt _ _ t s _ => t != s
  | .fclass _ _ _ _ => true
  | .ldS8 _ _ _ => true
  | .ldN8 _ _ _ => true
  | .ldS16 _ _ _ => true
  | .ldN16 _ _ _ => true
  | .ldS32 _ _ _ => true
  | .ldN32 _ _ _ => true
  | .ld64 _ _ _ => true
  | .st8 _ _ _ => true
  | .st16 _ _ _ => true
  | .st32 _ _ _ => true
  | .st64 _ _ _ => true
  | .ldx _ _ _ s e _ => !e || s != MemW.d
  | .stx _ _ _ _ _ => true
  | .pfh _ _ _ => true
  | .cbo _ _ _ => true
  | .tlook _ _ _ => true
  | .tins _ _ => true
  | .tdel _ => true
  | .beq _ _ _ => true
  | .bne _ _ _ => true
  | .blt _ _ _ => true
  | .bge _ _ _ => true
  | .bltn _ _ _ => true
  | .bgen _ _ _ => true
  | .bpt _ _ => true
  | .bpf _ _ => true
  | .loop a _ => a != 0
  | .jalr _ _ _ => true
  | .jal _ _ => true
  | .semSig _ _ _ => true
  | .semWait _ _ _ _ => true
  | .semAdd _ _ _ => true
  | .semSet _ _ => true
  | .semArm _ _ b => pairOk b
  | .phase _ _ => true
  | .bar _ _ => true
  | .gangJoin _ => true
  | .gangLeave _ => true
  | .amo _ _ _ _ _ => true
  | .amocas _ _ b _ => pairOk b
  | .amof _ _ _ _ => true
  | .toksig _ _ => true
  | .tokwait _ _ => true
  | .waite e _ => e != Eng.seq
  | .waitwm _ _ _ => true
  | .fenceE _ => true
  | .semRead _ _ => true
  | .cp _ => true
  | .cpt _ => true
  | .cpr _ => true
  | .cpg _ => true
  | .cps _ => true
  | .cpf _ => true
  | .cpred _ _ => true
  | .cppf _ n d => n || d == 0
  | .cpx _ => true
  | .wmrd _ _ _ _ => true
  | .rngaw _ _ => true
  | .rngrel _ => true
  | .rnginit _ _ _ => true
  | .cpq _ => true
  | .mxcfg _ _ _ => true
  | .mxldw _ _ => true
  | .mxldwScaled _ _ _ => true
  | .mxsta _ _ _ _ => true
  | .mxanc _ => true
  | .mxmrk a b => a != b || a == 0
  | .vadd d a b w n _ => vdstOk d w n && vsrcOk a w && vsrcOk b w
  | .vsub d a b w n _ => vdstOk d w n && vsrcOk a w && vsrcOk b w
  | .vmul d a b w n _ => vdstOk d w n && vsrcOk a w && vsrcOk b w
  | .vfma d a b w n _ => vdstOk d w n && vsrcOk a w && vsrcOk b w
  | .vmin d a b w n _ => vdstOk d w n && vsrcOk a w && vsrcOk b w
  | .vmax d a b w n _ => vdstOk d w n && vsrcOk a w && vsrcOk b w
  | .vabs d a w n _ => vdstOk d w n && vsrcOk a w
  | .vneg d a w n _ => vdstOk d w n && vsrcOk a w
  | .vand d a b w n _ => vdstOk d w n && vsrcOk a w && vsrcOk b w
  | .vor d a b w n _ => vdstOk d w n && vsrcOk a w && vsrcOk b w
  | .vxor d a b w n _ => vdstOk d w n && vsrcOk a w && vsrcOk b w
  | .vandn d a b w n _ => vdstOk d w n && vsrcOk a w && vsrcOk b w
  | .vshl d a b w n _ => vdstOk d w n && vsrcOk a w && vsrcOk b w
  | .vshr d a b w n _ => vdstOk d w n && vsrcOk a w && vsrcOk b w
  | .vsra d a b w n _ => vdstOk d w n && vsrcOk a w && vsrcOk b w
  | .vaddw d a b w n _ => w != 3 && vwideDstOk d w n && vsrcOk a w && vsrcOk b w
  | .vsubw d a b w n _ => w != 3 && vwideDstOk d w n && vsrcOk a w && vsrcOk b w
  | .vmulw d a b w n _ => w != 3 && vwideDstOk d w n && vsrcOk a w && vsrcOk b w
  | .vdotw d a b w n _ => vdstOk d w n && vsrcOk a w && vsrcOk b w
  | .vavg d a b w n _ => vdstOk d w n && vsrcOk a w && vsrcOk b w
  | .vsadd d a b w n _ => vdstOk d w n && vsrcOk a w && vsrcOk b w
  | .vssub d a b w n _ => vdstOk d w n && vsrcOk a w && vsrcOk b w
  | .vmulh d a b w n _ => vdstOk d w n && vsrcOk a w && vsrcOk b w
  | .vclamp d a b w n _ => vdstOk d w n && vsrcOk a w && vsrcOk b w
  | .vaddScalar d a _ w n _ => vdstOk d w n && vsrcOk a w
  | .vsubScalar d a _ w n _ => vdstOk d w n && vsrcOk a w
  | .vmulScalar d a _ w n _ => vdstOk d w n && vsrcOk a w
  | .vfmaScalar d a _ w n _ => vdstOk d w n && vsrcOk a w
  | .vminScalar d a _ w n _ => vdstOk d w n && vsrcOk a w
  | .vmaxScalar d a _ w n _ => vdstOk d w n && vsrcOk a w
  | .vandScalar d a _ w n _ => vdstOk d w n && vsrcOk a w
  | .vorScalar d a _ w n _ => vdstOk d w n && vsrcOk a w
  | .vxorScalar d a _ w n _ => vdstOk d w n && vsrcOk a w
  | .vandnScalar d a _ w n _ => vdstOk d w n && vsrcOk a w
  | .vshlScalar d a _ w n _ => vdstOk d w n && vsrcOk a w
  | .vshrScalar d a _ w n _ => vdstOk d w n && vsrcOk a w
  | .vsraScalar d a _ w n _ => vdstOk d w n && vsrcOk a w
  | .vaddwScalar d a _ w n _ => w != 3 && vwideDstOk d w n && vsrcOk a w
  | .vsubwScalar d a _ w n _ => w != 3 && vwideDstOk d w n && vsrcOk a w
  | .vmulwScalar d a _ w n _ => w != 3 && vwideDstOk d w n && vsrcOk a w
  | .vdotwScalar d a _ w n _ => vdstOk d w n && vsrcOk a w
  | .vavgScalar d a _ w n _ => vdstOk d w n && vsrcOk a w
  | .vsaddScalar d a _ w n _ => vdstOk d w n && vsrcOk a w
  | .vssubScalar d a _ w n _ => vdstOk d w n && vsrcOk a w
  | .vmulhScalar d a _ w n _ => vdstOk d w n && vsrcOk a w
  | .vclampScalar d a _ w n _ => vdstOk d w n && vsrcOk a w
  | .vcmpeq _ a b w _ => vsrcOk a w && vsrcOk b w
  | .vcmpne _ a b w _ => vsrcOk a w && vsrcOk b w
  | .vcmplt _ a b w _ => vsrcOk a w && vsrcOk b w
  | .vcmple _ a b w _ => vsrcOk a w && vsrcOk b w
  | .vcmpltn _ a b w _ => vsrcOk a w && vsrcOk b w
  | .vcmplen _ a b w _ => vsrcOk a w && vsrcOk b w
  | .vcmpeqScalar _ a _ w _ => vsrcOk a w
  | .vcmpneScalar _ a _ w _ => vsrcOk a w
  | .vcmpltScalar _ a _ w _ => vsrcOk a w
  | .vcmpleScalar _ a _ w _ => vsrcOk a w
  | .vcmpltnScalar _ a _ w _ => vsrcOk a w
  | .vcmplenScalar _ a _ w _ => vsrcOk a w
  | .vsel d a b w n => vdstOk d w n && vsrcOk a w && vsrcOk b w
  | .vmand _ _ _ _ => true
  | .vmor _ _ _ _ => true
  | .vmxor _ _ _ _ => true
  | .vmnot _ _ _ => true
  | .vmpop _ _ _ => true
  | .vmfirst _ _ _ => true
  | .vperm d a b w n _ => vdstOk d w n && vsrcOk a w && vsrcOk b w
  | .vrot d a _ w n _ => vdstOk d w n && vsrcOk a w
  | .vslideup d a _ w n _ => vdstOk d w n && vsrcOk a w
  | .vslidedn d a _ w n _ => vdstOk d w n && vsrcOk a w
  | .vzip d a b w n _ => w != 3 && vwideDstOk d w n && vsrcOk a w && vsrcOk b w
  | .vunzip d a w n _ => w != 3 && vwideDstOk d w n && vgroupOk a (2 * groupSize w)
  | .vbcast d _ w n _ => vdstOk d w n
  | .vins d _ _ w n _ => vdstOk d w n
  | .vext _ a _ w => vsrcOk a w
  | .vcompress d a _ w n => vdstOk d w n && vsrcOk a w
  | .viota d _ w n _ => vdstOk d w n
  | .vmovv d a w n _ => vdstOk d w n && vsrcOk a w
  | .vld d _ _ w n _ => vdstOk d w n
  | .vst d _ _ w _ => vgroupOk d (groupSize w)
  | .vlds d _ _ w n _ => vdstOk d w n
  | .vsts d _ _ w _ => vgroupOk d (groupSize w)
  | .vldg d _ b w n _ => vdstOk d w n && vsrcOk b w && (w == 0 || n || b != d)
  | .vstg d _ b w _ => vgroupOk d (groupSize w) && vsrcOk b w && (w == 0 || b != d)
  | .vcvt d a _ w n _ => vdstOk d w n && vsrcOk a w
  | .vqnt d a k n => vdstOk d 0 n && vgroupOk a 4 && pairOk k
  | .vdqnt d a k n => vdstOk d 2 n && vgroupOk a 1 && pairOk k
  | .vround d a w n _ => vdstOk d w n && vsrcOk a w
  | .vnarrow d a _ w n _ => w != 3 && vdstOk d w n && vgroupOk a (2 * groupSize w)
  | .vsett _ _ _ => true
  | .vexp2 d a w n _ => vdstOk d w n && vsrcOk a w
  | .vlog2 d a w n _ => vdstOk d w n && vsrcOk a w
  | .vexp d a w n _ => vdstOk d w n && vsrcOk a w
  | .vlog d a w n _ => vdstOk d w n && vsrcOk a w
  | .vrcp d a w n _ => vdstOk d w n && vsrcOk a w
  | .vrsq d a w n _ => vdstOk d w n && vsrcOk a w
  | .vsqrt d a w n _ => vdstOk d w n && vsrcOk a w
  | .vtanh d a w n _ => vdstOk d w n && vsrcOk a w
  | .vsigm d a w n _ => vdstOk d w n && vsrcOk a w
  | .vsin d a w n _ => vdstOk d w n && vsrcOk a w
  | .vcos d a w n _ => vdstOk d w n && vsrcOk a w
  | .vdiv d a b w n _ => vdstOk d w n && vsrcOk a w && vsrcOk b w
  | .vredsum d a n _ => vdstOk d 0 n && vsrcOk a 0
  | .vredmax d a n _ => vdstOk d 0 n && vsrcOk a 0
  | .vredmin d a n _ => vdstOk d 0 n && vsrcOk a 0
  | .vscan d a n _ => vdstOk d 0 n && vsrcOk a 0
  | .vexpmax _ a _ => vsrcOk a 0
  | .vacc d a f _ => vgroupOk d 2 && vsrcOk a 0 && decide (f.toNat ≤ 5)
  | .vacccvt d a n _ => vdstOk d 0 n && vgroupOk a 2
  | .vrng d a _ n => vdstOk d 0 n && vsrcOk a 0
  | .spawn _ _ _ => true
  | .spawng _ _ _ _ => true
  | .yield _ => true
  | .role _ => true
  | .csrr _ _ => true
  | .csrw _ _ => true
  | .csrs _ _ => true
  | .csrc _ _ => true
  | .trap _ => true
  | .bkpt _ => true
  | .launch _ => true
  | .add _ _ _ _ => true
  | .sub _ _ _ _ => true
  | .and _ _ _ _ => true
  | .or _ _ _ _ => true
  | .xor _ _ _ _ => true
  | .andn _ _ _ _ => true
  | .orn _ _ _ _ => true
  | .sll _ _ _ _ => true
  | .srl _ _ _ _ => true
  | .sra _ _ _ _ => true
  | .rol _ _ _ _ => true
  | .ror _ _ _ _ => true
  | .mul _ _ _ _ => true
  | .min _ _ _ _ => true
  | .max _ _ _ _ => true
  | .lix _ => true
  | .mxswp => true
  | .mxgo => true
  | .mxgog => true
  | .mxclr => true
  | .exit => true
  | .eret => true
  | .nop => true
  | .rfetch _ _ => true
  | .flambeolBfx _ _ _ => true
  | .swait _ _ _ => true
  | .disp _ _ _ => true
  | .nopPacket q => decide (q < 4096)
  | .launchPacket q => decide (q < 4096)
  | .waitPacket q => decide (q < 4096)
  | .signalPacket q => decide (q < 4096)
  | .copyPacket q => decide (q < 4096)
  | .detlevel q => decide (q < 4096)
  | .cadence q => decide (q < 4096)
  | .barrier q => decide (q < 4096)
  | .doorbell q _ => decide (q < 4096)
  | .pendingMapScan => true
  | .create => true
  | .destroy => true
  | .qreset => true
  | .preempt => true
  | .resume => true
  | .pkgreset => true
  | .update => true
  | .slotwrite => true
  | .slotverify => true
  | .setslot => true
  | .pcap => true
  | .setparam => true
  | .snapshot => true
  | .devread => true
  | .devwrite => true
  | .clearmap => true
  | .group => true
  | .getMeasurements => true
  | .challenge _ => true
  | .deviceRegisterWrite _ _ _ => true
  | .hbeat _ => true
  | .heartbeatTimeout => true
  | .boot => true
  | .systemEnumeration _ _ _ => true
  | .reducedServiceEnd => true
  | .flit _ => true
  | .routeCostFlit port _ => decide (port < 36)
  | .launchAdmission die => decide (die < 8)
  | .phaseAdmission _ => true
  | .spillRefill die => decide (die < 8)
  | .launchEnd _ => true
  | .semUpdateAtHome die => decide (die < 8)
  | .semWaitComplete core slot => decide (core < 768) && decide (slot < 4)
  | .gangArrivalAtHome die => decide (die < 8)
  | .barComplete core slot => decide (core < 768) && decide (slot < 4)
  | .atomicAtHome core slot => decide (core < 768) && decide (slot < 4)
  | .reductionMerge core => decide (core < 768)
  | .homeFence q home => decide (q < 4096) && decide (home < 33)
  | .queueResetComplete q => decide (q < 4096)
  | .parkWake core _ => decide (core < 768)
  | .parkTimeout core _ => decide (core < 768)
  | .shootdown q _ _ => decide (q < 4096)
  | .shootdownAck core => decide (core < 768)
  | .shootWaitExpiry core => decide (core < 768)
  | .vectorEntryStart core => decide (core < 768)
  | .vectorEntryEnd core => decide (core < 768)
  | .copyEntryStart core => decide (core < 768)
  | .cptRelease core => decide (core < 768)
  | .copyRowLanded core _ => decide (core < 768)
  | .copyEntryEnd core _ => decide (core < 768)
  | .matrixEntryStart core => decide (core < 768)
  | .planeLoadDone core => decide (core < 768)
  | .matrixPass core => decide (core < 768)
  | .matrixCommit core => decide (core < 768)
  | .engineTrapDelivery core slot => decide (core < 768) && decide (slot < 4)
  | .watchdog core _ => decide (core < 768)
  | .parityAlarm core _ => decide (core < 768)
  | .protocolAlarm core _ => decide (core < 768)
  | .testAlarm die => decide (die < 8)
  | .drizzleReset die => decide (die < 8)
  | .coreReset core => decide (core < 768)
  | .dieReset die => decide (die < 8)
  | .packageReset => true
  | .drainTimeout q => decide (q < 4096)
  | .saveComplete core => decide (core < 768)
  | .saveTimeout q => decide (q < 4096)
  | .stepBoundary => true
  | .scycHold cluster => decide (cluster < 192)
  | .replay cluster => decide (cluster < 192)
  | .droopStretch cluster => decide (cluster < 192)
  | .drizzleWindow die => decide (die < 8)
  | .cadenceTick q => decide (q < 4096)
  | .levelSwitch q => decide (q < 4096)
  | .laneError link _ => decide (link < 56)
  | .laneRotation link => decide (link < 56)
  | .l2EccError die set way _ _ => decide (die < 8) && decide (set < 49152) && decide (way < 16)
  | .poolEccError core line _ => decide (core < 768) && decide (line < 8448)
  | .inFieldTest cluster => decide (cluster < 192)
  | .clusterTestResult cluster _ => decide (cluster < 192)
  | .snapshotLatch => true
  | .monSample cluster _ _ _ _ => decide (cluster < 192)
  | .illegal _ => true
  | .swaitTimeout fcore => decide (fcore < 16)
  | .linkRetrain link => decide (link < 56)
  | .clusterEmptyTimeout cluster => decide (cluster < 192)

end Sys2Proof
end

