-- ==== Sys2Proof/Decode.lean ====
section
/-! DEFINITION. The codes of the enumerated fields, the decoder of instruction words (R130 to R139, R422) and the
encoder of well-formed instructions, both written from the field tables of R131 and the opcode map of R133. -/

namespace Sys2Proof

/-- The code of each value of `Size` (R132). -/
def Size.code : Size → Nat
  | .d64 => 0
  | .w32 => 1
/-- The value a code of R132 names; none where it is reserved. -/
def Size.ofCode : Nat → Option Size
  | 0 => some .d64
  | 1 => some .w32
  | _ => none

/-- The code of each value of `ExtW` (R154). -/
def ExtW.code : ExtW → Nat
  | .b8 => 0
  | .h16 => 1
  | .w32 => 2
/-- The value a code of R154 names; none where it is reserved. -/
def ExtW.ofCode : Nat → Option ExtW
  | 0 => some .b8
  | 1 => some .h16
  | 2 => some .w32
  | _ => none

/-- The code of each value of `Cond` (R156). -/
def Cond.code : Cond → Nat
  | .eq => 0
  | .ne => 1
  | .lt => 2
  | .ge => 3
  | .ltn => 4
  | .gen => 5
/-- The value a code of R156 names; none where it is reserved. -/
def Cond.ofCode : Nat → Option Cond
  | 0 => some .eq
  | 1 => some .ne
  | 2 => some .lt
  | 3 => some .ge
  | 4 => some .ltn
  | 5 => some .gen
  | _ => none

/-- The code of each value of `PlogOp` (R157). -/
def PlogOp.code : PlogOp → Nat
  | .and => 0
  | .or => 1
  | .xor => 2
  | .andn => 3
  | .orn => 4
  | .not => 5
/-- The value a code of R157 names; none where it is reserved. -/
def PlogOp.ofCode : Nat → Option PlogOp
  | 0 => some .and
  | 1 => some .or
  | 2 => some .xor
  | 3 => some .andn
  | 4 => some .orn
  | 5 => some .not
  | _ => none

/-- The code of each value of `FFmt` (R132). -/
def FFmt.code : FFmt → Nat
  | .f32 => 0
  | .bf16 => 1
  | .f16 => 2
/-- The value a code of R132 names; none where it is reserved. -/
def FFmt.ofCode : Nat → Option FFmt
  | 0 => some .f32
  | 1 => some .bf16
  | 2 => some .f16
  | _ => none

/-- The code of each value of `Rnd` (R132). -/
def Rnd.code : Rnd → Nat
  | .dyn => 0
  | .rne => 1
  | .rtz => 2
  | .rdn => 3
  | .rup => 4
  | .rna => 5
/-- The value a code of R132 names; none where it is reserved. -/
def Rnd.ofCode : Nat → Option Rnd
  | 0 => some .dyn
  | 1 => some .rne
  | 2 => some .rtz
  | 3 => some .rdn
  | 4 => some .rup
  | 5 => some .rna
  | _ => none

/-- The code of each value of `FRel` (R165). -/
def FRel.code : FRel → Nat
  | .eq => 0
  | .lt => 1
  | .le => 2
  | .un => 3
  | .ne => 4
  | .ord => 5
/-- The value a code of R165 names; none where it is reserved. -/
def FRel.ofCode : Nat → Option FRel
  | 0 => some .eq
  | 1 => some .lt
  | 2 => some .le
  | 3 => some .un
  | 4 => some .ne
  | 5 => some .ord
  | _ => none

/-- The code of each value of `IntTy` (R166). -/
def IntTy.code : IntTy → Nat
  | .s64 => 0
  | .n64 => 1
  | .s32 => 2
  | .n32 => 3
/-- The value a code of R166 names; none where it is reserved. -/
def IntTy.ofCode : Nat → Option IntTy
  | 0 => some .s64
  | 1 => some .n64
  | 2 => some .s32
  | 3 => some .n32
  | _ => none

/-- The code of each value of `MemW` (R177). -/
def MemW.code : MemW → Nat
  | .b => 0
  | .h => 1
  | .w => 2
  | .d => 3
/-- The value a code of R177 names; none where it is reserved. -/
def MemW.ofCode : Nat → Option MemW
  | 0 => some .b
  | 1 => some .h
  | 2 => some .w
  | 3 => some .d
  | _ => none

/-- The code of each value of `PfhTo` (R179). -/
def PfhTo.code : PfhTo → Nat
  | .pool => 0
  | .l2 => 1
/-- The value a code of R179 names; none where it is reserved. -/
def PfhTo.ofCode : Nat → Option PfhTo
  | 0 => some .pool
  | 1 => some .l2
  | _ => none

/-- The code of each value of `CboOp` (R180). -/
def CboOp.code : CboOp → Nat
  | .clean => 0
  | .flush => 1
/-- The value a code of R180 names; none where it is reserved. -/
def CboOp.ofCode : Nat → Option CboOp
  | 0 => some .clean
  | 1 => some .flush
  | _ => none

/-- The code of each value of `Scope` (R132). -/
def Scope.code : Scope → Nat
  | .core => 0
  | .cluster => 1
  | .die => 2
  | .package => 3
  | .system => 4
/-- The value a code of R132 names; none where it is reserved. -/
def Scope.ofCode : Nat → Option Scope
  | 0 => some .core
  | 1 => some .cluster
  | 2 => some .die
  | 3 => some .package
  | 4 => some .system
  | _ => none

/-- The code of each value of `AmoOp` (R132). -/
def AmoOp.code : AmoOp → Nat
  | .add => 0
  | .and => 1
  | .or => 2
  | .xor => 3
  | .swp => 4
  | .min => 5
  | .max => 6
  | .minn => 7
  | .maxn => 8
/-- The value a code of R132 names; none where it is reserved. -/
def AmoOp.ofCode : Nat → Option AmoOp
  | 0 => some .add
  | 1 => some .and
  | 2 => some .or
  | 3 => some .xor
  | 4 => some .swp
  | 5 => some .min
  | 6 => some .max
  | 7 => some .minn
  | 8 => some .maxn
  | _ => none

/-- The code of each value of `Eng` (R215). -/
def Eng.code : Eng → Nat
  | .seq => 0
  | .vec => 1
  | .copy => 2
  | .mx => 3
/-- The value a code of R215 names; none where it is reserved. -/
def Eng.ofCode : Nat → Option Eng
  | 0 => some .seq
  | 1 => some .vec
  | 2 => some .copy
  | 3 => some .mx
  | _ => none

/-- The code of each value of `RecBase` (R340). -/
def RecBase.code : RecBase → Nat
  | .x8 => 8
  | .x16 => 16
  | .x24 => 24
/-- The value a code of R340 names; none where it is reserved. -/
def RecBase.ofCode : Nat → Option RecBase
  | 8 => some .x8
  | 16 => some .x16
  | 24 => some .x24
  | _ => none

/-- The code of each value of `RedMode` (R340). -/
def RedMode.code : RedMode → Nat
  | .acc => 0
  | .fp32 => 1
/-- The value a code of R340 names; none where it is reserved. -/
def RedMode.ofCode : Nat → Option RedMode
  | 0 => some .acc
  | 1 => some .fp32
  | _ => none

/-- The code of each value of `Role` (R31). -/
def Role.code : Role → Nat
  | .epilogue => 0
  | .arith => 1
  | .loader => 2
/-- The value a code of R31 names; none where it is reserved. -/
def Role.ofCode : Nat → Option Role
  | 0 => some .epilogue
  | 1 => some .arith
  | 2 => some .loader
  | _ => none

/-- The code of each value of `VType` (R246). -/
def VType.code : VType → Nat
  | .i8 => 0
  | .n8 => 1
  | .i16 => 2
  | .n16 => 3
  | .i32 => 4
  | .n32 => 5
  | .fp32 => 6
  | .bf16 => 7
  | .fp16 => 8
  | .tf8 => 9
  | .i4 => 10
  | .n4 => 11
/-- The value a code of R246 names; none where it is reserved. -/
def VType.ofCode : Nat → Option VType
  | 0 => some .i8
  | 1 => some .n8
  | 2 => some .i16
  | 3 => some .n16
  | 4 => some .i32
  | 5 => some .n32
  | 6 => some .fp32
  | 7 => some .bf16
  | 8 => some .fp16
  | 9 => some .tf8
  | 10 => some .i4
  | 11 => some .n4
  | _ => none

/-- The code of each value of `EngId` (R353). -/
def EngId.code : EngId → Nat
  | .vec => 0
  | .copy => 1
  | .mx => 2
/-- The value a code of R353 names; none where it is reserved. -/
def EngId.ofCode : Nat → Option EngId
  | 0 => some .vec
  | 1 => some .copy
  | 2 => some .mx
  | _ => none

/-- The sz code of AMO, AMOCAS and AMOF: a scope, or 7 (R132). -/
def AmoScope.code : AmoScope → Nat
  | .pub s => s.code
  | .unpublished => 7
/-- The meaning of the sz code of AMO, AMOCAS and AMOF; 5 and 6 are reserved (R132). -/
def AmoScope.ofCode : Nat → Option AmoScope
  | 7 => some .unpublished
  | n => (Scope.ofCode n).map .pub

/-- The field of `len` bits of a word that starts at bit `lo`. -/
def fld (n lo len : Nat) : Nat := n / 2 ^ lo % 2 ^ len
/-- The same field as a bit vector. -/
def fldBv (len n lo : Nat) : BitVec len := BitVec.ofNat len (n / 2 ^ lo)
/-- A one-bit field. -/
def fldBit (n lo : Nat) : Bool := n / 2 ^ lo % 2 == 1

/-- Why a word is not an instruction (R139). -/
inductive DecodeError
  | reservedClass     -- class 0xE or 0xF, or no custom-0 word of a queue core
  | reservedOp        -- a reserved op or cc
  | nonzeroField      -- a field that must be 0 is not
  | reservedValue     -- a reserved sz, fn or operand value
  | illFormed         -- a breach of a limit on operands (R134 to R136, the descriptions)
  deriving DecidableEq, Repr

/-- Refuse unless the fields that must be zero are zero. -/
def whenZero (b : Bool) (r : Except DecodeError Instr) : Except DecodeError Instr :=
  if b then r else .error .nonzeroField

/-- A coded operand field: refuse a reserved code. -/
def coded {α : Type} (v : Option α) (k : α → Except DecodeError Instr) : Except DecodeError Instr :=
  match v with
  | some a => k a
  | none => .error .reservedValue

/-- Class 0x0 by its op field (R133). -/
noncomputable def decodeClass0 (n : Nat) : Except DecodeError Instr :=
  match fld n 22 6 with
  | 14 => whenZero (fld n 0 4 == 0) (coded (Size.ofCode (fld n 4 3)) fun c0 => .ok (.mulh (fldBv 5 n 17) (fldBv 5 n 12) (fldBv 5 n 7) c0))
  | 15 => whenZero (fld n 0 4 == 0) (coded (Size.ofCode (fld n 4 3)) fun c0 => .ok (.mulhn (fldBv 5 n 17) (fldBv 5 n 12) (fldBv 5 n 7) c0))
  | 16 => whenZero (fld n 0 4 == 0) (coded (Size.ofCode (fld n 4 3)) fun c0 => .ok (.div (fldBv 5 n 17) (fldBv 5 n 12) (fldBv 5 n 7) c0))
  | 17 => whenZero (fld n 0 4 == 0) (coded (Size.ofCode (fld n 4 3)) fun c0 => .ok (.divn (fldBv 5 n 17) (fldBv 5 n 12) (fldBv 5 n 7) c0))
  | 18 => whenZero (fld n 0 4 == 0) (coded (Size.ofCode (fld n 4 3)) fun c0 => .ok (.rem (fldBv 5 n 17) (fldBv 5 n 12) (fldBv 5 n 7) c0))
  | 19 => whenZero (fld n 0 4 == 0) (coded (Size.ofCode (fld n 4 3)) fun c0 => .ok (.remn (fldBv 5 n 17) (fldBv 5 n 12) (fldBv 5 n 7) c0))
  | 22 => whenZero (fld n 0 4 == 0) (coded (Size.ofCode (fld n 4 3)) fun c0 => .ok (.minn (fldBv 5 n 17) (fldBv 5 n 12) (fldBv 5 n 7) c0))
  | 23 => whenZero (fld n 0 4 == 0) (coded (Size.ofCode (fld n 4 3)) fun c0 => .ok (.maxn (fldBv 5 n 17) (fldBv 5 n 12) (fldBv 5 n 7) c0))
  | 24 => whenZero (fld n 0 4 == 0) (coded (Size.ofCode (fld n 4 3)) fun c0 => .ok (.slt (fldBv 5 n 17) (fldBv 5 n 12) (fldBv 5 n 7) c0))
  | 25 => whenZero (fld n 0 4 == 0) (coded (Size.ofCode (fld n 4 3)) fun c0 => .ok (.sltn (fldBv 5 n 17) (fldBv 5 n 12) (fldBv 5 n 7) c0))
  | 26 => whenZero (fld n 0 4 == 0) (coded (Size.ofCode (fld n 4 3)) fun c0 => .ok (.seq (fldBv 5 n 17) (fldBv 5 n 12) (fldBv 5 n 7) c0))
  | 27 => whenZero (fld n 0 4 == 0) (coded (Size.ofCode (fld n 4 3)) fun c0 => .ok (.sne (fldBv 5 n 17) (fldBv 5 n 12) (fldBv 5 n 7) c0))
  | 28 => whenZero (fld n 0 4 == 0 && fld n 7 5 == 0) (coded (Size.ofCode (fld n 4 3)) fun c0 => .ok (.clz (fldBv 5 n 17) (fldBv 5 n 12) c0))
  | 29 => whenZero (fld n 0 4 == 0 && fld n 7 5 == 0) (coded (Size.ofCode (fld n 4 3)) fun c0 => .ok (.ctz (fldBv 5 n 17) (fldBv 5 n 12) c0))
  | 30 => whenZero (fld n 0 4 == 0 && fld n 7 5 == 0) (coded (Size.ofCode (fld n 4 3)) fun c0 => .ok (.popc (fldBv 5 n 17) (fldBv 5 n 12) c0))
  | 31 => whenZero (fld n 0 4 == 0 && fld n 7 5 == 0) (coded (Size.ofCode (fld n 4 3)) fun c0 => .ok (.brev (fldBv 5 n 17) (fldBv 5 n 12) c0))
  | 32 => whenZero (fld n 1 3 == 0) (coded (Size.ofCode (fld n 4 3)) fun c0 => .ok (.bfx (fldBv 5 n 17) (fldBv 5 n 12) (fldBv 5 n 7) c0 (fldBit n 0)))
  | 33 => whenZero (fld n 0 4 == 0) (coded (Size.ofCode (fld n 4 3)) fun c0 => .ok (.bfi (fldBv 5 n 17) (fldBv 5 n 12) (fldBv 5 n 7) c0))
  | 34 => whenZero (fld n 2 10 == 0) (coded (ExtW.ofCode (fld n 0 2)) fun c0 => .ok (.sext (fldBv 5 n 17) (fldBv 5 n 12) c0))
  | 35 => whenZero (fld n 2 10 == 0) (coded (ExtW.ofCode (fld n 0 2)) fun c0 => .ok (.zext (fldBv 5 n 17) (fldBv 5 n 12) c0))
  | 36 => whenZero (fld n 3 1 == 0) (coded (Size.ofCode (fld n 4 3)) fun c0 => .ok (.sel (fldBv 5 n 17) (fldBv 5 n 12) (fldBv 5 n 7) c0 (fldBv 3 n 0)))
  | 37 => whenZero (fld n 0 4 == 0) (coded (Size.ofCode (fld n 4 3)) fun c0 => .ok (.madd (fldBv 5 n 17) (fldBv 5 n 12) (fldBv 5 n 7) c0))
  | 38 => whenZero (fld n 20 2 == 0) (coded (Size.ofCode (fld n 4 3)) fun c0 => coded (Cond.ofCode (fld n 0 4)) fun c1 => .ok (.cmpp (fldBv 3 n 17) (fldBv 5 n 12) (fldBv 5 n 7) c0 c1))
  | 39 => whenZero (fld n 4 3 == 0 && fld n 10 2 == 0 && fld n 15 2 == 0 && fld n 20 2 == 0) (coded (PlogOp.ofCode (fld n 0 4)) fun c0 => .ok (.plog (fldBv 3 n 17) (fldBv 3 n 12) (fldBv 3 n 7) c0))
  | 40 => whenZero (fld n 0 12 == 0 && fld n 15 2 == 0) (.ok (.movp (fldBv 5 n 17) (fldBv 3 n 12)))
  | 41 => whenZero (fld n 0 4 == 0 && fld n 7 5 == 0 && fld n 20 2 == 0) (coded (Size.ofCode (fld n 4 3)) fun c0 => .ok (.pmov (fldBv 3 n 17) (fldBv 5 n 12) c0))
  | 1 => whenZero (fld n 0 4 == 0) (coded (Size.ofCode (fld n 4 3)) fun c0 => .ok (.add (fldBv 5 n 17) (fldBv 5 n 12) (fldBv 5 n 7) c0))
  | 2 => whenZero (fld n 0 4 == 0) (coded (Size.ofCode (fld n 4 3)) fun c0 => .ok (.sub (fldBv 5 n 17) (fldBv 5 n 12) (fldBv 5 n 7) c0))
  | 3 => whenZero (fld n 0 4 == 0) (coded (Size.ofCode (fld n 4 3)) fun c0 => .ok (.and (fldBv 5 n 17) (fldBv 5 n 12) (fldBv 5 n 7) c0))
  | 4 => whenZero (fld n 0 4 == 0) (coded (Size.ofCode (fld n 4 3)) fun c0 => .ok (.or (fldBv 5 n 17) (fldBv 5 n 12) (fldBv 5 n 7) c0))
  | 5 => whenZero (fld n 0 4 == 0) (coded (Size.ofCode (fld n 4 3)) fun c0 => .ok (.xor (fldBv 5 n 17) (fldBv 5 n 12) (fldBv 5 n 7) c0))
  | 6 => whenZero (fld n 0 4 == 0) (coded (Size.ofCode (fld n 4 3)) fun c0 => .ok (.andn (fldBv 5 n 17) (fldBv 5 n 12) (fldBv 5 n 7) c0))
  | 7 => whenZero (fld n 0 4 == 0) (coded (Size.ofCode (fld n 4 3)) fun c0 => .ok (.orn (fldBv 5 n 17) (fldBv 5 n 12) (fldBv 5 n 7) c0))
  | 8 => whenZero (fld n 0 4 == 0) (coded (Size.ofCode (fld n 4 3)) fun c0 => .ok (.sll (fldBv 5 n 17) (fldBv 5 n 12) (fldBv 5 n 7) c0))
  | 9 => whenZero (fld n 0 4 == 0) (coded (Size.ofCode (fld n 4 3)) fun c0 => .ok (.srl (fldBv 5 n 17) (fldBv 5 n 12) (fldBv 5 n 7) c0))
  | 10 => whenZero (fld n 0 4 == 0) (coded (Size.ofCode (fld n 4 3)) fun c0 => .ok (.sra (fldBv 5 n 17) (fldBv 5 n 12) (fldBv 5 n 7) c0))
  | 11 => whenZero (fld n 0 4 == 0) (coded (Size.ofCode (fld n 4 3)) fun c0 => .ok (.rol (fldBv 5 n 17) (fldBv 5 n 12) (fldBv 5 n 7) c0))
  | 12 => whenZero (fld n 0 4 == 0) (coded (Size.ofCode (fld n 4 3)) fun c0 => .ok (.ror (fldBv 5 n 17) (fldBv 5 n 12) (fldBv 5 n 7) c0))
  | 13 => whenZero (fld n 0 4 == 0) (coded (Size.ofCode (fld n 4 3)) fun c0 => .ok (.mul (fldBv 5 n 17) (fldBv 5 n 12) (fldBv 5 n 7) c0))
  | 20 => whenZero (fld n 0 4 == 0) (coded (Size.ofCode (fld n 4 3)) fun c0 => .ok (.min (fldBv 5 n 17) (fldBv 5 n 12) (fldBv 5 n 7) c0))
  | 21 => whenZero (fld n 0 4 == 0) (coded (Size.ofCode (fld n 4 3)) fun c0 => .ok (.max (fldBv 5 n 17) (fldBv 5 n 12) (fldBv 5 n 7) c0))
  | _ => .error .reservedOp

/-- Class 0x1 by its op field (R133). -/
def decodeClass1 (n : Nat) : Except DecodeError Instr :=
  match fld n 22 6 with
  | 1 => .ok (.addi (fldBv 5 n 17) (fldBv 5 n 12) (fldBv 12 n 0))
  | 2 => .ok (.andi (fldBv 5 n 17) (fldBv 5 n 12) (fldBv 12 n 0))
  | 3 => .ok (.ori (fldBv 5 n 17) (fldBv 5 n 12) (fldBv 12 n 0))
  | 4 => .ok (.xori (fldBv 5 n 17) (fldBv 5 n 12) (fldBv 12 n 0))
  | 5 => whenZero (fld n 6 6 == 0) (.ok (.slli (fldBv 5 n 17) (fldBv 5 n 12) (fldBv 6 n 0)))
  | 6 => whenZero (fld n 6 6 == 0) (.ok (.srli (fldBv 5 n 17) (fldBv 5 n 12) (fldBv 6 n 0)))
  | 7 => whenZero (fld n 6 6 == 0) (.ok (.srai (fldBv 5 n 17) (fldBv 5 n 12) (fldBv 6 n 0)))
  | 8 => .ok (.slti (fldBv 5 n 17) (fldBv 5 n 12) (fldBv 12 n 0))
  | 9 => .ok (.sltni (fldBv 5 n 17) (fldBv 5 n 12) (fldBv 12 n 0))
  | 10 => .ok (.seqi (fldBv 5 n 17) (fldBv 5 n 12) (fldBv 12 n 0))
  | 11 => .ok (.muli (fldBv 5 n 17) (fldBv 5 n 12) (fldBv 12 n 0))
  | 12 => whenZero (fld n 12 5 == 0) (.ok (.li (fldBv 5 n 17) (fldBv 12 n 0)))
  | 13 => whenZero (fld n 12 5 == 0) (.ok (.addpc (fldBv 5 n 17) (fldBv 12 n 0)))
  | 14 => .ok (.bfxi (fldBv 5 n 17) (fldBv 5 n 12) (fldBv 6 n 6) (fldBv 6 n 0))
  | 15 => .ok (.bfii (fldBv 5 n 17) (fldBv 5 n 12) (fldBv 6 n 6) (fldBv 6 n 0))
  | _ => .error .reservedOp

/-- Class 0x2 by its op field (R133). -/
def decodeClass2 (n : Nat) : Except DecodeError Instr :=
  match fld n 22 6 with
  | 1 => whenZero (fld n 3 1 == 0) (coded (FFmt.ofCode (fld n 4 3)) fun c0 => coded (Rnd.ofCode (fld n 0 3)) fun c1 => .ok (.fadd (fldBv 5 n 17) (fldBv 5 n 12) (fldBv 5 n 7) c0 c1))
  | 2 => whenZero (fld n 3 1 == 0) (coded (FFmt.ofCode (fld n 4 3)) fun c0 => coded (Rnd.ofCode (fld n 0 3)) fun c1 => .ok (.fsub (fldBv 5 n 17) (fldBv 5 n 12) (fldBv 5 n 7) c0 c1))
  | 3 => whenZero (fld n 3 1 == 0) (coded (FFmt.ofCode (fld n 4 3)) fun c0 => coded (Rnd.ofCode (fld n 0 3)) fun c1 => .ok (.fmul (fldBv 5 n 17) (fldBv 5 n 12) (fldBv 5 n 7) c0 c1))
  | 4 => whenZero (fld n 3 1 == 0) (coded (FFmt.ofCode (fld n 4 3)) fun c0 => coded (Rnd.ofCode (fld n 0 3)) fun c1 => .ok (.ffma (fldBv 5 n 17) (fldBv 5 n 12) (fldBv 5 n 7) c0 c1))
  | 5 => whenZero (fld n 3 1 == 0) (coded (FFmt.ofCode (fld n 4 3)) fun c0 => coded (Rnd.ofCode (fld n 0 3)) fun c1 => .ok (.fdiv (fldBv 5 n 17) (fldBv 5 n 12) (fldBv 5 n 7) c0 c1))
  | 6 => whenZero (fld n 3 1 == 0 && fld n 7 5 == 0) (coded (FFmt.ofCode (fld n 4 3)) fun c0 => coded (Rnd.ofCode (fld n 0 3)) fun c1 => .ok (.fsqrt (fldBv 5 n 17) (fldBv 5 n 12) c0 c1))
  | 7 => whenZero (fld n 3 1 == 0) (coded (FFmt.ofCode (fld n 4 3)) fun c0 => coded (Rnd.ofCode (fld n 0 3)) fun c1 => .ok (.fmin (fldBv 5 n 17) (fldBv 5 n 12) (fldBv 5 n 7) c0 c1))
  | 8 => whenZero (fld n 3 1 == 0) (coded (FFmt.ofCode (fld n 4 3)) fun c0 => coded (Rnd.ofCode (fld n 0 3)) fun c1 => .ok (.fmax (fldBv 5 n 17) (fldBv 5 n 12) (fldBv 5 n 7) c0 c1))
  | 9 => whenZero (fld n 3 1 == 0 && fld n 7 5 == 0) (coded (FFmt.ofCode (fld n 4 3)) fun c0 => coded (Rnd.ofCode (fld n 0 3)) fun c1 => .ok (.fabs (fldBv 5 n 17) (fldBv 5 n 12) c0 c1))
  | 10 => whenZero (fld n 3 1 == 0 && fld n 7 5 == 0) (coded (FFmt.ofCode (fld n 4 3)) fun c0 => coded (Rnd.ofCode (fld n 0 3)) fun c1 => .ok (.fneg (fldBv 5 n 17) (fldBv 5 n 12) c0 c1))
  | 11 => whenZero (fld n 3 1 == 0 && fld n 20 2 == 0) (coded (FFmt.ofCode (fld n 4 3)) fun c0 => coded (FRel.ofCode (fld n 0 3)) fun c1 => .ok (.fcmpp (fldBv 3 n 17) (fldBv 5 n 12) (fldBv 5 n 7) c0 c1))
  | 12 => whenZero (fld n 3 1 == 0) (coded (IntTy.ofCode (fld n 7 5)) fun c0 => coded (FFmt.ofCode (fld n 4 3)) fun c1 => coded (Rnd.ofCode (fld n 0 3)) fun c2 => .ok (.fcvti (fldBv 5 n 17) (fldBv 5 n 12) c0 c1 c2))
  | 13 => whenZero (fld n 3 1 == 0) (coded (IntTy.ofCode (fld n 7 5)) fun c0 => coded (FFmt.ofCode (fld n 4 3)) fun c1 => coded (Rnd.ofCode (fld n 0 3)) fun c2 => .ok (.icvtf (fldBv 5 n 17) (fldBv 5 n 12) c0 c1 c2))
  | 14 => whenZero (fld n 3 1 == 0) (coded (FFmt.ofCode (fld n 7 5)) fun c0 => coded (FFmt.ofCode (fld n 4 3)) fun c1 => coded (Rnd.ofCode (fld n 0 3)) fun c2 => .ok (.fcvt (fldBv 5 n 17) (fldBv 5 n 12) c0 c1 c2))
  | 15 => whenZero (fld n 3 1 == 0 && fld n 7 5 == 0) (coded (FFmt.ofCode (fld n 4 3)) fun c0 => coded (Rnd.ofCode (fld n 0 3)) fun c1 => .ok (.fclass (fldBv 5 n 17) (fldBv 5 n 12) c0 c1))
  | _ => .error .reservedOp

/-- Class 0x3 by its op field (R133). -/
def decodeClass3 (n : Nat) : Except DecodeError Instr :=
  match fld n 22 6 with
  | 1 => .ok (.ldS8 (fldBv 5 n 17) (fldBv 5 n 12) (fldBv 12 n 0))
  | 2 => .ok (.ldN8 (fldBv 5 n 17) (fldBv 5 n 12) (fldBv 12 n 0))
  | 3 => .ok (.ldS16 (fldBv 5 n 17) (fldBv 5 n 12) (fldBv 12 n 0))
  | 4 => .ok (.ldN16 (fldBv 5 n 17) (fldBv 5 n 12) (fldBv 12 n 0))
  | 5 => .ok (.ldS32 (fldBv 5 n 17) (fldBv 5 n 12) (fldBv 12 n 0))
  | 6 => .ok (.ldN32 (fldBv 5 n 17) (fldBv 5 n 12) (fldBv 12 n 0))
  | 7 => .ok (.ld64 (fldBv 5 n 17) (fldBv 5 n 12) (fldBv 12 n 0))
  | 8 => .ok (.st8 (fldBv 5 n 17) (fldBv 5 n 12) (fldBv 12 n 0))
  | 9 => .ok (.st16 (fldBv 5 n 17) (fldBv 5 n 12) (fldBv 12 n 0))
  | 10 => .ok (.st32 (fldBv 5 n 17) (fldBv 5 n 12) (fldBv 12 n 0))
  | 11 => .ok (.st64 (fldBv 5 n 17) (fldBv 5 n 12) (fldBv 12 n 0))
  | 12 => whenZero (fld n 3 1 == 0) (coded (MemW.ofCode (fld n 4 3)) fun c0 => .ok (.ldx (fldBv 5 n 17) (fldBv 5 n 12) (fldBv 5 n 7) c0 (fldBit n 2) (fldBv 2 n 0)))
  | 13 => whenZero (fld n 2 2 == 0) (coded (MemW.ofCode (fld n 4 3)) fun c0 => .ok (.stx (fldBv 5 n 17) (fldBv 5 n 12) (fldBv 5 n 7) c0 (fldBv 2 n 0)))
  | 14 => coded (PfhTo.ofCode (fld n 17 5)) fun c0 => .ok (.pfh c0 (fldBv 5 n 12) (fldBv 12 n 0))
  | 15 => coded (CboOp.ofCode (fld n 17 5)) fun c0 => .ok (.cbo c0 (fldBv 5 n 12) (fldBv 12 n 0))
  | 16 => whenZero (fld n 1 11 == 0) (.ok (.tlook (fldBv 5 n 17) (fldBv 5 n 12) (fldBit n 0)))
  | 17 => whenZero (fld n 0 7 == 0 && fld n 17 5 == 0) (.ok (.tins (fldBv 5 n 12) (fldBv 5 n 7)))
  | 18 => whenZero (fld n 0 12 == 0 && fld n 17 5 == 0) (.ok (.tdel (fldBv 5 n 12)))
  | _ => .error .reservedOp

/-- Class 0x4 by its op field (R133). -/
def decodeClass4 (n : Nat) : Except DecodeError Instr :=
  match fld n 24 4 with
  | 0 => .ok (.beq (fldBv 5 n 19) (fldBv 5 n 14) (fldBv 14 n 0))
  | 1 => .ok (.bne (fldBv 5 n 19) (fldBv 5 n 14) (fldBv 14 n 0))
  | 2 => .ok (.blt (fldBv 5 n 19) (fldBv 5 n 14) (fldBv 14 n 0))
  | 3 => .ok (.bge (fldBv 5 n 19) (fldBv 5 n 14) (fldBv 14 n 0))
  | 4 => .ok (.bltn (fldBv 5 n 19) (fldBv 5 n 14) (fldBv 14 n 0))
  | 5 => .ok (.bgen (fldBv 5 n 19) (fldBv 5 n 14) (fldBv 14 n 0))
  | 6 => whenZero (fld n 14 5 == 0 && fld n 22 2 == 0) (.ok (.bpt (fldBv 3 n 19) (fldBv 14 n 0)))
  | 7 => whenZero (fld n 14 5 == 0 && fld n 22 2 == 0) (.ok (.bpf (fldBv 3 n 19) (fldBv 14 n 0)))
  | 8 => whenZero (fld n 14 5 == 0) (.ok (.loop (fldBv 5 n 19) (fldBv 14 n 0)))
  | 13 => .ok (.jalr (fldBv 5 n 19) (fldBv 5 n 14) (fldBv 14 n 0))
  | 14 => .ok (.jal (fldBv 5 n 19) (fldBv 19 n 0))
  | _ => .error .reservedOp

/-- Class 0x5 by its op field (R133). -/
def decodeClass5 (n : Nat) : Except DecodeError Instr :=
  match fld n 22 6 with
  | 1 => whenZero (fld n 0 4 == 0 && fld n 17 5 == 0) (coded (Scope.ofCode (fld n 4 3)) fun c0 => .ok (.semSig (fldBv 5 n 12) (fldBv 5 n 7) c0))
  | 2 => whenZero (fld n 1 6 == 0) (.ok (.semWait (fldBv 5 n 17) (fldBv 5 n 12) (fldBv 5 n 7) (fldBit n 0)))
  | 3 => whenZero (fld n 0 7 == 0) (.ok (.semAdd (fldBv 5 n 17) (fldBv 5 n 12) (fldBv 5 n 7)))
  | 4 => whenZero (fld n 0 7 == 0 && fld n 17 5 == 0) (.ok (.semSet (fldBv 5 n 12) (fldBv 5 n 7)))
  | 5 => whenZero (fld n 0 7 == 0) (.ok (.semArm (fldBv 5 n 17) (fldBv 5 n 12) (fldBv 5 n 7)))
  | 6 => whenZero (fld n 1 3 == 0 && fld n 7 15 == 0) (coded (Scope.ofCode (fld n 4 3)) fun c0 => .ok (.phase c0 (fldBit n 0)))
  | 7 => whenZero (fld n 0 12 == 0) (.ok (.bar (fldBv 5 n 17) (fldBv 5 n 12)))
  | 8 => whenZero (fld n 0 12 == 0 && fld n 17 5 == 0) (.ok (.gangJoin (fldBv 5 n 12)))
  | 9 => whenZero (fld n 0 12 == 0 && fld n 17 5 == 0) (.ok (.gangLeave (fldBv 5 n 12)))
  | 10 => coded (AmoScope.ofCode (fld n 4 3)) fun c0 => coded (AmoOp.ofCode (fld n 0 4)) fun c1 => .ok (.amo (fldBv 5 n 17) (fldBv 5 n 12) (fldBv 5 n 7) c0 c1)
  | 11 => whenZero (fld n 0 4 == 0) (coded (AmoScope.ofCode (fld n 4 3)) fun c0 => .ok (.amocas (fldBv 5 n 17) (fldBv 5 n 12) (fldBv 5 n 7) c0))
  | 12 => whenZero (fld n 0 4 == 0) (coded (AmoScope.ofCode (fld n 4 3)) fun c0 => .ok (.amof (fldBv 5 n 17) (fldBv 5 n 12) (fldBv 5 n 7) c0))
  | 13 => whenZero (fld n 3 14 == 0) (coded (Eng.ofCode (fld n 17 5)) fun c0 => .ok (.toksig c0 (fldBv 3 n 0)))
  | 14 => whenZero (fld n 3 14 == 0) (coded (Eng.ofCode (fld n 17 5)) fun c0 => .ok (.tokwait c0 (fldBv 3 n 0)))
  | 15 => whenZero (fld n 0 7 == 0 && fld n 12 5 == 0) (coded (Eng.ofCode (fld n 17 5)) fun c0 => .ok (.waite c0 (fldBv 5 n 7)))
  | 16 => whenZero (fld n 0 7 == 0 && fld n 10 2 == 0) (.ok (.waitwm (fldBv 5 n 17) (fldBv 5 n 12) (fldBv 3 n 7)))
  | 17 => whenZero (fld n 3 19 == 0) (.ok (.fenceE (fldBv 3 n 0)))
  | 18 => whenZero (fld n 0 12 == 0) (.ok (.semRead (fldBv 5 n 17) (fldBv 5 n 12)))
  | _ => .error .reservedOp

/-- Class 0x6 by its op field (R133). -/
def decodeClass6 (n : Nat) : Except DecodeError Instr :=
  match fld n 22 6 with
  | 1 => whenZero (fld n 0 17 == 0) (coded (RecBase.ofCode (fld n 17 5)) fun c0 => .ok (.cp c0))
  | 2 => whenZero (fld n 0 17 == 0) (coded (RecBase.ofCode (fld n 17 5)) fun c0 => .ok (.cpt c0))
  | 3 => whenZero (fld n 0 17 == 0) (coded (RecBase.ofCode (fld n 17 5)) fun c0 => .ok (.cpr c0))
  | 4 => whenZero (fld n 0 17 == 0) (coded (RecBase.ofCode (fld n 17 5)) fun c0 => .ok (.cpg c0))
  | 5 => whenZero (fld n 0 17 == 0) (coded (RecBase.ofCode (fld n 17 5)) fun c0 => .ok (.cps c0))
  | 6 => whenZero (fld n 0 17 == 0) (coded (RecBase.ofCode (fld n 17 5)) fun c0 => .ok (.cpf c0))
  | 7 => whenZero (fld n 1 16 == 0) (coded (RecBase.ofCode (fld n 17 5)) fun c0 => coded (RedMode.ofCode (fld n 0 1)) fun c1 => .ok (.cpred c0 c1))
  | 8 => whenZero (fld n 4 13 == 0) (coded (RecBase.ofCode (fld n 17 5)) fun c0 => .ok (.cppf c0 (fldBit n 3) (fldBv 3 n 0)))
  | 9 => whenZero (fld n 3 19 == 0) (.ok (.cpx (fldBv 3 n 0)))
  | 10 => whenZero (fld n 4 8 == 0) (.ok (.wmrd (fldBv 5 n 17) (fldBv 5 n 12) (fldBit n 3) (fldBv 3 n 0)))
  | 11 => whenZero (fld n 2 15 == 0) (.ok (.rngaw (fldBv 5 n 17) (fldBv 2 n 0)))
  | 12 => whenZero (fld n 2 20 == 0) (.ok (.rngrel (fldBv 2 n 0)))
  | 13 => whenZero (fld n 2 10 == 0) (.ok (.rnginit (fldBv 5 n 17) (fldBv 5 n 12) (fldBv 2 n 0)))
  | 14 => whenZero (fld n 0 17 == 0) (.ok (.cpq (fldBv 5 n 17)))
  | _ => .error .reservedOp

/-- Class 0x7 by its op field (R133). -/
def decodeClass7 (n : Nat) : Except DecodeError Instr :=
  match fld n 22 6 with
  | 1 => whenZero (fld n 4 8 == 0) (.ok (.mxcfg (fldBv 5 n 17) (fldBv 5 n 12) (fldBv 4 n 0)))
  | 2 =>
    if fldBit n 4 then whenZero (fld n 5 7 == 0) (.ok (.mxldwScaled (fldBv 5 n 17) (fldBv 5 n 12) (fldBv 4 n 0)))
    else whenZero (fld n 5 12 == 0) (.ok (.mxldw (fldBv 5 n 17) (fldBv 4 n 0)))
  | 6 => whenZero (fld n 11 1 == 0) (.ok (.mxsta (fldBv 5 n 17) (fldBv 5 n 12) (fldBv 7 n 4) (fldBv 4 n 0)))
  | 8 => whenZero (fld n 0 17 == 0) (.ok (.mxanc (fldBv 5 n 17)))
  | 9 => whenZero (fld n 0 12 == 0) (.ok (.mxmrk (fldBv 5 n 17) (fldBv 5 n 12)))
  | 3 => whenZero (fld n 0 22 == 0) (.ok (.mxswp))
  | 4 => whenZero (fld n 0 22 == 0) (.ok (.mxgo))
  | 5 => whenZero (fld n 0 22 == 0) (.ok (.mxgog))
  | 7 => whenZero (fld n 0 22 == 0) (.ok (.mxclr))
  | _ => .error .reservedOp

/-- Class 0x8 by its op field (R133). -/
def decodeClass8 (n : Nat) : Except DecodeError Instr :=
  match fld n 22 6 with
  | 1 => .ok (.vadd (fldBv 6 n 16) (fldBv 6 n 10) (fldBv 6 n 4) (fldBv 2 n 2) (fldBit n 1) (fldBit n 0))
  | 2 => .ok (.vsub (fldBv 6 n 16) (fldBv 6 n 10) (fldBv 6 n 4) (fldBv 2 n 2) (fldBit n 1) (fldBit n 0))
  | 3 => .ok (.vmul (fldBv 6 n 16) (fldBv 6 n 10) (fldBv 6 n 4) (fldBv 2 n 2) (fldBit n 1) (fldBit n 0))
  | 4 => .ok (.vfma (fldBv 6 n 16) (fldBv 6 n 10) (fldBv 6 n 4) (fldBv 2 n 2) (fldBit n 1) (fldBit n 0))
  | 5 => .ok (.vmin (fldBv 6 n 16) (fldBv 6 n 10) (fldBv 6 n 4) (fldBv 2 n 2) (fldBit n 1) (fldBit n 0))
  | 6 => .ok (.vmax (fldBv 6 n 16) (fldBv 6 n 10) (fldBv 6 n 4) (fldBv 2 n 2) (fldBit n 1) (fldBit n 0))
  | 7 => whenZero (fld n 4 6 == 0) (.ok (.vabs (fldBv 6 n 16) (fldBv 6 n 10) (fldBv 2 n 2) (fldBit n 1) (fldBit n 0)))
  | 8 => whenZero (fld n 4 6 == 0) (.ok (.vneg (fldBv 6 n 16) (fldBv 6 n 10) (fldBv 2 n 2) (fldBit n 1) (fldBit n 0)))
  | 9 => .ok (.vand (fldBv 6 n 16) (fldBv 6 n 10) (fldBv 6 n 4) (fldBv 2 n 2) (fldBit n 1) (fldBit n 0))
  | 10 => .ok (.vor (fldBv 6 n 16) (fldBv 6 n 10) (fldBv 6 n 4) (fldBv 2 n 2) (fldBit n 1) (fldBit n 0))
  | 11 => .ok (.vxor (fldBv 6 n 16) (fldBv 6 n 10) (fldBv 6 n 4) (fldBv 2 n 2) (fldBit n 1) (fldBit n 0))
  | 12 => .ok (.vandn (fldBv 6 n 16) (fldBv 6 n 10) (fldBv 6 n 4) (fldBv 2 n 2) (fldBit n 1) (fldBit n 0))
  | 13 => .ok (.vshl (fldBv 6 n 16) (fldBv 6 n 10) (fldBv 6 n 4) (fldBv 2 n 2) (fldBit n 1) (fldBit n 0))
  | 14 => .ok (.vshr (fldBv 6 n 16) (fldBv 6 n 10) (fldBv 6 n 4) (fldBv 2 n 2) (fldBit n 1) (fldBit n 0))
  | 15 => .ok (.vsra (fldBv 6 n 16) (fldBv 6 n 10) (fldBv 6 n 4) (fldBv 2 n 2) (fldBit n 1) (fldBit n 0))
  | 16 => .ok (.vaddw (fldBv 6 n 16) (fldBv 6 n 10) (fldBv 6 n 4) (fldBv 2 n 2) (fldBit n 1) (fldBit n 0))
  | 17 => .ok (.vsubw (fldBv 6 n 16) (fldBv 6 n 10) (fldBv 6 n 4) (fldBv 2 n 2) (fldBit n 1) (fldBit n 0))
  | 18 => .ok (.vmulw (fldBv 6 n 16) (fldBv 6 n 10) (fldBv 6 n 4) (fldBv 2 n 2) (fldBit n 1) (fldBit n 0))
  | 19 => .ok (.vdotw (fldBv 6 n 16) (fldBv 6 n 10) (fldBv 6 n 4) (fldBv 2 n 2) (fldBit n 1) (fldBit n 0))
  | 20 => .ok (.vavg (fldBv 6 n 16) (fldBv 6 n 10) (fldBv 6 n 4) (fldBv 2 n 2) (fldBit n 1) (fldBit n 0))
  | 21 => .ok (.vsadd (fldBv 6 n 16) (fldBv 6 n 10) (fldBv 6 n 4) (fldBv 2 n 2) (fldBit n 1) (fldBit n 0))
  | 22 => .ok (.vssub (fldBv 6 n 16) (fldBv 6 n 10) (fldBv 6 n 4) (fldBv 2 n 2) (fldBit n 1) (fldBit n 0))
  | 23 => .ok (.vmulh (fldBv 6 n 16) (fldBv 6 n 10) (fldBv 6 n 4) (fldBv 2 n 2) (fldBit n 1) (fldBit n 0))
  | 24 => .ok (.vclamp (fldBv 6 n 16) (fldBv 6 n 10) (fldBv 6 n 4) (fldBv 2 n 2) (fldBit n 1) (fldBit n 0))
  | 32 => whenZero (fld n 9 1 == 0) (.ok (.vaddScalar (fldBv 6 n 16) (fldBv 6 n 10) (fldBv 5 n 4) (fldBv 2 n 2) (fldBit n 1) (fldBit n 0)))
  | 33 => whenZero (fld n 9 1 == 0) (.ok (.vsubScalar (fldBv 6 n 16) (fldBv 6 n 10) (fldBv 5 n 4) (fldBv 2 n 2) (fldBit n 1) (fldBit n 0)))
  | 34 => whenZero (fld n 9 1 == 0) (.ok (.vmulScalar (fldBv 6 n 16) (fldBv 6 n 10) (fldBv 5 n 4) (fldBv 2 n 2) (fldBit n 1) (fldBit n 0)))
  | 35 => whenZero (fld n 9 1 == 0) (.ok (.vfmaScalar (fldBv 6 n 16) (fldBv 6 n 10) (fldBv 5 n 4) (fldBv 2 n 2) (fldBit n 1) (fldBit n 0)))
  | 36 => whenZero (fld n 9 1 == 0) (.ok (.vminScalar (fldBv 6 n 16) (fldBv 6 n 10) (fldBv 5 n 4) (fldBv 2 n 2) (fldBit n 1) (fldBit n 0)))
  | 37 => whenZero (fld n 9 1 == 0) (.ok (.vmaxScalar (fldBv 6 n 16) (fldBv 6 n 10) (fldBv 5 n 4) (fldBv 2 n 2) (fldBit n 1) (fldBit n 0)))
  | 40 => whenZero (fld n 9 1 == 0) (.ok (.vandScalar (fldBv 6 n 16) (fldBv 6 n 10) (fldBv 5 n 4) (fldBv 2 n 2) (fldBit n 1) (fldBit n 0)))
  | 41 => whenZero (fld n 9 1 == 0) (.ok (.vorScalar (fldBv 6 n 16) (fldBv 6 n 10) (fldBv 5 n 4) (fldBv 2 n 2) (fldBit n 1) (fldBit n 0)))
  | 42 => whenZero (fld n 9 1 == 0) (.ok (.vxorScalar (fldBv 6 n 16) (fldBv 6 n 10) (fldBv 5 n 4) (fldBv 2 n 2) (fldBit n 1) (fldBit n 0)))
  | 43 => whenZero (fld n 9 1 == 0) (.ok (.vandnScalar (fldBv 6 n 16) (fldBv 6 n 10) (fldBv 5 n 4) (fldBv 2 n 2) (fldBit n 1) (fldBit n 0)))
  | 44 => whenZero (fld n 9 1 == 0) (.ok (.vshlScalar (fldBv 6 n 16) (fldBv 6 n 10) (fldBv 5 n 4) (fldBv 2 n 2) (fldBit n 1) (fldBit n 0)))
  | 45 => whenZero (fld n 9 1 == 0) (.ok (.vshrScalar (fldBv 6 n 16) (fldBv 6 n 10) (fldBv 5 n 4) (fldBv 2 n 2) (fldBit n 1) (fldBit n 0)))
  | 46 => whenZero (fld n 9 1 == 0) (.ok (.vsraScalar (fldBv 6 n 16) (fldBv 6 n 10) (fldBv 5 n 4) (fldBv 2 n 2) (fldBit n 1) (fldBit n 0)))
  | 47 => whenZero (fld n 9 1 == 0) (.ok (.vaddwScalar (fldBv 6 n 16) (fldBv 6 n 10) (fldBv 5 n 4) (fldBv 2 n 2) (fldBit n 1) (fldBit n 0)))
  | 48 => whenZero (fld n 9 1 == 0) (.ok (.vsubwScalar (fldBv 6 n 16) (fldBv 6 n 10) (fldBv 5 n 4) (fldBv 2 n 2) (fldBit n 1) (fldBit n 0)))
  | 49 => whenZero (fld n 9 1 == 0) (.ok (.vmulwScalar (fldBv 6 n 16) (fldBv 6 n 10) (fldBv 5 n 4) (fldBv 2 n 2) (fldBit n 1) (fldBit n 0)))
  | 50 => whenZero (fld n 9 1 == 0) (.ok (.vdotwScalar (fldBv 6 n 16) (fldBv 6 n 10) (fldBv 5 n 4) (fldBv 2 n 2) (fldBit n 1) (fldBit n 0)))
  | 51 => whenZero (fld n 9 1 == 0) (.ok (.vavgScalar (fldBv 6 n 16) (fldBv 6 n 10) (fldBv 5 n 4) (fldBv 2 n 2) (fldBit n 1) (fldBit n 0)))
  | 52 => whenZero (fld n 9 1 == 0) (.ok (.vsaddScalar (fldBv 6 n 16) (fldBv 6 n 10) (fldBv 5 n 4) (fldBv 2 n 2) (fldBit n 1) (fldBit n 0)))
  | 53 => whenZero (fld n 9 1 == 0) (.ok (.vssubScalar (fldBv 6 n 16) (fldBv 6 n 10) (fldBv 5 n 4) (fldBv 2 n 2) (fldBit n 1) (fldBit n 0)))
  | 54 => whenZero (fld n 9 1 == 0) (.ok (.vmulhScalar (fldBv 6 n 16) (fldBv 6 n 10) (fldBv 5 n 4) (fldBv 2 n 2) (fldBit n 1) (fldBit n 0)))
  | 55 => whenZero (fld n 9 1 == 0) (.ok (.vclampScalar (fldBv 6 n 16) (fldBv 6 n 10) (fldBv 5 n 4) (fldBv 2 n 2) (fldBit n 1) (fldBit n 0)))
  | _ => .error .reservedOp

/-- Class 0x9 by its op field (R133). -/
def decodeClass9 (n : Nat) : Except DecodeError Instr :=
  match fld n 22 6 with
  | 1 => whenZero (fld n 1 1 == 0 && fld n 19 3 == 0) (.ok (.vcmpeq (fldBv 3 n 16) (fldBv 6 n 10) (fldBv 6 n 4) (fldBv 2 n 2) (fldBit n 0)))
  | 2 => whenZero (fld n 1 1 == 0 && fld n 19 3 == 0) (.ok (.vcmpne (fldBv 3 n 16) (fldBv 6 n 10) (fldBv 6 n 4) (fldBv 2 n 2) (fldBit n 0)))
  | 3 => whenZero (fld n 1 1 == 0 && fld n 19 3 == 0) (.ok (.vcmplt (fldBv 3 n 16) (fldBv 6 n 10) (fldBv 6 n 4) (fldBv 2 n 2) (fldBit n 0)))
  | 4 => whenZero (fld n 1 1 == 0 && fld n 19 3 == 0) (.ok (.vcmple (fldBv 3 n 16) (fldBv 6 n 10) (fldBv 6 n 4) (fldBv 2 n 2) (fldBit n 0)))
  | 5 => whenZero (fld n 1 1 == 0 && fld n 19 3 == 0) (.ok (.vcmpltn (fldBv 3 n 16) (fldBv 6 n 10) (fldBv 6 n 4) (fldBv 2 n 2) (fldBit n 0)))
  | 6 => whenZero (fld n 1 1 == 0 && fld n 19 3 == 0) (.ok (.vcmplen (fldBv 3 n 16) (fldBv 6 n 10) (fldBv 6 n 4) (fldBv 2 n 2) (fldBit n 0)))
  | 32 => whenZero (fld n 1 1 == 0 && fld n 9 1 == 0 && fld n 19 3 == 0) (.ok (.vcmpeqScalar (fldBv 3 n 16) (fldBv 6 n 10) (fldBv 5 n 4) (fldBv 2 n 2) (fldBit n 0)))
  | 33 => whenZero (fld n 1 1 == 0 && fld n 9 1 == 0 && fld n 19 3 == 0) (.ok (.vcmpneScalar (fldBv 3 n 16) (fldBv 6 n 10) (fldBv 5 n 4) (fldBv 2 n 2) (fldBit n 0)))
  | 34 => whenZero (fld n 1 1 == 0 && fld n 9 1 == 0 && fld n 19 3 == 0) (.ok (.vcmpltScalar (fldBv 3 n 16) (fldBv 6 n 10) (fldBv 5 n 4) (fldBv 2 n 2) (fldBit n 0)))
  | 35 => whenZero (fld n 1 1 == 0 && fld n 9 1 == 0 && fld n 19 3 == 0) (.ok (.vcmpleScalar (fldBv 3 n 16) (fldBv 6 n 10) (fldBv 5 n 4) (fldBv 2 n 2) (fldBit n 0)))
  | 36 => whenZero (fld n 1 1 == 0 && fld n 9 1 == 0 && fld n 19 3 == 0) (.ok (.vcmpltnScalar (fldBv 3 n 16) (fldBv 6 n 10) (fldBv 5 n 4) (fldBv 2 n 2) (fldBit n 0)))
  | 37 => whenZero (fld n 1 1 == 0 && fld n 9 1 == 0 && fld n 19 3 == 0) (.ok (.vcmplenScalar (fldBv 3 n 16) (fldBv 6 n 10) (fldBv 5 n 4) (fldBv 2 n 2) (fldBit n 0)))
  | 8 => whenZero (fld n 0 1 == 0) (.ok (.vsel (fldBv 6 n 16) (fldBv 6 n 10) (fldBv 6 n 4) (fldBv 2 n 2) (fldBit n 1)))
  | 9 => whenZero (fld n 1 3 == 0 && fld n 7 3 == 0 && fld n 13 3 == 0 && fld n 19 3 == 0) (.ok (.vmand (fldBv 3 n 16) (fldBv 3 n 10) (fldBv 3 n 4) (fldBit n 0)))
  | 10 => whenZero (fld n 1 3 == 0 && fld n 7 3 == 0 && fld n 13 3 == 0 && fld n 19 3 == 0) (.ok (.vmor (fldBv 3 n 16) (fldBv 3 n 10) (fldBv 3 n 4) (fldBit n 0)))
  | 11 => whenZero (fld n 1 3 == 0 && fld n 7 3 == 0 && fld n 13 3 == 0 && fld n 19 3 == 0) (.ok (.vmxor (fldBv 3 n 16) (fldBv 3 n 10) (fldBv 3 n 4) (fldBit n 0)))
  | 12 => whenZero (fld n 1 9 == 0 && fld n 13 3 == 0 && fld n 19 3 == 0) (.ok (.vmnot (fldBv 3 n 16) (fldBv 3 n 10) (fldBit n 0)))
  | 13 => whenZero (fld n 1 9 == 0 && fld n 13 3 == 0 && fld n 21 1 == 0) (.ok (.vmpop (fldBv 5 n 16) (fldBv 3 n 10) (fldBit n 0)))
  | 14 => whenZero (fld n 1 9 == 0 && fld n 13 3 == 0 && fld n 21 1 == 0) (.ok (.vmfirst (fldBv 5 n 16) (fldBv 3 n 10) (fldBit n 0)))
  | 16 => .ok (.vperm (fldBv 6 n 16) (fldBv 6 n 10) (fldBv 6 n 4) (fldBv 2 n 2) (fldBit n 1) (fldBit n 0))
  | 17 => whenZero (fld n 9 1 == 0) (.ok (.vrot (fldBv 6 n 16) (fldBv 6 n 10) (fldBv 5 n 4) (fldBv 2 n 2) (fldBit n 1) (fldBit n 0)))
  | 18 => whenZero (fld n 9 1 == 0) (.ok (.vslideup (fldBv 6 n 16) (fldBv 6 n 10) (fldBv 5 n 4) (fldBv 2 n 2) (fldBit n 1) (fldBit n 0)))
  | 19 => whenZero (fld n 9 1 == 0) (.ok (.vslidedn (fldBv 6 n 16) (fldBv 6 n 10) (fldBv 5 n 4) (fldBv 2 n 2) (fldBit n 1) (fldBit n 0)))
  | 20 => .ok (.vzip (fldBv 6 n 16) (fldBv 6 n 10) (fldBv 6 n 4) (fldBv 2 n 2) (fldBit n 1) (fldBit n 0))
  | 21 => whenZero (fld n 4 6 == 0) (.ok (.vunzip (fldBv 6 n 16) (fldBv 6 n 10) (fldBv 2 n 2) (fldBit n 1) (fldBit n 0)))
  | 22 => whenZero (fld n 9 7 == 0) (.ok (.vbcast (fldBv 6 n 16) (fldBv 5 n 4) (fldBv 2 n 2) (fldBit n 1) (fldBit n 0)))
  | 23 => whenZero (fld n 9 1 == 0 && fld n 15 1 == 0) (.ok (.vins (fldBv 6 n 16) (fldBv 5 n 10) (fldBv 5 n 4) (fldBv 2 n 2) (fldBit n 1) (fldBit n 0)))
  | 24 => whenZero (fld n 0 2 == 0 && fld n 9 1 == 0 && fld n 21 1 == 0) (.ok (.vext (fldBv 5 n 16) (fldBv 6 n 10) (fldBv 5 n 4) (fldBv 2 n 2)))
  | 25 => whenZero (fld n 0 1 == 0 && fld n 7 3 == 0) (.ok (.vcompress (fldBv 6 n 16) (fldBv 6 n 10) (fldBv 3 n 4) (fldBv 2 n 2) (fldBit n 1)))
  | 26 => whenZero (fld n 4 6 == 0 && fld n 13 3 == 0) (.ok (.viota (fldBv 6 n 16) (fldBv 3 n 10) (fldBv 2 n 2) (fldBit n 1) (fldBit n 0)))
  | 27 => whenZero (fld n 4 6 == 0) (.ok (.vmovv (fldBv 6 n 16) (fldBv 6 n 10) (fldBv 2 n 2) (fldBit n 1) (fldBit n 0)))
  | _ => .error .reservedOp

/-- Class 0xA by its op field (R133). -/
def decodeClass10 (n : Nat) : Except DecodeError Instr :=
  match fld n 22 6 with
  | 1 => whenZero (fld n 9 1 == 0 && fld n 15 1 == 0) (.ok (.vld (fldBv 6 n 16) (fldBv 5 n 10) (fldBv 5 n 4) (fldBv 2 n 2) (fldBit n 1) (fldBit n 0)))
  | 2 => whenZero (fld n 1 1 == 0 && fld n 9 1 == 0 && fld n 15 1 == 0) (.ok (.vst (fldBv 6 n 16) (fldBv 5 n 10) (fldBv 5 n 4) (fldBv 2 n 2) (fldBit n 0)))
  | 3 => whenZero (fld n 9 1 == 0 && fld n 15 1 == 0) (.ok (.vlds (fldBv 6 n 16) (fldBv 5 n 10) (fldBv 5 n 4) (fldBv 2 n 2) (fldBit n 1) (fldBit n 0)))
  | 4 => whenZero (fld n 1 1 == 0 && fld n 9 1 == 0 && fld n 15 1 == 0) (.ok (.vsts (fldBv 6 n 16) (fldBv 5 n 10) (fldBv 5 n 4) (fldBv 2 n 2) (fldBit n 0)))
  | 5 => whenZero (fld n 15 1 == 0) (.ok (.vldg (fldBv 6 n 16) (fldBv 5 n 10) (fldBv 6 n 4) (fldBv 2 n 2) (fldBit n 1) (fldBit n 0)))
  | 6 => whenZero (fld n 1 1 == 0 && fld n 15 1 == 0) (.ok (.vstg (fldBv 6 n 16) (fldBv 5 n 10) (fldBv 6 n 4) (fldBv 2 n 2) (fldBit n 0)))
  | 16 => whenZero (fld n 8 2 == 0) (coded (VType.ofCode (fld n 4 4)) fun c0 => .ok (.vcvt (fldBv 6 n 16) (fldBv 6 n 10) c0 (fldBv 2 n 2) (fldBit n 1) (fldBit n 0)))
  | 17 => whenZero (fld n 0 1 == 0 && fld n 2 2 == 2 && fld n 9 1 == 0) (.ok (.vqnt (fldBv 6 n 16) (fldBv 6 n 10) (fldBv 5 n 4) (fldBit n 1)))
  | 18 => whenZero (fld n 0 1 == 0 && fld n 2 2 == 2 && fld n 9 1 == 0) (.ok (.vdqnt (fldBv 6 n 16) (fldBv 6 n 10) (fldBv 5 n 4) (fldBit n 1)))
  | 19 => whenZero (fld n 4 6 == 0) (.ok (.vround (fldBv 6 n 16) (fldBv 6 n 10) (fldBv 2 n 2) (fldBit n 1) (fldBit n 0)))
  | 20 => whenZero (fld n 9 1 == 0) (.ok (.vnarrow (fldBv 6 n 16) (fldBv 6 n 10) (fldBv 5 n 4) (fldBv 2 n 2) (fldBit n 1) (fldBit n 0)))
  | 21 => whenZero (fld n 0 4 == 0 && fld n 8 2 == 0 && fld n 14 8 == 0) (coded (VType.ofCode (fld n 10 4)) fun c0 => .ok (.vsett c0 (fldBit n 7) (fldBv 3 n 4)))
  | _ => .error .reservedOp

/-- Class 0xB by its op field (R133). -/
def decodeClass11 (n : Nat) : Except DecodeError Instr :=
  match fld n 22 6 with
  | 1 => whenZero (fld n 4 6 == 0) (.ok (.vexp2 (fldBv 6 n 16) (fldBv 6 n 10) (fldBv 2 n 2) (fldBit n 1) (fldBit n 0)))
  | 2 => whenZero (fld n 4 6 == 0) (.ok (.vlog2 (fldBv 6 n 16) (fldBv 6 n 10) (fldBv 2 n 2) (fldBit n 1) (fldBit n 0)))
  | 3 => whenZero (fld n 4 6 == 0) (.ok (.vexp (fldBv 6 n 16) (fldBv 6 n 10) (fldBv 2 n 2) (fldBit n 1) (fldBit n 0)))
  | 4 => whenZero (fld n 4 6 == 0) (.ok (.vlog (fldBv 6 n 16) (fldBv 6 n 10) (fldBv 2 n 2) (fldBit n 1) (fldBit n 0)))
  | 5 => whenZero (fld n 4 6 == 0) (.ok (.vrcp (fldBv 6 n 16) (fldBv 6 n 10) (fldBv 2 n 2) (fldBit n 1) (fldBit n 0)))
  | 6 => whenZero (fld n 4 6 == 0) (.ok (.vrsq (fldBv 6 n 16) (fldBv 6 n 10) (fldBv 2 n 2) (fldBit n 1) (fldBit n 0)))
  | 7 => whenZero (fld n 4 6 == 0) (.ok (.vsqrt (fldBv 6 n 16) (fldBv 6 n 10) (fldBv 2 n 2) (fldBit n 1) (fldBit n 0)))
  | 8 => whenZero (fld n 4 6 == 0) (.ok (.vtanh (fldBv 6 n 16) (fldBv 6 n 10) (fldBv 2 n 2) (fldBit n 1) (fldBit n 0)))
  | 9 => whenZero (fld n 4 6 == 0) (.ok (.vsigm (fldBv 6 n 16) (fldBv 6 n 10) (fldBv 2 n 2) (fldBit n 1) (fldBit n 0)))
  | 10 => whenZero (fld n 4 6 == 0) (.ok (.vsin (fldBv 6 n 16) (fldBv 6 n 10) (fldBv 2 n 2) (fldBit n 1) (fldBit n 0)))
  | 11 => whenZero (fld n 4 6 == 0) (.ok (.vcos (fldBv 6 n 16) (fldBv 6 n 10) (fldBv 2 n 2) (fldBit n 1) (fldBit n 0)))
  | 12 => .ok (.vdiv (fldBv 6 n 16) (fldBv 6 n 10) (fldBv 6 n 4) (fldBv 2 n 2) (fldBit n 1) (fldBit n 0))
  | 16 => whenZero (fld n 2 8 == 0) (.ok (.vredsum (fldBv 6 n 16) (fldBv 6 n 10) (fldBit n 1) (fldBit n 0)))
  | 17 => whenZero (fld n 2 8 == 0) (.ok (.vredmax (fldBv 6 n 16) (fldBv 6 n 10) (fldBit n 1) (fldBit n 0)))
  | 18 => whenZero (fld n 2 8 == 0) (.ok (.vredmin (fldBv 6 n 16) (fldBv 6 n 10) (fldBit n 1) (fldBit n 0)))
  | 19 => whenZero (fld n 2 8 == 0) (.ok (.vscan (fldBv 6 n 16) (fldBv 6 n 10) (fldBit n 1) (fldBit n 0)))
  | 20 => whenZero (fld n 1 9 == 0 && fld n 21 1 == 0) (.ok (.vexpmax (fldBv 5 n 16) (fldBv 6 n 10) (fldBit n 0)))
  | 21 => whenZero (fld n 1 3 == 0) (.ok (.vacc (fldBv 6 n 16) (fldBv 6 n 10) (fldBv 6 n 4) (fldBit n 0)))
  | 22 => whenZero (fld n 2 8 == 0) (.ok (.vacccvt (fldBv 6 n 16) (fldBv 6 n 10) (fldBit n 1) (fldBit n 0)))
  | 24 => whenZero (fld n 0 1 == 0 && fld n 2 2 == 0 && fld n 9 1 == 0) (.ok (.vrng (fldBv 6 n 16) (fldBv 6 n 10) (fldBv 5 n 4) (fldBit n 1)))
  | _ => .error .reservedOp

/-- Class 0xD by its op field (R133). -/
def decodeClass13 (n : Nat) : Except DecodeError Instr :=
  match fld n 20 8 with
  | 1 => whenZero (fld n 0 8 == 0) (coded (Role.ofCode (fld n 8 2)) fun c0 => .ok (.spawn (fldBv 5 n 15) (fldBv 5 n 10) c0))
  | 2 => whenZero (fld n 6 2 == 0) (coded (Role.ofCode (fld n 8 2)) fun c0 => .ok (.spawng (fldBv 5 n 15) (fldBv 5 n 10) c0 (fldBv 6 n 0)))
  | 4 => whenZero (fld n 8 12 == 0) (.ok (.yield (fldBv 8 n 0)))
  | 5 => whenZero (fld n 2 18 == 0) (coded (Role.ofCode (fld n 0 2)) fun c0 => .ok (.role c0))
  | 6 => whenZero (fld n 12 3 == 0) (.ok (.csrr (fldBv 5 n 15) (fldBv 12 n 0)))
  | 7 => whenZero (fld n 12 3 == 0) (.ok (.csrw (fldBv 5 n 15) (fldBv 12 n 0)))
  | 8 => whenZero (fld n 12 3 == 0) (.ok (.csrs (fldBv 5 n 15) (fldBv 12 n 0)))
  | 9 => whenZero (fld n 12 3 == 0) (.ok (.csrc (fldBv 5 n 15) (fldBv 12 n 0)))
  | 10 => whenZero (fld n 10 10 == 0) (.ok (.trap (fldBv 10 n 0)))
  | 12 => whenZero (fld n 10 10 == 0) (.ok (.bkpt (fldBv 10 n 0)))
  | 14 => whenZero (fld n 0 15 == 0) (.ok (.launch (fldBv 5 n 15)))
  | 3 => whenZero (fld n 0 20 == 0) (.ok (.exit))
  | 11 => whenZero (fld n 0 20 == 0) (.ok (.eret))
  | 13 => whenZero (fld n 0 20 == 0) (.ok (.nop))
  | _ => .error .reservedOp

/-- Class 0xC: the long-immediate prefix (R137). -/
noncomputable def decodeClass12 (n : Nat) : Except DecodeError Instr := .ok (.lix (fldBv 28 n 0))

/-- The operation an H9 sequencer word names, before the limits on its operands. -/
noncomputable def decodeRaw (n : Nat) : Except DecodeError Instr :=
  match fld n 28 4 with
  | 0 => decodeClass0 n
  | 1 => decodeClass1 n
  | 2 => decodeClass2 n
  | 3 => decodeClass3 n
  | 4 => decodeClass4 n
  | 5 => decodeClass5 n
  | 6 => decodeClass6 n
  | 7 => decodeClass7 n
  | 8 => decodeClass8 n
  | 9 => decodeClass9 n
  | 10 => decodeClass10 n
  | 11 => decodeClass11 n
  | 13 => decodeClass13 n
  | 12 => decodeClass12 n
  | _ => .error .reservedClass

/-- Refuse an operation whose operands are not well formed. -/
def checkWf : Except DecodeError Instr → Except DecodeError Instr
  | .ok i => if i.wf then .ok i else .error .illFormed
  | .error e => .error e

/-- The decoder of the H9 sequencer (R130 to R139). -/
noncomputable def decode (w : W32) : Except DecodeError Instr := checkWf (decodeRaw w.toNat)

/-- The custom-0 words of a Flambeol queue core (R422): funct7 = 0 and funct3 0 to 3. -/
noncomputable def decodeFlambeol (w : W32) : Except DecodeError Instr :=
  let n := w.toNat
  if fld n 0 7 != 11 then .error .reservedClass
  else if fld n 25 7 != 0 then .error .nonzeroField
  else match fld n 12 3 with
    | 0 => whenZero (fld n 20 5 == 0) (.ok (.rfetch (fldBv 5 n 15) (fldBv 5 n 7)))
    | 1 => .ok (.flambeolBfx (fldBv 5 n 20) (fldBv 5 n 15) (fldBv 5 n 7))
    | 2 => .ok (.swait (fldBv 5 n 20) (fldBv 5 n 15) (fldBv 5 n 7))
    | 3 => .ok (.disp (fldBv 5 n 20) (fldBv 5 n 15) (fldBv 5 n 7))
    | _ => .error .reservedOp

/-- A word from its fixed bits and its fields, each a value and the bit it starts at. -/
def put (base : Nat) : List (Nat × Nat) → Nat
  | [] => base
  | (v, lo) :: fs => v * 2 ^ lo + put base fs

/-- The word as a number, each field at its place (R131). Operations without an encoding give 0. -/
def Instr.encodeNat : Instr → Nat
  | .mulh d a b s => put 0x03800000 [(d.toNat, 17), (a.toNat, 12), (b.toNat, 7), (s.code, 4)]
  | .mulhn d a b s => put 0x03C00000 [(d.toNat, 17), (a.toNat, 12), (b.toNat, 7), (s.code, 4)]
  | .div d a b s => put 0x04000000 [(d.toNat, 17), (a.toNat, 12), (b.toNat, 7), (s.code, 4)]
  | .divn d a b s => put 0x04400000 [(d.toNat, 17), (a.toNat, 12), (b.toNat, 7), (s.code, 4)]
  | .rem d a b s => put 0x04800000 [(d.toNat, 17), (a.toNat, 12), (b.toNat, 7), (s.code, 4)]
  | .remn d a b s => put 0x04C00000 [(d.toNat, 17), (a.toNat, 12), (b.toNat, 7), (s.code, 4)]
  | .minn d a b s => put 0x05800000 [(d.toNat, 17), (a.toNat, 12), (b.toNat, 7), (s.code, 4)]
  | .maxn d a b s => put 0x05C00000 [(d.toNat, 17), (a.toNat, 12), (b.toNat, 7), (s.code, 4)]
  | .slt d a b s => put 0x06000000 [(d.toNat, 17), (a.toNat, 12), (b.toNat, 7), (s.code, 4)]
  | .sltn d a b s => put 0x06400000 [(d.toNat, 17), (a.toNat, 12), (b.toNat, 7), (s.code, 4)]
  | .seq d a b s => put 0x06800000 [(d.toNat, 17), (a.toNat, 12), (b.toNat, 7), (s.code, 4)]
  | .sne d a b s => put 0x06C00000 [(d.toNat, 17), (a.toNat, 12), (b.toNat, 7), (s.code, 4)]
  | .clz d a s => put 0x07000000 [(d.toNat, 17), (a.toNat, 12), (s.code, 4)]
  | .ctz d a s => put 0x07400000 [(d.toNat, 17), (a.toNat, 12), (s.code, 4)]
  | .popc d a s => put 0x07800000 [(d.toNat, 17), (a.toNat, 12), (s.code, 4)]
  | .brev d a s => put 0x07C00000 [(d.toNat, 17), (a.toNat, 12), (s.code, 4)]
  | .bfx d a b s g => put 0x08000000 [(d.toNat, 17), (a.toNat, 12), (b.toNat, 7), (s.code, 4), (g.toNat, 0)]
  | .bfi d a b s => put 0x08400000 [(d.toNat, 17), (a.toNat, 12), (b.toNat, 7), (s.code, 4)]
  | .sext d a w => put 0x08800000 [(d.toNat, 17), (a.toNat, 12), (w.code, 0)]
  | .zext d a w => put 0x08C00000 [(d.toNat, 17), (a.toNat, 12), (w.code, 0)]
  | .sel d a b s p => put 0x09000000 [(d.toNat, 17), (a.toNat, 12), (b.toNat, 7), (s.code, 4), (p.toNat, 0)]
  | .madd d a b s => put 0x09400000 [(d.toNat, 17), (a.toNat, 12), (b.toNat, 7), (s.code, 4)]
  | .cmpp d a b s c => put 0x09800000 [(d.toNat, 17), (a.toNat, 12), (b.toNat, 7), (s.code, 4), (c.code, 0)]
  | .plog d a b c => put 0x09C00000 [(d.toNat, 17), (a.toNat, 12), (b.toNat, 7), (c.code, 0)]
  | .movp d a => put 0x0A000000 [(d.toNat, 17), (a.toNat, 12)]
  | .pmov d a s => put 0x0A400000 [(d.toNat, 17), (a.toNat, 12), (s.code, 4)]
  | .addi d a i => put 0x10400000 [(d.toNat, 17), (a.toNat, 12), (i.toNat, 0)]
  | .andi d a i => put 0x10800000 [(d.toNat, 17), (a.toNat, 12), (i.toNat, 0)]
  | .ori d a i => put 0x10C00000 [(d.toNat, 17), (a.toNat, 12), (i.toNat, 0)]
  | .xori d a i => put 0x11000000 [(d.toNat, 17), (a.toNat, 12), (i.toNat, 0)]
  | .slli d a h => put 0x11400000 [(d.toNat, 17), (a.toNat, 12), (h.toNat, 0)]
  | .srli d a h => put 0x11800000 [(d.toNat, 17), (a.toNat, 12), (h.toNat, 0)]
  | .srai d a h => put 0x11C00000 [(d.toNat, 17), (a.toNat, 12), (h.toNat, 0)]
  | .slti d a i => put 0x12000000 [(d.toNat, 17), (a.toNat, 12), (i.toNat, 0)]
  | .sltni d a i => put 0x12400000 [(d.toNat, 17), (a.toNat, 12), (i.toNat, 0)]
  | .seqi d a i => put 0x12800000 [(d.toNat, 17), (a.toNat, 12), (i.toNat, 0)]
  | .muli d a i => put 0x12C00000 [(d.toNat, 17), (a.toNat, 12), (i.toNat, 0)]
  | .li d i => put 0x13000000 [(d.toNat, 17), (i.toNat, 0)]
  | .addpc d i => put 0x13400000 [(d.toNat, 17), (i.toNat, 0)]
  | .bfxi d a l p => put 0x13800000 [(d.toNat, 17), (a.toNat, 12), (l.toNat, 6), (p.toNat, 0)]
  | .bfii d a l p => put 0x13C00000 [(d.toNat, 17), (a.toNat, 12), (l.toNat, 6), (p.toNat, 0)]
  | .fadd d a b s r => put 0x20400000 [(d.toNat, 17), (a.toNat, 12), (b.toNat, 7), (s.code, 4), (r.code, 0)]
  | .fsub d a b s r => put 0x20800000 [(d.toNat, 17), (a.toNat, 12), (b.toNat, 7), (s.code, 4), (r.code, 0)]
  | .fmul d a b s r => put 0x20C00000 [(d.toNat, 17), (a.toNat, 12), (b.toNat, 7), (s.code, 4), (r.code, 0)]
  | .ffma d a b s r => put 0x21000000 [(d.toNat, 17), (a.toNat, 12), (b.toNat, 7), (s.code, 4), (r.code, 0)]
  | .fdiv d a b s r => put 0x21400000 [(d.toNat, 17), (a.toNat, 12), (b.toNat, 7), (s.code, 4), (r.code, 0)]
  | .fsqrt d a s r => put 0x21800000 [(d.toNat, 17), (a.toNat, 12), (s.code, 4), (r.code, 0)]
  | .fmin d a b s r => put 0x21C00000 [(d.toNat, 17), (a.toNat, 12), (b.toNat, 7), (s.code, 4), (r.code, 0)]
  | .fmax d a b s r => put 0x22000000 [(d.toNat, 17), (a.toNat, 12), (b.toNat, 7), (s.code, 4), (r.code, 0)]
  | .fabs d a s r => put 0x22400000 [(d.toNat, 17), (a.toNat, 12), (s.code, 4), (r.code, 0)]
  | .fneg d a s r => put 0x22800000 [(d.toNat, 17), (a.toNat, 12), (s.code, 4), (r.code, 0)]
  | .fcmpp d a b s c => put 0x22C00000 [(d.toNat, 17), (a.toNat, 12), (b.toNat, 7), (s.code, 4), (c.code, 0)]
  | .fcvti d a t s r => put 0x23000000 [(d.toNat, 17), (a.toNat, 12), (t.code, 7), (s.code, 4), (r.code, 0)]
  | .icvtf d a t s r => put 0x23400000 [(d.toNat, 17), (a.toNat, 12), (t.code, 7), (s.code, 4), (r.code, 0)]
  | .fcvt d a t s r => put 0x23800000 [(d.toNat, 17), (a.toNat, 12), (t.code, 7), (s.code, 4), (r.code, 0)]
  | .fclass d a s r => put 0x23C00000 [(d.toNat, 17), (a.toNat, 12), (s.code, 4), (r.code, 0)]
  | .ldS8 d a i => put 0x30400000 [(d.toNat, 17), (a.toNat, 12), (i.toNat, 0)]
  | .ldN8 d a i => put 0x30800000 [(d.toNat, 17), (a.toNat, 12), (i.toNat, 0)]
  | .ldS16 d a i => put 0x30C00000 [(d.toNat, 17), (a.toNat, 12), (i.toNat, 0)]
  | .ldN16 d a i => put 0x31000000 [(d.toNat, 17), (a.toNat, 12), (i.toNat, 0)]
  | .ldS32 d a i => put 0x31400000 [(d.toNat, 17), (a.toNat, 12), (i.toNat, 0)]
  | .ldN32 d a i => put 0x31800000 [(d.toNat, 17), (a.toNat, 12), (i.toNat, 0)]
  | .ld64 d a i => put 0x31C00000 [(d.toNat, 17), (a.toNat, 12), (i.toNat, 0)]
  | .st8 d a i => put 0x32000000 [(d.toNat, 17), (a.toNat, 12), (i.toNat, 0)]
  | .st16 d a i => put 0x32400000 [(d.toNat, 17), (a.toNat, 12), (i.toNat, 0)]
  | .st32 d a i => put 0x32800000 [(d.toNat, 17), (a.toNat, 12), (i.toNat, 0)]
  | .st64 d a i => put 0x32C00000 [(d.toNat, 17), (a.toNat, 12), (i.toNat, 0)]
  | .ldx d a b s e k => put 0x33000000 [(d.toNat, 17), (a.toNat, 12), (b.toNat, 7), (s.code, 4), (e.toNat, 2), (k.toNat, 0)]
  | .stx d a b s k => put 0x33400000 [(d.toNat, 17), (a.toNat, 12), (b.toNat, 7), (s.code, 4), (k.toNat, 0)]
  | .pfh t a i => put 0x33800000 [(t.code, 17), (a.toNat, 12), (i.toNat, 0)]
  | .cbo o a i => put 0x33C00000 [(o.code, 17), (a.toNat, 12), (i.toNat, 0)]
  | .tlook d a f => put 0x34000000 [(d.toNat, 17), (a.toNat, 12), (f.toNat, 0)]
  | .tins a b => put 0x34400000 [(a.toNat, 12), (b.toNat, 7)]
  | .tdel a => put 0x34800000 [(a.toNat, 12)]
  | .beq a b o => put 0x40000000 [(a.toNat, 19), (b.toNat, 14), (o.toNat, 0)]
  | .bne a b o => put 0x41000000 [(a.toNat, 19), (b.toNat, 14), (o.toNat, 0)]
  | .blt a b o => put 0x42000000 [(a.toNat, 19), (b.toNat, 14), (o.toNat, 0)]
  | .bge a b o => put 0x43000000 [(a.toNat, 19), (b.toNat, 14), (o.toNat, 0)]
  | .bltn a b o => put 0x44000000 [(a.toNat, 19), (b.toNat, 14), (o.toNat, 0)]
  | .bgen a b o => put 0x45000000 [(a.toNat, 19), (b.toNat, 14), (o.toNat, 0)]
  | .bpt p o => put 0x46000000 [(p.toNat, 19), (o.toNat, 0)]
  | .bpf p o => put 0x47000000 [(p.toNat, 19), (o.toNat, 0)]
  | .loop a o => put 0x48000000 [(a.toNat, 19), (o.toNat, 0)]
  | .jalr d a o => put 0x4D000000 [(d.toNat, 19), (a.toNat, 14), (o.toNat, 0)]
  | .jal d o => put 0x4E000000 [(d.toNat, 19), (o.toNat, 0)]
  | .semSig a b s => put 0x50400000 [(a.toNat, 12), (b.toNat, 7), (s.code, 4)]
  | .semWait d a b t => put 0x50800000 [(d.toNat, 17), (a.toNat, 12), (b.toNat, 7), (t.toNat, 0)]
  | .semAdd d a b => put 0x50C00000 [(d.toNat, 17), (a.toNat, 12), (b.toNat, 7)]
  | .semSet a b => put 0x51000000 [(a.toNat, 12), (b.toNat, 7)]
  | .semArm d a b => put 0x51400000 [(d.toNat, 17), (a.toNat, 12), (b.toNat, 7)]
  | .phase s c => put 0x51800000 [(s.code, 4), (c.toNat, 0)]
  | .bar d a => put 0x51C00000 [(d.toNat, 17), (a.toNat, 12)]
  | .gangJoin a => put 0x52000000 [(a.toNat, 12)]
  | .gangLeave a => put 0x52400000 [(a.toNat, 12)]
  | .amo d a b s o => put 0x52800000 [(d.toNat, 17), (a.toNat, 12), (b.toNat, 7), (s.code, 4), (o.code, 0)]
  | .amocas d a b s => put 0x52C00000 [(d.toNat, 17), (a.toNat, 12), (b.toNat, 7), (s.code, 4)]
  | .amof d a b s => put 0x53000000 [(d.toNat, 17), (a.toNat, 12), (b.toNat, 7), (s.code, 4)]
  | .toksig e t => put 0x53400000 [(e.code, 17), (t.toNat, 0)]
  | .tokwait e t => put 0x53800000 [(e.code, 17), (t.toNat, 0)]
  | .waite e k => put 0x53C00000 [(e.code, 17), (k.toNat, 7)]
  | .waitwm d a n => put 0x54000000 [(d.toNat, 17), (a.toNat, 12), (n.toNat, 7)]
  | .fenceE m => put 0x54400000 [(m.toNat, 0)]
  | .semRead d a => put 0x54800000 [(d.toNat, 17), (a.toNat, 12)]
  | .cp r => put 0x60400000 [(r.code, 17)]
  | .cpt r => put 0x60800000 [(r.code, 17)]
  | .cpr r => put 0x60C00000 [(r.code, 17)]
  | .cpg r => put 0x61000000 [(r.code, 17)]
  | .cps r => put 0x61400000 [(r.code, 17)]
  | .cpf r => put 0x61800000 [(r.code, 17)]
  | .cpred r m => put 0x61C00000 [(r.code, 17), (m.code, 0)]
  | .cppf r n d => put 0x62000000 [(r.code, 17), (n.toNat, 3), (d.toNat, 0)]
  | .cpx n => put 0x62400000 [(n.toNat, 0)]
  | .wmrd d e g n => put 0x62800000 [(d.toNat, 17), (e.toNat, 12), (g.toNat, 3), (n.toNat, 0)]
  | .rngaw d r => put 0x62C00000 [(d.toNat, 17), (r.toNat, 0)]
  | .rngrel r => put 0x63000000 [(r.toNat, 0)]
  | .rnginit a b r => put 0x63400000 [(a.toNat, 17), (b.toNat, 12), (r.toNat, 0)]
  | .cpq d => put 0x63800000 [(d.toNat, 17)]
  | .mxcfg a b i => put 0x70400000 [(a.toNat, 17), (b.toNat, 12), (i.toNat, 0)]
  | .mxldw a p => put 0x70800000 [(a.toNat, 17), (p.toNat, 0)]
  | .mxldwScaled a b p => put 0x70800010 [(a.toNat, 17), (b.toNat, 12), (p.toNat, 0)]
  | .mxsta a b n f => put 0x71800000 [(a.toNat, 17), (b.toNat, 12), (n.toNat, 4), (f.toNat, 0)]
  | .mxanc a => put 0x72000000 [(a.toNat, 17)]
  | .mxmrk a b => put 0x72400000 [(a.toNat, 17), (b.toNat, 12)]
  | .vadd d a b w n m => put 0x80400000 [(d.toNat, 16), (a.toNat, 10), (b.toNat, 4), (w.toNat, 2), (n.toNat, 1), (m.toNat, 0)]
  | .vsub d a b w n m => put 0x80800000 [(d.toNat, 16), (a.toNat, 10), (b.toNat, 4), (w.toNat, 2), (n.toNat, 1), (m.toNat, 0)]
  | .vmul d a b w n m => put 0x80C00000 [(d.toNat, 16), (a.toNat, 10), (b.toNat, 4), (w.toNat, 2), (n.toNat, 1), (m.toNat, 0)]
  | .vfma d a b w n m => put 0x81000000 [(d.toNat, 16), (a.toNat, 10), (b.toNat, 4), (w.toNat, 2), (n.toNat, 1), (m.toNat, 0)]
  | .vmin d a b w n m => put 0x81400000 [(d.toNat, 16), (a.toNat, 10), (b.toNat, 4), (w.toNat, 2), (n.toNat, 1), (m.toNat, 0)]
  | .vmax d a b w n m => put 0x81800000 [(d.toNat, 16), (a.toNat, 10), (b.toNat, 4), (w.toNat, 2), (n.toNat, 1), (m.toNat, 0)]
  | .vabs d a w n m => put 0x81C00000 [(d.toNat, 16), (a.toNat, 10), (w.toNat, 2), (n.toNat, 1), (m.toNat, 0)]
  | .vneg d a w n m => put 0x82000000 [(d.toNat, 16), (a.toNat, 10), (w.toNat, 2), (n.toNat, 1), (m.toNat, 0)]
  | .vand d a b w n m => put 0x82400000 [(d.toNat, 16), (a.toNat, 10), (b.toNat, 4), (w.toNat, 2), (n.toNat, 1), (m.toNat, 0)]
  | .vor d a b w n m => put 0x82800000 [(d.toNat, 16), (a.toNat, 10), (b.toNat, 4), (w.toNat, 2), (n.toNat, 1), (m.toNat, 0)]
  | .vxor d a b w n m => put 0x82C00000 [(d.toNat, 16), (a.toNat, 10), (b.toNat, 4), (w.toNat, 2), (n.toNat, 1), (m.toNat, 0)]
  | .vandn d a b w n m => put 0x83000000 [(d.toNat, 16), (a.toNat, 10), (b.toNat, 4), (w.toNat, 2), (n.toNat, 1), (m.toNat, 0)]
  | .vshl d a b w n m => put 0x83400000 [(d.toNat, 16), (a.toNat, 10), (b.toNat, 4), (w.toNat, 2), (n.toNat, 1), (m.toNat, 0)]
  | .vshr d a b w n m => put 0x83800000 [(d.toNat, 16), (a.toNat, 10), (b.toNat, 4), (w.toNat, 2), (n.toNat, 1), (m.toNat, 0)]
  | .vsra d a b w n m => put 0x83C00000 [(d.toNat, 16), (a.toNat, 10), (b.toNat, 4), (w.toNat, 2), (n.toNat, 1), (m.toNat, 0)]
  | .vaddw d a b w n m => put 0x84000000 [(d.toNat, 16), (a.toNat, 10), (b.toNat, 4), (w.toNat, 2), (n.toNat, 1), (m.toNat, 0)]
  | .vsubw d a b w n m => put 0x84400000 [(d.toNat, 16), (a.toNat, 10), (b.toNat, 4), (w.toNat, 2), (n.toNat, 1), (m.toNat, 0)]
  | .vmulw d a b w n m => put 0x84800000 [(d.toNat, 16), (a.toNat, 10), (b.toNat, 4), (w.toNat, 2), (n.toNat, 1), (m.toNat, 0)]
  | .vdotw d a b w n m => put 0x84C00000 [(d.toNat, 16), (a.toNat, 10), (b.toNat, 4), (w.toNat, 2), (n.toNat, 1), (m.toNat, 0)]
  | .vavg d a b w n m => put 0x85000000 [(d.toNat, 16), (a.toNat, 10), (b.toNat, 4), (w.toNat, 2), (n.toNat, 1), (m.toNat, 0)]
  | .vsadd d a b w n m => put 0x85400000 [(d.toNat, 16), (a.toNat, 10), (b.toNat, 4), (w.toNat, 2), (n.toNat, 1), (m.toNat, 0)]
  | .vssub d a b w n m => put 0x85800000 [(d.toNat, 16), (a.toNat, 10), (b.toNat, 4), (w.toNat, 2), (n.toNat, 1), (m.toNat, 0)]
  | .vmulh d a b w n m => put 0x85C00000 [(d.toNat, 16), (a.toNat, 10), (b.toNat, 4), (w.toNat, 2), (n.toNat, 1), (m.toNat, 0)]
  | .vclamp d a b w n m => put 0x86000000 [(d.toNat, 16), (a.toNat, 10), (b.toNat, 4), (w.toNat, 2), (n.toNat, 1), (m.toNat, 0)]
  | .vaddScalar d a x w n m => put 0x88000000 [(d.toNat, 16), (a.toNat, 10), (x.toNat, 4), (w.toNat, 2), (n.toNat, 1), (m.toNat, 0)]
  | .vsubScalar d a x w n m => put 0x88400000 [(d.toNat, 16), (a.toNat, 10), (x.toNat, 4), (w.toNat, 2), (n.toNat, 1), (m.toNat, 0)]
  | .vmulScalar d a x w n m => put 0x88800000 [(d.toNat, 16), (a.toNat, 10), (x.toNat, 4), (w.toNat, 2), (n.toNat, 1), (m.toNat, 0)]
  | .vfmaScalar d a x w n m => put 0x88C00000 [(d.toNat, 16), (a.toNat, 10), (x.toNat, 4), (w.toNat, 2), (n.toNat, 1), (m.toNat, 0)]
  | .vminScalar d a x w n m => put 0x89000000 [(d.toNat, 16), (a.toNat, 10), (x.toNat, 4), (w.toNat, 2), (n.toNat, 1), (m.toNat, 0)]
  | .vmaxScalar d a x w n m => put 0x89400000 [(d.toNat, 16), (a.toNat, 10), (x.toNat, 4), (w.toNat, 2), (n.toNat, 1), (m.toNat, 0)]
  | .vandScalar d a x w n m => put 0x8A000000 [(d.toNat, 16), (a.toNat, 10), (x.toNat, 4), (w.toNat, 2), (n.toNat, 1), (m.toNat, 0)]
  | .vorScalar d a x w n m => put 0x8A400000 [(d.toNat, 16), (a.toNat, 10), (x.toNat, 4), (w.toNat, 2), (n.toNat, 1), (m.toNat, 0)]
  | .vxorScalar d a x w n m => put 0x8A800000 [(d.toNat, 16), (a.toNat, 10), (x.toNat, 4), (w.toNat, 2), (n.toNat, 1), (m.toNat, 0)]
  | .vandnScalar d a x w n m => put 0x8AC00000 [(d.toNat, 16), (a.toNat, 10), (x.toNat, 4), (w.toNat, 2), (n.toNat, 1), (m.toNat, 0)]
  | .vshlScalar d a x w n m => put 0x8B000000 [(d.toNat, 16), (a.toNat, 10), (x.toNat, 4), (w.toNat, 2), (n.toNat, 1), (m.toNat, 0)]
  | .vshrScalar d a x w n m => put 0x8B400000 [(d.toNat, 16), (a.toNat, 10), (x.toNat, 4), (w.toNat, 2), (n.toNat, 1), (m.toNat, 0)]
  | .vsraScalar d a x w n m => put 0x8B800000 [(d.toNat, 16), (a.toNat, 10), (x.toNat, 4), (w.toNat, 2), (n.toNat, 1), (m.toNat, 0)]
  | .vaddwScalar d a x w n m => put 0x8BC00000 [(d.toNat, 16), (a.toNat, 10), (x.toNat, 4), (w.toNat, 2), (n.toNat, 1), (m.toNat, 0)]
  | .vsubwScalar d a x w n m => put 0x8C000000 [(d.toNat, 16), (a.toNat, 10), (x.toNat, 4), (w.toNat, 2), (n.toNat, 1), (m.toNat, 0)]
  | .vmulwScalar d a x w n m => put 0x8C400000 [(d.toNat, 16), (a.toNat, 10), (x.toNat, 4), (w.toNat, 2), (n.toNat, 1), (m.toNat, 0)]
  | .vdotwScalar d a x w n m => put 0x8C800000 [(d.toNat, 16), (a.toNat, 10), (x.toNat, 4), (w.toNat, 2), (n.toNat, 1), (m.toNat, 0)]
  | .vavgScalar d a x w n m => put 0x8CC00000 [(d.toNat, 16), (a.toNat, 10), (x.toNat, 4), (w.toNat, 2), (n.toNat, 1), (m.toNat, 0)]
  | .vsaddScalar d a x w n m => put 0x8D000000 [(d.toNat, 16), (a.toNat, 10), (x.toNat, 4), (w.toNat, 2), (n.toNat, 1), (m.toNat, 0)]
  | .vssubScalar d a x w n m => put 0x8D400000 [(d.toNat, 16), (a.toNat, 10), (x.toNat, 4), (w.toNat, 2), (n.toNat, 1), (m.toNat, 0)]
  | .vmulhScalar d a x w n m => put 0x8D800000 [(d.toNat, 16), (a.toNat, 10), (x.toNat, 4), (w.toNat, 2), (n.toNat, 1), (m.toNat, 0)]
  | .vclampScalar d a x w n m => put 0x8DC00000 [(d.toNat, 16), (a.toNat, 10), (x.toNat, 4), (w.toNat, 2), (n.toNat, 1), (m.toNat, 0)]
  | .vcmpeq d a b w m => put 0x90400000 [(d.toNat, 16), (a.toNat, 10), (b.toNat, 4), (w.toNat, 2), (m.toNat, 0)]
  | .vcmpne d a b w m => put 0x90800000 [(d.toNat, 16), (a.toNat, 10), (b.toNat, 4), (w.toNat, 2), (m.toNat, 0)]
  | .vcmplt d a b w m => put 0x90C00000 [(d.toNat, 16), (a.toNat, 10), (b.toNat, 4), (w.toNat, 2), (m.toNat, 0)]
  | .vcmple d a b w m => put 0x91000000 [(d.toNat, 16), (a.toNat, 10), (b.toNat, 4), (w.toNat, 2), (m.toNat, 0)]
  | .vcmpltn d a b w m => put 0x91400000 [(d.toNat, 16), (a.toNat, 10), (b.toNat, 4), (w.toNat, 2), (m.toNat, 0)]
  | .vcmplen d a b w m => put 0x91800000 [(d.toNat, 16), (a.toNat, 10), (b.toNat, 4), (w.toNat, 2), (m.toNat, 0)]
  | .vcmpeqScalar d a x w m => put 0x98000000 [(d.toNat, 16), (a.toNat, 10), (x.toNat, 4), (w.toNat, 2), (m.toNat, 0)]
  | .vcmpneScalar d a x w m => put 0x98400000 [(d.toNat, 16), (a.toNat, 10), (x.toNat, 4), (w.toNat, 2), (m.toNat, 0)]
  | .vcmpltScalar d a x w m => put 0x98800000 [(d.toNat, 16), (a.toNat, 10), (x.toNat, 4), (w.toNat, 2), (m.toNat, 0)]
  | .vcmpleScalar d a x w m => put 0x98C00000 [(d.toNat, 16), (a.toNat, 10), (x.toNat, 4), (w.toNat, 2), (m.toNat, 0)]
  | .vcmpltnScalar d a x w m => put 0x99000000 [(d.toNat, 16), (a.toNat, 10), (x.toNat, 4), (w.toNat, 2), (m.toNat, 0)]
  | .vcmplenScalar d a x w m => put 0x99400000 [(d.toNat, 16), (a.toNat, 10), (x.toNat, 4), (w.toNat, 2), (m.toNat, 0)]
  | .vsel d a b w n => put 0x92000000 [(d.toNat, 16), (a.toNat, 10), (b.toNat, 4), (w.toNat, 2), (n.toNat, 1)]
  | .vmand d a b m => put 0x92400000 [(d.toNat, 16), (a.toNat, 10), (b.toNat, 4), (m.toNat, 0)]
  | .vmor d a b m => put 0x92800000 [(d.toNat, 16), (a.toNat, 10), (b.toNat, 4), (m.toNat, 0)]
  | .vmxor d a b m => put 0x92C00000 [(d.toNat, 16), (a.toNat, 10), (b.toNat, 4), (m.toNat, 0)]
  | .vmnot d a m => put 0x93000000 [(d.toNat, 16), (a.toNat, 10), (m.toNat, 0)]
  | .vmpop d a m => put 0x93400000 [(d.toNat, 16), (a.toNat, 10), (m.toNat, 0)]
  | .vmfirst d a m => put 0x93800000 [(d.toNat, 16), (a.toNat, 10), (m.toNat, 0)]
  | .vperm d a b w n m => put 0x94000000 [(d.toNat, 16), (a.toNat, 10), (b.toNat, 4), (w.toNat, 2), (n.toNat, 1), (m.toNat, 0)]
  | .vrot d a x w n m => put 0x94400000 [(d.toNat, 16), (a.toNat, 10), (x.toNat, 4), (w.toNat, 2), (n.toNat, 1), (m.toNat, 0)]
  | .vslideup d a x w n m => put 0x94800000 [(d.toNat, 16), (a.toNat, 10), (x.toNat, 4), (w.toNat, 2), (n.toNat, 1), (m.toNat, 0)]
  | .vslidedn d a x w n m => put 0x94C00000 [(d.toNat, 16), (a.toNat, 10), (x.toNat, 4), (w.toNat, 2), (n.toNat, 1), (m.toNat, 0)]
  | .vzip d a b w n m => put 0x95000000 [(d.toNat, 16), (a.toNat, 10), (b.toNat, 4), (w.toNat, 2), (n.toNat, 1), (m.toNat, 0)]
  | .vunzip d a w n m => put 0x95400000 [(d.toNat, 16), (a.toNat, 10), (w.toNat, 2), (n.toNat, 1), (m.toNat, 0)]
  | .vbcast d x w n m => put 0x95800000 [(d.toNat, 16), (x.toNat, 4), (w.toNat, 2), (n.toNat, 1), (m.toNat, 0)]
  | .vins d a x w n m => put 0x95C00000 [(d.toNat, 16), (a.toNat, 10), (x.toNat, 4), (w.toNat, 2), (n.toNat, 1), (m.toNat, 0)]
  | .vext d a x w => put 0x96000000 [(d.toNat, 16), (a.toNat, 10), (x.toNat, 4), (w.toNat, 2)]
  | .vcompress d a k w n => put 0x96400000 [(d.toNat, 16), (a.toNat, 10), (k.toNat, 4), (w.toNat, 2), (n.toNat, 1)]
  | .viota d k w n m => put 0x96800000 [(d.toNat, 16), (k.toNat, 10), (w.toNat, 2), (n.toNat, 1), (m.toNat, 0)]
  | .vmovv d a w n m => put 0x96C00000 [(d.toNat, 16), (a.toNat, 10), (w.toNat, 2), (n.toNat, 1), (m.toNat, 0)]
  | .vld d a b w n m => put 0xA0400000 [(d.toNat, 16), (a.toNat, 10), (b.toNat, 4), (w.toNat, 2), (n.toNat, 1), (m.toNat, 0)]
  | .vst d a b w m => put 0xA0800000 [(d.toNat, 16), (a.toNat, 10), (b.toNat, 4), (w.toNat, 2), (m.toNat, 0)]
  | .vlds d a b w n m => put 0xA0C00000 [(d.toNat, 16), (a.toNat, 10), (b.toNat, 4), (w.toNat, 2), (n.toNat, 1), (m.toNat, 0)]
  | .vsts d a b w m => put 0xA1000000 [(d.toNat, 16), (a.toNat, 10), (b.toNat, 4), (w.toNat, 2), (m.toNat, 0)]
  | .vldg d a b w n m => put 0xA1400000 [(d.toNat, 16), (a.toNat, 10), (b.toNat, 4), (w.toNat, 2), (n.toNat, 1), (m.toNat, 0)]
  | .vstg d a b w m => put 0xA1800000 [(d.toNat, 16), (a.toNat, 10), (b.toNat, 4), (w.toNat, 2), (m.toNat, 0)]
  | .vcvt d a t w n m => put 0xA4000000 [(d.toNat, 16), (a.toNat, 10), (t.code, 4), (w.toNat, 2), (n.toNat, 1), (m.toNat, 0)]
  | .vqnt d a k n => put 0xA4400008 [(d.toNat, 16), (a.toNat, 10), (k.toNat, 4), (n.toNat, 1)]
  | .vdqnt d a k n => put 0xA4800008 [(d.toNat, 16), (a.toNat, 10), (k.toNat, 4), (n.toNat, 1)]
  | .vround d a w n m => put 0xA4C00000 [(d.toNat, 16), (a.toNat, 10), (w.toNat, 2), (n.toNat, 1), (m.toNat, 0)]
  | .vnarrow d a x w n m => put 0xA5000000 [(d.toNat, 16), (a.toNat, 10), (x.toNat, 4), (w.toNat, 2), (n.toNat, 1), (m.toNat, 0)]
  | .vsett t z s => put 0xA5400000 [(t.code, 10), (z.toNat, 7), (s.toNat, 4)]
  | .vexp2 d a w n m => put 0xB0400000 [(d.toNat, 16), (a.toNat, 10), (w.toNat, 2), (n.toNat, 1), (m.toNat, 0)]
  | .vlog2 d a w n m => put 0xB0800000 [(d.toNat, 16), (a.toNat, 10), (w.toNat, 2), (n.toNat, 1), (m.toNat, 0)]
  | .vexp d a w n m => put 0xB0C00000 [(d.toNat, 16), (a.toNat, 10), (w.toNat, 2), (n.toNat, 1), (m.toNat, 0)]
  | .vlog d a w n m => put 0xB1000000 [(d.toNat, 16), (a.toNat, 10), (w.toNat, 2), (n.toNat, 1), (m.toNat, 0)]
  | .vrcp d a w n m => put 0xB1400000 [(d.toNat, 16), (a.toNat, 10), (w.toNat, 2), (n.toNat, 1), (m.toNat, 0)]
  | .vrsq d a w n m => put 0xB1800000 [(d.toNat, 16), (a.toNat, 10), (w.toNat, 2), (n.toNat, 1), (m.toNat, 0)]
  | .vsqrt d a w n m => put 0xB1C00000 [(d.toNat, 16), (a.toNat, 10), (w.toNat, 2), (n.toNat, 1), (m.toNat, 0)]
  | .vtanh d a w n m => put 0xB2000000 [(d.toNat, 16), (a.toNat, 10), (w.toNat, 2), (n.toNat, 1), (m.toNat, 0)]
  | .vsigm d a w n m => put 0xB2400000 [(d.toNat, 16), (a.toNat, 10), (w.toNat, 2), (n.toNat, 1), (m.toNat, 0)]
  | .vsin d a w n m => put 0xB2800000 [(d.toNat, 16), (a.toNat, 10), (w.toNat, 2), (n.toNat, 1), (m.toNat, 0)]
  | .vcos d a w n m => put 0xB2C00000 [(d.toNat, 16), (a.toNat, 10), (w.toNat, 2), (n.toNat, 1), (m.toNat, 0)]
  | .vdiv d a b w n m => put 0xB3000000 [(d.toNat, 16), (a.toNat, 10), (b.toNat, 4), (w.toNat, 2), (n.toNat, 1), (m.toNat, 0)]
  | .vredsum d a n m => put 0xB4000000 [(d.toNat, 16), (a.toNat, 10), (n.toNat, 1), (m.toNat, 0)]
  | .vredmax d a n m => put 0xB4400000 [(d.toNat, 16), (a.toNat, 10), (n.toNat, 1), (m.toNat, 0)]
  | .vredmin d a n m => put 0xB4800000 [(d.toNat, 16), (a.toNat, 10), (n.toNat, 1), (m.toNat, 0)]
  | .vscan d a n m => put 0xB4C00000 [(d.toNat, 16), (a.toNat, 10), (n.toNat, 1), (m.toNat, 0)]
  | .vexpmax d a m => put 0xB5000000 [(d.toNat, 16), (a.toNat, 10), (m.toNat, 0)]
  | .vacc d a f m => put 0xB5400000 [(d.toNat, 16), (a.toNat, 10), (f.toNat, 4), (m.toNat, 0)]
  | .vacccvt d a n m => put 0xB5800000 [(d.toNat, 16), (a.toNat, 10), (n.toNat, 1), (m.toNat, 0)]
  | .vrng d a k n => put 0xB6000000 [(d.toNat, 16), (a.toNat, 10), (k.toNat, 4), (n.toNat, 1)]
  | .spawn a b r => put 0xD0100000 [(a.toNat, 15), (b.toNat, 10), (r.code, 8)]
  | .spawng a b r g => put 0xD0200000 [(a.toNat, 15), (b.toNat, 10), (r.code, 8), (g.toNat, 0)]
  | .yield n => put 0xD0400000 [(n.toNat, 0)]
  | .role r => put 0xD0500000 [(r.code, 0)]
  | .csrr d c => put 0xD0600000 [(d.toNat, 15), (c.toNat, 0)]
  | .csrw a c => put 0xD0700000 [(a.toNat, 15), (c.toNat, 0)]
  | .csrs a c => put 0xD0800000 [(a.toNat, 15), (c.toNat, 0)]
  | .csrc a c => put 0xD0900000 [(a.toNat, 15), (c.toNat, 0)]
  | .trap i => put 0xD0A00000 [(i.toNat, 0)]
  | .bkpt i => put 0xD0C00000 [(i.toNat, 0)]
  | .launch a => put 0xD0E00000 [(a.toNat, 15)]
  | .add d a b s => put 0x00400000 [(d.toNat, 17), (a.toNat, 12), (b.toNat, 7), (s.code, 4)]
  | .sub d a b s => put 0x00800000 [(d.toNat, 17), (a.toNat, 12), (b.toNat, 7), (s.code, 4)]
  | .and d a b s => put 0x00C00000 [(d.toNat, 17), (a.toNat, 12), (b.toNat, 7), (s.code, 4)]
  | .or d a b s => put 0x01000000 [(d.toNat, 17), (a.toNat, 12), (b.toNat, 7), (s.code, 4)]
  | .xor d a b s => put 0x01400000 [(d.toNat, 17), (a.toNat, 12), (b.toNat, 7), (s.code, 4)]
  | .andn d a b s => put 0x01800000 [(d.toNat, 17), (a.toNat, 12), (b.toNat, 7), (s.code, 4)]
  | .orn d a b s => put 0x01C00000 [(d.toNat, 17), (a.toNat, 12), (b.toNat, 7), (s.code, 4)]
  | .sll d a b s => put 0x02000000 [(d.toNat, 17), (a.toNat, 12), (b.toNat, 7), (s.code, 4)]
  | .srl d a b s => put 0x02400000 [(d.toNat, 17), (a.toNat, 12), (b.toNat, 7), (s.code, 4)]
  | .sra d a b s => put 0x02800000 [(d.toNat, 17), (a.toNat, 12), (b.toNat, 7), (s.code, 4)]
  | .rol d a b s => put 0x02C00000 [(d.toNat, 17), (a.toNat, 12), (b.toNat, 7), (s.code, 4)]
  | .ror d a b s => put 0x03000000 [(d.toNat, 17), (a.toNat, 12), (b.toNat, 7), (s.code, 4)]
  | .mul d a b s => put 0x03400000 [(d.toNat, 17), (a.toNat, 12), (b.toNat, 7), (s.code, 4)]
  | .min d a b s => put 0x05000000 [(d.toNat, 17), (a.toNat, 12), (b.toNat, 7), (s.code, 4)]
  | .max d a b s => put 0x05400000 [(d.toNat, 17), (a.toNat, 12), (b.toNat, 7), (s.code, 4)]
  | .lix i => put 0xC0000000 [(i.toNat, 0)]
  | .mxswp => put 0x70C00000 []
  | .mxgo => put 0x71000000 []
  | .mxgog => put 0x71400000 []
  | .mxclr => put 0x71C00000 []
  | .exit => put 0xD0300000 []
  | .eret => put 0xD0B00000 []
  | .nop => put 0xD0D00000 []
  | .rfetch a d => put 0x0000000B [(a.toNat, 15), (d.toNat, 7)]
  | .flambeolBfx b a d => put 0x0000100B [(b.toNat, 20), (a.toNat, 15), (d.toNat, 7)]
  | .swait b a d => put 0x0000200B [(b.toNat, 20), (a.toNat, 15), (d.toNat, 7)]
  | .disp b a d => put 0x0000300B [(b.toNat, 20), (a.toNat, 15), (d.toNat, 7)]
  | .nopPacket _ => 0
  | .launchPacket _ => 0
  | .waitPacket _ => 0
  | .signalPacket _ => 0
  | .copyPacket _ => 0
  | .detlevel _ => 0
  | .cadence _ => 0
  | .barrier _ => 0
  | .doorbell _ _ => 0
  | .pendingMapScan => 0
  | .create => 0
  | .destroy => 0
  | .qreset => 0
  | .preempt => 0
  | .resume => 0
  | .pkgreset => 0
  | .update => 0
  | .slotwrite => 0
  | .slotverify => 0
  | .setslot => 0
  | .pcap => 0
  | .setparam => 0
  | .snapshot => 0
  | .devread => 0
  | .devwrite => 0
  | .clearmap => 0
  | .group => 0
  | .getMeasurements => 0
  | .challenge _ => 0
  | .deviceRegisterWrite _ _ _ => 0
  | .hbeat _ => 0
  | .heartbeatTimeout => 0
  | .boot => 0
  | .systemEnumeration _ _ _ => 0
  | .reducedServiceEnd => 0
  | .flit _ => 0
  | .routeCostFlit _ _ => 0
  | .launchAdmission _ => 0
  | .phaseAdmission _ => 0
  | .spillRefill _ => 0
  | .launchEnd _ => 0
  | .semUpdateAtHome _ => 0
  | .semWaitComplete _ _ => 0
  | .gangArrivalAtHome _ => 0
  | .barComplete _ _ => 0
  | .atomicAtHome _ _ => 0
  | .reductionMerge _ => 0
  | .homeFence _ _ => 0
  | .queueResetComplete _ => 0
  | .parkWake _ _ => 0
  | .parkTimeout _ _ => 0
  | .shootdown _ _ _ => 0
  | .shootdownAck _ => 0
  | .shootWaitExpiry _ => 0
  | .vectorEntryStart _ => 0
  | .vectorEntryEnd _ => 0
  | .copyEntryStart _ => 0
  | .cptRelease _ => 0
  | .copyRowLanded _ _ => 0
  | .copyEntryEnd _ _ => 0
  | .matrixEntryStart _ => 0
  | .planeLoadDone _ => 0
  | .matrixPass _ => 0
  | .matrixCommit _ => 0
  | .engineTrapDelivery _ _ => 0
  | .watchdog _ _ => 0
  | .parityAlarm _ _ => 0
  | .protocolAlarm _ _ => 0
  | .testAlarm _ => 0
  | .drizzleReset _ => 0
  | .coreReset _ => 0
  | .dieReset _ => 0
  | .packageReset => 0
  | .drainTimeout _ => 0
  | .saveComplete _ => 0
  | .saveTimeout _ => 0
  | .stepBoundary => 0
  | .scycHold _ => 0
  | .replay _ => 0
  | .droopStretch _ => 0
  | .drizzleWindow _ => 0
  | .cadenceTick _ => 0
  | .levelSwitch _ => 0
  | .laneError _ _ => 0
  | .laneRotation _ => 0
  | .l2EccError _ _ _ _ _ => 0
  | .poolEccError _ _ _ => 0
  | .inFieldTest _ => 0
  | .clusterTestResult _ _ => 0
  | .snapshotLatch => 0
  | .monSample _ _ _ _ _ => 0
  | .illegal _ => 0
  | .swaitTimeout _ => 0
  | .linkRetrain _ => 0
  | .clusterEmptyTimeout _ => 0

/-- The encoder: the 32-bit word of an instruction (R131, R133, R422). -/
def Instr.encode (i : Instr) : W32 := BitVec.ofNat 32 i.encodeNat

/-- Which machine reads the word of an operation: an H9 sequencer, a Flambeol queue core, or none. -/
inductive WordOf | sequencer | flambeol | noWord
  deriving DecidableEq, Repr

/-- Whose instruction an operation is. -/
def Instr.wordOf : Instr → WordOf
  | .mulh _ _ _ _ => .sequencer
  | .mulhn _ _ _ _ => .sequencer
  | .div _ _ _ _ => .sequencer
  | .divn _ _ _ _ => .sequencer
  | .rem _ _ _ _ => .sequencer
  | .remn _ _ _ _ => .sequencer
  | .minn _ _ _ _ => .sequencer
  | .maxn _ _ _ _ => .sequencer
  | .slt _ _ _ _ => .sequencer
  | .sltn _ _ _ _ => .sequencer
  | .seq _ _ _ _ => .sequencer
  | .sne _ _ _ _ => .sequencer
  | .clz _ _ _ => .sequencer
  | .ctz _ _ _ => .sequencer
  | .popc _ _ _ => .sequencer
  | .brev _ _ _ => .sequencer
  | .bfx _ _ _ _ _ => .sequencer
  | .bfi _ _ _ _ => .sequencer
  | .sext _ _ _ => .sequencer
  | .zext _ _ _ => .sequencer
  | .sel _ _ _ _ _ => .sequencer
  | .madd _ _ _ _ => .sequencer
  | .cmpp _ _ _ _ _ => .sequencer
  | .plog _ _ _ _ => .sequencer
  | .movp _ _ => .sequencer
  | .pmov _ _ _ => .sequencer
  | .addi _ _ _ => .sequencer
  | .andi _ _ _ => .sequencer
  | .ori _ _ _ => .sequencer
  | .xori _ _ _ => .sequencer
  | .slli _ _ _ => .sequencer
  | .srli _ _ _ => .sequencer
  | .srai _ _ _ => .sequencer
  | .slti _ _ _ => .sequencer
  | .sltni _ _ _ => .sequencer
  | .seqi _ _ _ => .sequencer
  | .muli _ _ _ => .sequencer
  | .li _ _ => .sequencer
  | .addpc _ _ => .sequencer
  | .bfxi _ _ _ _ => .sequencer
  | .bfii _ _ _ _ => .sequencer
  | .fadd _ _ _ _ _ => .sequencer
  | .fsub _ _ _ _ _ => .sequencer
  | .fmul _ _ _ _ _ => .sequencer
  | .ffma _ _ _ _ _ => .sequencer
  | .fdiv _ _ _ _ _ => .sequencer
  | .fsqrt _ _ _ _ => .sequencer
  | .fmin _ _ _ _ _ => .sequencer
  | .fmax _ _ _ _ _ => .sequencer
  | .fabs _ _ _ _ => .sequencer
  | .fneg _ _ _ _ => .sequencer
  | .fcmpp _ _ _ _ _ => .sequencer
  | .fcvti _ _ _ _ _ => .sequencer
  | .icvtf _ _ _ _ _ => .sequencer
  | .fcvt _ _ _ _ _ => .sequencer
  | .fclass _ _ _ _ => .sequencer
  | .ldS8 _ _ _ => .sequencer
  | .ldN8 _ _ _ => .sequencer
  | .ldS16 _ _ _ => .sequencer
  | .ldN16 _ _ _ => .sequencer
  | .ldS32 _ _ _ => .sequencer
  | .ldN32 _ _ _ => .sequencer
  | .ld64 _ _ _ => .sequencer
  | .st8 _ _ _ => .sequencer
  | .st16 _ _ _ => .sequencer
  | .st32 _ _ _ => .sequencer
  | .st64 _ _ _ => .sequencer
  | .ldx _ _ _ _ _ _ => .sequencer
  | .stx _ _ _ _ _ => .sequencer
  | .pfh _ _ _ => .sequencer
  | .cbo _ _ _ => .sequencer
  | .tlook _ _ _ => .sequencer
  | .tins _ _ => .sequencer
  | .tdel _ => .sequencer
  | .beq _ _ _ => .sequencer
  | .bne _ _ _ => .sequencer
  | .blt _ _ _ => .sequencer
  | .bge _ _ _ => .sequencer
  | .bltn _ _ _ => .sequencer
  | .bgen _ _ _ => .sequencer
  | .bpt _ _ => .sequencer
  | .bpf _ _ => .sequencer
  | .loop _ _ => .sequencer
  | .jalr _ _ _ => .sequencer
  | .jal _ _ => .sequencer
  | .semSig _ _ _ => .sequencer
  | .semWait _ _ _ _ => .sequencer
  | .semAdd _ _ _ => .sequencer
  | .semSet _ _ => .sequencer
  | .semArm _ _ _ => .sequencer
  | .phase _ _ => .sequencer
  | .bar _ _ => .sequencer
  | .gangJoin _ => .sequencer
  | .gangLeave _ => .sequencer
  | .amo _ _ _ _ _ => .sequencer
  | .amocas _ _ _ _ => .sequencer
  | .amof _ _ _ _ => .sequencer
  | .toksig _ _ => .sequencer
  | .tokwait _ _ => .sequencer
  | .waite _ _ => .sequencer
  | .waitwm _ _ _ => .sequencer
  | .fenceE _ => .sequencer
  | .semRead _ _ => .sequencer
  | .cp _ => .sequencer
  | .cpt _ => .sequencer
  | .cpr _ => .sequencer
  | .cpg _ => .sequencer
  | .cps _ => .sequencer
  | .cpf _ => .sequencer
  | .cpred _ _ => .sequencer
  | .cppf _ _ _ => .sequencer
  | .cpx _ => .sequencer
  | .wmrd _ _ _ _ => .sequencer
  | .rngaw _ _ => .sequencer
  | .rngrel _ => .sequencer
  | .rnginit _ _ _ => .sequencer
  | .cpq _ => .sequencer
  | .mxcfg _ _ _ => .sequencer
  | .mxldw _ _ => .sequencer
  | .mxldwScaled _ _ _ => .sequencer
  | .mxsta _ _ _ _ => .sequencer
  | .mxanc _ => .sequencer
  | .mxmrk _ _ => .sequencer
  | .vadd _ _ _ _ _ _ => .sequencer
  | .vsub _ _ _ _ _ _ => .sequencer
  | .vmul _ _ _ _ _ _ => .sequencer
  | .vfma _ _ _ _ _ _ => .sequencer
  | .vmin _ _ _ _ _ _ => .sequencer
  | .vmax _ _ _ _ _ _ => .sequencer
  | .vabs _ _ _ _ _ => .sequencer
  | .vneg _ _ _ _ _ => .sequencer
  | .vand _ _ _ _ _ _ => .sequencer
  | .vor _ _ _ _ _ _ => .sequencer
  | .vxor _ _ _ _ _ _ => .sequencer
  | .vandn _ _ _ _ _ _ => .sequencer
  | .vshl _ _ _ _ _ _ => .sequencer
  | .vshr _ _ _ _ _ _ => .sequencer
  | .vsra _ _ _ _ _ _ => .sequencer
  | .vaddw _ _ _ _ _ _ => .sequencer
  | .vsubw _ _ _ _ _ _ => .sequencer
  | .vmulw _ _ _ _ _ _ => .sequencer
  | .vdotw _ _ _ _ _ _ => .sequencer
  | .vavg _ _ _ _ _ _ => .sequencer
  | .vsadd _ _ _ _ _ _ => .sequencer
  | .vssub _ _ _ _ _ _ => .sequencer
  | .vmulh _ _ _ _ _ _ => .sequencer
  | .vclamp _ _ _ _ _ _ => .sequencer
  | .vaddScalar _ _ _ _ _ _ => .sequencer
  | .vsubScalar _ _ _ _ _ _ => .sequencer
  | .vmulScalar _ _ _ _ _ _ => .sequencer
  | .vfmaScalar _ _ _ _ _ _ => .sequencer
  | .vminScalar _ _ _ _ _ _ => .sequencer
  | .vmaxScalar _ _ _ _ _ _ => .sequencer
  | .vandScalar _ _ _ _ _ _ => .sequencer
  | .vorScalar _ _ _ _ _ _ => .sequencer
  | .vxorScalar _ _ _ _ _ _ => .sequencer
  | .vandnScalar _ _ _ _ _ _ => .sequencer
  | .vshlScalar _ _ _ _ _ _ => .sequencer
  | .vshrScalar _ _ _ _ _ _ => .sequencer
  | .vsraScalar _ _ _ _ _ _ => .sequencer
  | .vaddwScalar _ _ _ _ _ _ => .sequencer
  | .vsubwScalar _ _ _ _ _ _ => .sequencer
  | .vmulwScalar _ _ _ _ _ _ => .sequencer
  | .vdotwScalar _ _ _ _ _ _ => .sequencer
  | .vavgScalar _ _ _ _ _ _ => .sequencer
  | .vsaddScalar _ _ _ _ _ _ => .sequencer
  | .vssubScalar _ _ _ _ _ _ => .sequencer
  | .vmulhScalar _ _ _ _ _ _ => .sequencer
  | .vclampScalar _ _ _ _ _ _ => .sequencer
  | .vcmpeq _ _ _ _ _ => .sequencer
  | .vcmpne _ _ _ _ _ => .sequencer
  | .vcmplt _ _ _ _ _ => .sequencer
  | .vcmple _ _ _ _ _ => .sequencer
  | .vcmpltn _ _ _ _ _ => .sequencer
  | .vcmplen _ _ _ _ _ => .sequencer
  | .vcmpeqScalar _ _ _ _ _ => .sequencer
  | .vcmpneScalar _ _ _ _ _ => .sequencer
  | .vcmpltScalar _ _ _ _ _ => .sequencer
  | .vcmpleScalar _ _ _ _ _ => .sequencer
  | .vcmpltnScalar _ _ _ _ _ => .sequencer
  | .vcmplenScalar _ _ _ _ _ => .sequencer
  | .vsel _ _ _ _ _ => .sequencer
  | .vmand _ _ _ _ => .sequencer
  | .vmor _ _ _ _ => .sequencer
  | .vmxor _ _ _ _ => .sequencer
  | .vmnot _ _ _ => .sequencer
  | .vmpop _ _ _ => .sequencer
  | .vmfirst _ _ _ => .sequencer
  | .vperm _ _ _ _ _ _ => .sequencer
  | .vrot _ _ _ _ _ _ => .sequencer
  | .vslideup _ _ _ _ _ _ => .sequencer
  | .vslidedn _ _ _ _ _ _ => .sequencer
  | .vzip _ _ _ _ _ _ => .sequencer
  | .vunzip _ _ _ _ _ => .sequencer
  | .vbcast _ _ _ _ _ => .sequencer
  | .vins _ _ _ _ _ _ => .sequencer
  | .vext _ _ _ _ => .sequencer
  | .vcompress _ _ _ _ _ => .sequencer
  | .viota _ _ _ _ _ => .sequencer
  | .vmovv _ _ _ _ _ => .sequencer
  | .vld _ _ _ _ _ _ => .sequencer
  | .vst _ _ _ _ _ => .sequencer
  | .vlds _ _ _ _ _ _ => .sequencer
  | .vsts _ _ _ _ _ => .sequencer
  | .vldg _ _ _ _ _ _ => .sequencer
  | .vstg _ _ _ _ _ => .sequencer
  | .vcvt _ _ _ _ _ _ => .sequencer
  | .vqnt _ _ _ _ => .sequencer
  | .vdqnt _ _ _ _ => .sequencer
  | .vround _ _ _ _ _ => .sequencer
  | .vnarrow _ _ _ _ _ _ => .sequencer
  | .vsett _ _ _ => .sequencer
  | .vexp2 _ _ _ _ _ => .sequencer
  | .vlog2 _ _ _ _ _ => .sequencer
  | .vexp _ _ _ _ _ => .sequencer
  | .vlog _ _ _ _ _ => .sequencer
  | .vrcp _ _ _ _ _ => .sequencer
  | .vrsq _ _ _ _ _ => .sequencer
  | .vsqrt _ _ _ _ _ => .sequencer
  | .vtanh _ _ _ _ _ => .sequencer
  | .vsigm _ _ _ _ _ => .sequencer
  | .vsin _ _ _ _ _ => .sequencer
  | .vcos _ _ _ _ _ => .sequencer
  | .vdiv _ _ _ _ _ _ => .sequencer
  | .vredsum _ _ _ _ => .sequencer
  | .vredmax _ _ _ _ => .sequencer
  | .vredmin _ _ _ _ => .sequencer
  | .vscan _ _ _ _ => .sequencer
  | .vexpmax _ _ _ => .sequencer
  | .vacc _ _ _ _ => .sequencer
  | .vacccvt _ _ _ _ => .sequencer
  | .vrng _ _ _ _ => .sequencer
  | .spawn _ _ _ => .sequencer
  | .spawng _ _ _ _ => .sequencer
  | .yield _ => .sequencer
  | .role _ => .sequencer
  | .csrr _ _ => .sequencer
  | .csrw _ _ => .sequencer
  | .csrs _ _ => .sequencer
  | .csrc _ _ => .sequencer
  | .trap _ => .sequencer
  | .bkpt _ => .sequencer
  | .launch _ => .sequencer
  | .add _ _ _ _ => .sequencer
  | .sub _ _ _ _ => .sequencer
  | .and _ _ _ _ => .sequencer
  | .or _ _ _ _ => .sequencer
  | .xor _ _ _ _ => .sequencer
  | .andn _ _ _ _ => .sequencer
  | .orn _ _ _ _ => .sequencer
  | .sll _ _ _ _ => .sequencer
  | .srl _ _ _ _ => .sequencer
  | .sra _ _ _ _ => .sequencer
  | .rol _ _ _ _ => .sequencer
  | .ror _ _ _ _ => .sequencer
  | .mul _ _ _ _ => .sequencer
  | .min _ _ _ _ => .sequencer
  | .max _ _ _ _ => .sequencer
  | .lix _ => .sequencer
  | .mxswp => .sequencer
  | .mxgo => .sequencer
  | .mxgog => .sequencer
  | .mxclr => .sequencer
  | .exit => .sequencer
  | .eret => .sequencer
  | .nop => .sequencer
  | .rfetch _ _ => .flambeol
  | .flambeolBfx _ _ _ => .flambeol
  | .swait _ _ _ => .flambeol
  | .disp _ _ _ => .flambeol
  | .nopPacket _ => .noWord
  | .launchPacket _ => .noWord
  | .waitPacket _ => .noWord
  | .signalPacket _ => .noWord
  | .copyPacket _ => .noWord
  | .detlevel _ => .noWord
  | .cadence _ => .noWord
  | .barrier _ => .noWord
  | .doorbell _ _ => .noWord
  | .pendingMapScan => .noWord
  | .create => .noWord
  | .destroy => .noWord
  | .qreset => .noWord
  | .preempt => .noWord
  | .resume => .noWord
  | .pkgreset => .noWord
  | .update => .noWord
  | .slotwrite => .noWord
  | .slotverify => .noWord
  | .setslot => .noWord
  | .pcap => .noWord
  | .setparam => .noWord
  | .snapshot => .noWord
  | .devread => .noWord
  | .devwrite => .noWord
  | .clearmap => .noWord
  | .group => .noWord
  | .getMeasurements => .noWord
  | .challenge _ => .noWord
  | .deviceRegisterWrite _ _ _ => .noWord
  | .hbeat _ => .noWord
  | .heartbeatTimeout => .noWord
  | .boot => .noWord
  | .systemEnumeration _ _ _ => .noWord
  | .reducedServiceEnd => .noWord
  | .flit _ => .noWord
  | .routeCostFlit _ _ => .noWord
  | .launchAdmission _ => .noWord
  | .phaseAdmission _ => .noWord
  | .spillRefill _ => .noWord
  | .launchEnd _ => .noWord
  | .semUpdateAtHome _ => .noWord
  | .semWaitComplete _ _ => .noWord
  | .gangArrivalAtHome _ => .noWord
  | .barComplete _ _ => .noWord
  | .atomicAtHome _ _ => .noWord
  | .reductionMerge _ => .noWord
  | .homeFence _ _ => .noWord
  | .queueResetComplete _ => .noWord
  | .parkWake _ _ => .noWord
  | .parkTimeout _ _ => .noWord
  | .shootdown _ _ _ => .noWord
  | .shootdownAck _ => .noWord
  | .shootWaitExpiry _ => .noWord
  | .vectorEntryStart _ => .noWord
  | .vectorEntryEnd _ => .noWord
  | .copyEntryStart _ => .noWord
  | .cptRelease _ => .noWord
  | .copyRowLanded _ _ => .noWord
  | .copyEntryEnd _ _ => .noWord
  | .matrixEntryStart _ => .noWord
  | .planeLoadDone _ => .noWord
  | .matrixPass _ => .noWord
  | .matrixCommit _ => .noWord
  | .engineTrapDelivery _ _ => .noWord
  | .watchdog _ _ => .noWord
  | .parityAlarm _ _ => .noWord
  | .protocolAlarm _ _ => .noWord
  | .testAlarm _ => .noWord
  | .drizzleReset _ => .noWord
  | .coreReset _ => .noWord
  | .dieReset _ => .noWord
  | .packageReset => .noWord
  | .drainTimeout _ => .noWord
  | .saveComplete _ => .noWord
  | .saveTimeout _ => .noWord
  | .stepBoundary => .noWord
  | .scycHold _ => .noWord
  | .replay _ => .noWord
  | .droopStretch _ => .noWord
  | .drizzleWindow _ => .noWord
  | .cadenceTick _ => .noWord
  | .levelSwitch _ => .noWord
  | .laneError _ _ => .noWord
  | .laneRotation _ => .noWord
  | .l2EccError _ _ _ _ _ => .noWord
  | .poolEccError _ _ _ => .noWord
  | .inFieldTest _ => .noWord
  | .clusterTestResult _ _ => .noWord
  | .snapshotLatch => .noWord
  | .monSample _ _ _ _ _ => .noWord
  | .illegal _ => .noWord
  | .swaitTimeout _ => .noWord
  | .linkRetrain _ => .noWord
  | .clusterEmptyTimeout _ => .noWord

/-- An I-format or M-format word, which takes LIX prefixes (R130, R137). -/
def Instr.takesPrefix : Instr → Bool
  | .mulh _ _ _ _ => false
  | .mulhn _ _ _ _ => false
  | .div _ _ _ _ => false
  | .divn _ _ _ _ => false
  | .rem _ _ _ _ => false
  | .remn _ _ _ _ => false
  | .minn _ _ _ _ => false
  | .maxn _ _ _ _ => false
  | .slt _ _ _ _ => false
  | .sltn _ _ _ _ => false
  | .seq _ _ _ _ => false
  | .sne _ _ _ _ => false
  | .clz _ _ _ => false
  | .ctz _ _ _ => false
  | .popc _ _ _ => false
  | .brev _ _ _ => false
  | .bfx _ _ _ _ _ => false
  | .bfi _ _ _ _ => false
  | .sext _ _ _ => false
  | .zext _ _ _ => false
  | .sel _ _ _ _ _ => false
  | .madd _ _ _ _ => false
  | .cmpp _ _ _ _ _ => false
  | .plog _ _ _ _ => false
  | .movp _ _ => false
  | .pmov _ _ _ => false
  | .addi _ _ _ => true
  | .andi _ _ _ => true
  | .ori _ _ _ => true
  | .xori _ _ _ => true
  | .slli _ _ _ => true
  | .srli _ _ _ => true
  | .srai _ _ _ => true
  | .slti _ _ _ => true
  | .sltni _ _ _ => true
  | .seqi _ _ _ => true
  | .muli _ _ _ => true
  | .li _ _ => true
  | .addpc _ _ => true
  | .bfxi _ _ _ _ => true
  | .bfii _ _ _ _ => true
  | .fadd _ _ _ _ _ => false
  | .fsub _ _ _ _ _ => false
  | .fmul _ _ _ _ _ => false
  | .ffma _ _ _ _ _ => false
  | .fdiv _ _ _ _ _ => false
  | .fsqrt _ _ _ _ => false
  | .fmin _ _ _ _ _ => false
  | .fmax _ _ _ _ _ => false
  | .fabs _ _ _ _ => false
  | .fneg _ _ _ _ => false
  | .fcmpp _ _ _ _ _ => false
  | .fcvti _ _ _ _ _ => false
  | .icvtf _ _ _ _ _ => false
  | .fcvt _ _ _ _ _ => false
  | .fclass _ _ _ _ => false
  | .ldS8 _ _ _ => true
  | .ldN8 _ _ _ => true
  | .ldS16 _ _ _ => true
  | .ldN16 _ _ _ => true
  | .ldS32 _ _ _ => true
  | .ldN32 _ _ _ => true
  | .ld64 _ _ _ => true
  | .st8 _ _ _ => true
  | .st16 _ _ _ => true
  | .st32 _ _ _ => true
  | .st64 _ _ _ => true
  | .ldx _ _ _ _ _ _ => false
  | .stx _ _ _ _ _ => false
  | .pfh _ _ _ => true
  | .cbo _ _ _ => true
  | .tlook _ _ _ => false
  | .tins _ _ => false
  | .tdel _ => false
  | .beq _ _ _ => false
  | .bne _ _ _ => false
  | .blt _ _ _ => false
  | .bge _ _ _ => false
  | .bltn _ _ _ => false
  | .bgen _ _ _ => false
  | .bpt _ _ => false
  | .bpf _ _ => false
  | .loop _ _ => false
  | .jalr _ _ _ => false
  | .jal _ _ => false
  | .semSig _ _ _ => false
  | .semWait _ _ _ _ => false
  | .semAdd _ _ _ => false
  | .semSet _ _ => false
  | .semArm _ _ _ => false
  | .phase _ _ => false
  | .bar _ _ => false
  | .gangJoin _ => false
  | .gangLeave _ => false
  | .amo _ _ _ _ _ => false
  | .amocas _ _ _ _ => false
  | .amof _ _ _ _ => false
  | .toksig _ _ => false
  | .tokwait _ _ => false
  | .waite _ _ => false
  | .waitwm _ _ _ => false
  | .fenceE _ => false
  | .semRead _ _ => false
  | .cp _ => false
  | .cpt _ => false
  | .cpr _ => false
  | .cpg _ => false
  | .cps _ => false
  | .cpf _ => false
  | .cpred _ _ => false
  | .cppf _ _ _ => false
  | .cpx _ => false
  | .wmrd _ _ _ _ => false
  | .rngaw _ _ => false
  | .rngrel _ => false
  | .rnginit _ _ _ => false
  | .cpq _ => false
  | .mxcfg _ _ _ => false
  | .mxldw _ _ => false
  | .mxldwScaled _ _ _ => false
  | .mxsta _ _ _ _ => false
  | .mxanc _ => false
  | .mxmrk _ _ => false
  | .vadd _ _ _ _ _ _ => false
  | .vsub _ _ _ _ _ _ => false
  | .vmul _ _ _ _ _ _ => false
  | .vfma _ _ _ _ _ _ => false
  | .vmin _ _ _ _ _ _ => false
  | .vmax _ _ _ _ _ _ => false
  | .vabs _ _ _ _ _ => false
  | .vneg _ _ _ _ _ => false
  | .vand _ _ _ _ _ _ => false
  | .vor _ _ _ _ _ _ => false
  | .vxor _ _ _ _ _ _ => false
  | .vandn _ _ _ _ _ _ => false
  | .vshl _ _ _ _ _ _ => false
  | .vshr _ _ _ _ _ _ => false
  | .vsra _ _ _ _ _ _ => false
  | .vaddw _ _ _ _ _ _ => false
  | .vsubw _ _ _ _ _ _ => false
  | .vmulw _ _ _ _ _ _ => false
  | .vdotw _ _ _ _ _ _ => false
  | .vavg _ _ _ _ _ _ => false
  | .vsadd _ _ _ _ _ _ => false
  | .vssub _ _ _ _ _ _ => false
  | .vmulh _ _ _ _ _ _ => false
  | .vclamp _ _ _ _ _ _ => false
  | .vaddScalar _ _ _ _ _ _ => false
  | .vsubScalar _ _ _ _ _ _ => false
  | .vmulScalar _ _ _ _ _ _ => false
  | .vfmaScalar _ _ _ _ _ _ => false
  | .vminScalar _ _ _ _ _ _ => false
  | .vmaxScalar _ _ _ _ _ _ => false
  | .vandScalar _ _ _ _ _ _ => false
  | .vorScalar _ _ _ _ _ _ => false
  | .vxorScalar _ _ _ _ _ _ => false
  | .vandnScalar _ _ _ _ _ _ => false
  | .vshlScalar _ _ _ _ _ _ => false
  | .vshrScalar _ _ _ _ _ _ => false
  | .vsraScalar _ _ _ _ _ _ => false
  | .vaddwScalar _ _ _ _ _ _ => false
  | .vsubwScalar _ _ _ _ _ _ => false
  | .vmulwScalar _ _ _ _ _ _ => false
  | .vdotwScalar _ _ _ _ _ _ => false
  | .vavgScalar _ _ _ _ _ _ => false
  | .vsaddScalar _ _ _ _ _ _ => false
  | .vssubScalar _ _ _ _ _ _ => false
  | .vmulhScalar _ _ _ _ _ _ => false
  | .vclampScalar _ _ _ _ _ _ => false
  | .vcmpeq _ _ _ _ _ => false
  | .vcmpne _ _ _ _ _ => false
  | .vcmplt _ _ _ _ _ => false
  | .vcmple _ _ _ _ _ => false
  | .vcmpltn _ _ _ _ _ => false
  | .vcmplen _ _ _ _ _ => false
  | .vcmpeqScalar _ _ _ _ _ => false
  | .vcmpneScalar _ _ _ _ _ => false
  | .vcmpltScalar _ _ _ _ _ => false
  | .vcmpleScalar _ _ _ _ _ => false
  | .vcmpltnScalar _ _ _ _ _ => false
  | .vcmplenScalar _ _ _ _ _ => false
  | .vsel _ _ _ _ _ => false
  | .vmand _ _ _ _ => false
  | .vmor _ _ _ _ => false
  | .vmxor _ _ _ _ => false
  | .vmnot _ _ _ => false
  | .vmpop _ _ _ => false
  | .vmfirst _ _ _ => false
  | .vperm _ _ _ _ _ _ => false
  | .vrot _ _ _ _ _ _ => false
  | .vslideup _ _ _ _ _ _ => false
  | .vslidedn _ _ _ _ _ _ => false
  | .vzip _ _ _ _ _ _ => false
  | .vunzip _ _ _ _ _ => false
  | .vbcast _ _ _ _ _ => false
  | .vins _ _ _ _ _ _ => false
  | .vext _ _ _ _ => false
  | .vcompress _ _ _ _ _ => false
  | .viota _ _ _ _ _ => false
  | .vmovv _ _ _ _ _ => false
  | .vld _ _ _ _ _ _ => false
  | .vst _ _ _ _ _ => false
  | .vlds _ _ _ _ _ _ => false
  | .vsts _ _ _ _ _ => false
  | .vldg _ _ _ _ _ _ => false
  | .vstg _ _ _ _ _ => false
  | .vcvt _ _ _ _ _ _ => false
  | .vqnt _ _ _ _ => false
  | .vdqnt _ _ _ _ => false
  | .vround _ _ _ _ _ => false
  | .vnarrow _ _ _ _ _ _ => false
  | .vsett _ _ _ => false
  | .vexp2 _ _ _ _ _ => false
  | .vlog2 _ _ _ _ _ => false
  | .vexp _ _ _ _ _ => false
  | .vlog _ _ _ _ _ => false
  | .vrcp _ _ _ _ _ => false
  | .vrsq _ _ _ _ _ => false
  | .vsqrt _ _ _ _ _ => false
  | .vtanh _ _ _ _ _ => false
  | .vsigm _ _ _ _ _ => false
  | .vsin _ _ _ _ _ => false
  | .vcos _ _ _ _ _ => false
  | .vdiv _ _ _ _ _ _ => false
  | .vredsum _ _ _ _ => false
  | .vredmax _ _ _ _ => false
  | .vredmin _ _ _ _ => false
  | .vscan _ _ _ _ => false
  | .vexpmax _ _ _ => false
  | .vacc _ _ _ _ => false
  | .vacccvt _ _ _ _ => false
  | .vrng _ _ _ _ => false
  | .spawn _ _ _ => false
  | .spawng _ _ _ _ => false
  | .yield _ => false
  | .role _ => false
  | .csrr _ _ => false
  | .csrw _ _ => false
  | .csrs _ _ => false
  | .csrc _ _ => false
  | .trap _ => false
  | .bkpt _ => false
  | .launch _ => false
  | .add _ _ _ _ => false
  | .sub _ _ _ _ => false
  | .and _ _ _ _ => false
  | .or _ _ _ _ => false
  | .xor _ _ _ _ => false
  | .andn _ _ _ _ => false
  | .orn _ _ _ _ => false
  | .sll _ _ _ _ => false
  | .srl _ _ _ _ => false
  | .sra _ _ _ _ => false
  | .rol _ _ _ _ => false
  | .ror _ _ _ _ => false
  | .mul _ _ _ _ => false
  | .min _ _ _ _ => false
  | .max _ _ _ _ => false
  | .lix _ => false
  | .mxswp => false
  | .mxgo => false
  | .mxgog => false
  | .mxclr => false
  | .exit => false
  | .eret => false
  | .nop => false
  | .rfetch _ _ => false
  | .flambeolBfx _ _ _ => false
  | .swait _ _ _ => false
  | .disp _ _ _ => false
  | .nopPacket _ => false
  | .launchPacket _ => false
  | .waitPacket _ => false
  | .signalPacket _ => false
  | .copyPacket _ => false
  | .detlevel _ => false
  | .cadence _ => false
  | .barrier _ => false
  | .doorbell _ _ => false
  | .pendingMapScan => false
  | .create => false
  | .destroy => false
  | .qreset => false
  | .preempt => false
  | .resume => false
  | .pkgreset => false
  | .update => false
  | .slotwrite => false
  | .slotverify => false
  | .setslot => false
  | .pcap => false
  | .setparam => false
  | .snapshot => false
  | .devread => false
  | .devwrite => false
  | .clearmap => false
  | .group => false
  | .getMeasurements => false
  | .challenge _ => false
  | .deviceRegisterWrite _ _ _ => false
  | .hbeat _ => false
  | .heartbeatTimeout => false
  | .boot => false
  | .systemEnumeration _ _ _ => false
  | .reducedServiceEnd => false
  | .flit _ => false
  | .routeCostFlit _ _ => false
  | .launchAdmission _ => false
  | .phaseAdmission _ => false
  | .spillRefill _ => false
  | .launchEnd _ => false
  | .semUpdateAtHome _ => false
  | .semWaitComplete _ _ => false
  | .gangArrivalAtHome _ => false
  | .barComplete _ _ => false
  | .atomicAtHome _ _ => false
  | .reductionMerge _ => false
  | .homeFence _ _ => false
  | .queueResetComplete _ => false
  | .parkWake _ _ => false
  | .parkTimeout _ _ => false
  | .shootdown _ _ _ => false
  | .shootdownAck _ => false
  | .shootWaitExpiry _ => false
  | .vectorEntryStart _ => false
  | .vectorEntryEnd _ => false
  | .copyEntryStart _ => false
  | .cptRelease _ => false
  | .copyRowLanded _ _ => false
  | .copyEntryEnd _ _ => false
  | .matrixEntryStart _ => false
  | .planeLoadDone _ => false
  | .matrixPass _ => false
  | .matrixCommit _ => false
  | .engineTrapDelivery _ _ => false
  | .watchdog _ _ => false
  | .parityAlarm _ _ => false
  | .protocolAlarm _ _ => false
  | .testAlarm _ => false
  | .drizzleReset _ => false
  | .coreReset _ => false
  | .dieReset _ => false
  | .packageReset => false
  | .drainTimeout _ => false
  | .saveComplete _ => false
  | .saveTimeout _ => false
  | .stepBoundary => false
  | .scycHold _ => false
  | .replay _ => false
  | .droopStretch _ => false
  | .drizzleWindow _ => false
  | .cadenceTick _ => false
  | .levelSwitch _ => false
  | .laneError _ _ => false
  | .laneRotation _ => false
  | .l2EccError _ _ _ _ _ => false
  | .poolEccError _ _ _ => false
  | .inFieldTest _ => false
  | .clusterTestResult _ _ => false
  | .snapshotLatch => false
  | .monSample _ _ _ _ _ => false
  | .illegal _ => false
  | .swaitTimeout _ => false
  | .linkRetrain _ => false
  | .clusterEmptyTimeout _ => false

/-- The four bytes of a word as memory holds them: little-endian (R7, R130). -/
def bytesOfWord (w : Nat) : List Byte := (List.range 4).map fun k => BitVec.ofNat 8 (w / 2 ^ (8 * k))

/-- A little-endian value from its bytes (R7). -/
def natOfBytes : List Byte → Nat
  | [] => 0
  | b :: bs => b.toNat + 256 * natOfBytes bs

/-- The instruction that a word of the table names: a sequencer word, or else a custom-0 word of a queue core
(no word is both: every custom-0 word has bits [3:0] = 0xB, and no class 0x0 op 0x00 to 0x07 accepts that fn). -/
noncomputable def decodeTableWord (nbits w : Nat) : Option Instr :=
  if nbits ≠ 32 then none else
  let v := BitVec.ofNat 32 (natOfBytes (bytesOfWord w))
  match decode v with
  | .ok i => some i
  | .error _ =>
    match decodeFlambeol v with
    | .ok i => some i
    | .error _ => none

end Sys2Proof
end

