-- ==== Sys2Proof/Config.lean ====
section
/-! DEFINITION. What one H9 fixes once and for all, and the free values: answers the spec leaves open, as constants
without a body, so that nothing proved about the machine can lean on a particular answer. -/

namespace Sys2Proof.Config

/-- Compute dies (R15). -/
def dies : Nat := 8
/-- Clusters of a die (R15). -/
def clustersPerDie : Nat := 24
/-- Cores of the device (R20). -/
def cores : Nat := 768
/-- Cores of a die (R15). -/
def coresPerDie : Nat := 96
/-- Bytes of a core's pool (R17). -/
def poolBytes : Nat := 1048576
/-- Entries of a core's TLB (R82). -/
def tlbEntries : Nat := 1024
/-- Granules of a slot's store buffer (R193). -/
def storeBufferGranules : Nat := 256
/-- Entries of the vector queue (R344). -/
def vecEntries : Nat := 256
/-- Records of the copy queue (R344). -/
def copyRecords : Nat := 64
/-- Records of the matrix queue (R344). -/
def mxRecords : Nat := 16
/-- Entries of the time-sorted buffer (R338). -/
def heldEntries : Nat := 32
/-- Semaphores of a die (R212). -/
def semaphores : Nat := 16384
/-- Arm records of a die (R212). -/
def armRecords : Nat := 4096
/-- Entries of a die's pending pool, and the bound for new children (R48). -/
def pendingPool : Nat := 1024
/-- The bound below which a new child may enter the pending pool (R48). -/
def pendingNew : Nat := 960
/-- Launches a die scheduler's DISP queue takes before it answers full (R423 gives no size). DESIGN CHOICE,
assumption 31. -/
def dispQueue : Nat := 64
/-- The offset of STAGE in a queue core's local memory (R423 gives none). DESIGN CHOICE, assumption 30. -/
def stageBase : Nat := 0x3C000

/-- FREE VALUE: the n-th value that the spec leaves open (assumption 2). -/
opaque freeValue : Nat → BitVec 64
/-- FREE VALUE: word k of the old value of a latch that no destination names (assumption 2), in a D1 or D2 task: one value
for one entry of one task of a launch, whatever resets and restarts it (R379); the arguments are the launch's PROG and ARGS,
the task number, the entry's ordinal and k. -/
opaque oldWord : Nat → Nat → Nat → Nat → Nat → BitVec 64
/-- FREE VALUE: a value that the spec leaves open in a trap of a D1 or D2 task (assumption 2): the same one whatever resets
and restarts the task (R379); the arguments are the launch's PROG and ARGS, the task number, 0 for the task's own traps,
1 for those of outside events and 2, 3 and 4 for those of its vector, copy and matrix entries, and the ordinal. -/
opaque openWord : Nat → Nat → Nat → Nat → Nat → BitVec 64
/-- FREE VALUE: whether the end of a D2 superstep falls within T2, as Flambeol sees it when T1 has passed (R376, assumption
65); the argument counts the answers. -/
opaque superstepFits : Nat → Bool
/-- FREE VALUE: which of the FP32 results that R121 allows a special function returns; arguments are the
function's op and the operand bits, so that one input always gives one result (assumption 4). -/
opaque ulpChoice : Nat → Nat → Nat
/-- FREE VALUE: the digest R425 records of bytes or of an image (assumption 29). -/
opaque digest : Nat → BitVec 384
/-- FREE VALUE: whether an image read from an address range verifies by R424, and its VERSION; the arguments
stand for the image's bytes (assumption 28). -/
opaque imageVerifies : List (BitVec 8) → Bool
/-- FREE VALUE: the VERSION in an image's header; the header's layout is not given (assumption 28). -/
opaque imageVersion : List (BitVec 8) → BitVec 16
/-- FREE VALUE: the signature of a measurement log under the fused device key for a nonce (R425, assumption 29). -/
opaque signature : BitVec 384 → BitVec 256 → BitVec 768
/-- FREE VALUE: whether a device register address lies in the fuse block (R420), whose place no rule gives (assumption
29). -/
opaque inFuses : Nat → Bool
/-- FREE VALUE: where in the near memory of die 0 the handover structure lies, in units of 4 KiB (R427 gives no address;
assumption 32). -/
opaque handoverPage : Nat
/-- FREE VALUE: the local memory of a queue core as an image starts on it (R426), whose layout no rule gives (assumption 28). -/
opaque imageProgram : List (BitVec 8) → List (Nat × BitVec 8)
/-- FREE VALUE: the values of a cluster's sensors at a sample (R407, R430): process monitor, supply voltage, temperature and the
device's power in W; the arguments are the cluster and the period of 2^16 reference cycles (assumption 76). -/
opaque sensors : Nat → Nat → BitVec 16 × BitVec 16 × BitVec 16 × Nat
/-- FREE VALUE: whether a cluster passes an in-field test (R404) that its running ends by itself; the arguments are the cluster
and the reference cycle at which the test started (assumption 99). -/
opaque testPasses : Nat → Nat → Bool
/-- The VERSION of the handover structure (R427): that of the spec's worked example (DEDUCED, assumption 32). -/
def handoverVersion : Nat := 3
/-- FREE VALUE: the fused minimum VERSION (R424, assumption 28). -/
opaque fusedMinVersion : BitVec 16

end Sys2Proof.Config
end

