-- ==== Sys2Proof/Machine/State.lean ====
section
/-! DEFINITION. The state of one H9 package: plain data for everything the spec gives the machine, its value after
package reset, and the reasons a step can stop. Numbered parts (cores, dies, queues, launches) are tables: a number
that a table does not list holds the part's reset value. -/

namespace Sys2Proof.Machine

/-! ## Tables and memory -/

/-- What a table holds at a number, or the given value where it lists none. -/
def tget {α : Type} (d : α) : Table α → Nat → α
  | [], _ => d
  | (k, v) :: t, n => if k = n then v else tget d t n

/-- A table with the value at one number replaced. -/
def tset {α : Type} : Table α → Nat → α → Table α
  | [], n, a => [(n, a)]
  | (k, v) :: t, n, a =>
    if k = n then (n, a) :: t
    else if n < k then (n, a) :: (k, v) :: t
    else (k, v) :: tset t n a

/-- A table without a number. -/
def tdel {α : Type} : Table α → Nat → Table α
  | [], _ => []
  | (k, v) :: t, n => if k = n then tdel t n else (k, v) :: tdel t n

/-- Whether a table lists a number. -/
def tmem {α : Type} : Table α → Nat → Bool
  | [], _ => false
  | (k, _) :: t, n => k == n || tmem t n

/-- Memory by location: physical addresses below 2^52 (R73), then the pools (R60), the pool of core g from
2^52 + g * 2^20 on. A location that is not listed reads as zero (assumption 1). -/
abbrev Memory := List Host.Cell

/-- The byte of an unlisted location: zero for the pools (R63, R359), and DESIGN CHOICE (assumption 1) for near,
far and host memory, whose contents after reset the spec leaves undefined (R362). -/
def Memory.blank : Byte := 0

/-- The byte at a location. -/
def Memory.get : Memory → Nat → Byte
  | [], _ => Memory.blank
  | (k, b) :: t, n => if k = n then b else Memory.get t n

/-- Memory with one byte written; the blank byte is not listed. -/
def Memory.set : Memory → Nat → Byte → Memory
  | [], n, b => if b = Memory.blank then [] else [(n, b)]
  | (k, v) :: t, n, b =>
    if k = n then (if b = Memory.blank then t else (n, b) :: t)
    else if n < k then (if b = Memory.blank then (k, v) :: t else (n, b) :: (k, v) :: t)
    else (k, v) :: Memory.set t n b

/-- Every listed location is at least a bound, locations rise strictly, and no blank byte is listed. -/
def Memory.wfFrom : Nat → Memory → Bool
  | _, [] => true
  | lo, (k, b) :: t => decide (lo ≤ k) && !(b == Memory.blank) && Memory.wfFrom (k + 1) t

/-- The canonical form of memory. -/
def Memory.wf (m : Memory) : Bool := Memory.wfFrom 0 m

/-! ## The reasons to stop -/

/-- A fault stops the machine where the spec gives no next state. -/
inductive Fault
  /-- Raised by the step of a Flambeol queue core whose program counter lies outside its 256 KiB local memory
  (R422 gives no such fetch a meaning). Safe: the hardware may go on. -/
  | flambeolFetch
  deriving DecidableEq, Repr

/-- A refusal names an operation to which the model gives no next state. -/
inductive Refusal
  /-- Raised by an arm of exec that has no meaning yet. Safe. -/
  | notModelled (mnemonic : String)
  /-- Raised by the step of a Flambeol queue core at a word outside the custom-0 opcode: the base RV64IMAC words
  are another architecture's, no row of the opcode table is one, and the spec does not describe them (R422).
  Safe. -/
  | baseRiscV
  deriving DecidableEq, Repr

/-! ## Slots -/

/-- The trap causes (R369). -/
inductive Cause
  | illegal | staleLatch | misaligned | lease | poolRange | wmFrozen | copySpec | mxSpec | fp | bkpt | swtrap
  | gangBroken | timeLate | stepOverrun | schedBreak | uncorrectable | parkTimeout | priv | prefixed | determinism
  | poolPin
  deriving DecidableEq, Repr

/-- The code of a cause (R369). -/
def Cause.code : Cause → BitVec 8
  | .illegal => 0x01 | .staleLatch => 0x02 | .misaligned => 0x03 | .lease => 0x04 | .poolRange => 0x05
  | .wmFrozen => 0x06 | .copySpec => 0x07 | .mxSpec => 0x08 | .fp => 0x09 | .bkpt => 0x0A | .swtrap => 0x0B
  | .gangBroken => 0x0C | .timeLate => 0x0D | .stepOverrun => 0x0E | .schedBreak => 0x0F | .uncorrectable => 0x10
  | .parkTimeout => 0x11 | .priv => 0x12 | .prefixed => 0x13 | .determinism => 0x14 | .poolPin => 0x15

/-- The causes that are fatal (R369). -/
def Cause.fatal : Cause → Bool
  | .lease | .uncorrectable => true
  | _ => false

/-- A trap that waits for an instruction boundary (R367, R434). `stop` is the cluster cycle in which its entry stopped, by
which equal stops are told (R367), and `freeze` says that a copy raised it by freezing (R235, R326). -/
structure PendTrap where
  cause : Cause
  tval : W64
  word : W32
  qent : BitVec 8
  orig : BitVec 3
  stop : Nat := 0
  freeze : Bool := false
  deriving DecidableEq, Repr

/-- A parked access (R87): its address, where the invalid entry lies, whether a monitor is armed, the reference
cycle since which its limit runs, whether an engine's access has met it, so that it restarts at ERET (R89), and its
place in the order of parking. -/
structure Park where
  addr : W64
  entry : Nat
  monitored : Bool
  since : Nat
  expired : Bool
  order : Nat
  deriving DecidableEq, Repr

/-- What a task was started from, for a readmission (R56) and a restart (R359). -/
inductive Origin
  | direct (entry : BitVec 2)   -- admitted by the launch itself (R29)
  | child                       -- spawned (R233)
  | tcb (index : Nat)           -- released from the TCB table (R51)
  deriving DecidableEq, Repr

/-- An atomic on its way to the home of its location (R210, R223 to R225). -/
inductive AtomicKind
  | amo (op : AmoOp) (operand : W64)
  | cas (expected new : W64)
  | addF (addend : W32)
  deriving DecidableEq, Repr

/-- What a slot waits for at a home. -/
inductive Wait
  /-- Nothing: the slot may issue when it is otherwise ready. -/
  | run
  /-- A semaphore operation has been sent, or waits at the home, and its value goes to a register (R214, R218);
  `cond` for SEM.WAIT (R217). -/
  | sem (d : XReg) (cond : Bool)
  /-- An arm has been sent to a home on another device (R51, R219). -/
  | arm (d : XReg) (tcb : Nat) (name threshold : W64)
  /-- The home has answered with this value, which reaches the slot in a reference cycle (R217, R218, R231); `cond` for
  SEM.WAIT, whose completion is a refresh point. -/
  | semDone (d : XReg) (value : W64) (cond : Bool) (due : Nat)
  /-- A BAR has been sent or has arrived (R221). -/
  | bar (d : XReg) (gang : BitVec 6) (word : W32)
  /-- The generation of a BAR has closed with this status, which reaches the slot in a reference cycle (R55, R56, R231). -/
  | barDone (d : XReg) (gang : BitVec 6) (word : W32) (status : W64) (due : Nat)
  /-- GANG.JOIN or GANG.LEAVE has been sent (R222). -/
  | gang (join : Bool)
  /-- The home has performed a GANG.JOIN or GANG.LEAVE, and its answer reaches the slot in a reference cycle (R231). -/
  | gangDone (due : Nat)
  /-- An atomic has been sent (R223), and is performed in this reference cycle (R231). -/
  | atomic (d : XReg) (loc : Nat) (kind : AtomicKind) (refresh : Bool) (due : Nat)
  /-- An atomic of a device that does not bridge has gone to its bridging device, which answers with the old value (R211, R409). -/
  | hostAtomic (d : XReg) (refresh : Bool)
  /-- A task that joins a gang at admission has not been added yet (R55). -/
  | joining (gang : BitVec 6)
  /-- A restarted task, whose SEM.WAIT was waiting at another device, goes on when that device has answered the wait or its
  withdrawal (R244, R359). -/
  | withdrawn
  deriving DecidableEq, Repr

/-- A byte that an engine operation of the task has written and that is not published yet (R188, R208): its address,
its location, the queue (0 vector, 1 copy, 2 matrix) and the ordinal of the operation, whether the task has joined it
(R207), and whether no later store of the task covers the byte. -/
structure Hidden where
  addr : Nat
  loc : Nat
  queue : Nat
  ord : Nat
  joined : Bool
  top : Bool
  deriving DecidableEq, Repr

/-- What makes a slot stall: an access that a port, a watermark or a guard holds (R42, R175, R296), an operand that is not
there yet (R141), or a condition that the instruction waits for, a full queue included. -/
inductive StallKind | access | operand | condition
  deriving DecidableEq, Repr

/-- A task slot (R17, R29, R125, R129). `stall` says what the latest stall was for, `busyTill` is the reference cycle until
which its latest publication occupies it (R231), `lag` counts the reference cycles its cluster has stood still since its
wait began (R381), `opens` and `evOpens` count the open values that its task's own traps and those of outside events have
drawn, and `ckIssued` holds the counts of entries issued and of open values at its checkpoint (R379). `group` names the cluster-granular group of the task (R41), `dying` says that
its launch has been aborted while a prefix chain was begun (R433), `frozen` lists the copy entries whose freeze no WAITE
has reported, by ordinal and TVAL, the three counts of entries issued give each entry its ordinal, and `away` holds the
semaphore on another device that a SEM.WAIT waits for, with `cancelled` once its withdrawal has been sent (R244). -/
structure Slot where
  occ : Bool
  uid : Nat
  launch : Nat
  task : W32
  origin : Origin
  startPc : W64
  startArg : W64
  startRole : Role
  prio : BitVec 8
  role : Role
  entry : BitVec 2
  pc : W64
  x : Vector W64 32
  p : BitVec 8
  v : Vector VWord 48
  m : Vector MWord 8
  b : Vector VWord 8
  pushes : Nat
  tok : Vector (BitVec 16) 8
  ageLimit : W64
  gangctl : W64
  parklim : W64
  fpctl : W64
  accanch : W64
  vcfg : W64
  tvec : W64
  tcause : W64
  tpc : W64
  tval : W64
  tword : W64
  tstat : W64
  mxtab : Vector (BitVec 128) 16
  engTraps : List PendTrap
  evTraps : List PendTrap
  pfx : List (BitVec 28)
  pfxPc : W64
  wait : Wait
  park : Option Park
  stalled : Bool
  stall : StallKind
  busyTill : Nat
  lag : Nat
  opens : Nat
  evOpens : Nat
  ckIssued : List Nat
  age : Nat
  yield : Nat
  started : Bool
  exiting : Bool
  held : Bool
  group : Option Nat
  dying : Bool
  away : Option W64
  cancelled : Bool
  pend : Table Byte
  snap : Table (BitVec 512)
  hidden : List Hidden
  ckpt : Bool
  frozen : List (Nat × W64)
  issuedCopies : Nat
  issuedVecs : Nat
  issuedMxs : Nat
  late : Bool
  quiesced : Bool
  deriving DecidableEq, Repr

/-! ## Engines -/

/-- The state of a queue record (R345). -/
inductive RecState | queued | held | running | ended
  deriving DecidableEq, Repr

/-- How a copy entry finished (R321, R327). -/
inductive Finish | no | done | frozen | cancelled
  deriving DecidableEq, Repr

/-- A record of an engine queue (R345, R346, R347): the issuing word as an instruction, the captured values, and the
progress marks; the determinism level of the issuing launch, the ordinal of the entry among those the slot has issued
to the queue, and for a copy the bytes read of a source granule that the next part lands (R203), its start order, its landing position (`row`, `off`), the reduction elements merged (R330) and its mark
(`mrow`, `moff`); for a vector load the spans of window addresses it reads (R206). -/
structure QRec where
  instr : Instr
  idx : Nat
  seq : W32
  slot : Fin 4
  uid : Nat
  task : W32
  gen : BitVec 8
  st : RecState
  vcfg : BitVec 8
  rm : BitVec 3
  fz : BitVec 6
  anch : BitVec 16
  ops : List W64
  table : List (BitVec 128)
  started : Bool
  row : Nat
  off : Nat
  mrow : Nat
  moff : Nat
  rslot : Nat
  dst : W64
  fin : Finish
  late : Bool
  det : BitVec 2
  ord : Nat
  carry : List Byte
  order : Nat
  merged : Nat
  mark : BitVec 128
  guard : List (Nat × Nat)
  park : Option Park
  bad : Bool
  deriving DecidableEq, Repr

/-- One engine queue with its control words (R344). -/
structure EngQ where
  recs : List QRec
  head : Nat
  tail : Nat
  seq : W32
  deriving DecidableEq, Repr

/-- A watermark register (R321), with the task and the ordinal of the entry that took it last (R207). -/
structure Wm where
  lo : W64
  hi : W64
  wm : W64
  stat : W64
  owner : Nat × Nat
  deriving DecidableEq, Repr

/-- A ring (R336), with the slots at or past FILL whose CPR has finished, and those whose CPR has frozen. -/
structure Ring where
  base : W64
  slotb : BitVec 32
  nslot : BitVec 16
  alloc : Nat
  fill : Nat
  acq : Nat
  rel : Nat
  filled : List Nat
  frozen : List Nat
  deriving DecidableEq, Repr

/-- An ACC128 element (R113). -/
structure Acc where
  a : BitVec 136
  nan : Bool
  pinf : Bool
  ninf : Bool
  ov : Bool
  anz : Bool
  ne : Bool
  deriving DecidableEq, Repr

/-- A weight plane (R282) with its scales and the sources recorded at its load (R308), if it was ever loaded; stale
until it has been reloaded from them (R295). Bytes that are not listed are 0. -/
structure Plane where
  pair : BitVec 4
  data : Table Byte
  scales : Table Byte
  src : W64
  scaleSrc : W64
  scaled : Bool
  has : Bool
  stale : Bool
  deriving DecidableEq, Repr

/-- What a vector entry will write at its end (R249), its stores by address, location, byte and the bits of the byte
they cover: internal to the engine, lost at an engine reset. -/
structure VRun where
  vregs : List (Nat × VWord)
  mregs : List (Nat × MWord)
  xregs : List (Nat × W64)
  stores : List (Nat × Nat × Byte × Byte)
  push : Option VWord
  flags : BitVec 5
  trap : Option PendTrap
  deriving DecidableEq, Repr

/-- The matrix engine's internal state (R284, R290, R301): the indices of the pass, whether its plane is loaded, whether
the pass has run and a commit is due, the block of the adapter table, the uncommitted bank U, and the adapter table.
Lost at an engine reset. -/
structure MRun where
  idx : List Nat
  loaded : Bool
  passed : Bool
  block : Nat
  u : Table Acc
  adapter : List (List Nat)
  deriving DecidableEq, Repr

/-- A tag-table entry (R69). -/
structure TagEntry where
  key : W64
  off : BitVec 10
  len : BitVec 11
  valid : Bool
  bad : Bool
  deriving DecidableEq, Repr

/-- A translation held in a TLB (R82): the first virtual page, the pages it covers, the entry it came from and
where that entry lies. -/
structure TlbEntry where
  vpn : Nat
  pages : Nat
  pte : W64
  pteAt : Nat
  deriving DecidableEq, Repr

/-- A shootdown a core has not acknowledged (R92): the range, the tasks still to reach a quiescent point, and the tasks
that it has stopped in place (R93). -/
structure Shoot where
  base : W64
  pages : Nat
  since : Nat
  lagging : List Nat
  stopped : List Nat
  deriving DecidableEq, Repr

/-- A core (R17). `wdog` counts, for each engine by its number, the cycles in which an entry has run without progress (R351).
-/
structure Core where
  slots : Vector Slot 4
  b0 : BitVec 7
  b1 : BitVec 7
  b2 : BitVec 7
  vregs : Nat
  degraded : Bool
  pinned : List Nat
  context : Option Nat
  tlb : List TlbEntry
  tags : Table TagEntry
  wms : Vector Wm 8
  rings : Vector Ring 4
  vq : EngQ
  cq : EngQ
  mq : EngQ
  vrun : Option VRun
  mrun : Option MRun
  active : Plane
  shadow : Plane
  lower : Table Acc
  upper : Table Acc
  upperCommitted : Bool
  mxw : BitVec 3
  nestMark : BitVec 128
  nestAnchor : BitVec 16
  nestRun : Bool
  turn : Nat
  rota : List Nat
  shoots : List Shoot
  saving : Bool
  wdog : Table Nat
  deriving DecidableEq, Repr

/-! ## Dies and clusters -/

/-- A semaphore operation in a home's order of arrival (R214, R216 to R219). -/
inductive SemKind
  | sig (amount : W64)
  | add (addend : W64)
  | set (value : W64)
  | read
  | wait (threshold : W64) (take : Bool)
  | arm (launch tcb : Nat) (threshold : W64)
  deriving DecidableEq, Repr

/-- A semaphore operation with its source device, slot and task, its queue's generation (R363), and the reference cycle in
which it takes effect at the home (R231). -/
structure SemOp where
  index : Nat
  kind : SemKind
  core : Nat
  slot : Fin 4
  uid : Nat
  queue : Nat
  gen : BitVec 8
  dev : BitVec 20
  due : Nat
  deriving DecidableEq, Repr

/-- A gang operation in a home's order of arrival (R55): `enroll` joins at admission, and `quit` is the GANG.LEAVE of a task
that has ended by EXIT (R235). -/
inductive GangKind | arrive | join | leave | enroll | quit
  deriving DecidableEq, Repr

/-- A gang operation with its source, and the reference cycle in which it takes effect at the home (R231). -/
structure GangOp where
  kind : GangKind
  launch : Nat
  gang : BitVec 6
  core : Nat
  slot : Fin 4
  uid : Nat
  due : Nat
  deriving DecidableEq, Repr

/-- An arm record (R51, R212), with the generation of its queue (R363). -/
structure Arm where
  index : Nat
  threshold : W64
  launch : Nat
  tcb : Nat
  dev : BitVec 20
  gen : BitVec 8
  deriving DecidableEq, Repr

/-- A waiting SEM.WAIT (R217), with its queue and the queue's generation (R363). -/
structure Waiter where
  index : Nat
  threshold : W64
  take : Bool
  core : Nat
  slot : Fin 4
  uid : Nat
  dev : BitVec 20
  queue : Nat
  gen : BitVec 8
  deriving DecidableEq, Repr

/-- A TCB in a ready queue (R52); a TCB formed for a readmission has no index (R56). -/
structure ReadyTcb where
  launch : Nat
  prio : BitVec 8
  rstep : W64
  index : Option Nat
  order : Nat
  num : W32
  prog : W64
  arg : W64
  role : Role
  gang : Option (BitVec 6)
  origin : Origin
  deriving DecidableEq, Repr

/-- A spawned child in a pending pool (R48). -/
structure Child where
  launch : Nat
  num : W32
  prog : W64
  arg : W64
  role : Role
  gang : Option (BitVec 6)
  deriving DecidableEq, Repr

/-- A compute die (R15): its semaphore store, scheduler, Nimbus registers and L2 disable state. `drz` is the engine whose
Drizzle reset comes next and `drzAt` the reference cycle from which the time to it runs (R356), `alarmed` holds for each
engine the reference cycle and the cause of its latest alarm (R377). -/
structure Die where
  sems : Table W64
  arms : List Arm
  inbox : List SemOp
  waiters : List Waiter
  gangs : List GangOp
  ready : List ReadyTcb
  pool : List Child
  disp : List (Nat × Nat)
  nbctl : W64
  nbwdog : W64
  nbevt : W64
  nbcnt : W64
  nbtest : W64
  nbtcyc : W64
  drz : Nat
  drzAt : Nat
  alarmed : Table (Nat × Nat)
  drzWindow : Bool
  d2 : Option Nat
  noD2 : Bool
  l2off : Table (BitVec 16)
  slices : BitVec 16
  deriving DecidableEq, Repr

/-- The states of an in-field test (R404). -/
inductive TestState | none | emptying | running
  deriving DecidableEq, Repr

/-- A cluster: test state (R404, R405), clock (R380 to R384), monitors and throttle (R407, R430). `lost` counts the
twentieths of a cycle that replays, holds and stretches have taken since `baseClk`, the reference cycle at which the
count of cycles was `base` twentieths, and `debt` what stretches still have to take; `spent` counts the replay cycles of
the step, `stop` is the reference cycle at which the latest replay ends, and `heldAt` the one in which the hold began;
`stretched` holds the reference cycles of recent stretches, `placed` the queues that placed a task since the last
pass and `emptied` those that were pre-empted to empty the cluster for its test. `testDue` remembers a test that fell due
on a die of a D2 context, `tested` and `emptyAt` are the reference cycles of the latest test and of the start of the wait for
an empty cluster, and `sampled` is the sampling period of the latest sample. -/
structure Cluster where
  retired : Bool
  test : TestState
  testDue : Bool
  tested : Nat
  emptyAt : Nat
  sampled : Nat
  lastPass : W64
  placed : List Nat
  emptied : List Nat
  base : Nat
  baseClk : Nat
  lost : Nat
  debt : Nat
  stop : Nat
  spent : Nat
  hold : Bool
  heldAt : Nat
  stretched : List Nat
  mon : W64
  thermal : Nat
  power : Nat
  walks : Nat
  deriving DecidableEq, Repr

/-! ## Queues and launches -/

/-- A host queue: its configuration block (R413), status (R414), cadence (R395) and pre-emption (R371), with the reference
cycles at which the ladder (`ladder`) and its rung 2 (`saveAt`) began, and whether rung 2 has decided to wait for the end of a D2
superstep (`awaits`, R376). `blockLevel` is DETLEVEL of the configuration block beside the level in effect (R427), and `staged` says
that RFETCH has staged a packet with which its queue core is not done (R426). -/
structure Queue where
  ring : W64
  log2n : Nat
  prio : BitVec 8
  ws : BitVec 2
  excl : Bool
  slack : Nat
  stataddr : W64
  evring : W64
  log2e : Nat
  troot : W64
  blockLevel : BitVec 2
  semb : Nat
  semn : Nat
  t1 : Nat
  t2 : Nat
  ckbase : W64
  savebase : W64
  dies : BitVec 8
  head : W32
  tail : W32
  resident : Bool
  qcore : Nat
  gen : BitVec 8
  level : BitVec 2
  err : BitVec 8
  evovf : Bool
  evseq : W32
  evcount : W32
  statword : W64
  rung : BitVec 2
  ladder : Nat
  saveAt : Nat
  awaits : Bool
  stopped : Bool
  hot : Bool
  breakWith : Nat
  cadence : Bool
  period : BitVec 48
  tick : W64
  switching : Option (BitVec 2)
  staged : Bool
  waiting : Bool
  resetting : Bool
  fences : List Nat
  deriving DecidableEq, Repr

/-- A lease (R83). -/
structure Lease where
  base : W64
  pages : Nat
  lw : Bool
  lx : Bool
  demand : Bool
  deriving DecidableEq, Repr

/-- A gang (R54): members and arrivals by task, the generation, and the statuses recorded for members that were
saved while they waited (R244). -/
structure Gang where
  members : List Nat
  arrived : List Nat
  gen : Nat
  broken : Bool
  joiners : List GangOp
  recorded : List (Nat × W64)
  deriving DecidableEq, Repr

/-- How far a launch has come. -/
inductive Stage | queued | ticking | admitted | over
  deriving DecidableEq, Repr

/-- A launch: its descriptor (R34, R35), status record (R37) and progress (R38 to R46); `phaseStart` holds the next task
number and the counts of ended tasks at the start of the phase (R361). -/
structure Launch where
  queue : Nat
  desc : W64
  stage : Stage
  state : BitVec 8
  err : BitVec 8
  prog : W64
  args : W64
  tvec : W64
  entries : List (BitVec 16)
  nent : Nat
  roles : List (BitVec 2)
  vregs : Nat
  b0 : BitVec 7
  b1 : BitVec 7
  b2 : BitVec 7
  det : BitVec 2
  cgran : Bool
  mindie : Nat
  maxdie : Nat
  gpol : Bool
  prio : BitVec 8
  count : Nat
  phases : List (Nat × Nat)
  phase : Nat
  leases : List Lease
  ntcb : Nat
  tcbs : W64
  spill : W64
  spillcap : Nat
  status : W64
  mask : BitVec 8
  home : Nat
  order : Nat
  nextTask : Nat
  lastTask : Nat
  nextNum : Nat
  exited : Nat
  faulted : Nat
  phaseStart : Nat × Nat × Nat
  armedLeft : Nat
  remoteArms : Nat
  gstepStart : W64
  gstepEnd : W64
  spillHead : Table Nat
  spillTail : Table Nat
  gangs : Table Gang
  pinned : List Nat
  trans : List TlbEntry
  barrier : Option Nat
  doneAt : Option Nat
  deriving DecidableEq, Repr

/-! ## Links, host and firmware -/

/-- A link (R398, R399): a Berby port 0 to 35, or a die-to-die edge from 36 on, with its send window in flits, its arbitration
weight, and the period of 2^20 reference cycles of its latest hand-over. -/
structure Link where
  shadow : Nat
  excluded : List Nat
  half : Bool
  out : Bool
  cost : Nat
  window : Nat
  weight : Nat
  rot : Nat
  errors : Nat
  retry : Bool
  deriving DecidableEq, Repr

/-- A Flambeol queue core (R422, R423) with its machine trap registers. -/
structure FCore where
  x : Vector W64 32
  pc : W64
  lmem : Table Byte
  pending : BitVec 7
  asleep : Bool
  swMask : W64
  swLimit : Option Nat
  swRd : XReg
  mepc : W64
  mcause : W64
  mtval : W64
  mtvec : W64
  deriving DecidableEq, Repr

/-- The management core of an I/O die (R15): a RISC-V core with 256 KiB of local memory, whose base instruction set is
another architecture's. -/
structure MCore where
  x : Vector W64 32
  pc : W64
  lmem : Table Byte
  deriving DecidableEq, Repr

/-- An image slot of the configuration flash (R424). -/
structure Image where
  bytes : List Byte
  verified : Bool
  deriving DecidableEq, Repr

/-- A mailbox command that has been accepted and not answered: its OPCODE, TAG and arguments as they were when GO was
set, the device that sent it if it came over the links, whether it has gone to a group member, and whether its action
has started (R419, R421). -/
structure Cmd where
  opcode : Nat
  tag : W32
  args : List W64
  src : Option (BitVec 20)
  away : Bool
  started : Bool
  deriving DecidableEq, Repr

/-- The management mailbox (R419). -/
structure Mailbox where
  opcode : BitVec 16
  member : BitVec 4
  reserved : BitVec 12
  tag : W32
  args : Table W64
  go : Bool
  cmd : Option Cmd
  result : BitVec 16
  rtag : W32
  res : Table W64
  data : Table Byte
  deriving DecidableEq, Repr

/-- A route to a device (R412): the port it leaves by, its hop count, and what other devices' ports add to its cost (R399).
-/
structure Route where
  port : Nat
  hops : Nat
  extra : Nat
  deriving DecidableEq, Repr

/-- A source that counts faults (R397). -/
inductive FaultSrc
  | lane (link lane : Nat)
  | way (die set way : Nat)
  | line (core line : Nat)
  | engine (core : Nat) (e : EngId)
  deriving DecidableEq, Repr

/-- The snapshot registers of every block (R406): those of a block that is not listed hold what they do after reset. -/
structure Snapshot where
  cores : List (Nat × List W64)
  marks : List (Nat × BitVec 128)
  counts : List (Nat × W64 × W64)
  ways : List (Nat × BitVec 16)
  ports : List (Nat × List Nat)
  mons : List (Nat × W64)
  deriving DecidableEq, Repr

/-- Bytes that are not yet at their home, newest first: published at a scope narrower than the package (R195, R198), or
written by an engine operation, with its queue and ordinal, and not yet published (R208). Each carries the host queue whose
work it is and that queue's generation (R363). -/
structure Over where
  uid : Nat
  scope : Scope
  core : Nat
  loc : Nat
  byte : Byte
  eng : Option (Nat × Nat)
  stamp : Nat × BitVec 8 := (0, 0)
  deriving DecidableEq, Repr

/-- What a device that does not bridge has asked of its bridging device (R409): under which tag, for which task in which slot,
by which of the slot's units (0 its own loads, 1 vector, 2 copy and 3 matrix entries, 4 its atomic, 5 its fetches), of which
granule, and whether a read's value has arrived. -/
structure HostReq where
  tag : Nat
  uid : Nat
  core : Nat
  slot : Nat
  unit : Nat
  granule : Nat
  back : Bool
  deriving DecidableEq, Repr

/-- What the model keeps of a saved core beside its image in memory (R373): the queue, the core, the tasks in their
slots, the boundaries, the queued records as instructions, the recorded planes, which bank is the committed one, the mark
and the anchor of the latest nest if one has run (R294, R311, R313), whether the core was reset rather than saved, and
the reason of the SCHED_BREAK its tasks meet on resume, or 0 (R376, R392), the slots held for a group (R41), the order and
place of the turns (R58), who took each watermark register (R207), the spoiled tag entries (R72), and the remap table: the
landings still on their way to the pool, each with the bytes by location, its record and its watermark register as they are
once it has arrived (R339). -/
structure Saved where
  queue : Nat
  core : Nat
  slots : List (Nat × Slot)
  vregs : Nat
  bounds : List (BitVec 7)
  vq : EngQ
  cq : EngQ
  mq : EngQ
  planes : List Plane
  rings : List Ring
  upper : Bool
  nest : Bool
  nestMark : BitVec 128
  nestAnchor : BitVec 16
  fresh : Bool
  reason : Nat
  held : List (Nat × Slot)
  rota : List Nat
  turn : Nat
  owners : List (Nat × Nat)
  badTags : List Nat
  remap : List (List (Nat × Byte) × QRec × Wm)
  deriving DecidableEq, Repr

/-- A live update under way (R426), with the reference cycle at which the new image started, and whether it has: before the
hand-over the queues come to a packet boundary. -/
structure Update where
  oldSlot : BitVec 1
  newSlot : BitVec 1
  since : Nat
  handed : Bool := true
  deriving DecidableEq, Repr

/-- Which slot of which core issues. -/
structure SlotRef where
  core : Nat
  slot : Fin 4
  deriving DecidableEq, Repr

/-- The state of the device. `armed` lists the entries on whose lines the monitors of the walkers are armed, each with
whether a write has reached its line since (R87), `foreign` the fences that queues of other devices have posted, with
their new generations (R364), `shootReqs` the shootdowns that wait at Flambeol, by queue, base and pages (R91); `cur` is the slot whose instruction executes, `fcur` the awake queue core that executes
instead of the device, `fwoken` those that have woken meanwhile, `mcores` the management cores of the two I/O dies, `cmdWait` the commands
from other devices that wait for the one in progress, `infos` the information blocks of the group's members, `routes` the
routes to other devices, `hostDev` the DEVID of the group's bridging device, `hostReqs` what has been asked of it under the tags
below `hostTag`, `sweep` the core from which the current cycle goes on, `lap` how many cluster cycles have passed in
the reference cycle, `agenda` what happens next in the device or
around it. -/
structure State where
  mem : Memory
  overlay : List Over
  poison : List Nat
  armed : List (Nat × Bool)
  foreign : List (BitVec 20 × Nat × BitVec 8)
  shootReqs : List (Nat × W64 × Nat)
  cores : Table Core
  dies : Table Die
  clusters : Table Cluster
  queues : Table Queue
  launches : Table Launch
  nextLaunch : Nat
  nextOrder : Nat
  nextUid : Nat
  saved : List Saved
  links : Table Link
  outbox : List Flit
  hostReqs : List HostReq
  hostTag : Nat
  fcores : Table FCore
  fcur : Option Nat
  fwoken : List Nat
  mcores : Table MCore
  mbox : Mailbox
  cmdWait : List Cmd
  infos : Table (List W64)
  routes : Table (List Route)
  hostDev : BitVec 20
  cfgblocks : Table W64
  pendingMap : List Nat
  devid : BitVec 20
  identity : BitVec 20
  bridge : Bool
  members : List (BitVec 20)
  refusedIds : Nat
  queueMade : Bool
  system : List (BitVec 20)
  service : BitVec 2
  imageA : Image
  imageB : Image
  running : BitVec 1
  activeSlot : BitVec 1
  farcap : List (BitVec 8)
  flashWays : List (Nat × Nat × Nat)
  flashLines : List (Nat × Nat)
  flashClusters : List Nat
  measurements : List (BitVec 384)
  attest : List (BitVec 768)
  update : Option Update
  hbeat : W64
  pcap : Nat
  watts : Nat
  shootWait : Nat
  ftper : Nat
  steplen : Nat
  gstep : W64
  aligned : Bool
  refclk : Nat
  stepBase : Nat
  sweep : Nat
  lap : Nat
  faults : List (FaultSrc × List Nat)
  snapctl : W64
  snapstep : W64
  snapDue : Option Nat
  snap : Snapshot
  cur : SlotRef
  agenda : List Instr
  freeCtr : Nat
  deriving DecidableEq, Repr

/-! ## Reset -/

/-- An empty slot: every register zero but AGE_LIMIT, PARKLIM and VCFG, as R32, R88 and R245 give them. -/
def Slot.reset : Slot where
  occ := false
  uid := 0
  launch := 0
  task := 0
  origin := .direct 0
  startPc := 0
  startArg := 0
  startRole := .epilogue
  prio := 0
  role := .epilogue
  entry := 0
  pc := 0
  x := Vector.replicate 32 0
  p := 0
  v := Vector.replicate 48 0
  m := Vector.replicate 8 0
  b := Vector.replicate 8 0
  pushes := 0
  tok := Vector.replicate 8 0
  ageLimit := 256
  gangctl := 0
  parklim := 1024
  fpctl := 0
  accanch := 0
  vcfg := 6
  tvec := 0
  tcause := 0
  tpc := 0
  tval := 0
  tword := 0
  tstat := 0
  mxtab := Vector.replicate 16 0
  engTraps := []
  evTraps := []
  pfx := []
  pfxPc := 0
  wait := .run
  park := none
  stalled := false
  stall := .condition
  busyTill := 0
  lag := 0
  opens := 0
  evOpens := 0
  ckIssued := []
  age := 0
  yield := 0
  started := false
  exiting := false
  held := false
  group := none
  dying := false
  away := none
  cancelled := false
  pend := []
  snap := []
  hidden := []
  ckpt := false
  frozen := []
  issuedCopies := 0
  issuedVecs := 0
  issuedMxs := 0
  late := false
  quiesced := false

/-- An empty queue (R344). -/
def EngQ.reset : EngQ := { recs := [], head := 0, tail := 0, seq := 0 }
/-- Every part of a watermark register is 0 after package reset (R321). -/
def Wm.reset : Wm := { lo := 0, hi := 0, wm := 0, stat := 0, owner := (0, 0) }
/-- Rings are uninitialised after package reset (R336). -/
def Ring.reset : Ring := { base := 0, slotb := 0, nslot := 0, alloc := 0, fill := 0, acq := 0, rel := 0,
                           filled := [], frozen := [] }
/-- The cleared state of an ACC128 element (R113). -/
def Acc.cleared : Acc :=
  { a := 0, nan := false, pinf := false, ninf := false, ov := false, anz := true, ne := false }
/-- A plane of zeros with scales 0x00 (R282). -/
def Plane.reset : Plane := { pair := 0, data := [], scales := [], src := 0, scaleSrc := 0, scaled := false,
                             has := false, stale := false }
/-- An invalid tag-table entry. -/
def TagEntry.reset : TagEntry := { key := 0, off := 0, len := 0, valid := false, bad := false }

/-- An empty core; POOLMODE.DEGR is 1 after reset (R64), the window default is shared with 32 cycles (R299). -/
def Core.reset : Core where
  slots := Vector.replicate 4 Slot.reset
  b0 := 0
  b1 := 0
  b2 := 0
  vregs := 0
  degraded := true
  pinned := []
  context := none
  tlb := []
  tags := []
  wms := Vector.replicate 8 Wm.reset
  rings := Vector.replicate 4 Ring.reset
  vq := EngQ.reset
  cq := EngQ.reset
  mq := EngQ.reset
  vrun := none
  mrun := none
  active := Plane.reset
  shadow := Plane.reset
  lower := []
  upper := []
  upperCommitted := false
  mxw := 1
  nestMark := 0
  nestAnchor := 0
  nestRun := false
  turn := 0
  rota := []
  shoots := []
  saving := false
  wdog := []

/-- A die after package reset: semaphores 0 (R212), Nimbus registers as R353 and R354 give them. -/
def Die.reset : Die where
  sems := []
  arms := []
  inbox := []
  waiters := []
  gangs := []
  ready := []
  pool := []
  disp := []
  nbctl := 0x00000FA000000003
  nbwdog := 0x10000
  nbevt := 0
  nbcnt := 0
  nbtest := 0
  nbtcyc := 0
  drz := 0
  drzAt := 0
  alarmed := []
  drzWindow := false
  d2 := none
  noD2 := false
  l2off := []
  slices := 0

/-- A cluster after package reset. -/
def Cluster.reset : Cluster where
  retired := false
  test := .none
  testDue := false
  tested := 0
  emptyAt := 0
  sampled := 0
  lastPass := 0
  placed := []
  emptied := []
  base := 0
  baseClk := 0
  lost := 0
  debt := 0
  stop := 0
  spent := 0
  hold := false
  heldAt := 0
  stretched := []
  mon := 0
  thermal := 0
  power := 0
  walks := 0

/-- A queue that has not been created. -/
def Queue.blank : Queue where
  ring := 0
  log2n := 0
  prio := 0
  ws := 1
  excl := false
  slack := 32
  stataddr := 0
  evring := 0
  log2e := 0
  troot := 0
  blockLevel := 0
  semb := 0
  semn := 0
  t1 := 200
  t2 := 2000
  ckbase := 0
  savebase := 0
  dies := 0
  head := 0
  tail := 0
  resident := false
  qcore := 0
  gen := 0
  level := 0
  err := 0
  evovf := false
  evseq := 0
  evcount := 0
  statword := 0
  rung := 0
  ladder := 0
  saveAt := 0
  awaits := false
  stopped := false
  hot := false
  breakWith := 0
  cadence := false
  period := 0
  tick := 0
  switching := none
  staged := false
  waiting := false
  resetting := false
  fences := []

/-- A launch that nothing has queued. -/
def Launch.blank : Launch where
  queue := 0
  desc := 0
  stage := .over
  state := 0
  err := 0
  prog := 0
  args := 0
  tvec := 0
  entries := []
  nent := 0
  roles := []
  vregs := 0
  b0 := 0
  b1 := 0
  b2 := 0
  det := 0
  cgran := false
  mindie := 0
  maxdie := 0
  gpol := false
  prio := 0
  count := 0
  phases := []
  phase := 0
  leases := []
  ntcb := 0
  tcbs := 0
  spill := 0
  spillcap := 0
  status := 0
  mask := 0
  home := 0
  order := 0
  nextTask := 0
  lastTask := 0
  nextNum := 0
  exited := 0
  faulted := 0
  phaseStart := (0, 0, 0)
  armedLeft := 0
  remoteArms := 0
  gstepStart := 0
  gstepEnd := 0
  spillHead := []
  spillTail := []
  gangs := []
  pinned := []
  trans := []
  barrier := none
  doneAt := none

/-- An empty gang, OK and with every count 0 (R54). -/
def Gang.reset : Gang :=
  { members := [], arrived := [], gen := 0, broken := false, joiners := [], recorded := [] }

/-- A link at full width, its last lane the shadow lane; each die-to-die edge and port starts at cost 1
(assumption 27). -/
def Link.reset : Link :=
  { shadow := 8, excluded := [], half := false, out := false, cost := 1, window := 64, weight := 2, rot := 0, errors := 0,
    retry := false }

/-- A queue core asleep in nothing, all registers zero (assumption 5). -/
def FCore.reset : FCore where
  x := Vector.replicate 32 0
  pc := 0
  lmem := []
  pending := 0
  asleep := false
  swMask := 0
  swLimit := none
  swRd := 0
  mepc := 0
  mcause := 0
  mtval := 0
  mtvec := 0

/-- A management core at package reset, all registers zero (assumption 5). -/
def MCore.reset : MCore := { x := Vector.replicate 32 0, pc := 0, lmem := [] }

/-- The mailbox after boot (R419). -/
def Mailbox.reset : Mailbox :=
  { opcode := 0, member := 0, reserved := 0, tag := 0, args := [], go := false, cmd := none, result := 0,
    rtag := 0, res := [], data := [] }

/-- The snapshot registers after package reset: no block is listed (the manual gives no value: assumption 5). -/
def Snapshot.reset : Snapshot := { cores := [], marks := [], counts := [], ways := [], ports := [], mons := [] }

/-- An image slot that holds nothing. -/
def Image.reset : Image := { bytes := [], verified := false }

/-- The device right after package reset: booting (R411), no queue, no launch, every core empty. The flash contents
(images, identity, disable bitmap, fitted memory) come from outside the machine (assumption 5). -/
def State.reset : State where
  mem := []
  overlay := []
  poison := []
  armed := []
  foreign := []
  shootReqs := []
  cores := []
  dies := []
  clusters := []
  queues := []
  launches := []
  nextLaunch := 0
  nextOrder := 0
  nextUid := 1
  saved := []
  links := []
  outbox := []
  hostReqs := []
  hostTag := 0
  fcores := []
  fcur := none
  fwoken := []
  mcores := []
  mbox := Mailbox.reset
  cmdWait := []
  infos := []
  routes := []
  hostDev := 0
  cfgblocks := []
  pendingMap := []
  devid := 0
  identity := 0
  bridge := true
  members := []
  refusedIds := 0
  queueMade := false
  system := []
  service := 0
  imageA := Image.reset
  imageB := Image.reset
  running := 0
  activeSlot := 0
  farcap := List.replicate 16 96
  flashWays := []
  flashLines := []
  flashClusters := []
  measurements := []
  attest := []
  update := none
  hbeat := 0
  pcap := 1950
  watts := 0
  shootWait := 100
  ftper := 24
  steplen := 1024
  gstep := 0
  aligned := false
  refclk := 0
  stepBase := 0
  sweep := 0
  lap := 0
  faults := []
  snapctl := 0
  snapstep := 0
  snapDue := none
  snap := Snapshot.reset
  cur := { core := 0, slot := 0 }
  agenda := []
  freeCtr := 0

end Sys2Proof.Machine
end

