-- ==== Sys2Proof/Machine/Base.lean ====
section
/-! DEFINITION. Reading and writing the parts of the state: cores, slots, dies, clusters, queues, launches, the
bit fields of words, and the registers of a slot with their fixed values (R125, R126). -/

namespace Sys2Proof.Machine

/-! ## Bit fields -/

/-- Bits [hi:lo] of a value as a number. -/
def bits {w : Nat} (x : BitVec w) (hi lo : Nat) : Nat := x.toNat / 2 ^ lo % 2 ^ (hi + 1 - lo)
/-- Bit n of a value. -/
def bitOf {w : Nat} (x : BitVec w) (n : Nat) : Bool := x.toNat / 2 ^ n % 2 == 1
/-- A 64-bit word with bits [hi:lo] replaced. -/
def setBits (x : W64) (hi lo v : Nat) : W64 :=
  BitVec.ofNat 64 (x.toNat - bits x hi lo * 2 ^ lo + v % 2 ^ (hi + 1 - lo) * 2 ^ lo)
/-- The number of a Boolean bit. -/
def b2n (b : Bool) : Nat := if b then 1 else 0
/-- The low 32 bits, sign-extended to 64 (sx32 of chapter "Scalar"). -/
def sx32 (v : W64) : W64 := (v.setWidth 32).signExtend 64
/-- A 64-bit word of a number. -/
def w64 (n : Nat) : W64 := BitVec.ofNat 64 n
/-- A number in two's complement at a width. -/
def signedOf (w n : Nat) : Int := if n % 2 ^ w < 2 ^ (w - 1) then (n % 2 ^ w : Nat) else (n % 2 ^ w : Nat) - 2 ^ w
/-- The non-negative remainder of an integer modulo 2^w. -/
def wrapTo (w : Nat) (i : Int) : Nat := (i % (2 ^ w : Nat)).toNat
/-- Bytes of a number, little-endian (R7). -/
def bytesLE (k n : Nat) : List Byte := (List.range k).map fun j => BitVec.ofNat 8 (n / 2 ^ (8 * j))
/-- Ceiling of a quotient. -/
def cdiv (a b : Nat) : Nat := (a + b - 1) / b

/-! ## Parts of the state -/

/-- A core of the device (R20). -/
def State.core (s : State) (g : Nat) : Core := tget Core.reset s.cores g
/-- The state with a core replaced. -/
def State.setCore (s : State) (g : Nat) (c : Core) : State := { s with cores := tset s.cores g c }
/-- The state with a core changed. -/
def State.modCore (s : State) (g : Nat) (f : Core → Core) : State := s.setCore g (f (s.core g))
/-- A slot of a core. -/
def Core.slot (c : Core) (k : Fin 4) : Slot := c.slots[k]
/-- A core with a slot replaced. -/
def Core.setSlot (c : Core) (k : Fin 4) (l : Slot) : Core := { c with slots := c.slots.set k.val l k.isLt }
/-- A core with every slot changed. -/
def Core.mapSlots (c : Core) (f : Slot → Slot) : Core := { c with slots := c.slots.map f }
/-- The slot a reference names. -/
def State.slotAt (s : State) (r : SlotRef) : Slot := (s.core r.core).slot r.slot
/-- The state with a slot replaced. -/
def State.setSlot (s : State) (r : SlotRef) (l : Slot) : State :=
  s.setCore r.core ((s.core r.core).setSlot r.slot l)
/-- The state with a slot changed. -/
def State.modSlot (s : State) (r : SlotRef) (f : Slot → Slot) : State := s.setSlot r (f (s.slotAt r))
/-- The slot whose instruction is being executed. -/
def State.slot (s : State) : Slot := s.slotAt s.cur
/-- The state with the executing slot changed. -/
def State.mapSlot (s : State) (f : Slot → Slot) : State := s.modSlot s.cur f
/-- The core whose slot executes. -/
def State.here (s : State) : Core := s.core s.cur.core

/-- A compute die (R15). -/
def State.die (s : State) (d : Nat) : Die := tget Die.reset s.dies d
/-- The state with a die changed. -/
def State.modDie (s : State) (d : Nat) (f : Die → Die) : State := { s with dies := tset s.dies d (f (s.die d)) }
/-- A cluster, numbered die * 24 + cluster. -/
def State.cluster (s : State) (k : Nat) : Cluster := tget Cluster.reset s.clusters k
/-- The state with a cluster changed. -/
def State.modCluster (s : State) (k : Nat) (f : Cluster → Cluster) : State :=
  { s with clusters := tset s.clusters k (f (s.cluster k)) }
/-- A host queue (R413). -/
def State.queue (s : State) (q : Nat) : Queue := tget Queue.blank s.queues q
/-- The state with a queue changed. -/
def State.modQueue (s : State) (q : Nat) (f : Queue → Queue) : State :=
  { s with queues := tset s.queues q (f (s.queue q)) }
/-- A launch. -/
def State.launch (s : State) (l : Nat) : Launch := tget Launch.blank s.launches l
/-- The state with a launch changed. -/
def State.modLaunch (s : State) (l : Nat) (f : Launch → Launch) : State :=
  { s with launches := tset s.launches l (f (s.launch l)) }
/-- A gang of a launch (R54). -/
def Launch.gang (l : Launch) (g : Nat) : Gang := tget Gang.reset l.gangs g
/-- The state with a gang of a launch changed. -/
def State.modGang (s : State) (l g : Nat) (f : Gang → Gang) : State :=
  s.modLaunch l fun x => { x with gangs := tset x.gangs g (f (x.gang g)) }
/-- A link (R398). -/
def State.link (s : State) (n : Nat) : Link := tget Link.reset s.links n
/-- The state with a link changed. -/
def State.modLink (s : State) (n : Nat) (f : Link → Link) : State :=
  { s with links := tset s.links n (f (s.link n)) }
/-- A Flambeol queue core (R422). -/
def State.fcore (s : State) (n : Nat) : FCore := tget FCore.reset s.fcores n
/-- The state with a Flambeol queue core changed. -/
def State.modFcore (s : State) (n : Nat) (f : FCore → FCore) : State :=
  { s with fcores := tset s.fcores n (f (s.fcore n)) }
/-- The management core of an I/O die, 0 or 1 (R15). -/
def State.mcore (s : State) (n : Nat) : MCore := tget MCore.reset s.mcores n

/-- The die of a core (R20). -/
def dieOf (g : Nat) : Nat := g / 96
/-- The cluster of a core, numbered over the device (R20). -/
def clusterOf (g : Nat) : Nat := g / 4
/-- The pair core (R17, "Clusters and cores"). -/
def pairOf (g : Nat) : Nat := if g % 2 = 0 then g + 1 else g - 1
/-- The hop count between compute dies (R16). -/
def hops (a b : Nat) : Nat :=
  let ca := a % 4
  let cb := b % 4
  let d := if ca ≤ cb then cb - ca else ca - cb
  Nat.min d (4 - d) + (if a / 4 = b / 4 then 0 else 1)

/-- The launch of a slot's task. -/
def State.launchOf (s : State) (r : SlotRef) : Launch := s.launch (s.slotAt r).launch
/-- The host queue whose context a slot's task belongs to. -/
def State.queueOf (s : State) (r : SlotRef) : Queue := s.queue (s.launchOf r).queue
/-- The determinism level of the executing task (R31). -/
def State.level (s : State) : Nat := (s.launchOf s.cur).det.toNat

/-- Every slot of the device that its tables list. -/
def State.slotRefs (s : State) : List SlotRef :=
  s.cores.flatMap fun (g, _) => [⟨g, 0⟩, ⟨g, 1⟩, ⟨g, 2⟩, ⟨g, 3⟩]
/-- The slot that holds a task, if any. -/
def State.findTask (s : State) (uid : Nat) : Option SlotRef :=
  s.slotRefs.find? fun r => (s.slotAt r).occ && (s.slotAt r).uid == uid
/-- The slots that hold tasks of a launch. -/
def State.tasksOf (s : State) (l : Nat) : List SlotRef :=
  s.slotRefs.filter fun r => (s.slotAt r).occ && (s.slotAt r).launch == l
/-- The slots that hold tasks of a queue. -/
def State.tasksOfQueue (s : State) (q : Nat) : List SlotRef :=
  s.slotRefs.filter fun r => (s.slotAt r).occ && (s.launchOf r).queue == q

/-- The cores that a queue's tasks occupy, and those on which a slot is held for a group of them, whose scratchpad keeps what
the group left in it (R41). -/
def State.coresOf (s : State) (q : Nat) : List Nat :=
  ((s.slotRefs.filter fun r => ((s.slotAt r).occ || (s.slotAt r).held) && (s.launchOf r).queue == q).map (·.core)).eraseDups

/-! ## Registers of a slot (R125, R126) -/

/-- Reading x0 to x31; x0 reads 0. -/
def Slot.rx (l : Slot) (r : XReg) : W64 := if r = 0 then 0 else l.x[r.toNat]'(r.isLt)
/-- Writing x0 to x31; a write to x0 is discarded. -/
def Slot.wx (l : Slot) (r : XReg) (v : W64) : Slot :=
  if r = 0 then l else { l with x := l.x.set r.toNat v r.isLt }
/-- Reading p0 to p7; p0 reads 1. -/
def Slot.rp (l : Slot) (r : PReg) : Bool := if r = 0 then true else l.p.getLsbD r.toNat
/-- Writing p0 to p7; a write to p0 is discarded. -/
def Slot.wp (l : Slot) (r : PReg) (v : Bool) : Slot :=
  if r = 0 then l
  else { l with p := if v then l.p ||| (1#8 <<< r.toNat) else l.p &&& ~~~(1#8 <<< r.toNat) }
/-- Reading m0 to m7; m0 reads all ones. -/
def Slot.rm (l : Slot) (r : Nat) : MWord := if r = 0 then BitVec.allOnes 1024 else l.m.toList.getD r 0
/-- Writing m0 to m7; a write to m0 is discarded. -/
def Slot.wm (l : Slot) (r : Nat) (v : MWord) : Slot :=
  if h : r = 0 ∨ 8 ≤ r then l else { l with m := l.m.set r v (by omega) }
/-- Reading a vector register. -/
def Slot.rv (l : Slot) (r : Nat) : VWord := l.v.toList.getD r 0
/-- Writing a vector register. -/
def Slot.wv (l : Slot) (r : Nat) (v : VWord) : Slot :=
  if h : r < 48 then { l with v := l.v.set r v h } else l

/-! ## Advancing a slot -/

/-- The cycles that an operation takes from a core to a home on a die (R231). -/
def wayCycles (g die : Nat) : Nat := 12 + 20 * hops (dieOf g) die

/-- The slot goes on at an address: its prefix chain is over. -/
def Slot.goto (l : Slot) (a : W64) : Slot :=
  { l with pc := a, pfx := [], started := true, stalled := false }

/-- The slot goes on at the next word. -/
def Slot.next (l : Slot) : Slot := l.goto (l.pc + 4)

/-- A waiting slot whose operation has completed goes on at the next word. -/
def Slot.resume (l : Slot) : Slot := { l with wait := .run }.next

/-- The executing slot's register. -/
def State.rx (s : State) (r : XReg) : W64 := s.slot.rx r
/-- The state with a register of the executing slot written. -/
def State.wx (s : State) (r : XReg) (v : W64) : State := s.mapSlot (·.wx r v)
/-- The state with a predicate of the executing slot written. -/
def State.wp (s : State) (r : PReg) (v : Bool) : State := s.mapSlot (·.wp r v)

/-- The code of a role (R31). -/
def roleCode (r : Role) : Nat := match r with | .epilogue => 0 | .arith => 1 | .loader => 2
/-- The role of a code; 3 never occurs (R31). -/
def roleOf (n : Nat) : Role := match n with | 0 => .epilogue | 1 => .arith | _ => .loader

/-- Whether a shootdown has stopped a task of the core in place: it goes on when the core has acknowledged (R93). -/
def Core.paused (c : Core) (uid : Nat) : Bool := c.shoots.any fun x => x.stopped.contains uid

/-- Whether a core runs on the fixed-timing clock (R378). -/
def State.fixed (s : State) (g : Nat) : Bool := (s.die (dieOf g)).d2.isSome

/-- Whether a cluster stands still: in a replay (R381) or held before a step boundary (R383). -/
def State.clusterStopped (s : State) (k : Nat) : Bool := decide (s.refclk < (s.cluster k).stop) || (s.cluster k).hold

/-- Twentieths of a cluster cycle per reference cycle (R380, R428): 800 MHz on a fixed-timing die, 400 MHz in reduced
service, and otherwise the elastic clock's nominal 880 MHz; what Flambeol's policy adds above that is left out (DESIGN
CHOICE, assumption 88). -/
def State.clockRate (s : State) (k : Nat) : Nat := if s.fixed (4 * k) then 20 else if s.service = 1 then 10 else 22

/-- The twentieths of a cycle that a cluster has counted by a reference cycle (R380, R381, R385). -/
def State.twentieths (s : State) (k t : Nat) : Nat :=
  let c := s.cluster k
  c.base + (Nat.max t c.stop - c.baseClk) * s.clockRate k - c.lost

/-- The cycles of a cluster that fall in the current reference cycle. -/
def State.beats (s : State) (k : Nat) : Nat :=
  if s.clusterStopped k then 0
  else if s.fixed (4 * k) then 1
  else s.twentieths k (s.refclk + 1) / 20 - s.twentieths k s.refclk / 20

/-- The count of a cluster's cycles goes on from what it is now: its clock is about to change. -/
def State.rebase (s : State) (k : Nat) : State :=
  s.modCluster k fun c => { c with base := s.twentieths k s.refclk, baseClk := Nat.max s.refclk c.stop, lost := 0 }

/-- The clusters of a die before its clock changes. -/
def State.rebaseDie (s : State) (d : Nat) : State := (List.range 24).foldl (fun s c => s.rebase (24 * d + c)) s

/-- A held cluster goes on (R383): the cycles of the hold are none that it counts. -/
def State.release (s : State) (k : Nat) : State :=
  if (s.cluster k).hold then
    s.modCluster k fun c => { c with hold := false, lost := c.lost + (s.refclk - Nat.max c.heldAt c.stop) * s.clockRate k }
  else s

/-- A wait whose answer is delivered a number of reference cycles later. -/
def Wait.later (w : Wait) (n : Nat) : Wait :=
  match w with
  | .semDone d v cond due => .semDone d v cond (due + n)
  | .barDone d g word status due => .barDone d g word status (due + n)
  | .gangDone due => .gangDone (due + n)
  | .atomic d loc k fresh due => .atomic d loc k fresh (due + n)
  | w => w

/-- A slot whose cluster stands still: what reaches it from outside is delivered at the local cycle that its fixed latency
names (R381). -/
def Slot.standStill (l : Slot) (n : Nat) : Slot := { l with lag := l.lag + n, busyTill := l.busyTill + n, wait := l.wait.later n }

/-- A cluster stands still for a number of cycles, which neither CYCLE nor SCYC counts (R381, R399). -/
def State.standStill (s : State) (k n : Nat) : State :=
  let s1 : State := { s with cores := s.cores.map fun (g, c) => (g, if clusterOf g = k then c.mapSlots (·.standStill n) else c) }
  s1.modCluster k fun c => { c with stop := Nat.max s.refclk c.stop + n, spent := c.spent + n, lost := c.lost + n * s.clockRate k }

/-- The next free value, with its counter advanced (assumption 2). -/
def State.free (s : State) : W64 × State := (Config.freeValue s.freeCtr, { s with freeCtr := s.freeCtr + 1 })

/-- An open value of a slot's task, of a kind and with an ordinal among them: in D1 and D2 it depends on the launch's inputs,
the task, the kind and the ordinal alone (R379, assumption 2). -/
def State.freeAs (s : State) (r : SlotRef) (kind ord : Nat) : W64 × State :=
  let l := s.slotAt r
  let n := s.launch l.launch
  if n.det = 0 then s.free else (Config.openWord n.prog.toNat n.args.toNat l.task.toNat kind ord, s)

/-- An open value in a trap of a slot's task: one of its own where `own` holds, else one of an outside event (R379). -/
def State.freeFor (s : State) (r : SlotRef) (own : Bool) : W64 × State :=
  let l := s.slotAt r
  let (v, s1) := s.freeAs r (if own then 0 else 1) (if own then l.opens else l.evOpens)
  (v, s1.modSlot r fun l =>
    if own then { l with opens := l.opens + 1 } else { l with evOpens := l.evOpens + 1 })

/-- Every slot may try again: something other than the slot itself has happened. -/
def State.wakeAll (s : State) : State :=
  { s with cores := s.cores.map fun (g, c) => (g, c.mapSlots fun l => { l with stalled := false }) }

end Sys2Proof.Machine
end

