-- ==== Sys2Proof/Machine/Records.lean ====
section
/-! DEFINITION. The fields of engine records: the copy record (R316 to R319), the loop-nest table (R287 to R290), the
addresses an entry reads and writes, and the bytes of a record in the queue area (R345 to R347). -/

namespace Sys2Proof.Machine

/-! ## Copy records -/

/-- The kinds of copy (R340). -/
inductive CopyKind | plain | timed | ring | gather | scatter | fill | reduce (m : RedMode) | prefetch
  deriving DecidableEq, Repr

/-- The kind of a copy instruction; none for another entry of the copy queue. -/
def copyKindOf : Instr → Option CopyKind
  | .cp _ => some .plain
  | .cpt _ => some .timed
  | .cpr _ => some .ring
  | .cpg _ => some .gather
  | .cps _ => some .scatter
  | .cpf _ => some .fill
  | .cpred _ m => some (.reduce m)
  | .cppf .. => some .prefetch
  | _ => none

/-- Word j of a captured record. -/
def QRec.op (r : QRec) (j : Nat) : W64 := r.ops.getD j 0
/-- Row bytes L0 (R317). -/
def cpL0 (o : List W64) : Nat := bits (o.getD 2 0) 19 0
/-- Level counts c1, c2, c3 (R319). -/
def cpC1 (o : List W64) : Nat := bits (o.getD 2 0) 31 20 + 1
def cpC2 (o : List W64) : Nat := bits (o.getD 2 0) 43 32 + 1
def cpC3 (o : List W64) : Nat := bits (o.getD 2 0) 55 44 + 1
/-- TRED (R317). -/
def cpTred (o : List W64) : Nat := bits (o.getD 2 0) 57 56
/-- Strides (R317), in two's complement. -/
def cpS1 (o : List W64) : Int := signedOf 32 (bits (o.getD 3 0) 31 0)
def cpS2 (o : List W64) : Int := signedOf 32 (bits (o.getD 3 0) 63 32)
def cpS3 (o : List W64) : Int := signedOf 32 (bits (o.getD 4 0) 31 0)
def cpT1 (o : List W64) : Int := signedOf 32 (bits (o.getD 4 0) 63 32)
def cpT2 (o : List W64) : Int := signedOf 32 (bits (o.getD 5 0) 31 0)
def cpT3 (o : List W64) : Int := signedOf 32 (bits (o.getD 5 0) 63 32)
/-- Word +6 (R318). -/
def cpWmi (o : List W64) : Nat := bits (o.getD 6 0) 16 14
def cpWmen (o : List W64) : Bool := bitOf (o.getD 6 0) 17
def cpSemen (o : List W64) : Bool := bitOf (o.getD 6 0) 18
def cpHint (o : List W64) : Nat := bits (o.getD 6 0) 20 19
def cpTag (o : List W64) : Nat := bits (o.getD 6 0) 28 21
/-- The name of the completion semaphore (R318). -/
def cpSem (o : List W64) : W64 := o.getD 6 0 &&& 0x000FFFFFE0003FFF
/-- The release time of a CPT (R317, R338). -/
def cpStep (o : List W64) : Nat := bits (o.getD 7 0) 63 16
def cpCyc (o : List W64) : Nat := bits (o.getD 7 0) 15 0

/-- The reduction mode of an entry (R333): CPRED's own, or TRED of a CPT. -/
def copyRed (k : CopyKind) (o : List W64) : Option RedMode :=
  match k with
  | .reduce m => some m
  | .timed => match cpTred o with | 1 => some .acc | 2 => some .fp32 | _ => none
  | _ => none

/-- Bytes of a row in source and destination; an ACC128 row carries its flag plane (R333). -/
def copyRowBytes (k : CopyKind) (o : List W64) : Nat :=
  if copyRed k o = some .acc then cpL0 o + cpL0 o / 16 * 2 else cpL0 o

/-- The rows of a copy (R319, R332). -/
def copyRows (k : CopyKind) (o : List W64) : Nat :=
  match k with
  | .gather | .scatter => cpC1 o
  | _ => cpC1 o * cpC2 o * cpC3 o

/-- E of R319: how far the footprint extends from DST. -/
def copyExtent (k : CopyKind) (o : List W64) : Int :=
  let e1 : Int := copyRowBytes k o
  let e2 := ((cpC1 o : Int) - 1) * cpT1 o + e1
  let e3 := ((cpC2 o : Int) - 1) * cpT2 o + e2
  ((cpC3 o : Int) - 1) * cpT3 o + e3

/-- The level indices of row j in landing order (R319). -/
def rowIndex (o : List W64) (j : Nat) : Int × Int × Int :=
  ((j % cpC1 o : Nat), (j / cpC1 o % cpC2 o : Nat), (j / (cpC1 o * cpC2 o) : Nat))

/-- Where row j's source starts, before an index table's offset (R319). -/
def copySrc (k : CopyKind) (o : List W64) (j : Nat) : Int :=
  let (i1, i2, i3) := rowIndex o j
  let base : Int := (o.getD 0 0).toNat
  match k with
  | .gather => base
  | .scatter => base + (j : Int) * cpS1 o
  | _ => base + i1 * cpS1 o + i2 * cpS2 o + i3 * cpS3 o

/-- Where row j's destination starts, from the given DST (R319). -/
def copyDst (k : CopyKind) (o : List W64) (dst : W64) (j : Nat) : Int :=
  let (i1, i2, i3) := rowIndex o j
  let base : Int := dst.toNat
  match k with
  | .gather => base + (j : Int) * cpT1 o
  | .scatter => base
  | _ => base + i1 * cpT1 o + i2 * cpT2 o + i3 * cpT3 o

/-- The index table of a gather or scatter (R317). -/
def copyTable (k : CopyKind) (o : List W64) : Option Nat :=
  match k with
  | .gather => some (o.getD 3 0).toNat
  | .scatter => some (o.getD 5 0).toNat
  | _ => none

/-! ## The loop-nest table (R288, R289) -/

/-- Word j of a table. -/
def tabWord (t : List (BitVec 128)) (j : Nat) : BitVec 128 := t.getD j 0
def tabAbase (t : List (BitVec 128)) : Nat := bits (tabWord t 0) 63 0
def tabBbase (t : List (BitVec 128)) : Nat := bits (tabWord t 0) 127 64
def tabCbase (t : List (BitVec 128)) : Nat := bits (tabWord t 1) 63 0
def tabGbase (t : List (BitVec 128)) : Nat := bits (tabWord t 1) 127 64
def tabSa (t : List (BitVec 128)) : Nat := bits (tabWord t 2) 63 0
def tabSb (t : List (BitVec 128)) : Nat := bits (tabWord t 2) 127 64
def tabPair (t : List (BitVec 128)) : Nat := bits (tabWord t 3) 3 0
def tabOut (t : List (BitVec 128)) : Nat := bits (tabWord t 3) 7 4
def tabAnch (t : List (BitVec 128)) : Int := signedOf 16 (bits (tabWord t 3) 23 8)
def tabClvl (t : List (BitVec 128)) : Nat := bits (tabWord t 3) 26 24
def tabRpb (t : List (BitVec 128)) : Nat := bits (tabWord t 3) 33 27
def tabGrb (t : List (BitVec 128)) : Nat := bits (tabWord t 3) 36 34
def tabNblk (t : List (BitVec 128)) : Nat := bits (tabWord t 3) 47 40
def tabScl (t : List (BitVec 128)) : Bool := bitOf (tabWord t 3) 48
def tabHold (t : List (BitVec 128)) : Bool := bitOf (tabWord t 3) 49
def tabKeep (t : List (BitVec 128)) : Bool := bitOf (tabWord t 3) 50
/-- Fields of level l (R289). -/
def lvCount (t : List (BitVec 128)) (l : Nat) : Nat := bits (tabWord t (4 + l)) 15 0
def lvRole (t : List (BitVec 128)) (l : Nat) : Nat := bits (tabWord t (4 + l)) 19 16
def lvAstr (t : List (BitVec 128)) (l : Nat) : Int := signedOf 32 (bits (tabWord t (4 + l)) 63 32)
def lvBstr (t : List (BitVec 128)) (l : Nat) : Int := signedOf 32 (bits (tabWord t (4 + l)) 95 64)
def lvCstr (t : List (BitVec 128)) (l : Nat) : Int := signedOf 32 (bits (tabWord t (4 + l)) 127 96)
/-- nrow: the count of level 0 (R289). -/
def tabNrow (t : List (BitVec 128)) : Nat := lvCount t 0

/-- off(s) of R290 over levels 1 to 5, for a stride by level and the indices i1 to i5. -/
def nestOff (str : Nat → Int) (idx : List Nat) : Int :=
  (List.range 5).foldl (fun acc k => acc + (idx.getD k 0 : Int) * str (k + 1)) 0

/-- K elements per plane and row (R283). -/
def pairKp (p : Nat) : Nat := if p = 3 then 256 else 128
/-- Bytes of an activation row (R283). -/
def pairRowBytes (p : Nat) : Nat := match p with | 4 | 5 => 256 | 6 => 512 | _ => 128
/-- Bytes of a plane (R283). -/
def pairPlaneBytes (p : Nat) : Nat := match p with | 2 => 8192 | 4 | 5 => 32768 | 6 => 65536 | _ => 16384
/-- ρ: array cycles per row (R283). -/
def pairRho (p : Nat) : Nat := match p with | 4 | 5 => 2 | 6 => 8 | _ => 1
/-- q of R285 for the activation and the weight format. -/
def pairQa (p : Nat) : Nat := if p = 3 then 16 else 32
def pairQb (p : Nat) : Nat := if p = 2 ∨ p = 3 then 16 else 32
/-- Bits of a weight element (R283). -/
def pairWbits (p : Nat) : Nat := match p with | 2 | 3 => 4 | 4 | 5 => 16 | 6 => 32 | _ => 8
/-- Bits of an activation element (R283). -/
def pairAbits (p : Nat) : Nat := match p with | 3 => 4 | 4 | 5 => 16 | 6 => 32 | _ => 8
/-- Scale bytes of a plane: one per block of 32 along K and column (R285). -/
def pairScaleBytes (p : Nat) : Nat := pairKp p / 32 * 128

/-- The indices after the given ones in nest order, level 1 fastest; i5 = COUNT(5) after the last pass (R290,
R294). -/
def nextIdx (t : List (BitVec 128)) (idx : List Nat) : List Nat :=
  let step := (List.range 5).foldl
    (fun (acc : List Nat × Bool) k =>
      let v := idx.getD k 0
      if acc.2 then
        if v + 1 < lvCount t (k + 1) || k == 4 then (acc.1 ++ [v + 1], false) else (acc.1 ++ [0], true)
      else (acc.1 ++ [v], false)) ([], true)
  step.1

/-- Whether the indices name no pass (R294). -/
def nestOver (t : List (BitVec 128)) (idx : List Nat) : Bool := decide (lvCount t 5 ≤ idx.getD 4 0)

/-- Whether a commit follows the pass at these indices (R290). -/
def commitsAt (t : List (BitVec 128)) (idx : List Nat) : Bool :=
  let top := if tabClvl t = 6 then 5 else tabClvl t - 1
  (List.range top).all fun k => idx.getD k 0 + 1 == lvCount t (k + 1)

/-- The indices IDX of a mark (R294). -/
def markIdx (m : BitVec 128) : List Nat := (List.range 5).map fun k => bits m (16 * k + 15) (16 * k)
def markCommits (m : BitVec 128) : Nat := bits m 95 80
def markValid (m : BitVec 128) : Bool := bitOf m 96
def markBank (m : BitVec 128) : Bool := bitOf m 97
/-- The mark of R294. -/
def mkMark (idx : List Nat) (commits : Nat) (valid bank : Bool) : BitVec 128 :=
  BitVec.ofNat 128 ((List.range 5).foldl (fun a k => a + idx.getD k 0 % 65536 * 2 ^ (16 * k)) 0
    + commits % 65536 * 2 ^ 80 + b2n valid * 2 ^ 96 + b2n bank * 2 ^ 97)

/-- The pass at which an entry's run starts: the pass its mark names, or the first one (R295). -/
def QRec.firstIdx (r : QRec) : List Nat := if markValid r.mark then markIdx r.mark else [0, 0, 0, 0, 0]

/-- The least and the greatest offset that a nest still has from the given indices on: the exact indices, and for
each level the later iterations with the levels below free (R296). -/
def offRange (t : List (BitVec 128)) (str : Nat → Int) (idx : List Nat) : Int × Int :=
  let here := nestOff str idx
  (List.range 5).foldl (fun (acc : Int × Int) k =>
    let c := lvCount t (k + 1)
    let v := idx.getD k 0
    if c ≤ v + 1 then acc else
    let above := (List.range 5).foldl (fun a j => if k < j then a + (idx.getD j 0 : Int) * str (j + 1) else a) 0
    let below := (List.range k).foldl (fun (a : Int × Int) j =>
      let e := ((lvCount t (j + 1) : Int) - 1) * str (j + 1)
      (a.1 + min 0 e, a.2 + max 0 e)) (0, 0)
    let x := ((v + 1 : Nat) : Int) * str (k + 1)
    let y := ((c - 1 : Nat) : Int) * str (k + 1)
    (min acc.1 (above + min x y + below.1), max acc.2 (above + max x y + below.2))) (here, here)

/-! ## What an in-flight entry reads (R296, R328) -/

/-- Whether an address lies in [lo, hi), modulo 2^64. -/
def inRange (a : Nat) (lo : Int) (len : Nat) : Bool :=
  decide (wrapTo 64 ((a : Int) - lo) < len)

/-- Whether a copy entry reads an address at or after its mark: its index table, or a source row (R328). -/
def copyReads (k : CopyKind) (r : QRec) (off : Nat → Int) (a : Nat) : Bool :=
  if k = .fill then false else
  (match copyTable k r.ops with
    | some t => inRange a (t + 8 * r.mrow : Nat) (8 * (cpC1 r.ops - r.mrow))
    | none => false) ||
  ((List.range (copyRows k r.ops - r.mrow)).any fun n =>
    let j := r.mrow + n
    let skip := if n = 0 then r.moff else 0
    let src := copySrc k r.ops j + off j
    if copyRed k r.ops = some .acc then
      inRange a (src + skip) (cpL0 r.ops - skip) ||
        inRange a (src + cpL0 r.ops + (skip / 8 : Nat)) (cpL0 r.ops / 8 - skip / 8)
    else inRange a (src + skip) (copyRowBytes k r.ops - skip))

/-- The adapter table of 32-byte entries: ROW0, ROWS, COLS, WBASE, WSCL, and the reserved bits (R301). -/
def parseAdapter (bs : List Byte) : Nat → List (List Nat)
  | 0 => []
  | n + 1 =>
    let w := fun k => natOfBytes ((bs.drop (8 * k)).take 8)
    [w 0 % 65536, w 0 / 2 ^ 16 % 65536, w 0 / 2 ^ 32 % 256, w 1, w 2, w 0 / 2 ^ 40 + w 3] ::
      parseAdapter (bs.drop 32) n

/-- Whether a nest reads an address at or after its mark (R296); a grouped nest's rows and planes are those its adapter
table names. -/
def nestReads (r : QRec) (grouped : Bool) (blocks : List (List Nat)) (a : Nat) : Bool :=
  let t := r.table
  let idx := r.firstIdx
  if nestOver t idx then false else
  let p := tabPair t
  let (alo, ahi) := offRange t (lvAstr t) idx
  let row := fun (i : Nat) => (i : Int) * lvAstr t 0
  let ends := if grouped then blocks.flatMap fun b => [b.getD 0 0, b.getD 0 0 + b.getD 1 0 - 1] else [0, tabNrow t - 1]
  let lo := alo + ends.foldl (fun m i => min m (row i)) (row (ends.headD 0))
  let hi := ahi + ends.foldl (fun m i => max m (row i)) (row (ends.headD 0))
  let (blo, bhi) := offRange t (lvBstr t) idx
  let plane := fun (w sc : Nat) =>
    inRange a (w + blo) ((bhi - blo).toNat + pairPlaneBytes p) ||
    (tabScl t && inRange a (sc + blo / pairQb p) ((bhi / pairQb p - blo / pairQb p).toNat + pairScaleBytes p))
  inRange a (tabAbase t + lo) ((hi - lo).toNat + pairRowBytes p) ||
  (tabScl t && inRange a (tabSa t + lo / pairQa p) ((hi / pairQa p - lo / pairQa p).toNat + pairKp p / 32)) ||
  (!tabHold t && !grouped && plane (tabBbase t) (tabSb t)) ||
  (grouped && (inRange a (tabGbase t) (32 * (tabNblk t + 1)) ||
    blocks.any fun b => plane (b.getD 3 0) (b.getD 4 0)))

/-- Whether a matrix entry reads an address at or after its mark (R296). -/
def matrixReads (r : QRec) (blocks : List (List Nat)) (a : Nat) : Bool :=
  match r.instr with
  | .mxgo => nestReads r false [] a
  | .mxgog => nestReads r true blocks a
  | .mxldw _ p => inRange a (r.op 0).toNat (pairPlaneBytes p.toNat)
  | .mxldwScaled _ _ p =>
    inRange a (r.op 0).toNat (pairPlaneBytes p.toNat) || inRange a (r.op 1).toNat (pairScaleBytes p.toNat)
  | _ => false

end Sys2Proof.Machine
end

