-- ==== Sys2Proof/Machine/Mem.lean ====
section
/-! DEFINITION. Memory as the agents see it: homes and publication (R193 to R201), the physical map (R73), page tables
(R78 to R82), leases (R83 to R90), windows (R66, R67), watermarks (R324), source guards (R296, R328), and the one
check of an access (R174). -/

namespace Sys2Proof.Machine

/-! ## Homes and what an agent sees -/

/-- The location of byte `off` of the pool of core g. -/
def poolLoc (g off : Nat) : Nat := 2 ^ 52 + g * 2 ^ 20 + off

/-- Whether a core sees bytes that are not at their home: it lies in the domain of their publication (R195), or an
engine operation wrote them. R208 lets another task see each granule of an unpublished engine write or not: the model
lets every core see it (assumption 6). -/
def Over.sees (o : Over) (g : Nat) : Bool :=
  o.eng.isSome ||
  match o.scope with
  | .core => o.core == g
  | .cluster => clusterOf o.core == clusterOf g
  | .die => dieOf o.core == dieOf g
  | .package | .system => true

/-- The newest narrow publication of a location that a core is in the domain of. -/
def overFind : List Over → Nat → Nat → Option Byte
  | [], _, _ => none
  | o :: os, g, n => if o.loc = n ∧ o.sees g then some o.byte else overFind os g n

/-- The newest value of a location that is visible to a core: of the values R199 allows, the model returns the
newest (assumption 6). -/
def State.vis (s : State) (g n : Nat) : Byte :=
  match overFind s.overlay g n with
  | some b => b
  | none => s.mem.get n

/-- Memory with several bytes written in order. -/
def Memory.setAll : Memory → List (Nat × Byte) → Memory
  | m, [] => m
  | m, (n, b) :: t => Memory.setAll (m.set n b) t

/-- Bytes that reach their homes, with what is then left on the way: a write of a whole granule clears its poison
(R403), and the monitors on the written lines see the write (R87). -/
def State.land (s : State) (cells : List (Nat × Byte)) (left : List Over) : State :=
  { s with
    mem := s.mem.setAll cells
    overlay := left
    poison := s.poison.filter fun g => !((List.range 64).all fun k => cells.any fun c => c.1 == 64 * g + k)
    armed := s.armed.map fun (e, hit) => (e, hit || cells.any fun c => c.1 / 128 == e / 128) }

/-! ### The host window of a device that does not bridge (R409) -/

/-- Whether a location lies in the host window (R73). -/
def hostLoc (n : Nat) : Bool := decide (0x8000000000000 ≤ n ∧ n < 0xC000000000000)

/-- Bytes at locations, in order, joined where one location follows the other: where each run begins, and its bytes. -/
def runsOf : List (Nat × Byte) → List (Nat × List Byte)
  | [] => []
  | (n, b) :: cs =>
    match runsOf cs with
    | (m, bs) :: rest => if m = n + 1 then (n, b :: bs) :: rest else (n, [b]) :: (m, bs) :: rest
    | [] => [(n, [b])]

/-- The flits that carry writes to the host window from a device that does not bridge to the one that does (R409), with the
queue and the generation whose work they are, or none for firmware's (R363). What the device holds of the window is a picture:
the bytes it wrote last and those it was last answered (assumption 94). -/
def State.hostFlits (s : State) (stamp : Option (Nat × BitVec 8)) (cells : List (Nat × Byte)) : List Flit :=
  if s.bridge then []
  else (runsOf (cells.filter fun c => hostLoc c.1)).map fun (n, bs) =>
    { dest := s.hostDev, body := .hostWrite s.devid stamp (n - 0x8000000000000) bs }

/-- Writes that leave for their home at the bridging device where they lie in the host window. -/
def State.carry (s : State) (stamp : Option (Nat × BitVec 8)) (cells : List (Nat × Byte)) : State :=
  { s with outbox := s.outbox ++ s.hostFlits stamp cells }

/-- The queue of a launch with its generation, which its writes and signals carry (R363). -/
def State.stampOf (s : State) (n : Nat) : Nat × BitVec 8 :=
  let q := (tget Launch.blank s.launches n).queue
  (q, (tget Queue.blank s.queues q).gen)

/-- Bytes on the way that leave for the bridging device. -/
def State.overFlits (s : State) (os : List Over) : List Flit :=
  ((os.map (·.stamp)).eraseDups).flatMap fun x =>
    s.hostFlits (some x) ((os.filter fun o => o.stamp == x).map fun o => (o.loc, o.byte))

/-- Whether a unit of a slot's task has been answered with the granule of a location. -/
def State.hostBack (s : State) (r : SlotRef) (unit loc : Nat) : Bool :=
  s.hostReqs.any fun q => q.back && q.uid == (s.slotAt r).uid && q.unit == unit && q.granule == loc / 64
/-- Whether a unit of a slot's task has asked for the granule of a location. -/
def State.hostAsked (s : State) (r : SlotRef) (unit loc : Nat) : Bool :=
  s.hostReqs.any fun q => q.uid == (s.slotAt r).uid && q.unit == unit && q.granule == loc / 64

/-- A request to the bridging device, under the next tag. -/
def State.hostCall (s : State) (r : SlotRef) (unit loc : Nat) (b : FlitBody) : State :=
  { s with
    hostReqs := s.hostReqs ++ [{ tag := s.hostTag, uid := (s.slotAt r).uid, core := r.core, slot := r.slot.val, unit := unit
                                 granule := loc / 64, back := false }]
    hostTag := s.hostTag + 1
    outbox := s.outbox ++ [{ dest := s.hostDev, body := b }] }

/-- A read of the host window goes to the bridging device (R409), once. -/
def State.askHost (s : State) (r : SlotRef) (unit loc : Nat) : State :=
  if s.hostAsked r unit loc then s
  else s.hostCall r unit loc (.hostRead s.devid s.hostTag (loc / 64 * 64 - 0x8000000000000) 64)

/-- A read that an engine entry waits for, asked; none where it has been asked already. -/
def State.askOnce (s : State) (r : SlotRef) (unit loc : Nat) : Option State :=
  if s.hostAsked r unit loc then none else some (s.askHost r unit loc)

/-- The access for which a unit of a slot's task asked is made: what it was answered serves no later one. -/
def State.doneHost (s : State) (r : SlotRef) (unit : Nat) : State :=
  { s with hostReqs := s.hostReqs.filter fun q => !(q.uid == (s.slotAt r).uid && q.unit == unit) }

/-- What a task that ends or stops has asked for: an answer that still comes finds nobody. -/
def State.dropHost (s : State) (uid : Nat) : State := { s with hostReqs := s.hostReqs.filter (·.uid != uid) }

/-- A write performed at its home (R192, R208): it follows every earlier value of its locations. -/
def State.homeWrite (s : State) (cells : List (Nat × Byte)) : State :=
  s.land cells (s.overlay.filter fun o => !(cells.any fun c => c.1 == o.loc))

/-- The bytes of a value at consecutive locations, little-endian (R7). -/
def cellsLE (n k v : Nat) : List (Nat × Byte) := (List.range k).map fun j => (n + j, BitVec.ofNat 8 (v / 2 ^ (8 * j)))

/-- A value written at its home. -/
def State.poke (s : State) (n k v : Nat) : State := s.homeWrite (cellsLE n k v)

/-- A write of firmware's, which carries no generation (R192, R363). -/
def State.firmWrite (s : State) (cells : List (Nat × Byte)) : State := (s.homeWrite cells).carry none cells

/-- A value of k bytes as the homes hold it: a firmware read (R192), which sees package scope. -/
def State.peek (s : State) (n k : Nat) : Nat := natOfBytes ((List.range k).map fun j => s.mem.get (n + j))

/-- The bytes that a test names are gone and every older one of the same locations with them. -/
def dropBy (p : Over → Bool) : List Over → List Nat → List Over
  | [], _ => []
  | o :: os, seen =>
    if p o then dropBy p os (o.loc :: seen)
    else if seen.contains o.loc then dropBy p os seen
    else o :: dropBy p os seen

/-- The bytes on the way that a test names reach their homes, the oldest first (R198, R201). -/
def State.flushBy (s : State) (p : Over → Bool) : State :=
  let out := s.overlay.reverse.filter p
  { s.land (out.map fun o => (o.loc, o.byte)) (dropBy p s.overlay []) with outbox := s.outbox ++ s.overFlits out }

/-- Everything a task has on the way reaches its home (R198, R235). -/
def State.flushOwn (s : State) (uid : Nat) : State := s.flushBy (·.uid == uid)

/-- What a task that is stopped or restarted has on the way reaches its home, but for its engine writes that are not
published: its fetches do not see those (R188), and no save publishes them (R196). No fetch reads a pool, so that those in a
pool may land with it. -/
def State.flushStopped (s : State) (uid : Nat) : State :=
  s.flushBy fun o => o.uid == uid && (o.eng.isNone || decide (2 ^ 52 ≤ o.loc))

/-- Whether bytes on the way were written by an engine operation of the slot's task that it has joined (R197, R207). -/
def Slot.joinedHere (l : Slot) (o : Over) : Bool :=
  o.uid == l.uid && l.hidden.any fun h => h.joined && h.loc == o.loc && o.eng == some (h.queue, h.ord)

/-- What a refresh point does (R200): the values read so far no longer bind. -/
def Slot.refresh (l : Slot) : Slot := { l with snap := [] }

/-- A publication of a slot's pending stores and of the engine writes it has joined at a scope (R195 to R198), which is
also a refresh point. Of the two values that R209 leaves to a granule which the task has stored to before it joined its own
engine operation's write, the model takes the store's: the pending store follows the engine's write (DESIGN CHOICE, assumption
101). At a scope narrower than the package the engine writes, which every core sees already, stay visible
to every core (R201). -/
def State.publishAt (s : State) (r : SlotRef) (sc : Scope) : State :=
  let l := s.slotAt r
  let s1 : State :=
    match sc with
    | .package | .system =>
      ((s.flushBy fun o => (o.uid == l.uid && o.eng.isNone) || l.joinedHere o).homeWrite l.pend).carry
        (some (s.stampOf l.launch)) l.pend
    | _ => { s with overlay := (l.pend.map fun c => (⟨l.uid, sc, r.core, c.1, c.2, none, s.stampOf l.launch⟩ : Over)) ++
        s.overlay.map fun o => if l.joinedHere o then { o with eng := none, scope := .package } else o }
  s1.modSlot r fun l => { l with pend := [] }.refresh

/-- A 64-byte granule as a core sees it. -/
def State.granule (s : State) (g n : Nat) : BitVec 512 :=
  BitVec.ofNat 512 (natOfBytes ((List.range 64).map fun k => s.vis g (64 * n + k)))

/-- The byte at a location as the task of a slot reads it: its own pending store, else what it has read of the
granule since its last refresh point, else the newest visible value (R199 to R201). -/
def State.readByte (s : State) (r : SlotRef) (n : Nat) : Byte :=
  let l := s.slotAt r
  if tmem l.pend n then tget 0 l.pend n
  else if tmem l.snap (n / 64) then BitVec.ofNat 8 ((tget 0 l.snap (n / 64)).toNat / 2 ^ (8 * (n % 64)))
  else s.vis r.core n

/-- The value of k bytes as the task of a slot reads it. -/
def State.readBytes (s : State) (r : SlotRef) (n k : Nat) : Nat :=
  natOfBytes ((List.range k).map fun j => s.readByte r (n + j))

/-- A read by a task keeps the granule it read (R200, R201). -/
def State.noteRead (s : State) (r : SlotRef) (n : Nat) : State :=
  if tmem (s.slotAt r).snap (n / 64) then s
  else s.modSlot r fun l => { l with snap := tset l.snap (n / 64) (s.granule r.core (n / 64)) }

/-- The byte at a location as an engine operation of a slot reads it (R206): the slot's store buffer as it stands,
else the newest visible value. -/
def State.engByte (s : State) (r : SlotRef) (n : Nat) : Byte :=
  let l := s.slotAt r
  if tmem l.pend n then tget 0 l.pend n else s.vis r.core n

/-- What a slot has read of the granules that a test names is read anew, each granule whole: a later value of it has been
read or written for its task, and no load returns an earlier one or a mixture (R201 and R203 stand above R200 here:
assumption 82). -/
def State.rereadBy (s : State) (r : SlotRef) (p : Nat → Bool) : State :=
  s.modSlot r fun l => { l with snap := l.snap.map fun e => if p e.1 then (e.1, s.granule r.core e.1) else e }

/-- An engine write of bytes given by address, location and value (R208): the bytes are visible and reach their homes
when they are published; the task's own reads of their granules return what is visible now (R209), and its fetches do not see
the bytes until then (R188). -/
def State.engWrite (s : State) (r : SlotRef) (queue ord : Nat) (cells : List (Nat × Nat × Byte)) : State :=
  let u := (s.slotAt r).uid
  let flat := cells.map fun c => (c.2.1, c.2.2)
  let hid : List Hidden := cells.map fun (a, n, _) =>
    { addr := a, loc := n, queue := queue, ord := ord, joined := false, top := true }
  let stamp := s.stampOf (s.slotAt r).launch
  let fresh : List Over := flat.map fun (n, b) => ⟨u, .package, r.core, n, b, some (queue, ord), stamp⟩
  ({ s with overlay := fresh.reverse ++ s.overlay }.rereadBy r fun g => flat.any fun c => c.1 / 64 == g).modSlot r fun l =>
    { l with hidden := hid.reverse ++ l.hidden }

/-- A join of the operations that a test names (R207). -/
def Slot.join (l : Slot) (f : Hidden → Bool) : Slot :=
  { l with hidden := l.hidden.map fun h => if f h then { h with joined := true } else h }

/-- The bytes on the way that an instruction fetch of a slot may see (R188): not the task's unpublished engine writes. -/
def State.fetchOver (s : State) (r : SlotRef) : List Over :=
  s.overlay.filter fun o => !(o.uid == (s.slotAt r).uid && o.eng.isSome)

/-- The byte at a location as an instruction fetch of a slot returns it (R188): without the task's pending stores and
without its unpublished engine writes. -/
def State.fetchByte (s : State) (r : SlotRef) (n : Nat) : Byte :=
  (overFind (s.fetchOver r) r.core n).getD (s.mem.get n)

/-- The granules a store buffer holds (R193). -/
def granules (p : Table Byte) : List Nat := (p.map fun c => c.1 / 64).eraseDups

/-! ## The physical map (R73) -/

/-- The regions that a page-table entry can name (R80). -/
inductive Region | near | far | host
  deriving DecidableEq, Repr

/-- The region of a physical address; none for a hole, for memory that is not fitted, and for device registers. -/
def State.region (s : State) (pa : Nat) : Option Region :=
  if pa < 0x600000000 then some .near
  else if 0x10000000000 ≤ pa ∧ pa < 0x28000000000 then
    let o := pa - 0x10000000000
    if o % 0x1800000000 < (s.farcap.getD (o / 0x1800000000) 0).toNat * 2 ^ 30 then some .far else none
  else if 0x8000000000000 ≤ pa ∧ pa < 0xC000000000000 then some .host
  else none

/-- The compute die whose controllers are the home of a near or far location (R74). -/
def homeDie (pa : Nat) : Nat :=
  if pa < 0x600000000 then pa / 0xC0000000 else (pa - 0x10000000000) / 0x1800000000 / 2

/-- The homes of the system that a queue fence reaches (R364): the near-memory controllers, the far channels, the
host bridge and the pool ports of each die. -/
def homeCount : Nat := 33

/-! ## Page tables (R78 to R82) -/

/-- The outcome of a walk: the entry, where it lies, the first page it maps and how many; or where the invalid entry
lies. -/
inductive Walk
  | ok (pte : W64) (at_ vpn pages : Nat)
  | invalid (entry : Nat)
  deriving DecidableEq, Repr

/-- Whether a physical address lies in the region that an entry's TYPE names (R80, R81). -/
def State.inType (s : State) (e : W64) (pa : Nat) : Bool :=
  let r := s.region pa
  match bits e 8 7 with
  | 0 => r == some .near
  | 1 => r == some .far
  | 2 => r == some .host
  | _ => false

/-- Whether the region named by TYPE is the one the PPN lies in (R81). -/
def State.typeOk (s : State) (e : W64) : Bool := s.inType e (bits e 51 16 * 65536)

/-- Whether an entry points to the next table (R80). -/
def pteTable (e : W64) : Bool := bits e 3 1 == 0

/-- Whether the walker treats an entry at a level as invalid (R81): level 0 is the top. -/
def State.pteBad (s : State) (level : Nat) (e : W64) : Bool :=
  !(bitOf e 0) || bits e 15 9 != 0 || !(s.typeOk e) || (bitOf e 2 && !(bitOf e 1)) ||
  (pteTable e && level == 2) ||
  (!(pteTable e) && level == 1 && bits e 28 16 != 0) ||
  (!(pteTable e) && level == 0 && bits e 41 16 != 0)

/-- The walk of a translated address (R78), reading entries from their homes (R82). -/
def State.walk (s : State) (root : W64) (va : Nat) : Walk :=
  let a0 := bits root 51 16 * 65536 + 8 * (va / 2 ^ 42 % 8192)
  let e0 := w64 (s.peek a0 8)
  if s.pteBad 0 e0 then .invalid a0
  else if !(pteTable e0) then .ok e0 a0 (va / 2 ^ 42 % 8192 * 2 ^ 26) (2 ^ 26)
  else
    let a1 := bits e0 51 16 * 65536 + 8 * (va / 2 ^ 29 % 8192)
    let e1 := w64 (s.peek a1 8)
    if s.pteBad 1 e1 then .invalid a1
    else if !(pteTable e1) then .ok e1 a1 (va / 2 ^ 29 % 2 ^ 26 * 2 ^ 13) (2 ^ 13)
    else
      let a2 := bits e1 51 16 * 65536 + 8 * (va / 2 ^ 16 % 8192)
      let e2 := w64 (s.peek a2 8)
      if s.pteBad 2 e2 then .invalid a2
      else .ok e2 a2 (va / 2 ^ 16 % 2 ^ 39) 1

/-- The physical address that an entry gives for a virtual address. -/
def ptePa (e : W64) (pages va : Nat) : Nat :=
  bits e 51 16 * 65536 / (pages * 65536) * (pages * 65536) + va % (pages * 65536)

/-- Whether the upper bits of a translated address are canonical (R66). -/
def canonical (va : Nat) : Bool := va / 2 ^ 54 == 0 || va / 2 ^ 54 == 1023

/-- Whether an address is in the local or the sibling window (R66). -/
def isWindow (va : Nat) : Bool := va / 2 ^ 52 == 0xFFF || va / 2 ^ 52 == 0xFFE

/-- A translation of firmware through a context's tables (R192, R416): the physical address if the entry is valid
and grants the permission; `perm` is 1 for R, 2 for W. An address that a valid block entry maps outside the region its
TYPE names cannot be read or written (assumption 80). Such an access sets neither A nor D (assumption 81). -/
def State.fwTranslate (s : State) (root : W64) (va perm : Nat) : Option Nat :=
  if isWindow va || !(canonical va) then none else
  match s.walk root va with
  | .ok e _ _ pages => if bitOf e perm && s.inType e (ptePa e pages va) then some (ptePa e pages va) else none
  | .invalid _ => none

/-- A firmware read of k bytes through a context's tables; none where a byte cannot be read (R39, R84). -/
def State.fwRead (s : State) (root : W64) (va k : Nat) : Option Nat :=
  let locs := (List.range k).map fun j => s.fwTranslate root (va + j) 1
  if locs.all Option.isSome && !(locs.any fun l => s.poison.contains (l.getD 0 / 64)) then
    some (natOfBytes (locs.map fun l => s.mem.get (l.getD 0)))
  else none

/-- A firmware write of k bytes through a context's tables; bytes without a mapping are not written. -/
def State.fwWrite (s : State) (root : W64) (va k v : Nat) : State :=
  s.firmWrite ((cellsLE va k v).filterMap fun c => (s.fwTranslate root c.1 2).map fun l => (l, c.2))

/-- A core's TLB entry for a page (R82). -/
def Core.tlbFind (c : Core) (va : Nat) : Option TlbEntry :=
  c.tlb.find? fun e => decide (e.vpn ≤ va / 65536 % 2 ^ 39 ∧ va / 65536 % 2 ^ 39 < e.vpn + e.pages)

/-- A core with a translation in its TLB; the oldest of 1,024 makes room (R82 gives no order: assumption 7). -/
def Core.tlbAdd (c : Core) (e : TlbEntry) : Core := { c with tlb := (e :: c.tlb).take Config.tlbEntries }

/-! ## Leases (R83 to R90) -/

/-- What an access needs (R86). -/
inductive Access | read | write | both | fetch
  deriving DecidableEq, Repr

/-- Whether an access writes. -/
def Access.writes : Access → Bool
  | .write | .both => true
  | _ => false
/-- Whether an access reads data. -/
def Access.reads : Access → Bool
  | .read | .both => true
  | _ => false

/-- The leases that hold an address. -/
def covering (ls : List Lease) (va : Nat) : List Lease :=
  ls.filter fun l => decide (l.base.toNat ≤ va ∧ va < l.base.toNat + l.pages * 65536)

/-- Whether leases permit an access of an address, their permissions combined by OR (R84, R86). -/
def leaseOk (ls : List Lease) (va : Nat) (k : Access) : Bool :=
  let c := covering ls va
  match k with
  | .read => !c.isEmpty
  | .write | .both => c.any (·.lw)
  | .fetch => c.any (·.lx)

/-- Whether every lease that holds an address is a demand lease (R87; assumption 8 where leases overlap). -/
def leaseDemand (ls : List Lease) (va : Nat) : Bool := (covering ls va).all (·.demand)

/-- Whether an entry permits an access (R86). -/
def pteOk (e : W64) (k : Access) : Bool :=
  match k with
  | .read => bitOf e 1
  | .write => bitOf e 2
  | .both => bitOf e 1 && bitOf e 2
  | .fetch => bitOf e 3

/-! ## Watermarks and guards -/

/-- The state field of a watermark register (R321). -/
def Wm.state (w : Wm) : Nat := bits w.stat 2 0

/-- An address of core g in the form in which footprints are compared: its own pool has one name. -/
def ownVa (g va : Nat) : Nat :=
  if va / 2 ^ 52 = 0xFFE ∧ va / 2 ^ 20 % 2 ^ 32 = g % 4 then 0xFFF * 2 ^ 52 + va % 2 ^ 20 else va

/-- What a watermark register of core g says to an access of n bytes at an address (R175, R324): 0 nothing, 1 stall,
2 frozen. -/
def Wm.holds (w : Wm) (g va n : Nat) : Nat :=
  let lo := ownVa g w.lo.toNat
  let hi := lo + wrapTo 64 ((w.hi.toNat : Int) - w.lo.toNat)
  let wm := lo + wrapTo 64 ((w.wm.toNat : Int) - w.lo.toNat)
  let a := ownVa g va
  if decide (Nat.max (Nat.max a lo) wm < Nat.min (a + n) hi) then
    (match w.state with | 1 => 1 | 3 => 2 | _ => 0)
  else 0

/-- Whether a watermark register of core g has passed an address of its footprint (R207). -/
def Wm.passed (w : Wm) (g va : Nat) : Bool :=
  let lo := ownVa g w.lo.toNat
  let hi := lo + wrapTo 64 ((w.hi.toNat : Int) - w.lo.toNat)
  let wm := lo + wrapTo 64 ((w.wm.toNat : Int) - w.lo.toNat)
  let a := ownVa g va
  decide (lo ≤ a ∧ a < hi ∧ a < wm)

/-- What the watermark registers of a core say to an access, but for one that is left out. Where several of them hold it
(R174, R175 and R324 give no precedence), the one with the lowest number decides (DESIGN CHOICE, assumption 101). -/
def Core.wmHolds (c : Core) (g va n : Nat) (except_ : Option Nat) : Nat :=
  (List.range 8).foldl (fun acc k =>
    if except_ = some k then acc else
    let h := (c.wms.toList.getD k Wm.reset).holds g va n
    if acc = 0 then h else acc) 0

/-- The addresses by which the entries of core h name byte `off` of the pool of core g (R66, R296). -/
def poolNames (h g off : Nat) : List Nat :=
  (if h = g then [0xFFF * 2 ^ 52 + off] else []) ++
  (if clusterOf h = clusterOf g then [0xFFE * 2 ^ 52 + g % 4 * 2 ^ 20 + off] else [])

/-- Where an address of a task leads, with no check and no effect; none where no entry maps it. -/
def State.quietLoc (s : State) (r : SlotRef) (va : Nat) : Option Nat :=
  if va / 2 ^ 52 = 0xFFF then some (poolLoc r.core (va % 2 ^ 20))
  else if va / 2 ^ 52 = 0xFFE then some (poolLoc (r.core / 4 * 4 + va / 2 ^ 20 % 4) (va % 2 ^ 20))
  else s.fwTranslate (s.queueOf r).troot va 1

/-- Bytes of a task's memory as its engine operations would read them now, with no check and no effect. -/
def State.quietBytes (s : State) (r : SlotRef) (va n : Nat) : List Byte :=
  (List.range n).map fun j => match s.quietLoc r ((va + j) % 2 ^ 64) with
    | some loc => s.engByte r loc
    | none => 0

/-- Whether an in-flight entry of a core guards an address of a pool (R296, R328). What an index table or an adapter
table names is read from memory as the issuing slot sees it. -/
def State.entryGuards (s : State) (h : Nat) (a : Nat) : Bool :=
  let c := s.core h
  (c.mq.recs.any fun r => r.st != .ended &&
    matrixReads r (match r.instr with
      | .mxgog => parseAdapter (s.quietBytes ⟨h, r.slot⟩ (tabGbase r.table) (32 * (tabNblk r.table + 1)))
          (tabNblk r.table + 1)
      | _ => []) a) ||
  (c.cq.recs.any fun r => r.st != .ended &&
    match copyKindOf r.instr with
    | some .prefetch => false
    | some .gather =>
      copyReads .gather r (fun j => signedOf 64 (natOfBytes (s.quietBytes ⟨h, r.slot⟩ ((r.op 3).toNat + 8 * j) 8))) a
    | some k => copyReads k r (fun _ => 0) a
    | none => false)

/-- Whether a store to n bytes from byte `off` of the pool of core g is held by a source guard (R296, R328). -/
def State.guarded (s : State) (g off n : Nat) : Bool :=
  (List.range 4).any fun k =>
    let h := g / 4 * 4 + k
    (List.range n).any fun j => (poolNames h g (off + j)).any fun a => s.entryGuards h a

/-- Whether a task's own store to n bytes at a window address is held by a vector load it has issued that still reads one of
them (R206). The vector load that runs has read its bytes. -/
def State.vecGuarded (s : State) (r : SlotRef) (va n : Nat) : Bool :=
  let c := s.core r.core
  let a := ownVa r.core va
  (c.vq.recs.drop (if c.vrun.isSome then 1 else 0)).any fun q => q.uid == (s.slotAt r).uid &&
    q.guard.any fun p => decide (ownVa r.core p.1 < a + n ∧ a < ownVa r.core p.1 + p.2)

/-! ## The check of an access (R174) -/

/-- What a check of steps 2 to 7 of R174 comes to; a stall says whether a watermark makes it (R351). `away` is a read of the
host window, for which the unit named must first be answered by the bridging device (R409). -/
inductive Check
  | ok (loc : Nat) (s : State)
  | trap (c : Cause)
  | park (entry : Nat)
  | stall (wm : Bool)
  | away (loc unit : Nat)

/-- How the unit that makes an access departs from a task's own: a CPT may reach far memory in D2 (R77), a copy is
not held by its own watermark (R331), the access unit of a copy's own core makes no watermark check of its landings
(R324), an engine's access is held by any of its bytes, a vector entry's by any byte of the granule and a task's by its address (R175, R262, R298), only scalar and vector stores and
atomics are held by source guards (R296, R328), `unit` is the slot's unit as HostReq has it, and a fetch, a CBO, LAUNCH or SEM.ARM makes no step 6 or 7. -/
structure Mode where
  late : Bool
  wide : Bool
  granule : Bool
  cpt : Bool
  skipWm : Bool
  ownWm : Option Nat
  guards : Bool
  unit : Nat

/-- The mode of a task's own access. -/
def Mode.task : Mode := { late := true, wide := false, granule := false, cpt := false, skipWm := false, ownWm := none, guards := true, unit := 0 }
/-- The mode of a check that stops after step 5. -/
def Mode.early : Mode := { Mode.task with late := false }

/-- Whether n bytes of a pool from an offset lie in one region that the window reaches (R60, R67). -/
def Core.regionOk (c : Core) (sibling : Bool) (off n : Nat) : Bool :=
  (decide (c.b0.toNat * 16384 ≤ off ∧ off + n ≤ c.b1.toNat * 16384)) ||
  (!sibling && decide (c.b2.toNat * 16384 ≤ off ∧ off + n ≤ 1048576))

/-- A degraded pool pins the line of a scratchpad access (R65): none where its set has all 8 ways pinned. -/
def State.pin (s : State) (g off : Nat) : Option State :=
  let c := s.core g
  if !c.degraded || decide (c.b1.toNat * 16384 ≤ off) then some s else
  let line := off / 128
  let nsets := (c.b2.toNat - c.b0.toNat) * 16
  if c.pinned.contains line then some s
  else if decide (8 ≤ (c.pinned.filter fun l => l % nsets == line % nsets).length) then none
  else
    let s1 := s.modCore g fun c => { c with pinned := line :: c.pinned }
    some (s1.homeWrite (cellsLE (poolLoc g (line * 128)) 128 0))

/-- Whether a slot is a sibling of a task: of its group, or for a task of no group (assumption 85) of its launch (R41, R42). -/
def Slot.mate (me l : Slot) : Bool := if me.group.isSome then l.group == me.group else l.launch == me.launch

/-- Whether the sibling's slot has not issued its first instruction, also after a core reset (R42, R359), or the sibling
core is being saved or has been saved with the group (R59). -/
def State.siblingIdle (s : State) (r : SlotRef) (g : Nat) : Bool :=
  let me := s.slotAt r
  decide (g ≠ r.core) &&
  (((s.core g).slots.toList.any fun l => (l.occ || l.held) && me.mate l && !l.started) ||
  (s.core g).saving ||
  s.saved.any fun v => v.core % 4 == g % 4 && v.queue == (s.launchOf r).queue &&
    (v.slots ++ v.held).any fun x => me.mate x.2)

/-- Whether a slot reads n bytes at a location without the home's value, so that a poisoned granule there is not read:
each byte comes from its store buffer or from bytes on the way (R199, R403). -/
def State.coveredHere (s : State) (r : SlotRef) (loc n : Nat) : Bool :=
  (List.range n).all fun j => tmem (s.slotAt r).pend (loc + j) || (overFind s.overlay r.core (loc + j)).isSome

/-- Steps 6 and 7 of R174 for n bytes at a location: the sibling's start, watermarks, the source guard, and a soft
error in data read; a read of the host window on a device that does not bridge waits for its answer (R409), which a task's own
access then uses up. `port` is the core whose pool port the access arrives at from a sibling. Where a landing register of the
own core and a frozen one at the port both hold the access, the landing one decides (DESIGN CHOICE, assumption 101). -/
def State.checkLate (s : State) (r : SlotRef) (va loc n : Nat) (port : Option (Nat × Nat)) (k : Access) (m : Mode) :
    Check :=
  if !m.late then .ok loc s else
  let idle := match port with | some (g, _) => s.siblingIdle r g | none => false
  if idle then .stall false else
  let back := if m.granule then va % 64 else 0
  let len := if m.granule then 64 else if m.wide then n else 1
  let own := if m.skipWm then 0 else (s.core r.core).wmHolds r.core (va - back) len m.ownWm
  let far := match port with
    | some (g, off) => (s.core g).wmHolds g (0xFFF * 2 ^ 52 + off - back) len none
    | none => 0
  if own = 2 || (own = 0 && far = 2) then .trap .wmFrozen
  else if own = 1 || far = 1 then .stall true
  else if m.guards && k.writes && decide (2 ^ 52 ≤ loc) &&
      (s.guarded ((loc - 2 ^ 52) / 2 ^ 20) ((loc - 2 ^ 52) % 2 ^ 20) n || (!m.granule && s.vecGuarded r va n)) then
    .stall false
  else if k = .read && !s.bridge && hostLoc loc && !(s.hostBack r m.unit loc) && !(s.coveredHere r loc n) then
    .away loc m.unit
  else if k.reads && s.poison.contains (loc / 64) && !(s.coveredHere r loc n) then .trap .uncorrectable
  else .ok loc (if k = .read ∧ m.unit = 0 ∧ hostLoc loc then s.doneHost r 0 else s)

/-- The location and the TLB of a translated access whose entry permits it: A is set, and D for a write, by OR at the
entry's home (R81). Only the entry that maps the page is set, not the entries that point to tables (assumption 81). -/
def State.touch (s : State) (g : Nat) (e : W64) (pteAt : Nat) (k : Access) : State :=
  let want := e ||| (if k.writes then 0x30 else 0x10)
  if want = e then s
  else
    let s1 := s.homeWrite [(pteAt, s.mem.get pteAt ||| (want.setWidth 8 &&& 0x30))]
    s1.modCore g fun c => { c with tlb := c.tlb.map fun t => if t.pteAt = pteAt then { t with pte := t.pte ||| (want &&& 0x30) } else t }

/-- Steps 3 to 7 of R174 for a translated address. An access that a valid block entry maps outside the region its TYPE
names, a hole included, is not within its lease: LEASE (assumption 80). -/
def State.checkTranslated (s : State) (r : SlotRef) (va n : Nat) (k : Access) (m : Mode) : Check :=
  let l := s.launchOf r
  if !(canonical va) || !(leaseOk l.leases va k) then .trap .lease else
  let root := (s.queue l.queue).troot
  let found : Walk :=
    match (s.core r.core).tlbFind va with
    | some t => .ok t.pte t.pteAt t.vpn t.pages
    | none => s.walk root va
  match found with
  | .invalid entry => if leaseDemand l.leases va then .park entry else .trap .lease
  | .ok e at_ vpn pages =>
    let pa := ptePa e pages va
    if !(pteOk e k) || !(s.inType e pa) then .trap .lease else
    if l.det = 2 && !m.cpt && decide (s.region pa ≠ some .near) then .trap .determinism else
    let s1 := if ((s.core r.core).tlbFind va).isSome then s
      else s.modCore r.core (·.tlbAdd { vpn := vpn, pages := pages, pte := e, pteAt := at_ })
    (s1.touch r.core e at_ k).checkLate r va pa n none k m

/-- Steps 2 to 7 of R174 for n bytes that lie in one 64-byte granule (R66, R67, R42). -/
def State.check (s : State) (r : SlotRef) (va n : Nat) (k : Access) (m : Mode) : Check :=
  if va / 2 ^ 52 = 0xFFF then
    let off := va % 2 ^ 20
    if k = .fetch || va / 2 ^ 20 % 2 ^ 32 ≠ 0 || !((s.core r.core).regionOk false off n) then .trap .poolRange
    else match s.pin r.core off with
      | none => .trap .poolPin
      | some s1 => s1.checkLate r va (poolLoc r.core off) n none k m
  else if va / 2 ^ 52 = 0xFFE then
    let off := va % 2 ^ 20
    let g := r.core / 4 * 4 + va / 2 ^ 20 % 4
    if k = .fetch || va / 2 ^ 22 % 2 ^ 30 ≠ 0 || !(s.launchOf r).cgran || !((s.core g).regionOk true off n) then
      .trap .poolRange
    else match s.pin g off with
      | none => .trap .poolPin
      | some s1 => s1.checkLate r va (poolLoc g off) n (if g = r.core then none else some (g, off)) k m
  else s.checkTranslated r va n k m

end Sys2Proof.Machine
end

