-- ==== Sys2Proof/Machine/Flags.lean ====
section
/-! DEFINITION. The five floating-point flags: their order (R102), their merge into FPCTL (R100, R123, R169), the traps
they enable (R102), and the rounding mode and flush bits an instruction takes from FPCTL (R99, R101). -/

namespace Sys2Proof.Machine

/-- A set of flags in the order of FPCTL [20:16] (R102): bit 0 NV, 1 DZ, 2 OF, 3 UF, 4 NX. -/
abbrev Fl := BitVec 5

/-- The flags by name. -/
def flNV : Fl := 1
def flDZ : Fl := 2
def flOF : Fl := 4
def flUF : Fl := 8
def flNX : Fl := 16

/-- A flag raised when a condition holds. -/
def flIf (c : Bool) (f : Fl) : Fl := if c then f else 0

/-- Flags ORed into FPCTL (R123, R169). -/
def mergeFlags (fpctl : W64) (f : Fl) : W64 := fpctl ||| (f.setWidth 64 <<< 16)

/-- The raised flags whose enable bits are 1 (R102): FPCTL [28:24]. -/
def enabledFlags (fpctl : W64) (f : Fl) : Fl := f &&& BitVec.ofNat 5 (bits fpctl 28 24)

/-- The rounding mode of FPCTL.RM (R100). -/
def rmOf (n : Nat) : RMode :=
  match n with
  | 1 => .rtz
  | 2 => .rdn
  | 3 => .rup
  | 4 => .rna
  | _ => .rne

/-- The mode in force: the field's own, or FPCTL.RM when it is dynamic (R99, R169). -/
def Slot.mode (l : Slot) (r : Rnd) : RMode :=
  match r with
  | .dyn => rmOf (bits l.fpctl 2 0)
  | .rne => .rne
  | .rtz => .rtz
  | .rdn => .rdn
  | .rup => .rup
  | .rna => .rna

/-- The six flush bits as FPCTL [8:3] holds them (R100, R346). -/
abbrev Flush := BitVec 6

/-- The operand flush bit of a format (R100). -/
def flushIn (z : Flush) (f : FFmt) : Bool :=
  match f with
  | .f32 => z.getLsbD 0
  | .bf16 => z.getLsbD 2
  | .f16 => z.getLsbD 4
/-- The result flush bit of a format (R100). -/
def flushOut (z : Flush) (f : FFmt) : Bool :=
  match f with
  | .f32 => z.getLsbD 1
  | .bf16 => z.getLsbD 3
  | .f16 => z.getLsbD 5
/-- The flush bits of a slot. -/
def Slot.flush (l : Slot) : Flush := BitVec.ofNat 6 (bits l.fpctl 8 3)

end Sys2Proof.Machine
end

