-- ==== Sys2Proof/Machine/Numbers.lean ====
section
/-! DEFINITION. The number formats and exact arithmetic of chapter "Number formats": IEEE formats and rounding (R96 to
R104), TF8 (R105 to R108), scales and blocks (R109 to R111), and ACC128 (R113 to R117). -/

namespace Sys2Proof.Machine

/-! ## Exact values -/

/-- An exact value: (-1)^neg * m * 2^e, an infinity, or a NaN that may be signalling. -/
inductive Num
  | fin (neg : Bool) (m : Nat) (e : Int)
  | inf (neg : Bool)
  | nan (signalling : Bool)
  deriving DecidableEq, Repr

/-- Exponent and fraction bits of a format (R96). -/
structure Fmt where
  ebits : Nat
  fbits : Nat
  deriving DecidableEq, Repr

/-- The three formats (R96). -/
def fmtOf (f : FFmt) : Fmt :=
  match f with
  | .f32 => ⟨8, 23⟩
  | .bf16 => ⟨8, 7⟩
  | .f16 => ⟨5, 10⟩

/-- The width of a format. -/
def Fmt.width (f : Fmt) : Nat := 1 + f.ebits + f.fbits
/-- The exponent bias. -/
def Fmt.bias (f : Fmt) : Nat := 2 ^ (f.ebits - 1) - 1
/-- The least normal exponent. -/
def Fmt.emin (f : Fmt) : Int := 1 - (f.bias : Int)
/-- The canonical NaN (R98). -/
def Fmt.canonNan (f : Fmt) : Nat := (2 ^ f.ebits - 1) * 2 ^ f.fbits + 2 ^ (f.fbits - 1)
/-- An infinity. -/
def Fmt.infBits (f : Fmt) (neg : Bool) : Nat := b2n neg * 2 ^ (f.width - 1) + (2 ^ f.ebits - 1) * 2 ^ f.fbits
/-- The largest finite magnitude, with a sign. -/
def Fmt.maxBits (f : Fmt) (neg : Bool) : Nat := Fmt.infBits f neg - 1
/-- A zero with a sign. -/
def Fmt.zeroBits (f : Fmt) (neg : Bool) : Nat := b2n neg * 2 ^ (f.width - 1)

/-- The value of the bits of a format; an operand flush reads a subnormal as a zero of its sign (R96, R101). -/
def Fmt.read (f : Fmt) (flush : Bool) (n : Nat) : Num :=
  let neg := n / 2 ^ (f.width - 1) % 2 == 1
  let e := n / 2 ^ f.fbits % 2 ^ f.ebits
  let m := n % 2 ^ f.fbits
  if e = 2 ^ f.ebits - 1 then
    if m = 0 then .inf neg else .nan (m < 2 ^ (f.fbits - 1))
  else if e = 0 then .fin neg (if flush then 0 else m) (f.emin - f.fbits)
  else .fin neg (m + 2 ^ f.fbits) (f.emin - f.fbits + (e : Int) - 1)

/-- Whether a discarded part makes a magnitude round up: `rem` of 2^k units was cut off, and more when sticky
(R99). -/
def roundsUp (r : RMode) (neg odd : Bool) (rem k : Nat) (sticky : Bool) : Bool :=
  let some_ := rem != 0 || sticky
  let half := if k = 0 then false else decide (2 ^ (k - 1) ≤ rem)
  let past := if k = 0 then false else decide (2 ^ (k - 1) < rem) || (half && sticky)
  match r with
  | .rne => past || (half && odd)
  | .rna => half
  | .rtz => false
  | .rdn => neg && some_
  | .rup => !neg && some_

/-- A magnitude m * 2^e cut at 2^q: the kept part rounded, and whether anything was lost. -/
def cutAt (r : RMode) (neg : Bool) (m : Nat) (e q : Int) (sticky : Bool) : Nat × Bool :=
  if q ≤ e then
    let k := m * 2 ^ (e - q).toNat
    (k + b2n (roundsUp r neg (k % 2 == 1) 0 0 sticky), sticky)
  else
    let c := (q - e).toNat
    let k := m / 2 ^ c
    let rem := m % 2 ^ c
    (k + b2n (roundsUp r neg (k % 2 == 1) rem c sticky), rem != 0 || sticky)

/-- Round of R13 for a nonzero exact magnitude m * 2^e, or one just above it when sticky: the bits and the flags
(R99, R101); tininess is detected after rounding. -/
def Fmt.round (f : Fmt) (r : RMode) (flush neg : Bool) (m : Nat) (e : Int) (sticky : Bool) : Nat × Fl :=
  if m = 0 && !sticky then (f.zeroBits neg, 0) else
  let top : Int := (Nat.log2 m : Int) + e
  let qn := top - f.fbits
  let qs := f.emin - f.fbits
  let q := if qn < qs then qs else qn
  let (k0, lost) := cutAt r neg m e q sticky
  let full := 2 ^ (f.fbits + 1)
  let k := if k0 = full then full / 2 else k0
  let qq := if k0 = full then q + 1 else q
  -- the same value rounded with an unbounded exponent
  let (kn, _) := cutAt r neg m e qn sticky
  let topn := if kn = full then top + 1 else top
  let tiny := decide (topn < f.emin)
  if decide (full / 2 ≤ k) && decide ((f.bias : Int) < qq + f.fbits) then
    let toMax := match r with | .rtz => true | .rdn => !neg | .rup => neg | _ => false
    (if toMax then f.maxBits neg else f.infBits neg, flOF ||| flNX)
  else
    let mag := if k < full / 2 then k else (qq - qs + 1).toNat * 2 ^ f.fbits + (k - full / 2)
    if flush && decide (k < full / 2) && k != 0 then (f.zeroBits neg, flUF ||| flNX)
    else (f.zeroBits neg + mag, flIf lost flNX ||| flIf (tiny && lost) flUF)

/-- The bits of an exact value in a format, with its flags (R98, R99, R101). -/
def Fmt.write (f : Fmt) (r : RMode) (flush : Bool) (x : Num) : Nat × Fl :=
  match x with
  | .nan sg => (f.canonNan, flIf sg flNV)
  | .inf n => (f.infBits n, 0)
  | .fin n m e => f.round r flush n m e false

/-! ## Arithmetic on exact values -/

/-- Whether a value is a NaN, or a signalling one. -/
def Num.isNan : Num → Bool
  | .nan _ => true
  | _ => false
def Num.isSig : Num → Bool
  | .nan sg => sg
  | _ => false
/-- The sign bit of a value that is no NaN. -/
def Num.neg : Num → Bool
  | .fin n _ _ => n
  | .inf n => n
  | .nan _ => false
/-- The value with its sign inverted. -/
def Num.flip : Num → Num
  | .fin n m e => .fin (!n) m e
  | .inf n => .inf (!n)
  | .nan sg => .nan sg
/-- Whether a value is a zero. -/
def Num.isZero : Num → Bool
  | .fin _ m _ => m == 0
  | _ => false
/-- Whether a value is an infinity. -/
def Num.isInf : Num → Bool
  | .inf _ => true
  | _ => false

/-- A signed integer times a power of two. -/
def signedMag (neg : Bool) (m : Nat) : Int := if neg then -(m : Int) else m

/-- The exact sum of two finite values as an integer at the lower exponent. -/
def addExact (n1 : Bool) (m1 : Nat) (e1 : Int) (n2 : Bool) (m2 : Nat) (e2 : Int) : Int × Int :=
  let e := if e1 ≤ e2 then e1 else e2
  (signedMag n1 m1 * 2 ^ (e1 - e).toNat + signedMag n2 m2 * 2 ^ (e2 - e).toNat, e)

/-- The exact sum; a zero sum takes the sign of R99: that of both operands, else minus only towards minus infinity. The
flag is that of inf - inf and of a signalling NaN. -/
def Num.add (r : RMode) (x y : Num) : Num × Fl :=
  match x, y with
  | .nan a, y => (.nan false, flIf (a || y.isSig) flNV)
  | x, .nan b => (.nan false, flIf (x.isSig || b) flNV)
  | .inf a, .inf b => if a = b then (.inf a, 0) else (.nan false, flNV)
  | .inf a, _ => (.inf a, 0)
  | _, .inf b => (.inf b, 0)
  | .fin n1 m1 e1, .fin n2 m2 e2 =>
    let (i, e) := addExact n1 m1 e1 n2 m2 e2
    if i = 0 then
      (.fin (if m1 = 0 ∧ m2 = 0 ∧ n1 = n2 then n1 else r == .rdn) 0 e, 0)
    else (.fin (decide (i < 0)) i.natAbs e, 0)

/-- The exact product; inf times zero is invalid (R163). -/
def Num.mul (x y : Num) : Num × Fl :=
  match x, y with
  | .nan a, y => (.nan false, flIf (a || y.isSig) flNV)
  | x, .nan b => (.nan false, flIf (x.isSig || b) flNV)
  | .inf a, y => if y.isZero then (.nan false, flNV) else (.inf (a != y.neg), 0)
  | x, .inf b => if x.isZero then (.nan false, flNV) else (.inf (x.neg != b), 0)
  | .fin n1 m1 e1, .fin n2 m2 e2 => (.fin (n1 != n2) (m1 * m2) (e1 + e2), 0)

/-- The exact value of x * y + z; inf times zero is invalid even when z is a quiet NaN (R163, R253). -/
def Num.fma (r : RMode) (x y z : Num) : Num × Fl :=
  let (p, f) := Num.mul x y
  if f = flNV && !(x.isNan || y.isNan) then (.nan false, flNV)
  else
    let (t, g) := Num.add r p z
    (t, f ||| g)

/-- A quotient as a magnitude of at least `n` bits with a sticky remainder (R163). -/
def divMag (n m1 : Nat) (e1 : Int) (m2 : Nat) (e2 : Int) : Nat × Int × Bool :=
  let sh := n + Nat.log2 m2 + 2
  let q := m1 * 2 ^ sh / m2
  (q, e1 - e2 - (sh : Int), m1 * 2 ^ sh % m2 != 0)

/-- Division in a format (R163): finite / 0 is an infinity with DZ; 0 / 0 and inf / inf are invalid. -/
def Fmt.div (f : Fmt) (r : RMode) (flush : Bool) (x y : Num) : Nat × Fl :=
  match x, y with
  | .nan a, y => (f.canonNan, flIf (a || y.isSig) flNV)
  | x, .nan b => (f.canonNan, flIf (x.isSig || b) flNV)
  | .inf a, .inf b => (f.canonNan, flIf (a || !a || b) flNV)
  | .inf a, y => (f.infBits (a != y.neg), 0)
  | x, .inf b => (f.zeroBits (x.neg != b), 0)
  | .fin n1 m1 e1, .fin n2 m2 e2 =>
    if m2 = 0 then
      if m1 = 0 then (f.canonNan, flNV) else (f.infBits (n1 != n2), flDZ)
    else if m1 = 0 then (f.zeroBits (n1 != n2), 0)
    else
      let (q, e, st) := divMag (f.fbits + 4) m1 e1 m2 e2
      f.round r flush (n1 != n2) q e st

/-- The integer square root, bit by bit from the given bit down. -/
def isqrtFrom (n : Nat) : Nat → Nat → Nat
  | 0, a => a
  | k + 1, a => let b := a + 2 ^ k; isqrtFrom n k (if b * b ≤ n then b else a)
/-- The integer square root. -/
def isqrt (n : Nat) : Nat := isqrtFrom n (Nat.log2 n / 2 + 1) 0

/-- A square root as a magnitude with a sticky remainder, to more than 2n bits under the root. -/
def sqrtMag (n m : Nat) (e : Int) : Nat × Int × Bool :=
  let sh := 2 * n + (if (e - 2 * (n : Int)) % 2 = 0 then 0 else 1)
  let x := m * 2 ^ sh
  let q := isqrt x
  (q, (e - (sh : Int)) / 2, q * q != x)

/-- The square root in a format (R122, R163). -/
def Fmt.sqrt (f : Fmt) (r : RMode) (flush : Bool) (x : Num) : Nat × Fl :=
  match x with
  | .nan a => (f.canonNan, flIf a flNV)
  | .inf n => if n then (f.canonNan, flNV) else (f.infBits false, 0)
  | .fin n m e =>
    if m = 0 then (f.zeroBits n, 0)
    else if n then (f.canonNan, flNV)
    else
      let (q, qe, st) := sqrtMag (f.fbits + 4) m e
      f.round r flush false q qe st

/-- Three-way order of values that are no NaNs; zeros are equal whatever their signs. -/
def Num.lt (x y : Num) : Bool :=
  match x, y with
  | .inf a, .inf b => a && !b
  | .inf a, _ => a
  | _, .inf b => !b
  | .fin n1 m1 e1, .fin n2 m2 e2 => decide ((addExact n1 m1 e1 (!n2) m2 e2).1 < 0)
  | _, _ => false
/-- Equality of values that are no NaNs. -/
def Num.eqv (x y : Num) : Bool := !(x.isNan || y.isNan) && !(x.lt y) && !(y.lt x)

/-- Minimum and maximum (R103): a NaN gives the canonical NaN, and -0 orders below +0. -/
def Num.minmax (wantMax : Bool) (x y : Num) : Num × Fl :=
  if x.isNan || y.isNan then (.nan false, flIf (x.isSig || y.isSig) flNV)
  else
    let less := x.lt y || (x.eqv y && x.neg && !y.neg)
    (if less == wantMax then y else x, 0)

/-! ## Integers and floats (R104) -/

/-- An exact value rounded to an integer, and whether it was inexact. -/
def roundInt (r : RMode) (neg : Bool) (m : Nat) (e : Int) : Int × Bool :=
  let (k, lost) := cutAt r neg m e 0 false
  (signedMag neg k, lost)

/-- A float converted to an integer within bounds (R104): it is rounded first, and the integer it rounds to is held against the
bounds (DESIGN CHOICE, assumption 95). -/
def Num.toIntBounded (r : RMode) (lo hi : Int) (x : Num) : Int × Fl :=
  match x with
  | .nan _ => (0, flNV)
  | .inf n => (if n then lo else hi, flNV)
  | .fin n m e =>
    let (i, lost) := roundInt r n m e
    if i < lo then (lo, flNV) else if hi < i then (hi, flNV) else (i, flIf lost flNX)

/-- An integer as an exact value. -/
def Num.ofInt (i : Int) : Num := .fin (decide (i < 0)) i.natAbs 0

/-! ## TF8 (R105 to R108) -/

/-- The class exponents of R106. -/
def tf8B (z : Nat) : Int :=
  match z with
  | 0 => -1
  | 1 => 1
  | 2 => -3
  | 3 => 3
  | 4 => -5
  | 5 => 5
  | _ => -7

/-- The exponent and fraction of a nonzero 7-bit code: (E, F, f) (R105). -/
def tf8Parts (m : Nat) : Int × Nat × Nat :=
  let n := Nat.log2 m
  let z := 6 - n
  if n = 0 then (tf8B z, 0, 0)
  else
    let e := m / 2 ^ (n - 1) % 2
    (tf8B z + e, n - 1, m % 2 ^ (n - 1))

/-- The value of a TF8 code (R105). -/
def tf8Read (c : Nat) : Num :=
  let m := c % 128
  let neg := c / 128 % 2 == 1
  if m = 0 then (if neg then .nan false else .fin false 0 0)
  else
    let (e, ff, f) := tf8Parts m
    .fin neg (2 ^ ff + f) (e - ff)

/-- The magnitude of a 7-bit code in units of 2^-7, of which every TF8 magnitude is a multiple. -/
def tf8Units (m : Nat) : Nat :=
  if m = 0 then 0
  else
    let (e, ff, f) := tf8Parts m
    (2 ^ ff + f) * 2 ^ (e - (ff : Int) + 7).toNat

/-- Order of the magnitude m * 2^e against c units of 2^-7: below, equal or above. -/
def cmpUnits (m : Nat) (e : Int) (c : Nat) : Ordering :=
  let k := e + 7
  if 0 ≤ k then compare (m * 2 ^ k.toNat) c else compare m (c * 2 ^ (-k).toNat)

/-- Which of two neighbouring codes wins a tie (R107 rule 4, R108): the upper one? -/
def tf8TieUp (lo hi : Nat) : Bool :=
  if lo = 0 then false
  else
    let (el, fl, bl) := tf8Parts lo
    let (eh, fh, bh) := tf8Parts hi
    if fl = 0 && fh = 0 then decide (eh % 2 = 0) && decide (el % 2 ≠ 0)
    else if fl = 0 then bh % 2 == 0
    else if fh = 0 then bl % 2 == 1
    else bh % 2 == 0

/-- The 7-bit code nearest to a magnitude of at most 64, by R107, and whether it is exact. -/
def tf8Nearest (m : Nat) (e : Int) : Nat × Bool :=
  let best := (List.range 128).foldl (fun (acc : Nat × Nat) c =>
    let u := tf8Units c
    let lo := if cmpUnits m e u != .lt && decide (tf8Units acc.1 ≤ u) then c else acc.1
    let hi := if cmpUnits m e u != .gt && decide (u ≤ tf8Units acc.2) then c else acc.2
    (lo, hi)) (0, 3)
  let (lo, hi) := best
  let ul := tf8Units lo
  let uh := tf8Units hi
  if ul = uh then (lo, true)
  else
    -- twice the magnitude against the sum of the neighbours
    match cmpUnits (2 * m) e (ul + uh) with
    | .lt => (lo, false)
    | .gt => (hi, false)
    | .eq => (if tf8TieUp lo hi then hi else lo, false)

/-- Encoding into TF8 (R107). -/
def tf8Write (x : Num) : Nat × Fl :=
  match x with
  | .nan sg => (0x80, flIf sg flNV)
  | .inf n => (b2n n * 128 + 3, flOF ||| flNX)
  | .fin n m e =>
    if m = 0 then (0, 0)
    else if cmpUnits m e 8192 == .gt then (b2n n * 128 + 3, flOF ||| flNX)
    else
      let (c, exact_) := tf8Nearest m e
      if c = 0 then (0, flUF ||| flNX)
      else (b2n n * 128 + c, flIf (!exact_) flNX)

/-! ## Scales and blocks (R109 to R111) -/

/-- The exponent of a scale byte; none for the NaN scale (R109). -/
def se8Read (b : Nat) : Option Int := if b % 256 = 128 then none else some (signedOf 8 b)

/-- A value times a power of two. -/
def Num.scale (x : Num) (k : Int) : Num :=
  match x with
  | .fin n m e => .fin n m (e + k)
  | y => y

/-- Block quantisation of exact values: the scale byte, the codes and the flags (R110). -/
def quantBlock (xs : List Num) : Nat × List Nat × Fl :=
  if xs.any fun x => x.isNan || x.isInf then
    (0x80, xs.map fun _ => 0, flIf (xs.any fun x => x.isSig || x.isInf) flNV)
  else if xs.all Num.isZero then (0, xs.map fun _ => 0, 0)
  else
    let tops := xs.filterMap fun x =>
      match x with
      | .fin _ m e => if m = 0 then none else some ((Nat.log2 m : Int) + e)
      | _ => none
    let top := tops.foldl (fun a b => if a < b then b else a) (tops.headD 0)
    let s := if top - 5 < -127 then -127 else top - 5
    let qs := xs.map fun x => tf8Write (x.scale (-s))
    (wrapTo 8 s, qs.map (·.1), (qs.foldl (fun a q => a ||| q.2) 0) &&& (flNX ||| flUF))

/-- Dequantisation of one TF8 element under a scale byte into FP32 (R111). -/
def dequant (r : RMode) (flush : Bool) (code scale : Nat) : Nat × Fl :=
  match se8Read scale with
  | none => ((fmtOf .f32).canonNan, 0)
  | some k => (fmtOf .f32).write r flush ((tf8Read code).scale k)

/-! ## ACC128 (R113 to R117) -/

/-- The value a of an element. -/
def Acc.val (x : Acc) : Int := x.a.toInt

/-- Acc of R13: one exact addend accumulated at the anchor w (R114). -/
def Acc.add (x : Acc) (w : Int) (p : Num) : Acc :=
  let negZero := match p with | .fin n m _ => n && m == 0 | _ => false
  let x1 : Acc := { x with ne := true, anz := x.anz && negZero }
  match p with
  | .nan _ => { x1 with nan := true }
  | .inf n => if n then { x1 with ninf := true } else { x1 with pinf := true }
  | .fin n m e =>
    let k := e - (w - 100)
    let q : Int := if 0 ≤ k then signedMag n m * 2 ^ k.toNat else signedMag n m / 2 ^ (-k).toNat
    if q > 2 ^ 126 then { x1 with a := x1.a + BitVec.ofInt 136 (2 ^ 126), ov := true }
    else if q < -(2 ^ 126) then { x1 with a := x1.a + BitVec.ofInt 136 (-(2 ^ 126)), ov := true }
    else { x1 with a := x1.a + BitVec.ofInt 136 q }

/-- Two elements merged (R115). -/
def Acc.merge (x y : Acc) : Acc :=
  { a := x.a + y.a, nan := x.nan || y.nan, pinf := x.pinf || y.pinf, ninf := x.ninf || y.ninf, ov := x.ov || y.ov,
    anz := x.anz && y.anz, ne := x.ne || y.ne }

/-- The flag-plane halfword of an element (R116). -/
def Acc.side (x : Acc) : Nat :=
  x.a.toNat / 2 ^ 128 + b2n x.nan * 2 ^ 8 + b2n x.pinf * 2 ^ 9 + b2n x.ninf * 2 ^ 10 + b2n x.ov * 2 ^ 11
    + b2n x.anz * 2 ^ 12 + b2n x.ne * 2 ^ 13
/-- The A-plane value of an element (R116). -/
def Acc.plane (x : Acc) : Nat := x.a.toNat % 2 ^ 128
/-- An element read back from its two planes (R116). -/
def Acc.ofPlanes (a side : Nat) : Acc :=
  { a := BitVec.ofNat 136 (a % 2 ^ 128 + side % 256 * 2 ^ 128), nan := side.testBit 8, pinf := side.testBit 9,
    ninf := side.testBit 10, ov := side.testBit 11, anz := side.testBit 12, ne := side.testBit 13 }

/-- The exact value a conversion rounds, by the cases of R117. -/
def Acc.num (x : Acc) (w : Int) : Num :=
  if x.nan || (x.pinf && x.ninf) then .nan false
  else if x.pinf then .inf false
  else if x.ninf then .inf true
  else if x.ov || decide ((2 : Int) ^ 127 ≤ x.val) || decide (x.val < -((2 : Int) ^ 127)) then .inf (decide (x.val < 0))
  else if x.val = 0 then .fin (x.anz && x.ne) 0 0
  else .fin (decide (x.val < 0)) x.val.natAbs (w - 100)

/-- A conversion out of ACC128 into a float format (R117): RNE, no FPCTL bit, no flag. -/
def Acc.toFmt (x : Acc) (w : Int) (f : FFmt) : Nat := ((fmtOf f).write .rne false (x.num w)).1

/-- A conversion into an integer with bounds (R117). -/
def Acc.toInt (x : Acc) (w lo hi : Int) : Int :=
  match x.num w with
  | .nan _ => 0
  | y => (y.toIntBounded .rne lo hi).1

end Sys2Proof.Machine
end

