-- ==== Sys2Proof/Machine/Atomic.lean ====
section
/-! DEFINITION. Atomics at the home of their location (R210, R211, R223 to R225). -/

namespace Sys2Proof.Machine

/-- The new value of an AMO (R223). -/
def amoNew (o : AmoOp) (old v : W64) : W64 :=
  match o with
  | .add => old + v
  | .and => old &&& v
  | .or => old ||| v
  | .xor => old ^^^ v
  | .swp => v
  | .min => if old.slt v then old else v
  | .max => if old.slt v then v else old
  | .minn => if old.ult v then old else v
  | .maxn => if old.ult v then v else old

/-- The sum of AMOF: FP32, round to nearest even, no flush (R225). -/
def amofNew (old v : W32) : W32 :=
  let f := fmtOf .f32
  BitVec.ofNat 32 (f.write .rne false (Num.add .rne (f.read false old.toNat) (f.read false v.toNat)).1).1

/-- The bytes an atomic accesses. -/
def AtomicKind.size : AtomicKind → Nat
  | .addF _ => 4
  | _ => 8

/-- The value an atomic leaves in place of the old one; none where it writes nothing (R223 to R225). -/
def AtomicKind.result (k : AtomicKind) (old : W64) : Option W64 :=
  match k with
  | .amo o v => some (amoNew o old v)
  | .cas expected new => if old = expected then some new else none
  | .addF v => some ((amofNew (old.setWidth 32) v).setWidth 64)

/-- An atomic read-modify-write at a home for a task (R210): it follows the task's own published values of the
location, its pending stores stay pending, and what is still on the way to the home follows it. -/
def State.atHome (s : State) (r : SlotRef) (loc : Nat) (k : AtomicKind) : W64 × State :=
  let u := (s.slotAt r).uid
  let s1 := s.flushBy fun o => o.uid == u && o.eng.isNone
  let old := w64 (s1.peek loc k.size)
  let s2 := match k.result old with
    | none => s1
    | some v => s1.land (cellsLE loc k.size v.toNat) s1.overlay
  (old, s2.rereadBy r fun g => g == loc / 64)

/-- The kind of an atomic as it goes to the bridging device (R211). -/
def AtomicKind.away : AtomicKind → HostAtomic
  | .amo o v => .amo o v
  | .cas e n => .cas e n
  | .addF v => .addF v

/-- An atomic to the host window on a device that does not bridge (R211, R409): it goes to the bridging device after the task's
own published values, and the slot waits for the old value. -/
def State.atomicAway (s : State) (r : SlotRef) (d : XReg) (loc : Nat) (k : AtomicKind) (fresh : Bool) : State :=
  let u := (s.slotAt r).uid
  let s1 := s.flushBy fun o => o.uid == u && o.eng.isNone
  (s1.hostCall r 4 loc (.hostAtomic s.devid (some (s.stampOf (s.slotAt r).launch)) s.hostTag (loc - 0x8000000000000) k.size
    k.away)).modSlot r fun l => { l with wait := .hostAtomic d fresh }

/-- The home performs the atomic that a slot waits for; its old value reaches xd, and the slot goes on, at a refresh
point when it published (R200, R223 to R225); none where the slot waits for no atomic. -/
def State.finishAtomic (s : State) (r : SlotRef) : Option State :=
  match (s.slotAt r).wait with
  | .atomic d loc k fresh _ =>
    if !s.bridge && hostLoc loc then some (s.atomicAway r d loc k fresh) else
    let (old, s1) := s.atHome r loc k
    some (s1.modSlot r fun l =>
      let l1 := (l.wx d old).resume
      if fresh then l1.refresh else l1)
  | _ => none

/-- The reference cycle in which the atomic that a slot waits for is performed (R231). -/
def Slot.atomicDue (l : Slot) : Option Nat :=
  match l.wait with
  | .atomic _ _ _ _ due => some due
  | _ => none

/-- The atomic of a slot is performed once its cycle has come (R231); while its cluster stands still, the answer waits
(R381). -/
def State.performAtomic (s : State) (r : SlotRef) : Option State :=
  match (s.slotAt r).atomicDue with
  | some due => if s.refclk < due || s.clusterStopped (clusterOf r.core) then none else s.finishAtomic r
  | none => none

end Sys2Proof.Machine
end

