-- ==== Sys2Proof/Machine/Tasks.lean ====
section
/-! DEFINITION. The wake of queue cores (R423), and the ends of tasks and launches: queue status words (R414), events (R418), launch status records (R37),
gangs (R54 to R56), the removal of a task's engine work (R370, R433), fatal traps and aborts. -/

namespace Sys2Proof.Machine

/-! ## Queue cores (R422, R423) -/

/-- Reading a register of a queue core; x0 reads 0. -/
def FCore.rx (f : FCore) (r : BitVec 5) : W64 := if r = 0 then 0 else f.x[r.toNat]'(r.isLt)
/-- Writing one; a write to x0 is discarded. -/
def FCore.wx (f : FCore) (r : BitVec 5) (v : W64) : FCore :=
  if r = 0 then f else { f with x := f.x.set r.toNat v r.isLt }
/-- A queue core goes on at the next word. -/
def FCore.next (f : FCore) : FCore := { f with pc := f.pc + 4 }

/-- The pending bits that a mask selects, as SWAIT returns them. -/
def FCore.ripe (f : FCore) (mask : W64) : W64 := f.pending.setWidth 64 &&& mask
/-- SWAIT completes: the selected bits go to rd and are cleared. -/
def FCore.wakeUp (f : FCore) (d : BitVec 5) (mask : W64) : FCore :=
  { ((f.wx d (f.ripe mask)).next) with pending := f.pending &&& ~~~(mask.setWidth 7), asleep := false, swLimit := none }
/-- Pending bits are set; a core that sleeps on one of them wakes at once (R423). -/
def FCore.signal (f : FCore) (b : BitVec 7) : FCore :=
  let g := { f with pending := f.pending ||| b }
  if g.asleep && g.ripe g.swMask != 0 then g.wakeUp g.swRd g.swMask else g

/-- A queue core that has woken goes on executing; while another one does, it goes on after the one that executes (the
model lets one queue core execute at a time: assumption 21). -/
def State.woken (s : State) (n : Nat) : State :=
  match s.fcur with
  | none => { s with fcur := some n }
  | some _ => { s with fwoken := s.fwoken ++ [n] }

/-- The queue core that owns a resident queue gets a pending bit, which may wake it (R423). -/
def State.ring (s : State) (q : Nat) (b : BitVec 7) : State :=
  let n := (s.queue q).qcore
  if !(s.queue q).resident then s
  else
    let s1 := s.modFcore n (·.signal b)
    if (s.fcore n).asleep && !(s1.fcore n).asleep then s1.woken n else s1

/-! ## Queue status and events -/

/-- The launches of a queue, in admission order. -/
def State.launchesOf (s : State) (q : Nat) : List Nat :=
  (s.launches.filter fun (_, l) => l.queue == q).map (·.1)

/-- Whether a queue holds a launch that has not ended or a packet not yet consumed (R414). -/
def State.queueBusy (s : State) (q : Nat) : Bool :=
  (s.launches.any fun (_, l) => l.queue == q && l.stage != .over) || (s.queue q).head != (s.queue q).tail

/-- The status word of a queue (R414). -/
def State.statusOf (s : State) (q : Nat) : W64 :=
  let u := s.queue q
  let st := if u.err ≠ 0 then 3 else if u.rung ≠ 0 then 2 else if s.queueBusy q then 1 else 0
  w64 (st + u.rung.toNat * 4 + u.gen.toNat * 16 + u.level.toNat * 4096 + b2n u.cadence * 16384
    + b2n u.evovf * 32768 + u.err.toNat * 65536 + u.head.toNat * 2 ^ 32)

/-- Flambeol writes the status word when a field has changed (R414). -/
def State.syncQueue (s : State) (q : Nat) : State :=
  let v := s.statusOf q
  if !(tmem s.queues q) || v = (s.queue q).statword then s
  else (s.firmWrite (cellsLE (s.queue q).stataddr.toNat 8 v.toNat)).modQueue q fun u => { u with statword := v }

/-- A queue fails with an error code (R414). -/
def State.failQueue (s : State) (q : Nat) (e : Nat) : State :=
  (s.modQueue q fun u => { u with err := BitVec.ofNat 8 e }).syncQueue q

/-- An event record's contents (R418). -/
structure Event where
  kind : Nat
  cause : Nat
  nested : Bool
  task : W32
  tpc : W64
  tval : W64
  tstat : W64
  first : W64
  last : W64
  die : Nat
  cluster : Nat
  deriving DecidableEq, Repr

/-- Flambeol posts an event to a queue's event ring, or drops it and sets EVOVF (R418). -/
def State.postEvent (s : State) (q : Nat) (e : Event) : State :=
  if !(tmem s.queues q) then s else
  let u := s.queue q
  let size := 2 ^ u.log2e
  let consumed := s.peek (u.evring.toNat - 8) 8
  let seq := u.evseq.toNat
  let s1 := s.modQueue q fun u => { u with evseq := u.evseq + 1 }
  if size ≤ wrapTo 32 (u.evcount.toNat - (consumed : Int)) then
    (s1.modQueue q fun u => { u with evovf := true }).syncQueue q
  else
    let at_ := u.evring.toNat + 64 * (u.evcount.toNat % size)
    let w0 := e.kind + e.cause * 256 + b2n e.nested * 65536 + seq * 2 ^ 32
    let w7 := s.devid.toNat + e.die * 2 ^ 20 + e.cluster * 2 ^ 23
    let cells := [w0, e.task.toNat, e.tpc.toNat, e.tval.toNat, e.tstat.toNat, e.first.toNat, e.last.toNat, w7]
    let s2 := s1.firmWrite ((cells.zipIdx).flatMap fun (v, k) => cellsLE (at_ + 8 * k) 8 v)
    (s2.modQueue q fun u => { u with evcount := u.evcount + 1 }).syncQueue q

/-- An event without task words, with the GSTEP of the event (R418). -/
def State.plainEvent (s : State) (kind die cluster : Nat) : Event :=
  { kind := kind, cause := 0, nested := false, task := 0, tpc := 0, tval := 0, tstat := 0,
    first := s.gstep, last := s.gstep, die := die, cluster := cluster }

/-- An event that SNAPCTL.EVMASK selects in mode 2 makes the next step start latch a snapshot (R406). -/
def State.snapEvent (s : State) (bit : Nat) : State :=
  if bitOf s.snapctl 0 && bits s.snapctl 3 2 == 2 && bitOf s.snapctl bit then { s with snapDue := some s.refclk } else s

/-- Flambeol posts a fault event (R370, R418), which a snapshot trigger can name (R406) and which sets the fault bit of
the queue's core (R423). -/
def State.faultEvent (s : State) (q : Nat) (e : Event) : State := ((s.postEvent q e).snapEvent 5).ring q 0x20

/-! ## Launch status -/

/-- The scheduler writes a launch's status record (R37). -/
def State.putStatus (s : State) (n : Nat) : State :=
  let l := s.launch n
  let w := [l.state.toNat + l.err.toNat * 256 + l.count % 2 ^ 32 * 2 ^ 32,
    l.exited % 2 ^ 32 + l.faulted % 2 ^ 32 * 2 ^ 32,
    l.mask.toNat + l.armedLeft % 2 ^ 16 * 2 ^ 32,
    l.gstepStart.toNat, l.gstepEnd.toNat, 0, 0, 0]
  let root := (s.queue l.queue).troot
  s.fwWrite root l.status.toNat 64 ((w.zipIdx).foldl (fun a (v, k) => a + v * 2 ^ (64 * k)) 0)

/-- A launch enters a STATE with an error code, and its record is written (R37). -/
def State.setLaunchState (s : State) (n st err : Nat) : State :=
  (s.modLaunch n fun l => { l with state := BitVec.ofNat 8 st, err := BitVec.ofNat 8 err }).putStatus n

/-- The hardware fields of a TCB of a launch (R50): STATE at 0x30. -/
def State.setTcbState (s : State) (n i st : Nat) : State :=
  let l := s.launch n
  s.fwWrite (s.queue l.queue).troot (l.tcbs.toNat + 64 * i + 0x30) 8 st

/-- The STATE of a TCB of a launch (R50). -/
def State.tcbState (s : State) (n i : Nat) : Nat :=
  let l := s.launch n
  ((s.fwRead (s.queue l.queue).troot (l.tcbs.toNat + 64 * i + 0x30) 8).getD 0) % 8
/-- Whether a TCB may be armed (R51, R219). -/
def State.tcbFree (s : State) (n i : Nat) : Bool := s.tcbState n i == 0 || s.tcbState n i == 4

/-! ## Gangs (R55, R56) -/

/-- The answer to a GANG.JOIN or GANG.LEAVE leaves the gang's home for its slot (R231); its latency is counted in cycles of the
slot's cluster (R381). -/
def State.answerGang (s : State) (n : Nat) (r : SlotRef) : State :=
  s.modSlot r fun l => { l with wait := .gangDone (s.refclk + wayCycles r.core (s.launch n).home + l.lag) }

/-- Puts the tasks that waited to join into the gang, and lets them go on (R55). -/
def State.admitJoiners (s : State) (n g : Nat) : State :=
  let js := ((s.launch n).gang g).joiners
  let s1 := s.modGang n g fun x =>
    { x with joiners := [], members := x.members ++ (js.map (·.uid)).filter fun u => !(x.members.contains u) }
  js.foldl (fun s j =>
    let r : SlotRef := ⟨j.core, j.slot⟩
    if (s.slotAt r).occ && (s.slotAt r).uid == j.uid then
      match (s.slotAt r).wait with
      | .joining _ => s.modSlot r fun l => { l with wait := .run }
      | .gang _ => s.answerGang n r
      | _ => s
    else s) s1

/-- The status of a BAR is decided: it leaves the gang's home for its slot (R231), or is recorded for a member that was saved
(R55, R244). -/
def State.barStatus (s : State) (n g uid : Nat) (status : W64) : State :=
  match s.findTask uid with
  | some r => s.modSlot r fun l => match l.wait with
    | .bar d k w => { l with wait := .barDone d k w status (s.refclk + wayCycles r.core (s.launch n).home) }
    | _ => l
  | none => s.modGang n g fun x => { x with recorded := (uid, status) :: x.recorded }

/-- A generation closes: every arrived member completes with a status, the arrival count returns to 0 and the
generation increments (R55). -/
def State.closeGang (s : State) (n g : Nat) (status : W64) : State :=
  let s1 := ((s.launch n).gang g).arrived.foldl (fun s u => s.barStatus n g u status) s
  (s1.modGang n g fun x => { x with arrived := [], gen := x.gen + 1 }).admitJoiners n g

/-- A gang whose member count reaches 0 returns to OK; an open generation closes when every member has arrived
(R55). -/
def State.settleGang (s : State) (n g : Nat) : State :=
  let x := (s.launch n).gang g
  let s1 := if x.members.isEmpty then s.modGang n g fun x => { x with broken := false } else s
  if !x.arrived.isEmpty && x.arrived.length == x.members.length then s1.closeGang n g 0 else s1

/-- GANG.LEAVE at the gang's home: a member is removed at once (R55). -/
def State.leaveGang (s : State) (n g uid : Nat) : State :=
  if ((s.launch n).gang g).members.contains uid then
    (s.modGang n g fun x =>
      { x with members := x.members.filter (· != uid), arrived := x.arrived.filter (· != uid) }).settleGang n g
  else s

/-- The gangs of a launch that a task belongs to. -/
def Launch.gangsOf (l : Launch) (uid : Nat) : List Nat :=
  (l.gangs.filter fun (_, g) => g.members.contains uid).map (·.1)

/-- A task leaves every gang of which it is a member (R55, R235). -/
def State.leaveAll (s : State) (n uid : Nat) : State :=
  ((s.launch n).gangsOf uid).foldl (fun s g => s.leaveGang n g uid) s

/-- A member is lost: the gang is BROKEN, the member removed, and pending BARs complete with status 1 (R56). -/
def State.breakGang (s : State) (n g uid : Nat) : State :=
  let s1 := s.modGang n g fun x =>
    { x with broken := true, members := x.members.filter (· != uid), arrived := x.arrived.filter (· != uid) }
  let s2 := if ((s.launch n).gang g).arrived.isEmpty then s1 else s1.closeGang n g 1
  if ((s2.launch n).gang g).members.isEmpty then s2.modGang n g fun x => { x with broken := false } else s2

/-! ## A task's engine work -/

/-- HEAD passes the records that have ended: it is the oldest one left (R344, R345). -/
def EngQ.pass (q : EngQ) : EngQ :=
  let rs := q.recs.dropWhile fun r => r.st == .ended
  { q with recs := rs, head := (rs.head?.map QRec.idx).getD q.tail }
/-- A queue without some of its records (R344). -/
def EngQ.keep (q : EngQ) (f : QRec → Bool) : EngQ := EngQ.pass { q with recs := q.recs.filter f }
/-- A record of a queue has ended: it stays, ended, until HEAD passes it (R345). -/
def EngQ.endRec (q : EngQ) (idx : Nat) : EngQ :=
  EngQ.pass { q with recs := q.recs.map fun r => if r.idx = idx then { r with st := .ended } else r }

/-- A watermark register in another state (R321). -/
def Wm.setState (w : Wm) (n : Nat) : Wm := { w with stat := setBits w.stat 2 0 n }

/-- A core with a watermark register changed. -/
def Core.modWm (c : Core) (k : Nat) (f : Wm → Wm) : Core :=
  if h : k < 8 then { c with wms := c.wms.set k (f (c.wms[k])) h } else c

/-- Whether a record's entry holds a watermark register (R322). -/
def QRec.holdsWm (r : QRec) : Bool := cpWmen r.ops && r.started && r.fin == .no

/-- A ring of a core. -/
def Core.ring (c : Core) (r : Nat) : Ring := c.rings.toList.getD r Ring.reset
/-- A core with a ring changed. -/
def Core.modRing (c : Core) (r : Nat) (f : Ring → Ring) : Core :=
  if h : r < 4 then { c with rings := c.rings.set r (f (c.rings[r])) h } else c

/-- FILL passes every slot whose CPR has finished in order (R336). -/
def Ring.advance : Nat → Ring → Ring
  | 0, r => r
  | n + 1, r => if r.filled.contains r.fill then
      Ring.advance n { r with fill := r.fill + 1, filled := r.filled.filter (· != r.fill) } else r

/-- The ring slot of a CPR that finishes otherwise than frozen counts as filled (R336). -/
def Core.fillSlot (c : Core) (q : QRec) : Core :=
  if copyKindOf q.instr = some .ring && q.started then
    c.modRing (bits (q.op 7) 1 0) fun k =>
      let k1 := { k with filled := q.rslot :: k.filled }
      k1.advance k1.filled.length
  else c

/-- The ring slot of a CPR that has frozen: no RNGAW passes it (R336). -/
def Core.freezeSlot (c : Core) (q : QRec) : Core :=
  if copyKindOf q.instr = some .ring && q.started then
    c.modRing (bits (q.op 7) 1 0) fun k => { k with frozen := q.rslot :: k.frozen }
  else c

/-- The running copies of a task are cancelled, but for a faulting one that is frozen already (R370). -/
def Core.cancelCopies (c : Core) (uid : Nat) : Core :=
  let mine := c.cq.recs.filter fun r => r.uid == uid && r.st == .running && r.fin == .no
  let c1 := mine.foldl (fun c r =>
    (if r.holdsWm then c.modWm (cpWmi r.ops) (·.setState 4) else c).fillSlot r) c
  { c1 with cq := { c1.cq with recs := c1.cq.recs.map fun r =>
      if r.uid == uid && r.st == .running && r.fin == .no then { r with fin := .cancelled, park := none } else r } }

/-- A task's engine work ends (R370, R433): queued entries and token waits are removed, the running vector entry is
abandoned, running copies are cancelled and the running matrix entry stops at its mark. -/
def Core.dropWork (c : Core) (uid : Nat) : Core :=
  let vecMine : Bool := match c.vq.recs with | r :: _ => r.uid == uid | [] => false
  let mxMine : Bool := match c.mq.recs with | r :: _ => r.uid == uid && r.st == .running | [] => false
  let c1 := c.cancelCopies uid
  { c1 with
    vq := c1.vq.keep fun r => r.uid != uid
    vrun := if vecMine then none else c1.vrun
    cq := c1.cq.keep fun r => r.uid != uid || r.st == .ended || (r.st == .running && (copyKindOf r.instr).isSome)
    mq := c1.mq.keep fun r => r.uid != uid
    mrun := if mxMine then none else c1.mrun }

/-! ## The end of a task -/

/-- An empty slot keeps its mark of a started task while its cluster group lasts (R41). -/
def Slot.vacate (l : Slot) : Slot :=
  { Slot.reset with held := l.group.isSome, group := l.group, launch := l.launch, task := l.task, started := true }

/-- The slots of a cluster that belong to a cluster-granular group. -/
def State.groupSlots (s : State) (cluster : Nat) (group : Option Nat) : List SlotRef :=
  (List.range 4).flatMap fun c => ([0, 1, 2, 3] : List (Fin 4)).filterMap fun k =>
    let m := s.slotAt ⟨4 * cluster + c, k⟩
    if group.isSome && m.group == group && (m.occ || m.held) then some ⟨4 * cluster + c, k⟩ else none

/-- The slot of a task becomes free; the slots of a cluster-granular group are released together, once no task of the
group is left in a slot or a saved core (R41), and an empty core unpins its degraded pool (R65). A group is what the
scheduler placed as one: a spawned child and a TCB task belong to none (DESIGN CHOICE, assumption 85). -/
def State.freeSlot (s : State) (r : SlotRef) : State :=
  let l := s.slotAt r
  let s1 := s.modSlot r Slot.vacate
  let mates := s1.groupSlots (clusterOf r.core) l.group
  let away := s1.saved.any fun v => v.slots.any fun x => l.group.isSome && x.2.group == l.group && x.2.occ
  let s2 := if !away && !(mates.any fun m => (s1.slotAt m).occ)
    then mates.foldl (fun s m => s.modSlot m fun l => { l with held := false, group := none }) s1 else s1
  s2.modCore r.core fun c =>
    if c.slots.toList.any fun l => l.occ || l.held then c else { c with pinned := [] }

/-- A SEM.WAIT at a semaphore of another device is withdrawn there (R244): the home answers, unless its answer to the wait
is on its way already. -/
def State.cancelAway (s : State) (r : SlotRef) : State :=
  let l := s.slotAt r
  match l.away with
  | some name =>
    if l.cancelled then s
    else
      let s1 : State := { s with outbox := s.outbox ++
        [{ dest := BitVec.ofNat 20 (bits name 51 32), body := .semCancel name s.devid r.core r.slot.val l.uid }] }
      s1.modSlot r fun l => { l with cancelled := true }
  | none => s

/-- A task's SEM.WAITs are withdrawn from the homes of this device (R244, R433). -/
def State.withdraw (s : State) (u : Nat) : State :=
  { s with dies := s.dies.map fun (d, x) => (d, { x with
      waiters := x.waiters.filter fun w => w.uid != u || w.dev != s.devid
      inbox := x.inbox.filter fun o => o.uid != u || o.dev != s.devid ||
        (match o.kind with | .wait .. => false | _ => true) }) }

/-- The rung that the ladder of a queue has reached with no task left in a slot (R371, R372): 1 where nothing of the queue is
saved, 3 where one of its cores was reset. -/
def State.rungReached (s : State) (q : Nat) : Nat :=
  let mine := s.saved.filter fun v => v.queue == q
  if mine.isEmpty then 1 else if mine.any fun v => v.fresh then 3 else 2

/-- The end of the ladder for a queue (R371, R372): when no task of a pre-empted queue is left in a slot, and every landing that
was remapped has arrived (R339), the rung reached is recorded. -/
def State.settleLadder (s : State) (q : Nat) : State :=
  if (s.queue q).stopped && (s.tasksOfQueue q).isEmpty && !(s.saved.any fun v => v.queue == q && !v.remap.isEmpty) then
    (s.modQueue q fun u => { u with rung := BitVec.ofNat 2 (Nat.max u.rung.toNat (s.rungReached q)) }).syncQueue q
  else s

/-- What every end of a task does: its pending stores are gone, its published stores and engine writes reach their homes,
its waits at homes are withdrawn, its engine work ends, the slot is freed, and the ladder of its queue may end (R197, R370,
R372, R433). R92 names EXIT and not
the other ends of a task as what a shootdown waits for: the model lets every end release it (DESIGN CHOICE, assumption
86). -/
def State.removeTask (s : State) (r : SlotRef) : State :=
  let u := (s.slotAt r).uid
  let s1 := ((s.flushOwn u).dropHost u).modCore r.core fun c => { c.dropWork u with
    shoots := c.shoots.map fun x => { x with lagging := x.lagging.filter (· != u) } }
  let s2 := (s1.cancelAway r).withdraw u
  (s2.freeSlot r).settleLadder (s.launchOf r).queue

/-- The launch after a task of it ended, by EXIT or by a fatal trap (R37). -/
def State.countEnd (s : State) (n : Nat) (fault : Bool) : State :=
  s.modLaunch n fun l => if fault then { l with faulted := l.faulted + 1 } else { l with exited := l.exited + 1 }

/-- Whether a launch that has been admitted holds PIN on an entry (R85). -/
def State.pinHeld (s : State) (n at_ : Nat) : Bool :=
  s.launches.any fun (k, l) => k != n && l.stage == .admitted && l.pinned.contains at_

/-- PIN is cleared in the entries that no other launch's lease covers (R85). -/
def State.unpin (s : State) (n : Nat) : State :=
  ((s.launch n).pinned.filter fun a => !(s.pinHeld n a)).foldl
    (fun s a => s.homeWrite [(a, s.mem.get a &&& 0xBF)]) s

/-- A launch is over in a STATE (R37, R38): its arm records are freed, its checkpoints and pins dropped, its entries
in pools, ready queues and gangs gone, its status record written, and the launch-end bit of the queue's core set (R423). -/
def State.closeLaunch (s : State) (n st err : Nat) : State :=
  let armed := s.dies.foldl (fun a (_, d) => a + (d.arms.filter fun x => x.launch == n && x.dev == s.devid).length) (s.launch n).remoteArms
  let s1 : State := { s with dies := s.dies.map fun (k, d) => (k, { d with
    arms := d.arms.filter fun x => x.launch != n || x.dev != s.devid
    inbox := d.inbox.filter fun o => o.dev != s.devid || (match o.kind with | .arm l _ _ => l != n | _ => true)
    ready := d.ready.filter fun x => x.launch != n
    pool := d.pool.filter fun x => x.launch != n }) }
  let s2 := s1.modLaunch n fun l => { l with
    stage := .over, gstepEnd := s.gstep, armedLeft := armed, nextTask := 0, lastTask := 0, spillHead := [], spillTail := [],
    gangs := [] }
  let s3 := (s2.unpin n).setLaunchState n st err
  ((s3.modLaunch n fun l => { l with pinned := [] }).syncQueue (s.launch n).queue).ring (s.launch n).queue 4

/-- Whether a task has begun a prefix chain that it goes on issuing (R433): a prefixed instruction that only waits for an
operand has not stalled as R433 names stalls, and completes. -/
def Slot.begun (l : Slot) : Bool :=
  !l.pfx.isEmpty && l.wait == .run && l.park.isNone && (!l.stalled || l.stall == .operand)

/-- A task ends by the abort of its launch (R433): it leaves its gangs, and nobody counts it. -/
def State.endAborted (s : State) (r : SlotRef) : State :=
  let l := s.slotAt r
  (s.removeTask r).leaveAll l.launch l.uid

/-- A saved core without the tasks that a test names: their slots go, and of their engine records and running entries what
ends with a task (R370, R433). -/
def Saved.dropTasks (v : Saved) (p : Slot → Bool) : Saved :=
  let us := (v.slots.filter fun x => p x.2).map fun x => x.2.uid
  let c := us.foldl (fun c u => c.dropWork u) { Core.reset with vq := v.vq, cq := v.cq, mq := v.mq }
  let left := fun (q : EngQ) => q.keep fun r => !(us.contains r.uid)
  { v with slots := v.slots.filter fun x => !(p x.2), vq := left c.vq, cq := left c.cq, mq := left c.mq }

/-- The abort of a launch (R433): atomics already begun complete, its tasks end, but for one in a prefix chain that has begun,
which ends after it; nothing of it stays queued, and STATE becomes 5. -/
def State.abortLaunch (s : State) (n err : Nat) : State :=
  let s1 := (s.tasksOf n).foldl (fun s r =>
    if (s.slotAt r).begun then s.modSlot r fun l => { l with dying := true }
    else ((s.finishAtomic r).getD s).endAborted r) s
  let gone := s1.saved.flatMap fun v => v.slots.filterMap fun x => if x.2.launch == n then some x.2.uid else none
  let s2 : State := { (s1.flushBy fun o => gone.contains o.uid) with
    saved := s1.saved.map fun v => v.dropTasks fun l => l.launch == n }
  s2.closeLaunch n 5 err

/-! ## TCB release (R51 to R53) -/

/-- The order of a ready queue: priority descending, RSTEP ascending, TCB index ascending, TCBs without an index
after every indexed one and by task number, then launch admission order (R52, R56). -/
def ReadyTcb.before (a b : ReadyTcb) : Bool :=
  if a.prio ≠ b.prio then decide (b.prio < a.prio)
  else if a.rstep ≠ b.rstep then decide (a.rstep < b.rstep)
  else match a.index, b.index with
    | some i, some j => if i ≠ j then decide (i < j) else decide (a.order < b.order)
    | some _, none => true
    | none, some _ => false
    | none, none => if a.num ≠ b.num then decide (a.num < b.num) else decide (a.order < b.order)

/-- Entering a ready queue in its order. -/
def insertReady (t : ReadyTcb) : List ReadyTcb → List ReadyTcb
  | [] => [t]
  | x :: xs => if t.before x then t :: x :: xs else x :: insertReady t xs

/-- The lowest-numbered die of a mask. -/
def lowestDie (m : BitVec 8) : Nat := ((List.range 8).find? fun d => m.getLsbD d).getD 0

/-- The ready queue a released TCB enters (R51): the semaphore's die when the launch runs on it, else the
lowest-numbered die of the mask. -/
def readyDie (m : BitVec 8) (d : Nat) : Nat := if m.getLsbD d then d else lowestDie m

/-- The release of TCB i of a launch at the semaphore of a die (R51, R53): RSTEP and STATE are written, the TCB is
checked, and it enters a ready queue or is faulted. A word of the TCB that cannot be read at the release counts as 0, of which
the spec says nothing (DESIGN CHOICE, assumption 101). -/
def State.releaseTcb (s : State) (n i d : Nat) : State :=
  let l := s.launch n
  let root := (s.queue l.queue).troot
  let at_ := l.tcbs.toNat + 64 * i
  let s1 := (s.fwWrite root (at_ + 0x18) 8 s.gstep.toNat).setTcbState n i 2
  let prog := w64 ((s1.fwRead root at_ 8).getD 0)
  let arg := w64 ((s1.fwRead root (at_ + 8) 8).getD 0)
  let w := w64 ((s1.fwRead root (at_ + 16) 8).getD 0)
  let where_ := readyDie l.mask d
  if bits w 63 49 ≠ 0 || bits w 41 40 = 3 || bits prog 1 0 ≠ 0 then
    let s2 := (s1.setTcbState n i 5).countEnd n true
    s2.faultEvent l.queue { s2.plainEvent 1 where_ 31 with
      cause := 1, task := BitVec.ofNat 32 (bits w 31 0), tpc := prog, tval := w64 at_ }
  else
    let t : ReadyTcb :=
      { launch := n, prio := BitVec.ofNat 8 (bits w 39 32), rstep := s.gstep, index := some i,
        order := l.order,
        num := BitVec.ofNat 32 (bits w 31 0), prog := prog, arg := arg, role := roleOf (bits w 41 40),
        gang := if bitOf w 48 then some (BitVec.ofNat 6 (bits w 47 42)) else none, origin := .tcb i }
    s1.modDie where_ fun x => { x with ready := insertReady t x.ready }

/-- The readmission of a lost gang member under GPOL = 1 (R56); a TCB of the table takes RSTEP. -/
def State.readmit (s : State) (n : Nat) (l : Slot) : State :=
  let q := s.launch n
  let s1 := match l.origin with
    | .tcb i => (s.fwWrite (s.queue q.queue).troot (q.tcbs.toNat + 64 * i + 0x18) 8 s.gstep.toNat).setTcbState n i 2
    | _ => s
  let t : ReadyTcb :=
    { launch := n, prio := l.prio, rstep := s.gstep,
      index := match l.origin with | .tcb i => some i | _ => none, order := q.order,
      num := l.task, prog := l.startPc, arg := l.startArg, role := l.startRole, gang := none, origin := l.origin }
  s1.modDie (lowestDie q.mask) fun d => { d with ready := insertReady t d.ready }

/-- TSTAT as the event of a fatal trap gives it: with the trap's origin marked (R86, R263, R370). -/
def Slot.fatalStat (l : Slot) (t : PendTrap) : W64 := setBits (setBits l.tstat 23 16 t.qent.toNat) 6 4 t.orig.toNat

/-- A fatal trap ends the task of a slot without entering TVEC (R370): its work ends, its gangs break and the launch
acts on GPOL (R56), the status record counts it, and Flambeol posts a fault event. -/
def State.fatalTrap (s : State) (r : SlotRef) (t : PendTrap) (tpc : W64) (nested : Bool) : State :=
  let l := s.slotAt r
  let n := l.launch
  let gangs := (s.launch n).gangsOf l.uid
  let s1 := s.removeTask r
  let s2 := match l.origin with | .tcb i => s1.setTcbState n i 5 | _ => s1
  let s3 := gangs.foldl (fun s g => s.breakGang n g l.uid) (s2.countEnd n true)
  let s5 := s3.faultEvent (s3.launch n).queue { s3.plainEvent 1 (dieOf r.core) (clusterOf r.core % 24) with
    cause := t.cause.code.toNat, nested := nested, task := l.task, tpc := tpc, tval := t.tval, tstat := l.fatalStat t }
  if gangs.isEmpty then s5
  else if (s5.launch n).gpol then s5.readmit n l
  else s5.abortLaunch n 8

end Sys2Proof.Machine
end

