-- ==== Sys2Proof/Machine/Ops.lean ====
section
/-! DEFINITION. The named operations that the meanings share: going on, stalling, taking a trap and returning from it
(R366 to R370, R240), the checked access of a task (R174), loads and stores (R172, R193, R194), publication (R196),
and the appending of records to engine queues (R344). -/

namespace Sys2Proof.Machine

/-- What a meaning answers. -/
abbrev Out := Host.Outcome State Fault Refusal

/-! ## Traps -/

/-- TSTAT.INH: the slot is in a handler (R365). -/
def Slot.inh (l : Slot) : Bool := bitOf l.tstat 0

/-- TSTAT after a trap entry: ORIG and QENT are written, CKR cleared, INH set, SCR kept (R366). -/
def trapStat (old : W64) (t : PendTrap) : W64 :=
  w64 (bits old 63 32 * 2 ^ 32 + t.qent.toNat * 2 ^ 16 + t.orig.toNat * 16 + 1)

/-- The address a precise trap reports: the instruction, or the first word of its chain (R138, R366). -/
def Slot.trapPc (l : Slot) : W64 := if l.pfx.isEmpty then l.pc else l.pfxPc

/-- Trap entry (R366): the trap registers are written, the latches are lost and PC := TVEC; nothing else changes. The loss
clears the count of pushes, and what the latches hold stays: an entry issued before the loss and started after it reads the
result of the earlier push, as the second half of R127 has it, and not a cleared latch (DESIGN CHOICE, assumption 101). -/
def Slot.enterTrap (l : Slot) (t : PendTrap) (tpc : W64) : Slot :=
  { l with
    tcause := t.cause.code.setWidth 64
    tpc := tpc
    tval := t.tval
    tword := t.word.setWidth 64
    tstat := trapStat l.tstat t
    pc := l.tvec
    pushes := 0
    pfx := []
    started := true
    stalled := false
    exiting := false
    wait := .run
    park := none }

/-- Taking a precise trap in a slot: one of any cause raised in a handler ends the task as a nested trap (R368), a fatal
cause ends it too (R370), and every other trap enters the handler (R366). -/
def State.takeTrap (s : State) (r : SlotRef) (t : PendTrap) (tpc : W64) : State :=
  if t.cause.fatal || (s.slotAt r).inh then s.fatalTrap r t tpc (s.slotAt r).inh
  else s.modSlot r (·.enterTrap t tpc)

/-- The precise trap of the executing instruction (R366): TVAL as the cause says, TWORD the word at fault. -/
def State.trap (s : State) (c : Cause) (tval : W64) (word : W32) : State :=
  s.takeTrap s.cur { cause := c, tval := tval, word := word, qent := 0, orig := 0 } s.slot.trapPc

/-- A precise trap whose TVAL the spec does not give: TVAL is a free value (assumption 2). -/
def State.trapOpen (s : State) (c : Cause) (word : W32) : State :=
  let (v, s1) := s.freeFor s.cur true
  s1.trap c v word

/-- The return from a handler (R240, R366): PC := TPC and INH is cleared. -/
def Slot.eret (l : Slot) : Slot := { l.goto l.tpc with tstat := l.tstat &&& ~~~1#64 }

/-- The cluster cycle of an engine's stop, in the order of time (R367). -/
def State.stopTime (s : State) : Nat := 64 * s.refclk + s.lap

/-- A pending trap put among others: in the order in which the entries stopped, and equal stops as vector, copy, matrix
(R367). -/
def insertStop (t : PendTrap) : List PendTrap → List PendTrap
  | [] => [t]
  | x :: xs => if x.stop = t.stop ∧ t.orig < x.orig then t :: x :: xs else x :: insertStop t xs

/-- An engine-origin trap becomes pending in its slot: at most one per queue (R367). R367 does not say which trap stays
when an entry of a queue raises one while another of the same queue is pending; the model keeps the first (DESIGN
CHOICE, assumption 83), but for a fatal one, which ends the task at its next boundary whatever else is pending (R370). -/
def State.pendTrap (s : State) (r : SlotRef) (t : PendTrap) : State :=
  s.modSlot r fun l =>
    if !t.cause.fatal && l.engTraps.any (fun x => x.orig == t.orig) then l
    else { l with engTraps := insertStop { t with stop := s.stopTime } (l.engTraps.filter fun x => x.orig != t.orig),
                  stalled := false }

/-- A STEP_OVERRUN or SCHED_BREAK becomes pending in a slot; an event of a cause already pending is merged into it
(R434). No word is at fault, so TWORD is a free value (assumption 2). -/
def State.pendEvent (s : State) (r : SlotRef) (c : Cause) (tval : W64) : State :=
  if (s.slotAt r).evTraps.any fun x => x.cause == c then s
  else
    let (v, s1) := s.freeFor r false
    s1.modSlot r fun l =>
      { l with evTraps := l.evTraps ++ [{ cause := c, tval := tval, word := v.setWidth 32, qent := 0, orig := 0 }],
               stalled := false }

/-! ## Going on -/

/-- The executing slot goes on at the next word. -/
def State.retire (s : State) : State := s.mapSlot Slot.next

/-- The executing slot goes on at an address. -/
def State.jump (s : State) (a : W64) : State := s.mapSlot (·.goto a)

/-- The instruction stalls on something: it has had no effect and the slot is not ready (R57). -/
def State.stallOn (s : State) (k : StallKind) : State := s.mapSlot fun l => { l with stalled := true, stall := k }

/-- The instruction stalls on a condition that it waits for, such as a full queue (R141). -/
def State.stallHere (s : State) : State := s.stallOn .condition

/-- The parked accesses of a cluster (R87). -/
def State.parksIn (s : State) (k : Nat) : List Park :=
  (List.range 4).flatMap fun c =>
    let x := s.core (4 * k + c)
    (x.slots.toList.filterMap fun l => l.park) ++ (x.vq.recs ++ x.cq.recs ++ x.mq.recs).filterMap fun r => r.park

/-- The invalid entries that the monitors of a cluster are armed for: accesses waiting on one entry share one (R87). -/
def State.monitors (s : State) (k : Nat) : List Nat :=
  ((s.parksIn k).filterMap fun p => if p.monitored then some p.entry else none).eraseDups

/-- A park on an invalid entry: it shares or takes one of the cluster's 64 monitors, or waits for one behind those that
wait already (R87). -/
def State.newPark (s : State) (g : Nat) (a : W64) (entry : Nat) : Park :=
  let ps := s.parksIn (clusterOf g)
  let ms := s.monitors (clusterOf g)
  { addr := a, entry := entry, since := s.refclk, expired := false
    monitored := ms.contains entry || (decide (ms.length < 64) && ps.all (·.monitored))
    order := ps.foldl (fun n p => Nat.max n (p.order + 1)) 0 }

/-- The monitor of a park is armed, if it has one: no write has reached its line since (R87). -/
def State.arm (s : State) (p : Park) : State :=
  if p.monitored then { s with armed := (p.entry, false) :: s.armed.filter fun a => a.1 != p.entry } else s

/-- The executing slot parks at an address (R87). -/
def State.parkHere (s : State) (a : W64) (entry : Nat) : State :=
  let p := s.newPark s.cur.core a entry
  (s.arm p).mapSlot fun l => { l with park := some p }


/-! ## A task's own accesses -/

/-- Steps 2 to 7 of R174 for the executing instruction, whose word is reported by a trap; `k` goes on with the
location. -/
def State.access (s : State) (va : W64) (n : Nat) (k : Access) (word : W32) (f : Nat → State → State) : State :=
  match s.check s.cur va.toNat n k Mode.task with
  | .ok loc s1 => f loc s1
  | .trap c => s.trap c va word
  | .park entry => s.parkHere va entry
  | .stall _ => s.stallOn .access
  | .away loc unit => (s.askHost s.cur unit loc).stallOn .access

/-- An access of n bytes that must be naturally aligned (R173), then R174. -/
def State.aligned_ (s : State) (va : W64) (n : Nat) (k : Access) (word : W32) (f : Nat → State → State) : State :=
  if va.toNat % n ≠ 0 then s.trap .misaligned va word else s.access va n k word f

/-- An access below the watermark of a landing copy joins the copy for the destination bytes below its end (R207). -/
def State.joinPassed (s : State) (va n : Nat) : State :=
  let c := s.here
  let g := s.cur.core
  s.mapSlot fun l => l.join fun h => h.queue == 1 && decide (ownVa g h.addr < ownVa g va + n) &&
    c.wms.toList.any fun w => w.owner == (l.uid, h.ord) && w.passed g va

/-- A load of n bytes (R172, R176): the value as the task reads it, and the granule it has now read (R200). -/
def State.load (s : State) (va : W64) (n : Nat) (word : W32) (f : Nat → State → State) : State :=
  s.aligned_ va n .read word fun loc s1 =>
    f (s1.readBytes s1.cur loc n) ((s1.noteRead s1.cur loc).joinPassed va.toNat n)

/-- A boundary of R196: the publication of the pending stores and of the joined engine writes (R197), a refresh
point, and a quiescent point of R92. -/
def State.boundary (s : State) (r : SlotRef) (sc : Scope) : State :=
  let u := (s.slotAt r).uid
  ((s.publishAt r sc).modSlot r fun l => { l with hidden := l.hidden.filter fun h => !h.joined }).modCore r.core fun c =>
    { c with shoots := c.shoots.map fun x => { x with lagging := x.lagging.filter (· != u) } }

/-- A value put into the executing slot's store buffer (R193). -/
def State.bufferStore (s : State) (loc n v : Nat) : State :=
  s.mapSlot fun l => { l with
    pend := (cellsLE loc n v).foldl (fun p c => tset p c.1 c.2) l.pend
    hidden := l.hidden.map fun h => if loc ≤ h.loc ∧ h.loc < loc + n then { h with top := false } else h }

/-- A store of n bytes (R172, R193): where the buffer would need a 257th granule, D0 publishes at core scope first and
D1 and D2 raise DETERMINISM (R194). -/
def State.store (s : State) (va : W64) (n v : Nat) (word : W32) : State :=
  s.aligned_ va n .write word fun loc s1 =>
    let gs := granules s1.slot.pend
    if !(gs.contains (loc / 64)) && decide (Config.storeBufferGranules ≤ gs.length) then
      if s1.level = 0 then (((s1.boundary s1.cur .core).bufferStore loc n v).joinPassed va.toNat n).retire
      else s.trap .determinism va word
    else ((s1.bufferStore loc n v).joinPassed va.toNat n).retire

/-! ## Engine queues (R344 to R346) -/

/-- The three engine queues of a core. -/
inductive Which | vec | copy | mx
  deriving DecidableEq, Repr

/-- A queue of a core. -/
def Core.queue (c : Core) : Which → EngQ
  | .vec => c.vq
  | .copy => c.cq
  | .mx => c.mq
/-- A core with a queue replaced. -/
def Core.setQueue (c : Core) (w : Which) (q : EngQ) : Core :=
  match w with
  | .vec => { c with vq := q }
  | .copy => { c with cq := q }
  | .mx => { c with mq := q }
/-- How many records a queue holds (R344). -/
def Which.size : Which → Nat
  | .vec => Config.vecEntries
  | .copy => Config.copyRecords
  | .mx => Config.mxRecords
/-- ORIG of TSTAT for a queue (R365). -/
def Which.orig : Which → BitVec 3
  | .vec => 1
  | .copy => 2
  | .mx => 3

/-- Whether a queue is full (R141): it holds a record in every place, or one at TAIL that has not ended. -/
def EngQ.full (q : EngQ) (w : Which) : Bool :=
  decide (w.size ≤ q.recs.length) || q.recs.any fun r => r.idx == q.tail

/-- How many entries a slot has issued to a queue. -/
def Slot.issued (l : Slot) : Which → Nat
  | .vec => l.issuedVecs
  | .copy => l.issuedCopies
  | .mx => l.issuedMxs
/-- A slot that has issued one more entry to a queue. -/
def Slot.countIssue (l : Slot) : Which → Slot
  | .vec => { l with issuedVecs := l.issuedVecs + 1 }
  | .copy => { l with issuedCopies := l.issuedCopies + 1 }
  | .mx => { l with issuedMxs := l.issuedMxs + 1 }

/-- A record as the executing slot issues it: the captured state of R123, R248, R345 and R346. -/
def State.newRec (s : State) (w : Which) (i : Instr) (q : EngQ) (ops : List W64) : QRec :=
  let l := s.slot
  { instr := i, idx := q.tail, seq := q.seq, slot := s.cur.slot, uid := l.uid, task := l.task,
    gen := (s.queueOf s.cur).gen, st := .queued, vcfg := l.vcfg.setWidth 8, rm := BitVec.ofNat 3 (bits l.fpctl 2 0),
    fz := BitVec.ofNat 6 (bits l.fpctl 8 3), anch := BitVec.ofNat 16 (bits l.accanch 15 0), ops := ops,
    table := [], started := false, row := 0, off := 0, mrow := 0, moff := 0, rslot := 0, dst := 0, fin := .no,
    late := false, det := (s.launchOf s.cur).det,
    ord := l.issued w + 1, carry := [], order := 0, merged := 0, mark := 0, guard := [], park := none, bad := false }

/-- A record appended at TAIL (R344). -/
def EngQ.append (q : EngQ) (w : Which) (r : QRec) : EngQ :=
  { recs := q.recs ++ [r], head := if q.recs.isEmpty then q.tail else q.head,
    tail := (q.tail + 1) % w.size, seq := q.seq + 1 }

/-- An instruction that appends a record: it stalls while its queue is full (R141). `f` completes the record. -/
def State.issueTo (s : State) (w : Which) (i : Instr) (ops : List W64) (f : QRec → QRec) : State :=
  let q := s.here.queue w
  if q.full w then s.stallHere
  else ((s.modCore s.cur.core fun c => c.setQueue w (q.append w (f (s.newRec w i q ops)))).mapSlot fun l =>
    l.countIssue w).retire

/-- A record in an engine queue changed. -/
def Core.modRec (c : Core) (w : Which) (idx : Nat) (f : QRec → QRec) : Core :=
  let q := c.queue w
  c.setQueue w { q with recs := q.recs.map fun r => if r.idx = idx then f r else r }

/-- A record of an engine queue parks at an address: its entry is stalled there (R87). -/
def State.parkRec (s : State) (g : Nat) (w : Which) (idx : Nat) (a : W64) (entry : Nat) : State :=
  let p := s.newPark g a entry
  (s.arm p).modCore g fun c => c.modRec w idx fun z => { z with st := .running, park := some p }

/-- The entries of a task in a queue that have not ended (R228). -/
def EngQ.mine (q : EngQ) (uid : Nat) : List QRec := q.recs.filter fun r => r.uid == uid && r.st != .ended

end Sys2Proof.Machine
end

