-- ==== Sys2Proof/Machine/Operands.lean ====
section
/-! DEFINITION. The operand forms of the scalar classes: widths (R147), shift amounts (R149), bit-field controls
(R153), immediates with their prefixes (R137), addresses (R171, R177), and branch targets (R131). -/

namespace Sys2Proof.Machine

/-- An operation at the width sz names: at 32 bits the sources are their low halves and the result is
sign-extended (R147). -/
def sized (f : (w : Nat) → BitVec w → BitVec w → BitVec w) (sz : Size) (a b : W64) : W64 :=
  match sz with
  | .d64 => f 64 a b
  | .w32 => (f 32 (a.setWidth 32) (b.setWidth 32)).signExtend 64

/-- The truth of a condition at the width sz names (R147, R156). -/
def sizedTest (f : (w : Nat) → BitVec w → BitVec w → Bool) (sz : Size) (a b : W64) : Bool :=
  match sz with
  | .d64 => f 64 a b
  | .w32 => f 32 (a.setWidth 32) (b.setWidth 32)

/-- The value of an I- or M-format immediate: imm12 alone, or widened by the slot's prefixes (R137). -/
def Slot.imm (l : Slot) (i : BitVec 12) : W64 :=
  match l.pfx with
  | [] => i.signExtend 64
  | [p] => (p ++ i).signExtend 64
  | p1 :: p2 :: _ => ((p1.setWidth 24) ++ p2 ++ i : BitVec (24 + 28 + 12))

/-- The address of an M-format access (R171). -/
def State.maddr (s : State) (a : XReg) (i : BitVec 12) : W64 := s.rx a + s.slot.imm i

/-- The address of LDX and STX (R177). -/
def State.xaddr (s : State) (a b : XReg) (k : BitVec 2) : W64 := s.rx a + (s.rx b <<< k.toNat)

/-- The target of a branch or JAL: offset words from the word itself (R131). -/
def State.target {n : Nat} (s : State) (o : BitVec n) : W64 := s.slot.pc + (o.signExtend 64 <<< 2)

/-- Field position and length of BFX and BFI in s2 (R153). -/
def fieldPos (v : W64) : Nat := bits v 5 0
def fieldLen (v : W64) : Nat := bits v 13 8 + 1

/-- Bytes of LDX and STX (R177). -/
def memBytes : MemW → Nat
  | .b => 1
  | .h => 2
  | .w => 4
  | .d => 8

/-- Bits of a SEXT or ZEXT source (R154). -/
def extWidth : ExtW → Nat
  | .b8 => 8
  | .h16 => 16
  | .w32 => 32

/-- An n-byte value extended to a register, by sign or by zeros (R172, R177). -/
def extendTo (n : Nat) (signed : Bool) (v : Nat) : W64 :=
  if signed then (BitVec.ofNat (8 * n) v).signExtend 64 else BitVec.ofNat 64 v

/-- The second register of a pair (R215). -/
def pairHi (r : XReg) : XReg := r + 1

end Sys2Proof.Machine
end

