-- ==== Sys2Proof/Machine/Float.lean ====
section
/-! DEFINITION. The meanings of class 0x2, scalar floating point (R162 to R169). -/

namespace Sys2Proof.Machine

/-! ## Operands and results (R162) -/

/-- A class 0x2 instruction merges its flags, then writes its result or traps FP with the destination unwritten
(R102, R169). -/
def State.fpDone (s : State) (fl : Fl) (word : W32) (write : Slot → Slot) : Out :=
  let s1 := s.mapSlot fun l => { l with fpctl := mergeFlags l.fpctl fl }
  if enabledFlags s.slot.fpctl fl ≠ 0 then .next (s1.trap .fp (fl.setWidth 64) word)
  else .next ((s1.mapSlot write).retire)

/-- The operand bits of a format: the low 32 or 16 bits of a register. -/
def floatBits (f : FFmt) (v : W64) : Nat := v.toNat % 2 ^ (fmtOf f).width
/-- An operand's value, with the operand flush of its format (R101, R162). -/
def State.fsrc (s : State) (f : FFmt) (r : XReg) : Num :=
  (fmtOf f).read (flushIn s.slot.flush f) (floatBits f (s.rx r))
/-- A result in a format, with the result flush of the format, or without one. -/
def State.fres (s : State) (f : FFmt) (r : RMode) (x : Num) : Nat × Fl :=
  (fmtOf f).write r (flushOut s.slot.flush f) x
/-- A float result written to xd, and its flags (R162, R169). -/
def State.fput (s : State) (d : XReg) (v : Nat × Fl) (fl : Fl) (word : W32) : Out :=
  s.fpDone (fl ||| v.2) word (·.wx d (w64 v.1))
/-- An exact value with its flags, rounded into xd. -/
def State.fround (s : State) (d : XReg) (f : FFmt) (r : Rnd) (x : Num × Fl) (word : W32) : Out :=
  s.fput d (s.fres f (s.slot.mode r) x.1) x.2 word

/-! ## Arithmetic (R163) -/

/-- FADD (R163). -/
def execFadd (d a b : XReg) (f : FFmt) (r : Rnd) (s : State) : Out :=
  s.fround d f r (Num.add (s.slot.mode r) (s.fsrc f a) (s.fsrc f b)) (Instr.fadd d a b f r).encode
/-- FSUB (R163). -/
def execFsub (d a b : XReg) (f : FFmt) (r : Rnd) (s : State) : Out :=
  s.fround d f r (Num.add (s.slot.mode r) (s.fsrc f a) (s.fsrc f b).flip) (Instr.fsub d a b f r).encode
/-- FMUL (R163). -/
def execFmul (d a b : XReg) (f : FFmt) (r : Rnd) (s : State) : Out :=
  s.fround d f r (Num.mul (s.fsrc f a) (s.fsrc f b)) (Instr.fmul d a b f r).encode
/-- FFMA: one rounding, dv as the addend (R163). -/
def execFfma (d a b : XReg) (f : FFmt) (r : Rnd) (s : State) : Out :=
  s.fround d f r (Num.fma (s.slot.mode r) (s.fsrc f a) (s.fsrc f b) (s.fsrc f d)) (Instr.ffma d a b f r).encode
/-- FDIV (R163). -/
def execFdiv (d a b : XReg) (f : FFmt) (r : Rnd) (s : State) : Out :=
  s.fput d ((fmtOf f).div (s.slot.mode r) (flushOut s.slot.flush f) (s.fsrc f a) (s.fsrc f b)) 0
    (Instr.fdiv d a b f r).encode
/-- FSQRT (R122, R163). -/
def execFsqrt (d a : XReg) (f : FFmt) (r : Rnd) (s : State) : Out :=
  s.fput d ((fmtOf f).sqrt (s.slot.mode r) (flushOut s.slot.flush f) (s.fsrc f a)) 0 (Instr.fsqrt d a f r).encode

/-! ## Minimum, maximum and sign (R103, R164) -/

/-- A value written without rounding or result flush (R164). -/
def State.fexact (s : State) (d : XReg) (f : FFmt) (x : Num × Fl) (word : W32) : Out :=
  s.fput d ((fmtOf f).write .rne false x.1) x.2 word
/-- FMIN (R103, R164). -/
def execFmin (d a b : XReg) (f : FFmt) (r : Rnd) (s : State) : Out :=
  s.fexact d f (Num.minmax false (s.fsrc f a) (s.fsrc f b)) (Instr.fmin d a b f r).encode
/-- FMAX (R103, R164). -/
def execFmax (d a b : XReg) (f : FFmt) (r : Rnd) (s : State) : Out :=
  s.fexact d f (Num.minmax true (s.fsrc f a) (s.fsrc f b)) (Instr.fmax d a b f r).encode
/-- The value with its sign cleared. -/
def Num.abs (x : Num) : Num := if x.neg then x.flip else x
/-- FABS (R164). -/
def execFabs (d a : XReg) (f : FFmt) (r : Rnd) (s : State) : Out :=
  s.fexact d f ((s.fsrc f a).abs, 0) (Instr.fabs d a f r).encode
/-- FNEG (R164). -/
def execFneg (d a : XReg) (f : FFmt) (r : Rnd) (s : State) : Out :=
  s.fexact d f ((s.fsrc f a).flip, 0) (Instr.fneg d a f r).encode

/-! ## Comparison (R165) -/

/-- The truth of a relation, and NV for the operands it names. -/
def frel (c : FRel) (x y : Num) : Bool × Fl :=
  let un := x.isNan || y.isNan
  let sig := x.isSig || y.isSig
  match c with
  | .eq => (x.eqv y, flIf sig flNV)
  | .lt => (!un && x.lt y, flIf un flNV)
  | .le => (!un && (x.lt y || x.eqv y), flIf un flNV)
  | .un => (un, flIf sig flNV)
  | .ne => (un || !(x.eqv y), flIf sig flNV)
  | .ord => (!un, flIf sig flNV)
/-- FCMPP (R165). -/
def execFcmpp (d : PReg) (a b : XReg) (f : FFmt) (c : FRel) (s : State) : Out :=
  let r := frel c (s.fsrc f a) (s.fsrc f b)
  s.fpDone r.2 (Instr.fcmpp d a b f c).encode (·.wp d r.1)

/-! ## Conversions (R166, R167) and the class mask (R168) -/

/-- The bounds of an integer type. -/
def intBounds (t : IntTy) : Int × Int :=
  match t with
  | .s64 => (-(2 ^ 63), 2 ^ 63 - 1)
  | .n64 => (0, 2 ^ 64 - 1)
  | .s32 => (-(2 ^ 31), 2 ^ 31 - 1)
  | .n32 => (0, 2 ^ 32 - 1)
/-- The integer in a register (R166). -/
def intOperand (t : IntTy) (v : W64) : Int :=
  match t with
  | .s64 => v.toInt
  | .n64 => v.toNat
  | .s32 => (v.setWidth 32).toInt
  | .n32 => (v.setWidth 32).toNat
/-- FCVTI (R104, R166). -/
def execFcvti (d a : XReg) (t : IntTy) (f : FFmt) (r : Rnd) (s : State) : Out :=
  let (lo, hi) := intBounds t
  let (i, fl) := (s.fsrc f a).toIntBounded (s.slot.mode r) lo hi
  s.fpDone fl (Instr.fcvti d a t f r).encode (·.wx d (BitVec.ofInt 64 i))
/-- ICVTF (R104, R166). -/
def execIcvtf (d a : XReg) (t : IntTy) (f : FFmt) (r : Rnd) (s : State) : Out :=
  s.fround d f r (Num.ofInt (intOperand t (s.rx a)), 0) (Instr.icvtf d a t f r).encode
/-- FCVT from the format t to the format f (R167). -/
def execFcvt (d a : XReg) (t f : FFmt) (r : Rnd) (s : State) : Out :=
  s.fround d f r (s.fsrc t a, 0) (Instr.fcvt d a t f r).encode
/-- The class bit of raw operand bits (R168). -/
def fclassBit (f : FFmt) (n : Nat) : Nat :=
  let m := fmtOf f
  let sub := n % 2 ^ (m.width - 1) < 2 ^ m.fbits
  match m.read false n with
  | .inf neg => if neg then 0 else 7
  | .nan sg => if sg then 8 else 9
  | .fin neg k _ =>
    if k = 0 then (if neg then 3 else 4)
    else if sub then (if neg then 2 else 5)
    else if neg then 1 else 6
/-- FCLASS (R168). -/
def execFclass (d a : XReg) (f : FFmt) (_r : Rnd) (s : State) : Out :=
  .next ((s.wx d (w64 (2 ^ fclassBit f (floatBits f (s.rx a))))).retire)

end Sys2Proof.Machine
end

