-- ==== Sys2Proof/Machine/Memory.lean ====
section
/-! DEFINITION. The meanings of class 0x3: loads and stores (R171 to R177), prefetch and cache operations (R179, R180)
and the tag table (R69 to R71, R181 to R184). -/

namespace Sys2Proof.Machine

/-! ## Loads and stores -/

/-- A load of n bytes into xd, extended (R172). -/
def State.loadTo (s : State) (d : XReg) (va : W64) (n : Nat) (signed : Bool) (word : W32) : Out :=
  .next (s.load va n word fun v s1 => (s1.wx d (extendTo n signed v)).retire)

/-- LD.S8 (R172). -/
def execLdS8 (d a : XReg) (i : BitVec 12) (s : State) : Out :=
  s.loadTo d (s.maddr a i) 1 true (Instr.ldS8 d a i).encode
/-- LD.N8 (R172). -/
def execLdN8 (d a : XReg) (i : BitVec 12) (s : State) : Out :=
  s.loadTo d (s.maddr a i) 1 false (Instr.ldN8 d a i).encode
/-- LD.S16 (R172). -/
def execLdS16 (d a : XReg) (i : BitVec 12) (s : State) : Out :=
  s.loadTo d (s.maddr a i) 2 true (Instr.ldS16 d a i).encode
/-- LD.N16 (R172). -/
def execLdN16 (d a : XReg) (i : BitVec 12) (s : State) : Out :=
  s.loadTo d (s.maddr a i) 2 false (Instr.ldN16 d a i).encode
/-- LD.S32 (R172). -/
def execLdS32 (d a : XReg) (i : BitVec 12) (s : State) : Out :=
  s.loadTo d (s.maddr a i) 4 true (Instr.ldS32 d a i).encode
/-- LD.N32 (R172). -/
def execLdN32 (d a : XReg) (i : BitVec 12) (s : State) : Out :=
  s.loadTo d (s.maddr a i) 4 false (Instr.ldN32 d a i).encode
/-- LD.64 (R172). -/
def execLd64 (d a : XReg) (i : BitVec 12) (s : State) : Out :=
  s.loadTo d (s.maddr a i) 8 false (Instr.ld64 d a i).encode
/-- ST.8 (R172). -/
def execSt8 (d a : XReg) (i : BitVec 12) (s : State) : Out :=
  .next (s.store (s.maddr a i) 1 (s.rx d).toNat (Instr.st8 d a i).encode)
/-- ST.16 (R172). -/
def execSt16 (d a : XReg) (i : BitVec 12) (s : State) : Out :=
  .next (s.store (s.maddr a i) 2 (s.rx d).toNat (Instr.st16 d a i).encode)
/-- ST.32 (R172). -/
def execSt32 (d a : XReg) (i : BitVec 12) (s : State) : Out :=
  .next (s.store (s.maddr a i) 4 (s.rx d).toNat (Instr.st32 d a i).encode)
/-- ST.64 (R172). -/
def execSt64 (d a : XReg) (i : BitVec 12) (s : State) : Out :=
  .next (s.store (s.maddr a i) 8 (s.rx d).toNat (Instr.st64 d a i).encode)
/-- LDX (R177). -/
def execLdx (d a b : XReg) (mw : MemW) (e : Bool) (k : BitVec 2) (s : State) : Out :=
  s.loadTo d (s.xaddr a b k) (memBytes mw) e (Instr.ldx d a b mw e k).encode
/-- STX (R177). -/
def execStx (d a b : XReg) (mw : MemW) (k : BitVec 2) (s : State) : Out :=
  .next (s.store (s.xaddr a b k) (memBytes mw) (s.rx d).toNat (Instr.stx d a b mw k).encode)

/-! ## Prefetch and cache operations -/

/-- PFH: a hint that changes no value a load may return; it performs no access, sets no bit and never traps (R179). -/
def execPfh (_t : PfhTo) (_a : XReg) (_i : BitVec 12) (s : State) : Out := .next s.retire

/-- What a core may hold of a 128-byte line in its pool cache, and what any L2 may hold of it, reaches the line's home
(R180): bytes published at a scope that the core or a die's L2 serves. -/
def State.cleanLine (s : State) (g line : Nat) : State :=
  s.flushBy fun o => o.loc / 128 == line && o.eng.isNone && (o.sees g || match o.scope with
    | .core | .cluster => false
    | _ => true)

/-- CBO: checked as a read by steps 2 to 5 of R174; in D0 and D1 what the caches hold of the line is written home, and in D2
nothing else happens (R76, R180). On a window address that lies in a region it does nothing. -/
def execCbo (o : CboOp) (a : XReg) (i : BitVec 12) (s : State) : Out :=
  let va := s.maddr a i
  let word := (Instr.cbo o a i).encode
  if isWindow va.toNat then
    let off := va.toNat % 2 ^ 20
    let sib := va.toNat / 2 ^ 52 == 0xFFE
    let g := if sib then s.cur.core / 4 * 4 + va.toNat / 2 ^ 20 % 4 else s.cur.core
    let hi := if sib then va.toNat / 2 ^ 22 % 2 ^ 30 else va.toNat / 2 ^ 20 % 2 ^ 32
    if hi ≠ 0 || (sib && !(s.launchOf s.cur).cgran) || !((s.core g).regionOk sib off 1) then
      .next (s.trap .poolRange va word)
    else .next s.retire
  else match s.check s.cur va.toNat 1 .read Mode.early with
    | .ok loc s1 => .next (if s.level = 2 then s1 else s1.cleanLine s.cur.core (loc / 128)).retire
    | .trap c => .next (s.trap c va word)
    | .park entry => .next (s.parkHere va entry)
    | .stall _ | .away .. => .next s.stallHere

/-! ## The tag table -/

/-- An entry of the core's tag table (R69). -/
def Core.tag (c : Core) (i : Nat) : TagEntry := tget TagEntry.reset c.tags i
/-- A core with a tag-table entry replaced. -/
def Core.setTag (c : Core) (i : Nat) (e : TagEntry) : Core := { c with tags := tset c.tags i e }
/-- The lowest-numbered valid entry with a key (R70). -/
def Core.tagFind (c : Core) (k : W64) : Option (Nat × TagEntry) :=
  c.tags.find? fun (_, e) => e.valid && e.key == k
/-- The placement word of a hit (R181). -/
def placementWord (i : Nat) (e : TagEntry) : W64 :=
  w64 (2 ^ 63 + i * 2 ^ 21 + e.len.toNat * 2 ^ 10 + e.off.toNat)

/-- A table operation: an entry that ECC cannot correct ends the task that operates on the table next (R72), whose
TVAL the spec does not give (a free value, assumption 2); the entry is then invalid (assumption 9). -/
def State.tagOp (s : State) (word : W32) (f : State → State) : Out :=
  if s.here.tags.any fun (_, e) => e.bad then
    let (v, s1) := s.freeFor s.cur true
    .next ((s1.modCore s.cur.core fun c =>
      { c with tags := c.tags.map fun (i, e) => (i, if e.bad then TagEntry.reset else e) }).trap .uncorrectable v word)
  else .next (f s)

/-- TLOOK (R70, R182). -/
def execTlook (d a : XReg) (info : Bool) (s : State) : Out :=
  s.tagOp (Instr.tlook d a info).encode fun s =>
    let v : W64 := match s.here.tagFind (s.rx a) with
      | none => 0
      | some (i, e) => if info then placementWord i e else 0xFFF0000000000000 + w64 (e.off.toNat * 1024)
    (s.wx d v).retire

/-- TINS (R70, R183). -/
def execTins (a b : XReg) (s : State) : Out :=
  s.tagOp (Instr.tins a b).encode fun s =>
    let w := s.rx b
    let off := bits w 9 0
    let len := bits w 20 10
    if off * 1024 < s.here.b2.toNat * 16384 || 1048576 < (off + len) * 1024 || len == 0 then
      s.trap .poolRange w (Instr.tins a b).encode
    else
      (s.modCore s.cur.core fun c => c.setTag (bits w 28 21)
        { key := s.rx a, off := BitVec.ofNat 10 off, len := BitVec.ofNat 11 len, valid := true, bad := false }).retire

/-- TDEL (R70, R184). -/
def execTdel (a : XReg) (s : State) : Out :=
  s.tagOp (Instr.tdel a).encode fun s =>
    let i := bits (s.rx a) 28 21
    (s.modCore s.cur.core fun c => c.setTag i { c.tag i with valid := false }).retire

end Sys2Proof.Machine
end

