-- ==== Sys2Proof/Machine/Branch.lean ====
section
/-! DEFINITION. The meanings of class 0x4, branches and jumps (R185 to R187), of LIX (R137, R138) and of NOP (R241). -/

namespace Sys2Proof.Machine

/-- A conditional branch (R131, R185). -/
def State.branch (s : State) (c : Bool) (o : BitVec 14) : Out :=
  .next (if c then s.jump (s.target o) else s.retire)

/-- BEQ (R185). -/
def execBeq (a b : XReg) (o : BitVec 14) (s : State) : Out := s.branch (s.rx a == s.rx b) o
/-- BNE (R185). -/
def execBne (a b : XReg) (o : BitVec 14) (s : State) : Out := s.branch (s.rx a != s.rx b) o
/-- BLT (R185). -/
def execBlt (a b : XReg) (o : BitVec 14) (s : State) : Out := s.branch ((s.rx a).slt (s.rx b)) o
/-- BGE (R185). -/
def execBge (a b : XReg) (o : BitVec 14) (s : State) : Out := s.branch (!((s.rx a).slt (s.rx b))) o
/-- BLTN (R185). -/
def execBltn (a b : XReg) (o : BitVec 14) (s : State) : Out := s.branch ((s.rx a).ult (s.rx b)) o
/-- BGEN (R185). -/
def execBgen (a b : XReg) (o : BitVec 14) (s : State) : Out := s.branch (!((s.rx a).ult (s.rx b))) o
/-- BPT (R185). -/
def execBpt (p : PReg) (o : BitVec 14) (s : State) : Out := s.branch (s.slot.rp p) o
/-- BPF (R185). -/
def execBpf (p : PReg) (o : BitVec 14) (s : State) : Out := s.branch (!(s.slot.rp p)) o
/-- LOOP (R186). -/
def execLoop (a : XReg) (o : BitVec 14) (s : State) : Out :=
  let c := s.rx a - 1
  (s.wx a c).branch (c != 0) o

/-- JALR: a target that is not word-aligned traps at the JALR with rd unwritten (R187). -/
def execJalr (d a : XReg) (o : BitVec 14) (s : State) : Out :=
  let t := s.rx a + o.signExtend 64
  if bits t 1 0 ≠ 0 then .next (s.trap .misaligned t (Instr.jalr d a o).encode)
  else .next ((s.wx d (s.slot.pc + 4)).jump t)
/-- JAL (R187). -/
def execJal (d : XReg) (o : BitVec 19) (s : State) : Out :=
  .next ((s.wx d (s.slot.pc + 4)).jump (s.target o))

/-- The word of a LIX. -/
def lixWord (i : BitVec 28) : W32 := 0xC#4 ++ i

/-- LIX: the prefix joins the slot's chain; a third one traps PREFIX, and a second one traps ILLEGAL when the first has
a bit of [27:24] set, with the first as the word at fault (R137, R138; DEDUCED, assumption 10). -/
def execLix (i : BitVec 28) (s : State) : Out :=
  match s.slot.pfx with
  | [] => .next (s.mapSlot fun l => { l with pfx := [i], pfxPc := l.pc, pc := l.pc + 4, started := true, stalled := false })
  | [p] =>
    if bits p 27 24 ≠ 0 then .next (s.trap .illegal 0 (lixWord p))
    else .next (s.mapSlot fun l => { l with pfx := [p, i], pc := l.pc + 4, stalled := false })
  | _ => .next (s.trapOpen .prefixed (lixWord i))

/-- NOP (R241). -/
def execNop (s : State) : Out := .next s.retire

end Sys2Proof.Machine
end

