-- ==== Sys2Proof/Machine/Image.lean ====
section
/-! DEFINITION. The slot block (R374), the checkpoint record (R360) and the reading back of a slot from them. -/

namespace Sys2Proof.Machine

/-- Bytes of a value to be written at an offset: offset, how many, the value. -/
abbrev Piece := Nat × Nat × Nat

/-- The bytes of pieces at a base location. -/
def piecesAt (base : Nat) (ps : List Piece) : List (Nat × Byte) :=
  ps.flatMap fun (o, k, v) => cellsLE (base + o) k v

/-- The slot CSRs 0x7C0 to 0x7CB in order of number (R129). -/
def Slot.csrList (l : Slot) : List W64 :=
  [l.ageLimit, l.gangctl, l.parklim, l.fpctl, l.accanch, l.vcfg, l.tvec, l.tcause, l.tpc, l.tval, l.tword, l.tstat]

/-- The pending traps of a slot in the order in which they are taken (R367, R374, R434). -/
def Slot.pendingTraps (l : Slot) : List PendTrap := l.evTraps ++ l.engTraps

/-- A pending trap's 32 bytes: R374 names the contents and not their places (assumption 11). -/
def trapPieces (k : Nat) (t : PendTrap) : List Piece :=
  [(0x300 + 32 * k, 8, t.cause.code.toNat + t.qent.toNat * 2 ^ 16 + t.orig.toNat * 2 ^ 32),
   (0x308 + 32 * k, 8, t.tval.toNat), (0x310 + 32 * k, 8, t.word.toNat), (0x318 + 32 * k, 8, 0)]

/-- The slot block of R374, with the PC given. -/
def Slot.blockPieces (l : Slot) (pc : W64) : List Piece :=
  [(0, 8, pc.toNat)] ++ (((List.range 31).map fun k => (8 * (k + 1), 8, (l.x.toList.getD (k + 1) 0).toNat)) ++
  ([(0x100, 8, l.p.toNat / 2 * 2)] ++ (((List.range 8).map fun k => (0x108 + 2 * k, 2, (l.tok.toList.getD k 0).toNat)) ++
  ([(0x118, 8, 0)] ++ (((l.csrList.zipIdx).map fun (v, k) => (0x120 + 8 * k, 8, v.toNat)) ++
  ([(0x180, 8, l.task.toNat + roleCode l.role * 2 ^ 32 + l.entry.toNat * 2 ^ 34 + b2n l.occ * 2 ^ 36),
    (0x188, 0x78, 0)] ++
  (((List.range 16).map fun k => (0x200 + 16 * k, 16, (l.mxtab.toList.getD k 0).toNat)) ++
  (((l.pendingTraps.take 5).zipIdx.flatMap fun (t, k) => trapPieces k t) ++
   [(0x300 + 32 * (l.pendingTraps.take 5).length, 0x100 - 32 * (l.pendingTraps.take 5).length, 0)]))))))))

/-- The cause of a code; none for 0 and the codes that are never written (R369). -/
def causeOf (n : Nat) : Option Cause :=
  ([.illegal, .staleLatch, .misaligned, .lease, .poolRange, .wmFrozen, .copySpec, .mxSpec, .fp, .bkpt, .swtrap,
    .gangBroken, .timeLate, .stepOverrun, .schedBreak, .uncorrectable, .parkTimeout, .priv, .prefixed, .determinism,
    .poolPin] : List Cause)[n - 1]?

/-- The bits of the slot CSRs 0x7C0 to 0x7CB that are not RSV, in order of number (R32, R33, R88, R100, R119, R245, R365). -/
def csrHeld : List W64 :=
  [0xFFFF, 1, 0xFFFF, 0x1F0001FF, 0xFFFF, 0xFF, 0xFFFFFFFFFFFFFFFC, 0xFF, 0xFFFFFFFFFFFFFFFF, 0xFFFFFFFFFFFFFFFF, 0xFFFFFFFF,
   0xFFFFFFFF00FF00F1]

/-- A slot with the contents of a slot block, given how to read k bytes at an offset of it; RSV fields read zero whatever the
block holds there (R10). -/
def Slot.ofBlock (l : Slot) (rd : Nat → Nat → Nat) : Slot :=
  let csr := fun k => w64 (rd (0x120 + 8 * k) 8) &&& csrHeld.getD k 0
  let traps := (List.range 5).filterMap fun k =>
    let w := rd (0x300 + 32 * k) 8
    if w % 256 = 0 then none else (causeOf (w % 256)).map fun c =>
      ({ cause := c, tval := w64 (rd (0x308 + 32 * k) 8), word := BitVec.ofNat 32 (rd (0x310 + 32 * k) 8),
         qent := BitVec.ofNat 8 (w / 2 ^ 16), orig := BitVec.ofNat 3 (w / 2 ^ 32)
         freeze := l.engTraps.any fun x => x.freeze && x.orig == BitVec.ofNat 3 (w / 2 ^ 32) } : PendTrap)
  { l with
    pc := w64 (rd 0 8)
    x := Vector.ofFn fun k => if k.val = 0 then 0 else w64 (rd (8 * k.val) 8)
    p := BitVec.ofNat 8 (rd 0x100 1 / 2 * 2)
    tok := Vector.ofFn fun k => BitVec.ofNat 16 (rd (0x108 + 2 * k.val) 2)
    ageLimit := csr 0, gangctl := csr 1, parklim := csr 2, fpctl := csr 3, accanch := csr 4, vcfg := csr 5
    tvec := csr 6, tcause := csr 7, tpc := csr 8, tval := csr 9, tword := csr 10, tstat := csr 11
    task := BitVec.ofNat 32 (rd 0x180 4)
    role := roleOf (rd 0x184 1 % 4)
    entry := BitVec.ofNat 2 (rd 0x184 1 / 4)
    mxtab := Vector.ofFn fun k => BitVec.ofNat 128 (rd (0x200 + 16 * k.val) 16)
    evTraps := traps.filter fun t => t.cause == .stepOverrun || t.cause == .schedBreak
    engTraps := traps.filter fun t => !(t.cause == .stepOverrun || t.cause == .schedBreak) }

/-- The checkpoint record of a slot (R360): the slot block, m1 to m7 and v0 to v(VREGS - 1). -/
def Slot.checkpointPieces (l : Slot) (pc : W64) (vregs : Nat) : List Piece :=
  l.blockPieces pc ++ (((List.range 7).map fun k => (0x400 + 128 * (k + 1), 128, (l.m.toList.getD (k + 1) 0).toNat)) ++
  ((List.range vregs).map fun n => (0x800 + 512 * n, 512, (l.rv n).toNat)))

/-- A slot as its checkpoint record gives it. -/
def Slot.ofCheckpoint (l : Slot) (rd : Nat → Nat → Nat) (vregs : Nat) : Slot :=
  { l.ofBlock rd with
    m := Vector.ofFn fun k => if k.val = 0 then 0 else BitVec.ofNat 1024 (rd (0x400 + 128 * k.val) 128)
    v := Vector.ofFn fun n => if n.val < vregs then BitVec.ofNat 4096 (rd (0x800 + 512 * n.val) 512) else 0 }

/-- Where the checkpoint record of a slot lies (R360). -/
def State.checkpointAt (s : State) (r : SlotRef) : Nat :=
  (s.queueOf r).ckbase.toNat + (4 * r.core + r.slot.val) * 32768

/-- PHASE with the checkpoint flag writes the record (R220, R360). -/
def State.writeCheckpoint (s : State) (r : SlotRef) : State :=
  let l := s.slotAt r
  (s.homeWrite (piecesAt (s.checkpointAt r) (l.checkpointPieces (l.pc + 4) (s.core r.core).vregs))).modSlot r
    fun l => { l with ckpt := true, ckIssued := [l.issuedVecs, l.issuedCopies, l.issuedMxs, l.opens] }

/-- A slot restarted from its checkpoint record, with TSTAT.CKR = 1 (R359); its task's entries and open values are counted on
from the checkpoint (R379). -/
def State.fromCheckpoint (s : State) (r : SlotRef) (l : Slot) : Slot :=
  let base := s.checkpointAt r
  let l1 := l.ofCheckpoint (fun o k => s.peek (base + o) k) (s.core r.core).vregs
  let n := (s.slotAt r).ckIssued
  { l1 with
    tstat := l1.tstat ||| 0x80
    issuedVecs := n.getD 0 0, issuedCopies := n.getD 1 0, issuedMxs := n.getD 2 0, opens := n.getD 3 0, ckIssued := n }

end Sys2Proof.Machine
end

