-- ==== Sys2Proof/Machine/Sync.lean ====
section
/-! DEFINITION. The meanings of class 0x5: semaphores (R212 to R219), phases, barriers and gangs (R220 to R222), memory
atomics (R223 to R225), tokens and engine waits (R226 to R230). What a home does with an operation it receives is in
Homes.lean. -/

namespace Sys2Proof.Machine

/-! ## Names of semaphores (R212, R213) -/

/-- The device, die and index a name holds. -/
def semDev (n : W64) : BitVec 20 := BitVec.ofNat 20 (bits n 51 32)
def semDie (n : W64) : Nat := bits n 31 29
def semIndex (n : W64) : Nat := bits n 13 0

/-- Whether a device is part of the system: one that has been assigned its DEVID (R213, R409). -/
def State.inSystem (s : State) (d : BitVec 20) : Bool := d == s.devid || s.system.contains d

/-- What the check of a name against a context's grant comes to (R213): nothing, LEASE, or DETERMINISM for another
device at level 2. -/
def State.semCheckFor (s : State) (q lvl : Nat) (name : W64) : Option Cause :=
  let u := s.queue q
  if bits name 63 52 ≠ 0 || bits name 28 14 ≠ 0 || !(s.inSystem (semDev name)) ||
      decide (semIndex name < u.semb) || decide (u.semb + u.semn ≤ semIndex name) then some .lease
  else if semDev name ≠ s.devid && lvl == 2 then some .determinism
  else none

/-- The check of a name by the executing instruction (R213). -/
def State.semCheck (s : State) (name : W64) : Option Cause :=
  s.semCheckFor (s.launchOf s.cur).queue s.level name

/-- A semaphore instruction goes on when its name passes the check; a LEASE reports the name (R213). -/
def State.withName (s : State) (name : W64) (word : W32) (f : State → State) : State :=
  match s.semCheck name with
  | some .lease => s.trap .lease name word
  | some c => s.trapOpen c word
  | none => f s

/-- The code by which a flit names an operation on another device's semaphore. -/
def semOpCode (k : SemKind) : Nat :=
  match k with
  | .sig _ => 0
  | .wait _ take => if take then 2 else 1
  | .add _ => 3
  | .set _ => 4
  | .read => 5
  | .arm .. => 6
/-- The amount, addend, value or threshold of an operation. -/
def semAmount (k : SemKind) : W64 :=
  match k with
  | .sig v => v
  | .wait v _ => v
  | .add v => v
  | .set v => v
  | .read => 0
  | .arm _ _ v => v
/-- The launch and TCB of an arm. -/
def semTcb (k : SemKind) : Nat × Nat :=
  match k with
  | .arm l t _ => (l, t)
  | _ => (0, 0)

/-- The cycles that the publication of a slot's pending stores at a scope takes (R231). -/
def Slot.pubCycles (l : Slot) (sc : Scope) : Nat :=
  (match sc with | .core => 2 | .cluster => 8 | .die => 24 | .package => 96 | .system => 400) +
    cdiv (granules l.pend).length 4

/-- An operation put into a home's order of arrival: by the cycle, then by the global index of the core, then by the slot
(R231). -/
def insertSem (o : SemOp) : List SemOp → List SemOp
  | [] => [o]
  | p :: ps =>
    if o.due < p.due ∨ (o.due = p.due ∧ (o.core < p.core ∨ (o.core = p.core ∧ o.slot < p.slot))) then o :: p :: ps
    else p :: insertSem o ps
/-- A gang operation put into a home's order of arrival (R231). -/
def insertGang (o : GangOp) : List GangOp → List GangOp
  | [] => [o]
  | p :: ps =>
    if o.due < p.due ∨ (o.due = p.due ∧ (o.core < p.core ∨ (o.core = p.core ∧ o.slot < p.slot))) then o :: p :: ps
    else p :: insertGang o ps

/-- A semaphore operation reaches the order of arrival of its home (R231). -/
def State.postSem (s : State) (die : Nat) (o : SemOp) : State :=
  s.modDie die fun d => { d with inbox := insertSem o d.inbox }

/-- The reference cycle in which an operation leaves the executing slot, a number of cycles after its latest publication
(R231). -/
def State.leaveAt (s : State) (after : Nat) : Nat := Nat.max s.refclk s.slot.busyTill + after

/-- The executing slot is occupied until a number of cycles after its latest publication (R231). -/
def State.occupy (s : State) (after : Nat) : State := s.mapSlot fun l => { l with busyTill := Nat.max s.refclk l.busyTill + after }

/-- A semaphore operation leaves the slot, a number of cycles from now, for the home its name gives (R210, R214): a die of
this device, or another device over the Berby links (R408). -/
def State.sendSem (s : State) (name : W64) (k : SemKind) (after : Nat) : State :=
  let l := s.slot
  let q := (s.launchOf s.cur).queue
  let g := (s.queueOf s.cur).gen
  if semDev name = s.devid then
    s.postSem (semDie name) { index := semIndex name, kind := k, core := s.cur.core, slot := s.cur.slot, uid := l.uid,
                              queue := q, gen := g, dev := s.devid,
                              due := s.leaveAt after + wayCycles s.cur.core (semDie name) }
  else
    { s with outbox := s.outbox ++
        [{ dest := semDev name, body := .semUpdate name (semAmount k) (semOpCode k) (semTcb k).1 (semTcb k).2 s.devid
            s.cur.core s.cur.slot.val l.uid q g }] }

/-- A SEM.WAIT that went to another device can be withdrawn there (R244). -/
def State.noteAway (s : State) (name : W64) : State :=
  if semDev name = s.devid then s else s.mapSlot fun l => { l with away := some name, cancelled := false }

/-- The slot waits for an answer. -/
def State.waitFor (s : State) (w : Wait) : State :=
  s.mapSlot fun l => { l with wait := w, started := true, stalled := false, lag := 0 }

/-- System scope raises DETERMINISM in D2 before any effect (R243). -/
def State.scopeOk (s : State) (sc : Scope) : Bool := !(sc == .system && s.level == 2)

/-- SEM.SIG: publishes, sends the update and goes on (R216); what the slot sends afterwards leaves after it (R231). -/
def execSemSig (a b : XReg) (sc : Scope) (s : State) : Out :=
  let word := (Instr.semSig a b sc).encode
  .next (if !(s.scopeOk sc) then s.trapOpen .determinism word
  else s.withName (s.rx a) word fun s =>
    let after := s.slot.pubCycles sc + 1
    (((s.boundary s.cur sc).sendSem (s.rx a) (.sig (s.rx b)) after).occupy after).retire)

/-- SEM.WAIT: the wait is sent, and the slot holds until its condition is met at the home (R217). -/
def execSemWait (d a b : XReg) (take : Bool) (s : State) : Out :=
  .next (s.withName (s.rx a) (Instr.semWait d a b take).encode fun s =>
    ((s.sendSem (s.rx a) (.wait (s.rx b) take) 0).waitFor (.sem d true)).noteAway (s.rx a))

/-- SEM.ADD (R218). -/
def execSemAdd (d a b : XReg) (s : State) : Out :=
  .next (s.withName (s.rx a) (Instr.semAdd d a b).encode fun s =>
    (s.sendSem (s.rx a) (.add (s.rx b)) 0).waitFor (.sem d false))

/-- SEM.SET (R218). -/
def execSemSet (a b : XReg) (s : State) : Out :=
  .next (s.withName (s.rx a) (Instr.semSet a b).encode fun s => (s.sendSem (s.rx a) (.set (s.rx b)) 0).waitFor (.sem 0 false))

/-- SEM.READ (R218). -/
def execSemRead (d a : XReg) (s : State) : Out :=
  .next (s.withName (s.rx a) (Instr.semRead d a).encode fun s => (s.sendSem (s.rx a) (.read) 0).waitFor (.sem d false))

/-- SEM.ARM: DETERMINISM in D2 (R243); then the TCB is checked as a write and the name is checked (R219); result 2 for
an index past the table; otherwise the arm is sent, and the home answers 0, 1 or 3. For a home on another device this device
holds the TCB, so it looks at its STATE before it sends the arm. -/
def execSemArm (d a b : XReg) (s : State) : Out :=
  let word := (Instr.semArm d a b).encode
  let i := (s.rx a).toNat
  let l := s.launchOf s.cur
  let at_ := l.tcbs + w64 (64 * i)
  let name := s.rx b
  let arm := fun (s : State) =>
    s.withName name word fun s =>
      let t := s.rx (pairHi b)
      if semDev name = s.devid then (s.sendSem name (.arm s.slot.launch i t) 0).waitFor (.sem d false)
      else if s.tcbFree s.slot.launch i then (s.sendSem name (.arm s.slot.launch i t) 0).waitFor (.arm d i name t)
      else (s.wx d 1).retire
  .next (if s.level = 2 then s.trapOpen .determinism word
  else if l.ntcb ≤ i then s.withName name word fun s => (s.wx d 2).retire
  else
    match s.checkTranslated s.cur at_.toNat 1 .write Mode.early with
    | .ok _ s1 =>
      (match s1.checkTranslated s.cur (at_ + 63).toNat 1 .write Mode.early with
       | .ok _ s2 => arm s2
       | .park entry => s.parkHere at_ entry
       | .stall _ | .away .. => s.stallHere
       | .trap _ => s.trap .lease at_ word)
    | .park entry => s.parkHere at_ entry
    | .stall _ | .away .. => s.stallHere
    | .trap _ => s.trap .lease at_ word)

/-! ## Engine waits (R207, R227 to R230) -/

/-- The slot's entries in a queue that have not ended. -/
def State.inFlight (s : State) (w : Which) : List QRec := (s.here.queue w).mine s.slot.uid

/-- A wait that completes joins every operation of the slot that has ended (R207). -/
def State.joinEnded (s : State) : State :=
  let c := s.here
  s.mapSlot fun l => l.join fun h =>
    let q := if h.queue = 0 then c.vq else if h.queue = 1 then c.cq else c.mq
    !(q.recs.any fun r => r.ord == h.ord && r.uid == l.uid && r.st != .ended)

/-- An engine wait: it holds the slot until its condition is met, and then reports the first unreported frozen copy it
joins, one trap for each, which joins that copy (R228, R230). `joins` says which copy entries it joins, by their order of issue. -/
def State.engineWait (s : State) (met : Bool) (joins : Nat → Bool) (word : W32) (k : State → State) : State :=
  if !met then s.stallHere else
  match s.slot.frozen.find? fun f => joins f.1 with
  | some f => (s.mapSlot fun l => { l with frozen := l.frozen.erase f }.join fun h =>
      h.queue == 1 && h.ord == f.1).trap .wmFrozen f.2 word
  | none => k s.joinEnded

/-- Whether every entry of the slot in the queues of a mask has ended; a mask of 0 means all three (R215, R230). -/
def State.fenceMet (s : State) (m : BitVec 3) : Bool :=
  let on := fun (k : Nat) => m == 0 || m.getLsbD k
  (!(on 0) || (s.inFlight .vec).isEmpty) && (!(on 1) || (s.inFlight .copy).isEmpty) &&
  (!(on 2) || (s.inFlight .mx).isEmpty)

/-- FENCE.E (R230). -/
def execFenceE (m : BitVec 3) (s : State) : Out :=
  .next (s.engineWait (s.fenceMet m) (fun _ => m == 0 || m.getLsbD 1) (Instr.fenceE m).encode State.retire)

/-- The queue of an engine code; none for the sequencer. -/
def engWhich (e : Eng) : Option Which :=
  match e with
  | .seq => none
  | .vec => some .vec
  | .copy => some .copy
  | .mx => some .mx

/-- WAITE (R228). A well-formed WAITE names an engine. -/
def execWaite (e : Eng) (k : BitVec 5) (s : State) : Out :=
  let word := (Instr.waite e k).encode
  .next (match engWhich e with
  | none => s.trap .illegal 0 word
  | some w =>
    let last := s.slot.issuedCopies - k.toNat
    s.engineWait (decide ((s.inFlight w).length ≤ k.toNat)) (fun n => w == .copy && decide (n ≤ last)) word
      State.retire)

/-- WAITWM (R229): the state field of WMn, or WM_FROZEN where it is frozen at or below the address. -/
def execWaitwm (d a : XReg) (n : BitVec 3) (s : State) : Out :=
  let w := s.here.wms.toList.getD n.toNat Wm.reset
  let va := s.rx a
  let behind := decide (w.wm.toNat ≤ va.toNat)
  .next (if w.state = 1 && behind then s.stallHere
  else if w.state = 3 && behind then s.trap .wmFrozen va (Instr.waitwm d a n).encode
  else
    let s1 := s.mapSlot fun l => l.join fun h =>
      h.queue == 1 && w.owner == (l.uid, h.ord) && w.passed s.cur.core h.addr &&
        decide (ownVa s.cur.core h.addr ≤ ownVa s.cur.core va.toNat)
    (s1.wx d (w64 w.state)).retire)

/-- A token counter of a slot. -/
def Slot.token (l : Slot) (t : BitVec 3) : BitVec 16 := l.tok[t.toNat]'(t.isLt)
/-- A slot with a token counter replaced. -/
def Slot.setToken (l : Slot) (t : BitVec 3) (v : BitVec 16) : Slot := { l with tok := l.tok.set t.toNat v t.isLt }
/-- A token added, saturating (R227). -/
def Slot.tokenUp (l : Slot) (t : BitVec 3) : Slot :=
  l.setToken t (if l.token t = 65535 then 65535 else l.token t + 1)
/-- A token taken. -/
def Slot.tokenDown (l : Slot) (t : BitVec 3) : Slot := l.setToken t (l.token t - 1)

/-- TOKSIG (R227). -/
def execToksig (e : Eng) (t : BitVec 3) (s : State) : Out :=
  .next (match engWhich e with
  | none => (s.mapSlot (·.tokenUp t)).retire
  | some w => s.issueTo w (.toksig e t) [] id)

/-- TOKWAIT (R227). -/
def execTokwait (e : Eng) (t : BitVec 3) (s : State) : Out :=
  .next (match engWhich e with
  | none => if s.slot.token t = 0 then s.stallHere else ((s.mapSlot (·.tokenDown t)).joinEnded).retire
  | some w => s.issueTo w (.tokwait e t) [] id)

/-! ## Phases, barriers and gangs -/

/-- PHASE (R220): a checkpoint first waits as FENCE.E does and then writes the slot's record; every PHASE publishes and
clears TSTAT.CKR (R365). -/
def execPhase (sc : Scope) (ckpt : Bool) (s : State) : Out :=
  let word := (Instr.phase sc ckpt).encode
  let done := fun (s : State) =>
    ((s.boundary s.cur sc).occupy (s.slot.pubCycles sc)).mapSlot fun l => { l with tstat := l.tstat &&& ~~~0x80#64 }
  .next (if !(s.scopeOk sc) then s.trapOpen .determinism word
  else if ckpt then
    s.engineWait (s.fenceMet 0) (fun _ => true) word fun s => ((done s).writeCheckpoint s.cur).retire
  else (done s).retire)

/-- The die whose semaphore store is the home of the launch's gangs (R221). -/
def Launch.gangDie (l : Launch) : Nat := l.home

/-- A gang operation reaches the order of arrival of its home (R231). -/
def State.postGang (s : State) (die : Nat) (o : GangOp) : State :=
  s.modDie die fun d => { d with gangs := insertGang o d.gangs }

/-- A gang operation leaves the slot, a number of cycles from now, for the gang's home (R55, R221, R222, R231). -/
def State.sendGang (s : State) (k : GangKind) (g : BitVec 6) (after : Nat) : State :=
  let d := (s.launchOf s.cur).gangDie
  s.postGang d { kind := k, launch := s.slot.launch, gang := g, core := s.cur.core, slot := s.cur.slot, uid := s.slot.uid,
                 due := s.leaveAt after + wayCycles s.cur.core d }

/-- The gang a register names (R221). -/
def gangOfReg (v : W64) : BitVec 6 := v.setWidth 6

/-- BAR: publishes at package scope and arrives (R221). -/
def execBar (d a : XReg) (s : State) : Out :=
  let g := gangOfReg (s.rx a)
  .next (((s.boundary s.cur .package).sendGang .arrive g (s.slot.pubCycles .package)).waitFor (.bar d g (Instr.bar d a).encode))

/-- GANG.JOIN (R222). -/
def execGangJoin (a : XReg) (s : State) : Out := .next ((s.sendGang .join (gangOfReg (s.rx a)) 0).waitFor (.gang true))

/-- GANG.LEAVE (R222). -/
def execGangLeave (a : XReg) (s : State) : Out := .next ((s.sendGang .leave (gangOfReg (s.rx a)) 0).waitFor (.gang false))

/-! ## Memory atomics (R210, R223 to R225) -/

/-- The cycles of an atomic after its publication (R231). The spec gives the cycle in which its result is there, not the
one in which the home performs it: the model performs it in that cycle (DESIGN CHOICE, assumption 84). -/
def State.amoCycles (s : State) (g loc : Nat) : Nat :=
  if 2 ^ 52 ≤ loc then (if (loc - 2 ^ 52) / 2 ^ 20 = g then 6 else 16)
  else
    let h := hops (dieOf g) (homeDie loc)
    match s.region loc with
    | some .near => if homeDie loc = dieOf g then 80 else 168 + 40 * (h - 1)
    | some .far => 328 + 40 * h
    | _ => 408

/-- The shared part of the atomics: the checks as a read and a write, the publication, and the wait for the home. -/
def State.atomicGo (s : State) (d a : XReg) (n : Nat) (sc : AmoScope) (k : AtomicKind) (word : W32) : State :=
  let sys := match sc with | .pub c => !(s.scopeOk c) | .unpublished => false
  if sys then s.trapOpen .determinism word else
  s.aligned_ (s.rx a) n .both word fun loc s1 =>
    match sc with
    | .pub c => (s1.boundary s1.cur c).waitFor
        (.atomic d loc k true (s.leaveAt (s.slot.pubCycles c) + s.amoCycles s.cur.core loc))
    | .unpublished => s1.waitFor (.atomic d loc k false (s.leaveAt 0 + s.amoCycles s.cur.core loc))

/-- AMO (R223). -/
def execAmo (d a b : XReg) (sc : AmoScope) (o : AmoOp) (s : State) : Out :=
  .next (s.atomicGo d a 8 sc (.amo o (s.rx b)) (Instr.amo d a b sc o).encode)

/-- AMOCAS (R224). -/
def execAmocas (d a b : XReg) (sc : AmoScope) (s : State) : Out :=
  .next (s.atomicGo d a 8 sc (.cas (s.rx b) (s.rx (pairHi b))) (Instr.amocas d a b sc).encode)

/-- AMOF: DETERMINISM in D1 and D2 before any effect (R225). -/
def execAmof (d a b : XReg) (sc : AmoScope) (s : State) : Out :=
  let word := (Instr.amof d a b sc).encode
  .next (if s.level ≠ 0 then s.trapOpen .determinism word
  else s.atomicGo d a 4 sc (.addF ((s.rx b).setWidth 32)) word)

end Sys2Proof.Machine
end

