-- ==== Sys2Proof/Machine/System.lean ====
section
/-! DEFINITION. The meanings of class 0xD: children, the end of a task, YIELD and ROLE (R233 to R237), the control and
status registers (R128, R129, R238), traps and their return (R239, R240), LAUNCH (R242), and an illegal word (R139). -/

namespace Sys2Proof.Machine

/-! ## Control and status registers -/

/-- CORE of core g (R21). -/
def State.coreCsr (s : State) (g : Nat) : W64 :=
  w64 (s.devid.toNat * 1024 + dieOf g * 128 + clusterOf g % 24 * 4 + g % 4)

/-- SLOTINFO of a slot (R31). -/
def State.slotInfo (s : State) (r : SlotRef) : W64 :=
  let l := s.slotAt r
  let n := s.launch l.launch
  w64 (b2n n.cgran * 256 + n.det.toNat * 64 + l.entry.toNat * 16 + roleCode l.role * 4 + r.slot.val)

/-- SCYC of a core's cluster in D2, and the reference cycles of the step in D0 and D1 (R383, R387). -/
def State.scycOf (s : State) (g lvl : Nat) : Nat :=
  let k := s.cluster (clusterOf g)
  if lvl = 2 then
    Nat.min (s.refclk - s.stepBase + (k.stop - s.refclk) - k.spent) (s.steplen - (s.queue ((s.die (dieOf g)).d2.getD 0)).slack)
  else s.refclk - s.stepBase

/-- CYCLE of a core (R380, R383, R385): in D0 and D1 the cycles that its cluster has had, those of the current reference cycle
included. -/
def State.cycleOf (s : State) (g lvl : Nat) : W64 :=
  let k := clusterOf g
  if lvl = 2 then w64 (s.gstep.toNat * s.steplen + s.scycOf g lvl)
  else w64 (s.twentieths k s.refclk / 20 + Nat.min s.lap (s.beats k))

/-- The value of an assigned CSR (R129); none for a number that is not assigned. -/
def State.csrRead (s : State) (n : BitVec 12) : Option W64 :=
  let l := s.slot
  let g := s.cur.core
  let c := s.here
  let q := s.queueOf s.cur
  match n.toNat with
  | 0x7C0 => some l.ageLimit
  | 0x7C1 => some l.gangctl
  | 0x7C2 => some l.parklim
  | 0x7C3 => some l.fpctl
  | 0x7C4 => some l.accanch
  | 0x7C5 => some l.vcfg
  | 0x7C6 => some l.tvec
  | 0x7C7 => some l.tcause
  | 0x7C8 => some l.tpc
  | 0x7C9 => some l.tval
  | 0x7CA => some l.tword
  | 0x7CB => some l.tstat
  | 0xF01 => some (s.coreCsr g)
  | 0xF02 => some (l.task.setWidth 64)
  | 0xF03 => some (s.slotInfo s.cur)
  | 0xF04 => some (c.b0.setWidth 64)
  | 0xF05 => some (c.b1.setWidth 64)
  | 0xF06 => some (c.b2.setWidth 64)
  | 0xF07 => some (w64 (b2n c.degraded))
  | 0xF08 => some (w64 (bits q.troot 51 16 * 65536))
  | 0xF09 => some (c.mxw.setWidth 64)
  | 0xF0A => some (s.cycleOf g s.level)
  | 0xF0B => some s.gstep
  | 0xF0C => some (w64 (s.steplen % 2 ^ 17 + s.scycOf g s.level % 65536 * 2 ^ 32))
  | 0xF0D => some (w64 ((if s.level = 2 then q.slack % 65536 else 0) + (s.cluster (clusterOf g)).spent % 65536 * 2 ^ 32))
  | _ => none

/-- The fields of a slot CSR that are RW (R32, R33, R88, R100, R119, R245, R365). -/
def csrRw (n : BitVec 12) : W64 :=
  match n.toNat with
  | 0x7C0 => 0xFFFF
  | 0x7C1 => 1
  | 0x7C2 => 0xFFFF
  | 0x7C3 => 0x1F0001FF
  | 0x7C4 => 0xFFFF
  | 0x7C5 => 0xFF
  | 0x7C6 => 0xFFFFFFFFFFFFFFFC
  | 0x7C8 => 0xFFFFFFFFFFFFFFFF
  | 0x7CB => 0xFFFFFFFF00000000
  | _ => 0

/-- The W1C fields of a slot CSR (R100). -/
def csrW1c (n : BitVec 12) : W64 := if n = 0x7C3 then 0x1F0000 else 0

/-- A value as its RW fields store it: the limits of R32, R88, R100 and R245. -/
def csrLegal (n : BitVec 12) (v : W64) : W64 :=
  match n.toNat with
  | 0x7C0 => if bits v 15 0 < 16 then 16 else v
  | 0x7C2 => if bits v 15 0 = 0 then 1 else v
  | 0x7C3 => if 5 ≤ bits v 2 0 then v &&& ~~~7#64 else v
  | 0x7C5 => if 12 ≤ bits v 3 0 then setBits v 3 0 6 else v
  | _ => v

/-- A slot with the value of a slot CSR replaced. -/
def Slot.setCsr (l : Slot) (n : BitVec 12) (v : W64) : Slot :=
  match n.toNat with
  | 0x7C0 => { l with ageLimit := v }
  | 0x7C1 => { l with gangctl := v }
  | 0x7C2 => { l with parklim := v }
  | 0x7C3 => { l with fpctl := v }
  | 0x7C4 => { l with accanch := v }
  | 0x7C5 => { l with vcfg := v }
  | 0x7C6 => { l with tvec := v }
  | 0x7C8 => { l with tpc := v }
  | 0x7CB => { l with tstat := v }
  | _ => l

/-- The new value of a CSR whose RW fields get `rw` and whose W1C fields are cleared where `clr` is 1 (R10). -/
def csrNew (n : BitVec 12) (old rw clr : W64) : W64 :=
  csrLegal n ((old &&& ~~~(csrRw n)) &&& ~~~(clr &&& csrW1c n) ||| (rw &&& csrRw n))

/-- A write of a CSR (R128): ILLEGAL where the number is not assigned, PRIV for the read-only numbers. -/
def State.csrWrite (s : State) (n : BitVec 12) (word : W32) (rw clr : W64 → W64) : Out :=
  .next (match s.csrRead n with
  | none => s.trap .illegal 0 word
  | some old =>
    if 0xF00 ≤ n.toNat then s.trapOpen .priv word
    else (s.mapSlot (·.setCsr n (csrNew n old (rw old) (clr old)))).retire)

/-- CSRR (R238): CYCLE raises DETERMINISM in D1 and D2 (R243). -/
def execCsrr (d : XReg) (c : BitVec 12) (s : State) : Out :=
  let word := (Instr.csrr d c).encode
  .next (match s.csrRead c with
  | none => s.trap .illegal 0 word
  | some v => if c = 0xF0A && s.level ≠ 0 then s.trapOpen .determinism word else (s.wx d v).retire)

/-- CSRW (R238). -/
def execCsrw (a : XReg) (c : BitVec 12) (s : State) : Out :=
  s.csrWrite c (Instr.csrw a c).encode (fun _ => s.rx a) (fun _ => s.rx a)
/-- CSRS (R238). -/
def execCsrs (a : XReg) (c : BitVec 12) (s : State) : Out :=
  s.csrWrite c (Instr.csrs a c).encode (fun old => old ||| s.rx a) (fun _ => 0)
/-- CSRC (R238). -/
def execCsrc (a : XReg) (c : BitVec 12) (s : State) : Out :=
  s.csrWrite c (Instr.csrc a c).encode (fun old => old &&& ~~~(s.rx a)) (fun _ => 0)

/-! ## Children (R47 to R49, R233) -/

/-- How many entries a spill queue holds. -/
def Launch.spilled (l : Launch) (d : Nat) : Nat := tget 0 l.spillTail d - tget 0 l.spillHead d
/-- The address of entry k of the spill queue of die d (R48). -/
def Launch.spillAt (l : Launch) (d k : Nat) : Nat := l.spill.toNat + 64 * l.spillcap * d + 64 * (k % l.spillcap)

/-- A launch has one child more (R47). -/
def State.countChild (s : State) (n : Nat) : State := s.modLaunch n fun l => { l with nextNum := l.nextNum + 1 }

/-- A child enters the pending pool of its die (R48). -/
def State.poolChild (s : State) (d : Nat) (c : Child) : State :=
  (s.countChild c.launch).modDie d fun x => { x with pool := x.pool ++ [c] }

/-- A child is written to the tail of the spill queue of its die, at the location given, in the TCB layout (R48). -/
def State.spillChild (s : State) (d : Nat) (c : Child) (loc : Nat) : State :=
  let l := s.launch c.launch
  let w2 := c.num.toNat + l.prio.toNat * 2 ^ 32 + roleCode c.role * 2 ^ 40 +
    (match c.gang with | some g => g.toNat * 2 ^ 42 + 2 ^ 48 | none => 0)
  let v := c.prog.toNat + c.arg.toNat * 2 ^ 64 + w2 * 2 ^ 128
  (((s.countChild c.launch).poke loc 64 v).carry (some (s.stampOf c.launch)) (cellsLE loc 64 v)).modLaunch c.launch fun l =>
    { l with spillTail := tset l.spillTail d (tget 0 l.spillTail d + 1) }

/-- SPAWN and SPAWNG (R233): the child enters the pending pool, or the spill queue, whose entry is checked as a write of
the task (R48, R49, R86). -/
def State.spawn (s : State) (a b : XReg) (r : Role) (g : Option (BitVec 6)) (word : W32) : State :=
  let pc := s.rx a
  if s.level = 2 then s.trapOpen .determinism word
  else if bits pc 1 0 ≠ 0 then s.trap .misaligned pc word
  else
    let n := s.slot.launch
    let c : Child := { launch := n, num := BitVec.ofNat 32 (s.launch n).nextNum, prog := pc, arg := s.rx b, role := r,
                       gang := g }
    let d := dieOf s.cur.core
    let l := s.launch n
    let va := l.spillAt d (tget 0 l.spillTail d)
    if l.spilled d = 0 && decide ((s.die d).pool.length < Config.pendingNew) then (s.poolChild d c).retire
    else if l.spillcap ≤ l.spilled d then s.stallHere
    else if isWindow va then s.trap .lease (w64 va) word
    else match s.checkTranslated s.cur va 64 .write Mode.early with
      | .ok loc s1 => (s1.spillChild d c loc).retire
      | .trap x => s.trap x (w64 va) word
      | .park entry => s.parkHere (w64 va) entry
      | .stall _ | .away .. => s.stallHere

/-- SPAWN (R233). -/
def execSpawn (a b : XReg) (r : Role) (s : State) : Out := .next (s.spawn a b r none (Instr.spawn a b r).encode)
/-- SPAWNG (R233). -/
def execSpawng (a b : XReg) (r : Role) (g : BitVec 6) (s : State) : Out :=
  .next (s.spawn a b r (some g) (Instr.spawng a b r g).encode)

/-! ## The end of a task (R235) -/

/-- The token waits of a task leave their queues (R235). -/
def Core.dropTokenWaits (c : Core) (uid : Nat) : Core :=
  let keep := fun (r : QRec) => !(r.uid == uid && (match r.instr with | .tokwait .. => true | _ => false))
  { c with vq := c.vq.keep keep, cq := c.cq.keep keep, mq := c.mq.keep keep }

/-- A task that ends by EXIT performs GANG.LEAVE on every gang of which it is a member: the operations leave for the gangs'
home (R231, R235). -/
def State.quitGangs (s : State) : State :=
  ((s.launchOf s.cur).gangsOf s.slot.uid).foldl (fun s g => s.sendGang .quit (BitVec.ofNat 6 g) 0) s

/-- EXIT: token waits are removed; the slot waits for its engine entries; then it leaves its gangs, publishes at
package scope and ends (R235). -/
def execExit (s : State) : Out :=
  let uid := s.slot.uid
  let s1 := (s.modCore s.cur.core (·.dropTokenWaits uid)).mapSlot fun l => { l with exiting := true, started := true }
  .next (if !(s1.fenceMet 0) then s1.stallHere
  else
    let l := s.slot
    let s2 := s1.joinEnded.quitGangs.boundary s.cur .package
    let s3 := (s2.removeTask s.cur).countEnd l.launch false
    match l.origin with
    | .tcb i => s3.setTcbState l.launch i 4
    | _ => s3)

/-! ## YIELD, ROLE, traps -/

/-- YIELD (R236): the count includes the cycle in which it issues. -/
def execYield (n : BitVec 8) (s : State) : Out :=
  .next ((s.mapSlot fun l => { l with yield := n.toNat + 2, age := 0 }).retire)
/-- ROLE (R237). -/
def execRole (r : Role) (s : State) : Out := .next ((s.mapSlot fun l => { l with role := r }).retire)
/-- TRAP (R239). -/
def execTrap (i : BitVec 10) (s : State) : Out := .next (s.trap .swtrap (i.setWidth 64) (Instr.trap i).encode)
/-- BKPT (R239). -/
def execBkpt (i : BitVec 10) (s : State) : Out := .next (s.trap .bkpt (i.setWidth 64) (Instr.bkpt i).encode)
/-- Whether a handler that ends is that of the PARK_TIMEOUT which an entry in a queue has raised: TCAUSE, ORIG and QENT name it
(R89, R366). -/
def Slot.endsPark (l : Slot) (w : Which) (r : QRec) : Bool :=
  r.uid == l.uid && l.tcause == 0x11 && bits l.tstat 6 4 == w.orig.toNat && bits l.tstat 23 16 == r.idx % 256

/-- A park whose limit restarts now. -/
def Park.restart (p : Park) (now : Nat) : Park := { p with since := now, expired := false }

/-- The limit of an engine access that has raised PARK_TIMEOUT restarts when its handler ends (R89). -/
def Core.restartParks (c : Core) (l : Slot) (now : Nat) : Core :=
  let again := fun (w : Which) (r : QRec) => if l.endsPark w r then { r with park := r.park.map (·.restart now) } else r
  let f := fun (w : Which) (q : EngQ) => { q with recs := q.recs.map (again w) }
  { c with vq := f .vec c.vq, cq := f .copy c.cq, mq := f .mx c.mq }

/-- ERET (R240): PRIV outside a handler. -/
def execEret (s : State) : Out :=
  .next (if s.slot.inh then (s.mapSlot Slot.eret).modCore s.cur.core (·.restartParks s.slot s.refclk)
  else s.trapOpen .priv (Instr.eret).encode)
/-! ## LAUNCH (R242) -/

/-- A launch joins its queue's admission order behind every other; a cadence queue holds it for a tick (R242, R395).
Its descriptor is read at its admission, and its status record is first written when its STATE changes. -/
def State.queueLaunch (s : State) (q : Nat) (desc : W64) : State :=
  let l : Launch := { Launch.blank with
    queue := q, desc := desc, stage := if (s.queue q).cadence then .ticking else .queued }
  let s1 : State := { s with launches := tset s.launches s.nextLaunch l, nextLaunch := s.nextLaunch + 1 }
  s1.syncQueue q

/-- LAUNCH (R242): its checks, the publication at package scope, and the queueing. -/
def execLaunch (a : XReg) (s : State) : Out :=
  let word := (Instr.launch a).encode
  let va := s.rx a
  let half := fun (s : State) (x : W64) (k : State → State) =>
    match s.check s.cur x.toNat 64 .read Mode.early with
    | .ok _ s1 => k s1
    | .trap c => s.trap c va word
    | .park entry => s.parkHere x entry
    | .stall _ | .away .. => s.stallHere
  .next (if s.level = 2 then s.trapOpen .determinism word
  else if bits va 5 0 ≠ 0 then s.trap .misaligned va word
  else if isWindow va.toNat then s.trap .poolRange va word
  else half s va fun s1 => half s1 (va + 64) fun s2 =>
    ((s2.boundary s2.cur .package).queueLaunch (s2.launchOf s2.cur).queue va).retire)

end Sys2Proof.Machine
end

