-- ==== Sys2Proof/Machine/Special.lean ====
section
/-! DEFINITION. The special functions of the vector unit (R121, R122, R270): correctly rounded in BF16 and FP16, and in
FP32 any result that the stated accuracy and monotonicity allow. -/

namespace Sys2Proof.Machine

/-- The unary special functions (R270). -/
inductive SpecFn | exp2 | log2 | exp | log | rcp | rsq | sqrt | tanh | sigm | sin | cos
  deriving DecidableEq, Repr

/-- The number of a function, for the free choice of its FP32 results. -/
def fnCode (f : SpecFn) : Nat :=
  match f with
  | .exp2 => 1 | .log2 => 2 | .exp => 3 | .log => 4 | .rcp => 5 | .rsq => 6 | .sqrt => 7 | .tanh => 8 | .sigm => 9
  | .sin => 10 | .cos => 11

/-! ## Fixed-point evaluation

A real number is held as a natural number of units 2^-fixP. The errors of all series together stay below 2^20 units,
far below the distance of any result to a rounding boundary. -/

/-- Fractional bits. -/
def fixP : Nat := 320
/-- One. -/
def fixOne : Nat := 2 ^ fixP
/-- Fractional bits of pi, enough to reduce arguments up to 2^128. -/
def fixQ : Nat := 520

/-- The odd series z - s z^3/3 + z^5/5 ... from term n on, alternating when `alt`, at 2^-p. -/
def oddSeries (p zz : Nat) (alt : Bool) : Nat → Nat → Nat → Int
  | 0, _, _ => 0
  | k + 1, n, t =>
    (t / (2 * n + 1) : Nat) + (if alt then -1 else 1) * oddSeries p zz alt k (n + 1) (t * zz / 2 ^ p)

/-- pi at fixQ bits, by Machin's formula. -/
def fixPi : Nat :=
  let at_ := fun (d : Nat) =>
    oddSeries fixQ (2 ^ fixQ / (d * d)) true 130 0 (2 ^ fixQ / d)
  (16 * at_ 5 - 4 * at_ 239).toNat

/-- ln 2 at fixP bits: 2 atanh(1/3). -/
def fixLn2 : Nat := (2 * oddSeries fixP (fixOne / 9) false 110 0 (fixOne / 3)).toNat

/-- The sum of r^n / n! from term n on. -/
def expSeries (r : Nat) : Nat → Nat → Nat → Nat
  | 0, _, _ => 0
  | k + 1, n, t => t + expSeries r k (n + 1) (t * r / fixOne / (n + 1))

/-- e^x for x = i units, as a magnitude and a binary exponent. -/
def expFix (i : Int) : Nat × Int :=
  let k := i / (fixLn2 : Int)
  let r := (i - k * (fixLn2 : Int)).toNat
  (expSeries r 85 0 fixOne, k - fixP)

/-- The natural logarithm of m * 2^e (m nonzero) in units. -/
def lnFix (m : Nat) (e : Int) : Int :=
  let n := Nat.log2 m
  let z := (m - 2 ^ n) * fixOne / (m + 2 ^ n)
  (e + n) * (fixLn2 : Int) + 2 * oddSeries fixP (z * z / fixOne) false 110 0 z

/-- The alternating series of sin (from term 1) or cos (from term 0). -/
def trigSeries (rr : Nat) : Nat → Nat → Nat → Int
  | 0, _, _ => 0
  | k + 1, n, t => (t : Int) - trigSeries rr k (n + 2) (t * rr / fixOne / ((n + 1) * (n + 2)))

/-- sin and cos of r units, 0 ≤ r < pi / 2. -/
def sinFix (r : Nat) : Int := trigSeries (r * r / fixOne) 60 1 r
def cosFix (r : Nat) : Int := trigSeries (r * r / fixOne) 60 0 fixOne

/-- m * 2^e in units of 2^-p, towards zero. -/
def toFix (p m : Nat) (e : Int) : Nat :=
  let k := e + p
  if 0 ≤ k then m * 2 ^ k.toNat else m / 2 ^ (-k).toNat

/-! ## The functions on finite nonzero arguments -/

/-- A real magnitude: (-1)^neg * x with m * 2^e ≤ x < (m + 1) * 2^e, and x = m * 2^e when not sticky. -/
structure Approx where
  neg : Bool
  m : Nat
  e : Int
  sticky : Bool
  deriving DecidableEq, Repr

/-- An inexact value in units. -/
def approxFix (neg : Bool) (i : Int) : Approx := ⟨if i < 0 then !neg else neg, i.natAbs, -(fixP : Int), true⟩
/-- A value just below m * 2^e. -/
def justBelow (neg : Bool) (m : Nat) (e : Int) : Approx := ⟨neg, m * 2 ^ 64 - 1, e - 64, true⟩
/-- A value past the range of every format, or below it. -/
def hugeApprox : Approx := ⟨false, 1, 5000, true⟩
def tinyApprox : Approx := ⟨false, 1, -5000, true⟩

/-- Whether the magnitude m * 2^e is at least 2^k. -/
def magGe (m : Nat) (e k : Int) : Bool := decide (k ≤ (Nat.log2 m : Int) + e)

/-- e^x of a value with sign. -/
def expApprox (neg : Bool) (m : Nat) (e : Int) : Approx :=
  if magGe m e 12 then (if neg then tinyApprox else hugeApprox)
  else
    let x : Int := toFix fixP m e
    let (a, k) := expFix (if neg then -x else x)
    ⟨false, a, k, true⟩

/-- 2^x: exact for an integer. -/
def exp2Approx (neg : Bool) (m : Nat) (e : Int) : Approx :=
  if magGe m e 12 then (if neg then tinyApprox else hugeApprox)
  else
    let x : Int := signedMag neg (toFix fixP m e)
    let k := x / (fixOne : Int)
    let r := (x - k * (fixOne : Int)).toNat
    if r = 0 then ⟨false, 1, k, false⟩ else ⟨false, expSeries (r * fixLn2 / fixOne) 85 0 fixOne, k - fixP, true⟩

/-- tanh: just below its argument where that is small, and just below one from 64 on, where e^-2x is below 2^-184. -/
def tanhApprox (neg : Bool) (m : Nat) (e : Int) : Approx :=
  if !(magGe m e (-14)) then justBelow neg m e
  else if magGe m e 6 then justBelow neg 1 0
  else
    let (a, k) := expFix (-(2 * (toFix fixP m e : Nat) : Int))
    let t := toFix fixP a k
    approxFix neg ((fixOne - t) * fixOne / (fixOne + t) : Nat)

/-- 1 / (1 + e^-x). -/
def sigmApprox (neg : Bool) (m : Nat) (e : Int) : Approx :=
  if magGe m e 12 then (if neg then tinyApprox else justBelow false 1 0)
  else
    -- with t = e^-|x|: 1 / (1 + t) for a positive argument, t / (1 + t) for a negative one
    let (a, k) := expFix (-(toFix fixP m e : Nat) : Int)
    let t := toFix (2 * fixP) a k
    let one := 2 ^ (2 * fixP)
    if neg then
      let sh := fixP
      let q := a * 2 ^ (2 * fixP) / (one + t)
      ⟨false, q * 2 ^ sh, k - sh, true⟩
    else ⟨false, Nat.min (one * fixOne / (one + t)) (fixOne - 1), -(fixP : Int), true⟩

/-- The quadrant of a magnitude and what is left of it, in units. -/
def reduceArg (m : Nat) (e : Int) : Nat × Nat :=
  let x := toFix fixQ m e
  let h := fixPi / 2
  (x / h % 4, x % h / 2 ^ (fixQ - fixP))

/-- sin. -/
def sinApprox (neg : Bool) (m : Nat) (e : Int) : Approx :=
  if !(magGe m e (-14)) then justBelow neg m e
  else
    let (q, r) := reduceArg m e
    match q with
    | 0 => approxFix neg (sinFix r)
    | 1 => approxFix neg (cosFix r)
    | 2 => approxFix (!neg) (sinFix r)
    | _ => approxFix (!neg) (cosFix r)

/-- cos. -/
def cosApprox (m : Nat) (e : Int) : Approx :=
  let (q, r) := reduceArg m e
  let c := if cosFix r ≥ (fixOne : Int) then (fixOne : Int) - 1 else cosFix r
  match q with
  | 0 => approxFix false c
  | 1 => approxFix true (sinFix r)
  | 2 => approxFix true c
  | _ => approxFix false (sinFix r)

/-- log2: exact for a power of two. -/
def log2Approx (m : Nat) (e : Int) : Approx :=
  let n := Nat.log2 m
  if m = 2 ^ n then ⟨decide (e + n < 0), (e + n).natAbs, 0, false⟩
  else approxFix false (lnFix m e * (fixOne : Int) / (fixLn2 : Int))

/-- ln: exact for one. -/
def lnApprox (m : Nat) (e : Int) : Approx :=
  let n := Nat.log2 m
  if m = 2 ^ n && e + n == 0 then ⟨false, 0, 0, false⟩ else approxFix false (lnFix m e)

/-- 1 / sqrt of a positive value. -/
def rsqApprox (m : Nat) (e : Int) : Approx :=
  let (m, e) := if e % 2 = 0 then (m, e) else (2 * m, e - 1)
  let k := Nat.log2 m / 2 + 80
  let q := isqrt (2 ^ (2 * k) / m)
  ⟨false, q, -(e / 2) - k, q * q * m != 2 ^ (2 * k)⟩

/-- 1 / x. -/
def rcpApprox (neg : Bool) (m : Nat) (e : Int) : Approx :=
  let (q, k, st) := divMag 80 1 0 m e
  ⟨neg, q, k, st⟩

/-! ## Special values (R122) -/

/-- A result that is decided already, or a real number still to be rounded. -/
inductive SpecVal
  | done (x : Num) (f : Fl)
  | real (a : Approx)
  deriving DecidableEq, Repr

/-- The value of a function (R122, R270). -/
def specValue (f : SpecFn) (x : Num) : SpecVal :=
  match x with
  | .nan sg => .done (.nan false) (flIf sg flNV)
  | .inf neg =>
    (match f with
     | .exp | .exp2 => .done (if neg then .fin false 0 0 else .inf false) 0
     | .log | .log2 | .sqrt => if neg then .done (.nan false) flNV else .done (.inf false) 0
     | .rsq => if neg then .done (.nan false) flNV else .done (.fin false 0 0) 0
     | .rcp => .done (.fin neg 0 0) 0
     | .tanh => .done (.fin neg 1 0) 0
     | .sigm => .done (if neg then .fin false 0 0 else .fin false 1 0) 0
     | .sin | .cos => .done (.nan false) flNV)
  | .fin neg m e =>
    if m = 0 then
      (match f with
       | .exp | .exp2 | .cos => .done (.fin false 1 0) 0
       | .log | .log2 => .done (.inf true) flDZ
       | .rcp | .rsq => .done (.inf neg) flDZ
       | .sqrt | .tanh | .sin => .done (.fin neg 0 0) 0
       | .sigm => .done (.fin false 1 (-1)) 0)
    else
      (match f with
       | .exp => .real (expApprox neg m e)
       | .exp2 => .real (exp2Approx neg m e)
       | .log => if neg then .done (.nan false) flNV else .real (lnApprox m e)
       | .log2 => if neg then .done (.nan false) flNV else .real (log2Approx m e)
       | .rcp => .real (rcpApprox neg m e)
       | .rsq => if neg then .done (.nan false) flNV else .real (rsqApprox m e)
       | .sqrt =>
         if neg then .done (.nan false) flNV
         else let (q, k, st) := sqrtMag 80 m e; .real ⟨false, q, k, st⟩
       | .tanh => .real (tanhApprox neg m e)
       | .sigm => .real (sigmApprox neg m e)
       | .sin => .real (sinApprox neg m e)
       | .cos => .real (cosApprox m e))

/-! ## FP32 results within their accuracy (R121) -/

/-- The units in the last place a function may be off in FP32; 0 when it is correctly rounded. -/
def fnUlps (f : SpecFn) : Nat :=
  match f with
  | .sqrt => 0
  | .exp2 | .log2 | .rcp | .rsq => 1
  | .exp | .log | .tanh | .sigm | .sin | .cos => 2

/-- Whether a function is monotonic in FP32. -/
def fnMonotonic (f : SpecFn) : Bool :=
  match f with
  | .exp2 | .log2 | .exp | .log => true
  | _ => false

/-- The FP32 value of magnitude bits, in units of 2^-149. -/
def f32Units (b : Nat) : Nat := if b / 2 ^ 23 = 0 then b else (b % 2 ^ 23 + 2 ^ 23) * 2 ^ (b / 2 ^ 23 - 1)

/-- The magnitudes within k ulps of a real magnitude whose truncation to FP32 is the magnitude `lo`: those of the
neighbours whose distance, in units of 2^-149 scaled by 2^fixP, is at most k of its own last place. -/
def ulpWindow (a : Approx) (lo k : Nat) : List Nat :=
  let v := toFix (149 + fixP) a.m a.e
  let u := 2 ^ (if lo / 2 ^ 23 = 0 then 0 else lo / 2 ^ 23 - 1) * fixOne
  ((List.range (3 * k + 2)).map fun j => lo + j - 2 * k).filter fun b =>
    let w := f32Units b * fixOne
    decide (b < 0x7F800000) && decide ((if v ≤ w then w - v else v - w) ≤ k * u)

/-- What monotonicity together with the exact results (R121) asks of a candidate magnitude: it stays between the
nearest values that are exact, and above zero. -/
def betweenExact (f : SpecFn) (a : Approx) (lo b : Nat) : Bool :=
  let one := 2 ^ 149
  let v := toFix 149 a.m a.e
  let w := f32Units b
  match f with
  | .exp2 =>
    let n := Nat.log2 (f32Units lo)
    decide (2 ^ n ≤ w) && decide (w ≤ 2 ^ (n + 1))
  | .log2 => decide (v / one * one ≤ w) && decide (w ≤ (v / one + 1) * one)
  | .exp => decide (1 ≤ w) && (if v < one then decide (w ≤ one) else decide (one ≤ w))
  | _ => true

/-- The magnitudes that the accuracy and the exact results of a function leave for a real magnitude. -/
def f32Window (f : SpecFn) (a : Approx) (lo : Nat) : List Nat :=
  (ulpWindow a lo (fnUlps f)).eraseDups.filter (betweenExact f a lo)

/-- The operand next to one, on the side on which a monotonic function's magnitude is smaller. -/
def nearOperand (f : SpecFn) (n : Nat) : Nat :=
  match f with
  | .log | .log2 => if n < 0x3F800000 then n + 1 else n - 1
  | _ => if n < 2 ^ 31 then n - 1 else n + 1

/-- The least magnitude that a monotonic function may give for an operand: the least one of its window, and no less than what
the operands next to it must give. Above a power of two, where the last place doubles, the window reaches further down
than theirs does. The first argument bounds how many of them are looked at. -/
def monoFloor (f : SpecFn) : Nat → Nat → Nat
  | 0, _ => 0
  | k + 1, n =>
    match specValue f ((fmtOf .f32).read false n) with
    | .done .. => 0
    | .real a =>
      let lo := ((fmtOf .f32).round .rtz false false a.m a.e a.sticky).1
      let w := f32Window f a lo
      let own := if a.sticky then w.foldl Nat.min (w.headD lo) else lo
      if lo % 2 ^ 23 < fnUlps f then Nat.max own (monoFloor f k (nearOperand f n)) else own

/-- The free FP32 result (assumption 4). A monotonic function takes, for every candidate magnitude, a free point
from which on it is reached, and no less than its floor, so that every choice is monotonic; any other function chooses
freely for each operand. -/
def f32Choice (f : SpecFn) (r : RMode) (x : Nat) (a : Approx) (lo : Nat) : Nat :=
  let w := f32Window f a lo
  let key := fnCode f * 8 + (match r with | .rne => 0 | .rtz => 1 | .rdn => 2 | .rup => 3 | .rna => 4)
  if fnMonotonic f then
    let v := toFix (149 + 64) a.m a.e
    let sgn := b2n a.neg * 2 ^ 31
    let ok := w.filter fun b =>
      let at_ := Config.ulpChoice key (sgn + b)
      decide (f32Units b * 2 ^ 64 + at_ ≤ v + 2 ^ 300)
    ok.foldl Nat.max (monoFloor f 256 x)
  else w.getD (Config.ulpChoice key x % w.length) lo

/-- A special function's result bits and flags in a format, for operand bits `n` (R121, R122, R101). -/
def specResult (f : SpecFn) (fm : FFmt) (r : RMode) (fz : Flush) (n : Nat) : Nat × Fl :=
  let m := fmtOf fm
  match specValue f (m.read (flushIn fz fm) n) with
  | .done x fl => ((m.write .rne false x).1, fl)
  | .real a =>
    let c := m.round r (flushOut fz fm) a.neg a.m a.e a.sticky
    if fm != .f32 || fnUlps f = 0 || c.2 &&& flOF != 0 || (!a.sticky && fnMonotonic f) then c
    else
      let lo := (m.round .rtz false false a.m a.e a.sticky).1
      if lo = 0 && decide (toFix 149 a.m a.e = 0) then c
      else
        let b := f32Choice f r n a lo
        let sgn := b2n a.neg * 2 ^ 31
        let exact_ := !a.sticky && b == lo && f32Units lo * fixOne == toFix (149 + fixP) a.m a.e
        if flushOut fz fm && decide (b < 2 ^ 23) && b != 0 then (sgn, flUF ||| flNX)
        else (sgn + b, if exact_ then 0 else flNX ||| (c.2 &&& flUF))

end Sys2Proof.Machine
end

