-- ==== Sys2Proof/Machine/VectorOps.lean ====
section
/-! DEFINITION. What a vector entry computes from its sources (R250 to R276): element types, groups and masks, and the
result of every vector operation, as a function of captured values. -/

namespace Sys2Proof.Machine

/-! ## Element types (R246) -/

/-- Element width. -/
def vwidth (t : VType) : Nat :=
  match t with
  | .i8 | .n8 | .tf8 => 8
  | .i16 | .n16 | .bf16 | .fp16 => 16
  | .i32 | .n32 | .fp32 => 32
  | .i4 | .n4 => 4
/-- Elements of a register. -/
def vcount (t : VType) : Nat := 4096 / vwidth t
/-- Whether a type is an integer type of the Integer class. -/
def vint (t : VType) : Bool :=
  match t with
  | .i8 | .n8 | .i16 | .n16 | .i32 | .n32 => true
  | _ => false
/-- Whether an integer type is signed. -/
def vsigned (t : VType) : Bool :=
  match t with
  | .i8 | .i16 | .i32 | .i4 => true
  | _ => false
/-- The float format of a type. -/
def vfloat (t : VType) : Option FFmt :=
  match t with
  | .fp32 => some .f32
  | .bf16 => some .bf16
  | .fp16 => some .f16
  | _ => none
/-- Whether a type is of the Float class. -/
def visFloat (t : VType) : Bool := (vfloat t).isSome

/-- The captured VCFG fields (R245). -/
def vcfgType (v : BitVec 8) : VType := (VType.ofCode (bits v 3 0)).getD .fp32
def vcfgMask (v : BitVec 8) : Nat := bits v 6 4
def vcfgZero (v : BitVec 8) : Bool := bitOf v 7

/-! ## Operands -/

/-- What an entry works on: the captured type, group size, rounding mode, flush bits and anchor; its mask; the register
words of vs1, vs2 and vd (before the entry); the two masks named by vs1 and vs2; and its scalars. -/
structure VIn where
  t : VType
  g : Nat
  rm : RMode
  fz : Flush
  anch : Int
  mkd : Bool
  mz : Bool
  msk : Nat
  ra : List Nat
  rb : List Nat
  rd : List Nat
  ma : Nat
  mb : Nat
  md : Nat
  s1 : W64
  s2 : W64
  deriving DecidableEq, Repr

/-- What an entry produces: destination register words, a mask, scalars, and flags. -/
structure VOut where
  vd : List Nat
  mask : Option Nat
  xs : List (Nat × W64)
  fl : Fl
  deriving DecidableEq, Repr

/-- Element i of width w of a group held as register words (R250). -/
def elemOf (w : Nat) (regs : List Nat) (i : Nat) : Nat :=
  regs.getD (i / (4096 / w)) 0 / 2 ^ (w * (i % (4096 / w))) % 2 ^ w
/-- Element i of a wide group of k registers in the numbering of the narrow group (R135, R250). -/
def elemWide (w k : Nat) (regs : List Nat) (i : Nat) : Nat := regs.getD (i % k) 0 / 2 ^ (w * (i / k)) % 2 ^ w

/-- Whether element i is active (R250). -/
def VIn.active (v : VIn) (i : Nat) : Bool := !v.mkd || v.msk.testBit (i % 1024)
/-- Elements of the group that W sizes. -/
def VIn.len (v : VIn) : Nat := v.g * vcount v.t
/-- Element i of vs1, vs2 and vd at the entry's width. -/
def VIn.a (v : VIn) (i : Nat) : Nat := elemOf (vwidth v.t) v.ra i
def VIn.b (v : VIn) (i : Nat) : Nat := elemOf (vwidth v.t) v.rb i
def VIn.d (v : VIn) (i : Nat) : Nat := elemOf (vwidth v.t) v.rd i

/-- Elements of width w packed into one register word. -/
def packWord (w : Nat) (es : List Nat) : Nat := es.foldr (fun e acc => acc * 2 ^ w + e % 2 ^ w) 0

/-- The elements at linear positions of a group of k registers of width w, written under the mask: element i of the
mask's numbering decides position j (`num j = i`); `f` gives the new value and its flags (R250). -/
def VIn.group (v : VIn) (w k : Nat) (num : Nat → Nat) (f : Nat → Nat × Fl) : List Nat × Fl :=
  let n := 4096 / w
  let rows := (List.range k).map fun r =>
    (List.range n).map fun p =>
      let j := r * n + p
      let i := num j
      if v.active i then f j else (if v.mz then 0 else elemOf w v.rd j, 0)
  (rows.map fun row => packWord w (row.map (·.1)),
   rows.foldl (fun fl row => row.foldl (fun fl e => fl ||| e.2) fl) 0)

/-- A result that is a group. -/
def VOut.ofGroup (r : List Nat × Fl) : VOut := { vd := r.1, mask := none, xs := [], fl := r.2 }
/-- A result of the entry's own width and numbering. -/
def VIn.plain (v : VIn) (f : Nat → Nat × Fl) : VOut := VOut.ofGroup (v.group (vwidth v.t) v.g (fun j => j) f)
/-- A widening result: position j of the wide group holds element (j % n) * 2G + j / n (R135). -/
def VIn.wide (v : VIn) (w : Nat) (f : Nat → Nat × Fl) : VOut :=
  let n := 4096 / w
  let k := 2 * v.g
  let num := fun j => j % n * k + j / n
  VOut.ofGroup (v.group w k num fun j => f (num j))

/-! ## Integers -/

/-- An element as an integer of its type. -/
def vval (t : VType) (x : Nat) : Int := if vsigned t then signedOf (vwidth t) x else x
/-- The bounds of an integer type. -/
def vlow (t : VType) : Int := if vsigned t then -(2 ^ (vwidth t - 1) : Nat) else 0
def vhigh (t : VType) : Int := if vsigned t then (2 ^ (vwidth t - 1) : Nat) - 1 else (2 ^ vwidth t : Nat) - 1
/-- An integer saturated to a type. -/
def vsat (t : VType) (i : Int) : Int := if i < vlow t then vlow t else if vhigh t < i then vhigh t else i

/-- The element operations of class 0x8 that keep the width (R253). -/
inductive VArith
  | add | sub | mul | fma | min | max | abs | neg | and | or | xor | andn | shl | shr | sra | avg | sadd | ssub | mulh
  | clamp
  deriving DecidableEq, Repr

/-- Bitwise operations on element bits, for every type (R253). -/
def vbitOp (o : VArith) (w a b : Nat) : Option Nat :=
  match o with
  | .and => some (a &&& b)
  | .or => some (a ||| b)
  | .xor => some (a ^^^ b)
  | .andn => some (a &&& (2 ^ w - 1 - b))
  | _ => none

/-- The integer effect of R253 on a, b and c = vd. -/
def vintOp (o : VArith) (t : VType) (a b c : Nat) : Nat :=
  let w := vwidth t
  let x := vval t a
  let y := vval t b
  let z := vval t c
  match o with
  | .add => wrapTo w (x + y)
  | .sub => wrapTo w (x - y)
  | .mul => wrapTo w (x * y)
  | .fma => wrapTo w (x * y + z)
  | .min => if x ≤ y then a else b
  | .max => if x ≤ y then b else a
  | .abs => wrapTo w x.natAbs
  | .neg => wrapTo w (-x)
  | .and => a &&& b
  | .or => a ||| b
  | .xor => a ^^^ b
  | .andn => a &&& (2 ^ w - 1 - b)
  | .shl => a * 2 ^ (b % w) % 2 ^ w
  | .shr => a / 2 ^ (b % w)
  | .sra => wrapTo w (signedOf w a / (2 ^ (b % w) : Nat))
  | .avg => wrapTo w ((x + y + 1) / 2)
  | .sadd => wrapTo w (vsat t (x + y))
  | .ssub => wrapTo w (vsat t (x - y))
  | .mulh => wrapTo w (x * y / (2 ^ w : Nat))
  | .clamp =>
    let m := if z ≤ x then a else c
    if vval t m ≤ y then m else b

/-! ## Floats -/

/-- An element as an exact value, with the operand flush of its format (R101). -/
def vnum (f : FFmt) (fz : Flush) (x : Nat) : Num := (fmtOf f).read (flushIn fz f) x
/-- A value rounded into a format, with its result flush. -/
def vout (f : FFmt) (rm : RMode) (fz : Flush) (r : Num × Fl) : Nat × Fl :=
  let o := (fmtOf f).write rm (flushOut fz f) r.1
  (o.1, r.2 ||| o.2)
/-- A value written without rounding or flush. -/
def vkeep (f : FFmt) (r : Num × Fl) : Nat × Fl :=
  let o := (fmtOf f).write .rne false r.1
  (o.1, r.2 ||| o.2)

/-- The float effect of R253. -/
def vfltOp (o : VArith) (f : FFmt) (rm : RMode) (fz : Flush) (a b c : Nat) : Nat × Fl :=
  let x := vnum f fz a
  let y := vnum f fz b
  let z := vnum f fz c
  match o with
  | .add => vout f rm fz (Num.add rm x y)
  | .sub => vout f rm fz (Num.add rm x y.flip)
  | .mul => vout f rm fz (Num.mul x y)
  | .fma => vout f rm fz (Num.fma rm x y z)
  | .min => vkeep f (Num.minmax false x y)
  | .max => vkeep f (Num.minmax true x y)
  | .abs => vkeep f (x.abs, 0)
  | .neg => vkeep f (x.flip, 0)
  | .clamp =>
    let m := Num.minmax true z x
    let r := Num.minmax false m.1 y
    vkeep f (r.1, m.2 ||| r.2)
  | _ => (0, 0)

/-- An operation of class 0x8 that keeps the width, on any type (R253). -/
def varith (o : VArith) (v : VIn) (b : Nat → Nat) : VOut :=
  v.plain fun i =>
    match vbitOp o (vwidth v.t) (v.a i) (b i) with
    | some r => (r, 0)
    | none =>
      match vfloat v.t with
      | some f => vfltOp o f v.rm v.fz (v.a i) (b i) (v.d i)
      | none => (vintOp o v.t (v.a i) (b i) (v.d i), 0)

/-- VADDW, VSUBW and VMULW (R254). -/
inductive VWide | add | sub | mul
  deriving DecidableEq, Repr

/-- One widening result (R254). -/
def vwideOp (o : VWide) (v : VIn) (a b : Nat) : Nat × Fl :=
  match vfloat v.t with
  | some f =>
    let x := vnum f v.fz a
    let y := vnum f v.fz b
    let r := match o with
      | .add => Num.add v.rm x y
      | .sub => Num.add v.rm x y.flip
      | .mul => Num.mul x y
    vout .f32 v.rm v.fz r
  | none =>
    let x := vval v.t a
    let y := vval v.t b
    (wrapTo (2 * vwidth v.t) (match o with | .add => x + y | .sub => x - y | .mul => x * y), 0)

/-- VADDW, VSUBW and VMULW on groups. -/
def vwiden (o : VWide) (v : VIn) (b : Nat → Nat) : VOut :=
  v.wide (2 * vwidth v.t) fun i => vwideOp o v (v.a i) (b i)

/-- VDOTW (R255): destination element k is active when source element 2k is. -/
def vdot (v : VIn) (b : Nat → Nat) : VOut :=
  let w := 2 * vwidth v.t
  VOut.ofGroup (v.group w v.g (fun k => 2 * k) fun k =>
    let c := elemOf w v.rd k
    match vfloat v.t with
    | some f =>
      let p := Num.mul (vnum f v.fz (v.a (2 * k))) (vnum f v.fz (b (2 * k)))
      let q := Num.mul (vnum f v.fz (v.a (2 * k + 1))) (vnum f v.fz (b (2 * k + 1)))
      let s := Num.add v.rm p.1 q.1
      let r := Num.add v.rm (vnum .f32 v.fz c) s.1
      vout .f32 v.rm v.fz (r.1, p.2 ||| q.2 ||| s.2 ||| r.2)
    | none =>
      (wrapTo w (vval v.t (v.a (2 * k)) * vval v.t (b (2 * k)) + vval v.t (v.a (2 * k + 1)) * vval v.t (b (2 * k + 1))
        + c), 0))

/-! ## Compares and masks (R257, R258) -/

/-- The relations of R257. -/
inductive VRel | eq | ne | lt | le | ltn | len
  deriving DecidableEq, Repr

/-- The truth of a relation on two elements, and its flags. -/
def vrel (o : VRel) (t : VType) (fz : Flush) (a b : Nat) : Bool × Fl :=
  match o, vfloat t with
  | .eq, some f => frel .eq (vnum f fz a) (vnum f fz b)
  | .ne, some f => frel .ne (vnum f fz a) (vnum f fz b)
  | .lt, some f => frel .lt (vnum f fz a) (vnum f fz b)
  | .le, some f => frel .le (vnum f fz a) (vnum f fz b)
  | .eq, none => (a == b, 0)
  | .ne, none => (a != b, 0)
  | .lt, none => (decide (vval t a < vval t b), 0)
  | .le, none => (decide (vval t a ≤ vval t b), 0)
  | .ltn, _ => (decide (a < b), 0)
  | .len, _ => (decide (a ≤ b), 0)

/-- A number with the given bits. -/
def packBits (n : Nat) (f : Nat → Bool) : Nat := (List.range n).foldl (fun acc i => acc + b2n (f i) * 2 ^ i) 0

/-- A compare: bits past the group keep their values (R257). -/
def vcompare (o : VRel) (v : VIn) (b : Nat → Nat) : VOut :=
  let rs := (List.range v.len).map fun i =>
    if v.active i then vrel o v.t v.fz (v.a i) (b i) else (if v.mz then false else v.md.testBit i, 0)
  { vd := [], mask := some (packBits 1024 fun i => (rs.getD i (v.md.testBit i, 0)).1), xs := [],
    fl := rs.foldl (fun fl r => fl ||| r.2) 0 }

/-- A bitwise mask operation on 1,024 bits (R258). -/
def vmaskOp (v : VIn) (f : Bool → Bool → Bool) : VOut :=
  { vd := [], xs := [], fl := 0
    mask := some (packBits 1024 fun i =>
      if v.active i then f (v.ma.testBit i) (v.mb.testBit i) else !v.mz && v.md.testBit i) }

/-- The set bits that VMPOP and VMFIRST count. -/
def VIn.counted (v : VIn) : List Nat := (List.range 1024).filter fun i => v.ma.testBit i && v.active i

/-- A scalar result. -/
def VOut.scalar (d : XReg) (x : W64) : VOut := { vd := [], mask := none, xs := [(d.toNat, x)], fl := 0 }

/-! ## Permutes (R259) -/

/-- VEXT. -/
def vextract (v : VIn) (d : XReg) : VOut :=
  let s := v.s1.toNat
  VOut.scalar d (if v.len ≤ s then 0 else BitVec.ofInt 64 (vval v.t (v.a s)))

/-- VCOMPRESS. -/
def vcompressOp (v : VIn) : VOut :=
  let es := ((List.range v.len).filter fun i => v.mb.testBit (i % 1024)).map v.a
  v.plain fun i => (es.getD i 0, 0)

/-! ## Conversions (R265 to R269) -/

/-- The legal pairs of VCVT (R265). A pair whose widths differ by a factor of four, for which the rule gives no mapping of
elements to registers, is ILLEGAL (DESIGN CHOICE, assumption 101). -/
def vcvtOk (s d : VType) : Bool :=
  let ws := vwidth s
  let wd := vwidth d
  s != d && (wd == ws || wd == 2 * ws || ws == 2 * wd) &&
  (match s, d with
   | .i4, d | .n4, d => (d == .i8 || d == .n8)
   | s, .i4 | s, .n4 => (s == .i8 || s == .n8)
   | .tf8, d => (d == .bf16 || d == .fp16)
   | s, .tf8 => (s == .bf16 || s == .fp16)
   | _, _ => true)

/-- One element converted from S to D (R265). -/
def vcvtElem (s d : VType) (rm : RMode) (fz : Flush) (x : Nat) : Nat × Fl :=
  match vfloat s, vfloat d with
  | some f, some g => vout g rm fz (vnum f fz x, 0)
  | some f, none =>
    if d = .tf8 then tf8Write (vnum f fz x)
    else
      let (i, fl) := (vnum f fz x).toIntBounded rm (vlow d) (vhigh d)
      (wrapTo (vwidth d) i, fl)
  | none, some g =>
    if s = .tf8 then vkeep g (tf8Read x, 0)
    else vout g rm fz (Num.ofInt (vval s x), 0)
  | none, none => (wrapTo (vwidth d) (vval s x), 0)

/-- VCVT, widening, narrowing or keeping positions (R265). -/
def vconvert (v : VIn) (s : VType) : VOut :=
  let ws := vwidth s
  let wd := vwidth v.t
  if wd = 2 * ws then v.wide wd fun i => vcvtElem s v.t v.rm v.fz (elemOf ws v.ra i)
  else if ws = 2 * wd then v.plain fun i => vcvtElem s v.t v.rm v.fz (elemWide ws (2 * v.g) v.ra i)
  else v.plain fun i => vcvtElem s v.t v.rm v.fz (elemOf ws v.ra i)

/-- VNARROW (R266). -/
def vnarrowOp (v : VIn) : VOut :=
  let w := 2 * vwidth v.t
  let sh := v.s1.toNat % 64
  v.plain fun i =>
    let x := elemWide w (2 * v.g) v.ra i
    let e : Int := if vsigned v.t then signedOf w x else x
    let r : Int := if sh = 0 then e else (e + (2 ^ (sh - 1) : Nat)) / (2 ^ sh : Nat)
    (wrapTo (vwidth v.t) (vsat v.t r), 0)

/-- VROUND (R267). -/
def vroundElem (f : FFmt) (rm : RMode) (fz : Flush) (x : Nat) : Nat × Fl :=
  match vnum f fz x with
  | .nan sg => ((fmtOf f).canonNan, flIf sg flNV)
  | .inf n => ((fmtOf f).infBits n, 0)
  | .fin n m e =>
    if m = 0 then ((fmtOf f).zeroBits n, 0)
    else if 0 ≤ e then vkeep f (.fin n m e, 0)
    else
      let (i, _) := roundInt rm n m e
      (((fmtOf f).write rm false (.fin n i.natAbs 0)).1, 0)

/-- VQNT (R268): codes, and sixteen scale bytes in two registers. -/
def vquantize (v : VIn) (k : XReg) : VOut :=
  let blocks := (List.range 16).map fun j =>
    quantBlock ((List.range 32).map fun i => vnum .f32 v.fz (elemOf 32 v.ra (32 * j + i)))
  let codes := blocks.flatMap fun b => b.2.1
  let lo := packWord 8 ((blocks.take 8).map (·.1))
  let hi := packWord 8 ((blocks.drop 8).map (·.1))
  { vd := [packWord 8 codes], mask := none, xs := [(k.toNat, w64 lo), (k.toNat + 1, w64 hi)],
    fl := blocks.foldl (fun fl b => fl ||| b.2.2) 0 }

/-- VDQNT (R269). -/
def vdequantize (v : VIn) : VOut :=
  let scale := fun j => if j < 8 then bits v.s1 (8 * j + 7) (8 * j) else bits v.s2 (8 * (j - 8) + 7) (8 * (j - 8))
  let es := (List.range 512).map fun i => dequant v.rm (flushOut v.fz .f32) (elemOf 8 v.ra i) (scale (i / 32))
  { vd := (List.range 4).map fun r => packWord 32 (((es.drop (128 * r)).take 128).map (·.1)), mask := none, xs := [],
    fl := es.foldl (fun fl e => fl ||| e.2) 0 }

/-! ## Reductions and accumulation (R270 to R276) -/

/-- One level of the fixed tree of R120. -/
def treeLevel (f : Nat → Nat → Nat × Fl) : List (Nat × Fl) → List (Nat × Fl)
  | a :: b :: t => (let r := f a.1 b.1; (r.1, r.2 ||| a.2 ||| b.2)) :: treeLevel f t
  | l => l
/-- The root of the tree, with every flag raised on the way. -/
def treeRoot (f : Nat → Nat → Nat × Fl) : Nat → List (Nat × Fl) → Nat × Fl
  | 0, l => l.headD (0, 0)
  | k + 1, l => treeRoot f k (treeLevel f l)

/-- The reductions. -/
inductive VRed | sum | max | min
  deriving DecidableEq, Repr

/-- What an inactive element enters as (R271). -/
def vredIdle (o : VRed) (t : VType) : Nat :=
  match o, vfloat t with
  | .sum, some f => (fmtOf f).zeroBits true
  | .max, some f => (fmtOf f).infBits true
  | .min, some f => (fmtOf f).infBits false
  | .sum, none => 0
  | .max, none => wrapTo (vwidth t) (vlow t)
  | .min, none => wrapTo (vwidth t) (vhigh t)

/-- One node of a reduction: operands are flushed and sums rounded as everywhere (R120, R103). -/
def vredNode (o : VRed) (v : VIn) (a b : Nat) : Nat × Fl :=
  let k : VArith := match o with | .sum => .add | .max => .max | .min => .min
  match vfloat v.t with
  | some f => vfltOp k f v.rm v.fz a b 0
  | none => (vintOp k v.t a b 0, 0)

/-- The inputs of a reduction or scan. -/
def VIn.redInputs (v : VIn) (o : VRed) : List Nat :=
  (List.range (vcount v.t)).map fun i => if v.active i then v.a i else vredIdle o v.t

/-- VREDSUM, VREDMAX, VREDMIN (R120, R271). -/
def vreduce (o : VRed) (v : VIn) : VOut :=
  let r := treeRoot (vredNode o v) (Nat.log2 (vcount v.t)) ((v.redInputs o).map fun x => (x, 0))
  { vd := [r.1], mask := none, xs := [], fl := r.2 }

/-- The running sums of VSCAN. The first output is the first input as it stands: no operation is made on it, which could make a
NaN canonical or flush a subnormal (DESIGN CHOICE, assumption 96). -/
def vscanFrom (v : VIn) : Option Nat → List Nat → List (Nat × Fl)
  | _, [] => []
  | none, x :: t => (x, 0) :: vscanFrom v (some x) t
  | some p, x :: t => let r := vredNode .sum v p x; r :: vscanFrom v (some r.1) t
/-- VSCAN (R120, R271). -/
def vscanOp (v : VIn) : VOut :=
  let rs := vscanFrom v none (v.redInputs .sum)
  { vd := [packWord (vwidth v.t) (rs.map (·.1))], mask := none, xs := [], fl := rs.foldl (fun fl r => fl ||| r.2) 0 }

/-- VEXPMAX (R272). -/
def vexpmaxOp (v : VIn) (d : XReg) : VOut :=
  let xs := ((List.range (vcount v.t)).filter v.active).map fun i =>
    match vfloat v.t with
    | some f => (fmtOf f).read false (v.a i)
    | none => Num.ofInt (vval v.t (v.a i))
  let tops := xs.filterMap fun x =>
    match x with
    | .fin _ m e => if m = 0 then none else some ((Nat.log2 m : Int) + e)
    | _ => none
  let r : Int :=
    if xs.any fun x => x.isNan || x.isInf then 32767
    else tops.foldl (fun a b => if a < b then b else a) (-32768)
  VOut.scalar d (BitVec.ofInt 64 r)

/-- Lane j of a lane set held in two register words (R273). -/
def laneOf (regs : List Nat) (j : Nat) : Acc :=
  Acc.ofPlanes (regs.getD 0 0 / 2 ^ (128 * j)) (regs.getD 1 0 / 2 ^ (16 * j) % 65536)

/-- VACC (R274): active elements accumulate into lane i mod (32 >> f). -/
def vaccOp (v : VIn) (fold : Nat) : VOut :=
  let lanes := 32 / 2 ^ fold
  let num := fun i => match vfloat v.t with
    | some f => (fmtOf f).read false (v.a i)
    | none => Num.ofInt (vval v.t (v.a i))
  let out := (List.range 32).map fun j =>
    if lanes ≤ j then laneOf v.rd j
    else ((List.range (vcount v.t / lanes)).map fun k => j + k * lanes).foldl
      (fun acc i => if v.active i then acc.add v.anch (num i) else acc) (laneOf v.rd j)
  { vd := [packWord 128 (out.map Acc.plane), packWord 16 (out.map Acc.side)], mask := none, xs := [], fl := 0 }

/-- VACCCVT (R275). The mask applies to the elements from 32 on as well, of which the rule says that they become +0 (DESIGN CHOICE,
assumption 101). -/
def vacccvtOp (v : VIn) : VOut :=
  v.plain fun i =>
    if 32 ≤ i then (0, 0)
    else
      let x := laneOf v.ra i
      match vfloat v.t with
      | some f => (x.toFmt v.anch f, 0)
      | none => (wrapTo (vwidth v.t) (x.toInt v.anch (vlow v.t) (vhigh v.t)), 0)

/-- The rounds of Philox4x32-10 (R276). -/
def philox : Nat → Nat × Nat × Nat × Nat → Nat → Nat → Nat × Nat × Nat × Nat
  | 0, c, _, _ => c
  | n + 1, (c0, c1, c2, c3), k0, k1 =>
    let p0 := 0xD2511F53 * c0
    let p1 := 0xCD9E8D57 * c2
    philox n (p1 / 2 ^ 32 ^^^ c1 ^^^ k0, p1 % 2 ^ 32, p0 / 2 ^ 32 ^^^ c3 ^^^ k1, p0 % 2 ^ 32)
      ((k0 + 0x9E3779B9) % 2 ^ 32) ((k1 + 0xBB67AE85) % 2 ^ 32)
/-- VRNG. -/
def vrngOp (v : VIn) : VOut :=
  let lane := fun j =>
    let e := fun k => elemOf 32 v.ra (4 * j + k)
    let (a, b, c, d) := philox 10 (e 0, e 1, e 2, e 3) (v.s1.toNat % 2 ^ 32) (v.s1.toNat / 2 ^ 32)
    [a, b, c, d]
  { vd := [packWord 32 ((List.range 32).flatMap lane)], mask := none, xs := [], fl := 0 }

/-- A special function on a group (R270). -/
def vspecial (f : SpecFn) (v : VIn) : VOut :=
  v.plain fun i => match vfloat v.t with
    | some fm => specResult f fm v.rm v.fz (v.a i)
    | none => (0, 0)

/-- VDIV (R163, R270). -/
def vdivOp (v : VIn) : VOut :=
  v.plain fun i => match vfloat v.t with
    | some f => (fmtOf f).div v.rm (flushOut v.fz f) (vnum f v.fz (v.a i)) (vnum f v.fz (v.b i))
    | none => (0, 0)

/-! ## The result of an entry -/

/-- The broadcast scalar of R256 and R257, at the entry's source width. -/
def VIn.bcast (v : VIn) (_i : Nat) : Nat := v.s1.toNat % 2 ^ vwidth v.t

/-- What a register-only vector entry computes (R253 to R276); none for an instruction that is no such entry. -/
def vcompute (i : Instr) (v : VIn) : Option VOut :=
  match i with
  | .vadd .. => some (varith .add v v.b)
  | .vsub .. => some (varith .sub v v.b)
  | .vmul .. => some (varith .mul v v.b)
  | .vfma .. => some (varith .fma v v.b)
  | .vmin .. => some (varith .min v v.b)
  | .vmax .. => some (varith .max v v.b)
  | .vabs .. => some (varith .abs v v.a)
  | .vneg .. => some (varith .neg v v.a)
  | .vand .. => some (varith .and v v.b)
  | .vor .. => some (varith .or v v.b)
  | .vxor .. => some (varith .xor v v.b)
  | .vandn .. => some (varith .andn v v.b)
  | .vshl .. => some (varith .shl v v.b)
  | .vshr .. => some (varith .shr v v.b)
  | .vsra .. => some (varith .sra v v.b)
  | .vavg .. => some (varith .avg v v.b)
  | .vsadd .. => some (varith .sadd v v.b)
  | .vssub .. => some (varith .ssub v v.b)
  | .vmulh .. => some (varith .mulh v v.b)
  | .vclamp .. => some (varith .clamp v v.b)
  | .vaddScalar .. => some (varith .add v v.bcast)
  | .vsubScalar .. => some (varith .sub v v.bcast)
  | .vmulScalar .. => some (varith .mul v v.bcast)
  | .vfmaScalar .. => some (varith .fma v v.bcast)
  | .vminScalar .. => some (varith .min v v.bcast)
  | .vmaxScalar .. => some (varith .max v v.bcast)
  | .vandScalar .. => some (varith .and v v.bcast)
  | .vorScalar .. => some (varith .or v v.bcast)
  | .vxorScalar .. => some (varith .xor v v.bcast)
  | .vandnScalar .. => some (varith .andn v v.bcast)
  | .vshlScalar .. => some (varith .shl v v.bcast)
  | .vshrScalar .. => some (varith .shr v v.bcast)
  | .vsraScalar .. => some (varith .sra v v.bcast)
  | .vavgScalar .. => some (varith .avg v v.bcast)
  | .vsaddScalar .. => some (varith .sadd v v.bcast)
  | .vssubScalar .. => some (varith .ssub v v.bcast)
  | .vmulhScalar .. => some (varith .mulh v v.bcast)
  | .vclampScalar .. => some (varith .clamp v v.bcast)
  | .vaddw .. => some (vwiden .add v v.b)
  | .vsubw .. => some (vwiden .sub v v.b)
  | .vmulw .. => some (vwiden .mul v v.b)
  | .vdotw .. => some (vdot v v.b)
  | .vaddwScalar .. => some (vwiden .add v v.bcast)
  | .vsubwScalar .. => some (vwiden .sub v v.bcast)
  | .vmulwScalar .. => some (vwiden .mul v v.bcast)
  | .vdotwScalar .. => some (vdot v v.bcast)
  | .vcmpeq .. => some (vcompare .eq v v.b)
  | .vcmpne .. => some (vcompare .ne v v.b)
  | .vcmplt .. => some (vcompare .lt v v.b)
  | .vcmple .. => some (vcompare .le v v.b)
  | .vcmpltn .. => some (vcompare .ltn v v.b)
  | .vcmplen .. => some (vcompare .len v v.b)
  | .vcmpeqScalar .. => some (vcompare .eq v v.bcast)
  | .vcmpneScalar .. => some (vcompare .ne v v.bcast)
  | .vcmpltScalar .. => some (vcompare .lt v v.bcast)
  | .vcmpleScalar .. => some (vcompare .le v v.bcast)
  | .vcmpltnScalar .. => some (vcompare .ltn v v.bcast)
  | .vcmplenScalar .. => some (vcompare .len v v.bcast)
  | .vsel .. => some (v.plain fun i => (if v.msk.testBit (i % 1024) then v.a i else v.b i, 0))
  | .vmand .. => some (vmaskOp v fun a b => a && b)
  | .vmor .. => some (vmaskOp v fun a b => a || b)
  | .vmxor .. => some (vmaskOp v fun a b => a != b)
  | .vmnot .. => some (vmaskOp v fun a _ => !a)
  | .vmpop d _ _ => some (VOut.scalar d (w64 v.counted.length))
  | .vmfirst d _ _ => some (VOut.scalar d (match v.counted with | [] => BitVec.allOnes 64 | i :: _ => w64 i))
  | .vperm .. => some (v.plain fun i => (if v.len ≤ v.b i then 0 else v.a (v.b i), 0))
  | .vrot .. => some (v.plain fun i => (v.a ((i + v.s1.toNat) % v.len), 0))
  | .vslideup .. => some (v.plain fun i => (if v.s1.toNat ≤ i then v.a (i - v.s1.toNat) else v.d i, 0))
  | .vslidedn .. => some (v.plain fun i => (if i + v.s1.toNat < v.len then v.a (i + v.s1.toNat) else 0, 0))
  | .vzip .. =>
    some (VOut.ofGroup (v.group (vwidth v.t) (2 * v.g) (fun j => j) fun j =>
      (if j % 2 = 0 then v.a (j / 2) else v.b (j / 2), 0)))
  | .vunzip .. =>
    let l := v.len
    some (VOut.ofGroup (v.group (vwidth v.t) (2 * v.g) (fun j => j) fun j =>
      (if j < l then v.a (2 * j) else v.a (2 * (j - l) + 1), 0)))
  | .vbcast .. => some (v.plain fun i => (v.bcast i, 0))
  | .vins .. => some (v.plain fun i => (if i = v.s2.toNat then v.bcast i else v.d i, 0))
  | .vext d _ _ _ => some (vextract v d)
  | .vcompress .. => some (vcompressOp v)
  | .viota .. =>
    some (v.plain fun i =>
      ((((List.range (i % 1024)).filter fun k => v.ma.testBit k).length + 1024 * (i / 1024)) % 2 ^ vwidth v.t, 0))
  | .vmovv .. => some (v.plain fun i => (v.a i, 0))
  | .vcvt _ _ t _ _ _ => some (vconvert v t)
  | .vqnt _ _ k _ => some (vquantize v k)
  | .vdqnt .. => some (vdequantize v)
  | .vround .. =>
    some (v.plain fun i => match vfloat v.t with
      | some f => vroundElem f v.rm v.fz (v.a i)
      | none => (0, 0))
  | .vnarrow .. => some (vnarrowOp v)
  | .vexp2 .. => some (vspecial .exp2 v)
  | .vlog2 .. => some (vspecial .log2 v)
  | .vexp .. => some (vspecial .exp v)
  | .vlog .. => some (vspecial .log v)
  | .vrcp .. => some (vspecial .rcp v)
  | .vrsq .. => some (vspecial .rsq v)
  | .vsqrt .. => some (vspecial .sqrt v)
  | .vtanh .. => some (vspecial .tanh v)
  | .vsigm .. => some (vspecial .sigm v)
  | .vsin .. => some (vspecial .sin v)
  | .vcos .. => some (vspecial .cos v)
  | .vdiv .. => some (vdivOp v)
  | .vredsum .. => some (vreduce .sum v)
  | .vredmax .. => some (vreduce .max v)
  | .vredmin .. => some (vreduce .min v)
  | .vscan .. => some (vscanOp v)
  | .vexpmax d _ _ => some (vexpmaxOp v d)
  | .vacc _ _ f _ => some (vaccOp v f.toNat)
  | .vacccvt .. => some (vacccvtOp v)
  | .vrng .. => some (vrngOp v)
  | _ => none

end Sys2Proof.Machine
end

