-- ==== Sys2Proof/Machine/Vector.lean ====
section
/-! DEFINITION. The vector classes at issue: what each instruction names (R134 to R136, R253 to R276), the checks made
when it is appended (R248, R251, R261), and one meaning for every vector instruction; VSETT is executed by the
sequencer (R247). -/

namespace Sys2Proof.Machine

/-! ## What an instruction names -/

/-- What a vector instruction names: its vector destination (or, where `wr` is false, the vd group it reads), its two
vector sources, its source masks, its destination mask, the scalars it reads and writes, its group size, whether it is
masked, whether it pushes a latch (R127) and whether the type is legal for it (R251). A group is a field and a count of
registers. -/
structure VDesc where
  dst : Option (VField × Nat) := none
  wr : Bool := true
  a : Option (VField × Nat) := none
  b : Option (VField × Nat) := none
  ma : Option PReg := none
  mb : Option PReg := none
  md : Option PReg := none
  xs : List XReg := []
  xd : List XReg := []
  g : Nat := 1
  mkd : Bool := false
  push : Bool := false
  ok : Bool := true

/-- The group of G registers at a field. -/
def vgrp (f : VField) (w : BitVec 2) : Option (VField × Nat) := some (f, groupSize w)
/-- The destination group, which nw = 1 does not name (R134). -/
def vdst (d : VField) (n : Nat) (nw : Bool) : Option (VField × Nat) := if nw then none else some (d, n)

/-- The type classes of R251. -/
def tArith (t : VType) : Bool := vint t || visFloat t
def tWiden (t : VType) : Bool :=
  match t with
  | .i8 | .n8 | .i16 | .n16 | .bf16 | .fp16 => true
  | _ => false
def tPerm (t : VType) : Bool :=
  match t with
  | .i16 | .n16 | .i32 | .n32 => true
  | _ => visFloat t
def tStride (t : VType) : Bool :=
  match t with
  | .i4 | .n4 => false
  | _ => true
/-- The result types of VNARROW (R266). -/
def tNarrow (t : VType) : Bool :=
  match t with
  | .i8 | .n8 | .i16 | .n16 | .i4 | .n4 => true
  | _ => false

/-- A two-source instruction of class 0x8. -/
def vd3 (t : Bool) (d a b : VField) (w : BitVec 2) (n m : Bool) : VDesc :=
  { dst := vdst d (groupSize w) n, wr := !n, a := vgrp a w, b := vgrp b w, g := groupSize w, mkd := m, push := w == 0,
    ok := t }
/-- Its scalar-broadcast form (R256). -/
def vd3s (t : Bool) (d a : VField) (x : XReg) (w : BitVec 2) (n m : Bool) : VDesc :=
  { vd3 t d a 0 w n m with b := none, xs := [x] }
/-- An instruction that also reads vd, which nw = 1 does not hide (R134). -/
def VDesc.reads (v : VDesc) (d : VField) : VDesc := { v with dst := some (d, v.g) }
/-- A widening instruction (R135). -/
def VDesc.widens (v : VDesc) (d : VField) (n : Bool) : VDesc := { v with dst := vdst d (2 * v.g) n, push := false }
/-- A one-source instruction. -/
def vd2 (t : Bool) (d a : VField) (w : BitVec 2) (n m : Bool) : VDesc := { vd3 t d a 0 w n m with b := none }
/-- A compare (R257). -/
def vdc (t : VType) (ok : Bool) (d : PReg) (a : VField) (w : BitVec 2) (m : Bool) : VDesc :=
  { wr := false, md := some d, a := vgrp a w, g := groupSize w, mkd := m,
    ok := ok && decide (groupSize w * vcount t ≤ 1024) }
/-- A permute of one source and a scalar (R259). -/
def vdp (d a : VField) (x : XReg) (w : BitVec 2) (n m : Bool) : VDesc := { vd2 true d a w n m with xs := [x] }
/-- A vector load or store of a group by a base and a second register (R260). -/
def vdm (t : Bool) (d : VField) (a b : XReg) (w : BitVec 2) (n m store : Bool) : VDesc :=
  { dst := vdst d (groupSize w) n, wr := !n && !store, xs := [a, b], g := groupSize w, mkd := m,
    push := w == 0 && !store, ok := t }
/-- A vector gather or scatter (R260). -/
def vdg (t : Bool) (d : VField) (a : XReg) (b : VField) (w : BitVec 2) (n m store : Bool) : VDesc :=
  { vdm t d a 0 w n m store with xs := [a], b := vgrp b w }

/-- VCVT: widening, narrowing or of equal widths; W = 3 is reserved where the widths differ, so that such a word names no
group, and so is a wide field that is not a multiple of 2G (R265). -/
def vdcvt (t : VType) (d a : VField) (src : VType) (w : BitVec 2) (n m : Bool) : VDesc :=
  let v := vd2 (vcvtOk src t) d a w n m
  if vwidth t = 2 * vwidth src then
    if w = 3 then { wr := false, ok := false }
    else { v.widens d n with ok := v.ok && d.toNat % (2 * v.g) == 0 }
  else if vwidth src = 2 * vwidth t then
    if w = 3 then { wr := false, ok := false }
    else { v with a := some (a, 2 * v.g), ok := v.ok && decide (a.toNat < 48) && a.toNat % (2 * v.g) == 0 }
  else v

/-- What every vector instruction names under a type; none for an instruction that is not appended to the vector
queue as a vector entry. -/
def vdesc (i : Instr) (t : VType) : Option VDesc :=
  match i with
  | .vadd d a b w n m | .vsub d a b w n m | .vmul d a b w n m | .vmin d a b w n m | .vmax d a b w n m =>
    some (vd3 (tArith t) d a b w n m)
  | .vfma d a b w n m | .vclamp d a b w n m => some ((vd3 (tArith t) d a b w n m).reads d)
  | .vabs d a w n m | .vneg d a w n m => some (vd2 (tArith t) d a w n m)
  | .vand d a b w n m | .vor d a b w n m | .vxor d a b w n m | .vandn d a b w n m => some (vd3 true d a b w n m)
  | .vshl d a b w n m | .vshr d a b w n m | .vsra d a b w n m | .vavg d a b w n m | .vsadd d a b w n m
  | .vssub d a b w n m | .vmulh d a b w n m => some (vd3 (vint t) d a b w n m)
  | .vaddw d a b w n m | .vsubw d a b w n m | .vmulw d a b w n m =>
    some ((vd3 (tWiden t) d a b w n m).widens d n)
  | .vdotw d a b w n m => some ((vd3 (tWiden t) d a b w n m).reads d)
  | .vaddScalar d a x w n m | .vsubScalar d a x w n m | .vmulScalar d a x w n m | .vminScalar d a x w n m
  | .vmaxScalar d a x w n m => some (vd3s (tArith t) d a x w n m)
  | .vfmaScalar d a x w n m | .vclampScalar d a x w n m => some ((vd3s (tArith t) d a x w n m).reads d)
  | .vandScalar d a x w n m | .vorScalar d a x w n m | .vxorScalar d a x w n m | .vandnScalar d a x w n m =>
    some (vd3s true d a x w n m)
  | .vshlScalar d a x w n m | .vshrScalar d a x w n m | .vsraScalar d a x w n m | .vavgScalar d a x w n m
  | .vsaddScalar d a x w n m | .vssubScalar d a x w n m | .vmulhScalar d a x w n m =>
    some (vd3s (vint t) d a x w n m)
  | .vaddwScalar d a x w n m | .vsubwScalar d a x w n m | .vmulwScalar d a x w n m =>
    some ((vd3s (tWiden t) d a x w n m).widens d n)
  | .vdotwScalar d a x w n m => some ((vd3s (tWiden t) d a x w n m).reads d)
  | .vcmpeq d a b w m | .vcmpne d a b w m | .vcmplt d a b w m | .vcmple d a b w m =>
    some { vdc t (tArith t) d a w m with b := vgrp b w }
  | .vcmpltn d a b w m | .vcmplen d a b w m => some { vdc t (vint t) d a w m with b := vgrp b w }
  | .vcmpeqScalar d a x w m | .vcmpneScalar d a x w m | .vcmpltScalar d a x w m | .vcmpleScalar d a x w m =>
    some { vdc t (tArith t) d a w m with xs := [x] }
  | .vcmpltnScalar d a x w m | .vcmplenScalar d a x w m => some { vdc t (vint t) d a w m with xs := [x] }
  | .vsel d a b w n => some (vd3 true d a b w n false)
  | .vmand d a b m | .vmor d a b m | .vmxor d a b m =>
    some { wr := false, md := some d, ma := some a, mb := some b, mkd := m }
  | .vmnot d a m => some { wr := false, md := some d, ma := some a, mkd := m }
  | .vmpop d a m | .vmfirst d a m => some { wr := false, xd := [d], ma := some a, mkd := m }
  | .vperm d a b w n m => some (vd3 (tPerm t) d a b w n m)
  | .vrot d a x w n m | .vslideup d a x w n m | .vslidedn d a x w n m => some (vdp d a x w n m)
  | .vzip d a b w n m => some ((vd3 true d a b w n m).widens d n)
  | .vunzip d a w n m => some { (vd2 true d a w n m).widens d n with a := some (a, 2 * groupSize w) }
  | .vbcast d x w n m => some { vdp d 0 x w n m with a := none }
  | .vins d a x w n m => some { vdp d 0 x w n m with a := none, xs := [a, x] }
  | .vext d a x w => some { wr := false, xd := [d], a := vgrp a w, xs := [x], g := groupSize w }
  | .vcompress d a k w n => some { vd2 true d a w n false with mb := some k }
  | .viota d k w n m => some { vd2 (vint t) d 0 w n m with a := none, ma := some k }
  | .vmovv d a w n m => some (vd2 true d a w n m)
  | .vld d a b w n m => some (vdm true d a b w n m false)
  | .vst d a b w m => some (vdm true d a b w false m true)
  | .vlds d a b w n m => some (vdm (tStride t) d a b w n m false)
  | .vsts d a b w m => some (vdm (tStride t) d a b w false m true)
  | .vldg d a b w n m => some (vdg (tPerm t) d a b w n m false)
  | .vstg d a b w m => some (vdg (tPerm t) d a b w false m true)
  | .vcvt d a src w n m => some (vdcvt t d a src w n m)
  | .vqnt d a k n => some { dst := vdst d 1 n, wr := !n, a := some (a, 4), xd := [k, pairHi k], g := 4 }
  | .vdqnt d a k n => some { dst := vdst d 4 n, wr := !n, a := some (a, 1), xs := [k, pairHi k], g := 4 }
  | .vround d a w n m => some (vd2 (visFloat t) d a w n m)
  | .vnarrow d a x w n m =>
    some { vd2 (tNarrow t) d a w n m with a := some (a, 2 * groupSize w), xs := [x] }
  | .vexp2 d a w n m | .vlog2 d a w n m | .vexp d a w n m | .vlog d a w n m | .vrcp d a w n m | .vrsq d a w n m
  | .vsqrt d a w n m | .vtanh d a w n m | .vsigm d a w n m | .vsin d a w n m | .vcos d a w n m =>
    some (vd2 (visFloat t) d a w n m)
  | .vdiv d a b w n m => some (vd3 (visFloat t) d a b w n m)
  | .vredsum d a n m | .vredmax d a n m | .vredmin d a n m | .vscan d a n m => some (vd2 (tArith t) d a 0 n m)
  | .vexpmax d a m => some { wr := false, xd := [d], a := vgrp a 0, mkd := m, ok := tArith t }
  | .vacc d a _ m => some { dst := some (d, 2), a := vgrp a 0, mkd := m, ok := tArith t }
  | .vacccvt d a n m => some { vd2 (tArith t) d a 0 n m with a := some (a, 2) }
  | .vrng d a k n => some { vd2 true d a 0 n false with xs := [k] }
  | _ => none

/-! ## Memory forms (R260) -/

/-- The vector memory forms: whether one stores, whether it is strided, whether it gathers by a vector. -/
structure VMem where
  store : Bool
  stride : Bool
  byVec : Bool
  deriving DecidableEq, Repr

/-- The memory form of an instruction. -/
def vmemOf (i : Instr) : Option VMem :=
  match i with
  | .vld .. => some { store := false, stride := false, byVec := false }
  | .vst .. => some { store := true, stride := false, byVec := false }
  | .vlds .. => some { store := false, stride := true, byVec := false }
  | .vsts .. => some { store := true, stride := true, byVec := false }
  | .vldg .. => some { store := false, stride := false, byVec := true }
  | .vstg .. => some { store := true, stride := false, byVec := true }
  | _ => none

/-- Bytes of an element in memory; a 4-bit element lies in one byte (R97). -/
def elemBytes (t : VType) : Nat := Nat.max 1 (vwidth t / 8)

/-- The address of element i (R260). -/
def VMem.addr (k : VMem) (t : VType) (s1 s2 : W64) (vi : Nat → Nat) (i : Nat) : Nat :=
  if k.byVec then (s1.toNat + vi i * elemBytes t) % 2 ^ 64
  else if k.stride then wrapTo 64 ((s1.toNat : Int) + (i : Int) * signedOf 64 s2.toNat)
  else (s1.toNat + s2.toNat + i * vwidth t / 8) % 2 ^ 64

/-- The active elements of a memory form in ascending order, each with its address. -/
def VMem.elems (k : VMem) (t : VType) (n : Nat) (active : Nat → Bool) (s1 s2 : W64) (vi : Nat → Nat) :
    List (Nat × Nat) :=
  ((List.range n).filter active).map fun i => (i, k.addr t s1 s2 vi i)

/-! ## Issue -/

/-- The lowest vector register at or above VREGS that the groups name (R126); a latch is no such register. -/
def vregsOver (vregs : Nat) (gs : List (VField × Nat)) : Option Nat :=
  (gs.flatMap fun g => if 48 ≤ g.1.toNat then [] else
    ((List.range g.2).map (g.1.toNat + ·)).filter fun n => decide (vregs ≤ n ∧ n < 48)).foldl
      (fun acc n => match acc with | none => some n | some k => some (Nat.min k n)) none

/-- Whether a latch is read that no push since the last loss has filled (R127). -/
def Slot.stale (l : Slot) (gs : List (VField × Nat)) : Bool :=
  gs.any fun g => decide (48 ≤ g.1.toNat ∧ l.pushes ≤ g.1.toNat - 48)

/-- Whether an entry in flight of the executing slot writes a mask register (R249). -/
def State.maskBusy (s : State) (n : Nat) : Bool :=
  (s.inFlight .vec).any fun r =>
    match vdesc r.instr (vcfgType r.vcfg) with
    | some d => (match d.md with | some k => k.toNat == n | none => false)
    | none => false

/-- The window check that R261 makes at issue for addresses in a window, in element order; it pins the lines of a
degraded pool (R65). -/
def State.checkWindows (s : State) (n : Nat) : List (Nat × Nat) → State × Option (Cause × Nat)
  | [] => (s, none)
  | (_, va) :: es =>
    if isWindow va then
      match s.check s.cur va n .read Mode.early with
      | .ok _ s1 => s1.checkWindows n es
      | .trap c => (s, some (c, va))
      | _ => s.checkWindows n es
    else s.checkWindows n es

/-- A record appended to the vector queue, with its latch push counted (R127) and the window addresses it reads (R206). -/
def State.vecAppend (s : State) (i : Instr) (d : VDesc) (guard : List (Nat × Nat)) : State :=
  (s.mapSlot fun l => { l with pushes := l.pushes + b2n d.push }).issueTo .vec i (d.xs.map s.rx) fun q =>
    { q with guard := guard }

/-- Element addresses as spans, adjacent elements of n bytes joined. -/
def spansOf (n : Nat) : List (Nat × Nat) → List (Nat × Nat)
  | [] => []
  | (_, va) :: es =>
    match spansOf n es with
    | (b, k) :: t => if va + n = b then (va, n + k) :: t else (va, n) :: (b, k) :: t
    | [] => [(va, n)]

/-- The spans of window addresses that a load entry reads at the given elements (R206). -/
def loadGuard (k : VMem) (t : VType) (es : List (Nat × Nat)) : List (Nat × Nat) :=
  if k.store then [] else spansOf (elemBytes t) (es.filter fun e => isWindow e.2)

/-- The register words of a group, or the one word of a latch (R134). -/
def Slot.vwords (l : Slot) (g : VField × Nat) : List Nat :=
  if 48 ≤ g.1.toNat then [(l.b.toList.getD (g.1.toNat - 48) 0).toNat]
  else (List.range g.2).map fun k => (l.rv (g.1.toNat + k)).toNat

/-- The window addresses that a VLDG reads: those its index registers give, or any while a vector entry of the slot that may
still write the registers or the mask is in flight. -/
def State.gatherGuard (s : State) (d : VDesc) (k : VMem) : List (Nat × Nat) :=
  let cfg := s.slot.vcfg.setWidth 8
  let t := vcfgType cfg
  if k.store then []
  else if !(s.inFlight .vec).isEmpty then [(0xFFE * 2 ^ 52, 2 ^ 53)]
  else
    let msk := s.slot.rm (vcfgMask cfg)
    let idx := (d.b.map s.slot.vwords).getD []
    loadGuard k t (k.elems t (d.g * vcount t) (fun i => !d.mkd || msk.getLsbD (i % 1024)) (s.rx (d.xs.getD 0 0))
      (s.rx (d.xs.getD 1 0)) (elemOf (vwidth t) idx))

/-- The checks that VLD, VST, VLDS and VSTS make at issue (R261), and their appending. Their mask is read here, so they
wait for an entry that will write it. Of what R261 leaves open, R67's one region is asked of each element, and the alignment
of every element comes before any other check (DESIGN CHOICE, assumption 101). -/
def State.vecMemIssue (s : State) (i : Instr) (d : VDesc) (k : VMem) (word : W32) : State :=
  let cfg := s.slot.vcfg.setWidth 8
  let t := vcfgType cfg
  if d.mkd && s.maskBusy (vcfgMask cfg) then s.stallHere else
  let msk := s.slot.rm (vcfgMask cfg)
  let es := k.elems t (d.g * vcount t) (fun i => !d.mkd || msk.getLsbD (i % 1024)) (s.rx (d.xs.getD 0 0))
    (s.rx (d.xs.getD 1 0)) (fun _ => 0)
  match es.find? fun e => e.2 % elemBytes t != 0 with
  | some (_, va) => s.trap .misaligned (w64 va) word
  | none =>
    match s.checkWindows (elemBytes t) es with
    | (_, some (c, va)) => s.trap c (w64 va) word
    | (s1, none) => if (s.here.queue .vec).full .vec then s.stallHere else s1.vecAppend i d (loadGuard k t es)

/-- The groups of vector registers that an instruction names. -/
def VDesc.groups (d : VDesc) : List (VField × Nat) := d.dst.toList ++ d.a.toList ++ d.b.toList

/-- What makes a vector instruction ILLEGAL in the executing slot, as its TVAL: a vector register at or above VREGS (R126), and
then a field or a type that the instruction does not take (R139, R251; the order is DEDUCED, assumption 12). -/
def State.vecIllegal (s : State) (d : VDesc) : Option W64 :=
  match vregsOver s.here.vregs d.groups with
  | some n => some (w64 n)
  | none => if d.ok then none else some 0

/-- Whether reduced service lacks a storage type that VSETT selects (R428). -/
def State.lacksType (s : State) (t : VType) : Bool :=
  s.service = 1 && (match t with
    | .tf8 | .i4 | .n4 | .fp16 => true
    | _ => false)

/-- A vector instruction at issue (R248): R126 first, then the type and the fields, then stale latches (R127), then
R261; it stalls while the queue is full (R141). -/
def State.vecIssue (s : State) (i : Instr) : Out :=
  let word := i.encode
  .next (match vdesc i (vcfgType (s.slot.vcfg.setWidth 8)) with
  | none => s.trap .illegal 0 word
  | some d =>
    match s.vecIllegal d with
    | some v => s.trap .illegal v word
    | none =>
      if s.slot.stale d.groups then s.trapOpen .staleLatch word
      else match vmemOf i with
        | some k => if k.byVec then (if (s.here.queue .vec).full .vec then s.stallHere else s.vecAppend i d (s.gatherGuard d k))
            else s.vecMemIssue i d k word
        | none => if (s.here.queue .vec).full .vec then s.stallHere else s.vecAppend i d [])

/-- VSETT (R247): VCFG is written; in reduced service TF8, I4, N4 and FP16 raise ILLEGAL (R428). -/
def execVsett (t : VType) (z : Bool) (k : BitVec 3) (s : State) : Out :=
  let word := (Instr.vsett t z k).encode
  .next (if s.lacksType t then s.trap .illegal 0 word
  else (s.mapSlot fun l => { l with vcfg := w64 (t.code + k.toNat * 16 + b2n z * 128) }).retire)

/-! ## The meanings, in the table's order -/

/-- VADD (R253). -/
def execVadd (d a b : BitVec 6) (w : BitVec 2) (n m : Bool) (s : State) : Out :=
  s.vecIssue (.vadd d a b w n m)
/-- VSUB (R253). -/
def execVsub (d a b : BitVec 6) (w : BitVec 2) (n m : Bool) (s : State) : Out :=
  s.vecIssue (.vsub d a b w n m)
/-- VMUL (R253). -/
def execVmul (d a b : BitVec 6) (w : BitVec 2) (n m : Bool) (s : State) : Out :=
  s.vecIssue (.vmul d a b w n m)
/-- VFMA (R253). -/
def execVfma (d a b : BitVec 6) (w : BitVec 2) (n m : Bool) (s : State) : Out :=
  s.vecIssue (.vfma d a b w n m)
/-- VMIN (R253). -/
def execVmin (d a b : BitVec 6) (w : BitVec 2) (n m : Bool) (s : State) : Out :=
  s.vecIssue (.vmin d a b w n m)
/-- VMAX (R253). -/
def execVmax (d a b : BitVec 6) (w : BitVec 2) (n m : Bool) (s : State) : Out :=
  s.vecIssue (.vmax d a b w n m)
/-- VABS (R253). -/
def execVabs (d a : BitVec 6) (w : BitVec 2) (n m : Bool) (s : State) : Out :=
  s.vecIssue (.vabs d a w n m)
/-- VNEG (R253). -/
def execVneg (d a : BitVec 6) (w : BitVec 2) (n m : Bool) (s : State) : Out :=
  s.vecIssue (.vneg d a w n m)
/-- VAND (R253). -/
def execVand (d a b : BitVec 6) (w : BitVec 2) (n m : Bool) (s : State) : Out :=
  s.vecIssue (.vand d a b w n m)
/-- VOR (R253). -/
def execVor (d a b : BitVec 6) (w : BitVec 2) (n m : Bool) (s : State) : Out :=
  s.vecIssue (.vor d a b w n m)
/-- VXOR (R253). -/
def execVxor (d a b : BitVec 6) (w : BitVec 2) (n m : Bool) (s : State) : Out :=
  s.vecIssue (.vxor d a b w n m)
/-- VANDN (R253). -/
def execVandn (d a b : BitVec 6) (w : BitVec 2) (n m : Bool) (s : State) : Out :=
  s.vecIssue (.vandn d a b w n m)
/-- VSHL (R253). -/
def execVshl (d a b : BitVec 6) (w : BitVec 2) (n m : Bool) (s : State) : Out :=
  s.vecIssue (.vshl d a b w n m)
/-- VSHR (R253). -/
def execVshr (d a b : BitVec 6) (w : BitVec 2) (n m : Bool) (s : State) : Out :=
  s.vecIssue (.vshr d a b w n m)
/-- VSRA (R253). -/
def execVsra (d a b : BitVec 6) (w : BitVec 2) (n m : Bool) (s : State) : Out :=
  s.vecIssue (.vsra d a b w n m)
/-- VADDW (R254). -/
def execVaddw (d a b : BitVec 6) (w : BitVec 2) (n m : Bool) (s : State) : Out :=
  s.vecIssue (.vaddw d a b w n m)
/-- VSUBW (R254). -/
def execVsubw (d a b : BitVec 6) (w : BitVec 2) (n m : Bool) (s : State) : Out :=
  s.vecIssue (.vsubw d a b w n m)
/-- VMULW (R254). -/
def execVmulw (d a b : BitVec 6) (w : BitVec 2) (n m : Bool) (s : State) : Out :=
  s.vecIssue (.vmulw d a b w n m)
/-- VDOTW (R255). -/
def execVdotw (d a b : BitVec 6) (w : BitVec 2) (n m : Bool) (s : State) : Out :=
  s.vecIssue (.vdotw d a b w n m)
/-- VAVG (R253). -/
def execVavg (d a b : BitVec 6) (w : BitVec 2) (n m : Bool) (s : State) : Out :=
  s.vecIssue (.vavg d a b w n m)
/-- VSADD (R253). -/
def execVsadd (d a b : BitVec 6) (w : BitVec 2) (n m : Bool) (s : State) : Out :=
  s.vecIssue (.vsadd d a b w n m)
/-- VSSUB (R253). -/
def execVssub (d a b : BitVec 6) (w : BitVec 2) (n m : Bool) (s : State) : Out :=
  s.vecIssue (.vssub d a b w n m)
/-- VMULH (R253). -/
def execVmulh (d a b : BitVec 6) (w : BitVec 2) (n m : Bool) (s : State) : Out :=
  s.vecIssue (.vmulh d a b w n m)
/-- VCLAMP (R253). -/
def execVclamp (d a b : BitVec 6) (w : BitVec 2) (n m : Bool) (s : State) : Out :=
  s.vecIssue (.vclamp d a b w n m)
/-- VADD, scalar form (R256). -/
def execVaddScalar (d a : BitVec 6) (x : BitVec 5) (w : BitVec 2) (n m : Bool) (s : State) : Out :=
  s.vecIssue (.vaddScalar d a x w n m)
/-- VSUB, scalar form (R256). -/
def execVsubScalar (d a : BitVec 6) (x : BitVec 5) (w : BitVec 2) (n m : Bool) (s : State) : Out :=
  s.vecIssue (.vsubScalar d a x w n m)
/-- VMUL, scalar form (R256). -/
def execVmulScalar (d a : BitVec 6) (x : BitVec 5) (w : BitVec 2) (n m : Bool) (s : State) : Out :=
  s.vecIssue (.vmulScalar d a x w n m)
/-- VFMA, scalar form (R256). -/
def execVfmaScalar (d a : BitVec 6) (x : BitVec 5) (w : BitVec 2) (n m : Bool) (s : State) : Out :=
  s.vecIssue (.vfmaScalar d a x w n m)
/-- VMIN, scalar form (R256). -/
def execVminScalar (d a : BitVec 6) (x : BitVec 5) (w : BitVec 2) (n m : Bool) (s : State) : Out :=
  s.vecIssue (.vminScalar d a x w n m)
/-- VMAX, scalar form (R256). -/
def execVmaxScalar (d a : BitVec 6) (x : BitVec 5) (w : BitVec 2) (n m : Bool) (s : State) : Out :=
  s.vecIssue (.vmaxScalar d a x w n m)
/-- VAND, scalar form (R256). -/
def execVandScalar (d a : BitVec 6) (x : BitVec 5) (w : BitVec 2) (n m : Bool) (s : State) : Out :=
  s.vecIssue (.vandScalar d a x w n m)
/-- VOR, scalar form (R256). -/
def execVorScalar (d a : BitVec 6) (x : BitVec 5) (w : BitVec 2) (n m : Bool) (s : State) : Out :=
  s.vecIssue (.vorScalar d a x w n m)
/-- VXOR, scalar form (R256). -/
def execVxorScalar (d a : BitVec 6) (x : BitVec 5) (w : BitVec 2) (n m : Bool) (s : State) : Out :=
  s.vecIssue (.vxorScalar d a x w n m)
/-- VANDN, scalar form (R256). -/
def execVandnScalar (d a : BitVec 6) (x : BitVec 5) (w : BitVec 2) (n m : Bool) (s : State) : Out :=
  s.vecIssue (.vandnScalar d a x w n m)
/-- VSHL, scalar form (R256). -/
def execVshlScalar (d a : BitVec 6) (x : BitVec 5) (w : BitVec 2) (n m : Bool) (s : State) : Out :=
  s.vecIssue (.vshlScalar d a x w n m)
/-- VSHR, scalar form (R256). -/
def execVshrScalar (d a : BitVec 6) (x : BitVec 5) (w : BitVec 2) (n m : Bool) (s : State) : Out :=
  s.vecIssue (.vshrScalar d a x w n m)
/-- VSRA, scalar form (R256). -/
def execVsraScalar (d a : BitVec 6) (x : BitVec 5) (w : BitVec 2) (n m : Bool) (s : State) : Out :=
  s.vecIssue (.vsraScalar d a x w n m)
/-- VADDW, scalar form (R256). -/
def execVaddwScalar (d a : BitVec 6) (x : BitVec 5) (w : BitVec 2) (n m : Bool) (s : State) : Out :=
  s.vecIssue (.vaddwScalar d a x w n m)
/-- VSUBW, scalar form (R256). -/
def execVsubwScalar (d a : BitVec 6) (x : BitVec 5) (w : BitVec 2) (n m : Bool) (s : State) : Out :=
  s.vecIssue (.vsubwScalar d a x w n m)
/-- VMULW, scalar form (R256). -/
def execVmulwScalar (d a : BitVec 6) (x : BitVec 5) (w : BitVec 2) (n m : Bool) (s : State) : Out :=
  s.vecIssue (.vmulwScalar d a x w n m)
/-- VDOTW, scalar form (R256). -/
def execVdotwScalar (d a : BitVec 6) (x : BitVec 5) (w : BitVec 2) (n m : Bool) (s : State) : Out :=
  s.vecIssue (.vdotwScalar d a x w n m)
/-- VAVG, scalar form (R256). -/
def execVavgScalar (d a : BitVec 6) (x : BitVec 5) (w : BitVec 2) (n m : Bool) (s : State) : Out :=
  s.vecIssue (.vavgScalar d a x w n m)
/-- VSADD, scalar form (R256). -/
def execVsaddScalar (d a : BitVec 6) (x : BitVec 5) (w : BitVec 2) (n m : Bool) (s : State) : Out :=
  s.vecIssue (.vsaddScalar d a x w n m)
/-- VSSUB, scalar form (R256). -/
def execVssubScalar (d a : BitVec 6) (x : BitVec 5) (w : BitVec 2) (n m : Bool) (s : State) : Out :=
  s.vecIssue (.vssubScalar d a x w n m)
/-- VMULH, scalar form (R256). -/
def execVmulhScalar (d a : BitVec 6) (x : BitVec 5) (w : BitVec 2) (n m : Bool) (s : State) : Out :=
  s.vecIssue (.vmulhScalar d a x w n m)
/-- VCLAMP, scalar form (R256). -/
def execVclampScalar (d a : BitVec 6) (x : BitVec 5) (w : BitVec 2) (n m : Bool) (s : State) : Out :=
  s.vecIssue (.vclampScalar d a x w n m)
/-- VCMPEQ (R257). -/
def execVcmpeq (d : BitVec 3) (a b : BitVec 6) (w : BitVec 2) (m : Bool) (s : State) : Out :=
  s.vecIssue (.vcmpeq d a b w m)
/-- VCMPNE (R257). -/
def execVcmpne (d : BitVec 3) (a b : BitVec 6) (w : BitVec 2) (m : Bool) (s : State) : Out :=
  s.vecIssue (.vcmpne d a b w m)
/-- VCMPLT (R257). -/
def execVcmplt (d : BitVec 3) (a b : BitVec 6) (w : BitVec 2) (m : Bool) (s : State) : Out :=
  s.vecIssue (.vcmplt d a b w m)
/-- VCMPLE (R257). -/
def execVcmple (d : BitVec 3) (a b : BitVec 6) (w : BitVec 2) (m : Bool) (s : State) : Out :=
  s.vecIssue (.vcmple d a b w m)
/-- VCMPLTN (R257). -/
def execVcmpltn (d : BitVec 3) (a b : BitVec 6) (w : BitVec 2) (m : Bool) (s : State) : Out :=
  s.vecIssue (.vcmpltn d a b w m)
/-- VCMPLEN (R257). -/
def execVcmplen (d : BitVec 3) (a b : BitVec 6) (w : BitVec 2) (m : Bool) (s : State) : Out :=
  s.vecIssue (.vcmplen d a b w m)
/-- VCMPEQ, scalar form (R257). -/
def execVcmpeqScalar (d : BitVec 3) (a : BitVec 6) (x : BitVec 5) (w : BitVec 2) (m : Bool) (s : State) : Out :=
  s.vecIssue (.vcmpeqScalar d a x w m)
/-- VCMPNE, scalar form (R257). -/
def execVcmpneScalar (d : BitVec 3) (a : BitVec 6) (x : BitVec 5) (w : BitVec 2) (m : Bool) (s : State) : Out :=
  s.vecIssue (.vcmpneScalar d a x w m)
/-- VCMPLT, scalar form (R257). -/
def execVcmpltScalar (d : BitVec 3) (a : BitVec 6) (x : BitVec 5) (w : BitVec 2) (m : Bool) (s : State) : Out :=
  s.vecIssue (.vcmpltScalar d a x w m)
/-- VCMPLE, scalar form (R257). -/
def execVcmpleScalar (d : BitVec 3) (a : BitVec 6) (x : BitVec 5) (w : BitVec 2) (m : Bool) (s : State) : Out :=
  s.vecIssue (.vcmpleScalar d a x w m)
/-- VCMPLTN, scalar form (R257). -/
def execVcmpltnScalar (d : BitVec 3) (a : BitVec 6) (x : BitVec 5) (w : BitVec 2) (m : Bool) (s : State) : Out :=
  s.vecIssue (.vcmpltnScalar d a x w m)
/-- VCMPLEN, scalar form (R257). -/
def execVcmplenScalar (d : BitVec 3) (a : BitVec 6) (x : BitVec 5) (w : BitVec 2) (m : Bool) (s : State) : Out :=
  s.vecIssue (.vcmplenScalar d a x w m)
/-- VSEL (R258). -/
def execVsel (d a b : BitVec 6) (w : BitVec 2) (n : Bool) (s : State) : Out :=
  s.vecIssue (.vsel d a b w n)
/-- VMAND (R258). -/
def execVmand (d a b : BitVec 3) (m : Bool) (s : State) : Out :=
  s.vecIssue (.vmand d a b m)
/-- VMOR (R258). -/
def execVmor (d a b : BitVec 3) (m : Bool) (s : State) : Out :=
  s.vecIssue (.vmor d a b m)
/-- VMXOR (R258). -/
def execVmxor (d a b : BitVec 3) (m : Bool) (s : State) : Out :=
  s.vecIssue (.vmxor d a b m)
/-- VMNOT (R258). -/
def execVmnot (d a : BitVec 3) (m : Bool) (s : State) : Out :=
  s.vecIssue (.vmnot d a m)
/-- VMPOP (R258). -/
def execVmpop (d : BitVec 5) (a : BitVec 3) (m : Bool) (s : State) : Out :=
  s.vecIssue (.vmpop d a m)
/-- VMFIRST (R258). -/
def execVmfirst (d : BitVec 5) (a : BitVec 3) (m : Bool) (s : State) : Out :=
  s.vecIssue (.vmfirst d a m)
/-- VPERM (R259). -/
def execVperm (d a b : BitVec 6) (w : BitVec 2) (n m : Bool) (s : State) : Out :=
  s.vecIssue (.vperm d a b w n m)
/-- VROT (R259). -/
def execVrot (d a : BitVec 6) (x : BitVec 5) (w : BitVec 2) (n m : Bool) (s : State) : Out :=
  s.vecIssue (.vrot d a x w n m)
/-- VSLIDEUP (R259). -/
def execVslideup (d a : BitVec 6) (x : BitVec 5) (w : BitVec 2) (n m : Bool) (s : State) : Out :=
  s.vecIssue (.vslideup d a x w n m)
/-- VSLIDEDN (R259). -/
def execVslidedn (d a : BitVec 6) (x : BitVec 5) (w : BitVec 2) (n m : Bool) (s : State) : Out :=
  s.vecIssue (.vslidedn d a x w n m)
/-- VZIP (R259). -/
def execVzip (d a b : BitVec 6) (w : BitVec 2) (n m : Bool) (s : State) : Out :=
  s.vecIssue (.vzip d a b w n m)
/-- VUNZIP (R259). -/
def execVunzip (d a : BitVec 6) (w : BitVec 2) (n m : Bool) (s : State) : Out :=
  s.vecIssue (.vunzip d a w n m)
/-- VBCAST (R259). -/
def execVbcast (d : BitVec 6) (x : BitVec 5) (w : BitVec 2) (n m : Bool) (s : State) : Out :=
  s.vecIssue (.vbcast d x w n m)
/-- VINS (R259). -/
def execVins (d : BitVec 6) (a x : BitVec 5) (w : BitVec 2) (n m : Bool) (s : State) : Out :=
  s.vecIssue (.vins d a x w n m)
/-- VEXT (R259). -/
def execVext (d : BitVec 5) (a : BitVec 6) (x : BitVec 5) (w : BitVec 2) (s : State) : Out :=
  s.vecIssue (.vext d a x w)
/-- VCOMPRESS (R259). -/
def execVcompress (d a : BitVec 6) (k : BitVec 3) (w : BitVec 2) (n : Bool) (s : State) : Out :=
  s.vecIssue (.vcompress d a k w n)
/-- VIOTA (R259). -/
def execViota (d : BitVec 6) (k : BitVec 3) (w : BitVec 2) (n m : Bool) (s : State) : Out :=
  s.vecIssue (.viota d k w n m)
/-- VMOVV (R259). -/
def execVmovv (d a : BitVec 6) (w : BitVec 2) (n m : Bool) (s : State) : Out :=
  s.vecIssue (.vmovv d a w n m)
/-- VLD (R260 to R263). -/
def execVld (d : BitVec 6) (a b : BitVec 5) (w : BitVec 2) (n m : Bool) (s : State) : Out :=
  s.vecIssue (.vld d a b w n m)
/-- VST (R260 to R263). -/
def execVst (d : BitVec 6) (a b : BitVec 5) (w : BitVec 2) (m : Bool) (s : State) : Out :=
  s.vecIssue (.vst d a b w m)
/-- VLDS (R260 to R263). -/
def execVlds (d : BitVec 6) (a b : BitVec 5) (w : BitVec 2) (n m : Bool) (s : State) : Out :=
  s.vecIssue (.vlds d a b w n m)
/-- VSTS (R260 to R263). -/
def execVsts (d : BitVec 6) (a b : BitVec 5) (w : BitVec 2) (m : Bool) (s : State) : Out :=
  s.vecIssue (.vsts d a b w m)
/-- VLDG (R260 to R263). -/
def execVldg (d : BitVec 6) (a : BitVec 5) (b : BitVec 6) (w : BitVec 2) (n m : Bool) (s : State) : Out :=
  s.vecIssue (.vldg d a b w n m)
/-- VSTG (R260 to R263). -/
def execVstg (d : BitVec 6) (a : BitVec 5) (b : BitVec 6) (w : BitVec 2) (m : Bool) (s : State) : Out :=
  s.vecIssue (.vstg d a b w m)
/-- VCVT (R265). -/
def execVcvt (d a : BitVec 6) (t : VType) (w : BitVec 2) (n m : Bool) (s : State) : Out :=
  s.vecIssue (.vcvt d a t w n m)
/-- VQNT (R268). -/
def execVqnt (d a : BitVec 6) (k : BitVec 5) (n : Bool) (s : State) : Out :=
  s.vecIssue (.vqnt d a k n)
/-- VDQNT (R269). -/
def execVdqnt (d a : BitVec 6) (k : BitVec 5) (n : Bool) (s : State) : Out :=
  s.vecIssue (.vdqnt d a k n)
/-- VROUND (R267). -/
def execVround (d a : BitVec 6) (w : BitVec 2) (n m : Bool) (s : State) : Out :=
  s.vecIssue (.vround d a w n m)
/-- VNARROW (R266). -/
def execVnarrow (d a : BitVec 6) (x : BitVec 5) (w : BitVec 2) (n m : Bool) (s : State) : Out :=
  s.vecIssue (.vnarrow d a x w n m)
/-- VEXP2 (R270). -/
def execVexp2 (d a : BitVec 6) (w : BitVec 2) (n m : Bool) (s : State) : Out :=
  s.vecIssue (.vexp2 d a w n m)
/-- VLOG2 (R270). -/
def execVlog2 (d a : BitVec 6) (w : BitVec 2) (n m : Bool) (s : State) : Out :=
  s.vecIssue (.vlog2 d a w n m)
/-- VEXP (R270). -/
def execVexp (d a : BitVec 6) (w : BitVec 2) (n m : Bool) (s : State) : Out :=
  s.vecIssue (.vexp d a w n m)
/-- VLOG (R270). -/
def execVlog (d a : BitVec 6) (w : BitVec 2) (n m : Bool) (s : State) : Out :=
  s.vecIssue (.vlog d a w n m)
/-- VRCP (R270). -/
def execVrcp (d a : BitVec 6) (w : BitVec 2) (n m : Bool) (s : State) : Out :=
  s.vecIssue (.vrcp d a w n m)
/-- VRSQ (R270). -/
def execVrsq (d a : BitVec 6) (w : BitVec 2) (n m : Bool) (s : State) : Out :=
  s.vecIssue (.vrsq d a w n m)
/-- VSQRT (R270). -/
def execVsqrt (d a : BitVec 6) (w : BitVec 2) (n m : Bool) (s : State) : Out :=
  s.vecIssue (.vsqrt d a w n m)
/-- VTANH (R270). -/
def execVtanh (d a : BitVec 6) (w : BitVec 2) (n m : Bool) (s : State) : Out :=
  s.vecIssue (.vtanh d a w n m)
/-- VSIGM (R270). -/
def execVsigm (d a : BitVec 6) (w : BitVec 2) (n m : Bool) (s : State) : Out :=
  s.vecIssue (.vsigm d a w n m)
/-- VSIN (R270). -/
def execVsin (d a : BitVec 6) (w : BitVec 2) (n m : Bool) (s : State) : Out :=
  s.vecIssue (.vsin d a w n m)
/-- VCOS (R270). -/
def execVcos (d a : BitVec 6) (w : BitVec 2) (n m : Bool) (s : State) : Out :=
  s.vecIssue (.vcos d a w n m)
/-- VDIV (R270). -/
def execVdiv (d a b : BitVec 6) (w : BitVec 2) (n m : Bool) (s : State) : Out :=
  s.vecIssue (.vdiv d a b w n m)
/-- VREDSUM (R271). -/
def execVredsum (d a : BitVec 6) (n m : Bool) (s : State) : Out :=
  s.vecIssue (.vredsum d a n m)
/-- VREDMAX (R271). -/
def execVredmax (d a : BitVec 6) (n m : Bool) (s : State) : Out :=
  s.vecIssue (.vredmax d a n m)
/-- VREDMIN (R271). -/
def execVredmin (d a : BitVec 6) (n m : Bool) (s : State) : Out :=
  s.vecIssue (.vredmin d a n m)
/-- VSCAN (R271). -/
def execVscan (d a : BitVec 6) (n m : Bool) (s : State) : Out :=
  s.vecIssue (.vscan d a n m)
/-- VEXPMAX (R272). -/
def execVexpmax (d : BitVec 5) (a : BitVec 6) (m : Bool) (s : State) : Out :=
  s.vecIssue (.vexpmax d a m)
/-- VACC (R274). -/
def execVacc (d a f : BitVec 6) (m : Bool) (s : State) : Out :=
  s.vecIssue (.vacc d a f m)
/-- VACCCVT (R275). -/
def execVacccvt (d a : BitVec 6) (n m : Bool) (s : State) : Out :=
  s.vecIssue (.vacccvt d a n m)
/-- VRNG (R276). -/
def execVrng (d a : BitVec 6) (k : BitVec 5) (n : Bool) (s : State) : Out :=
  s.vecIssue (.vrng d a k n)

end Sys2Proof.Machine
end

