-- ==== Sys2Proof/Machine/VectorRun.lean ====
section
/-! DEFINITION. The vector engine: the start of an entry (VECTOR_ENTRY_START), where it reads its sources and makes
its accesses (R249, R261, R262), and its end (VECTOR_ENTRY_END), where it writes everything it writes (R249, R263, R102,
R123, R127). -/

namespace Sys2Proof.Machine

/-- The oldest record of a queue leaves it (R344). -/
def EngQ.pop (q : EngQ) : EngQ := EngQ.pass { q with recs := q.recs.drop 1 }

/-- A free vector word: the old value of a destination that nw = 1 does not name (assumption 2). In D1 and D2 it is one
value for one entry, so that a run again and another placement give the same bytes (R379). -/
def State.freeVec (s : State) (r : SlotRef) (q : QRec) : Nat × State :=
  let l := s.launchOf r
  if q.det = 0 then
    ((List.range 64).foldl (fun a k => a * 2 ^ 64 + (Config.freeValue (s.freeCtr + k)).toNat) 0,
     { s with freeCtr := s.freeCtr + 64 })
  else
    ((List.range 64).foldl (fun a k =>
      a * 2 ^ 64 + (Config.oldWord l.prog.toNat l.args.toNat q.task.toNat q.ord k).toNat) 0, s)

/-- A mask register named by an optional field. -/
def Slot.maskOf (l : Slot) (f : Option PReg) : Nat :=
  match f with
  | some k => (l.rm k.toNat).toNat
  | none => 0

/-- What an entry reads when the engine starts it (R248, R249). -/
def Slot.vecIn (l : Slot) (q : QRec) (d : VDesc) (unnamed : Nat) : VIn where
  t := vcfgType q.vcfg
  g := d.g
  rm := rmOf q.rm.toNat
  fz := q.fz
  anch := signedOf 16 q.anch.toNat
  mkd := d.mkd
  mz := vcfgZero q.vcfg
  msk := (l.rm (vcfgMask q.vcfg)).toNat
  ra := match d.a with | some g => l.vwords g | none => []
  rb := match d.b with | some g => l.vwords g | none => []
  rd := match d.dst with | some g => l.vwords g | none => [unnamed]
  ma := l.maskOf d.ma
  mb := l.maskOf d.mb
  md := l.maskOf d.md
  s1 := q.op 0
  s2 := q.op 1

/-- What an entry will write at its end, from what it computed. R127's nw = 1 keeps a result from its vector register; of a
VQNT's scale registers R268 says nothing there, and they are written (DESIGN CHOICE, assumption 101). -/
def VDesc.run (d : VDesc) (o : VOut) : VRun where
  vregs := match d.dst with
    | some (f, _) => if d.wr then (o.vd.zipIdx).map fun (v, k) => (f.toNat + k, BitVec.ofNat 4096 v) else []
    | none => []
  mregs := match d.md, o.mask with
    | some k, some v => [(k.toNat, BitVec.ofNat 1024 v)]
    | _, _ => []
  xregs := o.xs
  stores := []
  push := if d.push then some (BitVec.ofNat 4096 (o.vd.headD 0)) else none
  flags := o.fl
  trap := none

/-- An entry that writes nothing. -/
def VRun.empty : VRun :=
  { vregs := [], mregs := [], xregs := [], stores := [], push := none, flags := 0, trap := none }

/-! ## Accesses -/

/-- The byte at a location as a vector entry of a slot reads it: what an earlier vector entry wrote, or a later write,
where no later store of the task covers it (R262), else as R206 states. -/
def State.vecByte (s : State) (r : SlotRef) (n : Nat) : Byte :=
  let l := s.slotAt r
  if tmem l.pend n && !(l.hidden.any fun h => h.loc == n && h.queue == 0 && h.top) then tget 0 l.pend n
  else s.vis r.core n

/-- What the accesses of an entry come to. -/
inductive VAcc
  | ok (locs : List (Nat × Nat × Nat)) (s : State)
  | trap (c : Cause) (va : Nat) (s : State)
  | park (va entry : Nat)
  | stall (wm : Bool)
  | away (loc unit : Nat)

/-- The mode of a vector entry's access (R262). -/
def vecMode : Mode := { Mode.task with granule := true, unit := 1 }

/-- The checks of the active elements in ascending order (R261): every element, by steps 1 to 7 of R174 (for the forms
checked at issue, steps 1 and 2 hold already). -/
def State.vecAccess (s : State) (r : SlotRef) (k : Access) (n : Nat) : List (Nat × Nat) → VAcc
  | [] => .ok [] s
  | (i, va) :: es =>
    if va % n ≠ 0 then .trap .misaligned va s else
    match s.check r va n k vecMode with
    | .ok loc s1 =>
      (match s1.vecAccess r k n es with
       | .ok ls s2 => .ok ((i, va, loc) :: ls) s2
       | x => x)
    | .trap c => .trap c va s
    | .park entry => .park va entry
    | .stall wm => .stall wm
    | .away loc unit => .away loc unit

/-- The bytes a store entry writes: address, location, byte, and the bits it covers; the two halves of a byte of 4-bit
elements join (R97, R261). -/
def storeCells (t : VType) (val : Nat → Nat) : List (Nat × Nat × Nat) → List (Nat × Nat × Byte × Byte)
  | [] => []
  | (i, va, loc) :: es =>
    if vwidth t = 4 then
      let sh := 4 * (i % 2)
      let b : Byte := BitVec.ofNat 8 (val i * 2 ^ sh)
      let m : Byte := BitVec.ofNat 8 (15 * 2 ^ sh)
      match storeCells t val es with
      | (va2, loc2, b2, m2) :: rest =>
        if loc2 = loc then (va, loc, b ||| b2, m ||| m2) :: rest else (va, loc, b, m) :: (va2, loc2, b2, m2) :: rest
      | [] => [(va, loc, b, m)]
    else
      ((List.range (elemBytes t)).map fun j => (va + j, loc + j, (BitVec.ofNat 8 (val i / 2 ^ (8 * j)) : Byte), (0xFF : Byte)))
        ++ storeCells t val es

/-- A load's result: the elements read, by number (R260). -/
def State.vecLoaded (s : State) (r : SlotRef) (t : VType) (locs : List (Nat × Nat × Nat)) (i : Nat) : Nat :=
  match locs.find? fun e => e.1 == i with
  | some (_, _, loc) =>
    let v := natOfBytes ((List.range (elemBytes t)).map fun j => s.vecByte r (loc + j))
    if vwidth t = 4 then v / 2 ^ (4 * (i % 2)) % 16 else v
  | none => 0

/-! ## Start -/

/-- The trap that a record's entry reports. -/
def QRec.report (q : QRec) (w : Which) (c : Cause) (tval : W64) : PendTrap :=
  { cause := c, tval := tval, word := q.instr.encode, qent := BitVec.ofNat 8 q.idx, orig := w.orig }

/-- The core with what its vector entry will write. -/
def Core.startVec (c : Core) (idx : Nat) (v : VRun) : Core :=
  { c.modRec .vec idx (fun r => { r with st := .running, park := none }) with vrun := some v }

/-- What the accesses of a memory entry come to now (R261). -/
def State.vecReach (s : State) (r : SlotRef) (v : VIn) (k : VMem) : VAcc :=
  s.vecAccess r (if k.store then .write else .read) (elemBytes v.t) (k.elems v.t v.len v.active v.s1 v.s2 v.b)

/-- Whether the oldest entry waits on a watermark (R262, R351). -/
def State.vecHeld (s : State) (g : Nat) : Bool :=
  match (s.core g).vq.recs with
  | q :: _ =>
    (match vdesc q.instr (vcfgType q.vcfg), vmemOf q.instr with
     | some d, some k =>
       (match s.vecReach ⟨g, q.slot⟩ ((s.slotAt ⟨g, q.slot⟩).vecIn q d 0) k with
        | .stall wm => wm
        | _ => false)
     | _, _ => false)
  | [] => false

/-- The start of a memory entry: it goes on when every active element can be accessed; otherwise it waits, parks or
will end with a trap. -/
def State.vecMemStart (s : State) (g : Nat) (q : QRec) (d : VDesc) (k : VMem) : Option State :=
  let r : SlotRef := ⟨g, q.slot⟩
  let (un, s0) := if d.push && d.dst.isNone then s.freeVec r q else (0, s)
  let v := (s.slotAt r).vecIn q d un
  match s0.vecReach r v k with
  | .ok locs s1 =>
    let run : VRun := if k.store then { VRun.empty with stores := storeCells v.t v.d locs }
      else d.run (v.plain fun i => (s1.vecLoaded r v.t locs i, 0))
    some ((s1.modCore g (·.startVec q.idx run)).doneHost r 1)
  | .trap c va s1 =>
    some (s1.modCore g (·.startVec q.idx { VRun.empty with trap := some (q.report .vec c (w64 va)) }))
  | .park va entry => some (s.parkRec g .vec q.idx (w64 va) entry)
  | .stall _ =>
    if q.st = .queued then some (s.modCore g fun c => c.modRec .vec q.idx fun x => { x with st := .running }) else none
  | .away loc unit => s.askOnce r unit loc

/-- The engine starts the oldest entry, or goes on with one that waits; none where nothing can happen (R227, R249,
R348). -/
def State.vecStart (s : State) (g : Nat) : Option State :=
  let c := s.core g
  match c.vq.recs with
  | [] => none
  | q :: _ =>
    let r : SlotRef := ⟨g, q.slot⟩
    if c.vrun.isSome || q.park.isSome || c.saving || c.paused q.uid then none
    else if q.bad then
      let (v, s1) := s.freeAs r 2 q.ord
      some (s1.modCore g (·.startVec q.idx { VRun.empty with trap := some (q.report .vec .uncorrectable v) }))
    else match q.instr with
      | .toksig .. => some (s.modCore g (·.startVec q.idx VRun.empty))
      | .tokwait _ t =>
        if (s.slotAt r).token t = 0 then none else some (s.modCore g (·.startVec q.idx VRun.empty))
      | i =>
        match vdesc i (vcfgType q.vcfg) with
        | none => none
        | some d =>
          match vmemOf i with
          | some k => s.vecMemStart g q d k
          | none =>
            let (un, s1) := if d.push && d.dst.isNone then s.freeVec r q else (0, s)
            (vcompute i ((s.slotAt r).vecIn q d un)).map fun o => s1.modCore g (·.startVec q.idx (d.run o))

/-! ## End -/

/-- The registers and flags of a slot after an entry's end (R127, R249, R123). -/
def Slot.vecWrite (l : Slot) (v : VRun) : Slot :=
  let l1 := v.vregs.foldl (fun l p => l.wv p.1 p.2) l
  let l2 := v.mregs.foldl (fun l p => l.wm p.1 p.2) l1
  let l3 := v.xregs.foldl (fun l p => l.wx (BitVec.ofNat 5 p.1) p.2) l2
  { l3 with
    b := match v.push with
      | some x => Vector.ofFn fun k => if k.val = 0 then x else l3.b.toList.getD (k.val - 1) 0
      | none => l3.b
    fpctl := mergeFlags l3.fpctl v.flags }

/-- The end of the running entry: everything it writes, then the traps it leaves pending; an entry that trapped
writes nothing and takes the slot's later entries with it (R263). A token wait ends when it can take its token
(R227). The half of a byte that a 4-bit store leaves as it was is taken from the newest visible value, not from a store of the
task that is still pending there (DESIGN CHOICE, assumption 101). -/
def State.vecEnd (s : State) (g : Nat) : Option State :=
  let c := s.core g
  match c.vq.recs, c.vrun with
  | q :: _, some v =>
    let r : SlotRef := ⟨g, q.slot⟩
    let s1 := s.modCore g fun c => { c with vq := c.vq.pop, vrun := none }
    let dry := match q.instr with
      | .tokwait _ t => (s.slotAt r).token t == 0
      | _ => false
    if dry then none else
    match v.trap with
    | some t =>
      some ((s1.modCore g fun c => { c with vq := c.vq.keep fun x => x.uid != q.uid }).pendTrap r t)
    | none =>
      let s2 := s1.modSlot r (·.vecWrite v)
      let s3 := s2.engWrite r 0 q.ord (v.stores.map fun (va, loc, b, m) =>
        (va, loc, (s2.vis g loc &&& ~~~m) ||| (b &&& m)))
      let s4 := match q.instr with
        | .toksig _ t => s3.modSlot r (·.tokenUp t)
        | .tokwait _ t => s3.modSlot r (·.tokenDown t)
        | _ => s3
      let en := enabledFlags (s.slotAt r).fpctl v.flags
      some (if en ≠ 0 then s4.pendTrap r (q.report .vec .fp (v.flags.setWidth 64)) else s4)
  | _, _ => none

/-- An engine of a core, by its number, has made progress: its watchdog starts anew (R351). -/
def Core.progress (c : Core) (e : Nat) : Core := { c with wdog := tdel c.wdog e }

/-- A core of the device does what one of its engines, given by its number (R353), can do now, or nothing; while the cluster
stands still, no engine advances and what lands is held (R381, R383, R396). -/
def engineEvent (e : Nat) (f : State → Nat → Option State) (core : Nat) (s : State) : Out :=
  .next (match if s.clusterStopped (clusterOf core) then none else f s core with
    | some s1 => (s1.modCore core (·.progress e)).wakeAll
    | none => s)

/-- VECTOR_ENTRY_START (R249, R348). -/
def execVectorEntryStart (core : Nat) (s : State) : Out := engineEvent 0 State.vecStart core s
/-- VECTOR_ENTRY_END (R249, R263). -/
def execVectorEntryEnd (core : Nat) (s : State) : Out := engineEvent 0 State.vecEnd core s

end Sys2Proof.Machine
end

