-- ==== Sys2Proof/Machine/Copy.lean ====
section
/-! DEFINITION. Class 0x6 (R316 to R343): the copy instructions at issue, the sequencer instructions on watermarks and
rings, and the copy engine: starting, releasing, landing, merging and ending entries. -/

namespace Sys2Proof.Machine

/-! ## The record's checks (R320) -/

/-- The first register of a record (R316). -/
def recBase : RecBase → Nat
  | .x8 => 8
  | .x16 => 16
  | .x24 => 24

/-- The eight captured registers (R316). -/
def State.copyOps (s : State) (r : RecBase) : List W64 :=
  (List.range 8).map fun j => s.rx (BitVec.ofNat 5 (recBase r + j))

/-- The levels whose count is above 1 with their destination stride, the extent below them and their source stride. -/
def copyLevels (k : CopyKind) (o : List W64) : List (Int × Int × Int) :=
  let e1 : Int := copyRowBytes k o
  let e2 := ((cpC1 o : Int) - 1) * cpT1 o + e1
  let e3 := ((cpC2 o : Int) - 1) * cpT2 o + e2
  (if 1 < cpC1 o then [(cpT1 o, e1, cpS1 o)] else []) ++ (if 1 < cpC2 o then [(cpT2 o, e2, cpS2 o)] else []) ++
  (if 1 < cpC3 o then [(cpT3 o, e3, cpS3 o)] else [])

/-- Code 1: a reserved field, TRED, word +7, or a source stride of a fill (R320, R334). -/
def copyBad1 (k : CopyKind) (o : List W64) : Bool :=
  let w7 := o.getD 7 0
  bits (o.getD 2 0) 63 58 != 0 || (cpTred o != 0 && k != .timed) || cpTred o == 3 ||
  (match k with
    | .timed => false
    | .ring => bits w7 63 2 != 0
    | _ => w7 != 0) ||
  bits (o.getD 6 0) 63 52 != 0 || cpHint o == 3 ||
  (k == .fill && (o.getD 3 0 != 0 || bits (o.getD 4 0) 31 0 != 0))
/-- Code 4: misalignment. -/
def copyBad4 (k : CopyKind) (o : List W64) : Bool :=
  (match copyTable k o with | some t => t % 8 != 0 | none => false) ||
  (match copyRed k o with
    | some m =>
      let a : Int := match m with | .acc => 16 | .fp32 => 4
      ([((o.getD 0 0).toNat : Int), ((o.getD 1 0).toNat : Int), (cpL0 o : Int)] ++
        (copyLevels k o).flatMap fun l => [l.1, l.2.2]).any fun v => v % a != 0
    | none => false)

/-- The lowest code of R320 that a record fails. A scatter has no destination strides. -/
def State.copyCheck (s : State) (k : CopyKind) (o : List W64) : Option Nat :=
  let ring := s.here.rings.toList.getD (bits (o.getD 7 0) 1 0) Ring.reset
  let table := (k == .gather || k == .scatter)
  if copyBad1 k o then some 1
  else if cpL0 o = 0 || (table && (1 < cpC2 o || 1 < cpC3 o)) then some 2
  else if k != .scatter && (copyLevels k o).any (fun l => decide (l.1 < l.2.1)) then some 3
  else if copyBad4 k o then some 4
  else if (cpWmen o && (k == .scatter || k == .prefetch)) || (k == .prefetch && o.getD 1 0 != 0) then some 5
  else if k == .ring && (o.getD 1 0 != 0 || ring.nslot == 0 || decide ((ring.slotb.toNat : Int) < copyExtent k o)) then
    some 6
  else if k == .timed && decide (s.steplen ≤ cpCyc o) then some 7
  else none

/-! ## Issue -/

/-- Whether a time {STEP, CYC} is at or before the current time of a core (R338). -/
def State.timeReached (s : State) (g lvl step cyc : Nat) : Bool :=
  let now := s.gstep.toNat % 2 ^ 48
  decide (step < now) || (step == now && decide (cyc ≤ s.scycOf g lvl))

/-- Whether a time {STEP, CYC} is before the current time of a core (R338, R339). -/
def State.timePassed (s : State) (g lvl step cyc : Nat) : Bool :=
  s.timeReached g lvl step cyc && !(step == s.gstep.toNat % 2 ^ 48 && cyc == s.scycOf g lvl)

/-- The time at which a timed copy starts: in D2 a cycle in the slack moves to the next step (R389). -/
def State.cptTime (s : State) (g : Nat) (r : QRec) : Nat × Nat :=
  let slack := (s.queue ((s.core g).context.getD 0)).slack
  if r.det = 2 && decide (s.steplen - slack ≤ cpCyc r.ops) then (cpStep r.ops + 1, 0) else (cpStep r.ops, cpCyc r.ops)

/-- A copy at issue: the checks of R320, the wait for a free record (R141), and for a CPT the check of its time
(R338). -/
def State.copyIssue (s : State) (i : Instr) (k : CopyKind) (b : RecBase) : Out :=
  let word := i.encode
  let o := s.copyOps b
  .next (match s.copyCheck k o with
  | some c => s.trap .copySpec (w64 c) word
  | none =>
    if (s.here.queue .copy).full .copy then s.stallHere
    else if k = .timed && s.timeReached s.cur.core s.level (cpStep o) (cpCyc o) then
      if s.level = 2 then s.trapOpen .timeLate word
      else (s.mapSlot fun l => { l with late := true }).issueTo .copy i o fun r => { r with late := true }
    else s.issueTo .copy i o id)

/-- CP (R331). -/
def execCp (r : RecBase) (s : State) : Out := s.copyIssue (.cp r) .plain r
/-- CPT (R338). -/
def execCpt (r : RecBase) (s : State) : Out := s.copyIssue (.cpt r) .timed r
/-- CPR (R336). -/
def execCpr (r : RecBase) (s : State) : Out := s.copyIssue (.cpr r) .ring r
/-- CPG (R332). -/
def execCpg (r : RecBase) (s : State) : Out := s.copyIssue (.cpg r) .gather r
/-- CPS (R332). -/
def execCps (r : RecBase) (s : State) : Out := s.copyIssue (.cps r) .scatter r
/-- CPF (R334). -/
def execCpf (r : RecBase) (s : State) : Out := s.copyIssue (.cpf r) .fill r
/-- CPRED (R333). -/
def execCpred (r : RecBase) (m : RedMode) (s : State) : Out := s.copyIssue (.cpred r m) (.reduce m) r
/-- CPPF (R335). -/
def execCppf (r : RecBase) (n : Bool) (d : BitVec 3) (s : State) : Out := s.copyIssue (.cppf r n d) .prefetch r

/-! ## Rings (R336, R337) -/

/-- The address of slot k. -/
def Ring.addr (r : Ring) (k : Nat) : W64 := r.base + w64 (k % r.nslot.toNat * r.slotb.toNat)

/-- Whether an entry is a CPR that names a ring and has not finished. -/
def QRec.onRing (q : QRec) (r : Nat) : Bool :=
  copyKindOf q.instr == some .ring && bits (q.op 7) 1 0 == r && q.fin == .no && q.st != .ended

/-- RNGAW (R336). -/
def execRngaw (d : XReg) (r : BitVec 2) (s : State) : Out :=
  let k := s.here.ring r.toNat
  let a := k.addr k.acq
  .next (if k.acq < k.fill then
    let s1 := (s.modCore s.cur.core fun c => c.modRing r.toNat fun k => { k with acq := k.acq + 1 }).mapSlot fun l =>
      l.join fun h => h.queue == 1 && inRange h.addr a.toNat k.slotb.toNat
    (s1.wx d a).retire
  else if k.frozen.contains k.acq then s.trap .wmFrozen a (Instr.rngaw d r).encode
  else s.stallHere)

/-- RNGREL (R336, R341). -/
def execRngrel (r : BitVec 2) (s : State) : Out :=
  let k := s.here.ring r.toNat
  .next (if k.rel < k.acq then
    (s.modCore s.cur.core fun c => c.modRing r.toNat fun k => { k with rel := k.rel + 1 }).retire
  else s.trap .copySpec 8 (Instr.rngrel r).encode)

/-- RNGINIT (R337). -/
def execRnginit (a b : XReg) (r : BitVec 2) (s : State) : Out :=
  let base := s.rx a
  let v := s.rx b
  let sz := bits v 31 0
  let n := bits v 47 32
  .next (if base.toNat % 64 ≠ 0 || sz % 64 ≠ 0 || decide (sz < 64) || decide (1048576 < sz) || n == 0 ||
      bits v 63 48 ≠ 0 then s.trap .copySpec 4 (Instr.rnginit a b r).encode
  else if s.here.cq.recs.any (·.onRing r.toNat) then s.stallHere
  else (s.modCore s.cur.core fun c => c.modRing r.toNat fun _ =>
    { Ring.reset with base := base, slotb := BitVec.ofNat 32 sz, nslot := BitVec.ofNat 16 n }).retire)

/-! ## Finishing -/

/-- A watermark register of a core. -/
def Core.wm (c : Core) (k : Nat) : Wm := c.wms.toList.getD k Wm.reset

/-- An entry finishes (R327): its watermark takes its last state and its ring slot is filled or frozen (R336). -/
def Core.finishCopy (c : Core) (q : QRec) (f : Finish) : Core :=
  let st := match f with | .frozen => 3 | .cancelled => 4 | _ => 2
  let c1 := if q.holdsWm then c.modWm (cpWmi q.ops) fun w =>
      { w.setState st with wm := if f = .done then w.hi else w.wm } else c
  let c2 := if f = .frozen then c1.freezeSlot q else c1.fillSlot q
  c2.modRec .copy q.idx fun x => { x with fin := f, park := none }

/-- CPX (R341). -/
def execCpx (n : BitVec 3) (s : State) : Out :=
  let c := s.here
  .next ((match c.cq.recs.find? fun (q : QRec) => q.holdsWm && cpWmi q.ops == n.toNat with
  | some q => if (c.wm n.toNat).state = 1 then s.modCore s.cur.core (·.finishCopy q .cancelled) else s
  | none => s).retire)

/-- WMRD (R341). -/
def execWmrd (d e : XReg) (range : Bool) (n : BitVec 3) (s : State) : Out :=
  let w := s.here.wm n.toNat
  .next (((s.wx d (if range then w.lo else w.wm)).wx e (if range then w.hi else w.stat)).retire)

/-- CPQ (R341). -/
def execCpq (d : XReg) (s : State) : Out :=
  let q := s.here.cq
  let v := (q.mine s.slot.uid).length % 256 + (Config.copyRecords - q.recs.length) * 256 +
    (q.recs.filter fun r => r.st == .held).length * 2 ^ 16 + b2n s.slot.late * 2 ^ 22
  .next (((s.mapSlot fun l => { l with late := false }).wx d (w64 v)).retire)

/-! ## Accesses of the copy engine -/

/-- The mode of an entry's source reads and of its landing (R77, R325, R331). -/
def QRec.srcMode (q : QRec) : Mode :=
  { late := true, wide := true, granule := false, cpt := copyKindOf q.instr == some .timed, skipWm := false,
    ownWm := if q.holdsWm then some (cpWmi q.ops) else none, guards := false, unit := 2 }
def QRec.dstMode (q : QRec) : Mode := { q.srcMode with skipWm := true }

/-- A span of addresses cut at 64-byte boundaries (R203), modulo 2^64. -/
def spanPieces : Nat → Nat → Nat → List (Nat × Nat)
  | 0, _, _ => []
  | fuel + 1, a, n =>
    if n = 0 then [] else
    let k := Nat.min n (64 - a % 64)
    (a % 2 ^ 64, k) :: spanPieces fuel (a + k) (n - k)

/-- What the accesses of a part of a copy come to: the bytes' addresses and locations in order. -/
inductive CAcc
  | ok (bytes : List (Nat × Nat)) (s : State)
  | trap (c : Cause) (va : Nat) (s : State)
  | park (va entry : Nat)
  | stall (wm : Bool)
  | away (loc unit : Nat)

/-- The checks of a span, granule by granule (R174, R326). -/
def State.copyAccess (s : State) (r : SlotRef) (k : Access) (m : Mode) : List (Nat × Nat) → CAcc
  | [] => .ok [] s
  | (va, n) :: ps =>
    match s.check r va n k m with
    | .ok loc s1 =>
      (match s1.copyAccess r k m ps with
       | .ok bs s2 => .ok (((List.range n).map fun j => (va + j, loc + j)) ++ bs) s2
       | x => x)
    | .trap c => .trap c va s
    | .park entry => .park va entry
    | .stall wm => .stall wm
    | .away loc unit => .away loc unit

/-- The checks of a span given by its start and length. -/
def State.copySpan (s : State) (r : SlotRef) (k : Access) (m : Mode) (a : Int) (n : Nat) : CAcc :=
  s.copyAccess r k m (spanPieces (n / 64 + 2) (wrapTo 64 a) n)

/-- What part of an entry's landing comes to. -/
inductive CStep
  | go (s : State)
  | trap (c : Cause) (va : Nat) (s : State)
  | park (va entry : Nat)
  | stall (wm : Bool)
  | away (loc unit : Nat)

/-- Whether a step waits on a watermark (R351). -/
def CStep.waits : CStep → Bool
  | .stall wm => wm
  | _ => false

/-- A span accessed for a step: it goes on with the bytes, or is what the access came to. -/
def CAcc.andThen (x : CAcc) (f : List (Nat × Nat) → State → CStep) : CStep :=
  match x with
  | .ok bs s => f bs s
  | .trap c va s => .trap c va s
  | .park va entry => .park va entry
  | .stall wm => .stall wm
  | .away loc unit => .away loc unit

/-- The index-table offset of row j (R332), read as a source; 0 for the other kinds. -/
def State.rowOffset (s : State) (r : SlotRef) (q : QRec) (k : CopyKind) (j : Nat) (f : Int → State → CStep) : CStep :=
  match copyTable k q.ops with
  | none => f 0 s
  | some t => (s.copySpan r .read q.srcMode ((t + 8 * j : Nat) : Int) 8).andThen fun bs s1 =>
    f (signedOf 64 (natOfBytes (bs.map fun b => s1.engByte r b.2))) s1

/-! ## Overlaps (R325) -/

/-- The offset of row j as its index table now gives it, for comparing footprints. -/
def State.seenOffset (s : State) (r : SlotRef) (q : QRec) (k : CopyKind) (j : Nat) : Int :=
  match copyTable k q.ops with
  | none => 0
  | some t =>
    match s.copySpan r .read q.srcMode ((t + 8 * j : Nat) : Int) 8 with
    | .ok bs s1 => signedOf 64 (natOfBytes (bs.map fun b => s1.engByte r b.2))
    | _ => 0

/-- The destination rows of an entry as intervals, from a row on; the first one from an offset on (R319). -/
def State.destRows (s : State) (g : Nat) (q : QRec) (from_ off : Nat) : List (Int × Int) :=
  match copyKindOf q.instr with
  | none | some .prefetch => []
  | some k =>
    let n := copyRowBytes k q.ops
    (List.range (copyRows k q.ops - from_)).map fun i =>
      let j := from_ + i
      let a := copyDst k q.ops q.dst j + (if k = .scatter then s.seenOffset ⟨g, q.slot⟩ q k j else 0)
      let b : Int := ownVa g (wrapTo 64 a)
      (if i = 0 then b + off else b, b + n)

/-- Whether an earlier entry holds the landing of bytes [lo, hi) of a later one (R325): it has not yet passed the end
of their overlap. -/
def overlapHolds (early left late : List (Int × Int)) (lo hi : Int) : Bool :=
  let end_ := early.foldl (fun acc e => late.foldl (fun acc x =>
    if e.1 < x.2 ∧ x.1 < e.2 then max acc (min e.2 x.2) else acc) acc) lo
  early.any (fun e => decide (e.1 < hi ∧ lo < e.2)) && left.any fun e => decide (e.1 < end_)

/-- Whether an earlier-started entry of the core still holds the landing of a part of an entry. -/
def State.landingHeld (s : State) (g : Nat) (q : QRec) (a : Int) (n : Nat) : Bool :=
  let b : Int := ownVa g (wrapTo 64 a)
  let mine := s.destRows g q 0 0
  (s.core g).cq.recs.any fun e =>
    e.idx != q.idx && e.started && e.fin == .no && decide (e.order < q.order) &&
    overlapHolds (s.destRows g e 0 0) (s.destRows g e e.row e.off) mine b (b + n)

/-! ## Landing -/

/-- How many bytes of a row land at once, from the position of an entry, whose destination is given: what is left of the
row, or up to its next 4 KiB (R323), and then to the end of the granule that the cut would divide (R203). The flag plane of
an ACC128 row lands with the last part of its A plane. -/
def QRec.chunk (q : QRec) (k : CopyKind) (dst : Int) : Nat :=
  let rb := copyRowBytes k q.ops
  let next := 4096 * (q.off / 4096 + 1)
  if copyRed k q.ops = some .acc then
    if next < cpL0 q.ops then next - q.off else rb - q.off
  else
    let a := wrapTo 64 dst
    Nat.min (cdiv (a + (next - q.off)) 64 * 64 - a) (rb - q.off)

/-- How many bytes of a row are read for a part of n bytes, from the source address of the part: to the end of the granule
that the part ends in, which is read whole (R203), but for the bytes kept from the granule before. -/
def QRec.wanted (q : QRec) (k : CopyKind) (src : Int) (n : Nat) : Nat :=
  let a := wrapTo 64 src
  Nat.min (cdiv (a + n) 64 * 64 - a) (copyRowBytes k q.ops - q.off) - q.carry.length

/-- The entry after its next part of n bytes has landed: position, mark at each further 4 KiB and at the end (R323,
R329). -/
def QRec.landed (q : QRec) (k : CopyKind) (n : Nat) : QRec :=
  let rb := copyRowBytes k q.ops
  let off := q.off + n
  let (row, off) := if rb ≤ off then (q.row + 1, 0) else (q.row, off)
  let before := q.row * rb + q.off
  let after := row * rb + off
  if copyRows k q.ops ≤ row || before / 4096 ≠ after / 4096 then
    { q with row := row, off := off, mrow := row, moff := off }
  else { q with row := row, off := off }

/-- The watermark at an entry's landing position: upwards only, HI when every row has landed (R323). -/
def Core.moveWm (c : Core) (q : QRec) (k : CopyKind) : Core :=
  if !q.holdsWm then c else
  c.modWm (cpWmi q.ops) fun w =>
    if copyRows k q.ops ≤ q.row then { w with wm := w.hi }
    else
      let p := wrapTo 64 (copyDst k q.ops q.dst q.row + q.off)
      if wrapTo 64 ((w.wm.toNat : Int) - w.lo.toNat) ≤ wrapTo 64 ((p : Int) - w.lo.toNat) then { w with wm := w64 p } else w

/-- The landing position moves past the part that has landed, and the entry finishes with its last row (R323, R327). -/
def State.copyAdvance (s : State) (g : Nat) (q : QRec) (k : CopyKind) (n : Nat) : State :=
  let q1 := q.landed k n
  let c := ((s.core g).modRec .copy q.idx fun _ => { q1 with park := none }).moveWm q1 k
  s.setCore g (if copyRows k q.ops ≤ q1.row then c.finishCopy q1 .done else c)

/-- The bytes a part writes, but for those below the watermark, which have landed before a reset (R329). -/
def Core.freshBytes (c : Core) (q : QRec) (cells : List (Nat × Nat × Byte)) : List (Nat × Nat × Byte) :=
  if !q.holdsWm then cells else
  let w := c.wm (cpWmi q.ops)
  cells.filter fun x => decide (wrapTo 64 ((w.wm.toNat : Int) - w.lo.toNat) ≤ wrapTo 64 ((x.1 : Int) - w.lo.toNat))

/-- The landing of the next part of an entry that is no reduction (R319, R331, R332, R334). -/
def State.landPlain (s : State) (g : Nat) (q : QRec) (k : CopyKind) : CStep :=
  let r : SlotRef := ⟨g, q.slot⟩
  s.rowOffset r q k q.row fun off s0 =>
    let src := copySrc k q.ops q.row + (if k = .gather then off else 0) + q.off
    let dst := copyDst k q.ops q.dst q.row + (if k = .scatter then off else 0) + q.off
    let n := q.chunk k dst
    if s0.landingHeld g q dst n then .stall true else
    let write := fun (data : Nat → Nat → Byte) (left : List Byte) (s1 : State) =>
      (s1.copySpan r .write q.dstMode dst n).andThen fun bs s2 =>
        let cells := (bs.zipIdx).map fun ((va, loc), j) => (va, loc, data va j)
        .go ((s2.engWrite r 1 q.ord ((s2.core g).freshBytes q cells)).copyAdvance g { q with carry := left } k n)
    if k = .fill then
      write (fun va _ => BitVec.ofNat 8 ((q.op 0).toNat / 2 ^ (8 * (va % 8)))) [] s0
    else
      (s0.copySpan r .read q.srcMode (src + q.carry.length) (q.wanted k src n)).andThen fun bs s1 =>
        let data := q.carry ++ bs.map fun b => s1.engByte r b.2
        write (fun _ j => data.getD j 0) (data.drop n) s1

/-! ## Reductions (R330, R333) -/

/-- Elements of a row of a reduction, and the elements merged once a landing position is reached. -/
def QRec.redElems (q : QRec) (m : RedMode) : Nat := cpL0 q.ops / (match m with | .acc => 16 | .fp32 => 4)
/-- How many bytes of a reduction's row its next part has. -/
def QRec.redPart (q : QRec) (k : CopyKind) : Nat := q.chunk k (copyDst k q.ops q.dst q.row + q.off)
/-- How many elements of the entry lie before the end of its next part. -/
def QRec.redTarget (q : QRec) (k : CopyKind) (m : RedMode) : Nat :=
  let end_ := q.off + q.redPart k
  q.row * q.redElems m +
    (if copyRowBytes k q.ops ≤ end_ then q.redElems m else end_ / (match m with | .acc => 16 | .fp32 => 4))

/-- The merged value of one element at its home (R115, R333): its bytes. -/
def mergeElem (m : RedMode) (src dst : List Byte) : List Byte :=
  match m with
  | .fp32 =>
    let f := fmtOf .f32
    let r := Num.add .rne (f.read false (natOfBytes dst)) (f.read false (natOfBytes src))
    bytesLE 4 (f.write .rne false r.1).1
  | .acc =>
    let acc := fun (bs : List Byte) => Acc.ofPlanes (natOfBytes (bs.take 16)) (natOfBytes (bs.drop 16))
    let x := (acc dst).merge (acc src)
    bytesLE 16 x.plane ++ bytesLE 2 x.side

/-- Where the bytes of element e of a row lie, from the row's start: an ACC128 element has its flags in the row's flag
plane (R333). -/
def QRec.elemParts (q : QRec) (m : RedMode) (e : Nat) : List (Nat × Nat) :=
  match m with
  | .acc => [(16 * e, 16), (cpL0 q.ops + 2 * e, 2)]
  | .fp32 => [(4 * e, 4)]

/-- An element whose home is host memory, on a device that does not bridge: it goes to the bridging device, which merges it
(R210, R211, R409). The device's picture of the window follows. -/
def State.mergeAway (s : State) (r : SlotRef) (q : QRec) (m : RedMode) (cells : List (Nat × Byte)) (element : List Byte) : State :=
  let s1 := s.land cells s.overlay
  let op : HostAtomic := .merge m (cells.map fun c => c.1 - 0x8000000000000) element
  let body : FlitBody := .hostAtomic s.devid (some ((s.stampOf (s.slotAt r).launch).1, q.gen)) s.hostTag 0 cells.length op
  { s1 with hostTag := s.hostTag + 1, outbox := s.outbox ++ [{ dest := s.hostDev, body := body }] }

/-- The next element of a reduction merges at its home, once (R330, R333): after what the task has published, and after what
its own earlier copies have landed there (R201). The atomic is visible to every agent at once (R210). -/
def State.mergeNext (s : State) (g : Nat) (q : QRec) (k : CopyKind) (m : RedMode) : CStep :=
  let r : SlotRef := ⟨g, q.slot⟩
  let j := q.merged / q.redElems m
  let e := q.merged % q.redElems m
  let src := copySrc k q.ops j
  let dst := copyDst k q.ops q.dst j
  let parts := fun (a : Int) => (q.elemParts m e).flatMap fun p => spanPieces 2 (wrapTo 64 (a + p.1)) p.2
  if (q.elemParts m e).any fun p => s.landingHeld g q (dst + p.1) p.2 then .stall true else
  (s.copyAccess r .read q.srcMode (parts src)).andThen fun sb s1 =>
    (s1.copyAccess r .both q.dstMode (parts dst)).andThen fun db s2 =>
      let s3 := s2.flushBy fun o => o.uid == q.uid && (o.eng.isNone || db.any fun b => b.2 == o.loc)
      let old := db.map fun b => s3.mem.get b.2
      let new := mergeElem m (sb.map fun b => s2.engByte r b.2) old
      let cells := (db.zip new).map fun (x, b) => (x.2, b)
      let s4 := if !s.bridge && cells.all (fun c => hostLoc c.1) then s3.mergeAway r q m cells (sb.map fun b => s2.engByte r b.2)
        else s3.land cells s3.overlay
      let s5 := if (s4.slotAt r).uid = q.uid then s4.rereadBy r fun n => cells.any fun c => c.1 / 64 == n else s4
      .go (s5.modCore g fun c =>
        c.modRec .copy q.idx fun x => { x with merged := x.merged + 1, park := none })

/-! ## The engine's steps -/

/-- The entries of a slot behind one that stopped, oldest first. -/
def EngQ.behind (e : EngQ) (q : QRec) : List QRec :=
  ((e.recs.dropWhile fun x => x.idx != q.idx).drop 1).filter fun x => x.uid == q.uid && x.st != .ended

/-- A core without the entries of a slot behind one that stopped (R263, R326). One that lands already lands nothing more and
does not signal: its watermark is cancelled and its ring slot filled (assumption 41). -/
def Core.dropBehind (c : Core) (q : QRec) : Core :=
  let gone := c.cq.behind q
  let c1 := (gone.filter fun x => x.st == .running && x.started && x.fin == .no).foldl (fun c x => c.finishCopy x .cancelled) c
  { c1 with cq := c1.cq.keep fun x => !(gone.any fun y => y.idx == x.idx) }

/-- Where a reduction stands: its position is that of the first element that has not merged (R326, R330). -/
def QRec.atElement (q : QRec) : QRec :=
  match (copyKindOf q.instr).bind fun k => copyRed k q.ops with
  | some m =>
    if q.row * q.redElems m ≤ q.merged then
      { q with row := q.merged / q.redElems m, off := q.merged % q.redElems m * (match m with | .acc => 16 | .fp32 => 4) }
    else q
  | none => q

/-- A trap met by an entry freezes it, its watermark at the first byte that has not landed (R326). POOL_PIN, which R65 words
for a precise trap, is met by an engine's access too and is taken as the others are (DESIGN CHOICE, assumption 89). -/
def State.freezeCopy (s : State) (g : Nat) (q : QRec) (c : Cause) (tval : W64) : State :=
  let q1 := q.atElement
  let s1 := s.modCore g fun x =>
    (((match copyKindOf q.instr with
      | some k => x.moveWm q1 k
      | none => x).modRec .copy q.idx fun z => { z with row := q1.row, off := q1.off }).finishCopy q1 .frozen).dropBehind q
  s1.pendTrap ⟨g, q.slot⟩ { q.report .copy c tval with freeze := true }

/-- A core without a copy entry and the entries of its slot behind it: it lands nothing more and does not signal (R263,
R348). One that has started leaves its watermark cancelled and its ring slot filled. -/
def Core.removeCopy (c : Core) (q : QRec) : Core :=
  let x := if q.started && q.fin == .no then c.finishCopy q .cancelled else c
  let y := x.dropBehind q
  { y with cq := y.cq.keep fun z => z.idx != q.idx }

/-- An entry that a trap ends by R263's rule or R348's. -/
def State.stopCopy (s : State) (g : Nat) (q : QRec) (c : Cause) (tval : W64) : State :=
  (s.modCore g (·.removeCopy q)).pendTrap ⟨g, q.slot⟩ (q.report .copy c tval)

/-- A record that an uncorrectable error has spoiled ends its task (R348); the TVAL of such a trap is open (assumption 2). -/
def State.badCopy (s : State) (g : Nat) (q : QRec) : State :=
  let (v, s1) := s.freeAs ⟨g, q.slot⟩ 3 q.ord
  s1.stopCopy g q .uncorrectable v

/-- A step of an entry, applied to the state; none where it stalls. -/
def State.copyStep (s : State) (g : Nat) (q : QRec) (x : CStep) : Option State :=
  match x with
  | .go s1 => some (s1.doneHost ⟨g, q.slot⟩ 2)
  | .trap c va s1 => some (s1.freezeCopy g q c (w64 va))
  | .park va entry => some (s.parkRec g .copy q.idx (w64 va) entry)
  | .stall _ => none
  | .away loc unit => s.askOnce ⟨g, q.slot⟩ unit loc

/-- Whether an entry is landing. -/
def QRec.landing (q : QRec) : Bool := q.st == .running && q.started && q.fin == .no && q.park.isNone

/-- The next part of the entry in a record lands (R323); a reduction's part once its elements have merged. -/
def State.copyLand (s : State) (g idx : Nat) : Option State :=
  let c := s.core g
  match c.cq.recs.find? fun q => q.idx == idx && q.landing with
  | none => none
  | some q =>
    if c.saving || c.paused q.uid then none
    else if q.bad then some (s.badCopy g q)
    else match copyKindOf q.instr with
    | none | some .prefetch => none
    | some k =>
      match copyRed k q.ops with
      | none => s.copyStep g q (s.landPlain g q k)
      | some m => if q.redTarget k m ≤ q.merged then some (s.copyAdvance g q k (q.redPart k)) else none

/-- The next merge of the core's oldest reduction that has one to make (R333). -/
def State.copyMerge (s : State) (g : Nat) : Option State :=
  let c := s.core g
  if c.saving then none else
  c.cq.recs.findSome? fun q =>
    match q.landing && !q.bad && !(c.paused q.uid), copyKindOf q.instr with
    | true, some k =>
      (match copyRed k q.ops with
       | some m => if q.merged < q.redTarget k m then s.copyStep g q (s.mergeNext g q k m) else none
       | none => none)
    | _, _ => none

/-- Whether a running entry waits on a watermark, on a landing before it, on a park or on a token (R351). A token signal waits
for the entries before it, which are counted for themselves. -/
def State.copyHeld (s : State) (g : Nat) (q : QRec) : Bool :=
  q.park.isSome ||
  match q.instr, copyKindOf q.instr with
  | .tokwait _ t, _ => (s.slotAt ⟨g, q.slot⟩).token t == 0
  | .toksig .., _ => ((s.core g).cq.recs.takeWhile fun x => x.idx != q.idx).any fun x => x.st != .ended
  | _, some k =>
    (match copyRed k q.ops with
     | none => (s.landPlain g q k).waits
     | some m => decide (q.merged < q.redTarget k m) && (s.mergeNext g q k m).waits)
  | _, none => false

/-- Whether another copy may start: one at a time in D2, up to four in D0 and D1 (R342), and the watermark register
is not landing for an earlier entry (R322). -/
def Core.copyRoom (c : Core) (q : QRec) : Bool :=
  let run := c.cq.recs.filter fun x => x.st == .running && (copyKindOf x.instr).isSome && x.fin == .no
  (if q.det = 2 then run.isEmpty else decide (run.length < 4)) &&
  !(cpWmen q.ops && run.any fun x => x.holdsWm && cpWmi x.ops == cpWmi q.ops)

/-- The start of a copy: the destination, the ring slot, the watermark register (R322, R336); a CPPF has nothing to
land. -/
def Core.startCopy (c : Core) (q : QRec) (k : CopyKind) : Core :=
  let order := c.cq.recs.foldl (fun a x => Nat.max a x.order) 0 + 1
  let ring := c.ring (bits (q.op 7) 1 0)
  let dst := if k = .ring then ring.addr ring.alloc else q.op 1
  let q1 := { q with st := .running, started := true, dst := dst, order := order, rslot := ring.alloc,
                     fin := if k = .prefetch then .done else .no }
  let c1 := c.modRec .copy q.idx fun _ => q1
  let c2 := if k = .ring then c1.modRing (bits (q.op 7) 1 0) fun r => { r with alloc := r.alloc + 1 } else c1
  if cpWmen q.ops then
    c2.modWm (cpWmi q.ops) fun _ =>
      { lo := dst, hi := dst + w64 (wrapTo 64 (copyExtent k q.ops)), wm := dst,
        stat := w64 (b2n (copyRed k q.ops).isSome * 2 ^ 16 + cpTag q.ops * 256 + q.slot.val * 16 + b2n q.late * 8 + 1)
        owner := (q.uid, q.ord) }
  else c2

/-- A timed copy that is late where it reaches the buffer or its time: TIME_LATE in D2, LATE otherwise (R338). -/
def State.lateCopy (s : State) (g : Nat) (q : QRec) : State :=
  if q.det = 2 then
    let (v, s1) := s.freeAs ⟨g, q.slot⟩ 3 q.ord
    s1.stopCopy g q .timeLate v
  else (s.modSlot ⟨g, q.slot⟩ fun l => { l with late := true }).modCore g fun c =>
    c.modRec .copy q.idx fun x => { x with late := true, st := .held }

/-- The engine takes the oldest queued entry (R227, R322, R336, R338, R348); none where it must wait. -/
def State.copyStart (s : State) (g : Nat) : Option State :=
  let c := s.core g
  if c.saving then none else
  match c.cq.recs.find? fun q => q.st == .queued with
  | none => none
  | some q =>
    let blocked := c.paused q.uid || c.cq.recs.any fun x => x.st == .running && (match x.instr with | .tokwait .. => true | _ => false)
    if blocked then none
    else if q.bad then some (s.badCopy g q)
    else match copyKindOf q.instr with
      | none => some (s.modCore g fun c => c.modRec .copy q.idx fun x => { x with st := .running })
      | some .timed =>
        if 32 ≤ (c.cq.recs.filter fun x => x.st == .held).length then none
        else
          let (step, cyc) := s.cptTime g q
          if !q.late && s.timePassed g q.det.toNat step cyc then some (s.lateCopy g q)
          else some (s.modCore g fun c => c.modRec .copy q.idx fun x => { x with st := .held })
      | some k =>
        let ring := c.ring (bits (q.op 7) 1 0)
        if !(c.copyRoom q) || (k == .ring && decide (ring.nslot.toNat ≤ ring.alloc - ring.rel)) then none
        else some (s.modCore g fun c => c.startCopy q k)

/-- The order of the time-sorted buffer (R338). -/
def cptBefore (a b : (Nat × Nat) × QRec) : Bool :=
  decide (a.1.1 < b.1.1) || (a.1.1 == b.1.1 && decide (a.1.2 < b.1.2))

/-- A held copy whose time came before the barrier of its superstep: it does not start, and SCHED_BREAK with reason 6
becomes pending, as one event of that cause (R389, R392, R434). -/
def State.breakCopy (s : State) (g : Nat) (q : QRec) : State :=
  (s.modCore g (·.removeCopy q)).modSlot ⟨g, q.slot⟩ fun l =>
    if l.evTraps.any fun x => x.cause == .schedBreak then l
    else { l with evTraps := l.evTraps ++ [q.report .copy .schedBreak 6], stalled := false }

/-- Whether the barrier of the superstep of an entry's task has passed before a step (R389). -/
def State.barrierBy (s : State) (g : Nat) (q : QRec) (step : Nat) : Bool :=
  match (s.launchOf ⟨g, q.slot⟩).barrier with
  | some b => decide (b % 2 ^ 48 ≤ step)
  | none => false

/-- The first held copy whose time has come starts when the engine is free (R338), if the barrier of its superstep had
passed when it came (R389). -/
def State.cptStart (s : State) (g : Nat) : Option State :=
  let c := s.core g
  if c.saving then none else
  let held := (c.cq.recs.filter fun x => x.st == .held).map fun q => (s.cptTime g q, q)
  let first := held.foldl (fun acc x => match acc with
    | none => some x
    | some y => if cptBefore x y then some x else some y) none
  match first with
  | none => none
  | some ((step, cyc), q) =>
    if !(s.timeReached g q.det.toNat step cyc) then none
    else if c.paused q.uid then none
    else if q.bad then some (s.badCopy g q)
    else if q.det = 2 && !(s.barrierBy g q step) then some (s.breakCopy g q)
    else if !(c.copyRoom q) then none
    else some (s.modCore g fun c => c.startCopy q .timed)

/-! ## The end of an entry (R327) -/

/-- The completion signal of an entry: its writes are published at the semaphore's scope, and the semaphore's home gets
SEM.SIG's update of 1 (R208, R231, R327); a name that fails R213 is fatal. -/
def State.copySignal (s : State) (g : Nat) (q : QRec) : State :=
  let r : SlotRef := ⟨g, q.slot⟩
  let name := cpSem q.ops
  let ctx := (s.core g).context.getD 0
  match s.semCheckFor ctx q.det.toNat name with
  | some c =>
    if (s.slotAt r).occ && (s.slotAt r).uid == q.uid then s.pendTrap r (q.report .copy c name) else s
  | none =>
    let own := fun (o : Over) => o.uid == q.uid && o.eng == some (1, q.ord)
    let n := ((s.overlay.filter own).map fun o => o.loc / 64).eraseDups.length
    let s1 := (s.flushBy own).modSlot r fun l =>
      if l.occ && l.uid == q.uid then { l with hidden := l.hidden.filter fun h => !(h.queue == 1 && h.ord == q.ord) } else l
    if semDev name = s.devid then
      s1.postSem (semDie name)
        { index := semIndex name, kind := .sig 1, core := g, slot := q.slot, uid := q.uid, queue := ctx, gen := q.gen,
          dev := s.devid, due := s.refclk + 96 + cdiv n 4 + 1 + wayCycles g (semDie name) }
    else
      { s1 with outbox := s1.outbox ++
          [{ dest := semDev name, body := .semUpdate name 1 0 0 0 s.devid g q.slot.val q.uid ctx q.gen }] }

/-- The address at which a frozen entry stopped: its watermark, or its landing position without one (R228). -/
def Core.frozenAt (c : Core) (q : QRec) : W64 :=
  match copyKindOf q.instr with
  | some k => if cpWmen q.ops then (c.wm (cpWmi q.ops)).wm else w64 (wrapTo 64 (copyDst k q.ops q.dst q.row + q.off))
  | none => 0

/-- The end of the entry in a record (R227, R327): a copy that has finished, when every earlier copy entry of its slot
has ended; a token signal, when every earlier entry of the queue has; a token wait, when it can take its token. -/
def State.copyEnd (s : State) (g idx : Nat) : Option State :=
  let c := s.core g
  match c.cq.recs.find? fun q => q.idx == idx && q.st == .running with
  | none => none
  | some q =>
    let r : SlotRef := ⟨g, q.slot⟩
    let before := c.cq.recs.takeWhile fun x => x.idx != idx
    let s1 := s.modCore g fun c => { c with cq := c.cq.endRec idx }
    let mine := (s.slotAt r).occ && (s.slotAt r).uid == q.uid
    if q.bad then some (s.badCopy g q)
    else match q.instr with
    | .toksig _ t => if before.isEmpty then some (s1.modSlot r (·.tokenUp t)) else none
    | .tokwait _ t => if (s.slotAt r).token t = 0 then none else some (s1.modSlot r (·.tokenDown t))
    | _ =>
      if q.fin = .no || before.any (fun x => x.uid == q.uid && x.st != .ended) then none
      else
        let s2 := if mine ∧ q.fin = .frozen then
            s1.modSlot r fun l => { l with frozen := l.frozen ++ [(q.ord, c.frozenAt q)] } else s1
        some (if cpSemen q.ops then s2.copySignal g q else s2)

/-- COPY_ENTRY_START (R322). -/
def execCopyEntryStart (core : Nat) (s : State) : Out := engineEvent 1 State.copyStart core s
/-- CPT_RELEASE (R338, R389). -/
def execCptRelease (core : Nat) (s : State) : Out := engineEvent 1 State.cptStart core s
/-- COPY_ROW_LANDED (R319, R323, R326). -/
def execCopyRowLanded (core entry : Nat) (s : State) : Out := engineEvent 1 (fun s g => s.copyLand g entry) core s
/-- REDUCTION_MERGE (R330, R333). -/
def execReductionMerge (core : Nat) (s : State) : Out := engineEvent 1 State.copyMerge core s
/-- COPY_ENTRY_END (R327). -/
def execCopyEntryEnd (core entry : Nat) (s : State) : Out := engineEvent 1 (fun s g => s.copyEnd g entry) core s

end Sys2Proof.Machine
end

