-- ==== Sys2Proof/Machine/Homes.lean ====
section
/-! DEFINITION. What homes do with the operations that reach them: semaphores and arms (R51, R214 to R219), gangs (R55,
R56, R221, R222) and memory atomics (R210, R211). -/

namespace Sys2Proof.Machine

/-- Something that happens in the device: the state it leads to, where it can happen; otherwise nothing. What has
happened may let a stalled slot go on. -/
def occurs (x : Option State) (s : State) : Out :=
  .next (match x with
    | some t => t.wakeAll
    | none => s)

/-- A slot of a core by number. -/
def slotRef (core slot : Nat) : SlotRef := ⟨core, Fin.ofNat 4 slot⟩

/-! ## Semaphores -/

/-- The value of a semaphore; every one is 0 after package reset (R212). -/
def Die.sem (d : Die) (i : Nat) : W64 := tget 0 d.sems i
/-- A die with the value of a semaphore replaced. -/
def Die.setSem (d : Die) (i : Nat) (v : W64) : Die := { d with sems := tset d.sems i v }

/-- SEM.SIG's update: unsigned and saturating (R216). -/
def semSum (v a : W64) : W64 := w64 (Nat.min (v.toNat + a.toNat) (2 ^ 64 - 1))
/-- SEM.ADD's update: the addend is signed, the value is kept in range (R218). -/
def semClamp (v a : W64) : W64 :=
  let i : Int := (v.toNat : Int) + a.toInt
  w64 (if i < 0 then 0 else if 2 ^ 64 ≤ i then 2 ^ 64 - 1 else i.toNat)

/-- The value of a semaphore after an operation that the home applies at once (R216, R218). -/
def semAfter (k : SemKind) (v : W64) : W64 :=
  match k with
  | .sig a => semSum v a
  | .add a => semClamp v a
  | .set a => a
  | _ => v

/-- The fields that a successful arm writes into its TCB (R50, R219). -/
def State.writeArm (s : State) (n i : Nat) (name threshold : W64) : State :=
  let l := s.launch n
  s.fwWrite (s.queue l.queue).troot (l.tcbs.toNat + 64 * i + 0x20) 24 (name.toNat + threshold.toNat * 2 ^ 64 + 2 ^ 128)

/-- A packet of a queue has been acted on: the next one is read (R415). -/
def State.consume (s : State) (q : Nat) : State :=
  (s.modQueue q fun u => { u with head := u.head + 1 }).syncQueue q

/-- The condition of a WAIT packet has been met (R415): the semaphore bit of the queue's core is set (R423). A packet's operation names its queue in place of a core and has
no task. -/
def State.packetAnswer (s : State) (q : Nat) : State :=
  if (s.queue q).waiting then ((s.modQueue q fun u => { u with waiting := false }).consume q).ring q 2 else s

/-- The answer to a semaphore operation is on its way to its slot, which it reaches a number of cycles from now (R231), in
cycles of the slot's cluster (R381): the operation's value (R218, R219), or that of a SEM.WAIT whose condition has been met
(R217). The answer of another device to an arm is written into the TCB here. An answer that nothing waits for changes
nothing. -/
def State.answerSem (s : State) (r : SlotRef) (uid : Nat) (v : W64) (way : Nat) : State :=
  let l := s.slotAt r
  if uid = 0 then s.packetAnswer r.core else
  if !l.occ || l.uid ≠ uid then s else
  match l.wait with
  | .sem d false => s.modSlot r fun l => { l with wait := .semDone d v false (s.refclk + way + l.lag) }
  | .sem d true => s.modSlot r fun l => { l with wait := .semDone d v true (s.refclk + way), away := none, cancelled := false }
  | .arm d i name t =>
    let s1 := if v = 0 then (s.writeArm l.launch i name t).modLaunch l.launch fun x => { x with remoteArms := x.remoteArms + 1 }
      else s
    s1.modSlot r fun l => { l with wait := .semDone d v false (s.refclk + way) }
  | .withdrawn => s.modSlot r fun l => { l with wait := .run }
  | _ => s

/-- An answer leaves the home on a die for the slot that asked, here or on another device (R231). -/
def State.sendAnswer (s : State) (d : Nat) (dev : BitVec 20) (core : Nat) (slot : Fin 4) (uid : Nat) (v : W64) : State :=
  if dev = s.devid then s.answerSem ⟨core, slot⟩ uid v (wayCycles core d)
  else { s with outbox := s.outbox ++ [{ dest := dev, body := .semAnswer core slot.val uid v }] }

/-- The order in which one update releases TCBs: priority descending, then index, then admission order (R52). -/
def armBefore (s : State) (a b : Arm) : Bool :=
  let prio := fun (x : Arm) =>
    let l := s.launch x.launch
    if x.dev = s.devid then ((s.fwRead (s.queue l.queue).troot (l.tcbs.toNat + 64 * x.tcb + 0x14) 1).getD 0) else 0
  if prio a ≠ prio b then decide (prio b < prio a)
  else if a.tcb ≠ b.tcb then decide (a.tcb < b.tcb) else decide ((s.launch a.launch).order < (s.launch b.launch).order)
/-- Arms put into that order. -/
def insertArm (s : State) (a : Arm) : List Arm → List Arm
  | [] => [a]
  | b :: bs => if armBefore s a b then a :: b :: bs else b :: insertArm s a bs

/-- A TCB is released at the semaphore of a die: its arm record is free, and the TCB's device enters it in a ready
queue (R51). -/
def State.releaseArm (s : State) (d : Nat) (a : Arm) : State :=
  let s1 := s.modDie d fun x => { x with arms := x.arms.erase a }
  if a.dev = s.devid then s1.releaseTcb a.launch a.tcb d
  else { s1 with outbox := s1.outbox ++ [{ dest := a.dev, body := .tcbRelease a.launch a.tcb a.gen }] }

/-- The waiting SEM.WAITs of a semaphore, in their order of arrival: each one whose condition holds completes, and with
take it takes its threshold (R214, R217). -/
def State.serveWaiters (s : State) (d i : Nat) : List Waiter → State
  | [] => s
  | w :: ws =>
    let v := (s.die d).sem i
    if w.index = i && decide (w.threshold.toNat ≤ v.toNat) then
      let s1 := s.modDie d fun x =>
        { (if w.take then x.setSem i (v - w.threshold) else x) with waiters := x.waiters.erase w }
      (s1.sendAnswer d w.dev w.core w.slot w.uid v).serveWaiters d i ws
    else s.serveWaiters d i ws

/-- What the home does after each update of a semaphore (R214). -/
def State.settleSem (s : State) (d i : Nat) : State :=
  let v := (s.die d).sem i
  let due := (s.die d).arms.filter fun a => a.index == i && decide (a.threshold.toNat ≤ v.toNat)
  let s1 := (due.foldl (fun l a => insertArm s a l) []).foldl (fun s a => s.releaseArm d a) s
  s1.serveWaiters d i (s1.die d).waiters

/-- Whether the homes of a die drop what a queue of a device has issued in a generation: it is not the one that the fence
they have had names (R364). The queues of another device are known by their fences alone. -/
def State.fencedOff (s : State) (d : Nat) (dev : BitVec 20) (queue : Nat) (gen : BitVec 8) : Bool :=
  if dev = s.devid then
    (s.queue queue).gen != gen && ((s.queue queue).fences.contains d || !(s.queue queue).resetting)
  else match s.foreign.find? fun f => f.1 == dev && f.2.1 == queue with
    | some f => f.2.2 != gen
    | none => false

/-- Whether a home drops a semaphore operation (R364). -/
def State.dropsOp (s : State) (d : Nat) (o : SemOp) : Bool := s.fencedOff d o.dev o.queue o.gen

/-- The home applies a semaphore operation (R214 to R219). -/
def State.applySem (s : State) (d : Nat) (o : SemOp) : State :=
  let v := (s.die d).sem o.index
  let answer := fun (s : State) (x : W64) => s.sendAnswer d o.dev o.core o.slot o.uid x
  if s.dropsOp d o then s else
  match o.kind with
  | .sig _ => (s.modDie d fun x => x.setSem o.index (semAfter o.kind v)).settleSem d o.index
  | .add _ | .set _ => answer ((s.modDie d fun x => x.setSem o.index (semAfter o.kind v)).settleSem d o.index) v
  | .read => answer s v
  | .wait t take =>
    let w : Waiter := { index := o.index, threshold := t, take := take, core := o.core, slot := o.slot, uid := o.uid,
                        dev := o.dev, queue := o.queue, gen := o.gen }
    (s.modDie d fun x => { x with waiters := x.waiters ++ [w] }).serveWaiters d o.index [w]
  | .arm n i t =>
    let here := decide (o.dev = s.devid)
    if here && (s.launch n).stage != .admitted then s
    else if here && !(s.tcbFree n i) then answer s 1
    else if Config.armRecords ≤ (s.die d).arms.length then answer s 3
    else
      let a : Arm := { index := o.index, threshold := t, launch := n, tcb := i, dev := o.dev, gen := o.gen }
      let name := w64 (s.devid.toNat * 2 ^ 32 + d * 2 ^ 29 + o.index)
      let s1 := if here then s.writeArm n i name t else s
      (answer (s1.modDie d fun x => { x with arms := x.arms ++ [a] }) 0).settleSem d o.index

/-- The next semaphore operation in a home's order of arrival (R214), once its cycle has come (R231). -/
def State.semAtHome (s : State) (d : Nat) : Option State :=
  match (s.die d).inbox with
  | [] => none
  | o :: os => if s.refclk < o.due then none else some ((s.modDie d fun x => { x with inbox := os }).applySem d o)

/-- SEM_UPDATE_AT_HOME (R214). -/
def execSemUpdateAtHome (die : Nat) (s : State) : Out := occurs (s.semAtHome die) s

/-- The answer to a semaphore operation has reached its slot, which goes on: xd, and for a SEM.WAIT a refresh point (R217,
R218); the same for the answer to a GANG.JOIN or GANG.LEAVE (R222). While the cluster stands still, what comes from outside
waits (R381). -/
def State.waitDone (s : State) (r : SlotRef) : Option State :=
  if s.clusterStopped (clusterOf r.core) then none else
  match (s.slotAt r).wait with
  | .semDone d v cond due =>
    if s.refclk < due then none
    else some (s.modSlot r fun l => if cond then ((l.wx d v).resume).refresh else (l.wx d v).resume)
  | .gangDone due => if s.refclk < due then none else some (s.modSlot r Slot.resume)
  | _ => none

/-- SEM_WAIT_COMPLETE (R217): the completion of SEM.WAIT, and of the other operations whose answer a slot waits for. -/
def execSemWaitComplete (core slot : Nat) (s : State) : Out := occurs (s.waitDone (slotRef core slot)) s

/-! ## Gangs -/

/-- A gang operation at the gang's home (R55, R56, R221, R222). A JOIN or LEAVE whose task no longer waits for it was
withdrawn (R244). -/
def State.applyGang (s : State) (o : GangOp) : State :=
  let r : SlotRef := ⟨o.core, o.slot⟩
  let n := o.launch
  let g := o.gang.toNat
  let x := (s.launch n).gang g
  let l := s.slotAt r
  let mine := l.occ && l.uid == o.uid
  match o.kind with
  | .arrive =>
    if !(x.members.contains o.uid) then s.barStatus n g o.uid 2
    else if x.broken then s.barStatus n g o.uid 1
    else (s.modGang n g fun x => { x with arrived := x.arrived ++ [o.uid] }).settleGang n g
  | .join =>
    if !mine || l.wait ≠ .gang true then s
    else if x.members.contains o.uid then s.answerGang n r
    else
      let s1 := s.modGang n g fun x => { x with joiners := x.joiners ++ [o] }
      if x.arrived.isEmpty then s1.admitJoiners n g else s1
  | .enroll =>
    if !mine || l.wait ≠ .joining o.gang then s
    else
      let s1 := s.modGang n g fun x => { x with joiners := x.joiners ++ [o] }
      if x.arrived.isEmpty then s1.admitJoiners n g else s1
  | .leave =>
    if !mine || l.wait ≠ .gang false then s else (s.leaveGang n g o.uid).answerGang n r
  | .quit => s.leaveGang n g o.uid

/-- The next gang operation in a home's order of arrival, once its cycle has come (R231). -/
def State.gangAtHome (s : State) (d : Nat) : Option State :=
  match (s.die d).gangs with
  | [] => none
  | o :: os => if s.refclk < o.due then none else some ((s.modDie d fun x => { x with gangs := os }).applyGang o)

/-- GANG_ARRIVAL_AT_HOME (R55). -/
def execGangArrivalAtHome (die : Nat) (s : State) : Out := occurs (s.gangAtHome die) s

/-- A BAR completes: its status reaches xd, a refresh point; status 1 then traps GANG_BROKEN where GANGCTL.BTRAP is 1,
with TPC after the BAR (R221). -/
def State.barDone (s : State) (r : SlotRef) : Option State :=
  if s.clusterStopped (clusterOf r.core) then none else
  match (s.slotAt r).wait with
  | .barDone d g word status due =>
    if s.refclk < due then none else
    let s1 := s.modSlot r fun l => ((l.wx d status).resume).refresh
    let l := s1.slotAt r
    some (if status = 1 && bitOf l.gangctl 0 then
      s1.takeTrap r { cause := .gangBroken, tval := g.setWidth 64, word := word, qent := 0, orig := 0 } l.pc
    else s1)
  | _ => none

/-- BAR_COMPLETE (R221). -/
def execBarComplete (core slot : Nat) (s : State) : Out := occurs (s.barDone (slotRef core slot)) s

/-! ## Atomics -/

/-- ATOMIC_AT_HOME (R210). The host bridge carries out an atomic to the host window, forwarded as an AtomicOp or as its
own read-modify-write; the value it leaves is the same (R211). -/
def execAtomicAtHome (core slot : Nat) (s : State) : Out := occurs (s.performAtomic (slotRef core slot)) s

end Sys2Proof.Machine
end

