-- ==== Sys2Proof/Machine/Packets.lean ====
section
/-! DEFINITION. Host queues: residency and the wake of queue cores (R417, R423), packets (R415, R416), doorbells and the
pending map (R417), level switches (R378, R394) and cadence (R395). -/

namespace Sys2Proof.Machine

/-! ## Residency and doorbells (R417) -/

/-- How many queues are resident. -/
def State.residents (s : State) : List Nat := (s.queues.filter fun (_, u) => u.resident).map (·.1)

/-- A queue becomes resident on a queue core, where there is room for it; a resident queue without work makes room
(DESIGN CHOICE: R417 gives no order). -/
def State.makeResident (s : State) (q : Nat) : State :=
  let put := fun (s : State) => s.modQueue q fun u => { u with resident := true, qcore := q % 16 }
  if (s.queue q).resident then s
  else if s.residents.length < 256 then put s
  else match s.residents.find? fun k => !(s.queueBusy k) with
    | some k => put (s.modQueue k fun u => { u with resident := false })
    | none => s

/-- The doorbell filter (R417): a queue that does not exist and a repeated TAIL have no effect, a TAIL past the ring
sets ERR 2, any other one is recorded; a queue that becomes non-empty wakes its core, or sets its bit in the pending
map. -/
def State.doorbell (s : State) (q : Nat) (tail : W32) : Option State :=
  let u := s.queue q
  if !(tmem s.queues q) || tail = u.tail then none
  else if decide (2 ^ u.log2n < (tail - u.head).toNat) then some (s.failQueue q 2)
  else
    let s1 := (s.modQueue q fun u => { u with tail := tail }).syncQueue q
    some (if u.resident then (if u.head = u.tail then s1.ring q 1 else s1)
      else if s1.pendingMap.contains q then s1 else { s1 with pendingMap := s1.pendingMap ++ [q] })

/-- DOORBELL (R417). -/
def execDoorbell (q : Nat) (tail : BitVec 32) (s : State) : Out := occurs (s.doorbell q tail) s

/-- The scan of the pending map: every queue in it that can becomes resident and wakes its core (R417). -/
def State.scanMap (s : State) : Option State :=
  if s.pendingMap.isEmpty then none else
  some (s.pendingMap.foldl (fun s q =>
    let s1 := s.makeResident q
    if (s1.queue q).resident then { s1.ring q 1 with pendingMap := s1.pendingMap.filter (· != q) } else s) s)

/-- PENDING_MAP_SCAN (R417). -/
def execPendingMapScan (s : State) : Out := occurs s.scanMap s

/-! ## Packets (R415) -/

/-- The words of the packet at HEAD. -/
def State.packetWords (s : State) (q : Nat) : List W64 :=
  let u := s.queue q
  (List.range 8).map fun k => w64 (s.peek (u.ring.toNat + 64 * (u.head.toNat % 2 ^ u.log2n) + 8 * k) 8)

/-- TYPE of a packet. -/
def packetType (w : List W64) : Nat := bits (w.getD 0 0) 7 0
/-- A reserved TYPE or nonzero bits beside it (R415, R422). -/
def packetBad (w : List W64) : Bool := decide (8 ≤ packetType w) || bits (w.getD 0 0) 31 8 != 0
/-- The words that each TYPE uses. -/
def packetUsed (t : Nat) : List Nat :=
  match t with
  | 1 | 5 => [1]
  | 2 => [1, 2, 3]
  | 3 | 6 | 7 => [1, 2]
  | 4 => [1, 2, 3, 4]
  | _ => []
/-- A reserved field of a packet that is not 0 (R414, R415, R416). -/
def packetReserved (w : List W64) : Bool :=
  let t := packetType w
  packetBad w || (([1, 2, 3, 4, 5, 6, 7] : List Nat).any fun k => !((packetUsed t).contains k) && w.getD k 0 != 0) ||
  (match t with
   | 2 => bits (w.getD 3 0) 63 1 != 0
   | 4 => bits (w.getD 3 0) 63 40 != 0
   | 5 => bits (w.getD 1 0) 63 2 != 0 || bits (w.getD 1 0) 1 0 == 3
   | 6 => bits (w.getD 1 0) 63 48 != 0
   | _ => false)

/-- Whether Flambeol reads the next packet of a queue (R364, R394, R414, R415, R426). -/
def State.packetDue (s : State) (q : Nat) : Bool :=
  let u := s.queue q
  tmem s.queues q && u.resident && u.err == 0 && !u.resetting && !u.waiting && u.switching.isNone && s.update.isNone &&
    u.head != u.tail

/-- Flambeol acts on the packet at HEAD where it has a TYPE: a reserved packet sets ERR 1. -/
def State.onPacket (s : State) (q ty : Nat) (f : List W64 → State → Option State) : Option State :=
  let w := s.packetWords q
  if !(s.packetDue q) then none
  else if packetBad w then some (s.failQueue q 1)
  else if packetType w ≠ ty then none
  else if packetReserved w then some (s.failQueue q 1)
  else f w s

/-- Whether every launch of a queue has ended. -/
def State.queueQuiet (s : State) (q : Nat) : Bool := s.launches.all fun (_, l) => l.queue != q || l.stage == .over

/-- What a packet's action comes to: the new state, or an error code with the state at it. -/
inductive Act
  | done (s : State)
  | fail (e : Nat) (s : State)

/-- The action of the packet at HEAD: done, it is consumed; otherwise the queue fails (R414). -/
def Act.finish (a : Act) (q : Nat) : State :=
  match a with
  | .done s => s.consume q
  | .fail e s => s.failQueue q e

/-- A semaphore operation of firmware for a queue (R192, R212): it takes effect at once, as no rule gives its way a length;
the queue takes the place of the slot. -/
def State.firmSem (s : State) (q : Nat) (name : W64) (k : SemKind) : State :=
  if semDev name = s.devid then
    s.postSem (semDie name)
      { index := semIndex name, kind := k, core := q, slot := 0, uid := 0, queue := q, gen := (s.queue q).gen,
        dev := s.devid, due := s.refclk }
  else
    { s with outbox := s.outbox ++
        [{ dest := semDev name, body := .semUpdate name (semAmount k) (semOpCode k) 0 0 s.devid q 0 0 q
            (s.queue q).gen }] }

/-- SIGNAL: SEM.SIG's update, at once (R415). -/
def State.actSignal (s : State) (q : Nat) (name amount : W64) : Act :=
  if (s.semCheckFor q 0 name).isSome then .fail 5 s else .done (s.firmSem q name (.sig amount))

/-- LAUNCH: ERR 3 for a misaligned or unreadable descriptor (R415). -/
def State.actLaunch (s : State) (q : Nat) (desc : W64) : Act :=
  if desc.toNat % 64 ≠ 0 || (s.fwRead (s.queue q).troot desc.toNat 128).isNone then .fail 3 s
  else .done (s.queueLaunch q desc)

/-- The copy of a COPY packet, granule by granule in ascending order (R416): 0, or the code of the fault it meets. -/
def copyFirm (root : W64) : Nat → Nat → Nat → Nat → State → Nat × State
  | 0, _, _, _, s => (0, s)
  | fuel + 1, src, dst, n, s =>
    if n = 0 then (0, s) else
    let k := Nat.min n (Nat.min (64 - src % 64) (64 - dst % 64))
    match s.fwTranslate root (src % 2 ^ 64) 1, s.fwTranslate root (dst % 2 ^ 64) 2 with
    | some a, some b =>
      if s.poison.contains (a / 64) then (6, s)
      else copyFirm root fuel (src + k) (dst + k) (n - k) (s.firmWrite ((List.range k).map fun j => (b + j, s.mem.get (a + j))))
    | _, _ => (3, s)

/-- COPY (R415, R416). -/
def State.actCopy (s : State) (q : Nat) (w : List W64) : Act :=
  let name := w.getD 4 0
  if name ≠ 0 && (s.semCheckFor q 0 name).isSome then .fail 5 s
  else
    let n := (w.getD 3 0).toNat
    match copyFirm (s.queue q).troot n (w.getD 1 0).toNat (w.getD 2 0).toNat n s with
    | (0, s1) => if name = 0 then .done s1 else s1.actSignal q name 1
    | (e, s1) => .fail e s1

/-- BARRIER (R415). -/
def State.actBarrier (s : State) (q : Nat) (name amount : W64) : Act :=
  if name = 0 then .done s else s.actSignal q name amount

/-- NOP_PACKET (R415). -/
def execNopPacket (q : Nat) (s : State) : Out := occurs (s.onPacket q 0 fun _ s => some (s.consume q)) s

/-- LAUNCH_PACKET (R415); admission has stopped while the queue is pre-empted (R371). -/
def execLaunchPacket (q : Nat) (s : State) : Out :=
  occurs (s.onPacket q 1 fun w s =>
    if (s.queue q).stopped then none else some ((s.actLaunch q (w.getD 1 0)).finish q)) s

/-- WAIT_PACKET (R415): the wait goes to the home as a SEM.WAIT's does, and the packet is consumed when its condition has
been met. -/
def execWaitPacket (q : Nat) (s : State) : Out :=
  occurs (s.onPacket q 2 fun w s =>
    let name := w.getD 1 0
    if (s.semCheckFor q 0 name).isSome then some (s.failQueue q 5)
    else some ((s.firmSem q name (.wait (w.getD 2 0) (bitOf (w.getD 3 0) 0))).modQueue q fun u =>
      { u with waiting := true })) s

/-- SIGNAL_PACKET (R415). -/
def execSignalPacket (q : Nat) (s : State) : Out :=
  occurs (s.onPacket q 3 fun w s => some ((s.actSignal q (w.getD 1 0) (w.getD 2 0)).finish q)) s

/-- COPY_PACKET (R416): it waits for every earlier launch. -/
def execCopyPacket (q : Nat) (s : State) : Out :=
  occurs (s.onPacket q 4 fun w s => if s.queueQuiet q then some ((s.actCopy q w).finish q) else none) s

/-- BARRIER (R415): it waits for every earlier launch. -/
def execBarrier (q : Nat) (s : State) : Out :=
  occurs (s.onPacket q 7 fun w s =>
    if s.queueQuiet q then some ((s.actBarrier q (w.getD 1 0) (w.getD 2 0)).finish q) else none) s

/-! ## Levels (R378, R394) -/

/-- DETLEVEL (R394): the packet stops the queue until its level has taken effect; level 2 sets ERR 1 in reduced service
(R428). -/
def execDetlevel (q : Nat) (s : State) : Out :=
  occurs (s.onPacket q 5 fun w s =>
    let lv := bits (w.getD 1 0) 1 0
    if lv = 2 && s.service == 1 then some (s.failQueue q 1)
    else some (s.modQueue q fun u => { u with switching := some (BitVec.ofNat 2 lv) })) s

/-- Whether an in-field test leaves a die to a D2 context that does not own it yet (R404): none of its clusters is being
tested, or has been emptied by pre-empting queues. -/
def State.testsAllow (s : State) (d : Nat) : Bool :=
  (List.range 24).all fun k =>
    let c := s.cluster (24 * d + k)
    c.test == .none || (c.test == .emptying && c.emptied.isEmpty)

/-- Whether a die can be owned by a D2 context: it holds no task of another one (R378), is not withheld (R399), and no in-field
test has to end first (R404). -/
def State.dieFree (s : State) (d q : Nat) : Bool :=
  let x := s.die d
  (x.d2 == some q || (x.d2.isNone && !x.noD2 && s.testsAllow d)) &&
  s.slotRefs.all fun r => dieOf r.core != d || !((s.slotAt r).occ || (s.slotAt r).held) || (s.launchOf r).queue == q

/-- The tests for which clusters of a die are being emptied are put off until no D2 context owns it (R404, R408): tasks may be
placed there again. -/
def State.deferTests (s : State) (d : Nat) : State :=
  (List.range 24).foldl (fun s k =>
    if (s.cluster (24 * d + k)).test == .emptying then
      s.modCluster (24 * d + k) fun c => { c with test := .none, testDue := true }
    else s) s

/-- A D2 context takes a die (R378, R394): its clusters' clocks change. -/
def State.ownDie (s : State) (d q : Nat) : State :=
  if (s.die d).d2 = some q then s else ((s.deferTests d).rebaseDie d).modDie d fun x => { x with d2 := some q }
/-- A die returns to the elastic clock, and DRZPER applies to it from now on (R356). -/
def State.disownDie (s : State) (d : Nat) : State :=
  (((List.range 24).foldl (fun s k => s.release (24 * d + k)) s).rebaseDie d).modDie d fun x =>
    { x with d2 := none, drzWindow := false, drzAt := s.refclk }
/-- The dies of a context return to the elastic clock; no Drizzle window is open on them (R394, R356). -/
def State.disownDies (s : State) (q : Nat) : State :=
  (List.range 8).foldl (fun s d => if (s.die d).d2 = some q then s.disownDie d else s) s
/-- The dies of a queue (R413). -/
def Queue.dieList (u : Queue) : List Nat := (List.range 8).filter fun d => u.dies.getLsbD d

/-- A level takes effect (R394): every launch ahead of the packet has ended, and for D2 the dies are free to own. -/
def State.switchLevel (s : State) (q : Nat) : Option State :=
  let u := s.queue q
  match u.switching with
  | none => none
  | some lv =>
    if !(s.queueQuiet q) then none
    else if lv = 2 && !(u.dieList.all fun d => s.dieFree d q) then none
    else
      let s1 := if lv = 2 then u.dieList.foldl (fun s d => s.ownDie d q) s else s.disownDies q
      some ((s1.modQueue q fun u => { u with level := lv, switching := none }).consume q)

/-- LEVEL_SWITCH (R394). -/
def execLevelSwitch (q : Nat) (s : State) : Out := occurs (s.switchLevel q) s

/-! ## Cadence (R395) -/

/-- The launches of a queue that wait for a tick. -/
def State.ticking (s : State) (q : Nat) : List Nat :=
  (s.launches.filter fun (_, l) => l.queue == q && l.stage == .ticking).map (·.1)

/-- The first tick at or after T whose step lies after the current one. -/
def firstTick (t p g : Nat) : Nat :=
  if g < t / 65536 then t else (t + cdiv ((g + 1) * 65536 - t) p * p) % 2 ^ 64

/-- CADENCE (R395). -/
def execCadence (q : Nat) (s : State) : Out :=
  occurs (s.onPacket q 6 fun w s =>
    let p := (w.getD 1 0).toNat
    let t := (w.getD 2 0).toNat
    if p = 0 then
      let s1 := (s.ticking q).foldl (fun s n => s.modLaunch n fun l => { l with stage := .queued }) s
      some ((s1.modQueue q fun u => { u with cadence := false }).consume q)
    else if p < 65536 then some (s.failQueue q 4)
    else some ((s.modQueue q fun u =>
      { u with cadence := true, period := BitVec.ofNat 48 p, tick := w64 (firstTick t p s.gstep.toNat) }).consume q)) s

/-- A tick (R395): the head launch held for a tick is released, or a missed tick is posted; T advances, and the timer bit
of the queue's core is set (R423). -/
def State.cadenceTick (s : State) (q : Nat) : Option State :=
  let u := s.queue q
  if !u.cadence || bits u.tick 63 16 ≠ s.gstep.toNat % 2 ^ 48 then none
  else
    let s1 := match s.ticking q with
      | n :: _ => s.modLaunch n fun l => { l with stage := .queued }
      | [] => s.postEvent q (s.plainEvent 4 0 31)
    some ((s1.modQueue q fun u => { u with tick := u.tick + u.period.setWidth 64 }).ring q 8)

/-- CADENCE_TICK (R395). -/
def execCadenceTick (q : Nat) (s : State) : Out := occurs (s.cadenceTick q) s

end Sys2Proof.Machine
end

