-- ==== Sys2Proof/Machine/Flambeol.lean ====
section
/-! DEFINITION. The custom-0 instructions of the Flambeol queue cores (R422, R423). The core that executes is the one
that `fcur` names. -/

namespace Sys2Proof.Machine

/-- The queue core that executes. -/
def State.fnow (s : State) : Nat := s.fcur.getD 0
/-- Its register. -/
def State.frx (s : State) (r : BitVec 5) : W64 := (s.fcore s.fnow).rx r
/-- It writes a register and goes on. -/
def State.fbPut (s : State) (d : BitVec 5) (v : W64) : State := s.modFcore s.fnow fun f => (f.wx d v).next

/-- An exception of a queue core: the instruction has no effect; mepc, mcause and mtval are written and the core goes
to mtvec, as a RISC-V machine-mode trap does (R422; PRESUMED: the standard's registers). -/
def State.fbFault (s : State) (cause : Nat) (tval : W64) : State :=
  s.modFcore s.fnow fun f =>
    { f with mepc := f.pc, mcause := w64 cause, mtval := tval, pc := f.mtvec &&& ~~~3#64 }

/-- A word of the custom-0 opcode that is none of its instructions: the illegal-instruction exception, whose mtval this
manual does not give (R422; a free value, assumption 2). -/
def State.fbIllegal (s : State) : State :=
  let (v, s1) := s.free
  s1.fbFault 2 v

/-- The vector operation of a word of classes 0x8 to 0xB whose fields all fit its op, before the limits on its operands. -/
def vectorExact (n : Nat) : Option Instr :=
  match fld n 28 4 with
  | 8 => (decodeClass8 n).toOption
  | 9 => (decodeClass9 n).toOption
  | 10 => (decodeClass10 n).toOption
  | 11 => (decodeClass11 n).toOption
  | _ => none

/-- A word of a vector op with the bits that its op wants fixed set right: from the op's least word, those bits of the given
word that may be 1. -/
def vectorFitted (n : Nat) : Nat :=
  let op := n / 2 ^ 22 * 2 ^ 22
  let base := if (vectorExact op).isSome then op else op + 8
  (List.range 22).foldl (fun w b =>
    if n.testBit b && !(base.testBit b) && (vectorExact (base + 2 ^ b)).isSome then w + 2 ^ b else w) base

/-- The vector operation that a word of classes 0x8 to 0xB names, whatever its fixed bits hold. -/
def vectorOp (n : Nat) : Option Instr :=
  match vectorExact n with
  | some i => some i
  | none => vectorExact (vectorFitted n)

/-- TVAL of a word that decoding rejects: the register at or above VREGS that its vector operation names, where it names one
(R126); otherwise 0 (R139; assumption 12). -/
def State.illegalTval (s : State) (w : W32) : W64 :=
  match (vectorOp w.toNat).bind fun i => vdesc i (vcfgType (s.slot.vcfg.setWidth 8)) with
  | some d => ((vregsOver s.here.vregs d.groups).map w64).getD 0
  | none => 0

/-- A word that decoding rejects: ILLEGAL, precisely, or mcause 2 on a queue core (R139, R422). -/
def execIllegal (w : W32) (s : State) : Out :=
  .next (if s.fcur.isSome then s.fbIllegal else s.trap .illegal (s.illegalTval w) w)

/-- Where the packet of a queue is staged (R423). -/
def stageAt (q : Nat) : Nat := Config.stageBase + 64 * q

/-- RFETCH (R422, R423). During a live update nothing is fetched (R426): it answers as for an empty queue. A core that fetches
again, or offers what it has fetched, is done with its packet (assumption 31). -/
def execRfetch (a d : BitVec 5) (s : State) : Out :=
  let v := s.frx a
  let q := bits v 7 0
  let u := s.queue q
  .next (if bits v 63 8 ≠ 0 || !(tmem s.queues q) || !u.resident || u.qcore ≠ s.fnow then s.fbFault 24 v
  else if u.head = u.tail || s.update.isSome then (s.modQueue q fun u => { u with staged := false }).fbPut d 0
  else
    let w := s.packetWords q
    if packetBad w then s.fbFault 25 (u.head.setWidth 64)
    else
      let cells := (w.zipIdx).flatMap fun (x, k) => cellsLE (stageAt q + 8 * k) 8 x.toNat
      let s1 := s.modFcore s.fnow fun f => { f with lmem := cells.foldl (fun t c => tset t c.1 c.2) f.lmem }
      ((s1.consume q).modQueue q fun u => { u with staged := true }).fbPut d (w64 (stageAt q)))

/-- BFX (R422, R423). -/
def execFlambeolBfx (b a d : BitVec 5) (s : State) : Out :=
  let c := s.frx b
  let pos := bits c 5 0
  let len := bits c 13 8 + 1
  .next (if 64 < pos + len || bits c 63 14 ≠ 0 || bits c 7 6 ≠ 0 then s.fbFault 28 c
  else s.fbPut d (w64 ((s.frx a).toNat / 2 ^ pos % 2 ^ len)))

/-- SWAIT (R422, R423): the core sleeps until a masked pending bit is set or its limit passes; the next core that has woken
goes on. -/
def execSwait (b a d : BitVec 5) (s : State) : Out :=
  let m := s.frx a
  let n := (s.frx b).toNat
  .next (if bits m 7 0 = 0 || bits m 63 7 ≠ 0 then s.fbFault 26 m
  else if (s.fcore s.fnow).ripe m != 0 then s.modFcore s.fnow (·.wakeUp d m)
  else
    { s.modFcore s.fnow fun f =>
        { f with asleep := true, swMask := m, swRd := d, swLimit := if n = 0 then none else some (s.refclk + n) } with
      fcur := s.fwoken.head?
      fwoken := s.fwoken.drop 1 })

/-- The staged packet at an address of the core's local memory. -/
def FCore.staged (f : FCore) (at_ : Nat) : List W64 :=
  (List.range 8).map fun k => w64 (natOfBytes ((List.range 8).map fun j => tget 0 f.lmem (at_ + 8 * k + j)))

/-- Whether every cluster of a die is retired (R24). -/
def State.dieRetired (s : State) (d : Nat) : Bool := (List.range 24).all fun k => (s.cluster (24 * d + k)).retired

/-- DISP (R422, R423): the packet joins what the die scheduler has been offered, unless that is full or the packet's
queue is pre-empted (R432). No packet is staged outside STAGE (assumption 30). -/
def execDisp (b a d : BitVec 5) (s : State) : Out :=
  let v := s.frx a
  let die := bits (s.frx b) 2 0
  let w := (s.fcore s.fnow).staged v.toNat
  let q := (v.toNat - Config.stageBase) / 64
  let t := packetType w
  .next (if v.toNat % 64 ≠ 0 || v.toNat < Config.stageBase || 256 ≤ q || (t ≠ 1 && t ≠ 3 && t ≠ 4) ||
      !((s.queue q).dies.getLsbD die) || s.dieRetired die || bits (s.frx b) 63 3 ≠ 0 then s.fbFault 27 v
  else if Config.dispQueue ≤ (s.die die).disp.length || (s.queue q).stopped then s.fbPut d 1
  else
    let bytes := w.foldr (fun x acc => acc * 2 ^ 64 + x.toNat) 0
    ((s.modDie die fun x => { x with disp := x.disp ++ [(q, bytes)] }).modQueue q fun u => { u with staged := false }).fbPut d 0)

/-- A die scheduler acts on the oldest packet it has been offered: a LAUNCH or SIGNAL at once, a COPY when every earlier
launch of the queue has ended (R415, R423). An error of the packet makes the queue fail. -/
def State.takeOffer (s : State) (d : Nat) : Option State :=
  match (s.die d).disp with
  | [] => none
  | (q, bytes) :: rest =>
    let w := (List.range 8).map fun k => w64 (bytes / 2 ^ (64 * k))
    let s1 := s.modDie d fun x => { x with disp := rest }
    let end_ := fun (a : Act) => match a with | .done s => s.syncQueue q | .fail e s => s.failQueue q e
    if !(tmem s.queues q) then some s1
    else if (s.queue q).stopped then none
    else if packetReserved w then some (s1.failQueue q 1)
    else match packetType w with
      | 1 => some (end_ (s1.actLaunch q (w.getD 1 0)))
      | 3 => some (end_ (s1.actSignal q (w.getD 1 0) (w.getD 2 0)))
      | _ => if s.queueQuiet q then some (end_ (s1.actCopy q w)) else none

/-- The limit of a core's SWAIT has passed: rd is 0 and the core goes on (R423). -/
def State.swaitOver (s : State) (n : Nat) : Option State :=
  let f := s.fcore n
  match f.swLimit with
  | some t =>
    if f.asleep && decide (t ≤ s.refclk) then
      some ((s.modFcore n fun f => { (f.wx f.swRd 0).next with asleep := false, swLimit := none }).woken n)
    else none
  | none => none

/-- SWAIT_TIMEOUT (R423). -/
def execSwaitTimeout (fcore : Nat) (s : State) : Out := occurs (s.swaitOver fcore) s

end Sys2Proof.Machine
end

