-- ==== Sys2Proof/Machine/Matrix.lean ====
section
/-! DEFINITION. Class 0x7 (R282 to R315): the matrix instructions at issue, and the matrix engine: starting an entry,
loading planes, streaming passes, and committing. -/

namespace Sys2Proof.Machine

/-! ## The table's checks (R291) -/

/-- Row bytes of an output format (R293); 0 for none. -/
def outBytes (f : Nat) : Nat := match f with | 1 | 5 => 512 | 2 | 3 => 256 | 4 => 128 | 6 => 2048 | _ => 0

/-- Code 1: a reserved field or value in words 3 to 15; in reduced service, a pair other than BF16 and FP32 (R428). -/
def State.mxBad1 (s : State) (t : List (BitVec 128)) : Bool :=
  let w3 := tabWord t 3
  bits w3 39 37 != 0 || bits w3 127 51 != 0 || decide (7 ≤ tabPair t) || decide (7 ≤ tabOut t) || tabClvl t == 0 ||
  tabClvl t == 7 || decide (5 ≤ tabGrb t) ||
  ((List.range 6).any fun l => bits (tabWord t (4 + l)) 31 20 != 0 || decide (4 ≤ lvRole t l)) ||
  ((List.range 6).any fun j => tabWord t (10 + j) != 0) ||
  (s.service == 1 && tabPair t != 4 && tabPair t != 6)

/-- Code 4: the roles about the commit level. -/
def mxBad4 (t : List (BitVec 128)) : Bool :=
  let c := tabClvl t
  if c = 6 then (List.range 6).any fun l => lvRole t l == 1
  else lvRole t c != 1 || ((List.range 6).any fun l =>
    (decide (1 ≤ l ∧ l < c) && lvRole t l == 1) || (decide (c < l) && lvRole t l == 2))

/-- Code 6: a misaligned base or stride, or rows that would overlap. -/
def mxBad6 (t : List (BitVec 128)) : Bool :=
  tabAbase t % 64 != 0 || tabBbase t % 64 != 0 || tabCbase t % 64 != 0 || tabGbase t % 32 != 0 || tabSa t % 4 != 0 ||
  tabSb t % 4 != 0 ||
  ((List.range 6).any fun l => lvAstr t l % 64 != 0 || lvBstr t l % 64 != 0 || lvCstr t l % 64 != 0) ||
  (decide (0 < tabRpb t) && decide ((lvCstr t 0).natAbs < outBytes (tabOut t)))

/-- The array cycles of a commit interval (R291). -/
def mxInterval (t : List (BitVec 128)) : Nat :=
  let top := if tabClvl t = 6 then 5 else tabClvl t - 1
  (List.range top).foldl (fun a k => a * lvCount t (k + 1)) (tabNrow t * pairRho (tabPair t))

/-- The lowest code of R291 that a table fails. -/
def State.mxCheck (s : State) (t : List (BitVec 128)) (grouped : Bool) : Option Nat :=
  if s.mxBad1 t then some 1
  else if lvRole t 0 != 3 || ((List.range 5).any fun l => lvRole t (l + 1) == 3) ||
      ((List.range 6).any fun l => lvCount t l == 0) then some 2
  else if tabRpb t + 1 < tabNrow t || lvBstr t 0 != 0 then some 3
  else if mxBad4 t then some 4
  else if (!tabScl t && tabPair t == 0) || (tabScl t && decide (4 ≤ tabPair t)) then some 5
  else if mxBad6 t then some 6
  else if 2 ^ 18 < mxInterval t then some 7
  else if tabHold t && (grouped || ((List.range 6).any fun l => lvRole t l == 2 || lvBstr t l != 0)) then some 8
  else none

/-! ## Issue -/

/-- A shadow-table word of a slot replaced (R287). -/
def Slot.setTab (l : Slot) (i : BitVec 4) (v : BitVec 128) : Slot := { l with mxtab := l.mxtab.set i.toNat v i.isLt }

/-- MXCFG (R306). -/
def execMxcfg (a b : XReg) (i : BitVec 4) (s : State) : Out :=
  .next ((s.mapSlot fun l => l.setTab i (s.rx b ++ s.rx a)).retire)
/-- MXANC (R307). -/
def execMxanc (a : XReg) (s : State) : Out :=
  .next ((s.mapSlot fun l =>
    let w := (l.mxtab[3]).toNat
    l.setTab 3 (BitVec.ofNat 128 (w - w / 2 ^ 8 % 65536 * 2 ^ 8 + bits (s.rx a) 15 0 * 2 ^ 8))).retire)

/-- A record appended to the matrix queue, or the MX_SPEC that its checks raise (R291, R308, R311). -/
def State.mxIssue (s : State) (i : Instr) (code : Option Nat) (ops : List W64) (f : QRec → QRec) : Out :=
  .next (match code with
  | some c => s.trap .mxSpec (w64 c) i.encode
  | none => s.issueTo .mx i ops f)

/-- The checks of MXLDW (R308, R428). -/
def State.ldwCheck (s : State) (va sc : W64) (scaled : Bool) (p : BitVec 4) : Option Nat :=
  let q := p.toNat
  if 7 ≤ q || (s.service == 1 && q != 4 && q != 6) then some 1
  else if (scaled && decide (4 ≤ q)) || (!scaled && q == 0) then some 5
  else if va.toNat % 64 ≠ 0 || (scaled && sc.toNat % 4 != 0) then some 6
  else none

/-- MXLDW without scales (R308). -/
def execMxldw (a : XReg) (p : BitVec 4) (s : State) : Out :=
  s.mxIssue (.mxldw a p) (s.ldwCheck (s.rx a) 0 false p) [s.rx a, 0] id
/-- MXLDW with scales (R308). -/
def execMxldwScaled (a b : XReg) (p : BitVec 4) (s : State) : Out :=
  s.mxIssue (.mxldwScaled a b p) (s.ldwCheck (s.rx a) (s.rx b) true p) [s.rx a, s.rx b] id
/-- MXSWP (R309). -/
def execMxswp (s : State) : Out := s.mxIssue .mxswp none [] id
/-- MXGO (R310). -/
def execMxgo (s : State) : Out :=
  let t := s.slot.mxtab.toList
  s.mxIssue .mxgo (s.mxCheck t false) [] fun r => { r with table := t }
/-- MXGOG (R310). -/
def execMxgog (s : State) : Out :=
  let t := s.slot.mxtab.toList
  s.mxIssue .mxgog (s.mxCheck t true) [] fun r => { r with table := t }
/-- MXSTA (R311). -/
def execMxsta (a b : XReg) (n : BitVec 7) (f : BitVec 4) (s : State) : Out :=
  let t := s.rx a
  let p := signedOf 64 (s.rx b).toNat
  let code := if f = 0 || 7 ≤ f.toNat then some 1
    else if t.toNat % 64 ≠ 0 || (decide (0 < n.toNat) && decide (p.natAbs < outBytes f.toNat)) then some 6
    else none
  s.mxIssue (.mxsta a b n f) code [t, s.rx b] id
/-- MXCLR (R312). -/
def execMxclr (s : State) : Out := s.mxIssue .mxclr none [] id
/-- MXMRK (R313). -/
def execMxmrk (a b : XReg) (s : State) : Out := s.mxIssue (.mxmrk a b) none [] id

/-! ## Elements and planes -/

/-- An element of an activation or weight format as an exact value (R283). -/
def pairElem (p : Nat) (weight : Bool) (x : Nat) : Num :=
  match p with
  | 0 => tf8Read x
  | 1 => Num.ofInt (signedOf 8 x)
  | 2 => Num.ofInt (if weight then signedOf 4 x else signedOf 8 x)
  | 3 => Num.ofInt (signedOf 4 x)
  | 4 => (fmtOf .bf16).read false x
  | 5 => (fmtOf .f16).read false x
  | _ => (fmtOf .f32).read false x

/-- The exact product of R112: a NaN scale comes first; a zero product of integers or TF8 codes is +0. -/
def pairProduct (p : Nat) (x : Num) (sx : Nat) (y : Num) (sy : Nat) : Num :=
  match se8Read sx, se8Read sy with
  | some i, some j =>
    (match (Num.mul x y).1 with
     | .fin n m e => .fin (n && (m != 0 || decide (4 ≤ p))) m (e + i + j)
     | z => z)
  | _, _ => .nan false

/-- Element k of w bits in a list of bytes (R97). -/
def elemAt (w k : Nat) (bs : List Byte) : Nat :=
  if w = 4 then (bs.getD (k / 2) 0).toNat / 2 ^ (4 * (k % 2)) % 16
  else natOfBytes ((bs.drop (k * (w / 8))).take (w / 8))

/-- Bytes as a table without its zeros. -/
def byteTable (bs : List Byte) : Table Byte := (bs.zipIdx).filterMap fun (b, k) => if b = 0 then none else some (k, b)

/-- Row k of a plane as exact values with their scale bytes, column by column (R283, R285), under the PAIR and SCL of the nest
that streams past it. For a HOLD nest whose PAIR or SCL is not that of the load the spec says nothing: the plane's bytes are read
under the nest's PAIR, and scales that were not loaded read 0x00 (DESIGN CHOICE, assumption 101). -/
def Plane.row (pl : Plane) (p : Nat) (scl : Bool) (k : Nat) : List (Num × Nat) :=
  let w := pairWbits p
  let lo := k * 16 * w
  let bs := (List.range (16 * w)).map fun j => tget 0 pl.data (lo + j)
  (List.range 128).map fun n =>
    (pairElem p true (elemAt w n bs), if scl then (tget 0 pl.scales (128 * (k / 32) + n)).toNat else 0)

/-! ## Accesses of the matrix engine -/

/-- The engine's accesses: reads stall at watermarks (R298); stores wait for them too (R293). -/
def mxMode : Mode := { late := true, wide := true, granule := false, cpt := false, skipWm := false, ownWm := none, guards := false, unit := 3 }

/-- The engine's stores wait for watermarks as vector stores do: for the whole granule (R262, R293). -/
def mxStore : Mode := { mxMode with granule := true }

/-- Bytes read by an entry of a slot (R206, R298). -/
def State.mxRead (s : State) (r : SlotRef) (a : Int) (n : Nat) (f : List Byte → State → CStep) : CStep :=
  (s.copySpan r .read mxMode a n).andThen fun bs s1 => f (bs.map fun b => s1.engByte r b.2) s1

/-- A plane of a pair read from its source, with its scales (R285, R303, R308). -/
def State.readPlane (s : State) (r : SlotRef) (p : Nat) (src : W64) (scaled : Bool) (sc : W64)
    (f : Plane → State → CStep) : CStep :=
  s.mxRead r src.toNat (pairPlaneBytes p) fun bs s1 =>
    let build : List Byte → Plane := fun ss =>
      { pair := BitVec.ofNat 4 p, data := byteTable bs, scales := byteTable ss, src := src, scaleSrc := sc,
        scaled := scaled, has := true, stale := false }
    if scaled then s1.mxRead r sc.toNat (pairScaleBytes p) fun ss s2 => f (build ss) s2 else f (build []) s1

/-- Rows that a read or write covers, one after another; `f` goes on with what all of them gave. -/
def State.mxReadRows (s : State) (r : SlotRef) (n : Nat) : List Int → (List (List Byte) → State → CStep) → CStep
  | [], f => f [] s
  | a :: as, f => s.mxRead r a n fun bs s1 => s1.mxReadRows r n as fun rest s2 => f (bs :: rest) s2

/-- Pieces stored by an entry: every check before any byte (R293). -/
def State.mxWrite (s : State) (r : SlotRef) (ord : Nat) (acc : List (Nat × Nat × Byte)) :
    List (Int × List Byte) → (State → CStep) → CStep
  | [], f => f (s.engWrite r 2 ord acc)
  | (a, bs) :: ps, f =>
    (s.copySpan r .write mxStore a bs.length).andThen fun locs s1 =>
      s1.mxWrite r ord (acc ++ ((locs.zip bs).map fun ((va, loc), b) => (va, loc, b))) ps f

/-! ## Banks (R286, R293) -/

/-- The committed bank of a core. -/
def Core.committed (c : Core) : Table Acc := if c.upperCommitted then c.upper else c.lower
/-- A core with its committed bank replaced. -/
def Core.setCommitted (c : Core) (b : Table Acc) : Core :=
  if c.upperCommitted then { c with upper := b } else { c with lower := b }

/-- Row r of a bank. -/
def bankRow (b : Table Acc) (r : Nat) : List Acc :=
  let mine := b.filter fun e => e.1 / 128 == r
  (List.range 128).map fun n => tget Acc.cleared mine (128 * r + n)

/-- The pieces a store of a row makes: its elements, and its side plane for TF8 and ACC128 (R117, R293); blocks
of TF8 are quantised from the exact values (R110). -/
def rowPieces (f : Nat) (w : Int) (row : List Acc) (at_ side : Int) (r : Nat) : List (Int × List Byte) :=
  match f with
  | 1 => [(at_, row.flatMap fun x => bytesLE 4 (x.toFmt w .f32))]
  | 2 => [(at_, row.flatMap fun x => bytesLE 2 (x.toFmt w .bf16))]
  | 3 => [(at_, row.flatMap fun x => bytesLE 2 (x.toFmt w .f16))]
  | 4 =>
    let blocks := (List.range 4).map fun j => quantBlock (((row.drop (32 * j)).take 32).map fun x => x.num w)
    [(at_, blocks.flatMap fun b => b.2.1.map fun q => BitVec.ofNat 8 q),
     (side + 4 * r, blocks.map fun b => BitVec.ofNat 8 b.1)]
  | 5 => [(at_, row.flatMap fun x => bytesLE 4 (wrapTo 32 (x.toInt w (-(2 ^ 31)) (2 ^ 31 - 1))))]
  | _ => [(at_, row.flatMap fun x => bytesLE 16 x.plane), (side + 256 * r, row.flatMap fun x => bytesLE 2 x.side)]

/-- The pieces of a store of the first rows of a bank (R293). -/
def bankPieces (b : Table Acc) (f : Nat) (w : Int) (rows : Nat) (at_ pitch : Int) : List (Int × List Byte) :=
  (List.range rows).flatMap fun (r : Nat) =>
    rowPieces f w (bankRow b r) (at_ + (r : Int) * pitch) (at_ + (rows : Int) * pitch) r

/-! ## A pass (R284, R302) -/

/-- The blocks of the adapter table that a pass streams: rows, the last column, and the plane's addresses; the whole
pass for MXGO. -/
def MRun.rows (m : MRun) (t : List (BitVec 128)) (grouped : Bool) : Nat × Nat × Nat :=
  if grouped then
    let b := m.adapter.getD m.block []
    (b.getD 0 0, b.getD 1 0, b.getD 2 0)
  else (0, tabNrow t, 127)

/-- The plane's source and scales for the pass (R290, R302). -/
def MRun.planeAt (m : MRun) (t : List (BitVec 128)) (grouped : Bool) : W64 × W64 :=
  let off := nestOff (lvBstr t) m.idx
  let b := m.adapter.getD m.block []
  let w : Int := if grouped then b.getD 3 0 else tabBbase t
  let sc : Int := if grouped then b.getD 4 0 else tabSb t
  (w64 (wrapTo 64 (w + off)), w64 (wrapTo 64 (sc + off / pairQb (tabPair t))))

/-- One row of U after a row of activations has streamed past a plane (R284, R302). -/
def streamRow (p : Nat) (w : Int) (xs : List (Num × Nat)) (plane : List (List (Num × Nat))) (cols : Nat)
    (old : List Acc) : List Acc :=
  (old.zipIdx).map fun (acc, n) =>
    if cols < n then acc
    else (xs.zip plane).foldl (fun a (x, prow) =>
      let y := prow.getD n (.fin false 0 0, 0)
      a.add w (pairProduct p x.1 x.2 y.1 y.2)) acc

/-- A bank with consecutive rows replaced. -/
def putRows (b : Table Acc) (r0 : Nat) (rows : List (List Acc)) : Table Acc :=
  let new := (rows.zipIdx).flatMap fun (row, i) => (row.zipIdx).map fun (x, n) => (128 * (r0 + i) + n, x)
  let hi := 128 * (r0 + rows.length)
  (b.filter fun e => decide (e.1 < 128 * r0)) ++ new ++ b.filter fun e => decide (hi ≤ e.1)

/-! ## The engine's steps -/

/-- Whether an entry is a nest, and whether it is grouped. -/
def nestKind (i : Instr) : Option Bool :=
  match i with
  | .mxgo => some false
  | .mxgog => some true
  | _ => none

/-- An entry stops with a trap (R298): the slot's entries behind it in the queue are removed. -/
def State.stopMx (s : State) (g : Nat) (q : QRec) (c : Cause) (tval : W64) : State :=
  let s1 := s.modCore g fun x => { x with mq := x.mq.keep fun z => z.uid != q.uid, mrun := none }
  s1.pendTrap ⟨g, q.slot⟩ (q.report .mx c tval)

/-- The oldest entry's record has been spoiled: it ends its task (R348). -/
def State.badMx (s : State) (g : Nat) (q : QRec) : CStep :=
  let (v, s1) := s.freeAs ⟨g, q.slot⟩ 4 q.ord
  .go (s1.stopMx g q .uncorrectable v)

/-- A step of the oldest entry, applied; an entry that first stalls has started. -/
def State.mxStep (s : State) (g : Nat) (q : QRec) (x : CStep) : Option State :=
  match x with
  | .go s1 => some (s1.doneHost ⟨g, q.slot⟩ 3)
  | .trap c va s1 => some (s1.stopMx g q c (w64 va))
  | .park va entry => some (s.parkRec g .mx q.idx (w64 va) entry)
  | .stall _ =>
    if q.st = .queued then some (s.modCore g fun c => c.modRec .mx q.idx fun z => { z with st := .running }) else none
  | .away loc unit => s.askOnce ⟨g, q.slot⟩ unit loc

/-- The oldest entry ends. -/
def Core.popMx (c : Core) : Core := { c with mq := c.mq.pop, mrun := none }

/-- The oldest entry has started, with the engine's internal state. -/
def Core.startMx (c : Core) (q : QRec) (m : Option MRun) : Core :=
  { c.modRec .mx q.idx (fun z => { z with st := .running, started := true, park := none }) with mrun := m }

/-- Whether a table entry of MXGOG breaks R301, given the first row it may start at. -/
def adapterBad (t : List (BitVec 128)) : Nat → List (List Nat) → Bool
  | _, [] => false
  | lo, b :: bs =>
    let r0 := b.getD 0 0
    let n := b.getD 1 0
    b.getD 5 0 != 0 || decide (r0 < lo) || n == 0 || n % (8 * 2 ^ tabGrb t) != 0 || decide (tabNrow t < r0 + n) ||
    b.getD 3 0 % 64 != 0 || (tabScl t && b.getD 4 0 % 4 != 0) || adapterBad t (r0 + n) bs

/-- The start of a nest (R286, R295, R301, R304). It becomes the core's latest nest before its adapter table is read
(R313). -/
def State.startNest (s : State) (g : Nat) (q : QRec) (grouped : Bool) : CStep :=
  let r : SlotRef := ⟨g, q.slot⟩
  let t := q.table
  let c := s.core g
  let s0 := s.modCore g fun c =>
    { c with nestRun := true, nestMark := q.mark, nestAnchor := BitVec.ofInt 16 (tabAnch t) }
  let begin := fun (blocks : List (List Nat)) (s : State) =>
    let fresh := !(markValid q.mark)
    let m : MRun := { idx := q.firstIdx, loaded := tabHold t, passed := false, block := 0,
                      u := if fresh && tabKeep t then c.committed else [], adapter := blocks }
    CStep.go (if nestOver t m.idx then s.modCore g Core.popMx else s.modCore g fun c => c.startMx q (some m))
  if grouped then
    s0.mxRead r (tabGbase t) (32 * (tabNblk t + 1)) fun bs s1 =>
      let blocks := parseAdapter bs (tabNblk t + 1)
      if adapterBad t 0 blocks then .go (s1.stopMx g q .mxSpec 9) else begin blocks s1
  else begin [] s0

/-- What the engine does with the oldest entry when it starts it, or starts it anew after a reset (R295, R304, R305, R348);
none where it can do nothing. -/
def State.mxStartStep (s : State) (g : Nat) : Option (QRec × CStep) :=
  let c := s.core g
  match c.mq.recs with
  | [] => none
  | q :: _ =>
    let r : SlotRef := ⟨g, q.slot⟩
    if c.saving || c.paused q.uid || c.mrun.isSome || q.park.isSome then none
    else if q.bad then some (q, s.badMx g q)
    else match q.instr with
      | .toksig _ t => some (q, .go ((s.modCore g Core.popMx).modSlot r (·.tokenUp t)))
      | .tokwait _ t =>
        if (s.slotAt r).token t = 0 then none else some (q, .go ((s.modCore g Core.popMx).modSlot r (·.tokenDown t)))
      | .mxswp => some (q, .go (s.modCore g fun c => { c with active := c.shadow, shadow := c.active }.popMx))
      | .mxclr => some (q, .go (s.modCore g fun c => (c.setCommitted []).popMx))
      | .mxmrk a b =>
        let v := if c.nestRun then c.nestMark else 0
        some (q, .go ((s.modCore g Core.popMx).modSlot r fun l =>
          (l.wx a (w64 (bits v 63 0))).wx b (w64 (bits v 127 64))))
      | .mxsta _ _ n f =>
        let w : Int := if c.nestRun then signedOf 16 c.nestAnchor.toNat else 0
        let pieces := bankPieces c.committed f.toNat w (n.toNat + 1) (q.op 0).toNat (signedOf 64 (q.op 1).toNat)
        some (q, s.mxWrite r q.ord [] pieces fun s1 => .go (s1.modCore g Core.popMx))
      | .mxldw .. | .mxldwScaled .. =>
        some (q, .go (s.modCore g fun c =>
          c.startMx q (some { idx := [], loaded := false, passed := false, block := 0, u := [], adapter := [] })))
      | i => (nestKind i).map fun grouped => (q, s.startNest g q grouped)

/-- A step of the oldest entry applied. -/
def State.mxGo (s : State) (g : Nat) (x : Option (QRec × CStep)) : Option State := x.bind fun y => s.mxStep g y.1 y.2

/-- The engine starts the oldest entry. -/
def State.mxStart (s : State) (g : Nat) : Option State := s.mxGo g (s.mxStartStep g)

/-- A plane reloaded from its recorded source (R295). -/
def State.reloadPlane (s : State) (g : Nat) (q : QRec) (pl : Plane) (put : Core → Plane → Core) : CStep :=
  s.readPlane ⟨g, q.slot⟩ pl.pair.toNat pl.src pl.scaled pl.scaleSrc fun p s1 => .go (s1.modCore g fun c => put c p)

/-- The engine's state as the plane load ahead sees it: while a commit is due, the plane is that of the pass after it
(R290, R304). -/
def MRun.ahead (m : MRun) (t : List (BitVec 128)) : MRun :=
  if m.passed then { m with idx := nextIdx t m.idx, block := 0 } else m

/-- The plane load that is due (R290, R295, R303, R308): a reload of a stale plane first, then the plane of MXLDW or of the
next pass, which loads while the pass before it runs and is not held by that pass's commit. -/
def State.mxLoadStep (s : State) (g : Nat) : Option (QRec × CStep) :=
  let c := s.core g
  match c.mq.recs, c.mrun with
  | q :: _, some m =>
    if c.saving || c.paused q.uid || q.park.isSome then none
    else if q.bad then some (q, s.badMx g q)
    else
    let r : SlotRef := ⟨g, q.slot⟩
    let nest := nestKind q.instr
    if nest.isSome && c.active.stale then
      some (q, s.reloadPlane g q c.active fun c p => { c with active := p })
    else if nest.isSome && c.shadow.stale then
      some (q, s.reloadPlane g q c.shadow fun c p => { c with shadow := p })
    else match q.instr with
      | .mxldw _ p =>
        some (q, s.readPlane r p.toNat (q.op 0) false 0 fun pl s1 =>
          .go (s1.modCore g fun c => { c with shadow := pl }.popMx))
      | .mxldwScaled _ _ p =>
        some (q, s.readPlane r p.toNat (q.op 0) true (q.op 1) fun pl s1 =>
          .go (s1.modCore g fun c => { c with shadow := pl }.popMx))
      | _ =>
        match nest with
        | none => none
        | some grouped =>
          let a := m.ahead q.table
          if m.loaded || nestOver q.table a.idx then none else
          let (src, sc) := a.planeAt q.table grouped
          some (q, s.readPlane r (tabPair q.table) src (tabScl q.table) sc fun pl s1 =>
            .go (s1.modCore g fun c => { c with shadow := pl, mrun := some { m with loaded := true } }))
  | _, _ => none

/-- A plane load completes. -/
def State.mxLoad (s : State) (g : Nat) : Option State := s.mxGo g (s.mxLoadStep g)

/-- Whether a core owns the current cycle (R299, R300). -/
def State.ownsWindow (s : State) (g lvl : Nat) : Bool :=
  let c := s.core g
  bitOf c.mxw 2 || (s.cycleOf g lvl).toNat / (16 * 2 ^ bits c.mxw 1 0) % 2 == g % 2

/-- The engine's state after a pass or a block: the next block, the commit, or the next pass (R290, R302). -/
def MRun.afterPass (m : MRun) (t : List (BitVec 128)) (grouped : Bool) (u : Table Acc) : MRun :=
  if grouped && decide (m.block + 1 < m.adapter.length) then
    { m with u := u, block := m.block + 1, loaded := tabHold t }
  else if commitsAt t m.idx then { m with u := u, passed := true, loaded := tabHold t }
  else { m with u := u, idx := nextIdx t m.idx, block := 0, loaded := tabHold t }

/-- The pass, or the block of one, that is due: it streams its rows past the active plane after the swap (R284, R290, R302). -/
def State.mxPassStep (s : State) (g : Nat) : Option (QRec × CStep) :=
  let c := s.core g
  match c.mq.recs, c.mrun with
  | q :: _, some m =>
    match nestKind q.instr with
    | none => none
    | some grouped =>
      let t := q.table
      if c.saving || c.paused q.uid || q.park.isSome || !m.loaded || m.passed || c.active.stale || c.shadow.stale ||
          !(s.ownsWindow g q.det.toNat) then none
      else if q.bad then some (q, s.badMx g q)
      else
      let p := tabPair t
      let (r0, n, cols) := m.rows t grouped
      let offA := nestOff (lvAstr t) m.idx
      let rel := (List.range n).map fun (i : Nat) => offA + ((r0 + i : Nat) : Int) * lvAstr t 0
      let stream := fun (rows scs : List (List Byte)) (s1 : State) =>
        let pl := if tabHold t then (s1.core g).active else (s1.core g).shadow
        let plane := (List.range (pairKp p)).map fun k => pl.row p (tabScl t) k
        let new := (rows.zipIdx).map fun (bs, i) =>
          let xs := (List.range (pairKp p)).map fun k =>
            (pairElem p false (elemAt (pairAbits p) k bs),
             if tabScl t then ((scs.getD i []).getD (k / 32) 0).toNat else 0)
          streamRow p (tabAnch t) xs plane cols (bankRow m.u (r0 + i))
        CStep.go (s1.modCore g fun c =>
          let c1 := if tabHold t then c else { c with active := c.shadow, shadow := c.active }
          { c1 with mrun := some (m.afterPass t grouped (putRows m.u r0 new)) })
      some (q, s.mxReadRows ⟨g, q.slot⟩ (pairRowBytes p) (rel.map fun o => tabAbase t + o) fun rows s1 =>
        if tabScl t then
          s1.mxReadRows ⟨g, q.slot⟩ (pairKp p / 32) (rel.map fun o => tabSa t + o / pairQa p) fun scs s2 => stream rows scs s2
        else stream rows [] s1)
  | _, _ => none

/-- A pass is made. -/
def State.mxPass (s : State) (g : Nat) : Option State := s.mxGo g (s.mxPassStep g)

/-- The commit that is due (R292): U is stored and becomes the committed bank, the mark is written, the former committed bank is
cleared; the entry ends with its last commit (R304). The load of the next pass's plane has started by then: the commit
comes after it where it makes progress. -/
def State.mxCommitStep (s : State) (g : Nat) : Option (QRec × CStep) :=
  let c := s.core g
  match c.mq.recs, c.mrun with
  | q :: _, some m =>
    if c.saving || c.paused q.uid || q.park.isSome || !m.passed || (s.mxLoad g).isSome then none
    else if q.bad then some (q, s.badMx g q)
    else
    let t := q.table
    let pieces := if tabOut t = 0 then [] else
      bankPieces m.u (tabOut t) (tabAnch t) (tabRpb t + 1) (tabCbase t + nestOff (lvCstr t) m.idx) (lvCstr t 0)
    let next := nextIdx t m.idx
    let bank := !c.upperCommitted
    let mark := mkMark next (markCommits q.mark + 1) true bank
    let commit := fun (s1 : State) => CStep.go (s1.modCore g fun c =>
      let c1 := { c with upperCommitted := bank, upper := if bank then m.u else [], lower := if bank then [] else m.u,
                         nestMark := mark }
      let c2 := c1.modRec .mx q.idx fun z => { z with mark := mark, park := none }
      if nestOver t next then c2.popMx
      else { c2 with mrun := some { m with idx := next, passed := false, block := 0, u := [] } })
    some (q, s.mxWrite ⟨g, q.slot⟩ q.ord [] pieces commit)
  | _, _ => none

/-- A commit is made. -/
def State.mxCommit (s : State) (g : Nat) : Option State := s.mxGo g (s.mxCommitStep g)

/-- Whether the oldest entry waits on a watermark, on a park, on a token or for its window (R299, R351). -/
def State.mxHeld (s : State) (g : Nat) : Bool :=
  let c := s.core g
  let due := fun (x : Option (QRec × CStep)) => match x with | some y => y.2.waits | none => false
  match c.mq.recs with
  | [] => false
  | q :: _ =>
    q.park.isSome ||
    (match q.instr with | .tokwait _ t => (s.slotAt ⟨g, q.slot⟩).token t == 0 | _ => false) ||
    due (s.mxStartStep g) || due (s.mxLoadStep g) || due (s.mxPassStep g) || due (s.mxCommitStep g) ||
    (match c.mrun with | some m => m.loaded && !m.passed && !(s.ownsWindow g q.det.toNat) | none => false)

/-- MATRIX_ENTRY_START (R304). -/
def execMatrixEntryStart (core : Nat) (s : State) : Out := engineEvent 2 State.mxStart core s
/-- PLANE_LOAD_DONE (R303). -/
def execPlaneLoadDone (core : Nat) (s : State) : Out := engineEvent 2 State.mxLoad core s
/-- MATRIX_PASS (R290). -/
def execMatrixPass (core : Nat) (s : State) : Out := engineEvent 2 State.mxPass core s
/-- MATRIX_COMMIT (R292). -/
def execMatrixCommit (core : Nat) (s : State) : Out := engineEvent 2 State.mxCommit core s

end Sys2Proof.Machine
end

