-- ==== Sys2Proof/Machine/Parks.lean ====
section
/-! DEFINITION. Parked accesses (R87 to R89), the stop of a task without moving it (R93, R371), and shootdowns (R91 to
R93). -/

namespace Sys2Proof.Machine

/-! ## Parks (R87 to R89) -/

/-- The engine queue of a name. -/
def whichOf (e : EngId) : Which :=
  match e with
  | .vec => .vec
  | .copy => .copy
  | .mx => .mx

/-- The parks of an owner with the slot and, for an engine, the record. -/
def State.parksOf (s : State) (g : Nat) (o : ParkOwner) : List (Fin 4 × Option Nat × Park) :=
  let c := s.core g
  match o with
  | .slot k =>
    let r := slotRef g k
    (match (s.slotAt r).park with
     | some p => [(r.slot, none, p)]
     | none => [])
  | .engine e => (c.queue (whichOf e)).recs.filterMap fun q => q.park.map fun p => (q.slot, some q.idx, p)

/-- A park of an owner replaced. -/
def State.setPark (s : State) (g : Nat) (o : ParkOwner) (slot : Fin 4) (idx : Option Nat) (p : Option Park) : State :=
  match o, idx with
  | .engine e, some i => s.modCore g fun c => c.modRec (whichOf e) i fun q => { q with park := p }
  | _, _ => s.modSlot ⟨g, slot⟩ fun l => { l with park := p }

/-- Whether a write has reached the line of the entry that a park's monitor watches (R87). -/
def State.lineHit (s : State) (p : Park) : Bool := s.armed.any fun a => a.1 == p.entry && a.2

/-- Whether the walker walks again for a park (R87): a write has reached its monitor's line; or the park takes a monitor
now, because one for its entry is armed or because one is free and no park has waited longer, and the entry is read again
after the arming. -/
def State.walksAgain (s : State) (g : Nat) (p : Park) : Bool :=
  if p.monitored then s.lineHit p
  else
    let ms := s.monitors (clusterOf g)
    ms.contains p.entry || (decide (ms.length < 64) &&
      (s.parksIn (clusterOf g)).all fun y => y.monitored || decide (p.order ≤ y.order))

/-- An access parks again on an invalid entry, after the parks that wait already; its limit runs on (R87). -/
def State.parkAgain (s : State) (g : Nat) (o : ParkOwner) (slot : Fin 4) (idx : Option Nat) (p : Park) (entry : Nat) :
    State :=
  let s1 := s.setPark g o slot idx none
  let p1 : Park := { s1.newPark g p.addr entry with since := p.since, expired := p.expired }
  (s1.arm p1).setPark g o slot idx (some p1)

/-- The walker walks again for a park of an owner: the access goes on where the entry has become valid, and parks again
where it meets an invalid one (R87). None where no park has anything new. -/
def State.parkWake (s : State) (g : Nat) (o : ParkOwner) : Option State :=
  (s.parksOf g o).findSome? fun (k, idx, p) =>
    if !(s.walksAgain g p) then none
    else match s.walk (s.queueOf ⟨g, k⟩).troot p.addr.toNat with
      | .ok .. => some (s.setPark g o k idx none)
      | .invalid entry => some (s.parkAgain g o k idx p entry)

/-- PARK_WAKE (R87). -/
def execParkWake (core : Nat) (owner : ParkOwner) (s : State) : Out := occurs (s.parkWake core owner) s

/-- The word at a slot's pc as its fetch would return it; a free value where its page cannot be read now
(assumption 2). -/
def State.wordAt (s : State) (r : SlotRef) : W32 × State :=
  let a := (s.slotAt r).pc.toNat
  match s.walk (s.queueOf r).troot a with
  | .ok e _ _ pages =>
    let pa := ptePa e pages a
    (BitVec.ofNat 32 (natOfBytes ((List.range 4).map fun j => s.fetchByte r (pa + j))), s)
  | .invalid _ =>
    let (v, s1) := s.freeFor r false
    (v.setWidth 32, s1)

/-- A park that has lasted its limit raises PARK_TIMEOUT (R88, R89): precise at the parked instruction, or pending in
the slot of an engine's entry, which stays parked. None while no limit has passed, or while another trap of the entry's queue is
pending in the slot, which holds one of each queue (R367). -/
def State.parkTimeout (s : State) (g : Nat) (o : ParkOwner) : Option State :=
  (s.parksOf g o).findSome? fun (k, idx, p) =>
    let r : SlotRef := ⟨g, k⟩
    let limit := bits (s.slotAt r).parklim 15 0 * 1024
    if p.expired || decide (s.refclk - p.since < limit) then none else
    match o, idx with
    | .engine e, some i =>
      if (s.slotAt r).engTraps.any fun x => x.orig == (whichOf e).orig then none else
      ((s.core g).queue (whichOf e)).recs.find? (fun q => q.idx == i) |>.map fun q =>
        (s.setPark g o k idx (some { p with expired := true })).pendTrap r (q.report (whichOf e) .parkTimeout p.addr)
    | _, _ =>
      let (w, s1) := s.wordAt r
      some (s1.takeTrap r { cause := .parkTimeout, tval := p.addr, word := w, qent := 0, orig := 0 }
        (s.slotAt r).trapPc)

/-- PARK_TIMEOUT (R89). -/
def execParkTimeout (core : Nat) (owner : ParkOwner) (s : State) : Out := occurs (s.parkTimeout core owner) s

/-! ## Stopping a task at an instruction boundary (R93, R244, R371) -/

/-- Whether a slot stands where it can be stopped: at an instruction boundary, or at an access that is parked or stalled,
which is abandoned with its prefix chain (R94, R138, R175), while a prefixed instruction that has not issued holds the stop up
(R138); and with no operation on its way that R244 does not abandon. A
SEM.WAIT at another device can be abandoned once it has been withdrawn there. -/
def Slot.atBoundary (l : Slot) : Bool :=
  (l.pfx.isEmpty || (l.stalled && l.stall == .access) || l.park.isSome) && (match l.wait with
    | .sem _ true => l.away.isNone
    | .run | .bar .. | .barDone .. | .gang true | .joining _ => true
    | _ => false)

/-- A stopped slot: its wait is abandoned and its instruction issued again, but a BAR's arrival and a join at admission
stay; a parked or stalled access is abandoned, from the first word of its chain on; the latches are lost (R93, R94, R175,
R244). -/
def Slot.halt (l : Slot) : Slot :=
  { l with
    pc := l.trapPc
    pfx := []
    wait := (match l.wait with | .sem .. | .gang _ => .run | w => w)
    park := none
    stalled := false
    pushes := 0 }

/-- An engine entry back at its mark (R280, R295, R329). -/
def QRec.backToMark (q : QRec) : QRec :=
  { q with row := q.mrow, off := q.moff, carry := [], park := none }
/-- An engine entry stopped with its mark written where it stands (R339). -/
def QRec.stopAtMark (q : QRec) : QRec :=
  { q with mrow := q.row, moff := q.off, carry := [], park := none }

/-- A core whose engine entries of a task have stopped at their marks: the vector entry in flight runs again, copies go
on from where they stand, the matrix entry's bank U is gone (R93, R339, R371). -/
def Core.haltWork (c : Core) (uid : Nat) : Core :=
  let mine := fun (q : EngQ) => match q.recs with | r :: _ => r.uid == uid | [] => false
  let back := fun (q : EngQ) => { q with recs := q.recs.map fun r => if r.uid == uid then r.stopAtMark else r }
  { c with
    vq := back c.vq
    cq := back c.cq
    mq := back c.mq
    vrun := if mine c.vq then none else c.vrun
    mrun := if mine c.mq then none else c.mrun
    active := if mine c.mq && c.active.has then { c.active with stale := true } else c.active
    shadow := if mine c.mq && c.shadow.has then { c.shadow with stale := true } else c.shadow }

/-- The stop of the task of a slot in place. -/
def State.haltTask (s : State) (r : SlotRef) : State :=
  let u := (s.slotAt r).uid
  (((s.dropHost u).withdraw u).modSlot r Slot.halt).modCore r.core (·.haltWork u)

/-! ## Shootdowns (R91 to R93) -/

/-- Whether a page of a range has a mapping with PIN set (R91). -/
def State.rangePinned (s : State) (root base : W64) (pages : Nat) : Bool :=
  (List.range pages).any fun k =>
    match s.walk root (base.toNat + 65536 * k) with
    | .ok e .. => bitOf e 6
    | .invalid _ => false

/-- A core that has the shootdown posted: each task now in a slot must reach a quiescent point, but for the tasks of a
D2 context (R92). -/
def State.postShoot (s : State) (g : Nat) (base : W64) (pages : Nat) : State :=
  let c := s.core g
  let d2 := c.slots.toList.any fun l => l.occ && (s.launch l.launch).det == 2
  let lag := if d2 then [] else (c.slots.toList.filter fun l => l.occ).map fun l => l.uid
  s.modCore g fun c => { c with shoots := c.shoots ++
    [{ base := base, pages := pages, since := s.refclk, lagging := lag, stopped := [] }] }

/-- Flambeol posts a shootdown to the cores of a context; while a mapping of the range is pinned it waits at Flambeol
(R91). None where the one asked for waits there already. -/
def State.shootdown (s : State) (q : Nat) (base : W64) (pages : Nat) : Option State :=
  if s.rangePinned (s.queue q).troot base pages then
    if s.shootReqs.contains (q, base, pages) then none
    else some { s with shootReqs := s.shootReqs ++ [(q, base, pages)] }
  else
    let s1 : State := { s with shootReqs := s.shootReqs.erase (q, base, pages) }
    some ((s1.cores.filter fun (_, c) => c.context == some q).foldl (fun s (g, _) => s.postShoot g base pages) s1)

/-- SHOOTDOWN (R92). -/
def execShootdown (q : Nat) (base : BitVec 64) (pages : Nat) (s : State) : Out := occurs (s.shootdown q base pages) s

/-- Whether a translation covers a page of a range. -/
def TlbEntry.touches (t : TlbEntry) (x : Shoot) : Bool :=
  let b := x.base.toNat / 65536 % 2 ^ 39
  decide (t.vpn < b + x.pages ∧ b < t.vpn + t.pages)

/-- Whether a location lies in a physical page that a range maps in a core's TLB. -/
def Core.mapsTo (c : Core) (x : Shoot) (loc : Nat) : Bool :=
  c.tlb.any fun t => t.touches x &&
    (List.range x.pages).any fun k =>
      let v := x.base.toNat / 65536 % 2 ^ 39 + k
      decide (t.vpn ≤ v ∧ v < t.vpn + t.pages) && loc / 65536 == ptePa t.pte t.pages (65536 * v) / 65536

/-- The core acknowledges the first shootdown that every lagging task has passed: its pool-cache lines of the pages that the
range maps are written back to their homes, its TLB entries of the range go, and the tasks it has stopped go on (R76, R92,
R93). -/
def State.shootAck (s : State) (g : Nat) : Option State :=
  (((s.core g).shoots.find? fun x => x.lagging.isEmpty)).map fun x =>
    (s.flushBy fun o => o.eng.isNone && o.sees g && (s.core g).mapsTo x o.loc).modCore g fun c => { c with tlb := c.tlb.filter fun t => !(t.touches x), shoots := c.shoots.erase x }

/-- SHOOTDOWN_ACK (R92). -/
def execShootdownAck (core : Nat) (s : State) : Out := occurs (s.shootAck core) s

/-- Whether a slot's SEM.WAIT at another device has still to be withdrawn there (R244). -/
def Slot.needsCancel (l : Slot) : Bool := l.away.isSome && !l.cancelled

/-- The lagging tasks of a core's overdue shootdowns (R93). -/
def State.lateTasks (s : State) (g : Nat) : List Nat :=
  (((s.core g).shoots.filter fun x => decide (800 * s.shootWait ≤ s.refclk - x.since)).flatMap fun x => x.lagging).eraseDups

/-- A shootdown has stopped a task: it no longer lags, and is held until the acknowledgement (R93). -/
def Shoot.stop (x : Shoot) (u : Nat) : Shoot :=
  if x.lagging.contains u then { x with lagging := x.lagging.filter (· != u), stopped := x.stopped ++ [u] } else x

/-- SHOOT_WAIT has passed: each lagging task stops in place at its own next instruction boundary, which is a quiescent
point (R93). None where no task that lags stands at one. -/
def State.shootExpire (s : State) (g : Nat) : Option State :=
  let us := s.lateTasks g
  let refs := (([0, 1, 2, 3] : List (Fin 4)).map fun k => (⟨g, k⟩ : SlotRef)).filter fun r =>
    (s.slotAt r).occ && us.contains (s.slotAt r).uid
  let here := refs.filter fun r => (s.slotAt r).atBoundary
  let away := refs.filter fun r => (s.slotAt r).needsCancel
  if here.isEmpty && away.isEmpty then none
  else
    let s1 := away.foldl (fun s r => s.cancelAway r) s
    some (here.foldl (fun s r =>
      let u := (s.slotAt r).uid
      (s.haltTask r).modCore g fun c => { c with shoots := c.shoots.map fun x => x.stop u }) s1)

/-- SHOOT_WAIT_EXPIRY (R93). -/
def execShootWaitExpiry (core : Nat) (s : State) : Out := occurs (s.shootExpire core) s

end Sys2Proof.Machine
end

