-- ==== Sys2Proof/Machine/Scheduler.lean ====
section
/-! DEFINITION. The die schedulers: the admission of launches (R34 to R40, R84, R85, R390, R428), the placement of tasks
(R27 to R29, R40 to R42, R63, R299, R402), launch phases (R43, R46), spill queues (R48) and the end of a launch
(R38). -/

namespace Sys2Proof.Machine

/-! ## Descriptors (R34, R35) -/

/-- The sixteen words of a descriptor, read as firmware; none where a byte cannot be read. -/
def State.descWords (s : State) (root desc : W64) : Option (List W64) :=
  (s.fwRead root desc.toNat 128).map fun n => (List.range 16).map fun k => w64 (n / 2 ^ (64 * k))

/-- NENT, the number of entry points minus 1 (R35). -/
def cfgNent (c : W64) : Nat := bits c 35 34

/-- ERR 1: reserved bits, role 3, alignment, and the limits of R34 and R35 (R36). -/
def descBad1 (w : List W64) : Bool :=
  let c := w.getD 5 0
  let n := w.getD 8 0
  bits (w.getD 2 0) 63 32 != 0 || bits c 63 59 != 0 || bitOf c 30 || bitOf c 23 || bitOf c 15 || bitOf c 7 ||
  bits n 7 5 != 0 || bits n 31 16 != 0 || bits n 63 48 != 0 || bits (w.getD 12 0) 63 32 != 0 || w.getD 14 0 != 0 ||
  w.getD 15 0 != 0 ||
  ((List.range (cfgNent c + 1)).any fun k => bits c (37 + 2 * k) (36 + 2 * k) == 3) ||
  bits (w.getD 0 0) 1 0 != 0 || bits (w.getD 6 0) 1 0 != 0 || decide (16 < bits n 4 0) || decide (48 < bits c 29 24)

/-- ERR 2: the pool's boundaries (R36). -/
def descBad2 (c : W64) : Bool :=
  let b0 := bits c 6 0
  let b1 := bits c 14 8
  let b2 := bits c 22 16
  !(decide (b0 ≤ b1 ∧ b1 ≤ b2 ∧ b2 ≤ 64)) || decide (b0 * 16384 < 32768 + 4 * (bits c 29 24 * 512 + 1024))

/-- The task count, or none for ERR 5 (R36, R39). -/
def State.descCount (s : State) (root : W64) (w : List W64) : Option Nat :=
  let a := w.getD 3 0
  if a = 0 then some (bits (w.getD 2 0) 31 0)
  else if a.toNat % 8 ≠ 0 then none
  else match s.fwRead root a.toNat 8 with
    | some v => if v / 2 ^ 32 = 0 then some v else none
    | none => none

/-- The phase table: first task and count of each phase; none where it cannot be read. With NPHASE 0 all tasks form one
phase (R43). -/
def State.descPhases (s : State) (root : W64) (w : List W64) (count : Nat) : Option (List (Nat × Nat)) :=
  let n := bits (w.getD 8 0) 15 8
  if n = 0 then some [(0, count)] else
  (s.fwRead root (w.getD 9 0).toNat (8 * n)).map fun v =>
    (List.range n).map fun p => (v / 2 ^ (64 * p) % 2 ^ 32, v / 2 ^ (64 * p + 32) % 2 ^ 32)

/-- Whether phases cover tasks 0 to N - 1 exactly once in ascending order (R36). -/
def phasesCover : Nat → List (Nat × Nat) → Nat → Bool
  | at_, [], n => at_ == n
  | at_, (f, c) :: ps, n => f == at_ && phasesCover (at_ + c) ps n

/-- The launch that a descriptor describes (R34, R35). -/
def Launch.ofDesc (l : Launch) (w : List W64) : Launch :=
  let c := w.getD 5 0
  let n := w.getD 8 0
  { l with
    prog := w.getD 0 0
    args := w.getD 1 0
    tvec := w.getD 6 0
    entries := (List.range 4).map fun k => BitVec.ofNat 16 (bits (w.getD 4 0) (16 * k + 15) (16 * k))
    nent := cfgNent c
    roles := (List.range 4).map fun k => BitVec.ofNat 2 (bits c (37 + 2 * k) (36 + 2 * k))
    vregs := bits c 29 24
    b0 := BitVec.ofNat 7 (bits c 6 0)
    b1 := BitVec.ofNat 7 (bits c 14 8)
    b2 := BitVec.ofNat 7 (bits c 22 16)
    det := BitVec.ofNat 2 (bits c 33 32)
    cgran := bitOf c 31
    mindie := bits c 46 44
    maxdie := bits c 49 47
    gpol := bitOf c 50
    prio := BitVec.ofNat 8 (bits c 58 51)
    ntcb := bits n 47 32
    tcbs := w.getD 10 0
    spill := w.getD 11 0
    spillcap := bits (w.getD 12 0) 31 0
    status := w.getD 13 0 }

/-! ## Leases (R83 to R85) -/

/-- The entries of the lease table; none where the table is at fault (R84), which a misaligned address makes it even with no
entry. -/
def State.descLeases (s : State) (root : W64) (w : List W64) (det : Nat) : Option (List Lease) :=
  let n := bits (w.getD 8 0) 4 0
  let a := (w.getD 7 0).toNat
  if a % 16 ≠ 0 then none
  else if n = 0 then some []
  else match s.fwRead root a (16 * n) with
    | none => none
    | some v =>
      let es := (List.range n).map fun k => (w64 (v / 2 ^ (128 * k)), w64 (v / 2 ^ (128 * k + 64)))
      let bad := es.any fun (b, p) => bits b 15 0 != 0 || !(canonical b.toNat) || bits p 63 35 != 0 || bits p 31 0 == 0 ||
        (bitOf p 34 && det == 2)
      if bad then none
      else some (es.map fun (b, p) =>
        { base := b, pages := bits p 31 0, lw := bitOf p 32, lx := bitOf p 33, demand := bitOf p 34 })

/-- The translations of the pages of a lease, from a page on; none while a page is invalid or lacks a permission that
the lease grants, which its bits LW and LX do (R83, R85). -/
def State.leasePages (s : State) (root : W64) (l : Lease) : Nat → Nat → List TlbEntry → Option (List TlbEntry)
  | 0, _, acc => some acc
  | n + 1, k, acc =>
    if l.pages ≤ k then some acc else
    match s.walk root (l.base.toNat + 65536 * k) with
    | .invalid _ => none
    | .ok e at_ vpn pages =>
      if (l.lw && !(bitOf e 2)) || (l.lx && !(bitOf e 3)) then none
      else
        let t : TlbEntry := { vpn := vpn, pages := pages, pte := e ||| 0x40, pteAt := at_ }
        s.leasePages root l n (Nat.max (k + 1) (k + pages - (l.base.toNat / 65536 + k) % pages))
          (if acc.any (fun x => x.pteAt == at_ && x.vpn == vpn) then acc else acc ++ [t])

/-- The translations of every lease that is not a demand lease; none while a page is missing. -/
def State.residentPages (s : State) (root : W64) : List Lease → List TlbEntry → Option (List TlbEntry)
  | [], acc => some acc
  | l :: ls, acc =>
    if l.demand then s.residentPages root ls acc
    else match s.leasePages root l l.pages 0 acc with
      | some a => s.residentPages root ls a
      | none => none

/-- ERR 11: a lease that maps far memory or the host window in reduced service (R428). -/
def State.leaseService (s : State) (root : W64) (l : Lease) : Bool :=
  (List.range l.pages).any fun k =>
    match s.walk root (l.base.toNat + 65536 * k) with
    | .ok e .. => bits e 8 7 != 0
    | .invalid _ => false

/-! ## Dies and slots -/

/-- The dies on which a launch of a queue can run now (R378, R413, R428). -/
def State.diesFor (s : State) (q det : Nat) : List Nat :=
  (s.queue q).dieList.filter fun d =>
    !(s.dieRetired d) && (s.service != 1 || d == 0) && (if det = 2 then s.dieFree d q else (s.die d).d2.isNone)

/-- The mask of some dies. -/
def maskOfDies (ds : List Nat) : BitVec 8 := ds.foldl (fun m d => m ||| (1#8 <<< d)) 0

/-- The slots that R390 counts on some dies. -/
def State.slotCount (s : State) (q : Nat) (ds : List Nat) : Nat :=
  ds.foldl (fun a d =>
    a + ((List.range 24).filter fun k => !(s.cluster (24 * d + k)).retired).length * (if (s.queue q).excl then 8 else 16)) 0

/-- A core without a task. -/
def Core.empty (c : Core) : Bool := c.slots.toList.all fun l => !l.occ && !l.held

/-- MXWMODE of a context (R299). -/
def Queue.mxw (u : Queue) : BitVec 3 := BitVec.ofNat 3 (u.ws.toNat + b2n u.excl * 4)

/-- Whether a disabled pool line of a core lies where a launch needs its pool (R402). -/
def State.linesOk (s : State) (g : Nat) (l : Launch) : Bool :=
  s.flashLines.all fun (c, n) =>
    c != g || decide (l.b1.toNat * 128 ≤ n ∧ n < l.b2.toNat * 128)

/-- Whether the scheduler may place a task of a launch on a core (R24, R28, R63, R299, R378, R402, R404). -/
def State.coreFits (s : State) (g : Nat) (l : Launch) : Bool :=
  let c := s.core g
  let u := s.queue l.queue
  let k := s.cluster (clusterOf g)
  let owner := (s.die (dieOf g)).d2
  !k.retired && k.test == .none && !c.saving && (owner.isNone || owner == some l.queue) &&
  (if c.empty then s.linesOk g l
   else c.context == some l.queue && c.b0 == l.b0 && c.b1 == l.b1 && c.b2 == l.b2 && c.vregs == l.vregs) &&
  ((c.empty && (s.core (pairOf g)).empty) || c.mxw == u.mxw) && !(u.excl && g % 2 == 1)

/-- A free slot of a core. -/
def Core.freeSlot (c : Core) : Option (Fin 4) :=
  ([0, 1, 2, 3] : List (Fin 4)).find? fun k => !(c.slot k).occ && !(c.slot k).held

/-- A core of a die with a free slot on which a task of a launch fits: the lowest such core without a task, else the lowest
one with a task. -/
def State.findCore (s : State) (d : Nat) (l : Launch) : Option Nat :=
  let gs := (List.range 96).map fun k => 96 * d + k
  let fits := fun (g : Nat) => s.coreFits g l && ((s.core g).freeSlot).isSome
  (gs.find? fun g => (s.core g).empty && fits g).orElse fun _ => gs.find? fits

/-- Where the scheduler places a task of a launch on a die: on such a core, in its lowest free slot (DESIGN CHOICE: R43
leaves the placement free). -/
def State.findSlot (s : State) (d : Nat) (l : Launch) : Option SlotRef :=
  (s.findCore d l).bind fun g => ((s.core g).freeSlot).map fun k => ⟨g, k⟩

/-! ## Starting a task -/

/-- A pool whose every byte is zero. -/
def State.clearPool (s : State) (g : Nat) : State :=
  let lo := poolLoc g 0
  let out := fun (n : Nat) => !(decide (lo ≤ n ∧ n < lo + 1048576))
  { s with
    mem := s.mem.filter fun c => out c.1
    overlay := s.overlay.filter fun o => out o.loc
    poison := s.poison.filter fun p => out (64 * p) }

/-- A pair whose two cores are both empty receives a task on one of them (R282, R299): the window mode of both is written,
and every plane is zero with scales 0x00. -/
def State.openPair (s : State) (g : Nat) (mxw : BitVec 3) : State :=
  if (s.core g).empty && (s.core (pairOf g)).empty then
    let f : Core → Core := fun c => { c with mxw := mxw, active := Plane.reset, shadow := Plane.reset }
    (s.modCore g f).modCore (pairOf g) f
  else s

/-- A core that receives its first task (R28, R62, R63, R79): the boundaries are written; the tag table and the pool are
kept only for the same context with the same boundaries; a core runs degraded only in reduced service (R64). -/
def State.openCore (s : State) (g : Nat) (l : Launch) : State :=
  let c := s.core g
  if !c.empty then s else
  let same := c.context == some l.queue && c.b0 == l.b0 && c.b1 == l.b1 && c.b2 == l.b2
  let s1 := if same then s else s.clearPool g
  (s1.openPair g (s.queue l.queue).mxw).modCore g fun c => { c with
    b0 := l.b0, b1 := l.b1, b2 := l.b2, vregs := l.vregs, context := some l.queue, pinned := []
    degraded := s.service == 1
    tags := if same then c.tags else []
    tlb := if c.context == some l.queue then c.tlb else [] }

/-- What a task starts from (R29, R233). -/
structure Start where
  num : W32
  pc : W64
  arg : W64
  role : Role
  prio : BitVec 8
  entry : BitVec 2
  origin : Origin
  gang : Option (BitVec 6)
  deriving DecidableEq, Repr

/-- A slot at its task's first instruction (R29), which issues no earlier than 16 cycles after the admission in D0 and
D1. -/
def Slot.start (st : Start) (n : Nat) (l : Launch) (uid : Nat) : Slot :=
  { Slot.reset with
    occ := true, uid := uid, launch := n, task := st.num, origin := st.origin
    startPc := st.pc, startArg := st.arg, startRole := st.role
    prio := st.prio, role := st.role, entry := st.entry, pc := st.pc, tvec := l.tvec
    yield := if l.det = 2 then 0 else 16
    x := Vector.ofFn fun k =>
      if k.val = 1 then st.arg else if k.val = 2 then st.num.setWidth 64 else if k.val = 3 then w64 l.count else 0 }

/-- A task is admitted to a slot: the core's translations of its launch are loaded (R85), and a join at admission goes to
the gang's home (R55). -/
def State.admitTask (s : State) (r : SlotRef) (n : Nat) (st : Start) : State :=
  let l := s.launch n
  let s1 := (s.openCore r.core l).modCluster (clusterOf r.core) fun k =>
    { k with placed := if k.placed.contains l.queue then k.placed else k.placed ++ [l.queue] }
  let s2 := s1.modCore r.core fun c => { c with tlb := (l.trans ++ c.tlb).eraseDups.take Config.tlbEntries }
  let s3 := ({ s2 with nextUid := s2.nextUid + 1 }).setSlot r (Slot.start st n l s2.nextUid)
  match st.gang with
  | none => s3
  | some g =>
    (s3.modSlot r fun x => { x with wait := .joining g }).postGang l.gangDie
      { kind := .enroll, launch := n, gang := g, core := r.core, slot := r.slot, uid := s2.nextUid
        due := s.refclk + wayCycles r.core l.gangDie }

/-- Task number t of a launch, admitted by the launch itself (R29). -/
def Launch.direct (l : Launch) (t : Nat) : Start :=
  let e := t % (l.nent + 1)
  { num := BitVec.ofNat 32 t, pc := l.prog + w64 (4 * (l.entries.getD e 0).toNat), arg := l.args,
    role := roleOf (l.roles.getD e 0).toNat, prio := l.prio, entry := BitVec.ofNat 2 e,
    origin := .direct (BitVec.ofNat 2 e), gang := none }

/-- A TCB in a ready queue as a task (R29, R56). -/
def ReadyTcb.start (t : ReadyTcb) : Start :=
  { num := t.num, pc := t.prog, arg := t.arg, role := t.role, prio := t.prio,
    entry := (match t.origin with | .direct e => e | _ => 0), origin := t.origin, gang := t.gang }

/-- A child as a task (R233). -/
def Child.start (c : Child) (l : Launch) : Start :=
  { num := c.num, pc := c.prog, arg := c.arg, role := c.role, prio := l.prio, entry := 0, origin := .child,
    gang := c.gang }

/-! ## The admission sequence of a die (R40, R41) -/

/-- Whether the admission of a launch's tasks goes on: it has stopped for a queue that is being pre-empted or reset
(R59, R364, R371). -/
def State.admits (s : State) (n : Nat) : Bool :=
  let u := s.queue (s.launch n).queue
  !u.stopped && !u.resetting

/-- The tasks of the group of four at the head of a launch that its current phase has (R41, R43). -/
def Launch.groupTasks (l : Launch) : List Nat :=
  (List.range (Nat.min l.lastTask (4 * (l.nextTask / 4 + 1)) - l.nextTask)).map fun j => l.nextTask + j

/-- A group of a cluster-granular launch on one cluster of a die, task 4k + c on core c (R41). Where a phase boundary splits
a group of four, which R41 and R43 leave open, its tasks of each phase are placed as a group of their own, on a cluster with
a free slot on all four cores (DESIGN CHOICE, assumption 90). -/
def State.placeGroup (s : State) (d n : Nat) : Option State :=
  let l := s.launch n
  let id := s.nextUid
  (List.range 24).findSome? fun k =>
    let g := 96 * d + 4 * k
    if (List.range 4).all (fun c => s.coreFits (g + c) l && ((s.core (g + c)).freeSlot).isSome) then
      let s1 := l.groupTasks.foldl (fun s t =>
        match (s.core (g + t % 4)).freeSlot with
        | some k => (s.admitTask ⟨g + t % 4, k⟩ n (l.direct t)).modSlot ⟨g + t % 4, k⟩ fun x => { x with group := some id }
        | none => s) s
      some (s1.modLaunch n fun x => { x with nextTask := l.nextTask + l.groupTasks.length })
    else none

/-- The head of a die's admission sequence, admitted where it can be placed; none where it cannot, as the next task of a
launch whose later phase is not admitted yet, or where there is none (R40). -/
def State.placeHead (s : State) (d : Nat) : Option State :=
  let x := s.die d
  match x.ready.find? fun t => s.admits t.launch with
  | some t =>
    (s.findSlot d (s.launch t.launch)).map fun r =>
      let s1 := (s.modDie d fun x => { x with ready := x.ready.erase t }).admitTask r t.launch t.start
      (match t.index with
       | some i => s1.setTcbState t.launch i 3
       | none => s1)
  | none =>
    match x.pool.find? fun c => s.admits c.launch with
    | some c =>
      (s.findSlot d (s.launch c.launch)).map fun r =>
        (s.modDie d fun x => { x with pool := x.pool.erase c }).admitTask r c.launch (c.start (s.launch c.launch))
    | none =>
      let ls := s.launches.filter fun (n, l) =>
        l.stage == .admitted && l.det != 2 && l.mask.getLsbD d && decide (l.nextTask < l.count) && s.admits n
      let first := ls.foldl (fun acc (n, l) => match acc with
        | none => some (n, l.order)
        | some (m, o) => if l.order < o then some (n, l.order) else some (m, o)) (none : Option (Nat × Nat))
      match first with
      | none => none
      | some (n, _) =>
        let l := s.launch n
        if l.lastTask ≤ l.nextTask then none
        else if l.cgran then s.placeGroup d n
        else (s.findSlot d l).map fun r =>
          (s.admitTask r n (l.direct l.nextTask)).modLaunch n fun l => { l with nextTask := l.nextTask + 1 }

/-! ## The admission of a launch -/

/-- A launch whose descriptor can no longer be read at its admission: it is rejected, and it has no status record that
could be written (the manual names no code; DESIGN CHOICE). -/
def State.dropLaunch (s : State) (n : Nat) : State :=
  (s.modLaunch n fun l => { l with stage := .over, state := 4, err := 1 }).syncQueue (s.launch n).queue

/-- The checks of R36 that need no die: the lowest error code, or the count and the phases. -/
def State.descCheck (s : State) (q : Nat) (w : List W64) : Sum Nat (Nat × List (Nat × Nat)) :=
  let u := s.queue q
  let c := w.getD 5 0
  let det := bits c 33 32
  if descBad1 w then .inl 1
  else if descBad2 c then .inl 2
  else if det ≠ u.level.toNat || det == 3 || (det == 2 && s.service == 1) then .inl 3
  else if bits c 49 47 < bits c 46 44 || (det == 2 && bits c 49 47 != bits c 46 44) then .inl 4
  else match s.descCount u.troot w with
    | none => .inl 5
    | some n =>
      if bitOf c 31 && n % 4 != 0 then .inl 6
      else match s.descPhases u.troot w n with
        | none => .inl 7
        | some ps =>
          if !(phasesCover 0 ps n) then .inl 7
          else if det = 2 && (decide (0 < bits (w.getD 8 0) 47 32) || bitOf c 50) then .inl 12
          else .inr (n, ps)

/-- The launch is admitted on some dies, with its leases pinned (R37, R85). -/
def State.openLaunch (s : State) (n : Nat) (ds : List Nat) (ls : List Lease) (ts : List TlbEntry) : State :=
  let l := s.launch n
  let s1 := ts.foldl (fun s t => s.homeWrite [(t.pteAt, s.mem.get t.pteAt ||| 0x40)]) s
  let s2 := if l.det = 2 then ds.foldl (fun s d => s.ownDie d l.queue) s1 else s1
  let ph := l.phases.headD (0, 0)
  let s3 : State := { s2 with nextOrder := s2.nextOrder + 1 }
  (s3.modLaunch n fun l => { l with
    stage := .admitted, order := s2.nextOrder, leases := ls, trans := ts
    pinned := (ts.map fun t => t.pteAt).eraseDups, mask := maskOfDies ds, home := ds.headD 0, gstepStart := s.gstep
    phase := 0, nextTask := ph.1, lastTask := ph.1 + ph.2, phaseStart := (l.nextNum, 0, 0) }).setLaunchState n 1 0

/-- The admission of a queued launch: its descriptor is checked (R36), the dies are chosen (R46; the MINDIE + 1
lowest ones: DESIGN CHOICE), its leases are checked (R84) and pinned (R85). None while it must wait. -/
def State.admitLaunch (s : State) (n : Nat) : Option State :=
  let l0 := s.launch n
  let q := l0.queue
  let u := s.queue q
  let root := u.troot
  match s.descWords root l0.desc with
  | none => some (s.dropLaunch n)
  | some w =>
    let s0 := s.modLaunch n (·.ofDesc w)
    let l := s0.launch n
    match s.descCheck q w with
    | .inl e => some (s0.closeLaunch n 4 e)
    | .inr (count, ps) =>
      let s1 := s0.modLaunch n fun l => { l with count := count, nextNum := count, phases := ps }
      let ds := (s.diesFor q l.det.toNat).take (l.mindie + 1)
      if s.service = 1 && decide (0 < l.mindie) then some (s1.closeLaunch n 4 11)
      else if ds.length < l.mindie + 1 then none
      else if l.det = 2 && ps.any (fun p => decide (s.slotCount q ds < p.2)) then some (s1.closeLaunch n 4 12)
      else match s.descLeases root w l.det.toNat with
        | none => some (s1.closeLaunch n 4 10)
        | some ls =>
          if s.service = 1 && ls.any (s.leaseService root) then some (s1.closeLaunch n 4 11)
          else (s.residentPages root ls []).map fun ts => s1.openLaunch n ds ls ts

/-- The launches whose turn it is in their queues (R40, R395), by the priority of the queues (R413), whose admission a
die's scheduler decides. -/
def State.dueLaunches (s : State) (d : Nat) : List Nat :=
  let heads := s.queues.filterMap fun (q, u) =>
    if u.stopped || u.resetting || lowestDie u.dies ≠ d then none else
    match s.launches.find? fun (_, l) => l.queue == q && (l.stage == .queued || l.stage == .ticking) with
    | some (n, l) => if l.stage == .queued then some (n, u.prio) else none
    | none => none
  let put := fun (x : Nat × BitVec 8) (ys : List (Nat × BitVec 8)) =>
    (ys.filter fun y => decide (x.2 ≤ y.2)) ++ x :: ys.filter fun y => decide (y.2 < x.2)
  (heads.foldl (fun acc x => put x acc) []).map (·.1)

/-! ## Supersteps (R58, R389) -/

/-- The tasks of a phase placed one after the other; none where one of them has no slot (R390). -/
def placeAll (n : Nat) : Nat → State → Option State
  | 0, s => if (s.launch n).lastTask ≤ (s.launch n).nextTask then some s else none
  | k + 1, s =>
    let l := s.launch n
    if l.lastTask ≤ l.nextTask then some s else
    let ds := (List.range 8).filter fun d => l.mask.getLsbD d
    match ds.findSome? fun d =>
        if l.cgran then s.placeGroup d n
        else (s.findSlot d l).map fun r =>
          (s.admitTask r n (l.direct l.nextTask)).modLaunch n fun l => { l with nextTask := l.nextTask + 1 } with
    | some t => placeAll n k t
    | none => none

/-- The slots of a core that hold a task, in ascending order. -/
def Core.occupied (c : Core) : List Nat := (([0, 1, 2, 3] : List (Fin 4)).filter fun k => (c.slot k).occ).map (·.val)

/-- A superstep starts (R58, R389): all its tasks are admitted together, and the rotation of each of their cores starts
over the slots they occupy. None while a task of the queue is left or a slot is missing. -/
def State.startSuperstep (s : State) (n : Nat) : Option State :=
  let l := s.launch n
  if !(s.admits n) || !(s.tasksOfQueue l.queue).isEmpty then none
  else (placeAll n (l.lastTask - l.nextTask) s).map fun s1 =>
    (s1.coresOf l.queue).foldl (fun s g => s.modCore g fun c => { c with rota := c.occupied, turn := 0 }) s1

/-- The superstep that a queue admits at a boundary: the next one of its first launch that waits for one. -/
def State.admitSuperstep (s : State) (q : Nat) : Option State :=
  match s.launches.find? fun (_, l) =>
      l.queue == q && l.stage == .admitted && l.det == 2 && decide (l.nextTask < l.lastTask) with
  | some (n, _) => s.startSuperstep n
  | none => none

/-- The supersteps of the queues that a die's scheduler decides, at the start of a step (R389). -/
def State.superstepDue (s : State) (d : Nat) : Option State :=
  if s.refclk ≠ s.stepBase then none
  else s.queues.findSome? fun (q, u) => if lowestDie u.dies = d then s.admitSuperstep q else none

/-! ## The scheduler of a die -/

/-- What a die's scheduler does next (R40, R423): it takes a packet it has been offered, admits the head of its
sequence, admits a launch, or at the start of a step a superstep. No launch is admitted while the device boots or is in recovery (R22, R411). -/
def State.scheduleDie (s : State) (d : Nat) : Option State :=
  if s.service ≠ 1 && s.service ≠ 2 then none else
  match s.takeOffer d with
  | some t => some t
  | none =>
    match s.placeHead d with
    | some t => some t
    | none =>
      match (s.dueLaunches d).findSome? fun n => s.admitLaunch n with
      | some t => some t
      | none => s.superstepDue d

/-- LAUNCH_ADMISSION (R40). -/
def execLaunchAdmission (die : Nat) (s : State) : Out := occurs (s.scheduleDie die) s

/-! ## Phases and ends -/

/-- Whether nothing of a launch runs, waits or is saved: every task it has admitted has ended, and its pool, spill and
ready entries are empty (R38, R43). -/
def State.launchQuiet (s : State) (n : Nat) : Bool :=
  let l := s.launch n
  decide (l.lastTask ≤ l.nextTask) && (s.tasksOf n).isEmpty &&
  (s.dies.all fun (_, d) => (d.ready.all fun t => t.launch != n) && d.pool.all fun c => c.launch != n) &&
  ((List.range 8).all fun d => l.spilled d == 0) &&
  s.saved.all fun v => v.slots.all fun (_, x) => x.launch != n

/-- Whether a launch has a phase after its current one. -/
def Launch.morePhases (l : Launch) : Bool := decide (l.phase + 1 < l.phases.length)

/-- The next phase of a launch: its tasks may be admitted (R43). -/
def State.nextPhase (s : State) (n : Nat) : State :=
  s.modLaunch n fun l =>
    let ph := l.phases.getD (l.phase + 1) (0, 0)
    { l with phase := l.phase + 1, nextTask := ph.1, lastTask := ph.1 + ph.2, barrier := none,
             phaseStart := (l.nextNum, l.exited, l.faulted) }

/-- PHASE_ADMISSION (R43); the phases of a D2 launch are admitted at step boundaries (R389). -/
def execPhaseAdmission (launch : Nat) (s : State) : Out :=
  let l := s.launch launch
  occurs (if l.stage == .admitted && l.det != 2 && l.morePhases && s.launchQuiet launch then some (s.nextPhase launch)
    else none) s

/-- The head of the first spill queue of a die that is not empty moves into the pending pool (R48), but for those of a queue
whose admission has stopped (R59). Which launch's spill queue comes first when several have entries R48 leaves open: the
first of the launch table (DESIGN CHOICE, assumption 91). An entry that cannot be read, of which the spec says nothing, makes a
child whose fields are all 0 (DESIGN CHOICE, assumption 101). -/
def State.refill (s : State) (d : Nat) : Option State :=
  if Config.pendingPool ≤ (s.die d).pool.length then none else
  (s.launches.find? fun (n, l) => l.stage == .admitted && s.admits n && decide (0 < l.spilled d)).map fun (n, l) =>
    let h := tget 0 l.spillHead d
    let v := (s.fwRead (s.queue l.queue).troot (l.spillAt d h) 64).getD 0
    let w := w64 (v / 2 ^ 128)
    let c : Child := { launch := n, num := BitVec.ofNat 32 (bits w 31 0), prog := w64 v, arg := w64 (v / 2 ^ 64),
                       role := roleOf (bits w 41 40),
                       gang := if bitOf w 48 then some (BitVec.ofNat 6 (bits w 47 42)) else none }
    (s.modDie d fun x => { x with pool := x.pool ++ [c] }).modLaunch n fun l =>
      { l with spillHead := tset l.spillHead d (h + 1) }

/-- SPILL_REFILL (R48). -/
def execSpillRefill (die : Nat) (s : State) : Out := occurs (s.refill die) s

/-- A launch ends (R38): STATE 2, or 3 where a task ended on a fatal trap. A D2 launch ends at the step boundary at which
its last superstep completes (R389). -/
def State.endLaunch (s : State) (n : Nat) : Option State :=
  let l := s.launch n
  let d2 := decide (l.det = 2 ∧ 0 < l.count ∧ l.doneAt.isNone)
  if l.stage ≠ .admitted || l.morePhases || !(s.launchQuiet n) || d2 then none
  else some (s.closeLaunch n (if l.faulted = 0 then 2 else 3) 0)

/-- LAUNCH_END (R38). -/
def execLaunchEnd (launch : Nat) (s : State) : Out := occurs (s.endLaunch launch) s

end Sys2Proof.Machine
end

