-- ==== Sys2Proof/Machine/Nimbus.lean ====
section
/-! DEFINITION. Nimbus and the reset domains: faults counted by source (R397), engine resets and alarms (R350 to R357),
Drizzle (R356, R393), and the core, die and package resets (R358 to R362). -/

namespace Sys2Proof.Machine

/-! ## Links (R15, R16, R398, R399) -/

/-- The kinds of link (R399). -/
inductive LinkKind | scaleUp | trunk | edge
  deriving DecidableEq, Repr

/-- Berby port p of I/O die i is link 18 i + p, ports 16 and 17 being trunks (R15, R399); the die-to-die edges follow
from 36 on (the numbering of the links is a DESIGN CHOICE, assumption 27). -/
def linkKind (n : Nat) : LinkKind := if 36 ≤ n then .edge else if 16 ≤ n % 18 then .trunk else .scaleUp

/-- The I/O die that a compute die has an edge to (R16): that of its row. -/
def ioDieOf (d : Nat) : Nat := d / 4

/-- The compute dies of a die-to-die edge (R16): edges 36 + d lead from die d to the next column of its row, 44 + c from
die c to die c + 4, and 48 + d from die d to its I/O die (assumption 27). -/
def edgeDies (n : Nat) : List Nat :=
  if n < 44 then [n - 36, (n - 36) / 4 * 4 + (n - 36 + 1) % 4]
  else if n < 48 then [n - 44, n - 40]
  else [(n - 48) % 8]

/-- The dies on the way along the row from one column to another (R16): the shorter way round, and towards increasing
columns where both are as long. -/
def rowWay (row ca cb : Nat) : List Nat :=
  let up := (cb + 4 - ca) % 4
  if up ≤ 2 then (List.range up).map fun k => 4 * row + (ca + k + 1) % 4
  else (List.range (4 - up)).map fun k => 4 * row + (ca + 4 - (k + 1)) % 4

/-- The fixed route between compute dies (R16), as the dies after the first one: to the other row first, where it leads there,
and then along the row. -/
def dieRoute (a b : Nat) : List Nat :=
  (if a / 4 = b / 4 then [] else [b / 4 * 4 + a % 4]) ++ rowWay (b / 4) (a % 4) (b % 4)

/-- The period of 2^20 reference cycles (R398). -/
def State.lanePeriod (s : State) : Nat := s.refclk / 2 ^ 20

/-- A link with its width, its lanes and its rotation back (R398, R399): the shadow lane is the last one (DESIGN CHOICE: the
retrain chooses it). Its first hand-over is that of the next period. -/
def Link.retrained (l : Link) (period : Nat) : Link :=
  let k := if l.half then 2 else 1
  { l with shadow := 8, rot := period, excluded := [], half := false, out := false, retry := false, cost := l.cost / k,
           window := l.window * k, weight := l.weight * k }

/-- The die-to-die edges of a die retrained (R398); its dies are withheld from D2 no longer than an edge of theirs is short
of two lanes (R399). -/
def State.retrainDie (s : State) (d : Nat) : State :=
  let es := ((List.range 20).map fun k => 36 + k).filter fun n => (edgeDies n).contains d
  let s1 := es.foldl (fun s n => s.modLink n (·.retrained s.lanePeriod)) s
  let weak := fun (s : State) (k : Nat) =>
    (List.range 20).any fun j => (s.link (36 + j)).retry && (edgeDies (36 + j)).contains k
  (es.flatMap edgeDies).foldl (fun s k => s.modDie k fun x => { x with noD2 := weak s k }) s1

/-! ## Counting faults (R397) -/

/-- The events of a source that still count. -/
def State.faultsOf (s : State) (x : FaultSrc) : List Nat :=
  match s.faults.find? fun e => e.1 == x with
  | some (_, ts) => ts
  | none => []

/-- An event of a source: whether it is the third within 2^26 reference cycles, and the state with it counted. -/
def State.countFault (s : State) (x : FaultSrc) : Bool × State :=
  let ts := ((s.faultsOf x).filter fun t => decide (s.refclk - t ≤ 2 ^ 26)) ++ [s.refclk]
  (decide (3 ≤ ts.length), { s with faults := (s.faults.filter fun e => e.1 != x) ++ [(x, ts.drop (ts.length - 3))] })

/-- A lasting fault is reported (R397, R418) to every queue (the manual names none; DESIGN CHOICE). -/
def State.reportLasting (s : State) (die cluster : Nat) : State :=
  (s.queues.foldl (fun s (q, _) => s.postEvent q (s.plainEvent 3 die cluster)) s).snapEvent 6

/-! ## Engine resets (R349, R350) -/

/-- A core whose vector engine has been reset: the entry in flight runs again. -/
def Core.resetVec (c : Core) : Core :=
  { c with vrun := none, vq := { c.vq with recs := c.vq.recs.map fun r => { r with park := none } } }
/-- A core whose copy engine has been reset: landing entries are back at their marks (R329). -/
def Core.resetCopy (c : Core) : Core :=
  { c with cq := { c.cq with recs := c.cq.recs.map fun r =>
      if r.st == .running && r.fin == .no then r.backToMark else r } }
/-- A core whose matrix engine has been reset: U is gone and the planes are to be loaded again (R295). -/
def Core.resetMx (c : Core) : Core :=
  { c with
    mrun := none
    mq := { c.mq with recs := c.mq.recs.map fun r => { r with park := none } }
    active := { c.active with stale := c.active.has }
    shadow := { c.shadow with stale := c.shadow.has } }

/-- An engine of a core reset. -/
def Core.resetEngine (c : Core) (e : EngId) : Core :=
  match e with
  | .vec => c.resetVec
  | .copy => c.resetCopy
  | .mx => c.resetMx

/-- ENG of NBEVT (R353). -/
def engNum (e : EngId) : Nat :=
  match e with
  | .vec => 0
  | .copy => 1
  | .mx => 2
/-- The number of an engine in the round-robin of its die (R356). -/
def engPlace (g : Nat) (e : EngId) : Nat := g % 96 * 3 + engNum e
/-- The engine of a number. -/
def engOf (n : Nat) : EngId := match n with | 0 => .vec | 1 => .copy | _ => .mx

/-- A reset by Nimbus, with NBEVT and NBCNT (R350, R353). -/
def State.resetEngine (s : State) (g : Nat) (e : EngId) (cause : Nat) : State :=
  (s.modCore g fun c => (c.resetEngine e).progress (engNum e)).modDie (dieOf g) fun d => { d with
    nbevt := w64 (s.gstep.toNat % 2 ^ 48 * 2 ^ 16 + cause * 2 ^ 9 + engNum e * 2 ^ 7 + g % 96)
    nbcnt := setBits d.nbcnt 31 0 (bits d.nbcnt 31 0 + 1) }

/-- Whether an engine has an entry running; an entry in the time-sorted buffer is not (R393). -/
def Core.engineRuns (c : Core) (e : EngId) : Bool :=
  match e with
  | .vec => c.vrun.isSome || c.vq.recs.any fun r => r.st == .running
  | .copy => c.cq.recs.any fun r => r.st == .running && r.fin == .no
  | .mx => c.mrun.isSome || c.mq.recs.any fun r => r.st == .running

/-- Whether an engine is idle or stands at a mark (R349, R356). -/
def Core.atMark (c : Core) (e : EngId) : Bool :=
  match e with
  | .vec => !(c.engineRuns .vec)
  | .copy => c.cq.recs.all fun r => !(r.st == .running && r.fin == .no) || (r.row == r.mrow && r.off == r.moff)
  | .mx => match c.mrun, c.mq.recs with
    | some m, q :: _ => m.idx == q.firstIdx && m.block == 0 && !m.passed
    | _, _ => !(c.engineRuns .mx)

/-- SCHED_BREAK in every task of a core (R392, R434). -/
def State.breakCore (s : State) (g reason : Nat) : State :=
  ([0, 1, 2, 3] : List (Fin 4)).foldl (fun s k =>
    if (s.slotAt ⟨g, k⟩).occ then s.pendEvent ⟨g, k⟩ .schedBreak (w64 reason) else s) s

/-! ## A core reset (R359) -/

/-- A task's operations that have not been performed are withdrawn from its homes, but for signals already sent, and so
are its arrivals at BAR (R244, R359). -/
def State.forget (s : State) (u : Nat) : State :=
  let s1 : State := { s with dies := s.dies.map fun (k, d) => (k, { d with
    waiters := d.waiters.filter fun w => w.uid != u || w.dev != s.devid
    inbox := d.inbox.filter fun o => o.uid != u || o.dev != s.devid || (match o.kind with | .sig _ => true | _ => false)
    gangs := d.gangs.filter fun o => o.uid != u || o.kind == .enroll }) }
  s1.launches.foldl (fun s (n, l) =>
    l.gangs.foldl (fun s (g, x) =>
      if x.arrived.contains u then
        let s2 := s.modGang n g fun x => { x with arrived := x.arrived.filter (· != u) }
        if ((s2.launch n).gang g).arrived.isEmpty then s2.admitJoiners n g else s2
      else if x.joiners.any fun j => j.uid == u && j.kind == .join then
        s.modGang n g fun x => { x with joiners := x.joiners.filter fun j => j.uid != u || j.kind != .join }
      else s) s) s1

/-- The task of a slot as it restarts: from its checkpoint record, or from its entry point (R29, R359), in the group it
belongs to. Where a SEM.WAIT of it waits at another device, it restarts once that device has answered. -/
def State.restarted (s : State) (r : SlotRef) : Slot :=
  let l := s.slotAt r
  let st : Start := { num := l.task, pc := l.startPc, arg := l.startArg, role := l.startRole, prio := l.prio,
                      entry := l.entry, origin := l.origin, gang := none }
  let fresh := { Slot.start st l.launch (s.launch l.launch) l.uid with
    group := l.group
    wait := match l.wait with
      | .joining k => .joining k
      | _ => if l.away.isSome then .withdrawn else .run }
  if l.ckpt then { s.fromCheckpoint r fresh with ckpt := true } else fresh

/-- A core as its reset leaves it, but for its slots: the queue area, the tag table, the TLB, watermarks, rings, banks
and planes are cleared; what the die scheduler wrote stays. -/
def Core.wiped (c : Core) : Core :=
  { Core.reset with
    slots := c.slots, b0 := c.b0, b1 := c.b1, b2 := c.b2, vregs := c.vregs, degraded := c.degraded
    context := c.context, mxw := c.mxw, turn := c.turn, rota := c.rota, saving := c.saving }

/-- CORE_RESET's effect (R359). The core's published stores reach their homes; its pending ones are discarded. A task that
only finishes a prefix chain (R433) ends. -/
def State.resetCore (s : State) (g : Nat) : State :=
  let refs := ([0, 1, 2, 3] : List (Fin 4)).map fun k => (⟨g, k⟩ : SlotRef)
  let s0 := refs.foldl (fun s r => if (s.slotAt r).occ && (s.slotAt r).dying then s.endAborted r else s) s
  let s1 := refs.foldl (fun s r =>
    if (s.slotAt r).occ then ((s.cancelAway r).flushStopped (s.slotAt r).uid).forget (s.slotAt r).uid else s) s0
  let s2 := (s1.clearPool g).modCore g Core.wiped
  refs.foldl (fun s r => if (s.slotAt r).occ then s.setSlot r (s.restarted r) else s) s2

/-- CORE_RESET (R359). -/
def execCoreReset (core : Nat) (s : State) : Out := occurs (some (s.resetCore core)) s

/-! ## Alarms (R351, R354, R355, R357) -/

/-- Whether a step lies in the Drizzle window (R393). -/
def State.inWindow (s : State) : Bool := decide (4096 - cdiv 4096 s.steplen ≤ s.gstep.toNat % 4096)

/-- The alarm that an engine has had in this reference cycle, by its cause. -/
def State.alarmNow (s : State) (g : Nat) (e : EngId) : Option Nat :=
  let x := tget (0, 5) (s.die (dieOf g)).alarmed (engPlace g e)
  if x.2 < 5 && x.1 == s.refclk then some x.2 else none

/-- An alarm of causes 0 to 2 counts as a fault of its engine: the third in 2^26 cycles makes Nimbus ask for a core reset (R355,
R357, R397). -/
def State.weighAlarm (s : State) (g : Nat) (e : EngId) : State :=
  let d := dieOf g
  let (lasting, s1) := s.countFault (.engine g e)
  if lasting && bitOf (s1.die d).nbctl 1 then
    ((s1.resetCore g).modDie d fun d => { d with nbcnt := setBits d.nbcnt 63 32 (bits d.nbcnt 63 32 + 1) }).reportLasting d
      (clusterOf g % 24)
  else if lasting then s1.reportLasting d (clusterOf g % 24) else s1

/-- The first alarm of an engine in a cycle: the engine is reset; on a die of a D2 context it breaks the schedule of the
core's tasks, but for an alarm in the Drizzle window (R392). A Drizzle reset (cause 3) does nothing more (R355, R393). -/
def State.newAlarm (s : State) (g : Nat) (e : EngId) (cause : Nat) : State :=
  let s1 := s.resetEngine g e cause
  if cause = 3 then s1 else
  let s2 := s1.snapEvent 4
  let s3 := if (s.die (dieOf g)).d2.isSome && !s.inWindow then s2.breakCore g 5 else s2
  if cause = 4 then s3 else s3.weighAlarm g e

/-- An alarm of a cause (R351, R354, R355, R357). Two alarms of one engine in one cycle are one reset, and NBEVT has the lower
cause (R377); one of causes 0 to 2 counts also where the other one does not (R355). -/
def State.alarm (s : State) (g : Nat) (e : EngId) (cause : Nat) : State :=
  let note := fun (s : State) => s.modDie (dieOf g) fun d =>
    { d with alarmed := tset d.alarmed (engPlace g e) (s.refclk, cause) }
  match s.alarmNow g e with
  | none => note (s.newAlarm g e cause)
  | some c =>
    if c ≤ cause then s
    else
      let s1 := note (s.modDie (dieOf g) fun d => { d with nbevt := setBits d.nbevt 11 9 cause })
      if 3 ≤ c ∧ cause < 3 then s1.weighAlarm g e else s1

/-- Whether an engine's cycles are not counted by its watchdog (R351): every entry that runs waits on a watermark, a park, a
token, an owned window, or a landing before it. An entry that waits for a ring slot or in the time-sorted buffer does not
run. -/
def State.engineWaits (s : State) (g : Nat) (e : EngId) : Bool :=
  let c := s.core g
  match e with
  | .vec => (match c.vq.recs with
    | q :: _ => q.park.isSome || (match q.instr with | .tokwait _ t => (s.slotAt ⟨g, q.slot⟩).token t == 0 | _ => false)
    | [] => false) || (c.vrun.isNone && s.vecHeld g)
  | .copy => c.cq.recs.all fun q => !(q.st == .running && q.fin == .no) || s.copyHeld g q
  | .mx => s.mxHeld g

/-- The watchdog counts of a core after one of its cycles (R351): one more for each engine whose running entry neither makes
progress nor waits. -/
def State.watched (s : State) (g : Nat) : Table Nat :=
  ([.vec, .copy, .mx] : List EngId).foldl (fun t e =>
    if (s.core g).engineRuns e && !(s.engineWaits g e) then tset t (engNum e) (tget 0 t (engNum e) + 1) else t) (s.core g).wdog

/-- WATCHDOG's effect (R351): an entry has run without progress for NBWDOG.LIMIT cycles. -/
def State.watchdog (s : State) (g : Nat) (e : EngId) : Option State :=
  let c := s.core g
  if c.engineRuns e && decide (bits (s.die (dieOf g)).nbwdog 31 0 ≤ tget 0 c.wdog (engNum e)) then some (s.alarm g e 0) else none

/-- WATCHDOG (R351). -/
def execWatchdog (core : Nat) (engine : EngId) (s : State) : Out := occurs (s.watchdog core engine) s
/-- PARITY_ALARM (R351). -/
def execParityAlarm (core : Nat) (engine : EngId) (s : State) : Out := occurs (some (s.alarm core engine 1)) s
/-- PROTOCOL_ALARM (R351). -/
def execProtocolAlarm (core : Nat) (engine : EngId) (s : State) : Out := occurs (some (s.alarm core engine 2)) s

/-- A test alarm of a die fires, or an armed test of no core clears (R354). -/
def State.testAlarm (s : State) (d : Nat) : Option State :=
  let x := s.die d
  let c := bits x.nbtest 11 5
  let g := 96 * d + c
  let clear := fun (s : State) => s.modDie d fun x => { x with nbtest := x.nbtest &&& ~~~1#64 }
  if !(bitOf x.nbtest 0) then none
  else if 96 ≤ c then some (clear s)
  else if decide (x.nbtcyc.toNat ≤ (s.cycleOf g (if x.d2.isSome then 2 else 0)).toNat) then
    some (clear (s.alarm g (engOf (bits x.nbtest 4 3)) 4))
  else none

/-- TEST_ALARM (R354). -/
def execTestAlarm (die : Nat) (s : State) : Out := occurs (s.testAlarm die) s

/-! ## Drizzle (R356, R393) -/

/-- The engine that is due in the round-robin of a die: its core and engine (R356). -/
def State.drizzleDue (s : State) (d : Nat) : Nat × EngId :=
  let n := (s.die d).drz % 288
  (96 * d + n / 3, engOf (n % 3))

/-- The reset of the engine that is due; the round-robin passes on. -/
def State.drizzle (s : State) (d : Nat) : State :=
  let (g, e) := s.drizzleDue d
  (s.alarm g e 3).modDie d fun x => { x with drz := (x.drz + 1) % 288 }

/-- The reference cycles from one Drizzle reset of a die to the next one (R356): 288 of them in a DRZPER. The even spacing is
a DESIGN CHOICE (assumption 92). -/
def Die.drzStep (x : Die) : Nat := bits x.nbctl 63 32 * 800000 / 288

/-- DRIZZLE_RESET's effect (R356): on a die of no D2 context, with DRZEN, the engine that has fallen due is reset once it is
idle or stands at a mark. -/
def State.drizzleReset (s : State) (d : Nat) : Option State :=
  let x := s.die d
  let (g, e) := s.drizzleDue d
  if bitOf x.nbctl 0 && x.d2.isNone && decide (x.drzAt + x.drzStep ≤ s.refclk) && (s.core g).atMark e then
    some ((s.drizzle d).modDie d fun x => { x with drzAt := Nat.max (x.drzAt + x.drzStep) (s.refclk - x.drzStep) })
  else none

/-- DRIZZLE_RESET (R356). -/
def execDrizzleReset (die : Nat) (s : State) : Out := occurs (s.drizzleReset die) s

/-- The Drizzle window of a D2 die opens (R393): engines that run break the schedule of their core's tasks, and the
engine that is due is reset unless it runs. -/
def State.openWindow (s : State) (d : Nat) : Option State :=
  if (s.die d).d2.isNone || (s.die d).drzWindow || !s.inWindow then none
  else
    let s1 := (List.range 96).foldl (fun s k =>
      let g := 96 * d + k
      if ([.vec, .copy, .mx] : List EngId).any (fun e => (s.core g).engineRuns e) then s.breakCore g 4 else s) s
    let (g, e) := s.drizzleDue d
    let s2 := if bitOf (s.die d).nbctl 0 && !((s.core g).engineRuns e) then s1.drizzle d else s1
    some (s2.modDie d fun x => { x with drzWindow := true })

/-- DRIZZLE_WINDOW (R393). -/
def execDrizzleWindow (die : Nat) (s : State) : Out := occurs (s.openWindow die) s

/-! ## Die and package resets -/

/-- A launch abandons its current phase on every die, the tasks of it in saved cores included, and the phase is admitted again
from its first task (R361). -/
def State.redoPhase (s : State) (n : Nat) : State :=
  let s1 := (s.tasksOf n).foldl (fun s r => (s.removeTask r).leaveAll n (s.slotAt r).uid) s
  let gone := s1.saved.flatMap fun v => v.slots.filterMap fun x => if x.2.launch == n then some x.2.uid else none
  let s2 := gone.foldl (fun s u => s.leaveAll n u) (s1.flushBy fun o => gone.contains o.uid)
  let s3 : State := { s2 with
    saved := s2.saved.map fun v => v.dropTasks fun l => l.launch == n
    dies := s2.dies.map fun (k, d) => (k, { d with
      ready := d.ready.filter fun t => t.launch != n
      pool := d.pool.filter fun c => c.launch != n }) }
  s3.modLaunch n fun l =>
    { l with nextTask := (l.phases.getD l.phase (0, 0)).1, nextNum := l.phaseStart.1, exited := l.phaseStart.2.1,
             faulted := l.phaseStart.2.2, spillHead := [], spillTail := [], barrier := none, doneAt := none }

/-- DIE_RESET's effect (R361, R398). -/
def State.resetDie (s : State) (d : Nat) : State :=
  let ls := ((s.slotRefs.filter fun r => dieOf r.core == d && (s.slotAt r).occ).map fun r => (s.slotAt r).launch).eraseDups
  let s1 := ls.foldl (fun s n => s.redoPhase n) s
  ((List.range 96).foldl (fun s k => s.resetCore (96 * d + k)) s1).retrainDie d

/-- DIE_RESET (R361). -/
def execDieReset (die : Nat) (s : State) : Out := occurs (some (s.resetDie die)) s

/-- PACKAGE_RESET's effect (R362): everything but the flash, the fitted memory, the host's memory and what the world
outside will still do or has been sent; near and far memory read as after power-on (assumption 1), and the counter of free values goes
on. -/
def State.packageReset (s : State) : State :=
  { State.reset with
    mem := s.mem.filter fun c => decide (0x8000000000000 ≤ c.1 ∧ c.1 < 0xC000000000000)
    identity := s.identity, bridge := s.bridge, imageA := s.imageA, imageB := s.imageB, activeSlot := s.activeSlot
    farcap := s.farcap, flashWays := s.flashWays, flashLines := s.flashLines, flashClusters := s.flashClusters
    nextUid := s.nextUid, hostTag := s.hostTag, agenda := s.agenda, freeCtr := s.freeCtr, outbox := s.outbox }

/-- PACKAGE_RESET (R362). -/
def execPackageReset (s : State) : Out := occurs (some s.packageReset) s

end Sys2Proof.Machine
end

