-- ==== Sys2Proof/Machine/Area.lean ====
section
/-! DEFINITION. The bytes of the engine queue area (R344 to R347) and of a core's save image (R373). -/

namespace Sys2Proof.Machine

/-- The number of a record's state (R345). -/
def stateNum (s : RecState) : Nat :=
  match s with
  | .queued => 1
  | .held => 2
  | .running => 3
  | .ended => 4

/-- The mark of a copy record (R347); a scatter's row starts at the offset its index table gives (R332). -/
def QRec.copyMark (q : QRec) (nslot : Nat) (off : Int) : Nat :=
  match copyKindOf q.instr with
  | none => 0
  | some k =>
    wrapTo 64 (copyDst k q.ops q.dst q.mrow + off + q.moff) + q.mrow % 2 ^ 36 * 2 ^ 64 + b2n q.started * 2 ^ 100 +
      (if k = .ring ∧ q.started then q.rslot % nslot % 65536 * 2 ^ 112 else 0)

/-- A copy or matrix record (R345) at an offset. -/
def QRec.longPieces (q : QRec) (at_ mark : Nat) : List Piece :=
  (at_, 16, q.instr.encode.toNat + q.slot.val * 2 ^ 32 + q.gen.toNat * 2 ^ 40 + stateNum q.st * 2 ^ 48 +
    q.seq.toNat * 2 ^ 64 + q.task.toNat * 2 ^ 96) ::
  (at_ + 0x50, 16, mark) :: (List.range 8).map fun j => (at_ + 0x10 + 8 * j, 8, (q.op j).toNat)

/-- A vector entry and its operand slot (R346). -/
def QRec.shortPieces (q : QRec) : List Piece :=
  [(16 * q.idx, 16, q.instr.encode.toNat + q.vcfg.toNat * 2 ^ 32 + q.rm.toNat * 2 ^ 40 + q.fz.toNat * 2 ^ 43 +
    q.slot.val * 2 ^ 49 + q.anch.toNat * 2 ^ 52 + q.gen.toNat * 2 ^ 68 + stateNum q.st * 2 ^ 76 + q.task.toNat * 2 ^ 96),
   (0x1000 + 16 * q.idx, 16, (q.op 0).toNat + (q.op 1).toNat * 2 ^ 64)]

/-- A queue's control words (R344). -/
def EngQ.control (q : EngQ) : Nat := q.head + q.tail * 2 ^ 16 + q.seq.toNat * 2 ^ 32

/-- The queue area of a core (R344), given the offset at which a copy entry's marked row starts; bytes that no piece covers
are zero. -/
def Core.area (c : Core) (off : QRec → Int) : List Piece :=
  (c.vq.recs.flatMap fun q => q.shortPieces) ++
  (c.cq.recs.flatMap fun q => q.longPieces (0x2000 + 128 * q.idx) (q.copyMark (c.ring (bits (q.op 7) 1 0)).nslot.toNat (off q))) ++
  (c.mq.recs.flatMap fun q => q.longPieces (0x4000 + 128 * q.idx) q.mark.toNat ++
    (q.table.zipIdx).map fun (w, j) => (0x4800 + 256 * q.idx + 16 * j, 16, w.toNat)) ++
  [(0x5800, 16, c.vq.control), (0x5810, 16, c.cq.control), (0x5820, 16, c.mq.control)]

/-- Where the block of a slot's vector registers and masks starts in the pool (R61). -/
def regBlock (vregs k : Nat) : Nat := 32768 + k * (vregs * 512 + 1024)

/-- The vector registers and masks of a slot in the pool (R61). -/
def Slot.regPieces (l : Slot) (vregs k : Nat) : List Piece :=
  ((List.range vregs).map fun n => (regBlock vregs k + 512 * n, 512, (l.rv n).toNat)) ++
  ((List.range 8).map fun n => (regBlock vregs k + 512 * vregs + 128 * n, 128, (l.rm n).toNat))

/-- The granules of a store buffer in the image (R373): 64 data bytes, the granule's address, the byte mask. -/
def bufferPieces (p : Table Byte) (at_ : Nat) : List Piece :=
  ((granules p).zipIdx).flatMap fun (g, k) =>
    let held := fun (j : Nat) => tmem p (64 * g + j)
    ((List.range 64).map fun j => (at_ + 80 * k + j, 1, (tget 0 p (64 * g + j)).toNat)) ++
    [(at_ + 80 * k + 64, 8, 64 * g),
     (at_ + 80 * k + 72, 8, (List.range 64).foldl (fun a j => if held j then a + 2 ^ j else a) 0)]

/-- A store buffer read back from the image. -/
def bufferOf (rd : Nat → Nat → Nat) (at_ : Nat) : Table Byte :=
  (List.range 256).foldl (fun t k =>
    let g := rd (at_ + 80 * k + 64) 8
    let m := rd (at_ + 80 * k + 72) 8
    (List.range 64).foldl (fun t j =>
      if m.testBit j then tset t (g + j) (BitVec.ofNat 8 (rd (at_ + 80 * k + j) 1)) else t) t) []

/-- A bank's A plane and flag plane (R116). -/
def bankImage (b : Table Acc) (a f : Nat) : List Piece :=
  (List.range 16384).flatMap fun i =>
    let x := tget Acc.cleared b i
    [(a + 16 * i, 16, x.plane), (f + 2 * i, 2, x.side)]
/-- A bank read back. -/
def bankOf (rd : Nat → Nat → Nat) (a f : Nat) : Table Acc :=
  (List.range 16384).filterMap fun i =>
    let x := Acc.ofPlanes (rd (a + 16 * i) 16) (rd (f + 2 * i) 2)
    if x = Acc.cleared then none else some (i, x)

/-- The image of a core but for its pool's data (R373), with the generation and the rung of its header and the offsets of
the copy entries' marked rows. -/
def Core.image (c : Core) (gen : BitVec 8) (rung : Nat) (gstep : W64) (off : QRec → Int) : List Piece :=
  [(0, 2, gen.toNat + rung * 256), (8, 8, gstep.toNat)] ++
  ((c.wms.toList.zipIdx).flatMap fun (w, k) =>
    [(0x100 + 32 * k, 8, w.lo.toNat), (0x108 + 32 * k, 8, w.hi.toNat), (0x110 + 32 * k, 8, w.wm.toNat),
     (0x118 + 32 * k, 8, w.stat.toNat)]) ++
  ((c.rings.toList.zipIdx).flatMap fun (r, k) =>
    [(0x200 + 64 * k, 8, r.base.toNat), (0x208 + 64 * k, 8, r.slotb.toNat + r.nslot.toNat * 2 ^ 32),
     (0x210 + 64 * k, 8, r.alloc), (0x218 + 64 * k, 8, r.fill), (0x220 + 64 * k, 8, r.acq), (0x228 + 64 * k, 8, r.rel)]) ++
  [(0x300, 8, c.active.src.toNat), (0x308, 8, c.active.scaleSrc.toNat), (0x310, 8, c.shadow.src.toNat),
   (0x318, 8, c.shadow.scaleSrc.toNat), (0x340, 8, c.b0.toNat), (0x348, 8, c.b1.toNat), (0x350, 8, c.b2.toNat),
   (0x358, 8, c.mxw.toNat)] ++
  ((c.slots.toList.zipIdx).flatMap fun (l, k) =>
    (if l.occ then (l.blockPieces l.pc).map fun (o, n, v) => (0x1000 + 0x400 * k + o, n, v) else []) ++
    (if l.occ then bufferPieces l.pend (0x3000 + 20480 * k) else []) ++
    (if l.occ then (l.regPieces c.vregs k).map fun (o, n, v) => (0x100000 + o, n, v) else [])) ++
  (c.tags.flatMap fun (i, e) =>
    [(0x2000 + 16 * i, 8, e.key.toNat),
     (0x2008 + 16 * i, 8, e.off.toNat + e.len.toNat * 2 ^ 10 + b2n e.valid * 2 ^ 63)]) ++
  bankImage c.lower 0x20000 0xA0000 ++ bankImage c.upper 0x60000 0xA8000 ++
  ((c.area off).map fun (o, n, v) => (0x100000 + o, n, v))

/-- The tag table read back from the image; an entry that ECC could not correct is still spoiled (R72). -/
def tagsOf (rd : Nat → Nat → Nat) (bad : List Nat) : Table TagEntry :=
  (List.range 256).filterMap fun i =>
    let k := rd (0x2000 + 16 * i) 8
    let w := rd (0x2008 + 16 * i) 8
    if k = 0 ∧ w = 0 ∧ !(bad.contains i) then none
    else some (i, { key := w64 k, off := BitVec.ofNat 10 w, len := BitVec.ofNat 11 (w / 2 ^ 10), valid := w.testBit 63,
                    bad := bad.contains i })

/-- A ring with its image's words; the slots it has filled or frozen out of order are the model's own. -/
def Ring.ofImage (r : Ring) (rd : Nat → Nat → Nat) (at_ : Nat) : Ring :=
  { r with base := w64 (rd at_ 8), slotb := BitVec.ofNat 32 (rd (at_ + 8) 4), nslot := BitVec.ofNat 16 (rd (at_ + 12) 2)
           alloc := rd (at_ + 16) 8, fill := rd (at_ + 24) 8, acq := rd (at_ + 32) 8, rel := rd (at_ + 40) 8 }

/-- A watermark register of the image, with its owner; RSV fields read zero (R10). -/
def wmOf (rd : Nat → Nat → Nat) (at_ : Nat) (owner : Nat × Nat) : Wm :=
  { lo := w64 (rd at_ 8), hi := w64 (rd (at_ + 8) 8), wm := w64 (rd (at_ + 16) 8), stat := w64 (rd (at_ + 24) 8) &&& 0x1FF3F
    owner := owner }

end Sys2Proof.Machine
end

