-- ==== Sys2Proof/Machine/Preempt.lean ====
section
/-! DEFINITION. The pre-emption ladder (R371, R372, R376), the saving and restoring of cores (R339, R373 to R375), and
queue resets (R363, R364). -/

namespace Sys2Proof.Machine

/-! ## Saving a core -/

/-- Where the image of a core of a queue lies (R373). -/
def State.imageAt (s : State) (q g : Nat) : Nat := (s.queue q).savebase.toNat + g * 0x200000

/-- Memory with the bytes of a range written as zero at their homes: nothing older of them is on its way, and their granules
are not poisoned (R403). -/
def State.zeroRange (s : State) (at_ n : Nat) : State :=
  let in_ := fun (a : Nat) => decide (at_ ≤ a ∧ a < at_ + n)
  { s with
    mem := s.mem.filter fun c => !(in_ c.1)
    overlay := s.overlay.filter fun o => !(in_ o.loc)
    poison := s.poison.filter fun g => !(in_ (64 * g) && in_ (64 * g + 63))
    armed := s.armed.map fun (e, hit) => (e, hit || in_ e) }
/-- The bytes of a range copied to a range that is zero. -/
def State.copyRange (s : State) (src dst n : Nat) : State :=
  s.homeWrite ((s.mem.filter fun c => decide (src ≤ c.1 ∧ c.1 < src + n)).map fun c => (c.1 - src + dst, c.2))

/-- A task's joins that have not taken effect are withdrawn (R244). -/
def State.unjoin (s : State) (u : Nat) : State :=
  let s1 : State := { s with dies := s.dies.map fun (k, d) => (k, { d with
    gangs := d.gangs.filter fun o => o.uid != u || (o.kind != .join && o.kind != .enroll) }) }
  s1.launches.foldl (fun s (n, l) => l.gangs.foldl (fun s (g, x) =>
    if x.joiners.any (fun j => j.uid == u) then
      s.modGang n g fun x => { x with joiners := x.joiners.filter fun j => j.uid != u } else s) s) s1

/-- A core whose tasks have been saved: its slots and queues are empty, its watermark registers idle and its rings
uninitialised; pool, tag table, context and boundaries, committed banks and planes stay (R63, R72, R286). -/
def Core.emptied (c : Core) : Core :=
  { Core.reset with
    b0 := c.b0, b1 := c.b1, b2 := c.b2, vregs := c.vregs, degraded := c.degraded, context := c.context, tlb := c.tlb
    tags := c.tags, mxw := c.mxw, lower := c.lower, upper := c.upper, upperCommitted := c.upperCommitted
    active := c.active, shadow := c.shadow, nestMark := c.nestMark, nestAnchor := c.nestAnchor, nestRun := c.nestRun
    shoots := c.shoots.map fun x => { x with lagging := [], stopped := [] } }

/-- Whether a location lies in the pool of a core. -/
def inPool (g n : Nat) : Bool := decide (poolLoc g 0 ≤ n ∧ n < poolLoc g 0 + 1048576)

/-- What of a core goes into its save record beside the image. -/
def State.savedOf (s : State) (g : Nat) (fresh : Bool) : Saved :=
  let c := s.core g
  let q := c.context.getD 0
  let ks : List (Fin 4) := [0, 1, 2, 3]
  { queue := q, core := g, slots := (ks.filter fun k => (c.slot k).occ).map fun k => (k.val, c.slot k), vregs := c.vregs
    bounds := [c.b0, c.b1, c.b2], vq := c.vq, cq := c.cq, mq := c.mq, planes := [c.active, c.shadow]
    rings := c.rings.toList, upper := c.upperCommitted, nest := c.nestRun, nestMark := c.nestMark
    nestAnchor := c.nestAnchor, fresh := fresh, reason := (s.queue q).breakWith
    held := (ks.filter fun k => !(c.slot k).occ && (c.slot k).held).map fun k => (k.val, c.slot k)
    rota := c.rota, turn := c.turn, owners := c.wms.toList.map fun w => w.owner
    badTags := (c.tags.filter fun e => e.2.bad).map fun e => e.1
    remap := [] }

/-- The bytes of a core's image beside its pool's data (R373), with the generation of its queue and the rung. -/
def State.imageOf (s : State) (g : Nat) (fresh : Bool) : List Piece :=
  let c := s.core g
  c.image (s.queue (c.context.getD 0)).gen (if fresh then 3 else 2) s.gstep fun q =>
    match copyKindOf q.instr with
    | some k => if k = .scatter then s.seenOffset ⟨g, q.slot⟩ q k q.mrow else 0
    | none => 0

/-- The tasks of a core stop, and everything on its way to its pool, and from its tasks, reaches its home, but for engine writes
that are not published (R188, R196, R198, R371). -/
def State.stopCore (s : State) (g : Nat) : State :=
  let refs := (([0, 1, 2, 3] : List (Fin 4)).map fun k => (⟨g, k⟩ : SlotRef)).filter fun r => (s.slotAt r).occ
  (refs.foldl (fun s r =>
    (((s.haltTask r).unjoin (s.slotAt r).uid).flushStopped (s.slotAt r).uid).modSlot r fun l =>
      { l with snap := [], quiesced := true }) s).flushBy fun o => inPool g o.loc

/-- The next part of a copy that is landing in the pool of its core, whose source has been read when the engine stops issuing
reads: what it writes there, byte by byte, and the record and the watermark register as they are once it has landed (R339).
None where nothing of it is on its way into the pool. -/
def State.lateLanding (s : State) (g : Nat) (q : QRec) : Option (List (Nat × Byte) × QRec × Wm) :=
  match copyKindOf q.instr with
  | none | some .prefetch => none
  | some k =>
    if !q.landing || q.bad || (copyRed k q.ops).isSome || (s.core g).paused q.uid then none else
    match s.landPlain g q k with
    | .go t =>
      let cells := (((t.overlay.filter fun o => o.uid == q.uid && inPool g o.loc).map fun o => o.loc).eraseDups.map fun n =>
        (n, t.vis g n)).filter fun c => c.2 != s.vis g c.1
      if cells.isEmpty then none
      else ((t.core g).cq.recs.find? fun x => x.idx == q.idx).map fun x => (cells, x, (t.core g).wm (cpWmi q.ops))
    | _ => none

/-- The remap table of a core at its save: eight entries, for the landings still on their way into the pool (R339). -/
def State.remapTable (s : State) (g : Nat) : List (List (Nat × Byte) × QRec × Wm) :=
  ((s.core g).cq.recs.filterMap (s.lateLanding g)).take 8

/-- A core is saved (R371, R373): its tasks stop, its image is written, and it is left empty; landings still on their way into
its pool go to the image afterwards (R339). -/
def State.saveCore (s : State) (g : Nat) (fresh : Bool) : State :=
  let late := if fresh then [] else s.remapTable g
  let s1 := s.stopCore g
  let at_ := s1.imageAt ((s1.core g).context.getD 0) g
  let s2 := ((s1.zeroRange at_ 0x200000).copyRange (poolLoc g 0) (at_ + 0x100000) 0x100000).homeWrite
    (piecesAt at_ (s1.imageOf g fresh))
  { s2.modCore g fun c => { c.emptied with saving := !late.isEmpty } with
    saved := s2.saved ++ [{ s1.savedOf g fresh with remap := late }] }

/-- A landing that arrives after the save of its range is written to the saved image, and WM advances in the saved register; the
record goes on from there (R339). -/
def State.landLate (s : State) (v : Saved) (x : List (Nat × Byte) × QRec × Wm) : State :=
  let at_ := s.imageAt v.queue v.core
  let q := x.2.1.stopAtMark
  let nslot := (v.rings.getD (bits (q.op 7) 1 0) Ring.reset).nslot.toNat
  let s1 := s.homeWrite (x.1.map (fun c => (c.1 - poolLoc v.core 0 + at_ + 0x100000, c.2)) ++
    (if cpWmen q.ops then piecesAt (at_ + 0x100 + 32 * cpWmi q.ops) [(16, 8, x.2.2.wm.toNat), (24, 8, x.2.2.stat.toNat)] else []) ++
    piecesAt (at_ + 0x100000) (q.longPieces (0x2000 + 128 * q.idx) (q.copyMark nslot 0)))
  { s1 with saved := s1.saved.map fun y =>
      if y = v then { y with cq := { y.cq with recs := y.cq.recs.map fun r => if r.idx = q.idx then q else r },
                             remap := y.remap.erase x } else y }

/-- Whether every task of a core stands at an instruction boundary (R138, R244). -/
def Core.atBoundaries (c : Core) : Bool := c.slots.toList.all fun l => !l.occ || l.atBoundary

/-- SAVE_COMPLETE's effect (R339, R371): the core is written to its image as soon as its tasks stand at boundaries, then each
remapped landing arrives, and with the last of them the save is complete. A SEM.WAIT at another device is withdrawn there first
(R244). -/
def State.saveDone (s : State) (g : Nat) : Option State :=
  let c := s.core g
  let rest := s.saved.filter fun v => v.core == g && !v.remap.isEmpty
  let away := (([0, 1, 2, 3] : List (Fin 4)).map fun k => (⟨g, k⟩ : SlotRef)).filter fun r => (s.slotAt r).needsCancel
  if !c.saving then none
  else if !rest.isEmpty then
    rest.head?.bind fun v => v.remap.head?.map fun x =>
      let s1 := s.landLate v x
      if 1 < v.remap.length then s1
      else (s1.modCore g fun c => { c with saving := false }).settleLadder v.queue
  else if !away.isEmpty then some (away.foldl (fun s r => s.cancelAway r) s)
  else if c.atBoundaries then some ((s.saveCore g false).settleLadder (c.context.getD 0))
  else none

/-- SAVE_COMPLETE (R339). -/
def execSaveComplete (core : Nat) (s : State) : Out := occurs (s.saveDone core) s

/-! ## The ladder -/

/-- Rung 1 starts: admission from the queue stops (R371). -/
def State.startLadder (s : State) (q : Nat) : State :=
  (s.modQueue q fun u => { u with stopped := true, ladder := s.refclk, breakWith := 0, awaits := false }).settleLadder q

/-- Whether the ladder of a queue has ended. -/
def State.ladderOver (s : State) (q : Nat) : Bool :=
  (s.queue q).stopped && (s.tasksOfQueue q).isEmpty && !(s.saved.any fun v => v.queue == q && !v.remap.isEmpty)

/-- Rung 2 starts on the cores of a queue, with the reason of the SCHED_BREAK that a save in the middle of a superstep
brings on resume (R376, R392). -/
def State.startSave (s : State) (q reason : Nat) : State :=
  let s1 := s.modQueue q fun u => { u with breakWith := reason, saveAt := s.refclk }
  (s.coresOf q).foldl (fun s g => s.modCore g fun c => { c with saving := true }) s1

/-- DRAIN_TIMEOUT's effect (R371): T1 has passed with tasks left, and rung 2 starts. In a D2 context it waits for the end of the
superstep when that end falls within T2, and otherwise saves at once (R376). Whether it falls within T2 lies in the future of the
machine: a free value answers (assumption 65), and what is left when T2 has passed after all is saved then. -/
def State.drainOver (s : State) (q : Nat) : Option State :=
  let u := s.queue q
  let busy := (s.coresOf q).filter fun g => !(s.core g).saving
  let passed := fun (us : Nat) => decide (u.ladder + 800 * us ≤ s.refclk)
  if !u.stopped || busy.isEmpty || !(passed u.t1) then none
  else if u.level ≠ 2 then some (s.startSave q 0)
  else if u.awaits then (if passed (u.t1 + u.t2) then some (s.startSave q 3) else none)
  else
    let s1 : State := { s with freeCtr := s.freeCtr + 1 }
    some (if Config.superstepFits s.freeCtr then s1.modQueue q fun u => { u with awaits := true } else s1.startSave q 3)

/-- DRAIN_TIMEOUT (R371). -/
def execDrainTimeout (q : Nat) (s : State) : Out := occurs (s.drainOver q) s

/-- SAVE_TIMEOUT's effect (R371): the cores that are not saved within T2 are reset; their tasks restart on resume. -/
def State.saveOver (s : State) (q : Nat) : Option State :=
  let u := s.queue q
  let late := (s.coresOf q).filter fun g => (s.core g).saving
  if !u.stopped || late.isEmpty || decide (s.refclk < u.saveAt + 800 * u.t2) then none
  else some ((late.foldl (fun s g => (s.resetCore g).saveCore g true) s).settleLadder q)

/-- SAVE_TIMEOUT (R371). -/
def execSaveTimeout (q : Nat) (s : State) : Out := occurs (s.saveOver q) s

/-! ## Resume (R375) -/

/-- A pool location after the move of its core's cluster. -/
def movedLoc (src dst n : Nat) : Nat :=
  if n < 2 ^ 52 then n
  else
    let g := (n - 2 ^ 52) / 2 ^ 20
    if clusterOf g = clusterOf src then poolLoc (clusterOf dst * 4 + g % 4) ((n - 2 ^ 52) % 2 ^ 20) else n

/-- The slot of a saved task on its new core. -/
def State.savedSlot (s : State) (v : Saved) (g k : Nat) (l : Slot) : Slot :=
  let at_ := s.imageAt v.queue v.core
  let rd := fun (o n : Nat) => s.peek (at_ + o) n
  let l1 := l.ofBlock fun o n => rd (0x1000 + 0x400 * k + o) n
  { l1 with
    v := Vector.ofFn fun n =>
      if n.val < v.vregs then BitVec.ofNat 4096 (rd (0x100000 + regBlock v.vregs k + 512 * n.val) 512) else 0
    m := Vector.ofFn fun n =>
      if n.val = 0 then 0 else BitVec.ofNat 1024 (rd (0x100000 + regBlock v.vregs k + 512 * v.vregs + 128 * n.val) 128)
    pend := (bufferOf rd (0x3000 + 20480 * k)).foldl (fun t c => tset t (movedLoc v.core g c.1) c.2) []
    hidden := l.hidden.map fun h => { h with loc := movedLoc v.core g h.loc }
    pushes := 0
    quiesced := false
    stalled := false }

/-- A BAR that a saved task waits at: it goes on waiting, or completes with the status recorded meanwhile (R244). A join
at admission is asked for again. -/
def State.rejoin (s : State) (r : SlotRef) : State :=
  let l := s.slotAt r
  let n := l.launch
  match l.wait with
  | .bar d g w =>
    match ((s.launch n).gang g.toNat).recorded.find? fun x => x.1 == l.uid with
    | some x =>
      (s.modGang n g.toNat fun y => { y with recorded := y.recorded.erase x }).modSlot r fun l =>
        { l with wait := .barDone d g w x.2 s.refclk }
    | none => s
  | .joining k =>
    s.postGang (s.launch n).gangDie
      { kind := .enroll, launch := n, gang := k, core := r.core, slot := r.slot, uid := l.uid
        due := s.refclk + wayCycles r.core (s.launch n).gangDie }
  | .withdrawn => s.modSlot r fun l => { l with wait := .run }
  | _ => s

/-- The watermark registers and the rings of a core whose saved copies have been cancelled meanwhile (R370, R433). -/
def Core.settleCancelled (c : Core) : Core :=
  (c.cq.recs.filter fun q => q.fin == .cancelled && q.started).foldl (fun c q =>
    (if cpWmen q.ops then c.modWm (cpWmi q.ops) fun w => if w.state = 1 ∧ w.owner = (q.uid, q.ord) then w.setState 4 else w
     else c).fillSlot q) c

/-- A saved core is restored on an empty core (R375), which its context has then placed tasks on (R405). On a degraded pool no
line is pinned by the restore: of R65's zeroes at the first access of a scratchpad line and R375's saved contents the model gives
the zeroes (DESIGN CHOICE, assumption 101). -/
def State.restoreCore (s : State) (v : Saved) (g : Nat) : State :=
  let at_ := s.imageAt v.queue v.core
  let rd := fun (o n : Nat) => s.peek (at_ + o) n
  let s1 := ((s.clearPool g).openPair g (BitVec.ofNat 3 (rd 0x358 1))).modCore g fun c => { Core.wiped c with
    b0 := v.bounds.getD 0 0, b1 := v.bounds.getD 1 0, b2 := v.bounds.getD 2 0, vregs := v.vregs
    context := some v.queue, degraded := s.service == 1
    tags := tagsOf rd v.badTags
    wms := Vector.ofFn fun k => wmOf rd (0x100 + 32 * k.val) (v.owners.getD k.val (0, 0))
    rings := Vector.ofFn fun k => (v.rings.getD k.val Ring.reset).ofImage rd (0x200 + 64 * k.val)
    vq := v.vq, cq := v.cq, mq := v.mq
    lower := bankOf rd 0x20000 0xA0000, upper := bankOf rd 0x60000 0xA8000
    active := { (v.planes.getD 0 Plane.reset) with stale := (v.planes.getD 0 Plane.reset).has }
    shadow := { (v.planes.getD 1 Plane.reset) with stale := (v.planes.getD 1 Plane.reset).has }
    upperCommitted := v.upper, nestRun := v.nest, nestMark := v.nestMark, nestAnchor := v.nestAnchor
    rota := v.rota, turn := v.turn }.settleCancelled
  let b0 := (v.bounds.getD 0 0).toNat * 16384
  let s2 := s1.copyRange (at_ + 0x100000 + b0) (poolLoc g b0) (0x100000 - b0)
  let sh := v.held.foldl (fun s (k, l) => s.setSlot (slotRef g k) l) s2
  let sp := sh.modCluster (clusterOf g) fun k =>
    { k with placed := if k.placed.contains v.queue then k.placed else k.placed ++ [v.queue] }
  let s3 := v.slots.foldl (fun s (k, l) => s.setSlot (slotRef g k) (s.savedSlot v g k l)) sp
  let s4 := v.slots.foldl (fun s (k, _) => s.rejoin (slotRef g k)) s3
  let s5 := if v.reason = 0 then s4 else
    v.slots.foldl (fun s (k, _) => s.pendEvent (slotRef g k) .schedBreak (w64 v.reason)) s4
  (s5.core g).cq.recs.foldl (fun s q =>
    let (step, cyc) := s.cptTime g q
    if q.st == .held && s.timePassed g q.det.toNat step cyc then s.lateCopy g q else s) s5

/-- Whether a saved core can be restored on a core (R28, R375): in D2 only on a die that the context owns or that is free to
own (R378). -/
def State.restorable (s : State) (v : Saved) (g : Nat) : Bool :=
  let l : Launch := { Launch.blank with queue := v.queue, b1 := v.bounds.getD 1 0, b2 := v.bounds.getD 2 0 }
  v.remap.isEmpty && (s.core g).empty && s.coreFits g l && (s.queue v.queue).dies.getLsbD (dieOf g) &&
  ((s.queue v.queue).level != 2 || s.dieFree (dieOf g) v.queue)

/-- The slots of a cluster that are held for a group of which no task is left in the device go free (R41). -/
def State.dropHeld (s : State) (k : Nat) : State :=
  (List.range 4).foldl (fun s c =>
    let g := 4 * k + c
    s.modCore g fun x => x.mapSlots fun l =>
      if !l.occ && l.held && !((s.groupSlots k l.group).any fun r => (s.slotAt r).occ) then
        { l with held := false, group := none } else l) s

/-- The clusters of the device, a given one first. -/
def clusterOrder (k : Nat) : List Nat := k :: List.range 192

/-- The saved cores of one cluster are restored together on one cluster (R41, R375; which one: DESIGN CHOICE, the old
one if it can be). None where no cluster can take them. -/
def State.restoreCluster (s : State) (vs : List Saved) (k : Nat) : Option State :=
  ((clusterOrder k).find? fun c => vs.all fun v => s.restorable v (4 * c + v.core % 4)).map fun c =>
    let d := c / 24
    let s1 := match vs with
      | v :: _ => if (s.queue v.queue).level = 2 then s.ownDie d v.queue else s
      | [] => s
    let s2 : State := { s1 with saved := s1.saved.filter fun v => !(vs.contains v) }
    (vs.foldl (fun s v => s.restoreCore v (4 * c + v.core % 4)) s2).dropHeld c

/-- RESUME's effect (R375): the images are restored as far as cores are empty; once none is left, the queue runs. -/
def State.resumeQueue (s : State) (q : Nat) : Option State :=
  let mine := s.saved.filter fun v => v.queue == q
  match mine with
  | [] => if (s.queue q).stopped then
      some ((s.modQueue q fun u => { u with stopped := false, rung := 0, breakWith := 0, awaits := false }).syncQueue q) else none
  | v :: _ => s.restoreCluster (mine.filter fun x => clusterOf x.core == clusterOf v.core) (clusterOf v.core)

/-! ## Queue reset (R364) -/

/-- Every operation of a queue on its way to a die's semaphores is performed there (R364, step 4). -/
def State.drainDie (s : State) (q d : Nat) : State :=
  let mine := fun (o : SemOp) => o.dev == s.devid && o.queue == q
  ((s.die d).inbox.filter mine).foldl (fun s o => s.applySem d o)
    (s.modDie d fun x => { x with inbox := x.inbox.filter fun o => !(mine o) })

/-- A launch of a queue that is reset ends with STATE 5 and ERR 9 (R364); the status address of one that was never
admitted is read from its descriptor. -/
def State.hostAbort (s : State) (n : Nat) : State :=
  let l := s.launch n
  match l.stage with
  | .over => s
  | .admitted => s.abortLaunch n 9
  | _ =>
    match s.descWords (s.queue l.queue).troot l.desc with
    | some w => (s.modLaunch n fun l => { l with status := w.getD 13 0 }).closeLaunch n 5 9
    | none => s.modLaunch n fun l => { l with stage := .over, state := 5, err := 9 }

/-- The other devices of the system, to whose homes a queue fence is posted (R364). -/
def State.fencedDevices (s : State) : List (BitVec 20) := s.system.filter (· != s.devid)

/-- The fence of a queue with its new generation is posted to the homes of the other devices (R364). -/
def State.postFences (s : State) (q : Nat) : State :=
  { s with outbox := s.outbox ++ s.fencedDevices.map fun d => { dest := d, body := .fence s.devid q (s.queue q).gen } }

/-- A core without any entry of its queues: an entry in flight stops and issues nothing more, not even a completion signal (R364,
step 2). -/
def Core.dropAll (c : Core) : Core :=
  { c with vq := c.vq.keep fun _ => false, cq := c.cq.keep fun _ => false, mq := c.mq.keep fun _ => false, vrun := none, mrun := none
           saving := c.saving && c.slots.toList.any fun l => l.occ }

/-- The steps of a queue reset up to the fence (R364). -/
def State.resetQueue (s : State) (q : Nat) : State :=
  let s1 := (s.launchesOf q).foldl (fun s n => s.hostAbort n) s
  let s2 : State := { s1 with
    saved := s1.saved.filter fun v => v.queue != q
    cores := s1.cores.map fun (g, c) => (g, if c.context = some q then c.dropAll else c)
    dies := s1.dies.map fun (k, d) => (k, { d with
      disp := d.disp.filter fun x => x.1 != q
      waiters := d.waiters.filter fun w => !(w.uid == 0 && w.core == q && w.dev == s.devid)
      inbox := d.inbox.filter fun o => !(o.uid == 0 && o.core == q && o.dev == s.devid &&
        (match o.kind with | .wait .. => true | _ => false)) }) }
  let s3 := s2.modQueue q fun u => { u with
    head := u.tail, err := 0, cadence := false, waiting := false, switching := none, evovf := false }
  let s4 := (List.range 8).foldl (fun s d => s.drainDie q d) s3
  ((s4.modQueue q fun u => { u with gen := u.gen + 1, resetting := true, fences := [] }).postFences q).syncQueue q

/-- HOME_FENCE (R364): the fence reaches a home, which acknowledges. -/
def execHomeFence (q home : Nat) (s : State) : Out :=
  let u := s.queue q
  occurs (if u.resetting && decide (home < homeCount) && !(u.fences.contains home) then
      some (s.modQueue q fun u => { u with fences := home :: u.fences })
    else none) s

/-- The number by which a queue's record of acknowledgements names the homes of another device. -/
def homesOf (dev : BitVec 20) : Nat := homeCount + dev.toNat

/-- Whether every home has acknowledged: the 33 of this device, and those of each other device. -/
def State.fenced (s : State) (q : Nat) : Bool :=
  let u := s.queue q
  u.resetting && ((List.range homeCount).all fun h => u.fences.contains h) &&
    s.fencedDevices.all fun d => u.fences.contains (homesOf d)

end Sys2Proof.Machine
end

