-- ==== Sys2Proof/Machine/Steps.lean ====
section
/-! DEFINITION. Clocks and steps: the reference cycle, replays and stretches (R380, R381), the step boundary (R382 to
R384), the hold of a D2 cluster (R383), supersteps (R389, R390) and snapshots (R406). -/

namespace Sys2Proof.Machine

/-! ## Clocks -/

/-- The slot whose turn it is in D2 (R58); none where no slot was occupied at the superstep's admission. -/
def Core.turnSlot (c : Core) : Option (Fin 4) := (c.rota[c.turn % c.rota.length]?).map (Fin.ofNat 4)

/-- A cycle of a core passes (R58, R236): in D2 the turn passes on, and the slot whose turn it was has one turn less to
give up; otherwise every slot has one cycle less to wait. -/
def Core.passCycle (c : Core) (d2 : Bool) : Core :=
  if d2 then
    match c.turnSlot with
    | some k => { c.setSlot k { c.slot k with yield := (c.slot k).yield - 1 } with turn := (c.turn + 1) % c.rota.length }
    | none => c
  else c.mapSlots fun l => { l with yield := l.yield - 1 }

/-- A cycle of a core that its cluster has in the current reference cycle passes: its watchdogs count (R351). -/
def State.cyclePasses (s : State) (g : Nat) (c : Core) : Core := { c.passCycle (s.fixed g) with wdog := s.watched g }

/-- The cores whose clusters have a cycle left in the current reference cycle pass it. -/
def State.passCycles (s : State) : State :=
  { s with cores := s.cores.map fun (g, c) => (g, if s.lap < s.beats (clusterOf g) then s.cyclePasses g c else c) }

/-- Whether a cluster with a core has a further cycle in the current reference cycle. -/
def State.moreBeats (s : State) : Bool := s.cores.any fun (g, _) => decide (s.lap + 1 < s.beats (clusterOf g))

/-- A stretch takes what it still has to take from the cycle that is under way, but no more than leaves the cycle counted
(R380). -/
def State.payDebt (s : State) (k : Nat) : State :=
  let pay := Nat.min (s.cluster k).debt (s.twentieths k s.refclk % 20)
  if pay = 0 then s else s.modCluster k fun c => { c with lost := c.lost + pay, debt := c.debt - pay }

/-- A cycle passes for every cluster that has one; the reference cycle passes with the last of them (R380, R382). -/
def State.tick (s : State) : State :=
  let s1 := s.passCycles
  if s.moreBeats then { s1 with lap := s1.lap + 1 }
  else
    let s2 : State := { s1 with refclk := s1.refclk + 1, lap := 0 }
    s2.clusters.foldl (fun s (k, _) => s.payDebt k) s2

/-- REPLAY (R381): the cluster stops for 2 cycles, which CYCLE and SCYC do not count. -/
def execReplay (cluster : Nat) (s : State) : Out :=
  occurs (if (s.cluster cluster).hold then none else some (s.standStill cluster 2)) s

/-- DROOP_STRETCH (R380): only an elastic clock stretches. One cycle takes 1.25 times its nominal period, and still counts as
one. -/
def execDroopStretch (cluster : Nat) (s : State) : Out :=
  occurs (if s.fixed (4 * cluster) then none
    else some (s.modCluster cluster fun k =>
      { k with
        debt := k.debt + 5
        stretched := s.refclk :: k.stretched.filter fun t => decide (s.refclk - t < 2 ^ 20) })) s

/-! ## The hold (R383) -/

/-- The slack of the D2 context that holds a cluster (R384). -/
def State.slackOf (s : State) (k : Nat) : Nat := (s.queue ((s.die (k / 24)).d2.getD 0)).slack

/-- Whether the SCYC of a D2 cluster has reached STEPLEN - SLACK. -/
def State.holdDue (s : State) (k : Nat) : Bool :=
  s.fixed (4 * k) && !(s.clusterStopped k) && decide (s.steplen - s.slackOf k ≤ s.scycOf (4 * k) 2)

/-- SCYC_HOLD (R383). -/
def execScycHold (cluster : Nat) (s : State) : Out :=
  occurs (if s.holdDue cluster then some (s.modCluster cluster fun k => { k with hold := true, heldAt := s.refclk }) else none) s

/-! ## The step boundary (R382 to R384) -/

/-- Whether the step of a D2 cluster has overrun at its end: its replays have cost more than SLACK (R384). -/
def State.overran (s : State) (k : Nat) : Bool :=
  s.fixed (4 * k) && decide (s.slackOf k + ((s.cluster k).stop - s.refclk) < (s.cluster k).spent)

/-- STEP_OVERRUN in every occupied slot of a cluster (R384). -/
def State.overrunCluster (s : State) (k : Nat) : State :=
  (List.range 4).foldl (fun s c =>
    ([0, 1, 2, 3] : List (Fin 4)).foldl (fun s j =>
      let r : SlotRef := ⟨4 * k + c, j⟩
      if (s.slotAt r).occ then s.pendEvent r .stepOverrun s.gstep else s) s) s

/-- The step ends and the next begins: GSTEP counts from its first alignment on (R382, R386), SCYC restarts (R383), and
what is left of a replay is spent in the new step. -/
def State.turnStep (s : State) : State :=
  let s1 := s.clusters.foldl (fun s (k, _) => if s.overran k then s.overrunCluster k else s) s
  let sr := s1.clusters.foldl (fun s (k, _) => s.release k) s1
  let s2 : State := { sr with
    stepBase := sr.stepBase + sr.steplen
    gstep := if sr.aligned then sr.gstep + 1 else sr.gstep
    clusters := sr.clusters.map fun (k, c) => (k, { c with spent := c.stop - sr.refclk }) }
  { s2 with dies := s2.dies.map fun (d, x) => (d, { x with drzWindow := x.drzWindow && s2.inWindow }) }

/-! ## Supersteps (R389, R390) -/

/-- The step barrier of a superstep (R389): the boundary after the step in which its last task issues EXIT. -/
def State.barrierStep (s : State) (n : Nat) : State :=
  let l := s.launch n
  let left := ((s.tasksOf n).map s.slotAt) ++
    (s.saved.flatMap fun v => v.slots.map (·.2)).filter fun x => x.launch == n
  if l.stage == .admitted && l.det == 2 && l.barrier.isNone && decide (l.lastTask ≤ l.nextTask) && left.all (·.exiting)
  then s.modLaunch n fun l => { l with barrier := some s.gstep.toNat } else s

/-- Whether the phase of a D2 launch that waits for its admission no longer fits on the launch's dies (R390). -/
def State.tooBig (s : State) (n : Nat) : Bool :=
  let l := s.launch n
  let ds := (List.range 8).filter fun d => l.mask.getLsbD d
  l.stage == .admitted && l.det == 2 && decide (s.slotCount l.queue ds < l.lastTask - l.nextTask)

/-- The end of a superstep (R389): the next phase is due, or the launch has done its last one. A phase that no longer fits
when its turn comes, or while it waits, aborts the launch (R390). -/
def State.endSuperstep (s : State) (n : Nat) : State :=
  let l := s.launch n
  if s.tooBig n then s.abortLaunch n 12
  else if l.stage ≠ .admitted || l.det ≠ 2 || l.doneAt.isSome || !(s.launchQuiet n) then s
  else if !l.morePhases then s.modLaunch n fun l => { l with doneAt := some s.gstep.toNat }
  else
    let t := s.nextPhase n
    if t.tooBig n then s.abortLaunch n 12 else t

/-- The contexts that critical temperature stops are saved at the boundary (R392, reason 2). -/
def State.stopHot (s : State) : State :=
  s.queues.foldl (fun s (q, u) =>
    if u.hot then
      (s.modQueue q fun u => { u with hot := false, stopped := true, ladder := s.refclk }).startSave q 2
    else s) s

/-- What a step boundary does (R382 to R384, R389, R390, R392). The cadence ticks and the admissions of the boundary
follow it in the same cycle. -/
def State.boundaryStep (s : State) : State :=
  let s1 := s.turnStep
  let ns := s1.launches.map (·.1)
  let s2 := ns.foldl (fun s n => s.barrierStep n) s1
  (ns.foldl (fun s n => s.endSuperstep n) s2).stopHot

/-- Whether a step boundary is due. -/
def State.boundaryDue (s : State) : Bool := decide (s.stepBase + s.steplen ≤ s.refclk)

/-- STEP_BOUNDARY (R382). -/
def execStepBoundary (s : State) : Out := occurs (if s.boundaryDue then some s.boundaryStep else none) s

/-! ## Snapshots (R406) -/

/-- Whether an armed trigger latches at this start of a step: in mode 1 at step SNAPSTEP or a later one, in modes 2 and 3
at the first start after the event or command. -/
def State.snapReady (s : State) : Bool :=
  s.refclk == s.stepBase && bitOf s.snapctl 0 &&
  (match bits s.snapctl 3 2, s.snapDue with
   | 1, _ => decide (s.snapstep.toNat ≤ s.gstep.toNat)
   | 2, some t | 3, some t => decide (t < s.stepBase)
   | _, _ => false)

/-- What the snapshot registers of a core latch: PC and TCAUSE of each slot, HEAD and TAIL of each queue, WMP and STAT of
each watermark register. -/
def Core.latched (c : Core) : List W64 :=
  (c.slots.toList.flatMap fun l => [l.pc, l.tcause]) ++
  [w64 c.vq.head, w64 c.vq.tail, w64 c.cq.head, w64 c.cq.tail, w64 c.mq.head, w64 c.mq.tail] ++
  c.wms.toList.flatMap fun w => [w.wm, w.stat]

/-- The mark of a core's matrix entry in flight, or 0. -/
def Core.flightMark (c : Core) : BitVec 128 :=
  match c.mq.recs with
  | q :: _ => if q.st == .running then q.mark else 0
  | [] => 0

/-- The snapshot of every block the tables list; a block that is not listed holds its reset values. The hit and miss
counts of the 128 L2 slices depend on what the caches hold, which no rule makes visible (R76): they are free values
(assumption 67). -/
def State.snapshotNow (s : State) : Snapshot where
  cores := s.cores.map fun (g, c) => (g, c.latched)
  marks := s.cores.map fun (g, c) => (g, c.flightMark)
  counts := (List.range 128).map fun k =>
    (k, Config.freeValue (s.freeCtr + 2 * k), Config.freeValue (s.freeCtr + 2 * k + 1))
  ways := s.dies.flatMap fun (d, x) => x.l2off.map fun (k, off) =>
    (d * 49152 + k, if x.slices.getLsbD (k / 3072) then 0 else ~~~off)
  ports := s.links.map fun (n, l) => (n, [b2n l.half, l.shadow, l.errors])
  mons := s.clusters.map fun (k, c) => (k, c.mon)

/-- The latching of a snapshot: ARM is cleared and DONE set; one that DONE still announces is overwritten. -/
def State.latchHere (s : State) : State :=
  { s with snap := s.snapshotNow, snapctl := s.snapctl &&& ~~~1#64 ||| 2, snapDue := none, freeCtr := s.freeCtr + 256 }

/-- A trigger of the device latches its snapshot, and with SPREAD goes to every other device of the system (R406; assumption
69). -/
def State.latchSnapshot (s : State) : State :=
  { s.latchHere with outbox := s.outbox ++ if bitOf s.snapctl 7 then
      (s.system.filter (· != s.devid)).map fun d => { dest := d, body := .snapTrigger } else [] }

/-- SNAPSHOT_LATCH (R406). -/
def execSnapshotLatch (s : State) : Out := occurs (if s.snapReady then some s.latchSnapshot else none) s

end Sys2Proof.Machine
end

