-- ==== Sys2Proof/Machine/Reliability.lean ====
section
/-! DEFINITION. Soft errors and wear: lanes (R397 to R399), the L2 and the pool (R400 to R403, R348), in-field tests (R404,
R405), monitors and throttling (R407, R430, R431). -/

namespace Sys2Proof.Machine

/-! ## Links (R398, R399) -/

/-- The queues whose contexts hold dies in D2. -/
def State.d2Queues (s : State) : List Nat := (s.dies.filterMap fun (_, x) => x.d2).eraseDups

/-- SCHED_BREAK in every task of a context (R392): those in slots, and those in saved cores when they resume. -/
def State.breakQueue (s : State) (q reason : Nat) : State :=
  let s1 : State := { s with saved := s.saved.map fun v =>
    if v.queue = q ∧ v.reason = 0 then { v with reason := reason } else v }
  (s1.tasksOfQueue q).foldl (fun s r => s.pendEvent r .schedBreak (w64 reason)) s1

/-- The cost of a route (R412): its hops, each at cost 1, with the port's own cost and what other devices' ports add; none
while the port is out of service. -/
def State.costOf (s : State) (r : Route) : Option Nat :=
  if (s.link r.port).out then none else some (r.hops - 1 + r.extra + (s.link r.port).cost)

/-- The port by which flits for a device leave (R412): that of the least-cost route, of several the lowest one. -/
def State.portFor (s : State) (dest : BitVec 20) : Option Nat :=
  ((tget [] s.routes dest.toNat).foldl (fun (acc : Option (Nat × Nat)) r =>
    match s.costOf r, acc with
    | none, _ => acc
    | some c, none => some (c, r.port)
    | some c, some (c0, p0) => if c < c0 ∨ (c = c0 ∧ r.port < p0) then some (c, r.port) else acc) none).map (·.2)

/-- The replay buffer of a port (R412): the latest 64 flits whose way leads through it. What has been acknowledged of them is
the link's own; when a port leaves service, its flits' way leads through another port (R399; assumption 27). -/
def State.replayOf (s : State) (port : Nat) : List Flit :=
  ((s.outbox.reverse.filter fun f => s.portFor f.dest == some port).take 64).reverse

/-- Whether a row of a timed copy of a context lies in the host window (R73). -/
def State.rowAtHost (s : State) (queue : Nat) (q : QRec) (j : Nat) : Bool :=
  let host := fun (a : Int) => match s.fwTranslate (s.queue queue).troot (wrapTo 64 a) 1 with
    | some n => s.region n == some .host
    | none => false
  host (copySrc .timed q.ops j) || host (copyDst .timed q.ops q.dst j)

/-- The copy queues of a context's cores: those of the live ones and of the saved ones (R373). -/
def State.copyQueues (s : State) (queue : Nat) : List EngQ :=
  (s.cores.filterMap fun (_, c) => if c.context = some queue then some c.cq else none) ++
  s.saved.filterMap fun v => if v.queue = queue then some v.cq else none

/-- Whether a route of a CPT of a context goes over a port (R392): a timed copy of it lies in a queue, a row of it is in the
host window, which another device carries to the host (R409), and the port is the one towards that device. Which routes a
context's CPTs take is not given otherwise (DEDUCED, assumption 27). -/
def State.usesPort (s : State) (q n : Nat) : Bool :=
  !s.bridge && s.portFor s.hostDev == some n &&
  (s.copyQueues q).any fun e => e.recs.any fun x => copyKindOf x.instr == some .timed && x.st != .ended &&
    (List.range (copyRows .timed x.ops)).any fun j => s.rowAtHost q x j

/-- A trunk fall, or a scale-up port that leaves service: reason 1 in every task of the D2 contexts that route CPTs over it
(R392, R399). `qs` are those contexts. -/
def State.trunkFall (s : State) (qs : List Nat) : State := qs.foldl (fun s q => s.breakQueue q 1) s

/-- Route-cost flits with a port's cost go to the other devices of the system (R399). -/
def State.sendCost (s : State) (n : Nat) : State :=
  { s with outbox := s.outbox ++ (s.system.filter (· != s.devid)).map fun d =>
    { dest := d, body := .routeCost s.devid n (s.link n).cost } }

/-- A second lane of a link has failed lastingly (R399): a trunk falls to half width with half its window and weight at twice
its cost, a scale-up port leaves service, and an edge retries its flits, is reported, and withholds its dies from D2. -/
def State.secondLane (s : State) (n : Nat) : State :=
  let qs := s.d2Queues.filter fun q => s.usesPort q n
  match linkKind n with
  | .trunk =>
    if (s.link n).half then s
    else (((s.modLink n fun l =>
      { l with half := true, cost := 2 * l.cost, window := l.window / 2, weight := l.weight / 2 }).sendCost n).trunkFall qs)
  | .scaleUp => if (s.link n).out then s else (s.modLink n fun l => { l with out := true }).trunkFall qs
  | .edge =>
    if (s.link n).retry then s
    else ((edgeDies n).foldl (fun s d => s.modDie d fun x => { x with noD2 := true })
      (s.modLink n fun l => { l with retry := true })).reportLasting 0 31

/-- A lane that fails lastingly (R398): its traffic goes to the shadow lane, or the link is short of a lane (R399). A
hand-over for calibration that falls due with it waits for the next period (R408): one that this reference cycle has seen is
taken back. -/
def State.dropLane (s : State) (n lane : Nat) : State :=
  let l := s.link n
  let undo := l.excluded.isEmpty && s.lanePeriod != 0 && l.rot == s.lanePeriod && s.refclk % 2 ^ 20 == 0
  let s1 := (s.modLink n fun l =>
    { l with excluded := lane :: l.excluded, shadow := if undo then (l.shadow + 8) % 9 else l.shadow
             rot := s.lanePeriod }).reportLasting 0 31
  if l.excluded.isEmpty then s1 else s1.secondLane n

/-- Which cluster receives the flit that an edge sends again, by a free value (R399 does not say which): one of the edge's
dies, and none where an I/O die receives it (assumption 70). -/
def retryAt (n v : Nat) : Option Nat :=
  let cs := ((edgeDies n).flatMap fun d => (List.range 24).map fun k => 24 * d + k).map some
  let all := if n < 48 then cs else none :: cs
  all.getD (v % all.length) none

/-- An edge sends a flit again (R399): the receiving cluster stands still for 4 cycles, unless it holds already. -/
def State.retryFlit (s : State) (n : Nat) : State :=
  let (v, s1) := s.free
  match retryAt n v.toNat with
  | some k => if (s1.cluster k).hold then s1 else s1.standStill k 4
  | none => s1

/-- LANE_ERROR (R397): a flit carried with a corrected error counts on its lane; the third in 2^26 cycles makes the
lane fail lastingly. Neither the shadow lane nor an excluded one carries flits, but for the failing lanes of an edge, whose
flits are sent again (R399). -/
def execLaneError (link lane : Nat) (s : State) : Out :=
  let l := s.link link
  let failing := l.retry && l.excluded.dropLast.contains lane
  let idle := (l.excluded.isEmpty && l.shadow == lane) || (l.excluded.contains lane && !failing)
  let s0 := s.modLink link fun l => { l with errors := l.errors + 1 }
  let (lasting, s1) := s0.countFault (.lane link lane)
  occurs (if idle || l.out then none
    else if failing then some (s0.retryFlit link)
    else some (if lasting then s1.dropLane link lane else s1)) s

/-- Whether the hand-over of a period is still to come at a link (R398): every 2^20 reference cycles, while the link has a
spare lane. -/
def State.rotationDue (s : State) (n : Nat) : Bool :=
  let l := s.link n
  l.excluded.isEmpty && !l.out && decide (l.rot < s.lanePeriod)

/-- LANE_ROTATION (R398): the next lane in ascending order becomes the shadow lane. -/
def execLaneRotation (link : Nat) (s : State) : Out :=
  occurs (if s.rotationDue link then
      some (s.modLink link fun l => { l with shadow := (l.shadow + 1) % 9, rot := s.lanePeriod })
    else none) s

/-- LINK_RETRAIN (R398, R399): a port regains its width, its lanes and its rotation, while no D2 context routes over it. -/
def execLinkRetrain (link : Nat) (s : State) : Out :=
  occurs (if linkKind link ≠ .edge ∧ (s.d2Queues.all fun q => !(s.usesPort q link)) then
      some (s.modLink link (·.retrained s.lanePeriod))
    else none) s

/-- ROUTE_COST_FLIT (R399): the routing table takes a port's new cost. -/
def execRouteCostFlit (port cost : Nat) (s : State) : Out :=
  occurs (some (s.modLink port fun l => { l with cost := cost })) s

/-! ## L2 (R401, R403) -/

/-- The ways of a set that are disabled. -/
def State.waysOff (s : State) (d set : Nat) : BitVec 16 := tget 0 (s.die d).l2off set

/-- A way of a set is disabled, persistently (R400); a set with fewer than two ways left retires its slice (R401). What
the L2 holds shows in no value (R76). -/
def State.disableWay (s : State) (d set way : Nat) : State :=
  let off := s.waysOff d set ||| (1#16 <<< way)
  let left := ((List.range 16).filter fun w => !(off.getLsbD w)).length
  let s1 := s.modDie d fun x => { x with
    l2off := tset x.l2off set off
    slices := if left < 2 then x.slices ||| (1#16 <<< (set / 3072)) else x.slices }
  { s1 with flashWays := if s1.flashWays.contains (d, set, way) then s1.flashWays else s1.flashWays ++ [(d, set, way)] }

/-- The granules of a 128-byte line poisoned at the home (R403). -/
def State.poisonLine (s : State) (line : Nat) : State :=
  { s with poison := s.poison ++ ([2 * line, 2 * line + 1].filter fun g => !(s.poison.contains g)) }

/-- L2_ECC_ERROR: a corrected error counts on its way, and a lasting way is disabled (R397, R401); an error that the code
cannot correct at the write-back of a dirty line poisons the line at its home (R403). -/
def execL2EccError (die set way : Nat) (corrected : Bool) (line : Nat) (s : State) : Out :=
  occurs (some (if corrected then
      let (lasting, s1) := s.countFault (.way die set way)
      if lasting then (s1.disableWay die set way).reportLasting 0 31 else s1
    else s.poisonLine line)) s

/-! ## The pool (R402, R348, R69) -/

/-- Whether a piece of the queue area touches a line. -/
def pieceInLine (line : Nat) (p : Piece) : Bool := decide (p.1 < 128 * line + 128 ∧ 128 * line < p.1 + p.2.1)

/-- The records of a core's queues that lie in a line of its pool are at fault (R348). -/
def Core.spoil (c : Core) (line : Nat) : Core :=
  let mark := fun (pieces : QRec → List Piece) (q : EngQ) =>
    { q with recs := q.recs.map fun r => if (pieces r).any (pieceInLine line) then { r with bad := true } else r }
  { c with
    vq := mark (fun r => r.shortPieces) c.vq
    cq := mark (fun r => r.longPieces (0x2000 + 128 * r.idx) 0) c.cq
    mq := mark (fun r => r.longPieces (0x4000 + 128 * r.idx) 0 ++
      (r.table.zipIdx).map fun (w, j) => (0x4800 + 256 * r.idx + 16 * j, 16, w.toNat)) c.mq }

/-- POOL_ECC_ERROR. Lines 0 to 8,191 are the pool's; 8,192 + i stands for entry i of the tag table. A corrected error
counts, and a lasting line is disabled (R397, R402); an uncorrectable one poisons the line (R174), spoils the records in it
(R348), or the tag entry (R70). -/
def execPoolEccError (core line : Nat) (corrected : Bool) (s : State) : Out :=
  occurs (some (if 8192 ≤ line then
      if corrected then s
      else s.modCore core fun c =>
        { c with tags := tset c.tags (line - 8192) { (tget TagEntry.reset c.tags (line - 8192)) with bad := true } }
    else if corrected then
      let (lasting, s1) := s.countFault (.line core line)
      if lasting then
        ({ s1 with flashLines := if s1.flashLines.contains (core, line) then s1.flashLines else s1.flashLines ++ [(core, line)] }).reportLasting
          (dieOf core) (clusterOf core % 24)
      else s1
    else (s.poisonLine ((2 ^ 52 + core * 2 ^ 20) / 128 + line)).modCore core (·.spoil line))) s

/-! ## The device information block (R411) -/

/-- The slots of the configuration flash. -/
def State.image (s : State) (k : Nat) : Image := if k = 0 then s.imageA else s.imageB
/-- The state with an image slot replaced. -/
def State.setImage (s : State) (k : Nat) (i : Image) : State := if k = 0 then { s with imageA := i } else { s with imageB := i }

/-- The VERSION of the running image (R411). -/
def State.version (s : State) : BitVec 16 := Config.imageVersion (s.image s.running.toNat).bytes

/-- The retired clusters, one bit each (R411, R400). -/
def State.retiredBits (s : State) : Nat := (s.flashClusters.eraseDups).foldl (fun a k => a + 2 ^ k) 0

/-- A word of the device information block (R411). -/
def State.infoWord (s : State) (k : Nat) : W64 :=
  match k with
  | 0 => w64 (s.devid.toNat * 16 + s.running.toNat * 4 + s.service.toNat)
  | 1 => s.version.setWidth 64
  | 2 => w64 (natOfBytes (s.farcap.take 8))
  | 3 => w64 (natOfBytes ((s.farcap.drop 8).take 8))
  | 4 | 5 | 6 => w64 (s.retiredBits / 2 ^ (64 * (k - 4)))
  | _ => 0

/-- A group member's information block goes to its bridging device, where the host reads it (R25, R410). -/
def State.sendInfo (s : State) : State :=
  if s.bridge || s.system.isEmpty then s
  else { s with outbox := s.outbox ++
    [{ dest := s.hostDev, body := .infoBlock s.devid ((List.range 7).map fun k => s.infoWord k) }] }

/-! ## In-field tests (R404, R405) -/

/-- Whether every core of a cluster is empty. -/
def State.clusterEmpty (s : State) (k : Nat) : Bool := (List.range 4).all fun c => (s.core (4 * k + c)).empty

/-- The queues with tasks on a cluster. -/
def State.clusterQueues (s : State) (k : Nat) : List Nat :=
  ((s.slotRefs.filter fun r => clusterOf r.core == k && (s.slotAt r).occ).map fun r => (s.launchOf r).queue).eraseDups

/-- FTPER in reference cycles (R404). -/
def State.testPeriod (s : State) : Nat := s.ftper * 2880000000000

/-- Whether a cluster has gone FTPER without a test, or has one due since a D2 context owned its die (R404). -/
def State.testOverdue (s : State) (k : Nat) : Bool :=
  let c := s.cluster k
  c.test == .none && !c.retired && (c.testDue || decide (c.tested + s.testPeriod ≤ s.refclk))

/-- IN_FIELD_TEST (R404): the scheduler stops placing tasks on the cluster, and the test starts once it is empty; on a
die that a D2 context owns it is deferred to the end of that. -/
def execInFieldTest (cluster : Nat) (s : State) : Out :=
  let k := s.cluster cluster
  let fixed := s.fixed (4 * cluster)
  occurs (if k.retired then none
    else match k.test with
      | .none =>
        if !fixed then some (s.modCluster cluster fun k =>
          { k with test := .emptying, testDue := false, tested := s.refclk, emptyAt := s.refclk })
        else if k.testDue then none
        else some (s.modCluster cluster fun k => { k with testDue := true })
      | .emptying =>
        if !fixed && s.clusterEmpty cluster then
          some (s.modCluster cluster fun k => { k with test := .running, emptyAt := s.refclk })
        else none
      | .running => none) s

/-- CLUSTER_EMPTY_TIMEOUT (R404): a cluster that has not emptied within 1 s is emptied by the ladder (R371) of the
queues with tasks on it. -/
def execClusterEmptyTimeout (cluster : Nat) (s : State) : Out :=
  let qs := (s.clusterQueues cluster).filter fun q => !(s.queue q).stopped
  let k := s.cluster cluster
  occurs (if k.test == .emptying && !qs.isEmpty && decide (k.emptyAt + 800000000 ≤ s.refclk) then
      some ((qs.foldl (fun s q => s.startLadder q) s).modCluster cluster fun k => { k with emptied := k.emptied ++ qs })
    else none) s

/-- A queue's images restored as far as they can be. -/
def resumeAll (q : Nat) : Nat → State → State
  | 0, s => s
  | n + 1, s =>
    match s.resumeQueue q with
    | some t => resumeAll q n t
    | none => s

/-- CLUSTER_TEST_RESULT (R404, R405): a pass is recorded and reinstates the cluster; a failure retires it (R24) and posts
SUSPECT to the queues that placed a task there since its last pass. The queues that were pre-empted to empty it go on. -/
def execClusterTestResult (cluster : Nat) (pass : Bool) (s : State) : Out :=
  let k := s.cluster cluster
  let done := fun (s : State) => k.emptied.foldl (fun s q => resumeAll q 768 s) s
  occurs (if k.test ≠ .running then none
    else if pass then
      some (done (s.modCluster cluster fun k => { k with test := .none, lastPass := s.gstep, placed := [], emptied := [] }))
    else
      let s1 := s.modCluster cluster fun k => { k with test := .none, retired := true, placed := [], emptied := [] }
      let s2 : State := { s1 with flashClusters := s1.flashClusters ++ [cluster] }
      let e : Event := { s2.plainEvent 2 (cluster / 24) (cluster % 24) with first := k.lastPass, last := s.gstep }
      some (done ((k.placed.foldl (fun s q => s.postEvent q e) s2.sendInfo).snapEvent 6))) s

/-- Whether the test of a cluster has run for the 20 ms that R404 gives it, 16,000,000 reference cycles. -/
def State.testEnds (s : State) (k : Nat) : Bool :=
  (s.cluster k).test == .running && decide ((s.cluster k).emptyAt + 16000000 ≤ s.refclk)

/-! ## Monitors and heat (R407, R429 to R431) -/

/-- Whether a temperature in 1/16 °C is at least a number of °C. -/
def hotter (temp : BitVec 16) (c : Nat) : Bool := decide ((16 * c : Int) ≤ temp.toInt)

/-- The thermal level after a sample (R430). -/
def thermalLevel (old : Nat) (temp : BitVec 16) : Nat :=
  let upTo := fun (base : Nat) => ((List.range 8).filter fun l => 0 < l && hotter temp (base + 2 * l)).length
  Nat.max (upTo 90) (Nat.min old (upTo 87))

/-- The power level after a sample (R430). -/
def powerLevel (old watts cap : Nat) : Nat :=
  if cap < watts then Nat.min 7 (old + 1) else if watts * 100 < cap * 95 then old - 1 else old

/-- TEMP of MON. -/
def Cluster.temp (k : Cluster) : BitVec 16 := k.mon.setWidth 16

/-- The throttle level of a cluster (R430, R431): a D2 cluster is never throttled, and the elastic clusters of a die with
a cluster at 110 °C are held at 7. -/
def State.throttle (s : State) (k : Nat) : Nat :=
  if s.fixed (4 * k) then 0
  else if (List.range 24).any fun c => hotter (s.cluster (k / 24 * 24 + c)).temp 110 then 7
  else Nat.max (s.cluster k).thermal (s.cluster k).power

/-- Whether a sample of a cluster falls due in this reference cycle (R407): all are taken in every 2^16th. -/
def State.sampleDue (s : State) (k : Nat) : Bool :=
  s.refclk % 65536 == 0 && decide ((s.cluster k).sampled < s.refclk / 65536)

/-- MON_SAMPLE, in every 2^16th reference cycle: MON takes the sensors' values and the count of stretched cycles (R407), the throttle levels follow (R430).
At 110 °C the D2 context of the die is to be stopped at the next step boundary; at 118 °C the power is removed, which is a
package reset (R431). -/
def execMonSample (cluster : Nat) (proc vdd temp : BitVec 16) (watts : Nat) (s : State) : Out :=
  let droop := if s.fixed (4 * cluster) then 0
    else Nat.min 65535 ((s.cluster cluster).stretched.filter fun t => decide (s.refclk - t < 2 ^ 20)).length
  let mon := w64 (proc.toNat * 2 ^ 48 + droop * 2 ^ 32 + vdd.toNat * 2 ^ 16 + temp.toNat)
  let s1 : State := { (s.modCluster cluster fun k => { k with
    mon := mon, sampled := s.refclk / 65536, thermal := thermalLevel k.thermal temp
    power := powerLevel k.power watts s.pcap }) with watts := watts }
  occurs (if !(s.sampleDue cluster) then none
    else some (if hotter temp 118 then s1.packageReset
      else if hotter temp 110 then
        match (s1.die (cluster / 24)).d2 with
        | some q => s1.modQueue q fun u => { u with hot := true }
        | none => s1
      else s1)) s

end Sys2Proof.Machine
end

