-- ==== Sys2Proof/Machine/Host.lean ====
section
/-! DEFINITION. Host, firmware and power: device registers (R10, R352 to R354, R406, R407, R411), the management mailbox and
its commands (R419 to R421), queues (R413), images, boot and live update (R424 to R426), enumeration (R409) and reduced
service (R428). -/

namespace Sys2Proof.Machine

/-! ## Device registers -/

/-- The registers of a Nimbus block (R352). -/
def Die.nimbus (d : Die) (o : Nat) : W64 :=
  match o with
  | 0x00 => d.nbctl
  | 0x08 => d.nbwdog
  | 0x10 => d.nbevt
  | 0x18 => d.nbcnt
  | 0x20 => d.nbtest
  | 0x28 => d.nbtcyc
  | _ => 0

/-- Whether a device register lies at an address (R352, R406, R407, R411, R426). -/
def isDevReg (a : Nat) : Bool :=
  let o := a - 0xF000000000000
  decide (0xF000000000000 ≤ a) &&
  (decide (o < 0x38) || o == 0x1000 || decide (0x100000 ≤ o ∧ o < 0x180000) ||
   decide (0x200000 ≤ o ∧ o < 0x280000 ∧ 0x100 ≤ o % 0x10000 ∧ o % 0x10000 < 0x1C0) || o == 0x300000 || o == 0x300008)

/-- The value of the device register at an address; an address that holds none reads 0 (R420). -/
def State.devRead (s : State) (a : Nat) : W64 :=
  let o := a - 0xF000000000000
  if a < 0xF000000000000 then 0
  else if o < 0x38 then s.infoWord (o / 8)
  else if o = 0x1000 then s.hbeat
  else if 0x100000 ≤ o ∧ o < 0x180000 then (s.die ((o - 0x100000) / 0x10000)).nimbus ((o - 0x100000) % 0x10000)
  else if 0x200000 ≤ o ∧ o < 0x280000 ∧ 0x100 ≤ o % 0x10000 ∧ o % 0x10000 < 0x1C0 then
    (s.cluster ((o - 0x200000) / 0x10000 * 24 + (o % 0x10000 - 0x100) / 8)).mon
  else if o = 0x300000 then s.snapctl
  else if o = 0x300008 then s.snapstep
  else 0

/-- A Nimbus register written field by field (R10, R353, R354); none for a read-only one or for none. -/
def Die.setNimbus (d : Die) (o : Nat) (v : W64) : Option Die :=
  match o with
  | 0x00 => some { d with nbctl := w64 (Nat.max 1 (Nat.min 60000 (bits v 63 32)) * 2 ^ 32 + bits v 1 0) }
  | 0x08 => some { d with nbwdog := w64 (Nat.max 1024 (bits v 31 0)) }
  | 0x20 =>
    let eng := if bits v 4 3 = 3 then 0 else bits v 4 3
    let kind := if bits v 2 1 = 3 then 0 else bits v 2 1
    some { d with nbtest := w64 (bits v 11 5 * 32 + eng * 8 + kind * 2 + bits v 0 0) }
  | 0x28 => some { d with nbtcyc := v }
  | _ => none

/-- SNAPCTL written (R406): DONE is W1C. -/
def snapWrite (old v : W64) : W64 :=
  w64 (bits v 7 2 * 4 + bits v 0 0 + (if bitOf old 1 && !(bitOf v 1) then 2 else 0))

/-- A write to one of the writable device registers (R420); none for any other address. -/
def State.devWrite (s : State) (a : Nat) (v : W64) : Option State :=
  let o := a - 0xF000000000000
  if a < 0xF000000000000 then none
  else if 0x100000 ≤ o ∧ o < 0x180000 then
    let d := (o - 0x100000) / 0x10000
    ((s.die d).setNimbus ((o - 0x100000) % 0x10000) v).map fun x => s.modDie d fun _ => x
  else if o = 0x300000 then some { s with snapctl := snapWrite s.snapctl v, snapDue := none }
  else if o = 0x300008 then some { s with snapstep := v }
  else none

/-! ## The mailbox (R419 to R421) -/

/-- The STATEs in which a command is accepted (R420); none for a reserved OPCODE. -/
def opStates (op : Nat) : Option (List Nat) :=
  if op = 0x06 ∨ op = 0x08 ∨ op = 0x09 ∨ op = 0x0A then some [0, 1, 2, 3]
  else if op = 0x10 then some [1]
  else if 1 ≤ op ∧ op ≤ 0x11 then some [1, 2]
  else none

/-- The answer to the command in progress (R421): RESULT, TAG and the results, and GO is cleared; a command from another
device is answered over the links. -/
def State.putAnswer (s : State) (result : Nat) (res : List W64) : State :=
  match s.mbox.cmd with
  | none => s
  | some c =>
    match c.src with
    | some d =>
      { s with
        mbox := { s.mbox with cmd := none }
        outbox := s.outbox ++ [{ dest := d, body := .mailboxAnswer c.tag (BitVec.ofNat 16 result) res }] }
    | none =>
      { s with mbox := { s.mbox with
          cmd := none, go := false, result := BitVec.ofNat 16 result, rtag := c.tag
          res := (res.zipIdx).foldl (fun t (v, k) => tset t k v) s.mbox.res } }

/-- The check of a command that has come in: one that is not accepted in the current STATE returns 3 (R420). -/
def State.acceptCmd (s : State) : State :=
  match s.mbox.cmd with
  | none => s
  | some c =>
    match opStates c.opcode with
    | none => s.putAnswer 1 []
    | some st =>
      if !(st.contains s.service.toNat) || (c.opcode == 0x10 && s.queueMade) then s.putAnswer 3 [] else s

/-- The commands that wait come in, one after the other, while none is in progress (R419). -/
def State.nextCmds (s : State) : List Cmd → State
  | [] => { s with cmdWait := [] }
  | c :: cs =>
    if s.mbox.cmd.isSome then { s with cmdWait := c :: cs }
    else ({ s with mbox := { s.mbox with cmd := some c } }.acceptCmd).nextCmds cs

/-- The command in progress is answered, and the next one that waits comes in. -/
def State.answerCmd (s : State) (result : Nat) (res : List W64) : State := (s.putAnswer result res).nextCmds s.cmdWait

/-- The mailbox bit of the queue cores is set (R423). -/
def State.ringAll (s : State) (b : BitVec 7) : State := s.residents.foldl (fun s q => s.ring q b) s

/-- Word k of the configuration block of queue q (R410). -/
def State.block (s : State) (q k : Nat) : W64 := tget 0 s.cfgblocks (16 * q + k)

/-- The configuration block that goes with a command to a member. -/
def State.sentBlock (s : State) (c : Cmd) : List W64 :=
  if c.opcode = 1 then (List.range 16).map fun k => s.block (c.args.getD 0 0).toNat k else []

/-- GO is set (R419): a reserved OPCODE or bit returns 1, a MEMBER that is not there 7; a member's command goes to it over
the links, a CREATE with the configuration block that the host has written for its queue (R413). -/
def State.submit (s : State) (badGo : Bool) : State :=
  let m := s.mbox
  let args := (List.range 14).map fun k => tget 0 m.args k
  let c : Cmd := { opcode := m.opcode.toNat, tag := m.tag, args := args, src := none, away := false, started := false }
  let s1 : State := { s with mbox := { m with go := true, cmd := some c } }
  if badGo || m.reserved ≠ 0 || (opStates c.opcode).isNone then s1.answerCmd 1 []
  else if m.member = 0 then s1.acceptCmd.ringAll 0x10
  else match s.members[m.member.toNat - 1]? with
    | none => s1.answerCmd 7 []
    | some d =>
      { s1 with
        mbox := { s1.mbox with cmd := some { c with away := true } }
        outbox := s1.outbox ++ [{ dest := d, body := .mailboxCommand s.devid m.tag m.opcode args (s.sentBlock c) }] }

/-- A host write to the mailbox (R419). -/
def State.mboxWrite (s : State) (o : Nat) (v : W64) : State :=
  let m := s.mbox
  if o = 0 then
    { s with mbox := { m with
        opcode := BitVec.ofNat 16 (bits v 15 0), member := BitVec.ofNat 4 (bits v 19 16)
        reserved := BitVec.ofNat 12 (bits v 31 20), tag := BitVec.ofNat 32 (bits v 63 32) } }
  else if o < 0x78 then { s with mbox := { m with args := tset m.args (o / 8 - 1) v } }
  else if o = 0x80 then (if m.go || !(bitOf v 0) then s else s.submit (bits v 63 1 != 0))
  else if 0x800 ≤ o then
    { s with mbox := { m with data := (cellsLE (o - 0x800) 8 v.toNat).foldl (fun t c => tset t c.1 c.2) m.data } }
  else s

/-- Flambeol acts on the command in progress, if it has the OPCODE. -/
def State.onCmd (s : State) (op : Nat) (f : Cmd → Option State) : Option State :=
  match s.mbox.cmd with
  | some c => if c.opcode = op && !c.away then f c else none
  | none => none

/-- An argument of a command. -/
def Cmd.arg (c : Cmd) (k : Nat) : W64 := c.args.getD k 0

/-- The action of the command in progress has started and goes on (R421). -/
def State.startCmd (s : State) : State :=
  { s with mbox := { s.mbox with cmd := s.mbox.cmd.map fun c => { c with started := true } } }

/-- A command on a queue that does not exist returns 2. -/
def State.onQueue (s : State) (op : Nat) (f : Cmd → Nat → Option State) : Option State :=
  s.onCmd op fun c =>
    let q := (c.arg 0).toNat
    if 4096 ≤ q || !(tmem s.queues q) then some (s.answerCmd 2 []) else f c q

/-! ## Queues (R413) -/

/-- Whether two ranges of semaphores meet. -/
def grantsMeet (b n b' n' : Nat) : Bool := decide (0 < n ∧ 0 < n' ∧ b < b' + n' ∧ b' < b + n)

/-- Whether the configuration block of a queue breaks a limit of R413; TROOT has the layout of R79. -/
def State.blockBad (s : State) (q : Nat) : Bool :=
  let w := s.block q
  let b := bits (w 6) 13 0
  let n := bits (w 6) 29 16
  let near := fun (a : W64) => a.toNat % 0x200000 == 0 && s.region a.toNat == some .near
  let root := fun (a : W64) => a.toNat % 0x10000 == 0 && (s.region a.toNat == some .near || s.region a.toNat == some .far)
  bits (w 1) 7 4 != 0 || bits (w 1) 31 21 != 0 || bits (w 1) 63 48 != 0 || bits (w 4) 63 4 != 0 || bits (w 6) 15 14 != 0 ||
  bits (w 6) 63 30 != 0 || bits (w 7) 63 32 != 0 || bits (w 10) 63 8 != 0 ||
  (([11, 12, 13, 14, 15] : List Nat).any fun k => w k != 0) ||
  (w 0).toNat % 4096 != 0 || (s.region (w 0).toNat).isNone || decide (bits (w 1) 3 0 < 4) || bits (w 1) 17 16 == 3 ||
  decide (s.steplen / 2 < bits (w 1) 47 32) || (w 2).toNat % 8 != 0 || (w 3).toNat % 4096 != 0 ||
  decide (bits (w 4) 3 0 < 4) || decide (12 < bits (w 4) 3 0) || !(root (w 5)) || decide (16384 < b + n) ||
  decide (bits (w 7) 31 16 < 100) || decide (65000 < bits (w 7) 31 16) || !(near (w 8)) || !(near (w 9)) ||
  s.queues.any fun (_, u) => grantsMeet b n u.semb u.semn

/-- The queue that a configuration block describes: generation 0, rung 0 (R413). -/
def State.queueOfBlock (s : State) (q : Nat) : Queue :=
  let w := s.block q
  { Queue.blank with
    ring := w 0
    log2n := bits (w 1) 3 0
    prio := BitVec.ofNat 8 (bits (w 1) 15 8)
    level := BitVec.ofNat 2 (bits (w 1) 17 16)
    blockLevel := BitVec.ofNat 2 (bits (w 1) 17 16)
    ws := BitVec.ofNat 2 (bits (w 1) 19 18)
    excl := bitOf (w 1) 20
    slack := bits (w 1) 47 32
    stataddr := w 2
    evring := w 3
    log2e := bits (w 4) 3 0
    troot := w 5
    semb := bits (w 6) 13 0
    semn := bits (w 6) 29 16
    t1 := bits (w 7) 15 0
    t2 := bits (w 7) 31 16
    ckbase := w 8
    savebase := w 9
    dies := BitVec.ofNat 8 (bits (w 10) 7 0) }

/-- A queue is created, and its status word written (R413, R414). -/
def State.createQueue (s : State) (q : Nat) : State :=
  let s1 : State := { s with queues := tset s.queues q (s.queueOfBlock q), queueMade := true }
  let v := s1.statusOf q
  (s1.firmWrite (cellsLE (s1.queue q).stataddr.toNat 8 v.toNat)).modQueue q fun u => { u with statword := v }

/-- CREATE (R413, R420). -/
def execCreate (s : State) : Out :=
  occurs (s.onCmd 0x01 fun c =>
    let q := (c.arg 0).toNat
    if 4096 ≤ q then some (s.answerCmd 2 [])
    else if tmem s.queues q then some (s.answerCmd 4 [])
    else if s.blockBad q then some (s.answerCmd 2 [])
    else some ((s.createQueue q).answerCmd 0 [])) s

/-- A queue is removed: nothing keeps its name (R417). -/
def State.destroyQueue (s : State) (q : Nat) : State :=
  let s1 := s.disownDies q
  { s1 with
    queues := tdel s1.queues q
    launches := s1.launches.filter fun (_, l) => l.queue != q
    saved := s1.saved.filter fun v => v.queue != q
    pendingMap := s1.pendingMap.filter (· != q)
    dies := s1.dies.map fun (k, d) => (k, { d with disp := d.disp.filter fun x => x.1 != q })
    cores := s1.cores.map fun (g, c) => (g, if c.context = some q then { c with context := none } else c) }

/-- DESTROY (R420). -/
def execDestroy (s : State) : Out :=
  occurs (s.onQueue 0x02 fun _ q =>
    if s.queueQuiet q then some ((s.destroyQueue q).answerCmd 0 []) else some (s.answerCmd 4 [])) s

/-- QRESET (R364): the reset starts, after a live update has ended (R432); it ends with QUEUE_RESET_COMPLETE. -/
def execQreset (s : State) : Out :=
  occurs (s.onQueue 0x03 fun c q => if c.started || s.update.isSome then none else some ((s.resetQueue q).startCmd)) s

/-- QUEUE_RESET_COMPLETE (R364): every home has acknowledged, and completion is reported to the host. -/
def execQueueResetComplete (q : Nat) (s : State) : Out :=
  let s1 := s.modQueue q fun u => { u with resetting := false, fences := [] }
  occurs (if !(s.fenced q) then none
    else match s.mbox.cmd with
      | some c =>
        if c.opcode = 0x03 && c.started && (c.arg 0).toNat = q then
          some (s1.answerCmd 0 [((s.queue q).gen).setWidth 64])
        else some s1
      | none => some s1) s

/-- PREEMPT (R371): the ladder starts; the command ends when no task of the queue is left in a slot. -/
def execPreempt (s : State) : Out :=
  occurs (s.onQueue 0x04 fun c q =>
    if !c.started then some ((s.startLadder q).startCmd)
    else if s.ladderOver q then some (s.answerCmd 0 [((s.queue q).rung).setWidth 64])
    else none) s

/-- RESUME (R375): images are restored until the queue runs; a queue that is not pre-empted is left as it is. -/
def execResume (s : State) : Out :=
  occurs (s.onQueue 0x05 fun _ q =>
    if !(s.queue q).stopped then some (s.answerCmd 0 []) else (s.resumeQueue q).map fun t => t.startCmd) s

/-! ## Device commands -/

/-- PKGRESET (R362, R420): a group member answers over the links; the bridging device's own mailbox reads its reset values,
GO among them. -/
def execPkgreset (s : State) : Out := occurs (s.onCmd 0x06 fun _ => some (s.putAnswer 0 []).packageReset) s

/-- PCAP (R429). -/
def execPcap (s : State) : Out :=
  occurs (s.onCmd 0x0B fun c =>
    let w := (c.arg 0).toNat
    if 800 ≤ w ∧ w ≤ 1950 then some ({ s with pcap := w }.answerCmd 0 []) else some (s.answerCmd 2 [])) s

/-- Whether a number of cycles is a STEPLEN (R382). -/
def steplenOk (n : Nat) : Bool := n % 256 == 0 && decide (256 ≤ n ∧ n ≤ 65536)

/-- SETPARAM (R420, R93, R404, R382). -/
def execSetparam (s : State) : Out :=
  occurs (s.onCmd 0x0C fun c =>
    let v := (c.arg 1).toNat
    let ok := fun (t : State) => some (t.answerCmd 0 [c.arg 1])
    match (c.arg 0).toNat with
    | 1 => if 1 ≤ v ∧ v ≤ 65535 then ok { s with shootWait := v } else some (s.answerCmd 2 [])
    | 2 => if 1 ≤ v ∧ v ≤ 168 then ok { s with ftper := v } else some (s.answerCmd 2 [])
    | 3 => if !(steplenOk v) then some (s.answerCmd 2 [])
      else if !s.queues.isEmpty then some (s.answerCmd 4 []) else ok { s with steplen := v }
    | _ => some (s.answerCmd 2 [])) s

/-- SNAPSHOT (R406): the host command of mode 3. -/
def execSnapshot (s : State) : Out :=
  occurs (s.onCmd 0x0D fun _ =>
    let t := if bitOf s.snapctl 0 && bits s.snapctl 3 2 == 3 then { s with snapDue := some s.refclk } else s
    some (t.answerCmd 0 [])) s

/-- DEVREAD (R420). Where the fuse block lies is not given: no register of this manual lies in it, and any other address may
(assumption 29). -/
def execDevread (s : State) : Out :=
  occurs (s.onCmd 0x0E fun c =>
    let a := (c.arg 0).toNat
    some (if a % 8 ≠ 0 || (decide (0xF000000000000 ≤ a) && !(isDevReg a) && Config.inFuses a) then s.answerCmd 2 []
      else s.answerCmd 0 [s.devRead a])) s

/-- DEVWRITE (R420). -/
def execDevwrite (s : State) : Out :=
  occurs (s.onCmd 0x0F fun c =>
    match s.devWrite (c.arg 0).toNat (c.arg 1) with
    | some t => some (t.answerCmd 0 [])
    | none => some (s.answerCmd 2 [])) s

/-! ## The disable bitmap (R400) -/

/-- The L2 ways of every die as the disable bitmap has them; a set with fewer than two ways left retires its slice
(R400, R401). -/
def State.restoreWays (s : State) : State :=
  let s1 : State := { s with dies := s.dies.map fun (k, d) => (k, { d with l2off := [], slices := 0 }) }
  s1.flashWays.foldl (fun s (d, set, way) => s.disableWay d set way) s1

/-- CLEARMAP (R400, R420): kind 0, index 16 x set + way over the 16 x 3,072 sets of a die; kind 1, index 8,192 x core + line
(the numbering of the bits is a DESIGN CHOICE). -/
def execClearmap (s : State) : Out :=
  occurs (s.onCmd 0x10 fun c =>
    let d := (c.arg 0).toNat
    let k := (c.arg 1).toNat
    let i := (c.arg 2).toNat
    if 8 ≤ d || 2 ≤ k || 786432 ≤ i then some (s.answerCmd 2 [])
    else if k = 0 then
      some (({ s with flashWays := s.flashWays.filter (· != (d, i / 16, i % 16)) }.restoreWays).answerCmd 0 [])
    else some ({ s with flashLines := s.flashLines.filter (· != (96 * d + i / 8192, i % 8192)) }.answerCmd 0 [])) s

/-- GROUP (R409, R420): the mask of members, and the devices refused. -/
def execGroup (s : State) : Out :=
  occurs (s.onCmd 0x11 fun _ =>
    some (s.answerCmd 0 [w64 (2 ^ (s.members.length + 1) - 1 + s.refusedIds % 65536 * 65536)])) s

/-! ## Images (R424) -/

/-- The bytes at a bus address of the host (R73). -/
def State.busBytes (s : State) (addr len : Nat) : List Byte :=
  (List.range len).map fun k => s.mem.get (0x8000000000000 + addr + k)
/-- Whether a range of bus addresses lies in the host window. -/
def busOk (addr len : Nat) : Bool := decide (addr + len ≤ 0x4000000000000)

/-- Whether an image passes R424: its digest and signature, and its VERSION against the fused minimum. -/
def imageOk (bytes : List Byte) : Bool :=
  Config.imageVerifies bytes && decide (Config.fusedMinVersion.toNat ≤ (Config.imageVersion bytes).toNat)

/-- SLOTWRITE (R420): a running slot is refused; nothing runs in recovery. -/
def execSlotwrite (s : State) : Out :=
  occurs (s.onCmd 0x08 fun c =>
    let k := (c.arg 0).toNat
    let a := (c.arg 1).toNat
    let n := (c.arg 2).toNat
    if 2 ≤ k || !(busOk a n) then some (s.answerCmd 2 [])
    else if s.service ≠ 3 && k = s.running.toNat then some (s.answerCmd 4 [])
    else some ((s.setImage k { bytes := s.busBytes a n, verified := false }).answerCmd 0 [])) s

/-- SLOTVERIFY (R420, R424). -/
def execSlotverify (s : State) : Out :=
  occurs (s.onCmd 0x09 fun c =>
    let k := (c.arg 0).toNat
    let i := s.image k
    if 2 ≤ k then some (s.answerCmd 2 [])
    else if imageOk i.bytes then
      some ((s.setImage k { i with verified := true }).answerCmd 0 [(Config.imageVersion i.bytes).setWidth 64])
    else some ((s.setImage k { i with verified := false }).answerCmd 6 [])) s

/-- SETSLOT (R420). -/
def execSetslot (s : State) : Out :=
  occurs (s.onCmd 0x0A fun c =>
    let k := (c.arg 0).toNat
    if 2 ≤ k then some (s.answerCmd 2 [])
    else if (s.image k).verified then some ({ s with activeSlot := BitVec.ofNat 1 k }.answerCmd 0 [])
    else some (s.answerCmd 4 [])) s

/-! ## Live update (R426) -/

/-- The end of an update: its command, if it is still the one in progress, is answered. -/
def State.endUpdate (s : State) (result : Nat) : State :=
  let s1 : State := { s with update := none }
  match s.mbox.cmd with
  | some c => if c.opcode = 0x07 && c.started then s1.answerCmd result [s1.version.setWidth 64] else s1
  | none => s1

/-- The new image runs: its slot becomes active (R426). -/
def State.keepImage (s : State) (u : Update) : State := { s with activeSlot := u.newSlot }.endUpdate 0

/-- The running image starts on the 16 queue cores (R426): each begins with its first word, and what has been signalled to it stays
pending. -/
def State.restartQueueCores (s : State) : State :=
  let code := Config.imageProgram (s.image s.running.toNat).bytes
  { s with fcores := (List.range 16).map fun n => (n, { FCore.reset with lmem := code, pending := (s.fcore n).pending })
           fcur := some 0, fwoken := (List.range 16).drop 1 }

/-- ROLLBACK (R426): the old image runs again on the same handover structure, and the new slot is invalid. -/
def State.rollBack (s : State) (u : Update) : State :=
  ((({ s with running := u.oldSlot }.setImage u.newSlot.toNat
    { s.image u.newSlot.toNat with verified := false }).restartQueueCores).endUpdate 5).sendInfo

/-- The words of a queue's configuration block as Flambeol holds them (R413). -/
def Queue.blockWords (u : Queue) : List Nat :=
  [u.ring.toNat,
   u.log2n + u.prio.toNat * 2 ^ 8 + u.blockLevel.toNat * 2 ^ 16 + u.ws.toNat * 2 ^ 18 + b2n u.excl * 2 ^ 20 + u.slack * 2 ^ 32,
   u.stataddr.toNat, u.evring.toNat, u.log2e, u.troot.toNat, u.semb + u.semn * 2 ^ 16, u.t1 + u.t2 * 2 ^ 16,
   u.ckbase.toNat, u.savebase.toNat, u.dies.toNat, 0, 0, 0, 0, 0]

/-- What the handover structure holds for a queue (R427): its block, HEAD, GEN, LEVEL and rung, PERIOD, T, and the event
sequence number. -/
def Queue.handover (u : Queue) : List Nat :=
  u.blockWords ++ [u.head.toNat, u.gen.toNat + u.level.toNat * 2 ^ 8 + u.rung.toNat * 2 ^ 16,
    if u.cadence then u.period.toNat else 0, u.tick.toNat, u.evseq.toNat]

/-- Where the handover structure lies: in near memory of die 0 (R427), at a place that is left open (assumption 32). -/
def handoverAt : Nat := Config.handoverPage % 0xA0000 * 4096

/-- The bytes of the disable bitmap, from an address on (R400): for each die the way masks of its sets, then the lines of its
cores. -/
def State.mapBits (s : State) (at_ : Nat) : List (Nat × Nat) :=
  (s.flashWays.map fun (d, x, w) => (at_ + d * 196608 + 2 * x + w / 8, w % 8)) ++
  s.flashLines.map fun (g, n) => (at_ + dieOf g * 196608 + 98304 + g % 96 * 1024 + n / 8, n % 8)

/-- The handover structure is written (R427): VERSION and the byte length, then each queue, SHOOT_WAIT and the disable bitmap.
The layout beyond word 0 and the order of the parts are a DESIGN CHOICE (assumption 32). -/
def State.writeHandover (s : State) : State :=
  let ws := s.queues.flatMap (fun (_, u) => u.handover) ++ [s.shootWait]
  let at_ := handoverAt + 8 + 8 * ws.length
  let len := 8 + 8 * ws.length + 8 * 196608
  let s1 := (s.zeroRange handoverAt len).poke handoverAt 8 (Config.handoverVersion + len * 2 ^ 16)
  let s2 := s1.homeWrite ((ws.zipIdx).flatMap fun (v, k) => cellsLE (handoverAt + 8 + 8 * k) 8 v)
  (s.mapBits at_).foldl (fun s b => s.homeWrite [(b.1, s.mem.get b.1 ||| (1#8 <<< b.2))]) s2

/-- Whether every queue stands at a packet boundary (R426): no queue core has a packet that it has fetched and not yet done
with. -/
def State.atPackets (s : State) : Bool := s.queues.all fun (_, u) => !u.staged

/-- The hand-over of an update (R426): the handover structure is written, and the new image runs on the queue cores until its
heartbeat. -/
def State.handOver (s : State) (u : Update) : State :=
  ((({ s with running := u.newSlot, update := some { u with since := s.refclk, handed := true } }).writeHandover).restartQueueCores).ringAll
    0x40

/-- UPDATE (R426): the image is written into the inactive slot and verified; from then on no queue core fetches packets, and at
a packet boundary of every queue the new image takes over. -/
def execUpdate (s : State) : Out :=
  occurs (s.onCmd 0x07 fun c =>
    let a := (c.arg 0).toNat
    let n := (c.arg 1).toNat
    let k := 1 - s.running.toNat
    if c.started then
      match s.update with
      | some u => if !u.handed && s.atPackets then some (s.handOver u) else none
      | none => none
    else if !(busOk a n) then some (s.answerCmd 2 [])
    else
      let bytes := s.busBytes a n
      let ok := imageOk bytes
      let s1 := s.setImage k { bytes := bytes, verified := ok }
      if !ok then some (s1.answerCmd 6 [s.version.setWidth 64])
      else
        let u : Update := { oldSlot := s.running, newSlot := BitVec.ofNat 1 k, since := s.refclk, handed := false }
        let s2 := { s1 with update := some u }.startCmd
        some (if s2.atPackets then s2.handOver u else s2)) s

/-- HBEAT is written (R426, R427): 1 within 50 ms accepts the handover, 2 refuses it. -/
def State.beat (s : State) (v : W64) : State :=
  let s1 : State := { s with hbeat := v }
  match s.update with
  | none => s1
  | some u =>
    if !u.handed then s1
    else if v = 1 && decide (s.refclk ≤ u.since + 40000000) then (s1.keepImage u).sendInfo
    else if v = 2 then s1.rollBack u else s1

/-- HBEAT (R426). -/
def execHbeat (value : BitVec 64) (s : State) : Out := occurs (some (s.beat value)) s

/-- HEARTBEAT_TIMEOUT's effect (R426): 40,000,000 reference cycles have passed. -/
def State.beatOver (s : State) : Option State :=
  match s.update with
  | some u => if u.handed && decide (u.since + 40000000 ≤ s.refclk) then some (s.rollBack u) else none
  | none => none

/-- HEARTBEAT_TIMEOUT (R426). -/
def execHeartbeatTimeout (s : State) : Out := occurs s.beatOver s

/-! ## Register writes (R10, R410) -/

/-- A write to a register: by the host to BAR0 of a bridging device, or by Flambeol to the device range. An address that
holds no register, and a read-only register, take no effect. -/
def State.regWrite (s : State) (space : RegSpace) (a : Nat) (v : W64) : State :=
  if a % 8 ≠ 0 then s else
  match space with
  | .device => if a = 0xF000000001000 then s.beat v else (s.devWrite a v).getD s
  | .bar0 =>
    if !s.bridge then s
    else if 0x100000 ≤ a ∧ a < 0x108000 then (s.doorbell ((a - 0x100000) / 8) (v.setWidth 32)).getD s
    else if 0x200000 ≤ a ∧ a < 0x280000 then { s with cfgblocks := tset s.cfgblocks ((a - 0x200000) / 8) v }
    else if 0x1000000 ≤ a ∧ a < 0x1001000 then s.mboxWrite (a - 0x1000000) v
    else s

/-- DEVICE_REGISTER_WRITE (R10). -/
def execDeviceRegisterWrite (space : RegSpace) (addr value : BitVec 64) (s : State) : Out :=
  occurs (some (s.regWrite space addr.toNat value)) s

/-! ## Register reads by the host (R410) -/

/-- The mailbox as the host reads it (R419); reserved bits read 0. -/
def Mailbox.read (m : Mailbox) (o : Nat) : W64 :=
  if o = 0 then w64 (m.opcode.toNat + m.member.toNat * 2 ^ 16 + m.tag.toNat * 2 ^ 32)
  else if o < 0x78 then tget 0 m.args (o / 8 - 1)
  else if o = 0x80 then w64 (b2n m.go)
  else if o = 0x100 then w64 (m.result.toNat + m.rtag.toNat * 2 ^ 32)
  else if 0x108 ≤ o ∧ o < 0x178 then tget 0 m.res ((o - 0x108) / 8)
  else if 0x800 ≤ o ∧ o < 0x1000 then w64 (natOfBytes ((List.range 8).map fun j => tget 0 m.data (o - 0x800 + j)))
  else 0

/-- What the host reads at an 8-byte aligned offset of BAR0 (R410): the information blocks of the bridging device and of the
members as they last reported them, the configuration blocks, the mailbox; an unassigned offset reads 0. None for a doorbell,
whose value on a read is not given. A device that does not bridge presents no function (R25). -/
def State.bar0Read (s : State) (a : Nat) : Option W64 :=
  if !s.bridge then some 0
  else if a < 0x38 then some (s.infoWord (a / 8))
  else if 0x10100 ≤ a ∧ a < 0x11000 then
    some (if a % 0x100 < 0x38 then (tget [] s.infos ((a - 0x10000) / 0x100)).getD (a % 0x100 / 8) 0 else 0)
  else if 0x100000 ≤ a ∧ a < 0x108000 then none
  else if 0x200000 ≤ a ∧ a < 0x280000 then some (tget 0 s.cfgblocks ((a - 0x200000) / 8))
  else if 0x1000000 ≤ a ∧ a < 0x1001000 then some (s.mbox.read (a - 0x1000000))
  else some 0

/-! ## Boot and enumeration (R409, R424, R428) -/

/-- The device's STATE changes, and with it the rate of the elastic clocks (R428). -/
def State.setService (s : State) (v : BitVec 2) : State :=
  let s1 := if s.refclk = 0 then s else (List.range 8).foldl (fun s d => s.rebaseDie d) s
  { s1 with service := v }

/-- A number for the disable bitmap and the configuration block, to be measured (R425). -/
def State.configNumber (s : State) : Nat × Nat :=
  ((s.flashWays.foldl (fun a (d, x, w) => a * 2 ^ 32 + (d * 49152 + x) * 16 + w) 1) * 2 ^ 64 +
    s.flashLines.foldl (fun a (g, n) => a * 2 ^ 32 + g * 8192 + n) 1 + s.retiredBits * 2 ^ 128,
   s.identity.toNat + b2n s.bridge * 2 ^ 20 + natOfBytes s.farcap * 2 ^ 32)

/-- The measurements recorded before boot ends (R425): ROM, image, disable bitmap, configuration block. -/
def State.measured (s : State) : List (BitVec 384) :=
  [Config.digest 0, Config.digest (natOfBytes (s.image s.running.toNat).bytes),
   Config.digest s.configNumber.1, Config.digest s.configNumber.2]

/-- The slot that boots (R424): the active one if it verifies, otherwise the other one. -/
def State.bootSlot (s : State) : Option (BitVec 1) :=
  if imageOk (s.image s.activeSlot.toNat).bytes then some s.activeSlot
  else if imageOk (s.image (1 - s.activeSlot.toNat)).bytes then some (~~~s.activeSlot)
  else none

/-- Boot (R424, R409, R400): the image runs, the disable bitmap and the retired clusters are restored, and a bridging
device enters reduced service under its own identity; without an image the device is in recovery. Either way the mailbox holds what
R419 gives it after boot. -/
def State.booted (s : State) : State :=
  match s.bootSlot with
  | none => { s.setService 3 with mbox := Mailbox.reset }
  | some k =>
    let s0 := s.setService (if s.bridge then 1 else 0)
    let s1 : State := { s0 with
      running := k
      imageA := { s.imageA with verified := imageOk s.imageA.bytes }
      imageB := { s.imageB with verified := imageOk s.imageB.bytes }
      devid := if s.bridge then s.identity else 0
      system := if s.bridge then [s.identity] else []
      mbox := Mailbox.reset }
    let s2 := s1.flashClusters.foldl (fun s k => s.modCluster k fun c => { c with retired := true }) s1.restoreWays
    { s2 with measurements := s2.measured }

/-- BOOT (R424): once, while the device boots. -/
def execBoot (s : State) : Out :=
  occurs (if s.service = 0 && s.measurements.isEmpty then some s.booted else none) s

/-- One device reached over the links (R409): claimed under its identity word, up to 15 besides the bridging device, or
refused where that word is already a DEVID of the system. -/
def State.claim (s : State) (id : BitVec 20) : State :=
  if s.system.contains id then { s with refusedIds := s.refusedIds + 1 }
  else if 15 ≤ s.members.length then s
  else { s with members := s.members ++ [id], system := s.system ++ [id] }

/-- The order in which devices are claimed (R409): by hop count, then by the port through which each is reached. -/
def reachedBefore (a b : Reached) : Bool := decide (a.hops < b.hops) || (a.hops == b.hops && decide (a.port < b.port))
/-- A device put into that order. -/
def insertReached (a : Reached) : List Reached → List Reached
  | [] => [a]
  | b :: bs => if reachedBefore a b then a :: b :: bs else b :: insertReached a bs

/-- The routes to a device enter the routing table (R412). -/
def State.addRoute (s : State) (x : Reached) : State :=
  let rs : List Route := ((x.hops, x.port) :: x.more).map fun y => { port := y.2, hops := y.1, extra := 0 }
  { s with routes := tset s.routes x.id.toNat (tget [] s.routes x.id.toNat ++ rs) }

/-- SYSTEM_ENUMERATION (R409, R382): a bridging device claims the devices found, in ascending order of hop count and port;
but for those that another bridge has claimed; another device takes its identity word where no other device has it. `found` are
the devices reached, with the routes to them, which fill the routing table (R412; assumption 27); `others` are the DEVIDs that the rest of the system has, on a device
that does not bridge that of its bridging device first. STEPLEN is set and GSTEP aligned. -/
def execSystemEnumeration (found : List Reached) (others : List (BitVec 20)) (stepLen : Nat) (s : State) : Out :=
  let s1 : State := { found.foldl (fun s x => s.addRoute x) s with
    aligned := true, gstep := 0, stepBase := s.refclk, steplen := if steplenOk stepLen then stepLen else s.steplen
    hostDev := if s.bridge then s.devid else others.headD 0 }
  let order := ((found.filter fun x => !x.claimed).foldl (fun l x => insertReached x l) []).map (·.id)
  occurs (if s.aligned || s.measurements.isEmpty then none
    else if s.bridge then some (order.foldl (fun s id => s.claim id) { s1 with system := s1.system ++ others })
    else if others.contains s.identity then some s1
    else some { s1 with devid := s.identity, system := others ++ [s.identity] }.sendInfo) s

/-- REDUCED_SERVICE_END (R428): training and calibration have finished, and no launch is admitted. A device that does not
bridge enters full service once it has been claimed (R409). -/
def execReducedServiceEnd (s : State) : Out :=
  let ready := s.service == 1 || (s.service == 0 && !s.bridge && !s.system.isEmpty)
  occurs (if ready && s.launches.all (fun (_, l) => l.stage != .admitted) then some (s.setService 2).sendInfo else none) s

/-! ## Attestation (R425) -/

/-- A number for the measurement log. -/
def State.logDigest (s : State) : BitVec 384 :=
  Config.digest (s.measurements.foldl (fun a m => a * 2 ^ 384 + m.toNat) 0)

/-- The answer to a request of the host for measurements with a nonce (R425): the device's own, signed with the device
identity key, and on a bridging device a request to each group member, whose answer is forwarded to the host as it comes. -/
def State.attested (s : State) (nonce : BitVec 256) : State :=
  { s with
    attest := s.attest ++ [Config.signature s.logDigest nonce]
    outbox := s.outbox ++ s.members.map fun d => { dest := d, body := .measureRequest s.devid nonce } }

/-- GET_MEASUREMENTS (R425): the log, signed with the device identity key. -/
def execGetMeasurements (s : State) : Out := occurs (some (s.attested 0)) s

/-- CHALLENGE (R425). -/
def execChallenge (nonce : BitVec 256) (s : State) : Out := occurs (some (s.attested nonce)) s

end Sys2Proof.Machine
end

