-- ==== Sys2Proof/Machine/Links.lean ====
section
/-! DEFINITION. Berby flits that arrive (R412): one for another device is passed on, one for this device acts. -/

namespace Sys2Proof.Machine

/-- The semaphore operation that a flit carries, by its code. -/
def semOfCode (op launch tcb : Nat) (v : W64) : Option SemKind :=
  match op with
  | 0 => some (.sig v)
  | 1 => some (.wait v false)
  | 2 => some (.wait v true)
  | 3 => some (.add v)
  | 4 => some (.set v)
  | 5 => some .read
  | 6 => some (.arm launch tcb v)
  | _ => none

/-- A flit leaves the device. -/
def State.send (s : State) (dest : BitVec 20) (b : FlitBody) : State := { s with outbox := s.outbox ++ [{ dest := dest, body := b }] }

/-- The withdrawal of a SEM.WAIT reaches its home (R244): a wait that is still there is gone without effect, and the device is
told; one that has been answered stands. -/
def State.cancelWait (s : State) (name : W64) (dev : BitVec 20) (core slot uid : Nat) : State :=
  let d := semDie name
  let mine := fun (o : SemOp) => o.dev == dev && o.uid == uid && o.core == core &&
    (match o.kind with | .wait .. => true | _ => false)
  let waits := fun (w : Waiter) => w.dev == dev && w.uid == uid && w.core == core
  if (s.die d).inbox.any mine || (s.die d).waiters.any waits then
    (s.modDie d fun x =>
      { x with inbox := x.inbox.filter fun o => !(mine o), waiters := x.waiters.filter fun w => !(waits w) }).send dev
      (.semCancelled core slot uid)
  else s

/-- The answer to a withdrawal reaches its slot (R244): the SEM.WAIT has had no effect, and is issued again. -/
def State.waitCancelled (s : State) (r : SlotRef) (uid : Nat) : State :=
  let l := s.slotAt r
  if !l.occ || l.uid ≠ uid || uid = 0 then s else
  match l.wait with
  | .sem _ true | .withdrawn => s.modSlot r fun l => { l with wait := .run, away := none, cancelled := false }
  | _ => s

/-- The fence of a queue of another device reaches the homes of this one (R364): what waits here for it under an older
generation is dropped. -/
def State.takeFence (s : State) (dev : BitVec 20) (q : Nat) (gen : BitVec 8) : State :=
  let old := fun (d : BitVec 20) (k : Nat) (g : BitVec 8) => d == dev && k == q && g != gen
  let s1 : State := { s with
    foreign := (s.foreign.filter fun f => !(f.1 == dev && f.2.1 == q)) ++ [(dev, q, gen)]
    dies := s.dies.map fun (k, d) => (k, { d with
      inbox := d.inbox.filter fun o => !(old o.dev o.queue o.gen)
      waiters := d.waiters.filter fun w => !(old w.dev w.queue w.gen) }) }
  s1.send dev (.fenceAck s.devid q gen)

/-- A command for this group member comes in (R413, R419), with the configuration block that a CREATE needs; while another one
is in progress it waits. -/
def State.takeCommand (s : State) (c : Cmd) (block : List W64) : State :=
  let q := (c.args.getD 0 0).toNat
  let s1 : State := { s with cfgblocks := (block.zipIdx).foldl (fun t (v, k) => tset t (16 * q + k) v) s.cfgblocks }
  (s1.nextCmds (s.cmdWait ++ [c])).ringAll 0x10

/-- The kind of an atomic that another device makes to the host window. -/
def atomicOf (o : HostAtomic) : Option AtomicKind :=
  match o with
  | .amo o v => some (.amo o v)
  | .cas e n => some (.cas e n)
  | .addF v => some (.addF v)
  | .merge .. => none

/-- An atomic that the host bridge carries out for another device (R211): the old value is returned. An element of a reduction
merges (R333), and nothing is returned. -/
def State.bridgeAtomic (s : State) (dev : BitVec 20) (tag offset : Nat) (o : HostAtomic) : State :=
  match o, atomicOf o with
  | .merge m offsets element, _ =>
    let at_ := offsets.map fun n => 0x8000000000000 + n
    s.homeWrite (at_.zip (mergeElem m element (at_.map fun n => s.mem.get n)))
  | _, none => s
  | _, some k =>
    let a := 0x8000000000000 + offset
    let old := w64 (s.peek a k.size)
    let s1 := match k.result old with
      | some v => s.poke a k.size v.toNat
      | none => s
    s1.send dev (.hostValue tag (bytesLE k.size old.toNat))

/-- Whether a write or an atomic of another device's queue comes with a generation older than the fence that the queue has
posted here (R364): it is dropped. -/
def State.stale (s : State) (dev : BitVec 20) (stamp : Option (Nat × BitVec 8)) : Bool :=
  match stamp with
  | none => false
  | some (q, g) => s.foreign.any fun f => f.1 == dev && f.2.1 == q && f.2.2 != g

/-- What the bridging device returns (R409): a granule that a unit of a slot waits for, or the old value of an atomic, with
which the slot goes on. An answer that nothing waits for changes nothing (assumption 50). -/
def State.takeHostValue (s : State) (tag : Nat) (bytes : List Byte) : State :=
  match s.hostReqs.find? fun q => q.tag == tag && !q.back with
  | none => s
  | some q =>
    let r := slotRef q.core q.slot
    let rest := s.hostReqs.filter fun x => x.tag != tag
    if q.unit = 4 then
      let s1 : State := { s with hostReqs := rest }
      match (s1.slotAt r).wait with
      | .hostAtomic d fresh =>
        s1.modSlot r fun l =>
          let l1 := (l.wx d (w64 (natOfBytes bytes))).resume
          if fresh then l1.refresh else l1
      | _ => s1
    else
      { s with
        mem := s.mem.setAll ((bytes.zipIdx).map fun (b, k) => (64 * q.granule + k, b))
        hostReqs := { q with back := true } :: rest }.modSlot r fun l => { l with stalled := false }

/-- The cost that another device's port adds to the routes to it (R399); a port starts at cost 1. -/
def State.takeCost (s : State) (dev : BitVec 20) (cost : Nat) : State :=
  { s with routes := tset s.routes dev.toNat ((tget [] s.routes dev.toNat).map fun r => { r with extra := cost - 1 }) }

/-- What a flit does at its destination: a semaphore operation with its queue's generation reaches its home (R214, R363), an
answer its slot (R217 to R219), a withdrawal and its answer the wait they are about (R244), a release its TCB, whose RSTEP is
the GSTEP of the flit's arrival (R51 leaves open which device's; DESIGN CHOICE, assumption 93), a fence the homes (R364), a
command or an answer the mailbox (R413, R419), a member's traffic the host, unless a fence has made it old (R211, R364, R409),
what the host returns the access that waits for it, a snapshot trigger the snapshot registers (R406), a request for measurements the
device's key (R425), and a port's cost the routing table (R399). -/
def State.takeFlit (s : State) (b : FlitBody) : State :=
  match b with
  | .semUpdate name amount op launch tcb dev core slot task queue gen =>
    match semOfCode op launch tcb amount with
    | none => s
    | some k =>
      s.postSem (semDie name)
        { index := semIndex name, kind := k, core := core, slot := Fin.ofNat 4 slot, uid := task, queue := queue, gen := gen
          dev := dev, due := s.refclk }
  | .semAnswer core slot task v => s.answerSem (slotRef core slot) task v 0
  | .semCancel name dev core slot task => s.cancelWait name dev core slot task
  | .semCancelled core slot task => s.waitCancelled (slotRef core slot) task
  | .tcbRelease n i gen =>
    if (s.launch n).stage == .admitted && (s.queue (s.launch n).queue).gen == gen then
      (s.releaseTcb n i 8).modLaunch n fun l => { l with remoteArms := l.remoteArms - 1 }
    else s
  | .fence dev q gen => s.takeFence dev q gen
  | .fenceAck dev q gen =>
    if (s.queue q).resetting && (s.queue q).gen == gen then
      s.modQueue q fun u => { u with fences := homesOf dev :: u.fences }
    else s
  | .mailboxCommand src tag op args block =>
    s.takeCommand { opcode := op.toNat, tag := tag, args := args, src := some src, away := false, started := false } block
  | .mailboxAnswer tag result values =>
    match s.mbox.cmd with
    | some c => if c.away && c.tag == tag then s.answerCmd result.toNat values else s
    | none => s
  | .infoBlock src words =>
    match s.members.findIdx? (· == src) with
    | some k => { s with infos := tset s.infos (k + 1) words }
    | none => s
  | .hostWrite dev stamp offset bytes =>
    if s.bridge && !(s.stale dev stamp) then s.homeWrite ((bytes.zipIdx).map fun (b, k) => (0x8000000000000 + offset + k, b)) else s
  | .hostRead dev tag offset size =>
    if s.bridge then
      s.send dev (.hostValue tag ((List.range size).map fun k => s.mem.get (0x8000000000000 + offset + k)))
    else s
  | .hostAtomic dev stamp tag offset _ o => if s.bridge && !(s.stale dev stamp) then s.bridgeAtomic dev tag offset o else s
  | .hostValue tag bytes => s.takeHostValue tag bytes
  | .measureRequest dev nonce => s.send dev (.measureAnswer (Config.signature s.logDigest nonce))
  | .measureAnswer v => { s with attest := s.attest ++ [v] }
  | .routeCost dev _ cost => s.takeCost dev cost
  | .snapTrigger => s.latchHere
  | .payload _ => s

/-- FLIT (R412). -/
def execFlit (f : Flit) (s : State) : Out :=
  occurs (some (if f.dest = s.devid then s.takeFlit f.body else { s with outbox := s.outbox ++ [f] })) s

end Sys2Proof.Machine
end

