-- ==== Sys2Proof/Machine/Scalar.lean ====
section
/-! DEFINITION. The meanings of classes 0x0 and 0x1: integer register forms (R147 to R157) and immediate forms (R159
to R161). None of them traps. -/

namespace Sys2Proof.Machine

/-! ## The operations, at any width -/

/-- Shift left by the low bits of the amount (R149). -/
def sllF (w : Nat) (a b : BitVec w) : BitVec w := a <<< (b.toNat % w)
/-- Logical shift right (R149). -/
def srlF (w : Nat) (a b : BitVec w) : BitVec w := a >>> (b.toNat % w)
/-- Arithmetic shift right (R149). -/
def sraF (w : Nat) (a b : BitVec w) : BitVec w := a.sshiftRight (b.toNat % w)
/-- Rotate left (R149). -/
def rolF (w : Nat) (a b : BitVec w) : BitVec w := a.rotateLeft (b.toNat % w)
/-- Rotate right (R149). -/
def rorF (w : Nat) (a b : BitVec w) : BitVec w := a.rotateRight (b.toNat % w)
/-- The high half of the signed product (R150). -/
def mulhF (w : Nat) (a b : BitVec w) : BitVec w := BitVec.ofInt w (a.toInt * b.toInt / (2 ^ w : Nat))
/-- The high half of the unsigned product (R150). -/
def mulhnF (w : Nat) (a b : BitVec w) : BitVec w := BitVec.ofNat w (a.toNat * b.toNat / 2 ^ w)
/-- Signed division truncating towards zero; all ones for a zero divisor, the least value for overflow (R151). -/
def divF (w : Nat) (a b : BitVec w) : BitVec w :=
  if b = 0 then BitVec.allOnes w else BitVec.ofInt w (a.toInt.tdiv b.toInt)
/-- Unsigned division (R151). -/
def divnF (w : Nat) (a b : BitVec w) : BitVec w :=
  if b = 0 then BitVec.allOnes w else BitVec.ofNat w (a.toNat / b.toNat)
/-- Signed remainder, with the sign of the dividend; the dividend for a zero divisor (R151). -/
def remF (w : Nat) (a b : BitVec w) : BitVec w :=
  if b = 0 then a else BitVec.ofInt w (a.toInt.tmod b.toInt)
/-- Unsigned remainder (R151). -/
def remnF (w : Nat) (a b : BitVec w) : BitVec w := if b = 0 then a else BitVec.ofNat w (a.toNat % b.toNat)
/-- Signed and unsigned minimum and maximum (R148). -/
def minF (w : Nat) (a b : BitVec w) : BitVec w := if a.toInt ≤ b.toInt then a else b
def maxF (w : Nat) (a b : BitVec w) : BitVec w := if a.toInt ≤ b.toInt then b else a
def minnF (w : Nat) (a b : BitVec w) : BitVec w := if a.toNat ≤ b.toNat then a else b
def maxnF (w : Nat) (a b : BitVec w) : BitVec w := if a.toNat ≤ b.toNat then b else a
/-- One bit as a value. -/
def boolF (w : Nat) (b : Bool) : BitVec w := if b then 1 else 0
/-- Comparisons that write 0 or 1 (R148). -/
def sltF (w : Nat) (a b : BitVec w) : BitVec w := boolF w (decide (a.toInt < b.toInt))
def sltnF (w : Nat) (a b : BitVec w) : BitVec w := boolF w (decide (a.toNat < b.toNat))
def seqF (w : Nat) (a b : BitVec w) : BitVec w := boolF w (a == b)
def sneF (w : Nat) (a b : BitVec w) : BitVec w := boolF w (a != b)
/-- Leading zeros; the width for zero (R152). -/
def clzNat (w n : Nat) : Nat := if n = 0 then w else w - 1 - Nat.log2 n
/-- Trailing zeros; the width for zero (R152). -/
def ctzNat (w n : Nat) : Nat := ((List.range w).find? fun k => n.testBit k).getD w
/-- Set bits (R152). -/
def popNat (w n : Nat) : Nat := (List.range w).foldl (fun c k => c + b2n (n.testBit k)) 0
/-- Reversed bits (R152). -/
def revNat (w n : Nat) : Nat := (List.range w).foldl (fun c k => c + b2n (n.testBit k) * 2 ^ (w - 1 - k)) 0
def clzF (w : Nat) (a _b : BitVec w) : BitVec w := BitVec.ofNat w (clzNat w a.toNat)
def ctzF (w : Nat) (a _b : BitVec w) : BitVec w := BitVec.ofNat w (ctzNat w a.toNat)
def popF (w : Nat) (a _b : BitVec w) : BitVec w := BitVec.ofNat w (popNat w a.toNat)
def revF (w : Nat) (a _b : BitVec w) : BitVec w := BitVec.ofNat w (revNat w a.toNat)
/-- The field [pos + len - 1 : pos] at bit 0; field bits at or above the width read as 0 (R153). -/
def extractF (w pos len : Nat) (signed : Bool) (a : BitVec w) : BitVec w :=
  let v := a.toNat / 2 ^ pos % 2 ^ len
  if signed && v.testBit (len - 1) then BitVec.ofInt w ((v : Int) - (2 ^ len : Nat)) else BitVec.ofNat w v
/-- Field bits below the width replaced by the low bits of the source (R153). -/
def insertF (w pos len : Nat) (a old : BitVec w) : BitVec w :=
  let mask := BitVec.ofNat w ((2 ^ len - 1) * 2 ^ pos)
  (old &&& ~~~mask) ||| (BitVec.ofNat w (a.toNat * 2 ^ pos) &&& mask)
/-- The truth of a condition (R156). -/
def condF (c : Cond) (w : Nat) (a b : BitVec w) : Bool :=
  match c with
  | .eq => a == b
  | .ne => a != b
  | .lt => decide (a.toInt < b.toInt)
  | .ge => decide (b.toInt ≤ a.toInt)
  | .ltn => decide (a.toNat < b.toNat)
  | .gen => decide (b.toNat ≤ a.toNat)
/-- The truth of PLOG's operation (R157). -/
def plogF (c : PlogOp) (a b : Bool) : Bool :=
  match c with
  | .and => a && b
  | .or => a || b
  | .xor => a != b
  | .andn => a && !b
  | .orn => a || !b
  | .not => !a

/-! ## The shared shapes -/

/-- A result written to a register, and on to the next word. -/
def State.put (s : State) (d : XReg) (v : W64) : Out := .next ((s.wx d v).retire)
/-- A truth written to a predicate, and on to the next word. -/
def State.putP (s : State) (d : PReg) (v : Bool) : Out := .next ((s.wp d v).retire)
/-- A register form at the width sz names (R147). -/
def aluR (f : (w : Nat) → BitVec w → BitVec w → BitVec w) (d a b : XReg) (sz : Size) (s : State) : Out :=
  s.put d (sized f sz (s.rx a) (s.rx b))
/-- An immediate form (R159). -/
def aluI (f : (w : Nat) → BitVec w → BitVec w → BitVec w) (d a : XReg) (i : BitVec 12) (s : State) : Out :=
  s.put d (f 64 (s.rx a) (s.slot.imm i))

/-! ## Class 0x0 -/

/-- ADD (R148). -/
def execAdd (d a b : XReg) (sz : Size) (s : State) : Out := aluR (fun _ a b => a + b) d a b sz s
/-- SUB (R148). -/
def execSub (d a b : XReg) (sz : Size) (s : State) : Out := aluR (fun _ a b => a - b) d a b sz s
/-- AND (R148). -/
def execAnd (d a b : XReg) (sz : Size) (s : State) : Out := aluR (fun _ a b => a &&& b) d a b sz s
/-- OR (R148). -/
def execOr (d a b : XReg) (sz : Size) (s : State) : Out := aluR (fun _ a b => a ||| b) d a b sz s
/-- XOR (R148). -/
def execXor (d a b : XReg) (sz : Size) (s : State) : Out := aluR (fun _ a b => a ^^^ b) d a b sz s
/-- ANDN (R148). -/
def execAndn (d a b : XReg) (sz : Size) (s : State) : Out := aluR (fun _ a b => a &&& ~~~b) d a b sz s
/-- ORN (R148). -/
def execOrn (d a b : XReg) (sz : Size) (s : State) : Out := aluR (fun _ a b => a ||| ~~~b) d a b sz s
/-- SLL (R149). -/
def execSll (d a b : XReg) (sz : Size) (s : State) : Out := aluR sllF d a b sz s
/-- SRL (R149). -/
def execSrl (d a b : XReg) (sz : Size) (s : State) : Out := aluR srlF d a b sz s
/-- SRA (R149). -/
def execSra (d a b : XReg) (sz : Size) (s : State) : Out := aluR sraF d a b sz s
/-- ROL (R149). -/
def execRol (d a b : XReg) (sz : Size) (s : State) : Out := aluR rolF d a b sz s
/-- ROR (R149). -/
def execRor (d a b : XReg) (sz : Size) (s : State) : Out := aluR rorF d a b sz s
/-- MUL (R150). -/
def execMul (d a b : XReg) (sz : Size) (s : State) : Out := aluR (fun _ a b => a * b) d a b sz s
/-- MULH (R150). -/
def execMulh (d a b : XReg) (sz : Size) (s : State) : Out := aluR mulhF d a b sz s
/-- MULHN (R150). -/
def execMulhn (d a b : XReg) (sz : Size) (s : State) : Out := aluR mulhnF d a b sz s
/-- DIV (R151). -/
def execDiv (d a b : XReg) (sz : Size) (s : State) : Out := aluR divF d a b sz s
/-- DIVN (R151). -/
def execDivn (d a b : XReg) (sz : Size) (s : State) : Out := aluR divnF d a b sz s
/-- REM (R151). -/
def execRem (d a b : XReg) (sz : Size) (s : State) : Out := aluR remF d a b sz s
/-- REMN (R151). -/
def execRemn (d a b : XReg) (sz : Size) (s : State) : Out := aluR remnF d a b sz s
/-- MIN (R148). -/
def execMin (d a b : XReg) (sz : Size) (s : State) : Out := aluR minF d a b sz s
/-- MAX (R148). -/
def execMax (d a b : XReg) (sz : Size) (s : State) : Out := aluR maxF d a b sz s
/-- MINN (R148). -/
def execMinn (d a b : XReg) (sz : Size) (s : State) : Out := aluR minnF d a b sz s
/-- MAXN (R148). -/
def execMaxn (d a b : XReg) (sz : Size) (s : State) : Out := aluR maxnF d a b sz s
/-- SLT (R148). -/
def execSlt (d a b : XReg) (sz : Size) (s : State) : Out := aluR sltF d a b sz s
/-- SLTN (R148). -/
def execSltn (d a b : XReg) (sz : Size) (s : State) : Out := aluR sltnF d a b sz s
/-- SEQ (R148). -/
def execSeq (d a b : XReg) (sz : Size) (s : State) : Out := aluR seqF d a b sz s
/-- SNE (R148). -/
def execSne (d a b : XReg) (sz : Size) (s : State) : Out := aluR sneF d a b sz s
/-- CLZ (R152). -/
def execClz (d a : XReg) (sz : Size) (s : State) : Out := aluR clzF d a 0 sz s
/-- CTZ (R152). -/
def execCtz (d a : XReg) (sz : Size) (s : State) : Out := aluR ctzF d a 0 sz s
/-- POPC (R152). -/
def execPopc (d a : XReg) (sz : Size) (s : State) : Out := aluR popF d a 0 sz s
/-- BREV (R152). -/
def execBrev (d a : XReg) (sz : Size) (s : State) : Out := aluR revF d a 0 sz s
/-- BFX (R153). -/
def execBfx (d a b : XReg) (sz : Size) (g : Bool) (s : State) : Out :=
  s.put d (sized (fun w x _ => extractF w (fieldPos (s.rx b)) (fieldLen (s.rx b)) g x) sz (s.rx a) 0)
/-- BFI (R153): the destination's old value is a source. -/
def execBfi (d a b : XReg) (sz : Size) (s : State) : Out :=
  s.put d (sized (fun w x old => insertF w (fieldPos (s.rx b)) (fieldLen (s.rx b)) x old) sz (s.rx a) (s.rx d))
/-- SEXT (R154). -/
def execSext (d a : XReg) (w : ExtW) (s : State) : Out := s.put d (((s.rx a).setWidth (extWidth w)).signExtend 64)
/-- ZEXT (R154). -/
def execZext (d a : XReg) (w : ExtW) (s : State) : Out := s.put d (((s.rx a).setWidth (extWidth w)).setWidth 64)
/-- SEL (R155). -/
def execSel (d a b : XReg) (sz : Size) (p : PReg) (s : State) : Out :=
  s.put d (sized (fun _ x y => if s.slot.rp p then x else y) sz (s.rx a) (s.rx b))
/-- MADD (R155): the destination's old value is a source. -/
def execMadd (d a b : XReg) (sz : Size) (s : State) : Out :=
  s.put d (sized (fun w x y => (s.rx d).setWidth w + x * y) sz (s.rx a) (s.rx b))
/-- CMPP (R156). -/
def execCmpp (d : PReg) (a b : XReg) (sz : Size) (c : Cond) (s : State) : Out :=
  s.putP d (sizedTest (condF c) sz (s.rx a) (s.rx b))
/-- PLOG (R157). -/
def execPlog (d a b : PReg) (c : PlogOp) (s : State) : Out := s.putP d (plogF c (s.slot.rp a) (s.slot.rp b))
/-- MOVP (R157). -/
def execMovp (d : XReg) (a : PReg) (s : State) : Out := s.put d (boolF 64 (s.slot.rp a))
/-- PMOV (R157); with sz = 1 the low 32 bits are compared with zero (R147). -/
def execPmov (d : PReg) (a : XReg) (sz : Size) (s : State) : Out :=
  s.putP d (sizedTest (fun _ x y => x != y) sz (s.rx a) 0)

/-! ## Class 0x1 -/

/-- ADDI (R159). -/
def execAddi (d a : XReg) (i : BitVec 12) (s : State) : Out := aluI (fun _ a b => a + b) d a i s
/-- ANDI (R159). -/
def execAndi (d a : XReg) (i : BitVec 12) (s : State) : Out := aluI (fun _ a b => a &&& b) d a i s
/-- ORI (R159). -/
def execOri (d a : XReg) (i : BitVec 12) (s : State) : Out := aluI (fun _ a b => a ||| b) d a i s
/-- XORI (R159). -/
def execXori (d a : XReg) (i : BitVec 12) (s : State) : Out := aluI (fun _ a b => a ^^^ b) d a i s
/-- SLTI (R159). -/
def execSlti (d a : XReg) (i : BitVec 12) (s : State) : Out := aluI sltF d a i s
/-- SLTNI (R159). -/
def execSltni (d a : XReg) (i : BitVec 12) (s : State) : Out := aluI sltnF d a i s
/-- SEQI (R159). -/
def execSeqi (d a : XReg) (i : BitVec 12) (s : State) : Out := aluI seqF d a i s
/-- MULI (R159). -/
def execMuli (d a : XReg) (i : BitVec 12) (s : State) : Out := aluI (fun _ a b => a * b) d a i s
/-- SLLI (R160): the amount is the immediate field; prefixes are ignored. -/
def execSlli (d a : XReg) (h : BitVec 6) (s : State) : Out := s.put d (sllF 64 (s.rx a) (h.setWidth 64))
/-- SRLI (R160): the amount is the immediate field; prefixes are ignored. -/
def execSrli (d a : XReg) (h : BitVec 6) (s : State) : Out := s.put d (srlF 64 (s.rx a) (h.setWidth 64))
/-- SRAI (R160): the amount is the immediate field; prefixes are ignored. -/
def execSrai (d a : XReg) (h : BitVec 6) (s : State) : Out := s.put d (sraF 64 (s.rx a) (h.setWidth 64))
/-- LI (R159). -/
def execLi (d : XReg) (i : BitVec 12) (s : State) : Out := s.put d (s.slot.imm i)
/-- ADDPC (R161): relative to the ADDPC word itself. -/
def execAddpc (d : XReg) (i : BitVec 12) (s : State) : Out := s.put d (s.slot.pc + s.slot.imm i)
/-- BFXI (R160): zero-extending; the field l is the length minus 1. -/
def execBfxi (d a : XReg) (l p : BitVec 6) (s : State) : Out :=
  s.put d (extractF 64 p.toNat (l.toNat + 1) false (s.rx a))
/-- BFII (R160). -/
def execBfii (d a : XReg) (l p : BitVec 6) (s : State) : Out :=
  s.put d (insertF 64 p.toNat (l.toNat + 1) (s.rx a) (s.rx d))

end Sys2Proof.Machine
end

