-- ==== Sys2Proof/Machine/Traps.lean ====
section
/-! DEFINITION. Traps that wait for an instruction boundary: engine-origin traps (R367, R370), STEP_OVERRUN and SCHED_BREAK
(R434). -/

namespace Sys2Proof.Machine

/-- Whether a slot takes a pending trap at all: a copy that freezes raises no trap at an EXIT that has begun to wait (R235,
R244), while what is no freeze is taken there: the PARK_TIMEOUT of an access that stays parked, the TIME_LATE or SCHED_BREAK of
a timed copy that does not start, a spoiled record and a bad signal name (assumption 87). -/
def Slot.takes (l : Slot) (t : PendTrap) : Bool := !(l.exiting && t.freeze)

/-- The pending trap that a slot takes at an instruction boundary: a fatal engine-origin one at once (R370); any other
one, in order, outside a handler (R367, R434). -/
def Slot.dueTrap (l : Slot) : Option PendTrap :=
  match l.engTraps.find? fun t => t.cause.fatal && l.takes t with
  | some t => some t
  | none => if l.inh then none else l.pendingTraps.find? fun t => l.takes t

/-- A slot without one of its pending traps. -/
def Slot.dropTrap (l : Slot) (t : PendTrap) : Slot :=
  { l with engTraps := l.engTraps.erase t, evTraps := l.evTraps.erase t }

/-- A pending trap is taken at the instruction boundary at which its slot stands, with TPC the instruction there (R366,
R367); none where none is due, or where the slot is inside a chain, a wait or a park. -/
def State.deliverTrap (s : State) (r : SlotRef) : Option State :=
  let l := s.slotAt r
  if !l.occ || !l.pfx.isEmpty || l.wait ≠ .run || l.park.isSome then none
  else l.dueTrap.map fun t =>
    let s1 := s.modSlot r (·.dropTrap t)
    if t.cause.fatal then s1.fatalTrap r t l.pc false else s1.modSlot r (·.enterTrap t l.pc)

/-- ENGINE_TRAP_DELIVERY (R367). -/
def execEngineTrapDelivery (core slot : Nat) (s : State) : Out := occurs (s.deliverTrap (slotRef core slot)) s

end Sys2Proof.Machine
end

