-- ==== Sys2Proof/Machine/Dispatch.lean ====
section
/-! DEFINITION. One arm for each instruction: the meaning it has, or its rejection by name. -/

namespace Sys2Proof.Machine

/-- What an instruction does in a state. -/
def exec (i : Instr) (s : State) : Host.Outcome State Fault Refusal :=
  match i with
  | .mulh d a b sz => Sys2Proof.Machine.execMulh d a b sz s
  | .mulhn d a b sz => Sys2Proof.Machine.execMulhn d a b sz s
  | .div d a b sz => Sys2Proof.Machine.execDiv d a b sz s
  | .divn d a b sz => Sys2Proof.Machine.execDivn d a b sz s
  | .rem d a b sz => Sys2Proof.Machine.execRem d a b sz s
  | .remn d a b sz => Sys2Proof.Machine.execRemn d a b sz s
  | .minn d a b sz => Sys2Proof.Machine.execMinn d a b sz s
  | .maxn d a b sz => Sys2Proof.Machine.execMaxn d a b sz s
  | .slt d a b sz => Sys2Proof.Machine.execSlt d a b sz s
  | .sltn d a b sz => Sys2Proof.Machine.execSltn d a b sz s
  | .seq d a b sz => Sys2Proof.Machine.execSeq d a b sz s
  | .sne d a b sz => Sys2Proof.Machine.execSne d a b sz s
  | .clz d a sz => Sys2Proof.Machine.execClz d a sz s
  | .ctz d a sz => Sys2Proof.Machine.execCtz d a sz s
  | .popc d a sz => Sys2Proof.Machine.execPopc d a sz s
  | .brev d a sz => Sys2Proof.Machine.execBrev d a sz s
  | .bfx d a b sz g => Sys2Proof.Machine.execBfx d a b sz g s
  | .bfi d a b sz => Sys2Proof.Machine.execBfi d a b sz s
  | .sext d a w => Sys2Proof.Machine.execSext d a w s
  | .zext d a w => Sys2Proof.Machine.execZext d a w s
  | .sel d a b sz p => Sys2Proof.Machine.execSel d a b sz p s
  | .madd d a b sz => Sys2Proof.Machine.execMadd d a b sz s
  | .cmpp d a b sz c => Sys2Proof.Machine.execCmpp d a b sz c s
  | .plog d a b c => Sys2Proof.Machine.execPlog d a b c s
  | .movp d a => Sys2Proof.Machine.execMovp d a s
  | .pmov d a sz => Sys2Proof.Machine.execPmov d a sz s
  | .addi d a imm => Sys2Proof.Machine.execAddi d a imm s
  | .andi d a imm => Sys2Proof.Machine.execAndi d a imm s
  | .ori d a imm => Sys2Proof.Machine.execOri d a imm s
  | .xori d a imm => Sys2Proof.Machine.execXori d a imm s
  | .slli d a h => Sys2Proof.Machine.execSlli d a h s
  | .srli d a h => Sys2Proof.Machine.execSrli d a h s
  | .srai d a h => Sys2Proof.Machine.execSrai d a h s
  | .slti d a imm => Sys2Proof.Machine.execSlti d a imm s
  | .sltni d a imm => Sys2Proof.Machine.execSltni d a imm s
  | .seqi d a imm => Sys2Proof.Machine.execSeqi d a imm s
  | .muli d a imm => Sys2Proof.Machine.execMuli d a imm s
  | .li d imm => Sys2Proof.Machine.execLi d imm s
  | .addpc d imm => Sys2Proof.Machine.execAddpc d imm s
  | .bfxi d a l p => Sys2Proof.Machine.execBfxi d a l p s
  | .bfii d a l p => Sys2Proof.Machine.execBfii d a l p s
  | .fadd d a b sz r => Sys2Proof.Machine.execFadd d a b sz r s
  | .fsub d a b sz r => Sys2Proof.Machine.execFsub d a b sz r s
  | .fmul d a b sz r => Sys2Proof.Machine.execFmul d a b sz r s
  | .ffma d a b sz r => Sys2Proof.Machine.execFfma d a b sz r s
  | .fdiv d a b sz r => Sys2Proof.Machine.execFdiv d a b sz r s
  | .fsqrt d a sz r => Sys2Proof.Machine.execFsqrt d a sz r s
  | .fmin d a b sz r => Sys2Proof.Machine.execFmin d a b sz r s
  | .fmax d a b sz r => Sys2Proof.Machine.execFmax d a b sz r s
  | .fabs d a sz r => Sys2Proof.Machine.execFabs d a sz r s
  | .fneg d a sz r => Sys2Proof.Machine.execFneg d a sz r s
  | .fcmpp d a b sz c => Sys2Proof.Machine.execFcmpp d a b sz c s
  | .fcvti d a t sz r => Sys2Proof.Machine.execFcvti d a t sz r s
  | .icvtf d a t sz r => Sys2Proof.Machine.execIcvtf d a t sz r s
  | .fcvt d a t sz r => Sys2Proof.Machine.execFcvt d a t sz r s
  | .fclass d a sz r => Sys2Proof.Machine.execFclass d a sz r s
  | .ldS8 d a imm => Sys2Proof.Machine.execLdS8 d a imm s
  | .ldN8 d a imm => Sys2Proof.Machine.execLdN8 d a imm s
  | .ldS16 d a imm => Sys2Proof.Machine.execLdS16 d a imm s
  | .ldN16 d a imm => Sys2Proof.Machine.execLdN16 d a imm s
  | .ldS32 d a imm => Sys2Proof.Machine.execLdS32 d a imm s
  | .ldN32 d a imm => Sys2Proof.Machine.execLdN32 d a imm s
  | .ld64 d a imm => Sys2Proof.Machine.execLd64 d a imm s
  | .st8 d a imm => Sys2Proof.Machine.execSt8 d a imm s
  | .st16 d a imm => Sys2Proof.Machine.execSt16 d a imm s
  | .st32 d a imm => Sys2Proof.Machine.execSt32 d a imm s
  | .st64 d a imm => Sys2Proof.Machine.execSt64 d a imm s
  | .ldx d a b sz e k => Sys2Proof.Machine.execLdx d a b sz e k s
  | .stx d a b sz k => Sys2Proof.Machine.execStx d a b sz k s
  | .pfh t a imm => Sys2Proof.Machine.execPfh t a imm s
  | .cbo o a imm => Sys2Proof.Machine.execCbo o a imm s
  | .tlook d a f => Sys2Proof.Machine.execTlook d a f s
  | .tins a b => Sys2Proof.Machine.execTins a b s
  | .tdel a => Sys2Proof.Machine.execTdel a s
  | .beq a b o => Sys2Proof.Machine.execBeq a b o s
  | .bne a b o => Sys2Proof.Machine.execBne a b o s
  | .blt a b o => Sys2Proof.Machine.execBlt a b o s
  | .bge a b o => Sys2Proof.Machine.execBge a b o s
  | .bltn a b o => Sys2Proof.Machine.execBltn a b o s
  | .bgen a b o => Sys2Proof.Machine.execBgen a b o s
  | .bpt p o => Sys2Proof.Machine.execBpt p o s
  | .bpf p o => Sys2Proof.Machine.execBpf p o s
  | .loop a o => Sys2Proof.Machine.execLoop a o s
  | .jalr d a o => Sys2Proof.Machine.execJalr d a o s
  | .jal d o => Sys2Proof.Machine.execJal d o s
  | .semSig a b sz => Sys2Proof.Machine.execSemSig a b sz s
  | .semWait d a b t => Sys2Proof.Machine.execSemWait d a b t s
  | .semAdd d a b => Sys2Proof.Machine.execSemAdd d a b s
  | .semSet a b => Sys2Proof.Machine.execSemSet a b s
  | .semArm d a b => Sys2Proof.Machine.execSemArm d a b s
  | .phase sz c => Sys2Proof.Machine.execPhase sz c s
  | .bar d a => Sys2Proof.Machine.execBar d a s
  | .gangJoin a => Sys2Proof.Machine.execGangJoin a s
  | .gangLeave a => Sys2Proof.Machine.execGangLeave a s
  | .amo d a b sz o => Sys2Proof.Machine.execAmo d a b sz o s
  | .amocas d a b sz => Sys2Proof.Machine.execAmocas d a b sz s
  | .amof d a b sz => Sys2Proof.Machine.execAmof d a b sz s
  | .toksig e t => Sys2Proof.Machine.execToksig e t s
  | .tokwait e t => Sys2Proof.Machine.execTokwait e t s
  | .waite e k => Sys2Proof.Machine.execWaite e k s
  | .waitwm d a n => Sys2Proof.Machine.execWaitwm d a n s
  | .fenceE m => Sys2Proof.Machine.execFenceE m s
  | .semRead d a => Sys2Proof.Machine.execSemRead d a s
  | .cp r => Sys2Proof.Machine.execCp r s
  | .cpt r => Sys2Proof.Machine.execCpt r s
  | .cpr r => Sys2Proof.Machine.execCpr r s
  | .cpg r => Sys2Proof.Machine.execCpg r s
  | .cps r => Sys2Proof.Machine.execCps r s
  | .cpf r => Sys2Proof.Machine.execCpf r s
  | .cpred r m => Sys2Proof.Machine.execCpred r m s
  | .cppf r n d => Sys2Proof.Machine.execCppf r n d s
  | .cpx n => Sys2Proof.Machine.execCpx n s
  | .wmrd d e g n => Sys2Proof.Machine.execWmrd d e g n s
  | .rngaw d r => Sys2Proof.Machine.execRngaw d r s
  | .rngrel r => Sys2Proof.Machine.execRngrel r s
  | .rnginit a b r => Sys2Proof.Machine.execRnginit a b r s
  | .cpq d => Sys2Proof.Machine.execCpq d s
  | .mxcfg a b imm => Sys2Proof.Machine.execMxcfg a b imm s
  | .mxldw a p => Sys2Proof.Machine.execMxldw a p s
  | .mxldwScaled a b p => Sys2Proof.Machine.execMxldwScaled a b p s
  | .mxsta a b n f => Sys2Proof.Machine.execMxsta a b n f s
  | .mxanc a => Sys2Proof.Machine.execMxanc a s
  | .mxmrk a b => Sys2Proof.Machine.execMxmrk a b s
  | .vadd d a b w n m => Sys2Proof.Machine.execVadd d a b w n m s
  | .vsub d a b w n m => Sys2Proof.Machine.execVsub d a b w n m s
  | .vmul d a b w n m => Sys2Proof.Machine.execVmul d a b w n m s
  | .vfma d a b w n m => Sys2Proof.Machine.execVfma d a b w n m s
  | .vmin d a b w n m => Sys2Proof.Machine.execVmin d a b w n m s
  | .vmax d a b w n m => Sys2Proof.Machine.execVmax d a b w n m s
  | .vabs d a w n m => Sys2Proof.Machine.execVabs d a w n m s
  | .vneg d a w n m => Sys2Proof.Machine.execVneg d a w n m s
  | .vand d a b w n m => Sys2Proof.Machine.execVand d a b w n m s
  | .vor d a b w n m => Sys2Proof.Machine.execVor d a b w n m s
  | .vxor d a b w n m => Sys2Proof.Machine.execVxor d a b w n m s
  | .vandn d a b w n m => Sys2Proof.Machine.execVandn d a b w n m s
  | .vshl d a b w n m => Sys2Proof.Machine.execVshl d a b w n m s
  | .vshr d a b w n m => Sys2Proof.Machine.execVshr d a b w n m s
  | .vsra d a b w n m => Sys2Proof.Machine.execVsra d a b w n m s
  | .vaddw d a b w n m => Sys2Proof.Machine.execVaddw d a b w n m s
  | .vsubw d a b w n m => Sys2Proof.Machine.execVsubw d a b w n m s
  | .vmulw d a b w n m => Sys2Proof.Machine.execVmulw d a b w n m s
  | .vdotw d a b w n m => Sys2Proof.Machine.execVdotw d a b w n m s
  | .vavg d a b w n m => Sys2Proof.Machine.execVavg d a b w n m s
  | .vsadd d a b w n m => Sys2Proof.Machine.execVsadd d a b w n m s
  | .vssub d a b w n m => Sys2Proof.Machine.execVssub d a b w n m s
  | .vmulh d a b w n m => Sys2Proof.Machine.execVmulh d a b w n m s
  | .vclamp d a b w n m => Sys2Proof.Machine.execVclamp d a b w n m s
  | .vaddScalar d a x w n m => Sys2Proof.Machine.execVaddScalar d a x w n m s
  | .vsubScalar d a x w n m => Sys2Proof.Machine.execVsubScalar d a x w n m s
  | .vmulScalar d a x w n m => Sys2Proof.Machine.execVmulScalar d a x w n m s
  | .vfmaScalar d a x w n m => Sys2Proof.Machine.execVfmaScalar d a x w n m s
  | .vminScalar d a x w n m => Sys2Proof.Machine.execVminScalar d a x w n m s
  | .vmaxScalar d a x w n m => Sys2Proof.Machine.execVmaxScalar d a x w n m s
  | .vandScalar d a x w n m => Sys2Proof.Machine.execVandScalar d a x w n m s
  | .vorScalar d a x w n m => Sys2Proof.Machine.execVorScalar d a x w n m s
  | .vxorScalar d a x w n m => Sys2Proof.Machine.execVxorScalar d a x w n m s
  | .vandnScalar d a x w n m => Sys2Proof.Machine.execVandnScalar d a x w n m s
  | .vshlScalar d a x w n m => Sys2Proof.Machine.execVshlScalar d a x w n m s
  | .vshrScalar d a x w n m => Sys2Proof.Machine.execVshrScalar d a x w n m s
  | .vsraScalar d a x w n m => Sys2Proof.Machine.execVsraScalar d a x w n m s
  | .vaddwScalar d a x w n m => Sys2Proof.Machine.execVaddwScalar d a x w n m s
  | .vsubwScalar d a x w n m => Sys2Proof.Machine.execVsubwScalar d a x w n m s
  | .vmulwScalar d a x w n m => Sys2Proof.Machine.execVmulwScalar d a x w n m s
  | .vdotwScalar d a x w n m => Sys2Proof.Machine.execVdotwScalar d a x w n m s
  | .vavgScalar d a x w n m => Sys2Proof.Machine.execVavgScalar d a x w n m s
  | .vsaddScalar d a x w n m => Sys2Proof.Machine.execVsaddScalar d a x w n m s
  | .vssubScalar d a x w n m => Sys2Proof.Machine.execVssubScalar d a x w n m s
  | .vmulhScalar d a x w n m => Sys2Proof.Machine.execVmulhScalar d a x w n m s
  | .vclampScalar d a x w n m => Sys2Proof.Machine.execVclampScalar d a x w n m s
  | .vcmpeq d a b w m => Sys2Proof.Machine.execVcmpeq d a b w m s
  | .vcmpne d a b w m => Sys2Proof.Machine.execVcmpne d a b w m s
  | .vcmplt d a b w m => Sys2Proof.Machine.execVcmplt d a b w m s
  | .vcmple d a b w m => Sys2Proof.Machine.execVcmple d a b w m s
  | .vcmpltn d a b w m => Sys2Proof.Machine.execVcmpltn d a b w m s
  | .vcmplen d a b w m => Sys2Proof.Machine.execVcmplen d a b w m s
  | .vcmpeqScalar d a x w m => Sys2Proof.Machine.execVcmpeqScalar d a x w m s
  | .vcmpneScalar d a x w m => Sys2Proof.Machine.execVcmpneScalar d a x w m s
  | .vcmpltScalar d a x w m => Sys2Proof.Machine.execVcmpltScalar d a x w m s
  | .vcmpleScalar d a x w m => Sys2Proof.Machine.execVcmpleScalar d a x w m s
  | .vcmpltnScalar d a x w m => Sys2Proof.Machine.execVcmpltnScalar d a x w m s
  | .vcmplenScalar d a x w m => Sys2Proof.Machine.execVcmplenScalar d a x w m s
  | .vsel d a b w n => Sys2Proof.Machine.execVsel d a b w n s
  | .vmand d a b m => Sys2Proof.Machine.execVmand d a b m s
  | .vmor d a b m => Sys2Proof.Machine.execVmor d a b m s
  | .vmxor d a b m => Sys2Proof.Machine.execVmxor d a b m s
  | .vmnot d a m => Sys2Proof.Machine.execVmnot d a m s
  | .vmpop d a m => Sys2Proof.Machine.execVmpop d a m s
  | .vmfirst d a m => Sys2Proof.Machine.execVmfirst d a m s
  | .vperm d a b w n m => Sys2Proof.Machine.execVperm d a b w n m s
  | .vrot d a x w n m => Sys2Proof.Machine.execVrot d a x w n m s
  | .vslideup d a x w n m => Sys2Proof.Machine.execVslideup d a x w n m s
  | .vslidedn d a x w n m => Sys2Proof.Machine.execVslidedn d a x w n m s
  | .vzip d a b w n m => Sys2Proof.Machine.execVzip d a b w n m s
  | .vunzip d a w n m => Sys2Proof.Machine.execVunzip d a w n m s
  | .vbcast d x w n m => Sys2Proof.Machine.execVbcast d x w n m s
  | .vins d a x w n m => Sys2Proof.Machine.execVins d a x w n m s
  | .vext d a x w => Sys2Proof.Machine.execVext d a x w s
  | .vcompress d a k w n => Sys2Proof.Machine.execVcompress d a k w n s
  | .viota d k w n m => Sys2Proof.Machine.execViota d k w n m s
  | .vmovv d a w n m => Sys2Proof.Machine.execVmovv d a w n m s
  | .vld d a b w n m => Sys2Proof.Machine.execVld d a b w n m s
  | .vst d a b w m => Sys2Proof.Machine.execVst d a b w m s
  | .vlds d a b w n m => Sys2Proof.Machine.execVlds d a b w n m s
  | .vsts d a b w m => Sys2Proof.Machine.execVsts d a b w m s
  | .vldg d a b w n m => Sys2Proof.Machine.execVldg d a b w n m s
  | .vstg d a b w m => Sys2Proof.Machine.execVstg d a b w m s
  | .vcvt d a t w n m => Sys2Proof.Machine.execVcvt d a t w n m s
  | .vqnt d a k n => Sys2Proof.Machine.execVqnt d a k n s
  | .vdqnt d a k n => Sys2Proof.Machine.execVdqnt d a k n s
  | .vround d a w n m => Sys2Proof.Machine.execVround d a w n m s
  | .vnarrow d a x w n m => Sys2Proof.Machine.execVnarrow d a x w n m s
  | .vsett t z sz => Sys2Proof.Machine.execVsett t z sz s
  | .vexp2 d a w n m => Sys2Proof.Machine.execVexp2 d a w n m s
  | .vlog2 d a w n m => Sys2Proof.Machine.execVlog2 d a w n m s
  | .vexp d a w n m => Sys2Proof.Machine.execVexp d a w n m s
  | .vlog d a w n m => Sys2Proof.Machine.execVlog d a w n m s
  | .vrcp d a w n m => Sys2Proof.Machine.execVrcp d a w n m s
  | .vrsq d a w n m => Sys2Proof.Machine.execVrsq d a w n m s
  | .vsqrt d a w n m => Sys2Proof.Machine.execVsqrt d a w n m s
  | .vtanh d a w n m => Sys2Proof.Machine.execVtanh d a w n m s
  | .vsigm d a w n m => Sys2Proof.Machine.execVsigm d a w n m s
  | .vsin d a w n m => Sys2Proof.Machine.execVsin d a w n m s
  | .vcos d a w n m => Sys2Proof.Machine.execVcos d a w n m s
  | .vdiv d a b w n m => Sys2Proof.Machine.execVdiv d a b w n m s
  | .vredsum d a n m => Sys2Proof.Machine.execVredsum d a n m s
  | .vredmax d a n m => Sys2Proof.Machine.execVredmax d a n m s
  | .vredmin d a n m => Sys2Proof.Machine.execVredmin d a n m s
  | .vscan d a n m => Sys2Proof.Machine.execVscan d a n m s
  | .vexpmax d a m => Sys2Proof.Machine.execVexpmax d a m s
  | .vacc d a f m => Sys2Proof.Machine.execVacc d a f m s
  | .vacccvt d a n m => Sys2Proof.Machine.execVacccvt d a n m s
  | .vrng d a k n => Sys2Proof.Machine.execVrng d a k n s
  | .spawn a b r => Sys2Proof.Machine.execSpawn a b r s
  | .spawng a b r g => Sys2Proof.Machine.execSpawng a b r g s
  | .yield n => Sys2Proof.Machine.execYield n s
  | .role r => Sys2Proof.Machine.execRole r s
  | .csrr d c => Sys2Proof.Machine.execCsrr d c s
  | .csrw a c => Sys2Proof.Machine.execCsrw a c s
  | .csrs a c => Sys2Proof.Machine.execCsrs a c s
  | .csrc a c => Sys2Proof.Machine.execCsrc a c s
  | .trap imm => Sys2Proof.Machine.execTrap imm s
  | .bkpt imm => Sys2Proof.Machine.execBkpt imm s
  | .launch a => Sys2Proof.Machine.execLaunch a s
  | .add d a b sz => Sys2Proof.Machine.execAdd d a b sz s
  | .sub d a b sz => Sys2Proof.Machine.execSub d a b sz s
  | .and d a b sz => Sys2Proof.Machine.execAnd d a b sz s
  | .or d a b sz => Sys2Proof.Machine.execOr d a b sz s
  | .xor d a b sz => Sys2Proof.Machine.execXor d a b sz s
  | .andn d a b sz => Sys2Proof.Machine.execAndn d a b sz s
  | .orn d a b sz => Sys2Proof.Machine.execOrn d a b sz s
  | .sll d a b sz => Sys2Proof.Machine.execSll d a b sz s
  | .srl d a b sz => Sys2Proof.Machine.execSrl d a b sz s
  | .sra d a b sz => Sys2Proof.Machine.execSra d a b sz s
  | .rol d a b sz => Sys2Proof.Machine.execRol d a b sz s
  | .ror d a b sz => Sys2Proof.Machine.execRor d a b sz s
  | .mul d a b sz => Sys2Proof.Machine.execMul d a b sz s
  | .min d a b sz => Sys2Proof.Machine.execMin d a b sz s
  | .max d a b sz => Sys2Proof.Machine.execMax d a b sz s
  | .lix imm => Sys2Proof.Machine.execLix imm s
  | .mxswp => Sys2Proof.Machine.execMxswp s
  | .mxgo => Sys2Proof.Machine.execMxgo s
  | .mxgog => Sys2Proof.Machine.execMxgog s
  | .mxclr => Sys2Proof.Machine.execMxclr s
  | .exit => Sys2Proof.Machine.execExit s
  | .eret => Sys2Proof.Machine.execEret s
  | .nop => Sys2Proof.Machine.execNop s
  | .rfetch a d => Sys2Proof.Machine.execRfetch a d s
  | .flambeolBfx b a d => Sys2Proof.Machine.execFlambeolBfx b a d s
  | .swait b a d => Sys2Proof.Machine.execSwait b a d s
  | .disp b a d => Sys2Proof.Machine.execDisp b a d s
  | .nopPacket q => Sys2Proof.Machine.execNopPacket q s
  | .launchPacket q => Sys2Proof.Machine.execLaunchPacket q s
  | .waitPacket q => Sys2Proof.Machine.execWaitPacket q s
  | .signalPacket q => Sys2Proof.Machine.execSignalPacket q s
  | .copyPacket q => Sys2Proof.Machine.execCopyPacket q s
  | .detlevel q => Sys2Proof.Machine.execDetlevel q s
  | .cadence q => Sys2Proof.Machine.execCadence q s
  | .barrier q => Sys2Proof.Machine.execBarrier q s
  | .doorbell q tail => Sys2Proof.Machine.execDoorbell q tail s
  | .pendingMapScan => Sys2Proof.Machine.execPendingMapScan s
  | .create => Sys2Proof.Machine.execCreate s
  | .destroy => Sys2Proof.Machine.execDestroy s
  | .qreset => Sys2Proof.Machine.execQreset s
  | .preempt => Sys2Proof.Machine.execPreempt s
  | .resume => Sys2Proof.Machine.execResume s
  | .pkgreset => Sys2Proof.Machine.execPkgreset s
  | .update => Sys2Proof.Machine.execUpdate s
  | .slotwrite => Sys2Proof.Machine.execSlotwrite s
  | .slotverify => Sys2Proof.Machine.execSlotverify s
  | .setslot => Sys2Proof.Machine.execSetslot s
  | .pcap => Sys2Proof.Machine.execPcap s
  | .setparam => Sys2Proof.Machine.execSetparam s
  | .snapshot => Sys2Proof.Machine.execSnapshot s
  | .devread => Sys2Proof.Machine.execDevread s
  | .devwrite => Sys2Proof.Machine.execDevwrite s
  | .clearmap => Sys2Proof.Machine.execClearmap s
  | .group => Sys2Proof.Machine.execGroup s
  | .getMeasurements => Sys2Proof.Machine.execGetMeasurements s
  | .challenge nonce => Sys2Proof.Machine.execChallenge nonce s
  | .deviceRegisterWrite space addr value => Sys2Proof.Machine.execDeviceRegisterWrite space addr value s
  | .hbeat value => Sys2Proof.Machine.execHbeat value s
  | .heartbeatTimeout => Sys2Proof.Machine.execHeartbeatTimeout s
  | .boot => Sys2Proof.Machine.execBoot s
  | .systemEnumeration found others stepLen => Sys2Proof.Machine.execSystemEnumeration found others stepLen s
  | .reducedServiceEnd => Sys2Proof.Machine.execReducedServiceEnd s
  | .flit f => Sys2Proof.Machine.execFlit f s
  | .routeCostFlit port cost => Sys2Proof.Machine.execRouteCostFlit port cost s
  | .launchAdmission die => Sys2Proof.Machine.execLaunchAdmission die s
  | .phaseAdmission launch => Sys2Proof.Machine.execPhaseAdmission launch s
  | .spillRefill die => Sys2Proof.Machine.execSpillRefill die s
  | .launchEnd launch => Sys2Proof.Machine.execLaunchEnd launch s
  | .semUpdateAtHome die => Sys2Proof.Machine.execSemUpdateAtHome die s
  | .semWaitComplete core slot => Sys2Proof.Machine.execSemWaitComplete core slot s
  | .gangArrivalAtHome die => Sys2Proof.Machine.execGangArrivalAtHome die s
  | .barComplete core slot => Sys2Proof.Machine.execBarComplete core slot s
  | .atomicAtHome core slot => Sys2Proof.Machine.execAtomicAtHome core slot s
  | .reductionMerge core => Sys2Proof.Machine.execReductionMerge core s
  | .homeFence q home => Sys2Proof.Machine.execHomeFence q home s
  | .queueResetComplete q => Sys2Proof.Machine.execQueueResetComplete q s
  | .parkWake core owner => Sys2Proof.Machine.execParkWake core owner s
  | .parkTimeout core owner => Sys2Proof.Machine.execParkTimeout core owner s
  | .shootdown q base pages => Sys2Proof.Machine.execShootdown q base pages s
  | .shootdownAck core => Sys2Proof.Machine.execShootdownAck core s
  | .shootWaitExpiry core => Sys2Proof.Machine.execShootWaitExpiry core s
  | .vectorEntryStart core => Sys2Proof.Machine.execVectorEntryStart core s
  | .vectorEntryEnd core => Sys2Proof.Machine.execVectorEntryEnd core s
  | .copyEntryStart core => Sys2Proof.Machine.execCopyEntryStart core s
  | .cptRelease core => Sys2Proof.Machine.execCptRelease core s
  | .copyRowLanded core entry => Sys2Proof.Machine.execCopyRowLanded core entry s
  | .copyEntryEnd core entry => Sys2Proof.Machine.execCopyEntryEnd core entry s
  | .matrixEntryStart core => Sys2Proof.Machine.execMatrixEntryStart core s
  | .planeLoadDone core => Sys2Proof.Machine.execPlaneLoadDone core s
  | .matrixPass core => Sys2Proof.Machine.execMatrixPass core s
  | .matrixCommit core => Sys2Proof.Machine.execMatrixCommit core s
  | .engineTrapDelivery core slot => Sys2Proof.Machine.execEngineTrapDelivery core slot s
  | .watchdog core engine => Sys2Proof.Machine.execWatchdog core engine s
  | .parityAlarm core engine => Sys2Proof.Machine.execParityAlarm core engine s
  | .protocolAlarm core engine => Sys2Proof.Machine.execProtocolAlarm core engine s
  | .testAlarm die => Sys2Proof.Machine.execTestAlarm die s
  | .drizzleReset die => Sys2Proof.Machine.execDrizzleReset die s
  | .coreReset core => Sys2Proof.Machine.execCoreReset core s
  | .dieReset die => Sys2Proof.Machine.execDieReset die s
  | .packageReset => Sys2Proof.Machine.execPackageReset s
  | .drainTimeout q => Sys2Proof.Machine.execDrainTimeout q s
  | .saveComplete core => Sys2Proof.Machine.execSaveComplete core s
  | .saveTimeout q => Sys2Proof.Machine.execSaveTimeout q s
  | .stepBoundary => Sys2Proof.Machine.execStepBoundary s
  | .scycHold cluster => Sys2Proof.Machine.execScycHold cluster s
  | .replay cluster => Sys2Proof.Machine.execReplay cluster s
  | .droopStretch cluster => Sys2Proof.Machine.execDroopStretch cluster s
  | .drizzleWindow die => Sys2Proof.Machine.execDrizzleWindow die s
  | .cadenceTick q => Sys2Proof.Machine.execCadenceTick q s
  | .levelSwitch q => Sys2Proof.Machine.execLevelSwitch q s
  | .laneError link lane => Sys2Proof.Machine.execLaneError link lane s
  | .laneRotation link => Sys2Proof.Machine.execLaneRotation link s
  | .l2EccError die set way corrected line => Sys2Proof.Machine.execL2EccError die set way corrected line s
  | .poolEccError core line corrected => Sys2Proof.Machine.execPoolEccError core line corrected s
  | .inFieldTest cluster => Sys2Proof.Machine.execInFieldTest cluster s
  | .clusterTestResult cluster pass => Sys2Proof.Machine.execClusterTestResult cluster pass s
  | .snapshotLatch => Sys2Proof.Machine.execSnapshotLatch s
  | .monSample cluster proc vdd temp watts => Sys2Proof.Machine.execMonSample cluster proc vdd temp watts s
  | .illegal word => Sys2Proof.Machine.execIllegal word s
  | .swaitTimeout fcore => Sys2Proof.Machine.execSwaitTimeout fcore s
  | .linkRetrain link => Sys2Proof.Machine.execLinkRetrain link s
  | .clusterEmptyTimeout cluster => Sys2Proof.Machine.execClusterEmptyTimeout cluster s

end Sys2Proof.Machine
end

