-- ==== Sys2Proof/Machine/Fetch.lean ====
section
/-! DEFINITION. The fetch of a slot's next word (R188, R403), and of a queue core's (R422), and the scalar registers that a
word reads or writes, for the interlock of R141. -/

namespace Sys2Proof.Machine

/-! ## The interlock (R141) -/

/-- The eight registers of a copy record (R316). -/
def baseRegs (r : RecBase) : List XReg := (List.range 8).map fun j => BitVec.ofNat 5 (recBase r + j)

/-- The scalar registers that a word of the sequencer reads or writes. -/
def xregsOf (i : Instr) : List XReg :=
  match i with
  | .mulh d a b _ | .mulhn d a b _ | .div d a b _ | .divn d a b _ | .rem d a b _ | .remn d a b _ | .minn d a b _
  | .maxn d a b _ | .slt d a b _ | .sltn d a b _ | .seq d a b _ | .sne d a b _ | .bfx d a b _ _ | .bfi d a b _
  | .sel d a b _ _ | .madd d a b _ | .fadd d a b _ _ | .fsub d a b _ _ | .fmul d a b _ _ | .ffma d a b _ _
  | .fdiv d a b _ _ | .fmin d a b _ _ | .fmax d a b _ _ | .ldx d a b _ _ _ | .stx d a b _ _ | .semWait d a b _
  | .semAdd d a b | .amo d a b _ _ | .amof d a b _ | .add d a b _ | .sub d a b _
  | .and d a b _ | .or d a b _ | .xor d a b _ | .andn d a b _ | .orn d a b _ | .sll d a b _ | .srl d a b _
  | .sra d a b _ | .rol d a b _ | .ror d a b _ | .mul d a b _ | .min d a b _ | .max d a b _ =>
    [d, a, b]
  | .clz d a _ | .ctz d a _ | .popc d a _ | .brev d a _ | .sext d a _ | .zext d a _ | .addi d a _ | .andi d a _
  | .ori d a _ | .xori d a _ | .slli d a _ | .srli d a _ | .srai d a _ | .slti d a _ | .sltni d a _ | .seqi d a _
  | .muli d a _ | .bfxi d a _ _ | .bfii d a _ _ | .fsqrt d a _ _ | .fabs d a _ _ | .fneg d a _ _ | .fcvti d a _ _ _
  | .icvtf d a _ _ _ | .fcvt d a _ _ _ | .fclass d a _ _ | .ldS8 d a _ | .ldN8 d a _ | .ldS16 d a _ | .ldN16 d a _
  | .ldS32 d a _ | .ldN32 d a _ | .ld64 d a _ | .st8 d a _ | .st16 d a _ | .st32 d a _ | .st64 d a _ | .tlook d a _
  | .jalr d a _ | .bar d a | .waitwm d a _ | .semRead d a =>
    [d, a]
  | .cmpp _ a b _ _ | .fcmpp _ a b _ _ | .tins a b | .beq a b _ | .bne a b _ | .blt a b _ | .bge a b _
  | .bltn a b _ | .bgen a b _ | .semSig a b _ | .semSet a b | .rnginit a b _ | .mxcfg a b _ | .mxldwScaled a b _
  | .mxsta a b _ _ | .mxmrk a b | .vld _ a b _ _ _ | .vst _ a b _ _ | .vlds _ a b _ _ _ | .vsts _ a b _ _
  | .spawn a b _ | .spawng a b _ _ =>
    [a, b]
  | .movp d _ | .li d _ | .addpc d _ | .jal d _ | .rngaw d _ | .cpq d | .vmpop d _ _ | .vmfirst d _ _
  | .vexpmax d _ _ | .csrr d _ =>
    [d]
  | .pmov _ a _ | .pfh _ a _ | .cbo _ a _ | .tdel a | .loop a _ | .gangJoin a | .gangLeave a | .mxldw a _
  | .mxanc a | .vldg _ a _ _ _ _ | .vstg _ a _ _ _ | .csrw a _ | .csrs a _ | .csrc a _ | .launch a =>
    [a]
  | .cp r | .cpt r | .cpr r | .cpg r | .cps r | .cpf r | .cpred r _ | .cppf r _ _ =>
    baseRegs r
  | .wmrd d e _ _ =>
    [d, e]
  | .vaddScalar _ _ x _ _ _ | .vsubScalar _ _ x _ _ _ | .vmulScalar _ _ x _ _ _ | .vfmaScalar _ _ x _ _ _
  | .vminScalar _ _ x _ _ _ | .vmaxScalar _ _ x _ _ _ | .vandScalar _ _ x _ _ _ | .vorScalar _ _ x _ _ _
  | .vxorScalar _ _ x _ _ _ | .vandnScalar _ _ x _ _ _ | .vshlScalar _ _ x _ _ _ | .vshrScalar _ _ x _ _ _
  | .vsraScalar _ _ x _ _ _ | .vaddwScalar _ _ x _ _ _ | .vsubwScalar _ _ x _ _ _ | .vmulwScalar _ _ x _ _ _
  | .vdotwScalar _ _ x _ _ _ | .vavgScalar _ _ x _ _ _ | .vsaddScalar _ _ x _ _ _ | .vssubScalar _ _ x _ _ _
  | .vmulhScalar _ _ x _ _ _ | .vclampScalar _ _ x _ _ _ | .vcmpeqScalar _ _ x _ _ | .vcmpneScalar _ _ x _ _
  | .vcmpltScalar _ _ x _ _ | .vcmpleScalar _ _ x _ _ | .vcmpltnScalar _ _ x _ _ | .vcmplenScalar _ _ x _ _
  | .vrot _ _ x _ _ _ | .vslideup _ _ x _ _ _ | .vslidedn _ _ x _ _ _ | .vbcast _ x _ _ _ | .vnarrow _ _ x _ _ _ =>
    [x]
  | .vins _ a x _ _ _ =>
    [a, x]
  | .vext d _ x _ =>
    [d, x]
  | .vqnt _ _ k _ | .vdqnt _ _ k _ =>
    [k, pairHi k]
  | .vrng _ _ k _ =>
    [k]
  | .semArm d a b | .amocas d a b _ =>
    [d, a, b, pairHi b]
  | _ => []

/-- The scalar registers that a queued record will write at its end: a vector entry's (R249), or those of MXMRK. -/
def QRec.pendingRegs (q : QRec) : List XReg :=
  match q.instr with
  | .mxmrk a b => [a, b]
  | i => match vdesc i (vcfgType q.vcfg) with
    | some d => d.xd
    | none => []

/-- Whether a word of the executing slot must wait for a register that one of its queued records will write (R141); x0
holds no value. -/
def State.interlocked (s : State) (i : Instr) : Bool :=
  let pend := ((s.inFlight .vec) ++ (s.inFlight .mx)).flatMap fun q => q.pendingRegs
  (xregsOf i).any fun r => r != 0 && pend.contains r

/-- What makes a decoded word ILLEGAL in the executing slot all the same (R126, R128, R139, R251, R428), as its TVAL: a
vector register or type that it may not use, or a CSR number that R129 does not assign. -/
def State.wordIllegal (s : State) (i : Instr) : Option W64 :=
  match i with
  | .vsett t _ _ => if s.lacksType t then some 0 else none
  | .csrr _ n | .csrw _ n | .csrs _ n | .csrc _ n => if (s.csrRead n).isNone then some 0 else none
  | i => (vdesc i (vcfgType (s.slot.vcfg.setWidth 8))).bind fun d => s.vecIllegal d

/-! ## Fetch (R188) -/

/-- What a fetch comes to. -/
inductive Fetched
  | word (w : W32) (s : State)
  | trap (c : Cause)
  | park (entry : Nat)
  | stall
  | away (loc : Nat)

/-- The fetch of the word at a slot's pc: a pc that is not a multiple of 4 (which only ERET can leave, R240) is misaligned;
then steps 2 to 5 of R174 for a fetch, and the bytes as R188 has them. -/
def State.fetch (s : State) (r : SlotRef) : Fetched :=
  let a := (s.slotAt r).pc.toNat
  if a % 4 ≠ 0 then .trap .misaligned
  else match s.check r a 4 .fetch Mode.early with
    | .ok loc s1 =>
      if !s1.bridge && hostLoc loc && !(s1.hostBack r 5 loc) then .away loc
      else if s1.poison.contains (loc / 64) &&
          !((List.range 4).all fun j => (overFind (s1.fetchOver r) r.core (loc + j)).isSome) then .trap .uncorrectable
      else .word (BitVec.ofNat 32 (natOfBytes ((List.range 4).map fun j => s1.fetchByte r (loc + j)))) (if hostLoc loc then s1.doneHost r 5 else s1)
    | .trap c => .trap c
    | .park entry => .park entry
    | .stall _ | .away .. => .stall

/-- What a word of a queue core is, by its lowest bits (R422). -/
inductive FWord
  | custom (w : W32)
  | base
  | outside
  deriving DecidableEq, Repr

/-- The word at the pc of a queue core, whose program lies in its 256 KiB local memory. A word that is compressed, or not
of the custom-0 opcode, belongs to the base instruction set. -/
def FCore.fetch (f : FCore) : FWord :=
  let a := f.pc.toNat
  let at_ := fun (k : Nat) => natOfBytes ((List.range k).map fun j => tget 0 f.lmem (a + j))
  if a % 2 ≠ 0 || decide (262144 < a + 2) then .outside
  else if at_ 1 % 4 ≠ 3 then .base
  else if 262144 < a + 4 then .outside
  else if at_ 1 % 128 = 11 then .custom (BitVec.ofNat 32 (at_ 4))
  else .base

end Sys2Proof.Machine
end

