-- ==== Sys2Proof/Machine/Issue.lean ====
section
/-! DEFINITION. What happens next in the device: the issue selection (R57, R58), the issue of one word (R138, R139, R188,
R281, R367), the operations of the device's other agents that are due, and the passing of a cycle. -/

namespace Sys2Proof.Machine

/-! ## Issue selection (R57, R58) -/

/-- Whether a slot could issue in this cycle, as far as it alone decides. A slot of a core that is being saved only
finishes its prefix chain (R138, R371). -/
def Slot.ready (l : Slot) (saving : Bool) : Bool :=
  l.occ && l.wait == .run && l.park.isNone && !l.stalled && l.yield == 0 && (!saving || !l.pfx.isEmpty)

/-- Whether a slot of a core is ready (R57): it could issue, and no shootdown holds its task until the core has
acknowledged (R93). -/
def Core.ready (c : Core) (k : Fin 4) : Bool := (c.slot k).ready c.saving && !(c.paused (c.slot k).uid)

/-- Whether the sequencer of a core issues nothing in this cycle: its cluster stands still (R381, R383) or has no cycle left
in this reference cycle (R380), it is throttled (R430), or its die's Drizzle window is open (R393). -/
def State.coreHeld (s : State) (g : Nat) : Bool :=
  let k := clusterOf g
  decide (s.beats k ≤ s.lap) || decide ((s.cycleOf g 0).toNat % 8 < s.throttle k) || (s.fixed g && s.inWindow)

/-- The wait count of a slot in the cycle of R57. -/
def Core.waitCount (c : Core) (k : Fin 4) : Nat := if c.ready k then (c.slot k).age + 1 else 0

/-- Whether candidate a goes before b (R57): the longer wait, then the lower slot number. -/
def beforeIn (c : Core) (a b : Fin 4) : Bool :=
  let wa := c.waitCount a
  let wb := c.waitCount b
  decide (wb < wa) || (wa == wb && decide (a.val < b.val))

/-- The best of some candidates. -/
def bestOf (c : Core) : List (Fin 4) → Option (Fin 4)
  | [] => none
  | k :: ks => match bestOf c ks with
    | none => some k
    | some j => if beforeIn c k j then some k else some j

/-- The slot that the sequencer picks in D0 and D1 (R57): among aged slots if there are any, else among the ready slots of
the highest role. -/
def Core.pick (c : Core) : Option (Fin 4) :=
  let all : List (Fin 4) := [0, 1, 2, 3]
  let ready := all.filter c.ready
  let aged := ready.filter fun k => decide ((c.slot k).ageLimit.toNat ≤ c.waitCount k)
  let top := ready.foldl (fun a k => Nat.max a (roleCode (c.slot k).role)) 0
  bestOf c (if aged.isEmpty then ready.filter fun k => roleCode (c.slot k).role == top else aged)

/-- The slot that a D2 core issues from (R58): the one whose turn it is, if it is ready; no first instruction issues before
SCYC 16 (R389). -/
def State.turnOf (s : State) (g : Nat) : Option (Fin 4) :=
  let c := s.core g
  match c.turnSlot with
  | some k =>
    if c.ready k && ((c.slot k).started || decide (16 ≤ s.scycOf g 2)) then some k else none
  | none => none

/-- The slot of a core that issues in this cycle. -/
def State.issueSlot (s : State) (g : Nat) : Option (Fin 4) :=
  if s.coreHeld g then none else if s.fixed g then s.turnOf g else (s.core g).pick

/-- The next core of the cycle with a slot that issues: the cores issue one after the other. -/
def State.nextIssue (s : State) : Option SlotRef :=
  s.cores.findSome? fun (g, _) => if g < s.sweep then none else (s.issueSlot g).map fun k => ⟨g, k⟩

/-- The wait counts after a pick (R57), where a test tells which other slots could have issued. -/
def Core.aged (c : Core) (k : Fin 4) (could : Fin 4 → Bool) : Core :=
  { c with slots := Vector.ofFn fun j => { c.slot j with age := if j = k || !(could j) then 0 else c.waitCount j } }

/-- A core in whose cycle no slot was ready: no slot has waited (R57). -/
def Core.unready (c : Core) : Core := c.mapSlots fun l => { l with age := 0 }

/-- The wait counts as they were before the pick of a slot that turns out not to be ready (R57). -/
def Core.unaged (c old : Core) (k : Fin 4) : Core :=
  { c with slots := Vector.ofFn fun j => { c.slot j with age := if j = k then 0 else (old.slot j).age } }

/-! ## The issue of one word -/

/-- A trap of a fetch, precise at the target (R188); no word has been fetched, so TWORD is a free value (assumption 2). -/
def State.fetchTrap (s : State) (c : Cause) : State :=
  let (v, s1) := s.freeFor s.cur true
  s1.trap c s1.slot.pc (v.setWidth 32)

/-- The instruction that a word stands for; ILLEGAL for a word that decoding rejects (R139). -/
noncomputable def decodeOr (w : W32) : Instr :=
  match decode w with
  | .ok i => i
  | .error _ => .illegal w

/-- Whether an instruction may follow LIX words: an I-format or M-format word, another LIX, or a word that is ILLEGAL
whatever precedes it (R137 to R139). -/
def mayFollow (i : Instr) : Bool :=
  match i with
  | .lix _ | .illegal _ => true
  | _ => i.takesPrefix

/-- The executing slot's word is executed (R138, R141). Only a word that passes decoding raises PREFIX (R139). -/
noncomputable def State.runWord (s : State) (w : W32) : Out :=
  let i := decodeOr w
  if !s.slot.pfx.isEmpty && !(mayFollow i) then
    .next (match s.wordIllegal i with
      | some v => s.trap .illegal v w
      | none => s.trapOpen .prefixed w)
  else if s.interlocked i then .next (s.stallOn .operand)
  else exec i s

/-- The next instruction of the executing slot: its word is fetched and executed. -/
noncomputable def State.runNext (s : State) : Out :=
  match s.fetch s.cur with
  | .word w s1 => s1.runWord w
  | .trap c => .next (s.fetchTrap c)
  | .park entry => .next (s.parkHere s.slot.pc entry)
  | .stall => .next s.stallHere
  | .away loc => .next ((s.askHost s.cur 5 loc).stallOn .access)

/-- Whether the instruction at the boundary has taken a precise trap: the slot has entered its handler, or its task has
ended on a fatal trap. -/
def tookTrap (s t : State) : Bool :=
  (!s.slot.inh && (t.slotAt s.cur).inh) ||
  decide ((s.launch s.slot.launch).faulted < (t.launch s.slot.launch).faulted)

/-- The words of the chain at the boundary, as far as it goes (R138: a chain issues as one unit); without a prefix this is
the next instruction alone. -/
noncomputable def State.runChain : Nat → State → Out
  | 0, s => .next s
  | n + 1, s =>
    match s.runNext with
    | .next u => if (u.slotAt s.cur).pfx.isEmpty then .next u else State.runChain n u
    | other => other

/-- What a slot does in its turn: a pending fatal trap ends its task (R370); a precise trap of the instruction at the boundary
comes before a pending one (R281, R367); otherwise the pending one is taken, or the instruction executes. -/
noncomputable def State.runSlot (s : State) : Out :=
  let l := s.slot
  let deliver : Out := exec (.engineTrapDelivery s.cur.core s.cur.slot.val) s
  if !l.pfx.isEmpty then s.runNext
  else match l.dueTrap with
    | none => s.runNext
    | some t =>
      if t.cause.fatal then deliver
      else match s.runChain 3 with
        | .next u => if tookTrap s u then .next u else deliver
        | other => other

/-- Other slots of the cluster may go on after an instruction that did not stall. -/
def State.settle (s : State) (r : SlotRef) : State :=
  if (s.slotAt r).stalled then s
  else
    let k := clusterOf r.core
    { s with cores := s.cores.map fun (g, c) =>
        (g, if clusterOf g = k then c.mapSlots fun l => { l with stalled := false } else c) }

/-- An outcome's state changed. -/
def mapNext (f : State → State) (o : Out) : Out :=
  match o with
  | .next s => .next (f s)
  | other => other

/-- A slot whose instruction stalls was not ready in this cycle: in D0 and D1 its core's cycle goes to another slot, and the
others have waited no longer for it (R57); in D2 the cycle is lost (R58). `old` is the state before the pick. -/
def State.giveBack (s old : State) (r : SlotRef) : State :=
  if old.fixed r.core || !(s.slotAt r).stalled then s
  else { s.modCore r.core (fun c => c.unaged (old.core r.core) r.slot) with sweep := r.core }

/-- A task of an aborted launch has finished the prefix chain it had begun: it ends (R433). -/
def State.endDying (s : State) (r : SlotRef) : State :=
  let l := s.slotAt r
  if l.occ && l.dying && !l.begun then ((s.finishAtomic r).getD s).endAborted r else s

/-- Whether the next instruction of a slot would not stall: the slot is ready in the sense of R57. -/
noncomputable def State.couldIssue (s : State) (r : SlotRef) : Bool :=
  match State.runSlot { s with cur := r } with
  | .next t => !(t.slotAt r).stalled
  | _ => true

/-- The cores of a range that had a cycle in which no slot was ready, as the cycle passes them (R57). -/
def State.passCores (s : State) (lo hi : Nat) : State :=
  { s with cores := s.cores.map fun (g, c) =>
      (g, if lo ≤ g ∧ g < hi ∧ !(s.coreHeld g) ∧ !(s.fixed g) then c.unready else c) }

/-- The issue from a slot: the cycle goes on with the next core. In D0 and D1 the other slots that were ready have waited
(R57). -/
noncomputable def State.issue (s : State) (r : SlotRef) : Out :=
  let s1 := { s.passCores s.sweep r.core with cur := r, sweep := r.core + 1 }
  let s2 := if s.fixed r.core then s1
    else s1.modCore r.core fun c => c.aged r.slot fun k => c.ready k && s.couldIssue ⟨r.core, k⟩
  mapNext (fun t => ((t.settle r).giveBack s r).endDying r) s2.runSlot

/-! ## Queue cores (R422) -/

/-- The awake queue core executes one word; words of its base instruction set are not this manual's. -/
noncomputable def State.runFcore (s : State) (n : Nat) : Out :=
  match (s.fcore n).fetch with
  | .outside => .fault .flambeolFetch
  | .base => .refused .baseRiscV
  | .custom w =>
    match decodeFlambeol w with
    | .ok i => exec i s
    | .error _ => exec (.illegal w) s

/-! ## The device's other agents -/

/-- What a die's scheduler does at the start of a step, before any slot issues (R389). -/
def State.admission (s : State) (d : Nat) : Option State := if s.refclk = s.stepBase then s.scheduleDie d else none

/-- What is due at a home in this cycle (R231): semaphore operations, gang operations and memory atomics that have arrived
there, each in its home's order of arrival; and the answers that have reached their slots. -/
noncomputable def State.homeOp (s : State) : Option Instr :=
  match (List.range 8).find? fun d => (s.semAtHome d).isSome with
  | some d => some (.semUpdateAtHome d)
  | none =>
    match (List.range 8).find? fun d => (s.gangAtHome d).isSome with
    | some d => some (.gangArrivalAtHome d)
    | none =>
      match s.slotRefs.find? fun r => (s.performAtomic r).isSome with
      | some r => some (.atomicAtHome r.core r.slot.val)
      | none =>
        match s.slotRefs.find? fun r => (s.waitDone r).isSome with
        | some r => some (.semWaitComplete r.core r.slot.val)
        | none => (s.slotRefs.find? fun r => (s.barDone r).isSome).map fun r => .barComplete r.core r.slot.val

/-- What falls due at a cycle of its own: watchdogs (R351), test alarms (R354), Drizzle resets (R356), the stop of tasks that
hold up a shootdown (R93), the hand-overs of lanes (R398), the end of in-field tests (R404) and the samples of the sensors
(R407). -/
noncomputable def State.timedOp (s : State) : Option Instr :=
  match (s.cores.flatMap fun (g, _) => ([.vec, .copy, .mx] : List EngId).map fun e => (g, e)).find? fun x =>
      (s.watchdog x.1 x.2).isSome with
  | some (g, e) => some (.watchdog g e)
  | none =>
    match (List.range 8).find? fun d => (s.testAlarm d).isSome with
    | some d => some (.testAlarm d)
    | none =>
      match (List.range 8).find? fun d => (s.drizzleReset d).isSome with
      | some d => some (.drizzleReset d)
      | none =>
        match s.cores.find? fun (g, _) => (s.shootExpire g).isSome with
        | some (g, _) => some (.shootWaitExpiry g)
        | none =>
          match (if s.lanePeriod = 0 then none else (List.range 56).find? fun n => s.rotationDue n) with
          | some n => some (.laneRotation n)
          | none =>
            match s.clusters.find? fun (k, _) => s.testEnds k with
            | some (k, _) => some (.clusterTestResult k (Config.testPasses k (s.cluster k).emptyAt))
            | none =>
              if s.refclk % 65536 ≠ 0 then none
              else ((List.range 192).find? fun k => s.sampleDue k).map fun k =>
                let x := Config.sensors k (s.refclk / 65536)
                .monSample k x.1 x.2.1 x.2.2.1 x.2.2.2

/-- What must come before anything else in a cycle: the step boundary and what happens at the start of a step, and what
falls due in the cycle itself. -/
noncomputable def State.urgent (s : State) : Option Instr :=
  if s.boundaryDue then some .stepBoundary
  else match s.clusters.find? fun (k, _) => s.holdDue k with
    | some (k, _) => some (.scycHold k)
    | none =>
      match s.queues.find? fun (q, _) => (s.cadenceTick q).isSome with
      | some (q, _) => some (.cadenceTick q)
      | none =>
        match s.dies.find? fun (d, _) => (s.openWindow d).isSome with
        | some (d, _) => some (.drizzleWindow d)
        | none =>
          match (List.range 8).find? fun d => (s.admission d).isSome with
          | some d => some (.launchAdmission d)
          | none =>
            if s.snapReady then some .snapshotLatch
            else match s.homeOp with
              | some i => some i
              | none => s.timedOp

/-- What the scheduler of a die may do. -/
noncomputable def dieOps (d : Nat) : List Instr := [.launchAdmission d, .spillRefill d]

/-- What a slot's waits and parks may do. -/
noncomputable def slotOps (g k : Nat) : List Instr :=
  [.semWaitComplete g k, .barComplete g k, .parkWake g (.slot k), .parkTimeout g (.slot k)]

/-- What the engines of a core may do. -/
noncomputable def coreOps (g : Nat) (c : Core) : List Instr :=
  ([0, 1, 2, 3] : List Nat).flatMap (slotOps g) ++
  ([.vec, .copy, .mx] : List EngId).flatMap (fun e => [.parkWake g (.engine e), .parkTimeout g (.engine e)]) ++
  [.shootdownAck g, .vectorEntryStart g, .vectorEntryEnd g, .copyEntryStart g, .cptRelease g] ++
  (c.cq.recs.flatMap fun q => [.copyRowLanded g q.idx, .copyEntryEnd g q.idx]) ++
  [.reductionMerge g, .matrixEntryStart g, .planeLoadDone g, .matrixPass g, .matrixCommit g, .saveComplete g]

/-- What a host queue may do. -/
noncomputable def queueOps (q : Nat) : List Instr :=
  [.nopPacket q, .launchPacket q, .waitPacket q, .signalPacket q, .copyPacket q, .detlevel q, .cadence q, .barrier q,
   .levelSwitch q, .drainTimeout q, .saveTimeout q, .queueResetComplete q] ++ (List.range homeCount).map fun h => .homeFence q h

/-- What the mailbox and the management cores may do. -/
noncomputable def hostOps : List Instr :=
  [.pendingMapScan, .create, .destroy, .qreset, .preempt, .resume, .pkgreset, .update, .slotwrite, .slotverify, .setslot,
   .pcap, .setparam, .snapshot, .devread, .devwrite, .clearmap, .group, .heartbeatTimeout]

/-- Every operation of the device's other agents that could be due. What comes from outside (doorbells, register writes,
flits, errors, sensors, replays, training) and what the manual ties to no event comes from the agenda alone. -/
noncomputable def State.ops (s : State) : List Instr :=
  (List.range 8).flatMap dieOps ++ (s.cores.flatMap fun (g, c) => coreOps g c) ++
  (s.launches.flatMap fun (n, _) => [.phaseAdmission n, .launchEnd n]) ++ (s.queues.flatMap fun (q, _) => queueOps q) ++
  hostOps ++ (s.fcores.map fun (n, _) => .swaitTimeout n) ++
  (s.shootReqs.map fun (q, b, n) => .shootdown q b n) ++
  (s.clusters.flatMap fun (k, _) => [.inFieldTest k, .clusterEmptyTimeout k]) ++
  if s.testPeriod ≤ s.refclk then (List.range 192).map fun k => .inFieldTest k else []

/-- Whether an outcome is another state. -/
def changes (s : State) (o : Out) : Bool :=
  match o with
  | .next t => t != s
  | _ => true

/-- Whether an operation is due by itself: an in-field test once a cluster has gone FTPER without one, and then as its cluster
is being emptied (R404). -/
noncomputable def State.due (s : State) (i : Instr) : Bool :=
  (match i with
   | .inFieldTest k => (s.cluster k).test == .emptying || s.testOverdue k
   | _ => true) && changes s (exec i s)

/-- The operation that happens in a cycle, if one is due; each gets its chance, for the first one to look at moves with the
reference cycle. -/
noncomputable def State.autoOp (s : State) : Option Instr :=
  let l := s.ops
  let k := s.refclk % (l.length + 1)
  (l.drop k ++ l.take k).find? fun i => s.due i

/-- A cycle ends: the clocks advance, and with the reference cycle one operation that is due happens. -/
noncomputable def State.endCycle (s : State) : Out :=
  let s1 : State := { (s.passCores s.sweep Config.cores).tick with sweep := 0 }
  if s1.lap ≠ 0 then .next s1
  else match s1.autoOp with
    | some i => exec i s1
    | none => .next s1

/-- The device's next step without the agenda. -/
noncomputable def State.runDevice (s : State) : Out :=
  match s.urgent with
  | some i => exec i s
  | none =>
    match s.nextIssue with
    | some r => s.issue r
    | none => s.endCycle

/-- What happens next: the head of the agenda, the awake queue core, or the device. -/
noncomputable def State.advance (s : State) : Out :=
  match s.agenda with
  | i :: rest => exec i { s with agenda := rest }
  | [] =>
    match s.fcur with
    | some n => s.runFcore n
    | none => s.runDevice

end Sys2Proof.Machine
end

