-- ==== Sys2Proof/Machine/Place.lean ====
section
/-! DEFINITION. The placing of one instruction where the next step fetches it. It stands for what brings a program to a
slot or a queue core: the host's memory contents, a launch and its admission (assumption 33). -/

namespace Sys2Proof.Machine

/-- Where the instruction of a slot is placed, in near memory. -/
def placeAt : Nat := 0x20000
/-- Where the page table of the placed context lies: one entry that maps the first 4 TiB. -/
def placeRoot : Nat := 0x10000

/-- The queue whose context the placed task belongs to. -/
def placeQueue : Queue := { Queue.blank with troot := w64 placeRoot, resident := true, dies := 1, semn := 16384 }

/-- The launch of the placed task: level 0, with a lease on the first MiB that grants everything. -/
def placeLaunch : Launch := { Launch.blank with
  stage := .admitted, state := 1, count := 1, vregs := 48, b0 := 9, b1 := 40, b2 := 56, mask := 1
  lastTask := 1, nextTask := 1, nextNum := 1
  leases := [{ base := 0, pages := 16, lw := true, lx := true, demand := false }] }

/-- The placed task, at its first instruction. -/
def placeSlot : Slot :=
  { Slot.start { num := 0, pc := w64 placeAt, arg := 0, role := .epilogue, prio := 0, entry := 0, origin := .direct 0,
                 gang := none } 0 placeLaunch 1 with yield := 0 }

/-- The core of the placed task. -/
def placeCore : Core :=
  { Core.reset with
    b0 := 9, b1 := 40, b2 := 56, vregs := 48, context := some 0, degraded := false }.setSlot 0 placeSlot

/-- The bytes placed: the page-table entry (valid, readable, writable, executable, A, D and PIN set, near memory) and the
instruction. -/
def placeCells (w : Nat) : List (Nat × Byte) := cellsLE placeRoot 8 0x7F ++ cellsLE placeAt 4 w

/-- A sequencer word where core 0 fetches it in slot 0. -/
def State.placeWord (s : State) (w : Nat) : State :=
  { s with
    mem := Memory.setAll s.mem (placeCells w)
    cores := tset s.cores 0 placeCore
    queues := tset s.queues 0 placeQueue
    launches := tset s.launches 0 placeLaunch
    nextLaunch := Nat.max s.nextLaunch 1
    nextUid := Nat.max s.nextUid 2
    clusters := tset s.clusters 0 Cluster.reset
    fcur := none
    stepBase := s.refclk
    lap := 0
    sweep := 0
    agenda := [] }

/-- A custom-0 word where queue core 0 fetches it. -/
def State.placeFlambeol (s : State) (w : Nat) : State :=
  { s with
    fcores := tset s.fcores 0 { s.fcore 0 with
      pc := 0, asleep := false, lmem := (cellsLE 0 4 w).foldl (fun t c => tset t c.1 c.2) (s.fcore 0).lmem }
    fcur := some 0
    agenda := [] }

/-- Whether a word of the table is a custom-0 word of a queue core. -/
noncomputable def isFlambeol (w : W32) : Bool :=
  match decode w, decodeFlambeol w with
  | .error _, .ok _ => true
  | _, _ => false

/-- A word placed where the next step fetches it. -/
noncomputable def State.place (s : State) (w : Nat) : State :=
  if isFlambeol (BitVec.ofNat 32 w) then s.placeFlambeol w else s.placeWord w

end Sys2Proof.Machine
end

