-- ==== Sys2Proof/Safety.lean ====
section
/-! DEFINITION. What claims say of a run: the invariant that every step keeps, and the frames that say what an instruction
leaves alone. -/

namespace Sys2Proof.Machine

/-! ## The invariant -/

/-- The invariant: memory is in its canonical form, and the parameters that the host sets hold values that the manual
allows: STEPLEN (R382), the power cap (R429), SHOOT_WAIT (R93) and the test period (R404). -/
def State.Inv (s : State) : Prop :=
  s.mem.wf = true ∧ steplenOk s.steplen = true ∧ (800 ≤ s.pcap ∧ s.pcap ≤ 1950) ∧
    (1 ≤ s.shootWait ∧ s.shootWait ≤ 65535) ∧ (1 ≤ s.ftper ∧ s.ftper ≤ 168)

/-- An outcome that is a next state keeps the invariant. -/
def Keeps (o : Out) : Prop :=
  match o with
  | .next t => t.Inv
  | _ => True

/-! ## Frames -/

/-- Outside the slots nothing has changed: no part of the device but its cores, and no part of a core but its slots. -/
def DeviceKept (s t : State) : Prop :=
  { t with cores := s.cores } = s ∧ ∀ g, { t.core g with slots := (s.core g).slots } = s.core g

/-- No slot but the executing one has changed. -/
def OthersKept (s t : State) : Prop := ∀ r, r ≠ s.cur → t.slotAt r = s.slotAt r

/-- Every byte at a location that `P` does not hold of reads as before: at its home, as every core sees it, and as the task
of every slot reads it. -/
def BytesKept (P : Nat → Prop) (s t : State) : Prop :=
  ∀ n, ¬ P n → t.mem.get n = s.mem.get n ∧ (∀ g, t.vis g n = s.vis g n) ∧ ∀ r, t.readByte r n = s.readByte r n

/-- Every byte of memory reads as before. -/
def MemoryKept (s t : State) : Prop := BytesKept (fun _ => False) s t

/-- Nothing but the executing slot has changed, and every byte of memory reads as before. -/
def Frame (s t : State) : Prop := DeviceKept s t ∧ OthersKept s t ∧ MemoryKept s t

/-- A slot after an instruction that only computes: nothing of it has changed but its scalar registers, its predicates and
FPCTL; it stands at the next word, and its prefix chain is over. -/
def Slot.Computed (l m : Slot) : Prop :=
  m = { l with x := m.x, p := m.p, fpctl := m.fpctl, pc := l.pc + 4, pfx := [], started := true, stalled := false }

/-- Of the scalar registers and predicates nothing has changed but register d, which holds a value; x0 discards it
(R125, R126). -/
def RegIs (s t : State) (d : XReg) (v : W64) : Prop :=
  t.rx d = (if d = 0 then 0 else v) ∧ (∀ r, r ≠ d → t.rx r = s.rx r) ∧ ∀ q, t.slot.rp q = s.slot.rp q

/-- Of the scalar registers and predicates nothing has changed but predicate d, which holds a truth; p0 discards it
(R125, R126). -/
def PredIs (s t : State) (d : PReg) (v : Bool) : Prop :=
  t.slot.rp d = (if d = 0 then true else v) ∧ (∀ q, q ≠ d → t.slot.rp q = s.slot.rp q) ∧ ∀ r, t.rx r = s.rx r

/-- The instruction completes with a value in register d, and with nothing else changed. -/
def Puts (s : State) (i : Instr) (d : XReg) (v : W64) : Prop :=
  ∃ t, exec i s = .next t ∧ Frame s t ∧ s.slot.Computed t.slot ∧ RegIs s t d v ∧ t.slot.fpctl = s.slot.fpctl

/-- A register form completes at both widths (R147): on 64-bit values, and on the low 32 bits of its sources with the 32-bit
result sign-extended. -/
def PutsBoth (s : State) (i : Size → Instr) (d a b : XReg) (f : (w : Nat) → BitVec w → BitVec w → BitVec w) : Prop :=
  Puts s (i .d64) d (f 64 (s.rx a) (s.rx b)) ∧
    Puts s (i .w32) d ((f 32 ((s.rx a).setWidth 32) ((s.rx b).setWidth 32)).signExtend 64)

/-- The instruction completes with a truth in predicate d, and with nothing else changed. -/
def PutsP (s : State) (i : Instr) (d : PReg) (v : Bool) : Prop :=
  ∃ t, exec i s = .next t ∧ Frame s t ∧ s.slot.Computed t.slot ∧ PredIs s t d v ∧ t.slot.fpctl = s.slot.fpctl

/-- The state in which a slot has entered its handler for a precise trap of the executing instruction (R366): nothing but
the slot has changed, and of the slot the trap registers, PC, the latches, the prefix chain and its waits, that of an EXIT
included. -/
def Trapped (s t : State) (c : Cause) (tval : W64) (word : W32) : Prop :=
  Frame s t ∧ bits t.slot.tstat 31 0 = 1 ∧ bits t.slot.tstat 63 32 = bits s.slot.tstat 63 32 ∧
    t.slot = { s.slot with
      tcause := c.code.setWidth 64, tval := tval, tword := word.setWidth 64, tpc := s.slot.trapPc
      tstat := t.slot.tstat, pc := s.slot.tvec
      pushes := 0, pfx := [], started := true, stalled := false, exiting := false, wait := .run, park := none }

/-- An instruction traps, outside a handler, with a cause and TVAL. -/
def Traps (s : State) (i : Instr) (c : Cause) (tval : W64) : Prop :=
  ∃ t, exec i s = .next t ∧ Trapped s t c tval i.encode

/-- An instruction traps, outside a handler, with a TVAL that the manual does not give. What counts the free values has counted
(assumption 2). -/
def TrapsOpen (s : State) (i : Instr) (c : Cause) : Prop :=
  ∃ t v n, exec i s = .next t ∧
    Trapped (({ s with freeCtr := n } : State).mapSlot fun l => { l with opens := l.opens + 1 }) t c v i.encode

/-- A floating-point instruction that raises flags (R102, R169): where no raised flag is enabled, it completes as `done`
says, its flags are in FPCTL, and nothing else has changed; where one is, it traps FP outside a handler with its flags in
FPCTL and in TVAL, and with no destination written. -/
def FloatEnds (s : State) (i : Instr) (fl : Fl) (done : State → Prop) : Prop :=
  (enabledFlags s.slot.fpctl fl = 0 → ∃ t, exec i s = .next t ∧ Frame s t ∧ s.slot.Computed t.slot ∧
    t.slot.fpctl = s.slot.fpctl ||| (fl.setWidth 64 <<< 16) ∧ done t) ∧
  (enabledFlags s.slot.fpctl fl ≠ 0 → s.slot.inh = false → ∃ t, exec i s = .next t ∧
    Trapped (s.mapSlot fun l => { l with fpctl := l.fpctl ||| (fl.setWidth 64 <<< 16) }) t .fp (fl.setWidth 64) i.encode)

/-- A floating-point result in register d, its flags with those of what it was rounded from. -/
def FloatPuts (s : State) (i : Instr) (d : XReg) (v : Nat × Fl) (fl : Fl) : Prop :=
  FloatEnds s i (fl ||| v.2) fun t => RegIs s t d (BitVec.ofNat 64 v.1)

/-- The instruction completes, and of the whole state nothing has changed but the executing slot, which is `l` now. -/
def Becomes (s : State) (i : Instr) (l : Slot) : Prop :=
  ∃ t, exec i s = .next t ∧ Frame s t ∧ t.slot = l

/-- The instruction completes, and of the whole state nothing has changed but the executing core and slot, which are `c`
and `l` now. -/
def CoreBecomes (s : State) (i : Instr) (c : Core) (l : Slot) : Prop :=
  ∃ t, exec i s = .next t ∧ t = s.setCore s.cur.core (c.setSlot s.cur.slot l) ∧ MemoryKept s t

/-- The instruction stalls: it has no effect but that the slot holds what it stalls on, and its slot is not ready until something
else has happened. -/
def Stalls (s : State) (i : Instr) : Prop := ∃ k, Becomes s i { s.slot with stalled := true, stall := k }

/-- A precise trap ends the task of the executing instruction (R368, R370), which is a member of no gang: the slot is free, with
no store pending; no entry of the task is left in the vector and the matrix queue, and none in the copy queue but a cancelled or
a finished copy; the launch counts the task as faulted, and an event is numbered for its queue. -/
def EndsTask (s : State) (i : Instr) : Prop :=
  (s.launch s.slot.launch).gangsOf s.slot.uid = [] →
    let n := s.slot.launch
    let q := (s.launch n).queue
    ∃ t, exec i s = .next t ∧
      t.slot.occ = false ∧ t.slot.pend = [] ∧ t.slot.hidden = [] ∧
      (∀ r, r ∈ (t.core s.cur.core).vq.recs ++ (t.core s.cur.core).mq.recs → r.uid ≠ s.slot.uid) ∧
      (∀ r, r ∈ (t.core s.cur.core).cq.recs → r.uid = s.slot.uid → r.fin ≠ .no ∨ r.st = .ended) ∧
      (t.launch n).faulted = (s.launch n).faulted + 1 ∧ (t.launch n).exited = (s.launch n).exited ∧
      (tmem s.queues q = true → (t.queue q).evseq = (s.queue q).evseq + 1) ∧
      (∀ r, r ≠ s.cur → { t.slotAt r with held := (s.slotAt r).held, group := (s.slotAt r).group } = s.slotAt r) ∧
      (∀ p, p ≠ q → t.queue p = s.queue p) ∧ t.gstep = s.gstep ∧ t.links = s.links ∧ t.mbox = s.mbox

/-- TCB i of launch n is released at the semaphore of a die (R50 to R53): RSTEP and STATE 2 are written; a TCB that passes its
check enters the ready queue of that die, where the launch runs on it, and else of the lowest-numbered die of its mask; one that
fails it has STATE 5, counts as faulted, and posts a fault event. -/
def Releases (s t : State) (n i d : Nat) : Prop :=
  let l := s.launch n
  let root := (s.queue l.queue).troot
  let at_ := l.tcbs.toNat + 64 * i
  let u := (s.fwWrite root (at_ + 0x18) 8 s.gstep.toNat).fwWrite root (at_ + 0x30) 8 2
  ∀ prog arg w e : Nat, u.fwRead root at_ 8 = some prog → u.fwRead root (at_ + 8) 8 = some arg →
    u.fwRead root (at_ + 16) 8 = some w → e < 8 →
    (l.mask.getLsbD d = true ∧ e = d ∨
      l.mask.getLsbD d = false ∧ l.mask.getLsbD e = true ∧ ∀ k, k < e → l.mask.getLsbD k = false) →
    let good : Prop := w / 2 ^ 49 % 2 ^ 15 = 0 ∧ w / 2 ^ 40 % 4 ≠ 3 ∧ prog % 4 = 0
    let p : ReadyTcb :=
      { launch := n, prio := BitVec.ofNat 8 (w / 2 ^ 32), rstep := s.gstep, index := some i, order := l.order
        num := BitVec.ofNat 32 w, prog := BitVec.ofNat 64 prog, arg := BitVec.ofNat 64 arg
        role := match w / 2 ^ 40 % 4 with | 0 => .epilogue | 1 => .arith | _ => .loader
        gang := if w / 2 ^ 48 % 2 = 1 then some (BitVec.ofNat 6 (w / 2 ^ 42)) else none, origin := .tcb i }
    (good → t = u.modDie e fun x => { x with ready := insertReady p x.ready }) ∧
    (¬ good → ∃ v : Event, v.kind = 1 ∧ v.cause = 1 ∧ v.task = BitVec.ofNat 32 w ∧ v.tpc = BitVec.ofNat 64 prog ∧
      v.tval = BitVec.ofNat 64 at_ ∧
      t = ((u.fwWrite root (at_ + 0x30) 8 5).modLaunch n fun x => { x with faulted := x.faulted + 1 }).faultEvent l.queue v)

/-- On a device that does not bridge, writes to the host window have left for the bridging device (R25, R409), and nothing else
has left. -/
def Carries (s t : State) : Prop :=
  ∃ fs : List Flit, t.outbox = s.outbox ++ fs ∧ (s.bridge = true → fs = []) ∧
    ∀ f, f ∈ fs → f.dest = s.hostDev ∧ ∃ stamp offset bytes, f.body = .hostWrite s.devid stamp offset bytes

/-! ## Accesses -/

/-- An access of n bytes by the executing instruction passes every check of R173 and R174; it proceeds at a location, in
the state that the checks leave. -/
def Passes (s : State) (va : W64) (n : Nat) (k : Access) (loc : Nat) (u : State) : Prop :=
  va.toNat % n = 0 ∧ s.check s.cur va.toNat n k .task = .ok loc u

/-- A load of n bytes that passes its checks completes with `f` of the value that its task reads (R172, R199): after it
the task has read the granule (R200), and no byte of memory and nothing but register d, the marks of joins (R207) and PC
has changed. -/
def Loads (s : State) (i : Instr) (d : XReg) (va : W64) (n : Nat) (f : Nat → W64) : Prop :=
  ∀ loc u, Passes s va n .read loc u → ∃ t, exec i s = .next t ∧ Frame u t ∧
    RegIs u t d (f (u.readBytes s.cur loc n)) ∧ tmem t.slot.snap (loc / 64) = true ∧
    t.slot = { s.slot with
      x := t.slot.x, snap := t.slot.snap, hidden := t.slot.hidden
      pc := s.slot.pc + 4, pfx := [], started := true, stalled := false }

/-- The store buffer has room for a granule (R193, R194). -/
def HasRoom (l : Slot) (loc : Nat) : Prop :=
  loc / 64 ∈ granules l.pend ∨ (granules l.pend).length < Config.storeBufferGranules

/-- A store of the low n bytes of a value that passes its checks and finds room completes (R172, R193): its own task reads
the bytes at once, no other agent sees them, and nothing but the store buffer, the marks of joins (R207) and PC has
changed. -/
def Stores (s : State) (i : Instr) (va : W64) (n : Nat) (v : W64) : Prop :=
  ∀ loc u, Passes s va n .write loc u → HasRoom s.slot loc → ∃ t, exec i s = .next t ∧
    DeviceKept u t ∧ OthersKept u t ∧ BytesKept (fun a => loc ≤ a ∧ a < loc + n) u t ∧
    (∀ a, t.mem.get a = u.mem.get a ∧ ∀ g, t.vis g a = u.vis g a) ∧
    (∀ j, j < n → t.readByte s.cur (loc + j) = v.extractLsb' (8 * j) 8) ∧
    t.slot = { s.slot with
      pend := t.slot.pend, hidden := t.slot.hidden
      pc := s.slot.pc + 4, pfx := [], started := true, stalled := false }

/-- Where a scalar access of n bytes does not proceed (R173, R174): it traps MISALIGNED or the cause of the first check
that fails, with the address in TVAL, or ends its task where the cause is fatal or a handler is active (R368, R370); it parks
(R87); or it stalls. On a device that does not bridge a read of the host window
that has not been answered is asked of the bridging device, and stalls (R409, assumption 94). -/
def Halts (s : State) (i : Instr) (va : W64) (n : Nat) (k : Access) : Prop :=
  (va.toNat % n ≠ 0 → (s.slot.inh = false → Traps s i .misaligned va) ∧ (s.slot.inh = true → EndsTask s i)) ∧
  (va.toNat % n = 0 →
    (∀ c, s.check s.cur va.toNat n k .task = .trap c → c.fatal = true ∨ s.slot.inh = true → EndsTask s i) ∧
    (∀ c, s.check s.cur va.toNat n k .task = .trap c → c.fatal = false → s.slot.inh = false → Traps s i c va) ∧
    (∀ e, s.check s.cur va.toNat n k .task = .park e → ∃ (t : State) (p : Park), exec i s = .next t ∧
      (p.addr = va ∧ p.entry = e ∧ p.since = s.refclk ∧ p.expired = false) ∧ Frame (s.arm p) t ∧
      t.slot = { s.slot with park := some p }) ∧
    (∀ w, s.check s.cur va.toNat n k .task = .stall w → Stalls s i) ∧
    (∀ loc u, s.check s.cur va.toNat n k .task = .away loc u →
      exec i s = .next ((s.askHost s.cur u loc).mapSlot fun l => { l with stalled := true, stall := .access })))

/-! ## Engine queues -/

/-- An instruction that appends a record to an engine queue (R141, R344, R345): where the queue is full it stalls; else the
record at TAIL holds the instruction, its slot and task, the captured settings and operands, nothing of it has run, TAIL
and the sequence number move on, and the slot is `l`. -/
def Queues (s : State) (i : Instr) (w : Which) (ops : List W64) (table : List (BitVec 128)) (l : Slot) : Prop :=
  ((s.here.queue w).full w = true → Stalls s i) ∧
  ((s.here.queue w).full w = false → ∃ r : QRec,
    (r.instr = i ∧ r.idx = (s.here.queue w).tail ∧ r.seq = (s.here.queue w).seq ∧ r.slot = s.cur.slot ∧
      r.uid = s.slot.uid ∧ r.task = s.slot.task ∧ r.gen = (s.queueOf s.cur).gen ∧ r.det = (s.launchOf s.cur).det) ∧
    (r.vcfg = s.slot.vcfg.setWidth 8 ∧ r.rm = s.slot.fpctl.extractLsb' 0 3 ∧ r.fz = s.slot.fpctl.extractLsb' 3 6 ∧
      r.anch = s.slot.accanch.setWidth 16 ∧ r.ops = ops ∧ r.table = table) ∧
    (r.st = .queued ∧ r.started = false ∧ r.fin = .no ∧ r.row = 0 ∧ r.off = 0 ∧ r.merged = 0 ∧ r.mark = 0 ∧
      r.late = false ∧ r.park = none) ∧
    CoreBecomes s i
      (s.here.setQueue w { recs := (s.here.queue w).recs ++ [r]
                           head := if (s.here.queue w).recs = [] then (s.here.queue w).tail else (s.here.queue w).head
                           tail := ((s.here.queue w).tail + 1) % w.size, seq := (s.here.queue w).seq + 1 }) l)

/-- A name of a semaphore of this device, in the grant of the executing task's context (R212, R213). -/
def NameOk (s : State) (name : W64) : Prop :=
  name.extractLsb' 52 12 = 0 ∧ name.extractLsb' 14 15 = 0 ∧ name.extractLsb' 32 20 = s.devid ∧
    (s.queueOf s.cur).semb ≤ (name.extractLsb' 0 14).toNat ∧
    (name.extractLsb' 0 14).toNat < (s.queueOf s.cur).semb + (s.queueOf s.cur).semn

/-- A trap that an engine entry leaves becomes pending in a slot, whose pending engine traps were `old` and are `new` (R367): behind
those of entries that stopped before it, and in one cycle as vector, copy, matrix. -/
def Stops (s : State) (t : PendTrap) (old new : List PendTrap) : Prop :=
  let x : PendTrap := { t with stop := 64 * s.refclk + s.lap }
  ∃ es fs, old = es ++ fs ∧ new = es ++ x :: fs ∧ (∀ y, y ∈ es → ¬ (y.stop = x.stop ∧ x.orig.toNat < y.orig.toNat)) ∧
    ∀ y, fs.head? = some y → y.stop = x.stop ∧ x.orig.toNat < y.orig.toNat

/-! ## Rounding -/

/-- Whether a magnitude rounds to the upper of the neighbours k and k + 1 quanta (R99); `c n` orders the magnitude against n
parts of a quantum, of which a quantum has w. -/
def roundsAway (r : RMode) (neg : Bool) (k w : Nat) (c : Nat → Ordering) : Bool :=
  match r with
  | .rne => c (w * k + w / 2) == .gt || (c (w * k + w / 2) == .eq && k % 2 == 1)
  | .rna => c (w * k + w / 2) != .lt
  | .rtz => false
  | .rdn => neg && c (w * k) == .gt
  | .rup => !neg && c (w * k) == .gt

/-- A magnitude between k and k + 1 quanta of 2^q in a format, rounded (R99, R101): the neighbours have consecutive codes, and
the code after the largest finite one is infinity. NX marks a lost part, OF an infinity, and UF a lost part of what rounds,
with as many digits and an unbounded exponent, below the least normal magnitude. A result flush writes a nonzero result
below that as a zero, with UF and NX. `c n` orders the magnitude against n quarters of a quantum. -/
def Fmt.nearest (f : Fmt) (r : RMode) (flush neg : Bool) (q : Int) (k : Nat) (c : Nat → Ordering) : Nat × Fl :=
  let up := b2n (roundsAway r neg k 4 c)
  let code := (q - (f.emin - f.fbits)).toNat * 2 ^ f.fbits + k + up
  let lost := c (4 * k) == .gt
  let tiny := decide (k < 2 ^ f.fbits) && !(k + 1 == 2 ^ f.fbits && roundsAway r neg (2 * k + 1) 2 c)
  if flush && code != 0 && decide (code < 2 ^ f.fbits) then (f.zeroBits neg, flUF ||| flNX)
  else (f.zeroBits neg + code,
    flIf lost flNX ||| flIf (f.zeroBits neg + code == f.infBits neg) flOF ||| flIf (tiny && lost) flUF)

/-- What a format makes of a magnitude past its largest finite value and the half quantum after it (R99). -/
def Fmt.overflow (f : Fmt) (r : RMode) (neg : Bool) : Nat × Fl :=
  (if r = .rtz ∨ (r = .rdn ∧ neg = false) ∨ (r = .rup ∧ neg = true) then f.maxBits neg else f.infBits neg, flOF ||| flNX)

/-- A quantum of 2^q fits a magnitude of at least k and less than k + 1 of them in a format: k has the digits of the format, or
the quantum is its least one. -/
def Fmt.Fits (f : Fmt) (q : Int) (k : Nat) (c : Nat → Ordering) : Prop :=
  f.emin - f.fbits ≤ q ∧ k < 2 ^ (f.fbits + 1) ∧ (q = f.emin - f.fbits ∨ 2 ^ f.fbits ≤ k) ∧ q + f.fbits ≤ f.bias ∧
    c (4 * k) ≠ .lt ∧ c (4 * k + 4) = .lt

/-- The digits and the exponent of a 7-bit TF8 code, by the classes of R106. -/
def tf8Mag (c : Nat) : Nat × Int :=
  if 64 ≤ c then (32 + c % 32, (c / 32 % 2 : Nat) - 6)
  else if 32 ≤ c then (16 + c % 16, (c / 16 % 2 : Nat) - 3)
  else if 16 ≤ c then (8 + c % 8, (c / 8 % 2 : Nat) - 6)
  else if 8 ≤ c then (4 + c % 4, (c / 4 % 2 : Nat) + 1)
  else if 4 ≤ c then (2 + c % 2, (c / 2 % 2 : Nat) - 6)
  else if 2 ≤ c then (1, (c % 2 : Nat) + 5)
  else (c, -7)

/-- Whether 7-bit TF8 code c wins a tie against c' (R107): 0 does; else the one whose last fraction bit is 0; a code without
fraction bits, that is one below 4, wins only against one whose last fraction bit is 1, or where it has the even exponent. -/
def tf8Wins (c c' : Nat) : Prop :=
  c = 0 ∨ (c' ≠ 0 ∧ (4 ≤ c ∧ c % 2 = 0 ∨ c < 4 ∧ 4 ≤ c' ∧ c' % 2 = 1 ∨ c = 3 ∧ c' < 4))

/-! ## The matrix engine -/

/-- The bits of element k of width w in consecutive bytes (R97). -/
def codeAt (w k : Nat) (b : Nat → Byte) : Nat :=
  natOfBytes ((List.range ((w + 7) / 8)).map fun j => b (k * w / 8 + j)) / 2 ^ (k * w % 8) % 2 ^ w

/-- The exact value of an element of a PAIR's activation or weight format (R96, R105, R283). -/
def exactOf (pair : Nat) (weight : Bool) (x : Nat) : Num :=
  match pair, weight with
  | 0, _ => tf8Read x
  | 1, _ => Num.ofInt (BitVec.ofNat 8 x).toInt
  | 2, true => Num.ofInt (BitVec.ofNat 4 x).toInt
  | 2, false => Num.ofInt (BitVec.ofNat 8 x).toInt
  | 3, _ => Num.ofInt (BitVec.ofNat 4 x).toInt
  | 4, _ => (fmtOf .bf16).read false x
  | 5, _ => (fmtOf .f16).read false x
  | _, _ => (fmtOf .f32).read false x

/-- The product of R112, of two elements under their scale bytes. -/
def scaledProduct (pair : Nat) (x : Num) (sx : Byte) (y : Num) (sy : Byte) : Num :=
  if sx = 0x80 ∨ sy = 0x80 then .nan false
  else match (Num.mul x y).1 with
    | .fin n m e => .fin (n && (m != 0 || decide (4 ≤ pair))) m (e + sx.toInt + sy.toInt)
    | z => z

/-- The indices of the next pass of a nest (R290, R294): the lowest level that has an iteration left, or level 5, goes on, and the
levels below it begin anew. -/
def NextPass (count : Nat → Nat) (i j : List Nat) : Prop :=
  i.length = 5 ∧ j.length = 5 ∧ ∃ l, l < 5 ∧
    (∀ k, k < l → count (k + 1) ≤ i.getD k 0 + 1 ∧ j.getD k 0 = 0) ∧
    (i.getD l 0 + 1 < count (l + 1) ∨ l = 4) ∧ j.getD l 0 = i.getD l 0 + 1 ∧ ∀ k, l < k → k < 5 → j.getD k 0 = i.getD k 0

/-- The spans that a store of the first rows of a bank writes (R293): each row, and after it its part of the side plane. -/
def bankSpans (f rows : Nat) (at_ pitch : Int) : List (Int × Nat) :=
  if f = 0 then []
  else (List.range rows).flatMap fun r =>
    (at_ + r * pitch, [0, 512, 256, 256, 128, 512, 2048].getD f 0) ::
      (if f = 4 then [(at_ + rows * pitch + 4 * r, 4)] else if f = 6 then [(at_ + rows * pitch + 256 * r, 256)] else [])

/-- The spans of a store pass their checks one after another, from s to v, at the locations given. -/
def BankChecks (s v : State) (r : SlotRef) (spans : List (Int × Nat)) (locs : Nat → List Nat) : Prop :=
  ∃ (vs : Nat → State) (bss : Nat → List (Nat × Nat)), vs 0 = s ∧ vs spans.length = v ∧
    ∀ i a n, spans[i]? = some (a, n) →
      (vs i).copySpan r .write mxStore a n = .ok (bss i) (vs (i + 1)) ∧ locs i = (bss i).map (·.2)

/-- Byte j that a store of a row of a bank writes, in the row or in its part of the side plane (R110, R116, R117, R293). -/
def bankByte (b : Table Acc) (f : Nat) (w : Int) (row : Nat) (side : Bool) (j : Nat) : Byte :=
  let x : Nat → Acc := fun n => tget Acc.cleared b (128 * row + n)
  let block : Nat → Nat × List Nat × Fl := fun k => quantBlock ((List.range 32).map fun i => (x (32 * k + i)).num w)
  match f, side with
  | 1, _ => BitVec.ofNat 8 ((x (j / 4)).toFmt w .f32 / 2 ^ (8 * (j % 4)))
  | 2, _ => BitVec.ofNat 8 ((x (j / 2)).toFmt w .bf16 / 2 ^ (8 * (j % 2)))
  | 3, _ => BitVec.ofNat 8 ((x (j / 2)).toFmt w .f16 / 2 ^ (8 * (j % 2)))
  | 4, false => BitVec.ofNat 8 ((block (j / 32)).2.1.getD (j % 32) 0)
  | 4, true => BitVec.ofNat 8 (block j).1
  | 5, _ => (BitVec.ofInt 32 ((x (j / 4)).toInt w (-(2 ^ 31)) (2 ^ 31 - 1))).extractLsb' (8 * (j % 4)) 8
  | _, false => BitVec.ofNat 8 ((x (j / 16)).plane / 2 ^ (8 * (j % 16)))
  | _, true => BitVec.ofNat 8 ((x (j / 2)).side / 2 ^ (8 * (j % 2)))

/-- After a store of the first rows of a bank at those locations, every core sees their bytes, and every other byte as before. -/
def BankSeen (u v : State) (b : Table Acc) (f : Nat) (w : Int) (spans : List (Int × Nat)) (locs : Nat → List Nat) : Prop :=
  (∀ h i j, i < spans.length → j < (locs i).length → u.vis h ((locs i).getD j 0) =
    if f = 4 ∨ f = 6 then bankByte b f w (i / 2) (i % 2 == 1) j else bankByte b f w i false j) ∧
  ∀ h a, (∀ i, i < spans.length → a ∉ locs i) → u.vis h a = v.vis h a

/-! ## Steps -/

/-- The state in which the slot that issues next executes: the cores before it that had a cycle and no ready slot have no
waiting slot, it is the executing slot, the cycle goes on with the next core, and outside D2 those of the other slots of its core
that were ready, none of which would have stalled, have waited (R57). -/
noncomputable def State.turn (s : State) (r : SlotRef) : State :=
  let s1 : State := { s.passCores s.sweep r.core with cur := r, sweep := r.core + 1 }
  if s.fixed r.core then s1
  else s1.modCore r.core fun c => c.aged r.slot fun k => c.ready k && s.couldIssue ⟨r.core, k⟩

/-- What the cycle does after a slot's instruction: the stalled slots of the cluster may try again unless it stalled; where it
did, its core's cycle goes to another slot outside D2 (R57); and a task of an aborted launch that has finished its chain ends
(R433). `old` is the state before the issue. -/
def State.afterIssue (t old : State) (r : SlotRef) : State := ((t.settle r).giveBack old r).endDying r

/-! ## Operations of the device -/

/-- An operation of the device or around it happens: it leads to `u`, in which every stalled slot may try again. -/
def Happens (s : State) (i : Instr) (u : State) : Prop := exec i s = .next u.wakeAll

/-- An operation that cannot happen now changes nothing. -/
def Idle (s : State) (i : Instr) : Prop := exec i s = .next s

/-! ## Vector entries -/

/-- Element i of width w of the group that a field names: of the registers from its number on, or of a latch (R127, R134,
R250). -/
def Slot.elem (l : Slot) (w : Nat) (f : VField) (i : Nat) : BitVec w :=
  let n := 4096 / w
  (if f.toNat < 48 then l.rv (f.toNat + i / n) else if i < n then l.b.toList.getD (f.toNat - 48) 0 else 0).extractLsb'
    (w * (i % n)) w

/-- Whether element i of an entry is active, where `m` says that the entry is masked (R250). -/
def Slot.acts (l : Slot) (q : QRec) (m : Bool) (i : Nat) : Bool :=
  !m || (l.rm (q.vcfg.extractLsb' 4 3).toNat).getLsbD (i % 1024)

/-- The vector engine of core g starts the entry q, the only one of its queue (R249): from a state `v`, in which its accesses
have passed their checks, nothing changes but that the entry runs, with what it will write at its end as P says (and the
counter of free values, and what the bridging device was asked for the entry's own loads). -/
def VecStarts (s v : State) (g : Nat) (q : QRec) (P : VRun → Prop) : Prop :=
  ∃ (o : VRun) (n : Nat) (hs : List HostReq), P o ∧ (∀ x, x ∈ hs → x ∈ v.hostReqs) ∧
    (∀ x, x ∈ v.hostReqs → x ∈ hs ∨ x.unit = 1) ∧ Happens s (.vectorEntryStart g)
    (({ v with freeCtr := n, hostReqs := hs } : State).setCore g { v.core g with
      vq := { (v.core g).vq with recs := [{ q with st := .running, park := none }] }, vrun := some o
      wdog := tdel (v.core g).wdog 0 })

/-- The flags of an entry are those that its active elements raise (R123, R250): element `num j` of each of n elements j raises
`f (num j)`. -/
def VecFlags (act : Nat → Bool) (num : Nat → Nat) (n : Nat) (f : Nat → Fl) (fl : Fl) : Prop :=
  ∀ b, fl.getLsbD b = true ↔ ∃ j, j < n ∧ act (num j) = true ∧ (f (num j)).getLsbD b = true

/-- The entry starts, and will write a group of k registers of elements of width w at field d, or with nw = 1 write none, and
push the first register where it pushes (R127, R134, R250): the element at position j is f of its number `num j` where that is
active; else it is 0 under zeroing, and keeps its value under merging. -/
def VecGroup (s v : State) (g : Nat) (q : QRec) (d : VField) (nw push m : Bool) (w k : Nat) (num : Nat → Nat)
    (f : Nat → BitVec w × Fl) : Prop :=
  let l := s.slotAt ⟨g, q.slot⟩
  let n := 4096 / w
  VecStarts s v g q fun o => ∃ ws : List VWord, ws.length = k ∧
    o = { VRun.empty with
      vregs := if nw then [] else ws.zipIdx.map fun x => (d.toNat + x.2, x.1)
      push := if push then some (ws.headD 0) else none
      flags := o.flags } ∧
    VecFlags (l.acts q m) num (k * n) (fun i => (f i).2) o.flags ∧
    ∀ j, j < k * n →
      let e := (ws.getD (j / n) 0).extractLsb' (w * (j % n)) w
      (l.acts q m (num j) = true → e = (f (num j)).1) ∧
      (l.acts q m (num j) = false → q.vcfg.getLsbD 7 = true → e = 0) ∧
      (l.acts q m (num j) = false → q.vcfg.getLsbD 7 = false → nw = false → e = l.elem w d j)

/-- The entry starts, and will write the first n bits of a mask: bit i is f of i where that is active; else it is 0 under
zeroing. Every other bit keeps its value (R250, R257, R258). -/
def VecMask (s : State) (g : Nat) (q : QRec) (k : PReg) (m : Bool) (n : Nat) (f : Nat → Bool × Fl) : Prop :=
  let l := s.slotAt ⟨g, q.slot⟩
  VecStarts s s g q fun o => ∃ x : MWord, o = { VRun.empty with mregs := [(k.toNat, x)], flags := o.flags } ∧
    VecFlags (l.acts q m) id n (fun i => (f i).2) o.flags ∧
    ∀ i, i < 1024 → x.getLsbD i =
      if i < n ∧ l.acts q m i = true then (f i).1
      else if i < n ∧ q.vcfg.getLsbD 7 = true then false else (l.rm k.toNat).getLsbD i

/-- The entry starts, and will write a value to a scalar register, and nothing else (R249). -/
def VecScalar (s : State) (g : Nat) (q : QRec) (d : XReg) (x : W64) : Prop :=
  VecStarts s s g q fun o => o = { VRun.empty with xregs := [(d.toNat, x)] }

end Sys2Proof.Machine
end

