-- ==== Sys2Proof/Certificates/Slice0/Obligations.lean ====
section
/-! DEFINITION. The statements for the provers, one definition each. -/

open Sys2Proof Sys2Proof.Machine

/-! ## Encoding, stepping and the state after reset -/

/-- Decode and encode agree (R130 to R139, R422): the word of every well-formed instruction of the sequencer decodes to that
instruction, with every operand at every value that the encoding admits; so does the word of every custom instruction of a
queue core. -/
def Obligations.RoundTrip : Prop :=
  ∀ i : Instr, i.wf = true →
    (i.wordOf = .sequencer → decode i.encode = .ok i) ∧ (i.wordOf = .flambeol → decodeFlambeol i.encode = .ok i)

/-- Every word has one meaning (R133, R139): a word that decodes is the word of the instruction it decodes to, which is well
formed and has an encoding. So a word with a nonzero field that must be 0, or with a reserved value, decodes to nothing, and
no two words decode to one instruction. -/
def Obligations.DecodeGivesItsWord : Prop :=
  (∀ (w : W32) i, decode w = .ok i → i.wf = true ∧ i.wordOf = .sequencer ∧ i.encode = w) ∧
  ∀ (w : W32) i, decodeFlambeol w = .ok i → i.wf = true ∧ i.wordOf = .flambeol ∧ i.encode = w

/-- Words that the spec works out by hand decode to the instructions they stand for, of every class and of the custom
instructions of a queue core; the all-zero word, the classes 0xE and 0xF, a reserved sz and a reserved cc decode to
nothing (R131 to R139). -/
def Obligations.SampleWords : Prop :=
  (decode 0x004A6390 = .ok (.add 5 6 7 .w32) ∧ decode 0x1308089A = .ok (.li 4 0x89A) ∧
    decode 0x210A6391 = .ok (.ffma 5 6 7 .bf16 .rne) ∧ decode 0x32D2AFF8 = .ok (.st64 9 10 0xFF8) ∧
    decode 0x41283FFD = .ok (.bne 5 0 0x3FFD) ∧ decode 0x50405330 = .ok (.semSig 5 6 .package) ∧
    decode 0x528A63B0 = .ok (.amo 5 6 7 (.pub .package) .add) ∧ decode 0x61F00001 = .ok (.cpred .x24 .fp32) ∧
    decode 0x7054B003 = .ok (.mxcfg 10 11 3)) ∧
  (decode 0x80441884 = .ok (.vadd 4 6 8 1 false false) ∧ decode 0x88C20C90 = .ok (.vfmaScalar 2 3 9 0 false false) ∧
    decode 0x90C21050 = .ok (.vcmplt 2 4 5 0 false) ∧ decode 0xA04428B4 = .ok (.vld 4 10 11 1 false false) ∧
    decode 0xA5401CA0 = .ok (.vsett .bf16 true 2) ∧ decode 0xB4010000 = .ok (.vredsum 1 0 false false) ∧
    decode 0xC1234567 = .ok (.lix 0x1234567) ∧ decode 0xD0152E00 = .ok (.spawn 10 11 .loader) ∧
    decode 0xD06287C3 = .ok (.csrr 5 0x7C3) ∧ decode 0xD0D00000 = .ok .nop) ∧
  (decodeFlambeol 0x0005850B = .ok (.rfetch 11 10) ∧ decodeFlambeol 0x00C5950B = .ok (.flambeolBfx 12 11 10) ∧
    decodeFlambeol 0x0005A50B = .ok (.swait 0 11 10) ∧ decodeFlambeol 0x00C5B50B = .ok (.disp 12 11 10)) ∧
  (∀ w : W32, w = 0 ∨ w = 0xE0000000 ∨ w = 0xF0000000 ∨ w = 0x004A63A0 ∨ w = 0x49000000 ∨ w = 0xD0D00001 →
    ∃ e, decode w = .error e)

/-- What one step runs (R57, R58, R139, R188, R281, R422). Where nothing is due before the issue and slot r is the next to
issue, the step marks r as the executing slot, lets the others age outside D2, fetches the word at its PC, and is `exec` of
the instruction that the word decodes to, after which the stalled slots of the cluster that did not issue may try again, or,
where the instruction stalls outside D2, the core's cycle is another slot's; a word that decodes to nothing is ILLEGAL, a word
that may not follow a LIX raises PREFIX, or ILLEGAL where it is ILLEGAL by itself in its slot, a word whose registers a queued
record will write waits, and a fetch that does not proceed traps or parks. The fetch reads the four bytes at the
location that its checks give; on a device that does not bridge one in the host window is asked of the bridging device first
(R409). A pending agenda operation and the word of an awake queue core are run before that: the model's choice (assumption
21). -/
def Obligations.StepRunsDecodedWord : Prop :=
  (∀ (s : State) r v loc, (s.slotAt r).pc.toNat % 4 = 0 →
    s.check r (s.slotAt r).pc.toNat 4 .fetch Mode.early = .ok loc v →
    ((loc / 64) ∉ v.poison → hostLoc loc = false ∨ v.bridge = true ∨ v.hostBack r 5 loc = true →
      s.fetch r = .word (BitVec.ofNat 32 (natOfBytes ((List.range 4).map fun j => v.fetchByte r (loc + j))))
        (if hostLoc loc then v.doneHost r 5 else v)) ∧
    (hostLoc loc = true → v.bridge = false → v.hostBack r 5 loc = false → s.fetch r = .away loc)) ∧
  (∀ (s : State) r, s.agenda = [] → s.fcur = none → s.urgent = none → s.nextIssue = some r →
    ∀ u, u = s.turn r → (u.slot.dueTrap = none ∨ u.slot.pfx ≠ []) →
      (∀ w v i, u.fetch r = .word w v → decode w = .ok i → (v.slot.pfx = [] ∨ mayFollow i = true) →
        v.interlocked i = false → step s = mapNext (·.afterIssue s r) (exec i v)) ∧
      (∀ w v e, u.fetch r = .word w v → decode w = .error e →
        step s = mapNext (·.afterIssue s r) (exec (.illegal w) v)) ∧
      (∀ w v i, u.fetch r = .word w v → decode w = .ok i → v.slot.pfx ≠ [] → mayFollow i = false →
        v.wordIllegal i = none → step s = .next ((v.trapOpen .prefixed w).afterIssue s r)) ∧
      (∀ w v i x, u.fetch r = .word w v → decode w = .ok i → v.slot.pfx ≠ [] → mayFollow i = false →
        v.wordIllegal i = some x → step s = .next ((v.trap .illegal x w).afterIssue s r)) ∧
      (∀ w v i, u.fetch r = .word w v → decode w = .ok i → (v.slot.pfx = [] ∨ mayFollow i = true) →
        v.interlocked i = true → step s = .next ((v.stallOn .operand).afterIssue s r)) ∧
      (∀ c, u.fetch r = .trap c → step s = .next ((u.fetchTrap c).afterIssue s r)) ∧
      (∀ e, u.fetch r = .park e → step s = .next ((u.parkHere u.slot.pc e).afterIssue s r)) ∧
      (∀ n, u.fetch r = .away n → step s = .next (((u.askHost u.cur 5 n).stallOn .access).afterIssue s r)) ∧
      u.fetch r ≠ .stall) ∧
  (∀ (s t : State) r, (t.slotAt r).dying = false →
    ((t.slotAt r).stalled = false → t.afterIssue s r = t.settle r ∧
      ({ t.settle r with cores := t.cores } = t) ∧
      ∀ q, (t.settle r).slotAt q =
        if q.core / 4 = r.core / 4 then { t.slotAt q with stalled := false } else t.slotAt q) ∧
    ((t.slotAt r).stalled = true → s.fixed r.core = true → t.afterIssue s r = t) ∧
    ((t.slotAt r).stalled = true → s.fixed r.core = false → t.afterIssue s r =
      { t.modCore r.core (fun c => c.unaged (s.core r.core) r.slot) with sweep := r.core })) ∧
  (∀ (s : State) n w i, s.agenda = [] → s.fcur = some n → (s.fcore n).fetch = .custom w → decodeFlambeol w = .ok i →
    step s = exec i s) ∧
  ∀ (s : State) i rest, s.agenda = i :: rest → step s = exec i { s with agenda := rest }

/-- Every step keeps the invariant: memory stays in its canonical form, and STEPLEN, the power cap, SHOOT_WAIT and the test
period stay within the limits that the manual sets (R93, R382, R404, R429), whatever any instruction, packet, mailbox
command or register write does. -/
def Obligations.StepKeepsInv : Prop :=
  ∀ s t : State, s.Inv → step s = .next t → t.Inv

/-- The state after package reset meets the invariant and holds the values that the spec gives: no memory is listed, no
core holds a task, AGE_LIMIT is 256 (R32), PARKLIM 1024 (R88), POOLMODE.DEGR 1 (R64), the watermarks 0 (R321), the window
default one commit per 32 cycles shared (R299), semaphores 0 (R212), NBCTL as R353 gives it, the defaults of the parameters
(R93, R382, R404, R429), no queue, and the service as at boot (R411). The values of the other registers are the model's
choice (assumption 5). -/
def Obligations.ResetState : Prop :=
  State.reset.Inv ∧
  (∀ a, State.reset.mem.get a = Memory.blank) ∧
  (∀ g (k : Fin 4), ((State.reset.core g).slot k).occ = false ∧ ((State.reset.core g).slot k).ageLimit = 256 ∧
    ((State.reset.core g).slot k).parklim = 1024) ∧
  (∀ g, (State.reset.core g).degraded = true ∧ (State.reset.core g).wms = Vector.replicate 8 Wm.reset ∧
    (State.reset.core g).mxw = 1 ∧ (State.reset.core g).pinned = []) ∧
  (∀ d n, tget 0 (State.reset.die d).sems n = 0) ∧ (∀ d, (State.reset.die d).nbctl = 0x00000FA000000003) ∧
  State.reset.steplen = 1024 ∧ State.reset.pcap = 1950 ∧ State.reset.shootWait = 100 ∧ State.reset.ftper = 24 ∧
  State.reset.service = 0 ∧ State.reset.queues = [] ∧ State.reset.launches = []

/-- No instruction, packet, command or device operation stops the machine: `exec` always answers a next state, and so does
every step unless a queue core is awake. Waking the stalled slots, which ends every operation of the device, changes
nothing else. -/
def Obligations.ExecAnswersNext : Prop :=
  (∀ (i : Instr) (s : State), ∃ t, exec i s = .next t) ∧
  (∀ s : State, s.fcur = none → ∃ t, step s = .next t) ∧
  ∀ s : State, { s.wakeAll with cores := s.cores } = s ∧
    ∀ r, s.wakeAll.slotAt r = { s.slotAt r with stalled := false }

/-! ## Integer instructions -/

/-- R147, R148, R149: sums, bitwise operations, minima, comparisons, shifts and rotations, at both widths. -/
def Obligations.IntegerResults : Prop :=
  ∀ (s : State) (d a b : XReg),
    PutsBoth s (.add d a b) d a b (fun _ x y => x + y) ∧
    PutsBoth s (.sub d a b) d a b (fun _ x y => x - y) ∧
    PutsBoth s (.and d a b) d a b (fun _ x y => x &&& y) ∧
    PutsBoth s (.or d a b) d a b (fun _ x y => x ||| y) ∧
    PutsBoth s (.xor d a b) d a b (fun _ x y => x ^^^ y) ∧
    PutsBoth s (.andn d a b) d a b (fun _ x y => x &&& ~~~y) ∧
    PutsBoth s (.orn d a b) d a b (fun _ x y => x ||| ~~~y) ∧
    PutsBoth s (.sll d a b) d a b (fun w x y => x <<< (y.toNat % w)) ∧
    PutsBoth s (.srl d a b) d a b (fun w x y => x >>> (y.toNat % w)) ∧
    PutsBoth s (.sra d a b) d a b (fun w x y => x.sshiftRight (y.toNat % w)) ∧
    PutsBoth s (.rol d a b) d a b (fun w x y => (x <<< (y.toNat % w)) ||| (x >>> (w - y.toNat % w))) ∧
    PutsBoth s (.ror d a b) d a b (fun w x y => (x >>> (y.toNat % w)) ||| (x <<< (w - y.toNat % w))) ∧
    PutsBoth s (.min d a b) d a b (fun _ x y => if x.slt y then x else y) ∧
    PutsBoth s (.max d a b) d a b (fun _ x y => if x.slt y then y else x) ∧
    PutsBoth s (.minn d a b) d a b (fun _ x y => if x.ult y then x else y) ∧
    PutsBoth s (.maxn d a b) d a b (fun _ x y => if x.ult y then y else x) ∧
    PutsBoth s (.slt d a b) d a b (fun _ x y => if x.slt y then 1 else 0) ∧
    PutsBoth s (.sltn d a b) d a b (fun _ x y => if x.ult y then 1 else 0) ∧
    PutsBoth s (.seq d a b) d a b (fun _ x y => if x = y then 1 else 0) ∧
    PutsBoth s (.sne d a b) d a b (fun _ x y => if x = y then 0 else 1)

/-- R150, R151, R155: products, their high halves, division, remainder, and MADD, at both widths. A zero divisor gives all
ones or the dividend; the overflowing division gives the dividend or 0. -/
def Obligations.ProductsAndQuotients : Prop :=
  ∀ (s : State) (d a b : XReg),
    PutsBoth s (.mul d a b) d a b (fun _ x y => x * y) ∧
    PutsBoth s (.mulh d a b) d a b (fun w x y => ((x.signExtend (2 * w) * y.signExtend (2 * w)) >>> w).setWidth w) ∧
    PutsBoth s (.mulhn d a b) d a b (fun w x y => ((x.setWidth (2 * w) * y.setWidth (2 * w)) >>> w).setWidth w) ∧
    PutsBoth s (.madd d a b) d a b (fun w x y => (s.rx d).setWidth w + x * y) ∧
    PutsBoth s (.div d a b) d a b (fun w x y => if y = 0 then BitVec.allOnes w else x.sdiv y) ∧
    PutsBoth s (.divn d a b) d a b (fun w x y => if y = 0 then BitVec.allOnes w else x / y) ∧
    PutsBoth s (.rem d a b) d a b (fun _ x y => if y = 0 then x else x.srem y) ∧
    PutsBoth s (.remn d a b) d a b (fun _ x y => if y = 0 then x else x % y)

/-- R152, R153, R154, R160: counts of bits, the reversal of a word, bit fields, extensions, and SEL. -/
def Obligations.BitOperations : Prop :=
  ∀ (s : State) (d a b : XReg),
    (∀ n : Nat, n ≤ 64 → (∀ k, k < n → (s.rx a).getLsbD (63 - k) = false) → (n < 64 → (s.rx a).getLsbD (63 - n) = true) →
      Puts s (.clz d a .d64) d (BitVec.ofNat 64 n)) ∧
    (∀ n : Nat, n ≤ 32 → (∀ k, k < n → (s.rx a).getLsbD (31 - k) = false) → (n < 32 → (s.rx a).getLsbD (31 - n) = true) →
      Puts s (.clz d a .w32) d (BitVec.ofNat 64 n)) ∧
    (∀ n : Nat, n ≤ 64 → (∀ k, k < n → (s.rx a).getLsbD k = false) → (n < 64 → (s.rx a).getLsbD n = true) →
      Puts s (.ctz d a .d64) d (BitVec.ofNat 64 n)) ∧
    (∀ n : Nat, n ≤ 32 → (∀ k, k < n → (s.rx a).getLsbD k = false) → (n < 32 → (s.rx a).getLsbD n = true) →
      Puts s (.ctz d a .w32) d (BitVec.ofNat 64 n)) ∧
    Puts s (.popc d a .d64) d (BitVec.ofNat 64 ((List.range 64).filter (s.rx a).getLsbD).length) ∧
    Puts s (.popc d a .w32) d (BitVec.ofNat 64 ((List.range 32).filter (s.rx a).getLsbD).length) ∧
    Puts s (.brev d a .d64) d (s.rx a).reverse ∧
    Puts s (.brev d a .w32) d (((s.rx a).setWidth 32).reverse.signExtend 64) ∧
    (let pos := ((s.rx b).extractLsb' 0 6).toNat
     let len := ((s.rx b).extractLsb' 8 6).toNat + 1
     Puts s (.bfx d a b .d64 false) d (((s.rx a >>> pos).setWidth len).setWidth 64) ∧
     Puts s (.bfx d a b .d64 true) d (((s.rx a >>> pos).setWidth len).signExtend 64) ∧
     Puts s (.bfx d a b .w32 false) d ((((((s.rx a).setWidth 32 >>> pos).setWidth len).setWidth 32) : BitVec 32).signExtend 64) ∧
     Puts s (.bfx d a b .w32 true) d ((((((s.rx a).setWidth 32 >>> pos).setWidth len).signExtend 32) : BitVec 32).signExtend 64) ∧
     (∀ v : W64, (∀ k, k < 64 →
          v.getLsbD k = if pos ≤ k ∧ k < pos + len then (s.rx a).getLsbD (k - pos) else (s.rx d).getLsbD k) →
        Puts s (.bfi d a b .d64) d v) ∧
     (∀ v : W32, (∀ k, k < 32 →
          v.getLsbD k = if pos ≤ k ∧ k < pos + len then ((s.rx a).setWidth 32).getLsbD (k - pos)
            else (s.rx d).getLsbD k) →
        Puts s (.bfi d a b .w32) d (v.signExtend 64))) ∧
    (∀ l p : BitVec 6, Puts s (.bfxi d a l p) d (((s.rx a >>> p.toNat).setWidth (l.toNat + 1)).setWidth 64)) ∧
    (∀ (l p : BitVec 6) (v : W64), (∀ k, k < 64 →
          v.getLsbD k = if p.toNat ≤ k ∧ k < p.toNat + (l.toNat + 1) then (s.rx a).getLsbD (k - p.toNat)
            else (s.rx d).getLsbD k) →
        Puts s (.bfii d a l p) d v) ∧
    Puts s (.sext d a .b8) d (((s.rx a).setWidth 8).signExtend 64) ∧
    Puts s (.sext d a .h16) d (((s.rx a).setWidth 16).signExtend 64) ∧
    Puts s (.sext d a .w32) d (((s.rx a).setWidth 32).signExtend 64) ∧
    Puts s (.zext d a .b8) d (s.rx a &&& 0xFF) ∧
    Puts s (.zext d a .h16) d (s.rx a &&& 0xFFFF) ∧
    Puts s (.zext d a .w32) d (s.rx a &&& 0xFFFFFFFF) ∧
    (∀ p, PutsBoth s (fun sz => .sel d a b sz p) d a b (fun _ x y => if s.slot.rp p then x else y))

/-- R156, R157: CMPP, PLOG and PMOV write a predicate, and MOVP reads one. -/
def Obligations.PredicateResults : Prop :=
  ∀ (s : State) (d : PReg) (a b : XReg),
    let x := s.rx a
    let y := s.rx b
    let x32 := (s.rx a).setWidth 32
    let y32 := (s.rx b).setWidth 32
    (PutsP s (.cmpp d a b .d64 .eq) d (x == y) ∧ PutsP s (.cmpp d a b .d64 .ne) d (!(x == y)) ∧
     PutsP s (.cmpp d a b .d64 .lt) d (x.slt y) ∧ PutsP s (.cmpp d a b .d64 .ge) d (!(x.slt y)) ∧
     PutsP s (.cmpp d a b .d64 .ltn) d (x.ult y) ∧ PutsP s (.cmpp d a b .d64 .gen) d (!(x.ult y))) ∧
    (PutsP s (.cmpp d a b .w32 .eq) d (x32 == y32) ∧ PutsP s (.cmpp d a b .w32 .ne) d (!(x32 == y32)) ∧
     PutsP s (.cmpp d a b .w32 .lt) d (x32.slt y32) ∧ PutsP s (.cmpp d a b .w32 .ge) d (!(x32.slt y32)) ∧
     PutsP s (.cmpp d a b .w32 .ltn) d (x32.ult y32) ∧ PutsP s (.cmpp d a b .w32 .gen) d (!(x32.ult y32))) ∧
    (∀ p q : PReg,
      let u := s.slot.rp p
      let v := s.slot.rp q
      PutsP s (.plog d p q .and) d (u && v) ∧ PutsP s (.plog d p q .or) d (u || v) ∧
      PutsP s (.plog d p q .xor) d (u ^^ v) ∧ PutsP s (.plog d p q .andn) d (u && !v) ∧
      PutsP s (.plog d p q .orn) d (u || !v) ∧ PutsP s (.plog d p q .not) d (!u)) ∧
    PutsP s (.pmov d a .d64) d (!(x == 0)) ∧ PutsP s (.pmov d a .w32) d (!(x32 == 0)) ∧
    (∀ p : PReg, Puts s (.movp a p) a (if s.slot.rp p then 1 else 0))

/-- R137, R159, R160, R161: the immediate forms. The immediate is imm12 sign-extended without a prefix, 40 bits sign-extended
with one, and all 64 bits with two. -/
def Obligations.ImmediateResults : Prop :=
  ∀ (s : State) (d a : XReg) (imm : BitVec 12) (v : W64),
    (s.slot.pfx = [] ∧ v = imm.signExtend 64 ∨
     (∃ p, s.slot.pfx = [p] ∧ v = ((p ++ imm : BitVec (28 + 12))).signExtend 64) ∨
     (∃ p q, s.slot.pfx = [p, q] ∧ v = (p.setWidth 64 <<< 40) ||| (q.setWidth 64 <<< 12) ||| imm.setWidth 64)) →
    let x := s.rx a
    Puts s (.addi d a imm) d (x + v) ∧ Puts s (.andi d a imm) d (x &&& v) ∧ Puts s (.ori d a imm) d (x ||| v) ∧
    Puts s (.xori d a imm) d (x ^^^ v) ∧ Puts s (.slti d a imm) d (if x.slt v then 1 else 0) ∧
    Puts s (.sltni d a imm) d (if x.ult v then 1 else 0) ∧ Puts s (.seqi d a imm) d (if x = v then 1 else 0) ∧
    Puts s (.muli d a imm) d (x * v) ∧ Puts s (.li d imm) d v ∧ Puts s (.addpc d imm) d (s.slot.pc + v) ∧
    (∀ h : BitVec 6, Puts s (.slli d a h) d (x <<< h.toNat) ∧ Puts s (.srli d a h) d (x >>> h.toNat) ∧
      Puts s (.srai d a h) d (x.sshiftRight h.toNat))

/-! ## Floating point -/

/-- R162, R163, R166, R167: the arithmetic instructions and the conversions round the exact result once, under the mode and
the flushes in force. Each completes where FPCTL enables no trap. R99, R101: what rounding is. The value written for an exact
m * 2^e, for an exact quotient and for an exact root is the one of its two neighbours in the format that the mode selects,
with its flags; past the largest finite value it is an infinity or that value, as the mode says. R122, R163: what division
and the square root make of zeros, infinities and NaNs. R96 to R99, R101, R103, R104, R253: the value of the bits of a format;
exact sums, products and fused products, the order of minimum and maximum, and the integer that a value rounds to, each against
integers at a common exponent. That the rounded integer is held against the bounds is the model's choice (assumption 95). -/
def Obligations.FloatResults : Prop :=
  (∀ (s : State) (d a b : XReg) (f g : FFmt) (t : IntTy) (r : Rnd) (i : Instr), s.slot.fpctl.extractLsb' 24 5 = 0 →
    i = .fadd d a b f r ∨ i = .fsub d a b f r ∨ i = .fmul d a b f r ∨ i = .ffma d a b f r ∨ i = .fdiv d a b f r ∨
      i = .fsqrt d a f r ∨ i = .fmin d a b f r ∨ i = .fmax d a b f r ∨ i = .fcvti d a t f r ∨ i = .icvtf d a t f r ∨
      i = .fcvt d a g f r →
    ∃ t, exec i s = .next t ∧ Frame s t ∧ s.slot.Computed t.slot ∧ (∀ x, x ≠ d → t.rx x = s.rx x) ∧ t.slot.p = s.slot.p) ∧
  (∀ (f : FFmt) (r : RMode) (flush neg : Bool) (m : Nat) (e : Int),
    let w := (fmtOf f).write r flush
    w (.nan true) = ((fmtOf f).canonNan, flNV) ∧ w (.nan false) = ((fmtOf f).canonNan, 0) ∧
    w (.inf neg) = ((fmtOf f).infBits neg, 0) ∧ w (.fin neg 0 e) = ((fmtOf f).zeroBits neg, 0) ∧
    (0 < m →
      (∀ (q b : Int) (k : Nat), b ≤ e → b + 2 ≤ q →
        let c : Nat → Ordering := fun n => compare (m * 2 ^ (e - b).toNat) (n * 2 ^ (q - 2 - b).toNat)
        (fmtOf f).Fits q k c → w (.fin neg m e) = (fmtOf f).nearest r flush neg q k c) ∧
      (∀ b : Int, b ≤ e → b ≤ (fmtOf f).bias → 2 ^ ((fmtOf f).bias + 1 - b).toNat ≤ m * 2 ^ (e - b).toNat →
        w (.fin neg m e) = (fmtOf f).overflow r neg))) ∧
  (∀ (f : FFmt) (r : RMode) (flush n1 n2 : Bool) (m1 m2 : Nat) (e1 e2 : Int),
    let div := (fmtOf f).div r flush
    let nan : Fl → Nat × Fl := fun fl => ((fmtOf f).canonNan, fl)
    (∀ x, div (.nan n1) x = nan (if n1 || x.isSig then flNV else 0) ∧
      (x.isNan = false → div x (.nan n1) = nan (if n1 then flNV else 0))) ∧
    div (.inf n1) (.inf n2) = nan flNV ∧ div (.inf n1) (.fin n2 m2 e2) = ((fmtOf f).infBits (n1 != n2), 0) ∧
    div (.fin n1 m1 e1) (.inf n2) = ((fmtOf f).zeroBits (n1 != n2), 0) ∧
    div (.fin n1 0 e1) (.fin n2 0 e2) = nan flNV ∧
    (0 < m1 → div (.fin n1 m1 e1) (.fin n2 0 e2) = ((fmtOf f).infBits (n1 != n2), flDZ)) ∧
    (0 < m2 → div (.fin n1 0 e1) (.fin n2 m2 e2) = ((fmtOf f).zeroBits (n1 != n2), 0)) ∧
    (0 < m1 → 0 < m2 →
      (∀ (q b : Int) (k : Nat), b ≤ e1 → b + 2 ≤ e2 + q →
        let c : Nat → Ordering := fun n => compare (m1 * 2 ^ (e1 - b).toNat) (n * m2 * 2 ^ (e2 + q - 2 - b).toNat)
        (fmtOf f).Fits q k c →
          div (.fin n1 m1 e1) (.fin n2 m2 e2) = (fmtOf f).nearest r flush (n1 != n2) q k c) ∧
      (∀ b : Int, b ≤ e1 → b ≤ e2 →
        m2 * 2 ^ (e2 + (fmtOf f).bias + 1 - b).toNat ≤ m1 * 2 ^ (e1 - b).toNat →
          div (.fin n1 m1 e1) (.fin n2 m2 e2) = (fmtOf f).overflow r (n1 != n2)))) ∧
  (∀ (f : FFmt) (r : RMode) (flush neg : Bool) (m : Nat) (e : Int),
    let sqrt := (fmtOf f).sqrt r flush
    sqrt (.nan neg) = ((fmtOf f).canonNan, if neg then flNV else 0) ∧ sqrt (.inf false) = ((fmtOf f).infBits false, 0) ∧
    sqrt (.inf true) = ((fmtOf f).canonNan, flNV) ∧ sqrt (.fin neg 0 e) = ((fmtOf f).zeroBits neg, 0) ∧
    (0 < m → sqrt (.fin true m e) = ((fmtOf f).canonNan, flNV) ∧
      ∀ (q b : Int) (k : Nat), 2 * b ≤ e → b + 2 ≤ q →
        let c : Nat → Ordering := fun n => compare (m * 2 ^ (e - 2 * b).toNat) (n * n * 2 ^ (2 * (q - 2 - b)).toNat)
        (fmtOf f).Fits q k c → sqrt (.fin false m e) = (fmtOf f).nearest r flush false q k c)) ∧
  (∀ (f : FFmt) (flush : Bool) (n : Nat),
    let g := fmtOf f
    let neg := n / 2 ^ (g.width - 1) % 2 == 1
    let e := n / 2 ^ g.fbits % 2 ^ g.ebits
    let m := n % 2 ^ g.fbits
    let top := 2 ^ g.ebits - 1
    (e = top → m = 0 → g.read flush n = .inf neg) ∧
    (e = top → m ≠ 0 → g.read flush n = .nan (decide (m < 2 ^ (g.fbits - 1)))) ∧
    (e = 0 → g.read flush n = .fin neg (if flush then 0 else m) (1 - (g.bias : Int) - g.fbits)) ∧
    (e ≠ 0 → e ≠ top → g.read flush n = .fin neg (m + 2 ^ g.fbits) ((e : Int) - g.bias - g.fbits))) ∧
  (∀ (r : RMode) (n1 n2 n3 : Bool) (m1 m2 m3 : Nat) (e1 e2 e3 b : Int),
    let part : Bool → Nat → Int → Int := fun n m e => (if n then -1 else 1) * (m * 2 ^ (e - b).toNat : Nat)
    let x : Machine.Num := .fin n1 m1 e1
    let y : Machine.Num := .fin n2 m2 e2
    (b ≤ e1 → b ≤ e2 → ∃ n m e, Machine.Num.add r x y = (.fin n m e, 0) ∧ b ≤ e ∧
      part n m e = part n1 m1 e1 + part n2 m2 e2 ∧ (m = 0 → n = if m1 = 0 ∧ m2 = 0 ∧ n1 = n2 then n1 else r == .rdn)) ∧
    (b ≤ e1 + e2 → ∃ m e, Machine.Num.mul x y = (.fin (n1 != n2) m e, 0) ∧ b ≤ e ∧
      part false m e = part false (m1 * m2) (e1 + e2)) ∧
    (b ≤ e1 + e2 → b ≤ e3 → ∃ n m e, Machine.Num.fma r x y (.fin n3 m3 e3) = (.fin n m e, 0) ∧ b ≤ e ∧
      part n m e = part (n1 != n2) (m1 * m2) (e1 + e2) + part n3 m3 e3 ∧
      (m = 0 → n = if (m1 = 0 ∨ m2 = 0) ∧ m3 = 0 ∧ (n1 != n2) = n3 then n3 else r == .rdn)) ∧
    (b ≤ e1 → b ≤ e2 →
      (part n1 m1 e1 < part n2 m2 e2 ∨ part n1 m1 e1 = part n2 m2 e2 ∧ n1 = true ∧ n2 = false →
        Machine.Num.minmax false x y = (x, 0) ∧ Machine.Num.minmax true x y = (y, 0) ∧
        Machine.Num.minmax false y x = (x, 0) ∧ Machine.Num.minmax true y x = (y, 0)) ∧
      (∀ w, Machine.Num.minmax w x y = (x, 0) ∨ Machine.Num.minmax w x y = (y, 0))) ∧
    (∀ (lo hi : Int) (k : Nat), b ≤ e1 → b ≤ -1 →
      let c : Nat → Ordering := fun n => compare (m1 * 2 ^ (e1 - b).toNat) (n * 2 ^ (-1 - b).toNat)
      let i : Int := (if n1 then -1 else 1) * (k + b2n (roundsAway r n1 k 2 c) : Nat)
      c (2 * k) ≠ .lt → c (2 * k + 2) = .lt →
      x.toIntBounded r lo hi =
        if i < lo then (lo, flNV) else if hi < i then (hi, flNV) else (i, if c (2 * k) = .gt then flNX else 0))) ∧
  (∀ (r : RMode) (x y z : Machine.Num) (n k w : Bool) (m : Nat) (e lo hi : Int),
    let nv : Bool → Fl := fun sig => if sig then flNV else 0
    let nan : Fl → Machine.Num × Fl := fun fl => (.nan false, fl)
    let invalid : Prop := x.isInf = true ∧ y.isZero = true ∨ x.isZero = true ∧ y.isInf = true
    (x.isNan = true ∨ y.isNan = true → Machine.Num.add r x y = nan (nv (x.isSig || y.isSig)) ∧
      Machine.Num.mul x y = nan (nv (x.isSig || y.isSig)) ∧ Machine.Num.minmax w x y = nan (nv (x.isSig || y.isSig))) ∧
    Machine.Num.add r (.inf n) (.inf k) = (if n = k then (.inf n, 0) else nan flNV) ∧
    Machine.Num.add r (.inf n) (.fin k m e) = (.inf n, 0) ∧ Machine.Num.add r (.fin k m e) (.inf n) = (.inf n, 0) ∧
    Machine.Num.mul (.inf n) (.inf k) = (.inf (n != k), 0) ∧
    Machine.Num.mul (.inf n) (.fin k m e) = (if m = 0 then nan flNV else (.inf (n != k), 0)) ∧
    Machine.Num.mul (.fin k m e) (.inf n) = (if m = 0 then nan flNV else (.inf (n != k), 0)) ∧
    (invalid → Machine.Num.fma r x y z = nan flNV) ∧
    (¬ invalid → x.isNan = true ∨ y.isNan = true ∨ z.isNan = true →
      Machine.Num.fma r x y z = nan (nv (x.isSig || y.isSig || z.isSig))) ∧
    (¬ invalid → x.isNan = false → y.isNan = false → x.isInf = true ∨ y.isInf = true →
      Machine.Num.fma r x y (.inf k) = (if (x.neg != y.neg) = k then (.inf k, 0) else nan flNV) ∧
      Machine.Num.fma r x y (.fin k m e) = (.inf (x.neg != y.neg), 0)) ∧
    (x.isNan = false → y.isNan = false → x.isInf = false → y.isInf = false →
      Machine.Num.fma r x y (.inf k) = (.inf k, 0)) ∧
    (x.isNan = false →
      Machine.Num.minmax n (.inf n) x = (x, 0) ∧ Machine.Num.minmax n x (.inf n) = (x, 0) ∧
      Machine.Num.minmax (!n) (.inf n) x = (.inf n, 0) ∧ Machine.Num.minmax (!n) x (.inf n) = (.inf n, 0)) ∧
    (Machine.Num.nan n).toIntBounded r lo hi = (0, flNV) ∧
    (Machine.Num.inf n).toIntBounded r lo hi = (if n then lo else hi, flNV)) ∧
  ∀ (s : State) (d a b : XReg) (f : FFmt) (r : Rnd),
    let m := s.slot.mode r
    let x := s.fsrc f a
    let y := s.fsrc f b
    (let e := Machine.Num.add m x y
     FloatPuts s (.fadd d a b f r) d (s.fres f m e.1) e.2) ∧
    (let e := Machine.Num.add m x y.flip
     FloatPuts s (.fsub d a b f r) d (s.fres f m e.1) e.2) ∧
    (let e := Machine.Num.mul x y
     FloatPuts s (.fmul d a b f r) d (s.fres f m e.1) e.2) ∧
    (let e := Machine.Num.fma m x y (s.fsrc f d)
     FloatPuts s (.ffma d a b f r) d (s.fres f m e.1) e.2) ∧
    FloatPuts s (.fdiv d a b f r) d ((fmtOf f).div m (flushOut s.slot.flush f) x y) 0 ∧
    FloatPuts s (.fsqrt d a f r) d ((fmtOf f).sqrt m (flushOut s.slot.flush f) x) 0 ∧
    (let e := Machine.Num.minmax false x y
     FloatPuts s (.fmin d a b f r) d ((fmtOf f).write .rne false e.1) e.2) ∧
    (let e := Machine.Num.minmax true x y
     FloatPuts s (.fmax d a b f r) d ((fmtOf f).write .rne false e.1) e.2) ∧
    (∀ t : FFmt, FloatPuts s (.fcvt d a t f r) d (s.fres f m (s.fsrc t a)) 0) ∧
    FloatPuts s (.icvtf d a .s64 f r) d (s.fres f m (Machine.Num.ofInt (s.rx a).toInt)) 0 ∧
    FloatPuts s (.icvtf d a .n64 f r) d (s.fres f m (Machine.Num.ofInt (s.rx a).toNat)) 0 ∧
    FloatPuts s (.icvtf d a .s32 f r) d (s.fres f m (Machine.Num.ofInt ((s.rx a).setWidth 32).toInt)) 0 ∧
    FloatPuts s (.icvtf d a .n32 f r) d (s.fres f m (Machine.Num.ofInt ((s.rx a).setWidth 32).toNat)) 0 ∧
    (∀ t : IntTy,
      let e := x.toIntBounded m (intBounds t).1 (intBounds t).2
      FloatEnds s (.fcvti d a t f r) e.2 fun u => RegIs s u d (BitVec.ofInt 64 e.1))

/-- R101, R164, R165, R168: FABS and FNEG change the sign bit alone, and read a subnormal as a zero of its sign where the operand
flush is on; FCLASS names the class of the raw bits, and FCMPP writes the
truth of its relation, a NaN operand raising NV as the relation says. The order of values is that of integers at a common
exponent, an infinity past every finite value. -/
def Obligations.FloatSignsClassesAndRelations : Prop :=
  (∀ (n1 n2 : Bool) (m1 m2 : Nat) (e1 e2 b : Int), b ≤ e1 → b ≤ e2 →
    let part : Bool → Nat → Int → Int := fun n m e => (if n then -1 else 1) * (m * 2 ^ (e - b).toNat : Nat)
    ((Machine.Num.fin n1 m1 e1).lt (.fin n2 m2 e2) = true ↔ part n1 m1 e1 < part n2 m2 e2) ∧
    (Machine.Num.inf n1).lt (.fin n2 m2 e2) = n1 ∧ (Machine.Num.fin n1 m1 e1).lt (.inf n2) = !n2 ∧
    (Machine.Num.inf n1).lt (.inf n2) = (n1 && !n2)) ∧
  ∀ (s : State) (a b : XReg) (f : FFmt),
    let w := (fmtOf f).width
    let n := (s.rx a).toNat % 2 ^ w
    let neg := (s.rx a).getLsbD (w - 1)
    let e := n / 2 ^ (fmtOf f).fbits % 2 ^ (fmtOf f).ebits
    let m := n % 2 ^ (fmtOf f).fbits
    let top := 2 ^ (fmtOf f).ebits - 1
    let half := 2 ^ ((fmtOf f).fbits - 1)
    (∀ (d : XReg) (r : Rnd),
      (e ≠ top ∨ m = 0 → flushIn s.slot.flush f = false →
        FloatPuts s (.fabs d a f r) d (n % 2 ^ (w - 1), 0) 0 ∧
        FloatPuts s (.fneg d a f r) d ((n + 2 ^ (w - 1)) % 2 ^ w, 0) 0) ∧
      (e ≠ top ∨ m = 0 → flushIn s.slot.flush f = true →
        let x := if e = 0 then n - m else n
        FloatPuts s (.fabs d a f r) d (x % 2 ^ (w - 1), 0) 0 ∧
        FloatPuts s (.fneg d a f r) d ((x + 2 ^ (w - 1)) % 2 ^ w, 0) 0) ∧
      (e = top → m ≠ 0 → ∀ fl : Fl, fl = (if m < half then flNV else 0) →
        FloatPuts s (.fabs d a f r) d ((fmtOf f).canonNan, fl) 0 ∧
        FloatPuts s (.fneg d a f r) d ((fmtOf f).canonNan, fl) 0) ∧
      Puts s (.fclass d a f r) d
        (1#64 <<< (if e = top then (if m = 0 then (if neg then 0 else 7) else if m < half then 8 else 9)
          else if e = 0 then (if m = 0 then (if neg then 3 else 4) else if neg then 2 else 5)
          else if neg then 1 else 6))) ∧
    (∀ d : PReg,
      let x := s.fsrc f a
      let y := s.fsrc f b
      let un := x.isNan || y.isNan
      let quiet : Fl := if x.isSig || y.isSig then flNV else 0
      let any : Fl := if un then flNV else 0
      FloatEnds s (.fcmpp d a b f .eq) quiet (fun t => PredIs s t d (!un && !(x.lt y) && !(y.lt x))) ∧
      FloatEnds s (.fcmpp d a b f .ne) quiet (fun t => PredIs s t d (un || x.lt y || y.lt x)) ∧
      FloatEnds s (.fcmpp d a b f .lt) any (fun t => PredIs s t d (!un && x.lt y)) ∧
      FloatEnds s (.fcmpp d a b f .le) any (fun t => PredIs s t d (!un && !(y.lt x))) ∧
      FloatEnds s (.fcmpp d a b f .un) quiet (fun t => PredIs s t d un) ∧
      FloatEnds s (.fcmpp d a b f .ord) quiet (fun t => PredIs s t d (!un)))

/-! ## Memory -/

/-- R171, R172, R177: the loads, each at its width and with its extension. -/
def Obligations.LoadResults : Prop :=
  ∀ (s : State) (d a b : XReg) (imm : BitVec 12) (k : BitVec 2),
    let va := s.rx a + s.slot.imm imm
    let vx := s.rx a + (s.rx b <<< k.toNat)
    Loads s (.ldS8 d a imm) d va 1 (fun v => (BitVec.ofNat 8 v).signExtend 64) ∧
    Loads s (.ldN8 d a imm) d va 1 (BitVec.ofNat 64) ∧
    Loads s (.ldS16 d a imm) d va 2 (fun v => (BitVec.ofNat 16 v).signExtend 64) ∧
    Loads s (.ldN16 d a imm) d va 2 (BitVec.ofNat 64) ∧
    Loads s (.ldS32 d a imm) d va 4 (fun v => (BitVec.ofNat 32 v).signExtend 64) ∧
    Loads s (.ldN32 d a imm) d va 4 (BitVec.ofNat 64) ∧
    Loads s (.ld64 d a imm) d va 8 (BitVec.ofNat 64) ∧
    Loads s (.ldx d a b .b true k) d vx 1 (fun v => (BitVec.ofNat 8 v).signExtend 64) ∧
    Loads s (.ldx d a b .b false k) d vx 1 (BitVec.ofNat 64) ∧
    Loads s (.ldx d a b .h true k) d vx 2 (fun v => (BitVec.ofNat 16 v).signExtend 64) ∧
    Loads s (.ldx d a b .h false k) d vx 2 (BitVec.ofNat 64) ∧
    Loads s (.ldx d a b .w true k) d vx 4 (fun v => (BitVec.ofNat 32 v).signExtend 64) ∧
    Loads s (.ldx d a b .w false k) d vx 4 (BitVec.ofNat 64) ∧
    Loads s (.ldx d a b .d false k) d vx 8 (BitVec.ofNat 64)

/-- R171, R172, R177, R193: the stores, each of the low bytes of its data register. R194: a store that needs a 257th
granule. In D0 the slot's pending stores are published at core scope first, so that the slots of the core see them and
the buffer then holds the store alone; in D1 and D2 the store raises DETERMINISM with its address, and nothing is
stored. -/
def Obligations.StoreResults : Prop :=
  (∀ (s : State) (d a b : XReg) (imm : BitVec 12) (k : BitVec 2),
    let va := s.rx a + s.slot.imm imm
    let vx := s.rx a + (s.rx b <<< k.toNat)
    Stores s (.st8 d a imm) va 1 (s.rx d) ∧ Stores s (.st16 d a imm) va 2 (s.rx d) ∧
    Stores s (.st32 d a imm) va 4 (s.rx d) ∧ Stores s (.st64 d a imm) va 8 (s.rx d) ∧
    Stores s (.stx d a b .b k) vx 1 (s.rx d) ∧ Stores s (.stx d a b .h k) vx 2 (s.rx d) ∧
    Stores s (.stx d a b .w k) vx 4 (s.rx d) ∧ Stores s (.stx d a b .d k) vx 8 (s.rx d)) ∧
  (∀ (s : State) (d a b : XReg) (imm : BitVec 12) (mw : MemW) (k : BitVec 2) (loc : Nat) (u : State)
    (i : Instr) (va : W64) (n : Nat),
    (i = .st8 d a imm ∧ va = s.rx a + s.slot.imm imm ∧ n = 1 ∨ i = .st16 d a imm ∧ va = s.rx a + s.slot.imm imm ∧ n = 2 ∨
      i = .st32 d a imm ∧ va = s.rx a + s.slot.imm imm ∧ n = 4 ∨ i = .st64 d a imm ∧ va = s.rx a + s.slot.imm imm ∧ n = 8 ∨
      i = .stx d a b mw k ∧ va = s.rx a + (s.rx b <<< k.toNat) ∧ n = (match mw with | .b => 1 | .h => 2 | .w => 4 | .d => 8)) →
    Passes s va n .write loc u → ¬ HasRoom s.slot loc →
    (s.level ≠ 0 → s.slot.inh = false → Traps s i .determinism va) ∧
    (s.level = 0 → ∃ t, exec i s = .next t ∧ t.mem = u.mem ∧
      (∀ c, c ∈ s.slot.pend → ∃ o, o ∈ t.overlay ∧ o.scope = .core ∧ o.core = s.cur.core ∧ o.loc = c.1 ∧ o.byte = c.2) ∧
      (∀ m, tmem t.slot.pend m = decide (loc ≤ m ∧ m < loc + n)) ∧
      (∀ j, j < n → t.readByte s.cur (loc + j) = (s.rx d).extractLsb' (8 * j) 8) ∧ t.slot.snap = [] ∧
      t.slot.x = s.slot.x ∧ t.slot.pc = s.slot.pc + 4))

/-- R173, R174, R175, R87: what a load, a store or an atomic does where its access does not proceed. -/
def Obligations.AccessesThatDoNotProceed : Prop :=
  ∀ (s : State) (d a b : XReg) (imm : BitVec 12) (mw : MemW) (e : Bool) (k : BitVec 2),
    let va := s.rx a + s.slot.imm imm
    let vx := s.rx a + (s.rx b <<< k.toNat)
    let nx := match mw with | .b => 1 | .h => 2 | .w => 4 | .d => 8
    Halts s (.ldS8 d a imm) va 1 .read ∧ Halts s (.ldN8 d a imm) va 1 .read ∧ Halts s (.ldS16 d a imm) va 2 .read ∧
    Halts s (.ldN16 d a imm) va 2 .read ∧ Halts s (.ldS32 d a imm) va 4 .read ∧ Halts s (.ldN32 d a imm) va 4 .read ∧
    Halts s (.ld64 d a imm) va 8 .read ∧ Halts s (.ldx d a b mw e k) vx nx .read ∧
    Halts s (.st8 d a imm) va 1 .write ∧ Halts s (.st16 d a imm) va 2 .write ∧ Halts s (.st32 d a imm) va 4 .write ∧
    Halts s (.st64 d a imm) va 8 .write ∧ Halts s (.stx d a b mw k) vx nx .write ∧
    (∀ o sc, s.scopeOk sc = true →
      Halts s (.amo d a b (.pub sc) o) (s.rx a) 8 .both ∧ Halts s (.amocas d a b (.pub sc)) (s.rx a) 8 .both ∧
      (s.level = 0 → Halts s (.amof d a b (.pub sc)) (s.rx a) 4 .both)) ∧
    (∀ o, Halts s (.amo d a b .unpublished o) (s.rx a) 8 .both ∧ Halts s (.amocas d a b .unpublished) (s.rx a) 8 .both ∧
      (s.level = 0 → Halts s (.amof d a b .unpublished) (s.rx a) 4 .both))

/-- R60, R66, R67: an access through the local window reaches the scratchpad [B0, B1) and the slot region [B2, 64) of the
core's own pool, and through the sibling window, in a cluster-granular launch, the scratchpad of a pool of the
cluster; any other window address is refused with POOL_RANGE. It reaches the pool where no watermark register is
landing or frozen, no engine entry is in flight, no sibling waits for its first instruction, is being saved or has been, and no
granule is bad.
R70, R182, R183, R184: TLOOK answers for the entry that its key finds, TINS writes the entry that s2 names where the
range lies in the slot region of the pool and traps POOL_RANGE elsewhere, and TDEL clears the valid bit of an entry. -/
def Obligations.PoolWindowsAndTagTable : Prop :=
  (∀ (s : State) (r : SlotRef) (c off n : Nat) (k : Access), c < 4 → off < 2 ^ 20 → k ≠ .fetch →
    let g := r.core / 4 * 4 + c
    let quiet : Prop := s.poison = [] ∧ ∀ h, h / 4 = r.core / 4 →
      (s.core h).degraded = false ∧ (∀ w, w ∈ (s.core h).wms.toList → w.state ≠ 1 ∧ w.state ≠ 3) ∧
      (s.core h).vq.recs = [] ∧ (s.core h).mq.recs = [] ∧ (s.core h).cq.recs = [] ∧ (s.core h).saving = false ∧
      (∀ v, v ∈ s.saved → v.queue ≠ (s.launchOf r).queue) ∧
      ∀ l, l ∈ (s.core h).slots.toList → l.occ = false ∧ l.held = false ∨ l.started = true
    let pad : Nat → Prop := fun h => (s.core h).b0.toNat * 16384 ≤ off ∧ off + n ≤ (s.core h).b1.toNat * 16384
    let slots : Nat → Prop := fun h => (s.core h).b2.toNat * 16384 ≤ off ∧ off + n ≤ 1048576
    (pad r.core ∨ slots r.core → quiet →
      s.check r (0xFFF0000000000000 + off) n k .task = .ok (poolLoc r.core off) s) ∧
    (¬ pad r.core → ¬ slots r.core → s.check r (0xFFF0000000000000 + off) n k .task = .trap .poolRange) ∧
    (∀ j, 0 < j → j < 2 ^ 32 → s.check r (0xFFF0000000000000 + j * 2 ^ 20 + off) n k .task = .trap .poolRange) ∧
    ((s.launchOf r).cgran = true → pad g → quiet →
      s.check r (0xFFE0000000000000 + c * 2 ^ 20 + off) n k .task = .ok (poolLoc g off) s) ∧
    ((s.launchOf r).cgran = false ∨ ¬ pad g →
      s.check r (0xFFE0000000000000 + c * 2 ^ 20 + off) n k .task = .trap .poolRange) ∧
    (∀ j, 0 < j → j < 2 ^ 30 → s.check r (0xFFE0000000000000 + j * 2 ^ 22 + c * 2 ^ 20 + off) n k .task = .trap .poolRange)) ∧
  (∀ (s : State) (d a b : XReg), (∀ x, x ∈ s.here.tags → x.2.bad = false) →
    let off := (s.rx b).extractLsb' 0 10
    let len := (s.rx b).extractLsb' 10 11
    let i := (s.rx b).extractLsb' 21 8
    let del := ((s.rx a).extractLsb' 21 8).toNat
    (s.here.tagFind (s.rx a) = none →
      Puts s (.tlook d a false) d 0 ∧ Puts s (.tlook d a true) d 0) ∧
    (∀ j e, s.here.tagFind (s.rx a) = some (j, e) → j < 256 →
      Puts s (.tlook d a false) d (0xFFF0000000000000 + e.off.setWidth 64 * 1024) ∧
      Puts s (.tlook d a true) d
        (1#1 ++ (0#34 ++ (BitVec.ofNat 8 j ++ (e.len ++ e.off))) : BitVec (1 + (34 + (8 + (11 + 10)))))) ∧
    (s.here.b2.toNat * 16384 ≤ off.toNat * 1024 → (off.toNat + len.toNat) * 1024 ≤ 1048576 → len ≠ 0 →
      CoreBecomes s (.tins a b)
        { s.here with
          tags := tset s.here.tags i.toNat { key := s.rx a, off := off, len := len, valid := true, bad := false } }
        s.slot.next) ∧
    (off.toNat * 1024 < s.here.b2.toNat * 16384 ∨ 1048576 < (off.toNat + len.toNat) * 1024 ∨ len = 0 →
      s.slot.inh = false → Traps s (.tins a b) .poolRange (s.rx b)) ∧
    CoreBecomes s (.tdel a)
      { s.here with tags := tset s.here.tags del { tget TagEntry.reset s.here.tags del with valid := false } } s.slot.next)

/-- R174: what the checks of an access that passes leave behind. No slot has changed, and of the device nothing but memory,
the cores, and what the bridging device has been asked for the task's own loads; an access to a window of pools that are not degraded changes nothing; a translated access changes at most the
A and D bits of the entry that it used: that the entries pointing to tables keep theirs is the model's choice (assumption 81),
and that what it reaches lies in the region that the entry's TYPE names is the model's
choice (assumption 80). -/
def Obligations.ChecksLeaveTheStateAlone : Prop :=
  ∀ (s : State) (r : SlotRef) (va n : Nat) (k : Access) (m : Mode) (loc : Nat) (u : State),
    s.check r va n k m = .ok loc u →
    (∀ q, u.slotAt q = s.slotAt q) ∧
    ({ u with mem := s.mem, overlay := s.overlay, poison := s.poison, armed := s.armed, cores := s.cores
              hostReqs := s.hostReqs } = s) ∧
    (∀ q, q ∈ u.hostReqs → q ∈ s.hostReqs) ∧
    (∀ q, q ∈ s.hostReqs → q ∈ u.hostReqs ∨ q.uid = (s.slotAt r).uid ∧ q.unit = 0) ∧
    (isWindow va = true → (∀ g, (s.core g).degraded = false) → u = s) ∧
    (isWindow va = false → s.mem.wf = true → ∃ e pteAt vpn pages,
      ((s.core r.core).tlbFind va = some { vpn := vpn, pages := pages, pte := e, pteAt := pteAt } ∨
        (s.core r.core).tlbFind va = none ∧ s.walk (s.queueOf r).troot va = .ok e pteAt vpn pages) ∧
      canonical va = true ∧ pteOk e k = true ∧ leaseOk (s.launchOf r).leases va k = true ∧ loc = ptePa e pages va ∧
      s.inType e loc = true ∧
      (∀ a, a ≠ pteAt → u.mem.get a = s.mem.get a) ∧
      (u.mem.get pteAt = s.mem.get pteAt ∨ u.mem.get pteAt = s.mem.get pteAt ||| 0x10 ∨
        u.mem.get pteAt = s.mem.get pteAt ||| 0x20 ∨ u.mem.get pteAt = s.mem.get pteAt ||| 0x30))

/-- R179, R180, R241: PFH and NOP change nothing but PC, and CBO does on an address of its own window, or in a cluster-granular
launch of the sibling window, that lies in a region; on any other window address it traps POOL_RANGE. Where its check as a read
passes, CBO writes home what the caches hold of the line, the newest of what every agent has published there; every other byte
reads as before, and in D2 it changes nothing. Where the check traps, parks or stalls, CBO does, and a fatal trap ends the task. -/
def Obligations.HintsAndCacheOperations : Prop :=
  ∀ (s : State) (a : XReg) (imm : BitVec 12) (p : PfhTo) (o : CboOp),
    let va := s.rx a + s.slot.imm imm
    Becomes s (.pfh p a imm) s.slot.next ∧ Becomes s .nop s.slot.next ∧
    (va.toNat / 2 ^ 20 = 0xFFF00000000 →
      (s.here.b0.toNat * 16384 ≤ va.toNat % 2 ^ 20 ∧ va.toNat % 2 ^ 20 < s.here.b1.toNat * 16384 ∨
        s.here.b2.toNat * 16384 ≤ va.toNat % 2 ^ 20) →
      Becomes s (.cbo o a imm) s.slot.next) ∧
    (∀ c off : Nat, c < 4 → off < 2 ^ 20 →
      let h := s.cur.core / 4 * 4 + c
      let pad : Nat → Prop := fun g => (s.core g).b0.toNat * 16384 ≤ off ∧ off < (s.core g).b1.toNat * 16384
      (va.toNat = 0xFFE0000000000000 + c * 2 ^ 20 + off → (s.launchOf s.cur).cgran = true → pad h →
        Becomes s (.cbo o a imm) s.slot.next) ∧
      ((va.toNat = 0xFFE0000000000000 + c * 2 ^ 20 + off ∧ ((s.launchOf s.cur).cgran = false ∨ ¬ pad h)) ∨
        (va.toNat = 0xFFF0000000000000 + off ∧ ¬ pad s.cur.core ∧ off < s.here.b2.toNat * 16384) ∨
        (∃ j, 0 < j ∧ j < 2 ^ 32 ∧ va.toNat = 0xFFF0000000000000 + j * 2 ^ 20 + off) ∨
        (∃ j, 0 < j ∧ j < 2 ^ 30 ∧ va.toNat = 0xFFE0000000000000 + j * 2 ^ 22 + c * 2 ^ 20 + off) →
        (s.slot.inh = false → Traps s (.cbo o a imm) .poolRange va) ∧ (s.slot.inh = true → EndsTask s (.cbo o a imm)))) ∧
    (isWindow va.toNat = false → ∀ c, s.check s.cur va.toNat 1 .read .early = .trap c → c.fatal = true ∨ s.slot.inh = true →
      EndsTask s (.cbo o a imm)) ∧
    (isWindow va.toNat = false → ∀ loc u, s.check s.cur va.toNat 1 .read .early = .ok loc u →
      ∃ t, exec (.cbo o a imm) s = .next t ∧ t.slot = s.slot.next ∧ OthersKept u t ∧
        (s.level = 2 → Frame u t) ∧
        ({ t with cores := u.cores, mem := u.mem, overlay := u.overlay, poison := u.poison, armed := u.armed
                  outbox := u.outbox } = u) ∧
        Carries u t ∧ (hostLoc loc = false → t.outbox = u.outbox) ∧
        BytesKept (fun n => n / 128 = loc / 128) u t ∧
        (s.level ≠ 2 → u.mem.wf = true → ∀ n, n / 128 = loc / 128 →
          (∀ x, x ∈ u.overlay → x.loc = n → x.eng = none ∧ x.sees s.cur.core = true) →
          t.mem.get n = u.vis s.cur.core n ∧ ∀ x, x ∈ t.overlay → x.loc ≠ n)) ∧
    (isWindow va.toNat = false → ∀ c, s.check s.cur va.toNat 1 .read .early = .trap c → c.fatal = false →
      s.slot.inh = false → Traps s (.cbo o a imm) c va) ∧
    (isWindow va.toNat = false → ∀ e, s.check s.cur va.toNat 1 .read .early = .park e → ∃ (t : State) (p : Park),
      exec (.cbo o a imm) s = .next t ∧ p.addr = va ∧ p.entry = e ∧ Frame (s.arm p) t ∧
        t.slot = { s.slot with park := some p })

/-! ## Control flow -/

/-- R131, R185, R186: a branch goes to pc + 4 * offset where its condition holds, and to the next word elsewhere; LOOP
writes s1 - 1 and branches while that is not zero. R131, R187: JAL and JALR write the address of the next word and
jump; JALR reads s1 before it writes rd, and where its target is no word address it traps MISALIGNED with the target
in TVAL and rd unwritten. -/
def Obligations.BranchesAndJumps : Prop :=
  (∀ (s : State) (a b : XReg) (p : PReg) (o : BitVec 14),
    let x := s.rx a
    let y := s.rx b
    let target := s.slot.pc + BitVec.ofInt 64 (4 * o.toInt)
    let go : Bool → Slot := fun c => s.slot.goto (if c then target else s.slot.pc + 4)
    Becomes s (.beq a b o) (go (x == y)) ∧ Becomes s (.bne a b o) (go (!(x == y))) ∧
    Becomes s (.blt a b o) (go (decide (x.toInt < y.toInt))) ∧
    Becomes s (.bge a b o) (go (decide (y.toInt ≤ x.toInt))) ∧
    Becomes s (.bltn a b o) (go (decide (x.toNat < y.toNat))) ∧
    Becomes s (.bgen a b o) (go (decide (y.toNat ≤ x.toNat))) ∧
    Becomes s (.bpt p o) (go (s.slot.rp p)) ∧ Becomes s (.bpf p o) (go (!(s.slot.rp p))) ∧
    Becomes s (.loop a o) ((s.slot.wx a (x - 1)).goto (if x = 1 then s.slot.pc + 4 else target))) ∧
  (∀ (s : State) (d a : XReg) (o : BitVec 14) (f : BitVec 19),
    let target := s.rx a + o.signExtend 64
    Becomes s (.jal d f) ((s.slot.wx d (s.slot.pc + 4)).goto (s.slot.pc + BitVec.ofInt 64 (4 * f.toInt))) ∧
    (target.toNat % 4 = 0 → Becomes s (.jalr d a o) ((s.slot.wx d (s.slot.pc + 4)).goto target)) ∧
    (target.toNat % 4 ≠ 0 → s.slot.inh = false → Traps s (.jalr d a o) .misaligned target))

/-- R137, R138: one LIX or two are held until the word that they prefix, with the address of the first; a second one traps
ILLEGAL where the first has a bit of [27:24] set, and a third one traps PREFIX. That the word at fault is then the first
one, with TVAL 0, is the model's reading (assumption 10). -/
def Obligations.PrefixChains : Prop :=
  ∀ (s : State) (i : BitVec 28),
    (s.slot.pfx = [] →
      Becomes s (.lix i) { s.slot with pfx := [i], pfxPc := s.slot.pc, pc := s.slot.pc + 4, started := true, stalled := false }) ∧
    (∀ p, s.slot.pfx = [p] → p.extractLsb' 24 4 = 0 →
      Becomes s (.lix i) { s.slot with pfx := [p, i], pc := s.slot.pc + 4, stalled := false }) ∧
    (∀ p, s.slot.pfx = [p] → p.extractLsb' 24 4 ≠ 0 → s.slot.inh = false →
      ∃ t, exec (.lix i) s = .next t ∧ Trapped s t .illegal 0 (0xC#4 ++ p)) ∧
    (∀ p q, s.slot.pfx = [p, q] → s.slot.inh = false → TrapsOpen s (.lix i) .prefixed)

/-! ## Traps -/

/-- R239, R366: outside a handler TRAP and BKPT enter the handler, with their immediate in TVAL. Of the slot nothing changes
but TCAUSE, TPC, TVAL, TWORD, TSTAT and PC, the latches, the prefix chain and the marks of issue, and nothing else does. -/
def Obligations.TrapEntry : Prop :=
  ∀ (s : State) (imm : BitVec 10), s.slot.inh = false →
    Traps s (.trap imm) .swtrap (imm.setWidth 64) ∧ Traps s (.bkpt imm) .bkpt (imm.setWidth 64)

/-- R240, R366: in a handler ERET goes to TPC with INH cleared and nothing else of TSTAT changed, and nothing changes beside the
slot but, where it returns from PARK_TIMEOUT of an engine entry, the limit of that entry's parked access, which starts again now
(R89); outside a handler it traps PRIV. -/
def Obligations.ReturnFromTrap : Prop :=
  ∀ s : State,
    let raised : Which → QRec → Prop := fun w r =>
      r.uid = s.slot.uid ∧ s.slot.tcause = 0x11 ∧ s.slot.tstat.extractLsb' 4 3 = w.orig ∧
        (s.slot.tstat.extractLsb' 16 8).toNat = r.idx % 256
    (s.slot.inh = true → ∃ t, exec .eret s = .next t ∧
      t.slot = { s.slot with pc := s.slot.tpc, tstat := s.slot.tstat &&& ~~~1#64, pfx := [], started := true, stalled := false } ∧
      ({ t with cores := s.cores } = s) ∧ OthersKept s t ∧ MemoryKept s t ∧
      (∀ g, g ≠ s.cur.core → t.core g = s.core g) ∧
      { t.here with slots := s.here.slots, vq := s.here.vq, cq := s.here.cq, mq := s.here.mq } = s.here ∧
      (∀ w, ∃ rs : List QRec, t.here.queue w = { s.here.queue w with recs := rs } ∧
        rs.length = (s.here.queue w).recs.length ∧
        ∀ (k : Nat) (a b : QRec), (s.here.queue w).recs[k]? = some a → rs[k]? = some b →
          (¬ raised w a → b = a) ∧
          (raised w a → b = { a with park := a.park.map fun p => { p with since := s.refclk, expired := false } }))) ∧
    (s.slot.inh = false → TrapsOpen s .eret .priv)

/-- R368, R370: a precise trap in a handler ends its task. The slot is free, with no store pending; no entry of the task
is left in the vector and the matrix queue, and none in the copy queue but a cancelled or a finished copy; the status
record counts the task as faulted, and an event is numbered for its queue. R367, R366, R370: at an instruction
boundary outside a handler, a pending trap that is not fatal is taken, an event before an engine's and each kind in
its order; TPC is the instruction at the boundary, and TSTAT names the entry and its engine. That an event comes first
is the model's reading of R367 with R434. -/
def Obligations.NestedAndPendingTraps : Prop :=
  (∀ (s : State) (imm : BitVec 10) (i : Instr), i = .trap imm ∨ i = .bkpt imm → s.slot.inh = true → EndsTask s i) ∧
  (∀ (s : State) (core : Nat) (k : Fin 4) (p : PendTrap) (ps : List PendTrap),
    let r : SlotRef := ⟨core, k⟩
    let l := s.slotAt r
    l.occ = true → l.pfx = [] → l.wait = .run → l.park = none → l.inh = false → l.exiting = false →
    l.evTraps ++ l.engTraps = p :: ps → (∀ x, x ∈ p :: ps → x.cause.fatal = false) →
    ∃ u, Happens s (.engineTrapDelivery core k) u ∧
      u = s.setSlot r { l with
        engTraps := l.engTraps.erase p, evTraps := l.evTraps.erase p
        tcause := p.cause.code.setWidth 64, tpc := l.pc, tval := p.tval, tword := p.word.setWidth 64
        tstat := (l.tstat &&& 0xFFFFFFFF00000000) ||| (p.qent.setWidth 64 <<< 16) ||| (p.orig.setWidth 64 <<< 4) ||| 1
        pc := l.tvec, pushes := 0, started := true, stalled := false })

/-- R126, R139: a word that decoding rejects traps ILLEGAL on a sequencer slot, with the word in TWORD and with TVAL 0, or the
lowest register at or past VREGS that a vector operation names; and it raises
mcause 2 on a Flambeol queue core, which then goes on at its trap vector. That the core has the trap registers of a RISC-V
machine mode is PRESUMED, and mtval is a free value (assumption 2). That a vector word which decoding rejects reports its
register is the model's reading (assumption 12). -/
def Obligations.IllegalWords : Prop :=
  ∀ (s : State) (w : W32),
    (s.fcur = none → s.slot.inh = false → ∃ t v, exec (.illegal w) s = .next t ∧ Trapped s t .illegal v w ∧
      (w.toNat / 2 ^ 28 < 8 ∨ 11 < w.toNat / 2 ^ 28 → v = 0) ∧ (48 ≤ s.here.vregs → v = 0) ∧
      (v = 0 ∨ s.here.vregs ≤ v.toNat ∧ v.toNat < 48) ∧
      (∀ i g n, vectorOp w.toNat = some i → vdesc i (vcfgType (s.slot.vcfg.setWidth 8)) = some g →
        (∃ x, x ∈ g.groups ∧ x.1.toNat < 48 ∧ x.1.toNat ≤ n ∧ n < x.1.toNat + x.2) → s.here.vregs ≤ n → n < 48 →
        s.here.vregs ≤ v.toNat ∧ v.toNat ≤ n)) ∧
    (∀ c, s.fcur = some c → ∃ t, exec (.illegal w) s = .next t ∧
      ({ t with fcores := s.fcores, freeCtr := s.freeCtr } = s) ∧ (∀ j, j ≠ c → t.fcore j = s.fcore j) ∧
      t.fcore c = { s.fcore c with
        mepc := (s.fcore c).pc, mcause := 2, mtval := (t.fcore c).mtval, pc := (s.fcore c).mtvec &&& ~~~3#64 })

/-! ## Synchronisation -/

/-- R195, R196, R197, R220, R231, R365: PHASE publishes the pending stores at its scope. At core, cluster and die scope the
cores of the domain see them and no other core does; at package and system scope they reach their homes, those in the host
window of a device that does not bridge as flits to the bridging device, with the queue and its generation (R363, R409). The
buffer is then empty, what the task has read no longer binds it, the writes of joined engine operations are published, no
shootdown waits for the task any longer (R92), CKR is clear, and what the slot sends next leaves after the publication. System
scope raises DETERMINISM in D2, with the checkpoint flag too. R220: PHASE with the checkpoint
flag waits for every engine entry of its slot, traps WM_FROZEN for a frozen copy that no wait has reported (R228), and then
publishes and writes the record (R360, R374): PC of the next instruction, the scalar registers, the predicates, the tokens,
the slot's special registers, the task's number, role and entry point, MXTAB, the masks and the vector registers up to
VREGS. -/
def Obligations.PublishingAndCheckpoints : Prop :=
  (∀ (s : State) (sc : Scope),
    (sc = .system → s.level = 2 → s.slot.inh = false → ∀ c, TrapsOpen s (.phase sc c) .determinism) ∧
    (sc ≠ .system ∨ s.level ≠ 2 → ∃ t, exec (.phase sc false) s = .next t ∧
      t.slot = { s.slot with
        pend := [], snap := [], hidden := s.slot.hidden.filter (fun h => !h.joined)
        busyTill := Nat.max s.refclk s.slot.busyTill +
          (match sc with | .core => 2 | .cluster => 8 | .die => 24 | .package => 96 | .system => 400) +
          ((granules s.slot.pend).length + 3) / 4
        tstat := s.slot.tstat &&& ~~~0x80#64, pc := s.slot.pc + 4, pfx := [], started := true, stalled := false } ∧
      OthersKept s t ∧
      ({ t with cores := s.cores, mem := s.mem, overlay := s.overlay, poison := s.poison, armed := s.armed
                outbox := s.outbox } = s) ∧
      Carries s t ∧ (sc = .core ∨ sc = .cluster ∨ sc = .die → t.outbox = s.outbox) ∧
      (sc = .package ∨ sc = .system → s.bridge = false → ∀ n b, (n, b) ∈ s.slot.pend → hostLoc n = true →
        ∃ f off bs j, f ∈ t.outbox ∧ n = 0x8000000000000 + off + j ∧ bs[j]? = some b ∧
          f = { dest := s.hostDev
                body := .hostWrite s.devid (some ((s.launchOf s.cur).queue, (s.queueOf s.cur).gen)) off bs }) ∧
      (∀ g, { t.core g with slots := (s.core g).slots, shoots := (s.core g).shoots } = s.core g) ∧
      (∀ x, x ∈ (t.core s.cur.core).shoots → s.slot.uid ∉ x.lagging) ∧
      (∀ o, o ∈ t.overlay → s.slot.joinedHere o = false) ∧
      (sc = .core ∨ sc = .cluster ∨ sc = .die → t.mem = s.mem ∧ t.poison = s.poison ∧ ∀ g n,
        t.vis g n =
          if tmem s.slot.pend n && (match sc with
            | .core => g == s.cur.core | .cluster => g / 4 == s.cur.core / 4 | _ => g / 96 == s.cur.core / 96)
          then tget 0 s.slot.pend n else s.vis g n) ∧
      (sc = .package ∨ sc = .system → (∀ o, o ∈ s.overlay → o.uid ≠ s.slot.uid) →
        t.mem = s.mem.setAll s.slot.pend ∧
        (∀ g n, tmem s.slot.pend n = false → s.mem.wf = true → t.vis g n = s.vis g n)) ∧
      (sc = .package ∨ sc = .system → s.mem.wf = true →
        (∀ g n, tmem s.slot.pend n = true → t.vis g n = t.mem.get n ∧
          ((s.slot.pend.map (·.1)).Nodup → t.mem.get n = tget 0 s.slot.pend n)) ∧
        (∀ n o os, tmem s.slot.pend n = false → s.overlay.filter (fun x => x.loc == n) = o :: os →
          (∀ x, x ∈ o :: os → x.uid = s.slot.uid ∧ (x.eng = none ∨ s.slot.joinedHere x = true)) →
          t.mem.get n = o.byte ∧ ∀ g, t.vis g n = o.byte)))) ∧
  (∀ (s : State) (sc : Scope), (sc ≠ .system ∨ s.level ≠ 2) → s.mem.wf = true →
    (s.fenceMet 0 = false → Stalls s (.phase sc true)) ∧
    (s.fenceMet 0 = true → s.slot.frozen = [] → ∃ t, exec (.phase sc true) s = .next t ∧
      t.slot.ckpt = true ∧ t.slot.pend = [] ∧ t.slot.pc = s.slot.pc + 4 ∧ t.slot.x = s.slot.x ∧ OthersKept s t ∧
      (let base := (s.queueOf s.cur).ckbase.toNat + (4 * s.cur.core + s.cur.slot.val) * 32768
       t.peek base 8 = (s.slot.pc + 4).toNat ∧
       (∀ r : XReg, r ≠ 0 → t.peek (base + 8 * r.toNat) 8 = (s.rx r).toNat) ∧
       t.peek (base + 0x180) 8 = s.slot.task.toNat +
         2 ^ 32 * ((match s.slot.role with | .epilogue => 0 | .arith => 1 | .loader => 2) + 4 * s.slot.entry.toNat +
           if s.slot.occ then 16 else 0) ∧
       t.peek (base + 0x100) 8 = (s.slot.p &&& 0xFE).toNat ∧
       (∀ k : Fin 8, t.peek (base + 0x108 + 2 * k.val) 2 = (s.slot.tok[k]).toNat) ∧
       (∀ k v, [s.slot.ageLimit, s.slot.gangctl, s.slot.parklim, s.slot.fpctl, s.slot.accanch, s.slot.vcfg, s.slot.tvec,
           s.slot.tcause, s.slot.tpc, s.slot.tval, s.slot.tword, s.slot.tstat &&& ~~~0x80#64][k]? = some v →
         t.peek (base + 0x120 + 8 * k) 8 = v.toNat) ∧
       (∀ k : Fin 16, t.peek (base + 0x200 + 16 * k.val) 16 = (s.slot.mxtab[k]).toNat) ∧
       (∀ k : Fin 8, k ≠ 0 → t.peek (base + 0x400 + 128 * k.val) 128 = (s.slot.m[k]).toNat) ∧
       (∀ n : Fin 48, n.val < s.here.vregs → t.peek (base + 0x800 + 512 * n.val) 512 = (s.slot.v[n]).toNat))) ∧
    (∀ f fs, s.fenceMet 0 = true → s.slot.frozen = f :: fs → s.slot.inh = false →
      ∃ t, exec (.phase sc true) s = .next t ∧
        Trapped (s.mapSlot fun l => { l with frozen := fs, hidden := l.hidden.map fun h =>
          if h.queue = 1 ∧ h.ord = f.1 then { h with joined := true } else h }) t .wmFrozen f.2 (Instr.phase sc true).encode))

/-- R213, R214, R216, R217, R218: a semaphore instruction whose name is in its context's grant sends its operation to the
die that the name gives; SEM.SIG first publishes and then goes on, every other one waits. R221, R222: BAR publishes at
package scope and arrives, and GANG.JOIN and GANG.LEAVE ask, at the home of the launch's gangs; each of them waits there.
R231: an operation takes effect 12 + 20h cycles after it is sent, which a publication of n granules delays, its own or an
earlier one of the slot, and stands in its home's order of arrival by that cycle, then by the core, then by the slot. That it
takes effect in exactly that cycle in D0 and D1, where R231 gives a minimum, and that system scope takes 400 cycles, is the
model's choice (assumption 23); that SEM.SET waits for its home is the model's reading (assumption 17). -/
def Obligations.SemaphoreAndGangRequests : Prop :=
  (∀ (s : State) (d a b : XReg), NameOk s (s.rx a) →
    let req : SemKind → Nat → SemOp := fun k after =>
      { index := ((s.rx a).extractLsb' 0 14).toNat, kind := k, core := s.cur.core, slot := s.cur.slot, uid := s.slot.uid
        queue := (s.launchOf s.cur).queue, gen := (s.queueOf s.cur).gen, dev := s.devid
        due := Nat.max s.refclk s.slot.busyTill + after + 12 +
          20 * hops (s.cur.core / 96) ((s.rx a).extractLsb' 29 3).toNat }
    let sent : State → SemKind → Nat → State := fun u k after =>
      u.modDie ((s.rx a).extractLsb' 29 3).toNat fun x => { x with inbox := insertSem (req k after) x.inbox }
    let waits : SemKind → Wait → State := fun k w =>
      (sent s k 0).mapSlot fun l => { l with wait := w, started := true, stalled := false, lag := 0 }
    (∀ sc, sc ≠ .system ∨ s.level ≠ 2 →
      let n := (match sc with | .core => 2 | .cluster => 8 | .die => 24 | .package => 96 | .system => 400) +
        ((granules s.slot.pend).length + 3) / 4 + 1
      exec (.semSig a b sc) s = .next ((sent (s.boundary s.cur sc) (.sig (s.rx b)) n).mapSlot fun l =>
        { l.next with busyTill := Nat.max s.refclk s.slot.busyTill + n })) ∧
    (∀ take, exec (.semWait d a b take) s = .next (waits (.wait (s.rx b) take) (.sem d true))) ∧
    exec (.semAdd d a b) s = .next (waits (.add (s.rx b)) (.sem d false)) ∧
    exec (.semSet a b) s = .next (waits (.set (s.rx b)) (.sem 0 false)) ∧
    exec (.semRead d a) s = .next (waits .read (.sem d false))) ∧
  (∀ (s : State) (d a : XReg),
    let g := (s.rx a).setWidth 6
    let home := (s.launchOf s.cur).home
    let req : GangKind → Nat → GangOp := fun k after =>
      { kind := k, launch := s.slot.launch, gang := g, core := s.cur.core, slot := s.cur.slot, uid := s.slot.uid
        due := Nat.max s.refclk s.slot.busyTill + after + 12 + 20 * hops (s.cur.core / 96) home }
    let sent : State → GangKind → Nat → State := fun u k after =>
      u.modDie home fun x => { x with gangs := insertGang (req k after) x.gangs }
    let waits : State → Wait → State := fun u w =>
      u.mapSlot fun l => { l with wait := w, started := true, stalled := false, lag := 0 }
    exec (.bar d a) s =
      .next (waits (sent (s.boundary s.cur .package) .arrive (96 + ((granules s.slot.pend).length + 3) / 4))
        (.bar d g (Instr.bar d a).encode)) ∧
    exec (.gangJoin a) s = .next (waits (sent s .join 0) (.gang true)) ∧
    exec (.gangLeave a) s = .next (waits (sent s .leave 0) (.gang false))) ∧
  (∀ (o : SemOp) (ps : List SemOp), ∃ l r, ps = l ++ r ∧ insertSem o ps = l ++ o :: r ∧
    (∀ p, p ∈ l → p.due < o.due ∨ p.due = o.due ∧ (p.core < o.core ∨ p.core = o.core ∧ p.slot ≤ o.slot)) ∧
    ∀ p, r.head? = some p → o.due < p.due ∨ o.due = p.due ∧ (o.core < p.core ∨ o.core = p.core ∧ o.slot < p.slot)) ∧
  ∀ (o : GangOp) (ps : List GangOp), ∃ l r, ps = l ++ r ∧ insertGang o ps = l ++ o :: r ∧
    (∀ p, p ∈ l → p.due < o.due ∨ p.due = o.due ∧ (p.core < o.core ∨ p.core = o.core ∧ p.slot ≤ o.slot)) ∧
    ∀ p, r.head? = some p → o.due < p.due ∨ o.due = p.due ∧ (o.core < p.core ∨ o.core = p.core ∧ o.slot < p.slot)

/-- R213, R243: a name with a reserved bit set, of a device outside the system, or with an index outside the grant ends
the task with LEASE; a name of another device traps DETERMINISM in D2 and goes out over the links at the other levels.
R51, R219, R243: SEM.ARM. DETERMINISM in D2; result 2 past the TCB table; where the TCB may be written, the arm is
sent to the home of the name, and the slot waits for its result; a TCB that may not be written ends the task with LEASE. For a
home on another device, whose arm goes out over the links, a TCB that is armed or queued already gives result 1 at once: the
model's reading (assumption 49). The exact cycle of an arm in D0 and D1 is the model's choice (assumption 23). -/
def Obligations.SemaphoreNamesAndArms : Prop :=
  (∀ (s : State) (d a b : XReg) (take : Bool) (i : Instr),
    i = .semWait d a b take ∨ i = .semAdd d a b ∨ i = .semSet a b ∨ i = .semRead d a ∨
      (∃ sc, i = .semSig a b sc ∧ (sc ≠ .system ∨ s.level ≠ 2)) →
    let n := s.rx a
    let dev := n.extractLsb' 32 20
    let u := s.queueOf s.cur
    let index := (n.extractLsb' 0 14).toNat
    (n.extractLsb' 52 12 ≠ 0 ∨ n.extractLsb' 14 15 ≠ 0 ∨ (dev ≠ s.devid ∧ dev ∉ s.system) ∨
        index < u.semb ∨ u.semb + u.semn ≤ index → EndsTask s i) ∧
    (n.extractLsb' 52 12 = 0 → n.extractLsb' 14 15 = 0 → dev ≠ s.devid → dev ∈ s.system →
        u.semb ≤ index → index < u.semb + u.semn →
      (s.level = 2 → s.slot.inh = false → TrapsOpen s i .determinism) ∧
      (s.level ≠ 2 → ∃ t f fs, exec i s = .next t ∧ t.outbox = s.outbox ++ fs ++ [f] ∧ f.dest = dev ∧ OthersKept s t ∧
        Carries s { s with outbox := s.outbox ++ fs } ∧ (fs = [] ∨ ∃ sc, i = .semSig a b sc) ∧
        (∀ c, (t.die c).inbox = (s.die c).inbox) ∧ t.slot.x = s.slot.x ∧
        ∃ amount code, f.body = .semUpdate n amount code 0 0 s.devid s.cur.core s.cur.slot.val s.slot.uid
            (s.launchOf s.cur).queue u.gen ∧
          (i = .semWait d a b take → amount = s.rx b ∧ code = (if take then 2 else 1) ∧ t.slot.wait = .sem d true) ∧
          (i = .semAdd d a b → amount = s.rx b ∧ code = 3 ∧ t.slot.wait = .sem d false) ∧
          (i = .semSet a b → amount = s.rx b ∧ code = 4 ∧ t.slot.wait = .sem 0 false) ∧
          (i = .semRead d a → amount = 0 ∧ code = 5 ∧ t.slot.wait = .sem d false) ∧
          (∀ sc, i = .semSig a b sc → amount = s.rx b ∧ code = 0 ∧ t.slot.pc = s.slot.pc + 4)))) ∧
  (∀ (s : State) (d a b : XReg),
    let l := s.launchOf s.cur
    let name := s.rx b
    let tcb := l.tcbs + BitVec.ofNat 64 (64 * (s.rx a).toNat)
    let away : FlitBody := .semUpdate name (s.rx (b + 1)) 6 s.slot.launch (s.rx a).toNat s.devid s.cur.core s.cur.slot.val
      s.slot.uid l.queue (s.queueOf s.cur).gen
    let op : SemOp :=
      { index := (name.extractLsb' 0 14).toNat, kind := .arm s.slot.launch (s.rx a).toNat (s.rx (b + 1))
        core := s.cur.core, slot := s.cur.slot, uid := s.slot.uid, queue := l.queue, gen := (s.queueOf s.cur).gen
        dev := s.devid
        due := Nat.max s.refclk s.slot.busyTill + 12 + 20 * hops (s.cur.core / 96) (name.extractLsb' 29 3).toNat }
    (s.level = 2 → s.slot.inh = false → TrapsOpen s (.semArm d a b) .determinism) ∧
    (s.level ≠ 2 → NameOk s name → l.ntcb ≤ (s.rx a).toNat → Puts s (.semArm d a b) d 2) ∧
    (s.level ≠ 2 → (s.rx a).toNat < l.ntcb →
      (∀ c, s.checkTranslated s.cur tcb.toNat 1 .write .early = .trap c → EndsTask s (.semArm d a b)) ∧
      (∀ n1 u c, s.checkTranslated s.cur tcb.toNat 1 .write .early = .ok n1 u →
        u.checkTranslated s.cur (tcb + 63).toNat 1 .write .early = .trap c → EndsTask s (.semArm d a b))) ∧
    (s.level ≠ 2 → NameOk s name → (s.rx a).toNat < l.ntcb → ∀ n1 n2 u v,
      s.checkTranslated s.cur tcb.toNat 1 .write .early = .ok n1 u →
      u.checkTranslated s.cur (tcb + 63).toNat 1 .write .early = .ok n2 v →
      ∃ t, exec (.semArm d a b) s = .next t ∧
        t = (v.modDie (name.extractLsb' 29 3).toNat fun x => { x with inbox := insertSem op x.inbox }).mapSlot
          fun l => { l with wait := .sem d false, started := true, stalled := false, lag := 0 }) ∧
    (s.level ≠ 2 → name.extractLsb' 52 12 = 0 → name.extractLsb' 14 15 = 0 → name.extractLsb' 32 20 ≠ s.devid →
      name.extractLsb' 32 20 ∈ s.system → (s.queueOf s.cur).semb ≤ (name.extractLsb' 0 14).toNat →
      (name.extractLsb' 0 14).toNat < (s.queueOf s.cur).semb + (s.queueOf s.cur).semn → (s.rx a).toNat < l.ntcb →
      ∀ n1 n2 u v,
      s.checkTranslated s.cur tcb.toNat 1 .write .early = .ok n1 u →
      u.checkTranslated s.cur (tcb + 63).toNat 1 .write .early = .ok n2 v →
      (v.tcbFree s.slot.launch (s.rx a).toNat = false →
        ∃ t, exec (.semArm d a b) s = .next t ∧ Frame v t ∧ RegIs v t d 1 ∧ t.slot.pc = s.slot.pc + 4) ∧
      (v.tcbFree s.slot.launch (s.rx a).toNat = true → ∃ t, exec (.semArm d a b) s = .next t ∧ OthersKept v t ∧
        t.outbox = v.outbox ++ [{ dest := name.extractLsb' 32 20, body := away }] ∧
        t.slot = { s.slot with
          wait := .arm d (s.rx a).toNat name (s.rx (b + 1)), started := true, stalled := false, lag := 0 })))

/-- R214, R216, R218: the home applies the oldest operation that has reached it. SEM.SIG adds without going past the largest
value, SEM.ADD adds a signed number and keeps the value in range, SEM.SET replaces the value, and SEM.READ leaves it; the
value from before leaves for the slot that waits, which it reaches 12 + 20h cycles later (R231). R51, R219: SEM.ARM answers 1
for a TCB that may not be armed, 3 where no arm record is free, and else writes SEMID, THRESH and STATE into the TCB, keeps a
record, and answers 0; a value that meets the threshold already releases the TCB. R51 to R53, R214: an update that meets the
threshold of an armed TCB releases it, and frees its record; one that meets those of waiting SEM.WAITs completes them in their
order of arrival, each with the value that those before it have left. R52: the ready queue's order. R231: an operation whose
cycle has not come waits. R364: after the fence of its queue a home drops an operation of an earlier generation. -/
def Obligations.SemaphoresAtTheirHome : Prop :=
  (∀ (s : State) (d : Nat) (o : SemOp) (os : List SemOp) (xd : XReg),
    (s.die d).inbox = o :: os → o.dev = s.devid →
    (s.refclk < o.due → Idle s (.semUpdateAtHome d)) ∧
    (o.due ≤ s.refclk → (s.queue o.queue).gen ≠ o.gen →
      (s.queue o.queue).resetting = false ∨ d ∈ (s.queue o.queue).fences →
      Happens s (.semUpdateAtHome d) (s.modDie d fun x => { x with inbox := os })) ∧
    (o.due ≤ s.refclk → (s.queue o.queue).gen = o.gen →
    let r : SlotRef := ⟨o.core, o.slot⟩
    let v := tget 0 (s.die d).sems o.index
    let gone := s.modDie d fun x => { x with inbox := os }
    let after : W64 → State := fun w => s.modDie d fun x => { x with inbox := os, sems := tset x.sems o.index w }
    let answered : State → W64 → State := fun u x => u.setSlot r { s.slotAt r with
      wait := .semDone xd x false (s.refclk + (12 + 20 * hops (o.core / 96) d) + (s.slotAt r).lag) }
    let mine : Prop := o.uid ≠ 0 ∧ (s.slotAt r).occ = true ∧ (s.slotAt r).uid = o.uid ∧ (s.slotAt r).wait = .sem xd false
    let calm : W64 → Prop := fun w => ∀ x, x ∈ (s.die d).waiters → x.index = o.index → w.toNat < x.threshold.toNat
    let idle : List Arm → W64 → Prop := fun as w => ∀ x, x ∈ as → x.index = o.index → w.toNat < x.threshold.toNat
    (mine → o.kind = .read → Happens s (.semUpdateAtHome d) (answered gone v)) ∧
    -- arms
    (∀ n i t, mine → o.kind = .arm n i t →
      let l := s.launch n
      let a : Arm := { index := o.index, threshold := t, launch := n, tcb := i, dev := o.dev, gen := o.gen }
      let written := gone.fwWrite (s.queue l.queue).troot (l.tcbs.toNat + 64 * i + 0x20) 24
        (s.devid.toNat * 2 ^ 32 + d * 2 ^ 29 + o.index + t.toNat * 2 ^ 64 + 2 ^ 128)
      d < 8 → o.index < 2 ^ 14 →
      (l.stage ≠ .admitted → Happens s (.semUpdateAtHome d) gone) ∧
      (l.stage = .admitted → s.tcbFree n i = false → Happens s (.semUpdateAtHome d) (answered gone 1)) ∧
      (l.stage = .admitted → s.tcbFree n i = true → Config.armRecords ≤ (s.die d).arms.length →
        Happens s (.semUpdateAtHome d) (answered gone 3)) ∧
      (l.stage = .admitted → s.tcbFree n i = true → (s.die d).arms.length < Config.armRecords → idle (s.die d).arms v → calm v →
        (v.toNat < t.toNat → Happens s (.semUpdateAtHome d)
          (answered (written.modDie d fun x => { x with arms := x.arms ++ [a] }) 0)) ∧
        (t.toNat ≤ v.toNat → ∃ u, Releases (answered written 0) u n i d ∧ Happens s (.semUpdateAtHome d) u))) ∧
    -- updates
    (∀ (w : W64) (ends : State → State),
      (∃ a, o.kind = .sig a ∧ w = BitVec.ofNat 64 (min (v.toNat + a.toNat) (2 ^ 64 - 1)) ∧ ends = id) ∨
        mine ∧ ends = (fun u => answered u v) ∧
          ((∃ a, o.kind = .add a ∧ w = BitVec.ofInt 64 (min (max (v.toNat + a.toInt) 0) (2 ^ 64 - 1))) ∨ o.kind = .set w) →
      (idle (s.die d).arms w → calm w → Happens s (.semUpdateAtHome d) (ends (after w))) ∧
      (∀ a as bs, (s.die d).arms = as ++ a :: bs → a.index = o.index → a.threshold.toNat ≤ w.toNat → idle (as ++ bs) w → calm w →
        let freed := (after w).modDie d fun x => { x with arms := as ++ bs }
        (a.dev = s.devid → ∃ u, Releases freed u a.launch a.tcb d ∧ Happens s (.semUpdateAtHome d) (ends u)) ∧
        (a.dev ≠ s.devid → Happens s (.semUpdateAtHome d) (ends { freed with
          outbox := s.outbox ++ [{ dest := a.dev, body := .tcbRelease a.launch a.tcb a.gen }] })))) ∧
    (∀ (a w : W64) (x y : Waiter) (dx dy : XReg), o.kind = .sig a → w = BitVec.ofNat 64 (min (v.toNat + a.toNat) (2 ^ 64 - 1)) →
      idle (s.die d).arms w → (s.die d).waiters = [x, y] →
      let rx : SlotRef := ⟨x.core, x.slot⟩
      let ry : SlotRef := ⟨y.core, y.slot⟩
      let waits : Waiter → SlotRef → XReg → Prop := fun z q dz => z.index = o.index ∧ z.dev = s.devid ∧ z.uid ≠ 0 ∧
        (s.slotAt q).occ = true ∧ (s.slotAt q).uid = z.uid ∧ (s.slotAt q).wait = .sem dz true
      waits x rx dx → waits y ry dy → rx ≠ ry →
      let step : W64 → Waiter → W64 := fun w z => if z.threshold.toNat ≤ w.toNat ∧ z.take = true then w - z.threshold else w
      let done : W64 → Waiter → SlotRef → XReg → State → Prop := fun w z q dz u =>
        u.slotAt q = if z.threshold.toNat ≤ w.toNat then { s.slotAt q with
            wait := .semDone dz w true (s.refclk + (12 + 20 * hops (z.core / 96) d)), away := none, cancelled := false }
          else s.slotAt q
      ∃ u, Happens s (.semUpdateAtHome d) u ∧ done w x rx dx u ∧ done (step w x) y ry dy u ∧
        tget 0 (u.die d).sems o.index = step (step w x) y ∧
        (u.die d).waiters = (if x.threshold.toNat ≤ w.toNat then [] else [x]) ++
          (if y.threshold.toNat ≤ (step w x).toNat then [] else [y]) ∧
        u.mem = s.mem ∧ ∀ q, q ≠ rx → q ≠ ry → u.slotAt q = s.slotAt q))) ∧
  ∀ (p : ReadyTcb) (ps : List ReadyTcb),
    let above : ReadyTcb → ReadyTcb → Prop := fun a b =>
      b.prio.toNat < a.prio.toNat ∨ a.prio = b.prio ∧ (a.rstep.toNat < b.rstep.toNat ∨ a.rstep = b.rstep ∧
        match a.index, b.index with
        | some i, some j => i < j ∨ i = j ∧ a.order < b.order
        | some _, none => True
        | none, some _ => False
        | none, none => a.num.toNat < b.num.toNat ∨ a.num = b.num ∧ a.order < b.order)
    ∃ l r, ps = l ++ r ∧ insertReady p ps = l ++ p :: r ∧ (∀ x, x ∈ l → ¬ above p x) ∧ ∀ x, r.head? = some x → above p x

/-- R214, R217: a SEM.WAIT at the home. Where the value meets the threshold the wait is over with the value from before, and
with take the threshold is taken; where it does not, the wait joins those that wait there. The answer reaches the slot 12 + 20h cycles later (R231), and
SEM_WAIT_COMPLETE then writes xd, for a SEM.WAIT as a refresh point (R200), or lets a GANG.JOIN or GANG.LEAVE go on (R222); it
waits while the cluster stands still (R381). -/
def Obligations.SemaphoreWaits : Prop :=
  ∀ (s : State) (d : Nat) (o : SemOp) (os : List SemOp) (xd : XReg) (t : W64) (take : Bool),
    let r : SlotRef := ⟨o.core, o.slot⟩
    let l := s.slotAt r
    let v := tget 0 (s.die d).sems o.index
    ((s.die d).inbox = o :: os → o.due ≤ s.refclk → (s.die d).waiters = [] → o.dev = s.devid →
      (s.queue o.queue).gen = o.gen →
      o.kind = .wait t take → o.uid ≠ 0 → l.occ = true → l.uid = o.uid → l.wait = .sem xd true →
      (t.toNat ≤ v.toNat → ∃ u, Happens s (.semUpdateAtHome d) u ∧ u.slotAt r = { l with
          wait := .semDone xd v true (s.refclk + (12 + 20 * hops (o.core / 96) d)), away := none, cancelled := false } ∧
        (∀ q, q ≠ r → u.slotAt q = s.slotAt q) ∧
        tget 0 (u.die d).sems o.index = (if take then v - t else v) ∧
        (∀ j, j ≠ o.index → tget 0 (u.die d).sems j = tget 0 (s.die d).sems j) ∧
        (u.die d).waiters = [] ∧ (u.die d).inbox = os ∧ u.mem = s.mem ∧ u.overlay = s.overlay) ∧
      (v.toNat < t.toNat → Happens s (.semUpdateAtHome d) (s.modDie d fun x => { x with
        inbox := os
        waiters := [{ index := o.index, threshold := t, take := take, core := o.core, slot := o.slot, uid := o.uid
                      dev := o.dev, queue := o.queue, gen := o.gen }] }))) ∧
    (∀ (core : Nat) (k : Fin 4) (v : W64) (cond : Bool) (due : Nat),
      let m := s.slotAt ⟨core, k⟩
      let resumed : Slot → Slot := fun n => { n with wait := .run, pc := m.pc + 4, pfx := [], started := true, stalled := false }
      m.wait = .semDone xd v cond due ∨ m.wait = .gangDone due →
      (s.refclk < due ∨ s.clusterStopped (core / 4) = true → Idle s (.semWaitComplete core k)) ∧
      (due ≤ s.refclk → s.clusterStopped (core / 4) = false →
        (m.wait = .semDone xd v cond due → Happens s (.semWaitComplete core k)
          (s.setSlot ⟨core, k⟩ { resumed (m.wx xd v) with snap := if cond then [] else m.snap })) ∧
        (m.wait = .gangDone due → Happens s (.semWaitComplete core k) (s.setSlot ⟨core, k⟩ (resumed m)))))

/-- R55: gangs at their home. A BAR of a task that is no member completes with status 2; the arrival of a member that is
not the last is counted; the last arrival closes the generation: every member that has arrived completes with status 0, the
tasks that wait to join become members, and the next generation begins with none arrived; GANG.JOIN with no generation open adds the task, and GANG.LEAVE of a member removes it, as the end of a member by EXIT does
(R235); a TCB that joins at admission is added and starts. An answer reaches its slot 12 + 20h cycles later (R231). R221: a BAR
whose answer has come writes its status to xd, and what the task has read no longer binds it; where the status is 1 and
GANGCTL.BTRAP is 1 it then traps GANG_BROKEN, with TPC after the BAR and the gang in TVAL. -/
def Obligations.GangsAtTheirHome : Prop :=
  (∀ (s : State) (d : Nat) (o : GangOp) (os : List GangOp) (xd : XReg) (w : W32),
    (s.die d).gangs = o :: os → o.due ≤ s.refclk →
    let r : SlotRef := ⟨o.core, o.slot⟩
    let x := (s.launch o.launch).gang o.gang.toNat
    let gone := s.modDie d fun y => { y with gangs := os }
    let withGang : Gang → State := fun y => gone.modGang o.launch o.gang.toNat fun _ => y
    let way : Nat → Nat := fun core => s.refclk + (12 + 20 * hops (core / 96) (s.launch o.launch).home)
    let going : Slot := { s.slotAt r with wait := .gangDone (way o.core + (s.slotAt r).lag) }
    (o.kind = .arrive → o.uid ∉ x.members → s.findTask o.uid = some r → (s.slotAt r).wait = .bar xd o.gang w →
      Happens s (.gangArrivalAtHome d) (gone.setSlot r { s.slotAt r with
        wait := .barDone xd o.gang w 2 (way o.core) })) ∧
    (o.kind = .arrive → o.uid ∈ x.members → x.broken = true → s.findTask o.uid = some r →
      (s.slotAt r).wait = .bar xd o.gang w →
      Happens s (.gangArrivalAtHome d) (gone.setSlot r { s.slotAt r with
        wait := .barDone xd o.gang w 1 (way o.core) })) ∧
    (o.kind = .arrive → o.uid ∈ x.members → x.broken = false → x.arrived.length + 1 < x.members.length →
      Happens s (.gangArrivalAtHome d) (withGang { x with arrived := x.arrived ++ [o.uid] })) ∧
    (o.kind = .arrive → x.members = [o.uid] → x.arrived = [] → x.joiners = [] → x.broken = false →
      s.findTask o.uid = some r → (s.slotAt r).wait = .bar xd o.gang w →
      ∃ u, Happens s (.gangArrivalAtHome d) u ∧ u.slotAt r = { s.slotAt r with
          wait := .barDone xd o.gang w 0 (way o.core) } ∧
        (u.launch o.launch).gang o.gang.toNat = { x with gen := x.gen + 1 } ∧
        (∀ q, q ≠ r → u.slotAt q = s.slotAt q) ∧ u.mem = s.mem) ∧
    (o.kind = .arrive → o.uid ∈ x.members → x.broken = false → x.arrived.length + 1 = x.members.length →
      ∃ u, Happens s (.gangArrivalAtHome d) u ∧ u.mem = s.mem ∧
        (∀ v q y k z, v ∈ x.arrived ++ [o.uid] → s.findTask v = some q → (s.slotAt q).wait = .bar y k z →
          u.slotAt q = { s.slotAt q with wait := .barDone y k z 0 (way q.core) }) ∧
        (∀ q, (s.slotAt q).uid ∉ x.arrived ++ [o.uid] → (s.slotAt q).uid ∉ x.joiners.map (·.uid) →
          u.slotAt q = s.slotAt q) ∧
        ((∀ v, v ∈ x.arrived ++ [o.uid] → s.findTask v ≠ none) →
          (u.launch o.launch).gang o.gang.toNat = { x with
            arrived := [], gen := x.gen + 1, joiners := []
            members := x.members ++ (x.joiners.map (·.uid)).filter fun v => !(x.members.contains v) })) ∧
    ((s.slotAt r).occ = true → (s.slotAt r).uid = o.uid →
      (o.kind = .join → (s.slotAt r).wait = .gang true → o.uid ∉ x.members → x.arrived = [] → x.joiners = [] →
        ∃ u, Happens s (.gangArrivalAtHome d) u ∧ u.slotAt r = going ∧
          (u.launch o.launch).gang o.gang.toNat = { x with members := x.members ++ [o.uid] } ∧
          (∀ q, q ≠ r → u.slotAt q = s.slotAt q) ∧ u.mem = s.mem) ∧
      (o.kind = .leave → (s.slotAt r).wait = .gang false → o.uid ∉ x.members →
        Happens s (.gangArrivalAtHome d) (gone.setSlot r going)) ∧
      (o.kind = .leave → (s.slotAt r).wait = .gang false → o.uid ∈ x.members → x.arrived = [] → x.broken = false →
        ∃ u, Happens s (.gangArrivalAtHome d) u ∧ u.slotAt r = going ∧
          (u.launch o.launch).gang o.gang.toNat = { x with members := x.members.filter (· != o.uid) } ∧
          (∀ q, q ≠ r → u.slotAt q = s.slotAt q) ∧ u.mem = s.mem) ∧
      (o.kind = .enroll → (s.slotAt r).wait = .joining o.gang → o.uid ∉ x.members → x.arrived = [] → x.joiners = [] →
        ∃ u, Happens s (.gangArrivalAtHome d) u ∧ u.slotAt r = { s.slotAt r with wait := .run } ∧
          (u.launch o.launch).gang o.gang.toNat = { x with members := x.members ++ [o.uid] } ∧
          (∀ q, q ≠ r → u.slotAt q = s.slotAt q) ∧ u.mem = s.mem)) ∧
    (o.kind = .quit → o.uid ∉ x.members → Happens s (.gangArrivalAtHome d) gone) ∧
    (o.kind = .quit → o.uid ∈ x.members → x.arrived = [] → x.broken = false → ∃ u, Happens s (.gangArrivalAtHome d) u ∧
      (u.launch o.launch).gang o.gang.toNat = { x with members := x.members.filter (· != o.uid) } ∧
      (∀ q, u.slotAt q = s.slotAt q) ∧ u.mem = s.mem)) ∧
  (∀ (s : State) (core : Nat) (k : Fin 4) (xd : XReg) (g : BitVec 6) (w : W32) (status : W64) (due : Nat),
    let r : SlotRef := ⟨core, k⟩
    let l := s.slotAt r
    let m : Slot := { l.wx xd status with
      wait := .run, pc := l.pc + 4, pfx := [], started := true, stalled := false, snap := [] }
    l.wait = .barDone xd g w status due →
    (s.refclk < due ∨ s.clusterStopped (core / 4) = true → Idle s (.barComplete core k)) ∧
    (due ≤ s.refclk → s.clusterStopped (core / 4) = false → (status ≠ 1 ∨ l.gangctl.getLsbD 0 = false → Happens s (.barComplete core k) (s.setSlot r m)) ∧
    (status = 1 → l.gangctl.getLsbD 0 = true → l.inh = false →
      Happens s (.barComplete core k) (s.setSlot r { m with
        tcause := 0x0C, tpc := l.pc + 4, tval := g.setWidth 64, tword := w.setWidth 64
        tstat := (l.tstat &&& 0xFFFFFFFF00000000) ||| 1, pc := l.tvec, pushes := 0, exiting := false, park := none }))))

/-- R223, R224, R225, R243: an atomic whose access passes its checks as a read and a write publishes at its scope, if it has
one, and waits for the home of its location, which performs it in the cycle in which its result is there, counted from the end
of the slot's latest publication (R231; that the home performs it then is the model's choice, assumption 84). AMOF traps DETERMINISM in D1 and D2, and system scope does in D2. -/
def Obligations.AtomicRequests : Prop :=
  ∀ (s : State) (d a b : XReg) (o : AmoOp),
    let sent : State → Nat → AtomicKind → Option Scope → State := fun u loc k sc =>
      u.mapSlot fun l => { l with
        wait := .atomic d loc k sc.isSome (Nat.max s.refclk s.slot.busyTill + (match sc with
          | none => 0
          | some c => (match c with | .core => 2 | .cluster => 8 | .die => 24 | .package => 96 | .system => 400) +
              ((granules s.slot.pend).length + 3) / 4) + s.amoCycles s.cur.core loc)
        started := true, stalled := false, lag := 0 }
    (∀ loc u, Passes s (s.rx a) 8 .both loc u →
      exec (.amo d a b .unpublished o) s = .next (sent u loc (.amo o (s.rx b)) none) ∧
      exec (.amocas d a b .unpublished) s = .next (sent u loc (.cas (s.rx b) (s.rx (b + 1))) none) ∧
      (∀ sc, sc ≠ .system ∨ s.level ≠ 2 →
        exec (.amo d a b (.pub sc) o) s = .next (sent (u.boundary s.cur sc) loc (.amo o (s.rx b)) (some sc)) ∧
        exec (.amocas d a b (.pub sc)) s =
          .next (sent (u.boundary s.cur sc) loc (.cas (s.rx b) (s.rx (b + 1))) (some sc)))) ∧
    (∀ loc u, Passes s (s.rx a) 4 .both loc u → s.level = 0 →
      exec (.amof d a b .unpublished) s = .next (sent u loc (.addF ((s.rx b).setWidth 32)) none) ∧
      (∀ sc, exec (.amof d a b (.pub sc)) s =
        .next (sent (u.boundary s.cur sc) loc (.addF ((s.rx b).setWidth 32)) (some sc)))) ∧
    (s.level ≠ 0 → s.slot.inh = false → ∀ sc, TrapsOpen s (.amof d a b sc) .determinism) ∧
    (s.level = 2 → s.slot.inh = false → TrapsOpen s (.amo d a b (.pub .system) o) .determinism ∧
      TrapsOpen s (.amocas d a b (.pub .system)) .determinism)

/-- R210, R223, R224, R225: an atomic at the home of its location. The old value reaches xd and the slot goes on; the location
holds the new value, and no other byte of memory and no other slot has changed. Here nothing that the task has published or
written is on its way to a home. While the cluster stands still the answer waits (R381). On a device that does not bridge an
atomic to the host window goes to the bridging device, with its queue and generation, and the slot waits for the old value
(R211, R363, R409). -/
def Obligations.AtomicsAtTheirHome : Prop :=
  ∀ (s : State) (core : Nat) (k : Fin 4) (d : XReg) (loc : Nat) (kind : AtomicKind) (fresh : Bool) (due : Nat),
    let r : SlotRef := ⟨core, k⟩
    let l := s.slotAt r
    l.wait = .atomic d loc kind fresh due → (∀ o, o ∈ s.overlay → o.uid ≠ l.uid) → s.mem.wf = true →
    (s.refclk < due ∨ s.clusterStopped (core / 4) = true → Idle s (.atomicAtHome core k)) ∧
    (due ≤ s.refclk → s.clusterStopped (core / 4) = false → s.bridge = false → hostLoc loc = true →
      let asked : HostAtomic := match kind with | .amo o v => .amo o v | .cas e v => .cas e v | .addF v => .addF v
      let size := match kind with | .addF _ => 4 | _ => 8
      let request : FlitBody := .hostAtomic s.devid (some ((s.launchOf r).queue, (s.queueOf r).gen)) s.hostTag
        (loc - 0x8000000000000) size asked
      ∃ u, Happens s (.atomicAtHome core k) u ∧ (∀ q, q ≠ r → u.slotAt q = s.slotAt q) ∧ u.mem = s.mem ∧
        u.slotAt r = { l with wait := .hostAtomic d fresh } ∧ u.hostTag = s.hostTag + 1 ∧
        u.outbox = s.outbox ++ [{ dest := s.hostDev, body := request }]) ∧
    (due ≤ s.refclk → s.clusterStopped (core / 4) = false → s.bridge = true ∨ hostLoc loc = false →
    let n := match kind with | .addF _ => 4 | _ => 8
    let old : W64 := BitVec.ofNat 64 (s.peek loc n)
    ∃ u, Happens s (.atomicAtHome core k) u ∧ (∀ q, q ≠ r → u.slotAt q = s.slotAt q) ∧
      u.slotAt r = { l.wx d old with
        wait := .run, pc := l.pc + 4, pfx := [], started := true, stalled := false, snap := (u.slotAt r).snap } ∧
      (fresh = true → (u.slotAt r).snap = []) ∧
      (∀ a, ¬ (loc ≤ a ∧ a < loc + n) → u.mem.get a = s.mem.get a) ∧
      (∀ v, kind = .amo .add v → u.peek loc 8 = (old + v).toNat) ∧
      (∀ v, kind = .amo .and v → u.peek loc 8 = (old &&& v).toNat) ∧
      (∀ v, kind = .amo .or v → u.peek loc 8 = (old ||| v).toNat) ∧
      (∀ v, kind = .amo .xor v → u.peek loc 8 = (old ^^^ v).toNat) ∧
      (∀ v, kind = .amo .swp v → u.peek loc 8 = v.toNat) ∧
      (∀ v, kind = .amo .min v → u.peek loc 8 = (if old.toInt ≤ v.toInt then old else v).toNat) ∧
      (∀ v, kind = .amo .max v → u.peek loc 8 = (if old.toInt ≤ v.toInt then v else old).toNat) ∧
      (∀ v, kind = .amo .minn v → u.peek loc 8 = min old.toNat v.toNat) ∧
      (∀ v, kind = .amo .maxn v → u.peek loc 8 = max old.toNat v.toNat) ∧
      (∀ e v, kind = .cas e v → u.peek loc 8 = (if old = e then v else old).toNat) ∧
      (∀ v, kind = .addF v → u.peek loc 4 =
        ((fmtOf .f32).write .rne false
          (Machine.Num.add .rne ((fmtOf .f32).read false old.toNat) ((fmtOf .f32).read false v.toNat)).1).1 % 2 ^ 32))

/-- R227: TOKSIG and TOKWAIT on the sequencer count a token up, without going past 65,535, and down, waiting while there
is none; those of an engine append an entry to its queue. R228, R229, R230: the engine waits. WAITE goes on when at
most k entries of the slot in the queue have not ended, and FENCE.E when none in the queues of its mask has, a mask of
0 naming all three; where an entry that they join ended frozen and has not been reported, they trap WM_FROZEN with its
position, once, and join that entry. WAITWM stalls on a landing register at or below its address, traps on a frozen one, and
else writes the register's state. R207: TOKWAIT, WAITE and FENCE.E join every entry of the slot that has ended, and WAITWM
joins what the copy that took the register has written at the address or below it. -/
def Obligations.TokensAndEngineWaits : Prop :=
  let joined : State → List Hidden := fun s => s.slot.hidden.map fun h =>
    if (s.here.queue (if h.queue = 0 then .vec else if h.queue = 1 then .copy else .mx)).recs.any fun q =>
      q.uid == s.slot.uid && q.ord == h.ord && q.st != .ended then h else { h with joined := true }
  (∀ (s : State) (k : BitVec 3),
    let n := s.slot.tok[k.toNat]'k.isLt
    Becomes s (.toksig .seq k) { s.slot with
      tok := s.slot.tok.set k.toNat (if n = 65535 then 65535 else n + 1) k.isLt
      pc := s.slot.pc + 4, pfx := [], started := true, stalled := false } ∧
    (n = 0 → Stalls s (.tokwait .seq k)) ∧
    (n ≠ 0 → Becomes s (.tokwait .seq k) { s.slot with
      tok := s.slot.tok.set k.toNat (n - 1) k.isLt, hidden := joined s
      pc := s.slot.pc + 4, pfx := [], started := true, stalled := false }) ∧
    Queues s (.toksig .vec k) .vec [] [] { s.slot with issuedVecs := s.slot.issuedVecs + 1 }.next ∧
    Queues s (.tokwait .vec k) .vec [] [] { s.slot with issuedVecs := s.slot.issuedVecs + 1 }.next ∧
    Queues s (.toksig .copy k) .copy [] [] { s.slot with issuedCopies := s.slot.issuedCopies + 1 }.next ∧
    Queues s (.tokwait .copy k) .copy [] [] { s.slot with issuedCopies := s.slot.issuedCopies + 1 }.next ∧
    Queues s (.toksig .mx k) .mx [] [] { s.slot with issuedMxs := s.slot.issuedMxs + 1 }.next ∧
    Queues s (.tokwait .mx k) .mx [] [] { s.slot with issuedMxs := s.slot.issuedMxs + 1 }.next) ∧
  (∀ s : State,
    let left : Which → Nat := fun w => ((s.here.queue w).recs.filter fun r => r.uid == s.slot.uid && r.st != .ended).length
    let goes : Instr → Prop := fun i => Becomes s i { s.slot.next with hidden := joined s }
    let reports : Instr → Nat × W64 → List (Nat × W64) → Prop := fun i f rest => s.slot.inh = false →
      ∃ t, exec i s = .next t ∧ Trapped (s.mapSlot fun l => { l with frozen := rest, hidden := l.hidden.map fun h =>
        if h.queue = 1 ∧ h.ord = f.1 then { h with joined := true } else h }) t .wmFrozen f.2 i.encode
    (∀ (e : Eng) (w : Which) (k : BitVec 5),
      e = .vec ∧ w = .vec ∨ e = .copy ∧ w = .copy ∨ e = .mx ∧ w = .mx →
      (k.toNat < left w → Stalls s (.waite e k)) ∧
      (left w ≤ k.toNat → (e = .copy → ∀ f, f ∈ s.slot.frozen → 0 < f.1 ∧ s.slot.issuedCopies < f.1 + k.toNat) → goes (.waite e k)) ∧
      (∀ es f fs, left w ≤ k.toNat → e = .copy → s.slot.frozen = es ++ f :: fs → f.1 + k.toNat ≤ s.slot.issuedCopies →
        (∀ x, x ∈ es → 0 < x.1 ∧ s.slot.issuedCopies < x.1 + k.toNat) → reports (.waite e k) f (es ++ fs))) ∧
    (∀ m : BitVec 3,
      let names : Nat → Prop := fun j => m = 0 ∨ m.getLsbD j = true
      (names 0 ∧ left .vec ≠ 0 ∨ names 1 ∧ left .copy ≠ 0 ∨ names 2 ∧ left .mx ≠ 0 → Stalls s (.fenceE m)) ∧
      ((names 0 → left .vec = 0) → (names 1 → left .copy = 0) → (names 2 → left .mx = 0) →
        (¬ names 1 ∨ s.slot.frozen = [] → goes (.fenceE m)) ∧
        (∀ f fs, names 1 → s.slot.frozen = f :: fs → reports (.fenceE m) f fs))) ∧
    (∀ (d a : XReg) (n : BitVec 3),
      let w := s.here.wms[n.toNat]'n.isLt
      let state := w.stat.extractLsb' 0 3
      let reached : Hidden → Hidden := fun h =>
        if h.queue = 1 ∧ w.owner = (s.slot.uid, h.ord) ∧ w.passed s.cur.core h.addr = true ∧
          ownVa s.cur.core h.addr ≤ ownVa s.cur.core (s.rx a).toNat then { h with joined := true } else h
      (state = 1 → w.wm.toNat ≤ (s.rx a).toNat → Stalls s (.waitwm d a n)) ∧
      (state = 3 → w.wm.toNat ≤ (s.rx a).toNat → s.slot.inh = false → Traps s (.waitwm d a n) .wmFrozen (s.rx a)) ∧
      ((state ≠ 1 ∧ state ≠ 3) ∨ (s.rx a).toNat < w.wm.toNat → Becomes s (.waitwm d a n)
        { (s.slot.wx d (state.setWidth 64)).next with hidden := s.slot.hidden.map reached })))

/-! ## Copies -/

/-- R141, R316, R317, R318, R319, R320, R338, R340: a copy instruction captures the eight registers of its record. A record that
fails a check traps COPY_SPEC with the lowest code that it fails, 1 to 7, and nothing is appended; else a record is appended, or the slot stalls while the queue is full.
A CPT whose time is not later than now traps TIME_LATE in D2, and is marked late at the other levels. That check 3 does not
apply to CPS is the model's reading (assumption 35). -/
def Obligations.CopiesAreQueued : Prop :=
  ∀ (s : State) (b : RecBase) (i : Instr) (k : CopyKind),
    (i = .cp b ∧ k = .plain ∨ i = .cpt b ∧ k = .timed ∨ i = .cpr b ∧ k = .ring ∨ i = .cpg b ∧ k = .gather ∨
      i = .cps b ∧ k = .scatter ∨ i = .cpf b ∧ k = .fill ∨ (∃ m, i = .cpred b m ∧ k = .reduce m) ∨
      (∃ n d, i = .cppf b n d ∧ k = .prefetch)) →
    let base : XReg := match b with | .x8 => 8 | .x16 => 16 | .x24 => 24
    let ops : List W64 := [s.rx base, s.rx (base + 1), s.rx (base + 2), s.rx (base + 3), s.rx (base + 4), s.rx (base + 5),
      s.rx (base + 6), s.rx (base + 7)]
    let time := (s.rx (base + 7)).toNat / 65536
    let cyc := (s.rx (base + 7)).toNat % 65536
    let past := time < s.gstep.toNat % 2 ^ 48 ∨ time = s.gstep.toNat % 2 ^ 48 ∧ cyc ≤ s.scycOf s.cur.core s.level
    let w2 := s.rx (base + 2)
    let w3 := s.rx (base + 3)
    let w4 := s.rx (base + 4)
    let w5 := s.rx (base + 5)
    let w6 := s.rx (base + 6)
    let w7 := s.rx (base + 7)
    let tred := w2.extractLsb' 56 2
    let table : Prop := k = .gather ∨ k = .scatter
    let n1 := (w2.extractLsb' 20 12).toNat
    let n2 := (w2.extractLsb' 32 12).toNat
    let n3 := (w2.extractLsb' 44 12).toNat
    let s1 := (w3.extractLsb' 0 32).toInt
    let s2 := (w3.extractLsb' 32 32).toInt
    let s3 := (w4.extractLsb' 0 32).toInt
    let t1 := (w4.extractLsb' 32 32).toInt
    let t2 := (w5.extractLsb' 0 32).toInt
    let t3 := (w5.extractLsb' 32 32).toInt
    let acc : Prop := k = .reduce .acc ∨ k = .timed ∧ tred = 1
    let fp32 : Prop := k = .reduce .fp32 ∨ k = .timed ∧ tred = 2
    let l0 := (w2.extractLsb' 0 20).toNat
    ∀ e1 : Int, (acc → e1 = l0 + 2 * (l0 / 16 : Nat)) → (¬ acc → e1 = l0) →
    let e2 := n1 * t1 + e1
    let e3 := n2 * t2 + e2
    let e := n3 * t3 + e3
    let ring := s.here.rings[(w7.extractLsb' 0 2).toNat]'(w7.extractLsb' 0 2).isLt
    let odd : Int → Prop := fun v => acc ∧ v % 16 ≠ 0 ∨ fp32 ∧ v % 4 ≠ 0
    let c1 : Prop := w2.extractLsb' 58 6 ≠ 0 ∨ (tred ≠ 0 ∧ k ≠ .timed) ∨ tred = 3 ∨ (k ≠ .timed ∧ k ≠ .ring ∧ w7 ≠ 0) ∨
      (k = .ring ∧ w7.extractLsb' 2 62 ≠ 0) ∨ w6.extractLsb' 52 12 ≠ 0 ∨ w6.extractLsb' 19 2 = 3 ∨
      (k = .fill ∧ (w3 ≠ 0 ∨ w4.extractLsb' 0 32 ≠ 0))
    let c2 : Prop := l0 = 0 ∨ table ∧ (n2 ≠ 0 ∨ n3 ≠ 0)
    let c3 : Prop := k ≠ .scatter ∧ (n1 ≠ 0 ∧ t1 < e1 ∨ n2 ≠ 0 ∧ t2 < e2 ∨ n3 ≠ 0 ∧ t3 < e3)
    let c4 : Prop := (k = .gather ∧ w3.toNat % 8 ≠ 0) ∨ (k = .scatter ∧ w5.toNat % 8 ≠ 0) ∨ odd (s.rx base).toNat ∨
      odd (s.rx (base + 1)).toNat ∨ odd l0 ∨ (n1 ≠ 0 ∧ (odd s1 ∨ odd t1)) ∨ (n2 ≠ 0 ∧ (odd s2 ∨ odd t2)) ∨
      (n3 ≠ 0 ∧ (odd s3 ∨ odd t3))
    let c5 : Prop := w6.getLsbD 17 = true ∧ (k = .scatter ∨ k = .prefetch) ∨ k = .prefetch ∧ s.rx (base + 1) ≠ 0
    let c6 : Prop := k = .ring ∧ (s.rx (base + 1) ≠ 0 ∨ ring.nslot = 0 ∨ (ring.slotb.toNat : Int) < e)
    let c7 : Prop := k = .timed ∧ s.steplen ≤ cyc
    (s.copyCheck k ops = some 1 ↔ c1) ∧ (¬ c1 → (s.copyCheck k ops = some 2 ↔ c2)) ∧
    (¬ c1 → ¬ c2 → (s.copyCheck k ops = some 3 ↔ c3) ∧
      (¬ c3 → (s.copyCheck k ops = some 4 ↔ c4) ∧
        (¬ c4 → (s.copyCheck k ops = some 5 ↔ c5) ∧
          (¬ c5 → (s.copyCheck k ops = some 6 ↔ c6) ∧
            (¬ c6 → (s.copyCheck k ops = some 7 ↔ c7) ∧ (¬ c7 → s.copyCheck k ops = none)))))) ∧
    (∀ c, s.copyCheck k ops = some c → s.slot.inh = false → Traps s i .copySpec (BitVec.ofNat 64 c)) ∧
    (s.copyCheck k ops = none → k ≠ .timed ∨ ¬ past →
      Queues s i .copy ops [] { s.slot with issuedCopies := s.slot.issuedCopies + 1 }.next) ∧
    (s.copyCheck k ops = none → k = .timed → past → s.here.cq.full .copy = false →
      (s.level = 2 → s.slot.inh = false → TrapsOpen s i .timeLate) ∧
      (s.level ≠ 2 → ∃ t r, exec i s = .next t ∧ t.here.cq.recs = s.here.cq.recs ++ [r] ∧ r.late = true ∧ r.ops = ops ∧
        t.slot = { s.slot with late := true, issuedCopies := s.slot.issuedCopies + 1 }.next ∧ OthersKept s t ∧
        MemoryKept s t))

/-- R321, R336, R337, R341: the instructions on watermark registers and rings. WMRD reads two parts of a register; CPX cancels
the landing entry that holds one; RNGAW takes the next filled slot and joins its bytes (R207), stalls while there is none, and traps on a frozen one;
RNGREL releases a slot; RNGINIT sets a ring up; CPQ reads the state of the copy queue and clears LATE. -/
def Obligations.WatermarksAndRings : Prop :=
  ∀ (s : State) (d e : XReg) (n : BitVec 3) (r : BitVec 2),
    let w := s.here.wms[n.toNat]'n.isLt
    let k := s.here.rings[r.toNat]'r.isLt
    let withRing : Ring → Core := fun x => { s.here with rings := s.here.rings.set r.toNat x r.isLt }
    let addr := k.base + BitVec.ofNat 64 (k.acq % k.nslot.toNat * k.slotb.toNat)
    let inSlot : Hidden → Hidden := fun h =>
      if h.queue = 1 ∧ ((h.addr : Int) - addr.toNat) % 2 ^ 64 < k.slotb.toNat then { h with joined := true } else h
    let size := (s.rx e).extractLsb' 0 32
    let count := (s.rx e).extractLsb' 32 16
    let good : Prop := (s.rx d).toNat % 64 = 0 ∧ size.toNat % 64 = 0 ∧ 64 ≤ size.toNat ∧ size.toNat ≤ 1048576 ∧
      count ≠ 0 ∧ (s.rx e).extractLsb' 48 16 = 0
    Becomes s (.wmrd d e false n) ((s.slot.wx d w.wm).wx e w.stat).next ∧
    Becomes s (.wmrd d e true n) ((s.slot.wx d w.lo).wx e w.hi).next ∧
    ((∀ q, q ∈ s.here.cq.recs → ¬ (q.holdsWm = true ∧ cpWmi q.ops = n.toNat)) → Becomes s (.cpx n) s.slot.next) ∧
    (∀ q, s.here.cq.recs = [q] → q.holdsWm = true → cpWmi q.ops = n.toNat → q.instr ∉ [.cpr .x8, .cpr .x16, .cpr .x24] →
      w.stat.extractLsb' 0 3 = 1 → CoreBecomes s (.cpx n) { s.here with
        wms := s.here.wms.set n.toNat { w with stat := (w.stat &&& ~~~7#64) ||| 4 } n.isLt
        cq := { s.here.cq with recs := [{ q with fin := .cancelled, park := none }] } } s.slot.next) ∧
    (k.acq < k.fill → CoreBecomes s (.rngaw d r) (withRing { k with acq := k.acq + 1 })
      { (s.slot.wx d addr).next with hidden := s.slot.hidden.map inSlot }) ∧
    (k.fill ≤ k.acq → k.acq ∈ k.frozen → s.slot.inh = false → Traps s (.rngaw d r) .wmFrozen addr) ∧
    (k.fill ≤ k.acq → k.acq ∉ k.frozen → Stalls s (.rngaw d r)) ∧
    (k.rel < k.acq → CoreBecomes s (.rngrel r) (withRing { k with rel := k.rel + 1 }) s.slot.next) ∧
    (k.acq ≤ k.rel → s.slot.inh = false → Traps s (.rngrel r) .copySpec 8) ∧
    (good → (∀ q, q ∈ s.here.cq.recs → q.onRing r.toNat = false) → CoreBecomes s (.rnginit d e r)
      (withRing { base := s.rx d, slotb := size, nslot := count, alloc := 0, fill := 0, acq := 0, rel := 0, filled := [],
                  frozen := [] }) s.slot.next) ∧
    (good → (∃ q, q ∈ s.here.cq.recs ∧ q.onRing r.toNat = true) → Stalls s (.rnginit d e r)) ∧
    (¬ good → s.slot.inh = false → Traps s (.rnginit d e r) .copySpec 4) ∧
    (let mine := (s.here.cq.recs.filter fun q => q.uid == s.slot.uid && q.st != .ended).length
     let held := (s.here.cq.recs.filter fun q => q.st == .held).length
     Becomes s (.cpq d) ({ s.slot with late := false }.wx d (BitVec.ofNat 64
       (mine % 256 + (64 - s.here.cq.recs.length) * 256 + held * 65536 + (if s.slot.late then 4194304 else 0)))).next)

/-- R208, R319, R322, R323, R326, R327, R329, R330, R331, R332, R333, R334, R335, R336, R338, R389, R392: the copy engine, shown
on a queue of one entry whose cluster does not stand still. An entry of every kind that starts takes its watermark register
and, for CPR, its ring slot; a CPPF has then finished. A CPT is held until its time; at that time it starts, or in D2 breaks
the schedule where the barrier of its superstep has not passed. The next part of an entry that is no reduction lands: the
bytes read at its source, or the fill pattern, become visible at its destination but for those below the watermark, and the
landing position, the mark and the watermark move on; with the last row the entry finishes. A trap of an access freezes the
entry and is pending. A merge of FP32 or ACC128 adds its element at the home once, and a reduction's row has landed when its
elements have merged. An entry that has finished leaves the queue, is left to be reported if it froze, and with SEMEN
publishes what it wrote and signals its semaphore, 96 cycles, one for each four granules and one more before the way to the
home begins (R231; that it takes effect in exactly that cycle in D0 and D1 is the model's choice, assumption 23); a token
signal counts its token up at its end, and a token wait counts it
down once it is not 0. -/
def Obligations.CopyEngine : Prop :=
  ∀ (s : State) (g : Nat) (q : QRec) (kind : CopyKind), (s.core g).cq.recs = [q] → (s.core g).saving = false →
    s.clusterStopped (g / 4) = false → (s.core g).paused q.uid = false → q.bad = false →
    let c := s.core g
    let r : SlotRef := ⟨g, q.slot⟩
    let op : Nat → W64 := fun j => q.ops.getD j 0
    let l0 := ((op 2).extractLsb' 0 20).toNat
    let c1 := ((op 2).extractLsb' 20 12).toNat + 1
    let c2 := ((op 2).extractLsb' 32 12).toNat + 1
    let c3 := ((op 2).extractLsb' 44 12).toNat + 1
    let s1 := ((op 3).extractLsb' 0 32).toInt
    let s2 := ((op 3).extractLsb' 32 32).toInt
    let s3 := ((op 4).extractLsb' 0 32).toInt
    let t1 := ((op 4).extractLsb' 32 32).toInt
    let t2 := ((op 5).extractLsb' 0 32).toInt
    let t3 := ((op 5).extractLsb' 32 32).toInt
    let tred := (op 2).extractLsb' 56 2
    let w6 := op 6
    let wmen := w6.getLsbD 17
    let wmi := w6.extractLsb' 14 3
    let ring := (op 7).extractLsb' 0 2
    let acc : Prop := kind = .reduce .acc ∨ kind = .timed ∧ tred = 1
    let fp32 : Prop := kind = .reduce .fp32 ∨ kind = .timed ∧ tred = 2
    let is : Prop := (∃ b, q.instr = .cp b) ∧ kind = .plain ∨ (∃ b, q.instr = .cpt b) ∧ kind = .timed ∨
      (∃ b, q.instr = .cpr b) ∧ kind = .ring ∨ (∃ b, q.instr = .cpg b) ∧ kind = .gather ∨
      (∃ b, q.instr = .cps b) ∧ kind = .scatter ∨ (∃ b, q.instr = .cpf b) ∧ kind = .fill ∨
      (∃ b m, q.instr = .cpred b m ∧ kind = .reduce m) ∨ (∃ b n d, q.instr = .cppf b n d) ∧ kind = .prefetch
    let withCq : List QRec → Core := fun rs => { c with cq := { c.cq with recs := rs }, wdog := tdel c.wdog 1 }
    let begun : W64 → QRec := fun dst => { q with
      st := .running, started := true, dst := dst, order := q.order + 1
      rslot := (c.rings[ring.toNat]'ring.isLt).alloc, fin := if kind = .prefetch then .done else .no }
    let begunWm : W64 → Int → Wm := fun dst e =>
      { lo := dst, hi := dst + BitVec.ofInt 64 e, wm := dst, owner := (q.uid, q.ord)
        stat := (0#47 ++ (BitVec.ofBool (copyRed kind q.ops).isSome ++ ((w6.extractLsb' 21 8) ++ (0#2 ++
          (BitVec.ofNat 2 q.slot.val ++ (BitVec.ofBool q.late ++ 1#3))))) :
            BitVec (47 + (1 + (8 + (2 + (2 + (1 + 3))))))) }
    let taken : W64 → Int → Core → Core := fun dst e x =>
      if wmen then { x with wms := x.wms.set wmi.toNat (begunWm dst e) wmi.isLt } else x
    let claimed : Ring :=
      { (c.rings[ring.toNat]'ring.isLt) with alloc := (c.rings[ring.toNat]'ring.isLt).alloc + 1 }
    let onRing : Core → Core := fun x => { x with rings := x.rings.set ring.toNat claimed ring.isLt }
    -- tokens
    (∀ e tk, q.st = .running →
      (q.instr = .toksig e tk → ∃ t, Happens s (.copyEntryEnd g q.idx) t ∧ (t.core g).cq.recs = [] ∧
        t.slotAt r = (s.slotAt r).tokenUp tk ∧ (∀ p, p ≠ r → t.slotAt p = s.slotAt p) ∧ t.mem = s.mem) ∧
      (q.instr = .tokwait e tk → (s.slotAt r).token tk ≠ 0 → ∃ t, Happens s (.copyEntryEnd g q.idx) t ∧
        (t.core g).cq.recs = [] ∧ t.slotAt r = (s.slotAt r).tokenDown tk ∧ (∀ p, p ≠ r → t.slotAt p = s.slotAt p) ∧
        t.mem = s.mem) ∧
      (q.instr = .tokwait e tk → (s.slotAt r).token tk = 0 → Idle s (.copyEntryEnd g q.idx))) ∧
    (is →
    -- starting
    (∀ e : Int, e = (c3 - 1 : Nat) * t3 + ((c2 - 1 : Nat) * t2 + ((c1 - 1 : Nat) * t1 +
        (if copyRed kind q.ops = some .acc then l0 + 2 * (l0 / 16) else l0 : Nat))) →
      (q.st = .queued → kind ≠ .timed → kind ≠ .ring →
        Happens s (.copyEntryStart g) (s.setCore g (taken (op 1) e (withCq [begun (op 1)])))) ∧
      (q.st = .queued → kind = .ring →
        let k := c.rings[ring.toNat]'ring.isLt
        let dst := k.base + BitVec.ofNat 64 (k.alloc % k.nslot.toNat * k.slotb.toNat)
        (k.alloc - k.rel < k.nslot.toNat →
          Happens s (.copyEntryStart g) (s.setCore g (taken dst e (onRing (withCq [begun dst]))))) ∧
        (k.nslot.toNat ≤ k.alloc - k.rel → Idle s (.copyEntryStart g))) ∧
      (q.st = .queued → kind = .timed →
        s.timeReached g q.det.toNat (s.cptTime g q).1 (s.cptTime g q).2 = false →
        Happens s (.copyEntryStart g) (s.setCore g (withCq [{ q with st := .held }]))) ∧
      (q.st = .held → kind = .timed →
        (s.timeReached g q.det.toNat (s.cptTime g q).1 (s.cptTime g q).2 = false → Idle s (.cptRelease g)) ∧
        (s.timeReached g q.det.toNat (s.cptTime g q).1 (s.cptTime g q).2 = true →
          (q.det ≠ 2 ∨ (∃ b, (s.launchOf r).barrier = some b ∧ b % 2 ^ 48 ≤ (s.cptTime g q).1) →
            Happens s (.cptRelease g) (s.setCore g (taken (op 1) e (withCq [begun (op 1)])))) ∧
          (q.det = 2 → (s.launchOf r).barrier = none → q.started = false →
            (s.slotAt r).evTraps.all (fun x => x.cause != .schedBreak) = true →
            ∃ t p, Happens s (.cptRelease g) t ∧ (t.core g).cq.recs = [] ∧ t.mem = s.mem ∧ t.overlay = s.overlay ∧
              t.slotAt r = { s.slotAt r with evTraps := (s.slotAt r).evTraps ++ [p], stalled := false } ∧
              p.cause = .schedBreak ∧ p.tval = 6)))) ∧
    -- landing a part of an entry that is no reduction
    (q.st = .running → q.started = true → q.fin = .no → q.park = none → kind ≠ .prefetch → ¬ acc → ¬ fp32 →
      ∀ (off : Int) (s0 : State),
      (kind ≠ .gather ∧ kind ≠ .scatter ∧ off = 0 ∧ s0 = s ∨
        ∃ tb bs, (kind = .gather ∧ tb = (op 3).toNat ∨ kind = .scatter ∧ tb = (op 5).toNat) ∧
          s.copySpan r .read q.srcMode ((tb + 8 * q.row : Nat) : Int) 8 = .ok bs s0 ∧
          off = (BitVec.ofNat 64 (natOfBytes (bs.map fun b => s0.engByte r b.2))).toInt) →
      let i1 : Int := (q.row % c1 : Nat)
      let i2 : Int := (q.row / c1 % c2 : Nat)
      let i3 : Int := (q.row / (c1 * c2) : Nat)
      let src : Int := (op 0).toNat + (match kind with
        | .gather => off
        | .scatter => (q.row : Int) * s1
        | _ => i1 * s1 + i2 * s2 + i3 * s3) + q.off
      let rowAt : Nat → Int := fun j => (q.dst.toNat : Int) + (match kind with
        | .gather => (j : Int) * t1
        | .scatter => 0
        | _ => (j % c1 : Nat) * t1 + (j / c1 % c2 : Nat) * t2 + (j / (c1 * c2) : Nat) * t3)
      let dst : Int := rowAt q.row + (if kind = .scatter then off else 0) + q.off
      let toGranule : Int → Nat → Nat := fun a n =>
        ((a % 2 ^ 64).toNat + n + 63) / 64 * 64 - (a % 2 ^ 64).toNat
      let n := min (toGranule dst (4096 * (q.off / 4096 + 1) - q.off)) (l0 - q.off)
      let rows := if kind = .gather ∨ kind = .scatter then c1 else c1 * c2 * c3
      let w := c.wms[wmi.toNat]'wmi.isLt
      let past : W64 → Bool := fun a => decide ((w.wm - w.lo).toNat ≤ (a - w.lo).toNat)
      let row := if l0 ≤ q.off + n then q.row + 1 else q.row
      let pos := if l0 ≤ q.off + n then 0 else q.off + n
      let finished := decide (rows ≤ row)
      let next := BitVec.ofInt 64 (rowAt row + pos)
      let w' : Wm := if finished then { w with wm := w.hi, stat := (w.stat &&& ~~~7#64) ||| 2 }
        else if past next then { w with wm := next } else w
      let ended : Finish := if finished then .done else .no
      let lands : List (Nat × Nat) → (Nat → Nat → Byte) → List Byte → State → Prop := fun ds data left v =>
        ∃ t q', Happens s (.copyRowLanded g q.idx) t ∧ t.mem = v.mem ∧
          (∀ j va loc, ds[j]? = some (va, loc) → wmen = false ∨ past (BitVec.ofNat 64 va) = true →
            (∀ i x, i ≠ j → ds[i]? = some x → x.2 ≠ loc) → ∀ h, t.vis h loc = data va j) ∧
          (∀ h a, (∀ x, x ∈ ds → x.2 ≠ a ∨ wmen = true ∧ past (BitVec.ofNat 64 x.1) = false) → t.vis h a = v.vis h a) ∧
          (t.core g).cq.recs = [q'] ∧ q' = { q with
            row := row, off := pos, carry := left, fin := ended, mrow := q'.mrow, moff := q'.moff } ∧
          (finished = true ∨ (q.row * l0 + q.off) / 4096 ≠ (row * l0 + pos) / 4096 → q'.mrow = row ∧ q'.moff = pos) ∧
          (wmen = true → kind ≠ .scatter → (t.core g).wms = c.wms.set wmi.toNat w' wmi.isLt) ∧
          (wmen = false → (t.core g).wms = c.wms) ∧
          (kind = .ring → finished = true → (c.rings[ring.toNat]'ring.isLt).fill = q.rslot →
            (c.rings[ring.toNat]'ring.isLt).filled = [] →
            ((t.core g).rings[ring.toNat]'ring.isLt).fill = q.rslot + 1) ∧
          ∀ p, (t.slotAt p).x = (s.slotAt p).x ∧ (t.slotAt p).pend = (s.slotAt p).pend
      let met : Cause → Nat → PendTrap := fun x va =>
        { cause := x, tval := BitVec.ofNat 64 va, word := q.instr.encode, qent := BitVec.ofNat 8 q.idx, orig := 2
          freeze := true }
      let freezes : Cause → Nat → State → Prop := fun x va v =>
        ∃ t q', Happens s (.copyRowLanded g q.idx) t ∧ t.mem = v.mem ∧ t.overlay = v.overlay ∧
          (t.core g).cq.recs = [q'] ∧ q'.fin = .frozen ∧ q'.row = q.row ∧ q'.off = q.off ∧
          (wmen = true → kind ≠ .scatter → q.row < rows →
            let here := BitVec.ofInt 64 (rowAt q.row + q.off)
            (t.core g).wms = c.wms.set wmi.toNat { w with
              wm := if past here then here else w.wm, stat := (w.stat &&& ~~~7#64) ||| 3 } wmi.isLt) ∧
          ((s.slotAt r).engTraps.all (fun z => z.orig != 2) = true →
            Stops s (met x va) (s.slotAt r).engTraps (t.slotAt r).engTraps)
      (kind = .fill → ∀ ds v, s0.copySpan r .write q.dstMode dst n = .ok ds v →
        lands ds (fun va _ => (op 0).extractLsb' (8 * (va % 8)) 8) [] v) ∧
      (kind = .fill → ∀ x va v, s0.copySpan r .write q.dstMode dst n = .trap x va v → freezes x va v) ∧
      (kind ≠ .fill →
        let m := min (toGranule src n) (l0 - q.off) - q.carry.length
        (∀ x va v, s0.copySpan r .read q.srcMode (src + q.carry.length) m = .trap x va v → freezes x va v) ∧
        (∀ bs u, s0.copySpan r .read q.srcMode (src + q.carry.length) m = .ok bs u →
          let data := q.carry ++ bs.map fun b => u.engByte r b.2
          (∀ x va v, u.copySpan r .write q.dstMode dst n = .trap x va v → freezes x va v) ∧
          (∀ ds v, u.copySpan r .write q.dstMode dst n = .ok ds v → lands ds (fun _ j => data.getD j 0) (data.drop n) v)))) ∧
    -- merging an element of a reduction, and the landing of its row
    (q.st = .running → q.started = true → q.fin = .no → q.park = none → q.off = 0 → acc ∨ fp32 → 0 < l0 → l0 ≤ 4096 →
      let i1 : Int := (q.row % c1 : Nat)
      let i2 : Int := (q.row / c1 % c2 : Nat)
      let i3 : Int := (q.row / (c1 * c2) : Nat)
      let src := (((op 0).toNat + i1 * s1 + i2 * s2 + i3 * s3) % 2 ^ 64).toNat
      let dst := (((q.dst.toNat : Int) + i1 * t1 + i2 * t2 + i3 * t3) % 2 ^ 64).toNat
      let size := if copyRed kind q.ops = some .acc then 16 else 4
      let j := q.merged - q.row * (l0 / size)
      (q.row * (l0 / size) ≤ q.merged → q.merged < (q.row + 1) * (l0 / size) → s.mem.wf = true →
        (∀ o, o ∈ s.overlay → o.uid ≠ q.uid) → src % 16 = 0 → dst % 16 = 0 → l0 % size = 0 →
        src + 2 * l0 < 2 ^ 64 → dst + 2 * l0 < 2 ^ 64 →
        (∀ u v a1 a2, fp32 → s.check r (src + 4 * j) 4 .read q.srcMode = .ok a1 u →
          u.check r (dst + 4 * j) 4 .both q.dstMode = .ok a2 v → s.bridge = true ∨ hostLoc a2 = false →
          ∃ t q', Happens s (.reductionMerge g) t ∧
            t.peek a2 4 = ((fmtOf .f32).write .rne false
              (Machine.Num.add .rne ((fmtOf .f32).read false (v.peek a2 4))
                ((fmtOf .f32).read false (natOfBytes ((List.range 4).map fun i => v.engByte r (a1 + i))))).1).1 % 2 ^ 32 ∧
            (∀ a, ¬ (a2 ≤ a ∧ a < a2 + 4) → t.mem.get a = v.mem.get a) ∧
            (t.core g).cq.recs = [q'] ∧ q' = { q with merged := q.merged + 1 }) ∧
        (∀ u1 u2 u3 v a1 a2 a3 a4, acc → s.check r (src + 16 * j) 16 .read q.srcMode = .ok a1 u1 →
          u1.check r (src + l0 + 2 * j) 2 .read q.srcMode = .ok a2 u2 →
          u2.check r (dst + 16 * j) 16 .both q.dstMode = .ok a3 u3 →
          u3.check r (dst + l0 + 2 * j) 2 .both q.dstMode = .ok a4 v → a4 + 2 ≤ a3 ∨ a3 + 16 ≤ a4 →
          s.bridge = true ∨ hostLoc a3 = false →
          let read : Nat → Nat → Nat := fun a n => natOfBytes ((List.range n).map fun i => v.engByte r (a + i))
          let sum := (Acc.ofPlanes (v.peek a3 16) (v.peek a4 2)).merge (Acc.ofPlanes (read a1 16) (read a2 2))
          ∃ t q', Happens s (.reductionMerge g) t ∧ t.peek a3 16 = sum.plane ∧ t.peek a4 2 = sum.side ∧
            (∀ a, ¬ (a3 ≤ a ∧ a < a3 + 16) → ¬ (a4 ≤ a ∧ a < a4 + 2) → t.mem.get a = v.mem.get a) ∧
            (t.core g).cq.recs = [q'] ∧ q' = { q with merged := q.merged + 1 })) ∧
      (q.merged < (q.row + 1) * (l0 / size) → Idle s (.copyRowLanded g q.idx)) ∧
      (q.merged = (q.row + 1) * (l0 / size) → ∃ t q', Happens s (.copyRowLanded g q.idx) t ∧ t.mem = s.mem ∧
        t.overlay = s.overlay ∧ (t.core g).cq.recs = [q'] ∧ q'.row = q.row + 1 ∧ q'.off = 0 ∧ q'.merged = q.merged ∧
        q'.fin = (if c1 * c2 * c3 ≤ q.row + 1 then .done else .no))) ∧
    -- ending
    (q.st = .running → q.fin ≠ .no → (s.slotAt r).occ = true → (s.slotAt r).uid = q.uid →
      ∃ t, Happens s (.copyEntryEnd g q.idx) t ∧ (t.core g).cq.recs = [] ∧ (∀ p, (t.slotAt p).x = (s.slotAt p).x) ∧
        (q.fin = .frozen → wmen = true →
          (t.slotAt r).frozen = (s.slotAt r).frozen ++ [(q.ord, (c.wms[wmi.toNat]'wmi.isLt).wm)]) ∧
        (q.fin ≠ .frozen → (t.slotAt r).frozen = (s.slotAt r).frozen) ∧
        (w6.getLsbD 18 = false → t.mem = s.mem ∧ t.overlay = s.overlay ∧ t.dies = s.dies ∧ t.outbox = s.outbox) ∧
        (w6.getLsbD 18 = true → s.semCheckFor (c.context.getD 0) q.det.toNat (w6 &&& 0x000FFFFFE0003FFF) = none →
          w6.extractLsb' 32 20 = s.devid →
          let home := (w6.extractLsb' 29 3).toNat
          ∃ o : SemOp, (t.die home).inbox = insertSem o (s.die home).inbox ∧
            o = { index := (w6.extractLsb' 0 14).toNat, kind := .sig 1, core := g, slot := q.slot, uid := q.uid
                  queue := c.context.getD 0, gen := q.gen, dev := s.devid, due := o.due } ∧
            s.refclk + 109 + 20 * hops (g / 96) home ≤ o.due ∧
            (s.overlay = [] → t.mem = s.mem ∧ o.due = s.refclk + 109 + 20 * hops (g / 96) home) ∧
            (s.mem.wf = true → ∀ a x xs, s.overlay.filter (fun o => o.loc == a) = x :: xs → x.uid = q.uid →
              x.eng = some (1, q.ord) → t.mem.get a = x.byte ∧ ∀ h, t.vis h a = x.byte))))


/-! ## Matrix -/

/-- R287, R306, R307, R308, R309, R310, R311, R312, R313: the matrix instructions at issue. MXCFG and MXANC write the
shadow table; every other one appends a record with its captured operands and table, or traps MX_SPEC with the code of
the first check of R291, R308 or R311 that fails; reduced service has the pairs of BF16 and FP32 alone (R428). R291: the
checks of a table, each code, 1 to 8, on tables that pass the checks before it. -/
def Obligations.MatrixInstructions : Prop :=
  (∀ (s : State) (a b : XReg) (f : BitVec 4) (n : BitVec 7),
    let w3 := s.slot.mxtab[3]
    let table := s.slot.mxtab.toList
    let out : Int := match f.toNat with | 1 | 5 => 512 | 2 | 3 => 256 | 4 => 128 | _ => 2048
    let queues : Instr → List W64 → List (BitVec 128) → Prop := fun i ops t =>
      Queues s i .mx ops t { s.slot with issuedMxs := s.slot.issuedMxs + 1 }.next
    let spec : Instr → Nat → Prop := fun i c => s.slot.inh = false → Traps s i .mxSpec (BitVec.ofNat 64 c)
    Becomes s (.mxcfg a b f) { s.slot with mxtab := s.slot.mxtab.set f.toNat (s.rx b ++ s.rx a) f.isLt }.next ∧
    Becomes s (.mxanc a) { s.slot with
      mxtab := s.slot.mxtab.set 3
        (w3.extractLsb' 24 104 ++ ((s.rx a).extractLsb' 0 16 ++ w3.extractLsb' 0 8) : BitVec (104 + (16 + 8))) }.next ∧
    queues .mxswp [] [] ∧ queues .mxclr [] [] ∧ queues (.mxmrk a b) [] [] ∧
    (∀ g : Bool, let go : Instr := if g then .mxgog else .mxgo
      (s.mxCheck table g = none → queues go [] table) ∧ (∀ c, s.mxCheck table g = some c → spec go c)) ∧
    (let none : Prop := 7 ≤ f.toNat ∨ s.service = 1 ∧ f ≠ 4 ∧ f ≠ 6
     (none → spec (.mxldw a f) 1 ∧ spec (.mxldwScaled a b f) 1) ∧
     (¬ none →
      (f = 0 → spec (.mxldw a f) 5) ∧ (4 ≤ f.toNat → spec (.mxldwScaled a b f) 5) ∧
      (f ≠ 0 → (s.rx a).toNat % 64 ≠ 0 → spec (.mxldw a f) 6) ∧
      (f.toNat ≤ 3 → (s.rx a).toNat % 64 ≠ 0 ∨ (s.rx b).toNat % 4 ≠ 0 → spec (.mxldwScaled a b f) 6) ∧
      (f ≠ 0 → (s.rx a).toNat % 64 = 0 → queues (.mxldw a f) [s.rx a, 0] []) ∧
      (f.toNat ≤ 3 → (s.rx a).toNat % 64 = 0 → (s.rx b).toNat % 4 = 0 → queues (.mxldwScaled a b f) [s.rx a, s.rx b] []))) ∧
    (f = 0 ∨ 7 ≤ f.toNat → spec (.mxsta a b n f) 1) ∧
    (f ≠ 0 → f.toNat < 7 →
      (let fits : Prop := (s.rx a).toNat % 64 = 0 ∧ (n = 0 ∨ out ≤ (s.rx b).toInt.natAbs)
       (¬ fits → spec (.mxsta a b n f) 6) ∧ (fits → queues (.mxsta a b n f) [s.rx a, s.rx b] [])))) ∧
  (∀ (s : State) (t : List (BitVec 128)) (g : Bool),
    let w : Nat → BitVec 128 := fun j => t.getD j 0
    let count : Nat → Nat := fun l => ((w (4 + l)).extractLsb' 0 16).toNat
    let role : Nat → BitVec 4 := fun l => (w (4 + l)).extractLsb' 16 4
    let pair := ((w 3).extractLsb' 0 4).toNat
    let out := ((w 3).extractLsb' 4 4).toNat
    let clvl := ((w 3).extractLsb' 24 3).toNat
    let rows := ((w 3).extractLsb' 27 7).toNat + 1
    let c1 : Prop := (w 3).extractLsb' 37 3 ≠ 0 ∨ (w 3).extractLsb' 51 77 ≠ 0 ∨ 7 ≤ pair ∨ 7 ≤ out ∨ clvl = 0 ∨ clvl = 7 ∨
      5 ≤ ((w 3).extractLsb' 34 3).toNat ∨ (∃ l, l < 6 ∧ ((w (4 + l)).extractLsb' 20 12 ≠ 0 ∨ 4 ≤ (role l).toNat)) ∨
      (∃ j, 10 ≤ j ∧ j < 16 ∧ w j ≠ 0) ∨ s.service = 1 ∧ pair ≠ 4 ∧ pair ≠ 6
    let c2 : Prop := role 0 ≠ 3 ∨ (∃ l, 1 ≤ l ∧ l < 6 ∧ role l = 3) ∨ ∃ l, l < 6 ∧ count l = 0
    let c3 : Prop := rows < count 0 ∨ (w 4).extractLsb' 64 32 ≠ 0
    let c4 : Prop := (clvl = 6 ∧ ∃ l, l < 6 ∧ role l = 1) ∨
      (clvl ≠ 6 ∧ (role clvl ≠ 1 ∨ ∃ l, l < 6 ∧ ((1 ≤ l ∧ l < clvl ∧ role l = 1) ∨ (clvl < l ∧ role l = 2))))
    let astr : Nat → Int := fun l => ((w (4 + l)).extractLsb' 32 32).toInt
    let bstr : Nat → Int := fun l => ((w (4 + l)).extractLsb' 64 32).toInt
    let cstr : Nat → Int := fun l => ((w (4 + l)).extractLsb' 96 32).toInt
    let rowBytes := match out with | 1 | 5 => 512 | 2 | 3 => 256 | 4 => 128 | 6 => 2048 | _ => 0
    let cycles := match pair with | 4 | 5 => 2 | 6 => 8 | _ => 1
    let c6 : Prop := (∃ j, j < 3 ∧ ((w j).toNat % 2 ^ 64 % (if j = 2 then 4 else 64) ≠ 0 ∨
        (w j).toNat / 2 ^ 64 % (if j = 0 then 64 else if j = 1 then 32 else 4) ≠ 0)) ∨
      (∃ l, l < 6 ∧ (astr l % 64 ≠ 0 ∨ bstr l % 64 ≠ 0 ∨ cstr l % 64 ≠ 0)) ∨ (1 < rows ∧ (cstr 0).natAbs < rowBytes)
    let c7 : Prop := 2 ^ 18 < (List.range (if clvl = 6 then 5 else clvl - 1)).foldl (fun a l => a * count (l + 1))
      (count 0 * cycles)
    let c8 : Prop := (w 3).getLsbD 49 = true ∧ (g = true ∨ ∃ l, l < 6 ∧ (role l = 2 ∨ bstr l ≠ 0))
    let c5 : Prop := ((w 3).getLsbD 48 = false ∧ pair = 0) ∨ ((w 3).getLsbD 48 = true ∧ 4 ≤ pair)
    (s.mxCheck t g = some 1 ↔ c1) ∧ (¬ c1 → (s.mxCheck t g = some 2 ↔ c2)) ∧
    (¬ c1 → ¬ c2 → (s.mxCheck t g = some 3 ↔ c3)) ∧ (¬ c1 → ¬ c2 → ¬ c3 → (s.mxCheck t g = some 4 ↔ c4)) ∧
    (¬ c1 → ¬ c2 → ¬ c3 → ¬ c4 → (s.mxCheck t g = some 5 ↔ c5) ∧
      (¬ c5 → (s.mxCheck t g = some 6 ↔ c6) ∧ (¬ c6 → (s.mxCheck t g = some 7 ↔ c7) ∧
        (¬ c7 → (s.mxCheck t g = some 8 ↔ c8) ∧ (¬ c8 → s.mxCheck t g = none))))))

/-- R282, R284, R286, R290, R292, R294, R303, R309, R312, R313: the matrix engine, shown on a queue of one entry. An entry that
exchanges the planes, clears the committed bank or reads the mark ends as it starts; a nest starts with U cleared, or a copy
of the committed bank with KEEP; a loaded plane, with its scales, is in the shadow plane; a pass of MXGO adds to each cell of U
the products of its row and column, of every pair, with the scales where they apply; a commit stores U in every OUTFMT, makes it
the committed bank, writes the mark and clears the other bank; MXSTA stores rows of the committed bank. R112, R285: the products.
R113 to R117: what an ACC128 element makes of an addend, of another element and of its planes, and the exact value that a
conversion out of it rounds. R105 to R108, R110: the value of a TF8 code, the code nearest to a value, and the quantisation of
a block. -/
def Obligations.MatrixEngine : Prop :=
  (∀ (s : State) (g : Nat) (q : QRec), (s.core g).mq.recs = [q] → (s.core g).saving = false → q.park = none → q.bad = false →
    s.clusterStopped (g / 4) = false → (s.core g).paused q.uid = false →
    let c := s.core g
    let r : SlotRef := ⟨g, q.slot⟩
    let t := q.table
    let w3 := t.getD 3 0
    let popped : Core := { c with mq := { c.mq with recs := [], head := c.mq.tail }, mrun := none, wdog := tdel c.wdog 2 }
    let bank := if c.upperCommitted then c.upper else c.lower
    let count : Nat → BitVec 16 := fun l => (t.getD (4 + l) 0).extractLsb' 0 16
    let pair := (w3.extractLsb' 0 4).toNat
    let out := (w3.extractLsb' 4 4).toNat
    let anchor := (w3.extractLsb' 8 16).toInt
    let clvl := (w3.extractLsb' 24 3).toNat
    let rpb := (w3.extractLsb' 27 7).toNat + 1
    let scl := w3.getLsbD 48
    let hold := w3.getLsbD 49
    let base : Nat → Nat → Nat := fun j at_ => ((t.getD j 0).extractLsb' at_ 64).toNat
    let str : Nat → Nat → Int := fun at_ l => ((t.getD (4 + l) 0).extractLsb' at_ 32).toInt
    let off : Nat → List Nat → Int := fun at_ i => ((List.range 5).map fun l => (i.getD l 0 : Int) * str at_ (l + 1)).sum
    let kp : Nat → Nat := fun p => if p = 3 then 256 else 128
    let abits : Nat → Nat := fun p => match p with | 3 => 4 | 4 | 5 => 16 | 6 => 32 | _ => 8
    let wbits : Nat → Nat := fun p => match p with | 2 | 3 => 4 | 4 | 5 => 16 | 6 => 32 | _ => 8
    let distinct : List (Int × Nat) → (Nat → List Nat) → Prop := fun spans locs =>
      ((List.range spans.length).flatMap locs).Nodup
    (c.mrun = none →
      (q.instr = .mxswp →
        Happens s (.matrixEntryStart g) (s.setCore g { popped with active := c.shadow, shadow := c.active })) ∧
      (q.instr = .mxclr → Happens s (.matrixEntryStart g) (s.setCore g
        (if c.upperCommitted then { popped with upper := [] } else { popped with lower := [] }))) ∧
      (∀ a b, q.instr = .mxmrk a b → ∃ u, Happens s (.matrixEntryStart g) u ∧ u.mem = s.mem ∧ (u.core g).mq.recs = [] ∧
        (∀ p, p ≠ r → u.slotAt p = s.slotAt p) ∧
        u.slotAt r = (let m := if c.nestRun then c.nestMark else 0
          ((s.slotAt r).wx a (m.extractLsb' 0 64)).wx b (m.extractLsb' 64 64))) ∧
      ((q.instr = .mxgo → q.mark = 0 → count 5 ≠ 0 → ∃ u m, Happens s (.matrixEntryStart g) u ∧ (u.core g).mrun = some m ∧
        m.idx = [0, 0, 0, 0, 0] ∧ m.passed = false ∧ m.loaded = w3.getLsbD 49 ∧ m.u = (if w3.getLsbD 50 then bank else []) ∧
        (u.core g).nestRun = true ∧ (u.core g).nestMark = 0 ∧ (u.core g).nestAnchor = w3.extractLsb' 8 16 ∧ u.mem = s.mem ∧
        ∀ p, u.slotAt p = s.slotAt p)) ∧
      (∀ a b n f v locs, q.instr = .mxsta a b n f → f ≠ 0 → f.toNat < 7 →
        let spans := bankSpans f.toNat (n.toNat + 1) (q.ops.getD 0 0).toNat (q.ops.getD 1 0).toInt
        BankChecks s v r spans locs → distinct spans locs →
        ∃ u, Happens s (.matrixEntryStart g) u ∧ (u.core g).mq.recs = [] ∧ (∀ p, (u.slotAt p).x = (s.slotAt p).x) ∧
          u.mem = v.mem ∧ BankSeen u v bank f.toNat (if c.nestRun then c.nestAnchor.toInt else 0) spans locs)) ∧
    -- loading a plane, for MXLDW or for the next pass of a nest
    (∀ m (p : BitVec 4) (src sc : W64) (scaled : Bool) bs v ss v2, c.mrun = some m → p.toNat < 7 →
      let ldw : Prop := (∃ a, q.instr = .mxldw a p) ∧ scaled = false ∧ src = q.ops.getD 0 0 ∨
        (∃ a b, q.instr = .mxldwScaled a b p) ∧ scaled = true ∧ src = q.ops.getD 0 0 ∧ sc = q.ops.getD 1 0
      let nest : Prop := q.instr = .mxgo ∧ m.loaded = false ∧ m.passed = false ∧ m.idx.getD 4 0 < (count 5).toNat ∧
        c.active.stale = false ∧ c.shadow.stale = false ∧ p.toNat = pair ∧ scaled = scl ∧
        src = BitVec.ofInt 64 (base 0 64 + off 64 m.idx) ∧
        sc = BitVec.ofInt 64 (base 2 64 + off 64 m.idx / (if pair = 2 ∨ pair = 3 then 16 else 32))
      ldw ∨ nest → s.copySpan r .read mxMode src.toNat (kp p.toNat * 16 * wbits p.toNat) = .ok bs v →
      (scaled = true → v.copySpan r .read mxMode sc.toNat (kp p.toNat / 32 * 128) = .ok ss v2) →
      (scaled = false → v2 = v ∧ ss = []) →
      ∃ u, Happens s (.planeLoadDone g) u ∧ (u.core g).active = c.active ∧ u.mem = v2.mem ∧
        (∀ p, (u.slotAt p).x = (s.slotAt p).x) ∧
        (let pl := (u.core g).shadow
         pl.pair = p ∧ pl.src = src ∧ pl.scaled = scaled ∧ pl.stale = false ∧ (scaled = true → pl.scaleSrc = sc) ∧
         (∀ k, k < bs.length → tget 0 pl.data k = v.engByte r ((bs.map (·.2)).getD k 0)) ∧
         ∀ k, k < ss.length → tget 0 pl.scales k = v2.engByte r ((ss.map (·.2)).getD k 0)) ∧
        (ldw → (u.core g).mq.recs = [] ∧ (u.core g).mrun = none) ∧
        (nest → (u.core g).mrun = some { m with loaded := true })) ∧
    -- a pass
    (∀ m, q.instr = .mxgo → c.mrun = some m → m.loaded = true → m.passed = false → c.active.stale = false →
      c.shadow.stale = false → s.ownsWindow g q.det.toNat = true → pair < 7 →
      let n := (count 0).toNat
      let rel : Nat → Int := fun i => off 32 m.idx + i * str 32 0
      let pl := if hold then c.active else c.shadow
      ∀ (vs : Nat → State) (xs ss : Nat → List (Nat × Nat)), vs 0 = s →
        (∀ i, i < n → (vs i).copySpan r .read mxMode (base 0 0 + rel i) (kp pair * abits pair / 8) = .ok (xs i) (vs (i + 1))) →
        (scl = true → ∀ i, i < n → (vs (n + i)).copySpan r .read mxMode (base 2 0 + rel i / (if pair = 3 then 16 else 32))
          (kp pair / 32) = .ok (ss i) (vs (n + i + 1))) →
      let x : Nat → Nat → Machine.Num := fun i k => exactOf pair false (codeAt (abits pair) k fun j =>
        (vs (i + 1)).engByte r (((xs i).map (·.2)).getD j 0))
      let y : Nat → Nat → Machine.Num := fun k col =>
        exactOf pair true (codeAt (wbits pair) (128 * k + col) fun j => tget 0 pl.data j)
      let sx : Nat → Nat → Byte := fun i k =>
        if scl then (vs (n + i + 1)).engByte r (((ss i).map (·.2)).getD (k / 32) 0) else 0
      let sy : Nat → Nat → Byte := fun k col => if scl then tget 0 pl.scales (128 * (k / 32) + col) else 0
      ∃ u m', Happens s (.matrixPass g) u ∧ (u.core g).mrun = some m' ∧ m'.loaded = hold ∧
        (∀ i col, i < n → col < 128 → tget Acc.cleared m'.u (128 * i + col) = (List.range (kp pair)).foldl (fun acc k =>
          acc.add anchor (scaledProduct pair (x i k) (sx i k) (y k col) (sy k col))) (tget Acc.cleared m.u (128 * i + col))) ∧
        (∀ j, 128 * n ≤ j → tget Acc.cleared m'.u j = tget Acc.cleared m.u j) ∧
        (let last : Prop := ∀ l, l < (if clvl = 6 then 5 else clvl - 1) → m.idx.getD l 0 + 1 = (count (l + 1)).toNat
         (last → m'.passed = true ∧ m'.idx = m.idx) ∧
         (¬ last → m'.passed = false ∧ ∀ nx, NextPass (fun l => (count l).toNat) m.idx nx → m'.idx = nx)) ∧
        (u.core g).active = (if hold then c.active else c.shadow) ∧
        (u.core g).shadow = (if hold then c.shadow else c.active) ∧
        (u.core g).upper = c.upper ∧ (u.core g).lower = c.lower ∧ u.mem = (vs (if scl then 2 * n else n)).mem) ∧
    -- a commit
    (∀ m nx v locs, q.instr = .mxgo → c.mrun = some m → m.passed = true → c.active.stale = false → c.shadow.stale = false →
      NextPass (fun l => (count l).toNat) m.idx nx →
      let ended : Prop := (count 5).toNat ≤ nx.getD 4 0
      m.loaded = true ∨ ended → out < 7 →
      let spans := bankSpans out rpb (base 1 0 + off 96 m.idx) (str 96 0)
      BankChecks s v r spans locs → distinct spans locs →
      let mark := (0#30 ++ (BitVec.ofBool (!c.upperCommitted) ++ (1#1 ++ (q.mark.extractLsb' 80 16 + 1 ++
        (BitVec.ofNat 16 (nx.getD 4 0) ++ (BitVec.ofNat 16 (nx.getD 3 0) ++ (BitVec.ofNat 16 (nx.getD 2 0) ++
          (BitVec.ofNat 16 (nx.getD 1 0) ++ BitVec.ofNat 16 (nx.getD 0 0)))))))) :
            BitVec (30 + (1 + (1 + (16 + (16 + (16 + (16 + (16 + 16)))))))))
      ∃ u, Happens s (.matrixCommit g) u ∧
        (ended → (u.core g).mq.recs = [] ∧ (u.core g).mrun = none) ∧
        (¬ ended → (u.core g).mq.recs = [{ q with mark := mark, park := none }] ∧
          (u.core g).mrun = some { m with idx := nx, passed := false, block := 0, u := [] }) ∧
        (u.core g).upperCommitted = !c.upperCommitted ∧
        (u.core g).upper = (if c.upperCommitted then [] else m.u) ∧
        (u.core g).lower = (if c.upperCommitted then m.u else []) ∧
        (u.core g).nestMark = mark ∧ u.mem = v.mem ∧ BankSeen u v m.u out anchor spans locs)) ∧
  -- ACC128
  (∀ (x y : Acc) (w : Int) (n : Bool) (m : Nat) (e b q : Int),
    let near := max (-((2 : Int) ^ 126)) (min q (2 ^ 126))
    let p : Int := (if n then -1 else 1) * (m * 2 ^ (e - b).toNat : Nat)
    let v := x.a.toInt
    (∀ sig, x.add w (.nan sig) = { x with nan := true, ne := true, anz := false }) ∧
    x.add w (.inf n) = { x with pinf := x.pinf || !n, ninf := x.ninf || n, ne := true, anz := false } ∧
    (b ≤ e → b ≤ w - 100 → q * 2 ^ (w - 100 - b).toNat ≤ p → p < (q + 1) * 2 ^ (w - 100 - b).toNat →
      x.add w (.fin n m e) = { x with
        a := x.a + BitVec.ofInt 136 near, ov := x.ov || decide (q ≠ near), ne := true, anz := x.anz && (n && m == 0) }) ∧
    x.merge y = { a := x.a + y.a, nan := x.nan || y.nan, pinf := x.pinf || y.pinf, ninf := x.ninf || y.ninf, ov := x.ov || y.ov
                  anz := x.anz && y.anz, ne := x.ne || y.ne } ∧
    x.plane = x.a.toNat % 2 ^ 128 ∧ x.side % 256 = x.a.toNat / 2 ^ 128 ∧ x.side < 2 ^ 14 ∧
    (x.side.testBit 8 = x.nan ∧ x.side.testBit 9 = x.pinf ∧ x.side.testBit 10 = x.ninf ∧ x.side.testBit 11 = x.ov ∧
      x.side.testBit 12 = x.anz ∧ x.side.testBit 13 = x.ne) ∧
    Acc.ofPlanes x.plane x.side = x ∧
    x.num w = (if x.nan = true ∨ x.pinf = true ∧ x.ninf = true then .nan false
      else if x.pinf then .inf false else if x.ninf then .inf true
      else if x.ov = true ∨ 2 ^ 127 ≤ v ∨ v < -(2 ^ 127) then .inf (decide (v < 0))
      else if v = 0 then .fin (x.anz && x.ne) 0 0 else .fin (decide (v < 0)) v.natAbs (w - 100)) ∧
    (∀ f, x.toFmt w f = ((fmtOf f).write .rne false (x.num w)).1) ∧
    ∀ lo hi, x.toInt w lo hi = if (x.num w).isNan then 0 else ((x.num w).toIntBounded .rne lo hi).1) ∧
  -- TF8
  tf8Read 0 = .fin false 0 0 ∧
  (∀ c, 0 < c → c < 256 → tf8Read c = if c = 128 then .nan false else .fin (decide (128 ≤ c)) (tf8Mag (c % 128)).1 (tf8Mag (c % 128)).2) ∧
  (∀ (n : Bool) (m : Nat) (e b : Int),
    let x := m * 2 ^ (e - b).toNat
    let u : Nat → Nat := fun c => (tf8Mag c).1 * 2 ^ ((tf8Mag c).2 - b).toNat
    let far : Nat → Nat := fun c => (x - u c) + (u c - x)
    tf8Write (.nan n) = (0x80, if n then flNV else 0) ∧ tf8Write (.inf n) = (b2n n * 128 + 3, flOF ||| flNX) ∧
    tf8Write (.fin n 0 e) = (0, 0) ∧
    (0 < m → b ≤ e → b ≤ -7 →
      (u 3 < x → tf8Write (.fin n m e) = (b2n n * 128 + 3, flOF ||| flNX)) ∧
      (x ≤ u 3 → ∀ c, c < 128 → (∀ c', c' < 128 → c' ≠ c → far c < far c' ∨ far c = far c' ∧ tf8Wins c c') →
        tf8Write (.fin n m e) = (if c = 0 then 0 else b2n n * 128 + c,
          if c = 0 then flUF ||| flNX else if x = u c then 0 else flNX)))) ∧
  ∀ (xs : List Machine.Num) (b : Int),
    let big : Machine.Num → Int → Prop := fun x k => ∃ n m e, x = .fin n m e ∧ 2 ^ (k - b).toNat ≤ m * 2 ^ (e - b).toNat
    ((∃ x, x ∈ xs ∧ (x.isNan = true ∨ x.isInf = true)) →
      quantBlock xs = (0x80, xs.map fun _ => 0, if xs.any (fun x => x.isSig || x.isInf) then flNV else 0)) ∧
    ((∀ x, x ∈ xs → x.isZero = true) → quantBlock xs = (0, xs.map fun _ => 0, 0)) ∧
    ((∀ x, x ∈ xs → ∃ n m e, x = .fin n m e ∧ b ≤ e) → (∃ x, x ∈ xs ∧ x.isZero = false) →
      ∀ k : Int, b ≤ k + 5 → -127 ≤ k → (∀ x, x ∈ xs → ¬ big x (k + 6)) → (k = -127 ∨ ∃ x, x ∈ xs ∧ big x (k + 5)) →
        let codes := xs.map fun x => match x with | .fin n m e => tf8Write (.fin n m (e - k)) | z => tf8Write z
        quantBlock xs = ((k % 256).toNat, codes.map (·.1), (codes.foldl (fun a c => a ||| c.2) 0) &&& (flNX ||| flUF)))

/-! ## The vector engine -/

/-- R123, R126, R127, R134, R136, R141, R248, R261: every vector instruction at issue: classes 0x8 to 0xB but VSETT. A vector
register at or above VREGS raises ILLEGAL with its number, a type not legal ILLEGAL, a latch not filled STALE_LATCH; else a record
is appended with the captured scalars, and a latch push is counted; known addresses must be aligned (here none is in a window,
and with a mask no entry of the slot is in flight). The lowest of several such registers in TVAL, and the order register, type,
latch, addresses, are assumption 12. -/
def Obligations.VectorInstructions : Prop :=
  ∀ (s : State) (i : Instr) (d : VDesc),
    let type := vcfgType (s.slot.vcfg.setWidth 8)
    vdesc i type = some d →
    let named := d.dst.toList ++ d.a.toList ++ d.b.toList
    let high : Nat → Prop := fun n => s.here.vregs ≤ n ∧ ∃ g, g ∈ named ∧ g.1.toNat < 48 ∧ g.1.toNat ≤ n ∧ n < g.1.toNat + g.2
    let stale : Prop := ∃ g, g ∈ named ∧ 48 ≤ g.1.toNat ∧ s.slot.pushes ≤ g.1.toNat - 48
    let queues : Prop := Queues s i .vec (d.xs.map s.rx) [] 
      { s.slot with pushes := s.slot.pushes + (if d.push then 1 else 0), issuedVecs := s.slot.issuedVecs + 1 }.next
    let active : Nat → Bool := fun j => !d.mkd || (s.slot.rm (vcfgMask (s.slot.vcfg.setWidth 8))).getLsbD (j % 1024)
    (∀ n, high n → (∀ m, high m → n ≤ m) → s.slot.inh = false → Traps s i .illegal (BitVec.ofNat 64 n)) ∧
    ((∀ n, ¬ high n) → d.ok = false → s.slot.inh = false → Traps s i .illegal 0) ∧
    ((∀ n, ¬ high n) → d.ok = true → stale → s.slot.inh = false → TrapsOpen s i .staleLatch) ∧
    ((∀ n, ¬ high n) → d.ok = true → ¬ stale →
      (vmemOf i = none → queues) ∧
      (∀ k, vmemOf i = some k → k.byVec = true → queues) ∧
      (∀ k, vmemOf i = some k → k.byVec = false →
        (d.mkd = true → ∀ q, q ∈ s.here.vq.recs → q.uid ≠ s.slot.uid ∨ q.st = .ended) →
        let addr : Nat → Nat := k.addr type (s.rx (d.xs.getD 0 0)) (s.rx (d.xs.getD 1 0)) fun _ => 0
        ((∀ j, j < d.g * vcount type → active j = true → addr j % elemBytes type = 0 ∧ isWindow (addr j) = false) → queues) ∧
        (∀ j, j < d.g * vcount type → active j = true → addr j % elemBytes type ≠ 0 →
          (∀ m, m < j → active m = true → addr m % elemBytes type = 0) → s.slot.inh = false →
          Traps s i .misaligned (BitVec.ofNat 64 (addr j)))))

/-- R251, R265, R266: the type classes that each instruction accepts, and the pairs of VCVT; any other type raises
ILLEGAL. R247, R428: VSETT writes VCFG; in reduced service the types TF8, FP16, I4 and N4 raise ILLEGAL. -/
def Obligations.VectorTypes : Prop :=
  (∀ (s : State) (d a b : BitVec 6) (x : BitVec 5) (k : BitVec 3) (w : BitVec 2) (n m : Bool) (i : Instr) (legal : VType → Bool),
    let int : VType → Bool := fun t => [VType.i8, .n8, .i16, .n16, .i32, .n32].contains t
    let float : VType → Bool := fun t => [VType.fp32, .bf16, .fp16].contains t
    let rows : List (List Instr × (VType → Bool)) := [
      ([.vadd d a b w n m, .vsub d a b w n m, .vmul d a b w n m, .vfma d a b w n m, .vmin d a b w n m, .vmax d a b w n m,
        .vabs d a w n m, .vneg d a w n m, .vclamp d a b w n m, .vredsum d a n m, .vredmax d a n m, .vredmin d a n m,
        .vscan d a n m, .vexpmax x a m, .vacc d a b m, .vacccvt d a n m, .vaddScalar d a x w n m, .vsubScalar d a x w n m,
        .vmulScalar d a x w n m, .vfmaScalar d a x w n m, .vminScalar d a x w n m, .vmaxScalar d a x w n m,
        .vclampScalar d a x w n m, .vcmpeq k a b 0 m, .vcmpne k a b 0 m, .vcmplt k a b 0 m, .vcmple k a b 0 m,
        .vcmpeqScalar k a x 0 m, .vcmpneScalar k a x 0 m, .vcmpltScalar k a x 0 m, .vcmpleScalar k a x 0 m],
        fun t => int t || float t),
      ([.vshl d a b w n m, .vshr d a b w n m, .vsra d a b w n m, .vavg d a b w n m, .vsadd d a b w n m, .vssub d a b w n m,
        .vmulh d a b w n m, .viota d k w n m, .vshlScalar d a x w n m, .vshrScalar d a x w n m, .vsraScalar d a x w n m,
        .vavgScalar d a x w n m, .vsaddScalar d a x w n m, .vssubScalar d a x w n m, .vmulhScalar d a x w n m,
        .vcmpltn k a b 0 m, .vcmplen k a b 0 m, .vcmpltnScalar k a x 0 m, .vcmplenScalar k a x 0 m], int),
      ([.vaddw d a b w n m, .vsubw d a b w n m, .vmulw d a b w n m, .vdotw d a b w n m, .vaddwScalar d a x w n m,
        .vsubwScalar d a x w n m, .vmulwScalar d a x w n m, .vdotwScalar d a x w n m],
        fun t => [VType.i8, .n8, .i16, .n16, .bf16, .fp16].contains t),
      ([.vperm d a b w n m, .vldg d x b w n m, .vstg d x b w m],
        fun t => [VType.i16, .n16, .i32, .n32, .fp32, .bf16, .fp16].contains t),
      ([.vlds d x x w n m, .vsts d x x w m], fun t => !([VType.i4, .n4].contains t)),
      ([.vround d a w n m, .vexp2 d a w n m, .vlog2 d a w n m, .vexp d a w n m, .vlog d a w n m, .vrcp d a w n m,
        .vrsq d a w n m, .vsqrt d a w n m, .vtanh d a w n m, .vsigm d a w n m, .vsin d a w n m, .vcos d a w n m,
        .vdiv d a b w n m], float),
      ([.vand d a b w n m, .vor d a b w n m, .vxor d a b w n m, .vandn d a b w n m, .vsel d a b w n, .vmovv d a w n m,
        .vrot d a x w n m, .vslideup d a x w n m, .vslidedn d a x w n m, .vzip d a b w n m, .vunzip d a w n m,
        .vbcast d x w n m, .vins d x x w n m, .vext x a x w, .vcompress d a k w n, .vld d x x w n m, .vst d x x w m,
        .vandScalar d a x w n m, .vorScalar d a x w n m, .vxorScalar d a x w n m, .vandnScalar d a x w n m, .vmand k k k m,
        .vmor k k k m, .vmxor k k k m, .vmnot k k m, .vmpop x k m, .vmfirst x k m, .vqnt d a x n, .vdqnt d a x n,
        .vrng d a x n], fun _ => true),
      ([.vnarrow d a x w n m], fun t => [VType.i8, .n8, .i16, .n16, .i4, .n4].contains t)]
    let pairs : VType → List VType := fun t => match t with
      | .i8 => [.n8, .i16, .n16, .bf16, .fp16, .i4, .n4] | .n8 => [.i8, .i16, .n16, .bf16, .fp16, .i4, .n4]
      | .i16 => [.n16, .i8, .n8, .i32, .n32, .fp32, .bf16, .fp16] | .n16 => [.i16, .i8, .n8, .i32, .n32, .fp32, .bf16, .fp16]
      | .i32 => [.n32, .i16, .n16, .fp32, .bf16, .fp16] | .n32 => [.i32, .i16, .n16, .fp32, .bf16, .fp16]
      | .fp32 => [.bf16, .fp16, .i32, .n32, .i16, .n16]
      | .bf16 => [.fp16, .fp32, .i8, .n8, .i16, .n16, .i32, .n32, .tf8]
      | .fp16 => [.bf16, .fp32, .i8, .n8, .i16, .n16, .i32, .n32, .tf8]
      | .tf8 => [.bf16, .fp16] | .i4 => [.i8, .n8] | .n4 => [.i8, .n8]
    (∀ src t, w ≠ 3 → a.toNat < 48 → a.toNat % 16 = 0 → d.toNat % 16 = 0 →
      ∃ e, vdesc (.vcvt d a src w n m) t = some e ∧ e.ok = (pairs src).contains t) ∧
    ((∃ row, row ∈ rows ∧ i ∈ row.1 ∧ legal = row.2) →
      (∀ t, ∃ e, vdesc i t = some e ∧ e.ok = legal t) ∧
      (legal (vcfgType (s.slot.vcfg.setWidth 8)) = false → s.here.vregs = 48 → s.slot.inh = false → i.wf = true →
        Traps s i .illegal 0))) ∧
  (∀ (s : State) (t : VType) (z : Bool) (k : BitVec 3),
    let code : BitVec 4 := match t with
      | .i8 => 0 | .n8 => 1 | .i16 => 2 | .n16 => 3 | .i32 => 4 | .n32 => 5 | .fp32 => 6 | .bf16 => 7 | .fp16 => 8
      | .tf8 => 9 | .i4 => 10 | .n4 => 11
    let left := s.service = 1 ∧ (t = .tf8 ∨ t = .fp16 ∨ t = .i4 ∨ t = .n4)
    (¬ left → Becomes s (.vsett t z k)
      { s.slot with vcfg := (0#56 ++ (BitVec.ofBool z ++ (k ++ code)) : BitVec (56 + (1 + (3 + 4)))) }.next) ∧
    (left → s.slot.inh = false → Traps s (.vsett t z k) .illegal 0))

/-- R249 to R276, R119 to R123: the vector engine, shown on a queue of one entry that is not stopped. Every register form of
classes 0x8 to 0xB starts with the result that its rule gives, element by element; a load starts with the elements that it
reads, and a store with the bytes that it will write, once every active element has passed its checks. At its end an entry
writes its registers and bytes, raises its flags, of which an enabled one leaves an FP trap pending (R102), and a push moves the
latches on; an entry that met a trap writes nothing,
leaves the trap pending, and takes the slot's later entries with it. R122: the special values of the special functions, and the
results that R121 fixes exactly; of the results that R121 leaves within a distance, `specResult` is the model's choice
(assumption 4). The first output of VSCAN is its input as it stands (assumption 96). That VMIN, VMAX, VCLAMP, VABS, VNEG, VREDMAX
and VREDMIN flush operands and not results is the model's reading (assumption 18), as are the mask of VZIP and VUNZIP by the
destination's element (assumption 77) and the half of a byte that a masked 4-bit VST leaves (assumption 15); what the rules leave
open of VQNT, VCVT, VACCCVT and the order of the address checks is its choice (assumption 101). -/
def Obligations.VectorEngine : Prop :=
  (∀ (s : State) (g : Nat) (q : QRec), (s.core g).vq.recs = [q] → (s.core g).saving = false → q.park = none → q.bad = false →
    s.clusterStopped (g / 4) = false → (s.core g).paused q.uid = false → (s.core g).vrun = none →
    ∀ (d a b : BitVec 6) (x y : XReg) (k k2 k3 : PReg) (W : BitVec 2) (n m : Bool) (ty : VType)
      (B : Nat → BitVec (vwidth (vcfgType q.vcfg))),
    let r : SlotRef := ⟨g, q.slot⟩
    let l := s.slotAt r
    let t := vcfgType q.vcfg
    let w := vwidth t
    let G := 2 ^ W.toNat
    let L := G * (4096 / w)
    let x0 := q.ops.getD 0 0
    let x1 := q.ops.getD 1 0
    let rm := rmOf q.rm.toNat
    let A : Nat → BitVec w := l.elem w a
    let signed : VType → Bool := fun u => [VType.i8, .i16, .i32, .i4].contains u
    let val : VType → (j : Nat) → BitVec j → Int := fun u _ v => if signed u then v.toInt else v.toNat
    let low : VType → Int := fun u => if signed u then -(2 ^ (vwidth u - 1)) else 0
    let high : VType → Int := fun u => if signed u then 2 ^ (vwidth u - 1) - 1 else 2 ^ vwidth u - 1
    let sat : VType → Int → Int := fun u i => max (low u) (min (high u) i)
    let num : FFmt → (j : Nat) → BitVec j → Machine.Num := fun f _ v => (fmtOf f).read (flushIn q.fz f) v.toNat
    let round : FFmt → Machine.Num × Fl → Nat × Fl := fun f e =>
      (((fmtOf f).write rm (flushOut q.fz f) e.1).1, e.2 ||| ((fmtOf f).write rm (flushOut q.fz f) e.1).2)
    let keep : FFmt → Machine.Num × Fl → Nat × Fl := fun f e =>
      (((fmtOf f).write .rne false e.1).1, e.2 ||| ((fmtOf f).write .rne false e.1).2)
    let abs : Machine.Num → Machine.Num := fun v => match v with | .fin _ i e => .fin false i e | .inf _ => .inf false | v => v
    let is : Instr → Instr → Prop := fun v sc => q.instr = v ∧ B = l.elem w b ∨ q.instr = sc ∧ B = fun _ => x0.setWidth w
    let puts : (Nat → BitVec w × Fl) → Prop := VecGroup s s g q d n (W == 0) m w G id
    let all : (Nat → BitVec w) → Prop := fun f => puts fun i => (f i, 0)
    let ints : (Nat → BitVec w) → Prop := fun f => vint t = true → all f
    let floats : (FFmt → Nat → Nat × Fl) → Prop := fun f => ∀ fm, vfloat t = some fm →
      puts fun i => (BitVec.ofNat w (f fm i).1, (f fm i).2)
    let narrow : List VType := [.i8, .n8, .i16, .n16]
    let wide : (Nat → BitVec (2 * w) × Fl) → Prop :=
      VecGroup s s g q d n false m (2 * w) (2 * G) fun j => j % (4096 / (2 * w)) * (2 * G) + j / (4096 / (2 * w))
    let widens : (Int → Int → Int) → (Machine.Num → Machine.Num → Machine.Num × Fl) → Prop := fun f h =>
      (narrow.contains t = true → wide fun i => (BitVec.ofInt (2 * w) (f (val t w (A i)) (val t w (B i))), 0)) ∧
      ∀ fm, vfloat t = some fm → w = 16 → wide fun i =>
        (BitVec.ofNat (2 * w) (round .f32 (h (num fm w (A i)) (num fm w (B i)))).1,
          (round .f32 (h (num fm w (A i)) (num fm w (B i)))).2)
    let compares : (Nat → Bool) → (Machine.Num → Machine.Num → Bool × Fl) → Prop := fun f h =>
      (vint t = true → VecMask s g q k m L fun i => (f i, 0)) ∧
      ∀ fm, vfloat t = some fm → VecMask s g q k m L fun i => h (num fm w (A i)) (num fm w (B i))
    let un : Machine.Num → Machine.Num → Bool := fun u v => u.isNan || v.isNan
    let quiet : Machine.Num → Machine.Num → Fl := fun u v => if u.isSig || v.isSig then flNV else 0
    let any : Machine.Num → Machine.Num → Fl := fun u v => if un u v then flNV else 0
    let bits2 : (Bool → Bool → Bool) → Prop := fun f =>
      VecMask s g q k m 1024 fun i => (f ((l.rm k2.toNat).getLsbD i) ((l.rm k3.toNat).getLsbD i), 0)
    let counted : List Nat := (List.range 1024).filter fun i => (l.rm k2.toNat).getLsbD i && l.acts q m i
    let acts : List Nat := (List.range (4096 / w)).filter (l.acts q m)
    let exact : Nat → Machine.Num := fun i => match vfloat t with
      | some f => (fmtOf f).read false (A i).toNat
      | none => Machine.Num.ofInt (val t w (A i))
    -- R253, R256: arithmetic that keeps the width
    (is (.vadd d a b W n m) (.vaddScalar d a x W n m) → ints (fun i => A i + B i) ∧
      floats fun f i => round f (Machine.Num.add rm (num f w (A i)) (num f w (B i)))) ∧
    (is (.vsub d a b W n m) (.vsubScalar d a x W n m) → ints (fun i => A i - B i) ∧
      floats fun f i => round f (Machine.Num.add rm (num f w (A i)) (num f w (B i)).flip)) ∧
    (is (.vmul d a b W n m) (.vmulScalar d a x W n m) → ints (fun i => A i * B i) ∧
      floats fun f i => round f (Machine.Num.mul (num f w (A i)) (num f w (B i)))) ∧
    (is (.vfma d a b W n m) (.vfmaScalar d a x W n m) → ints (fun i => A i * B i + l.elem w d i) ∧
      floats fun f i => round f (Machine.Num.fma rm (num f w (A i)) (num f w (B i)) (num f w (l.elem w d i)))) ∧
    (is (.vmin d a b W n m) (.vminScalar d a x W n m) →
      ints (fun i => if val t w (A i) ≤ val t w (B i) then A i else B i) ∧
      floats fun f i => keep f (Machine.Num.minmax false (num f w (A i)) (num f w (B i)))) ∧
    (is (.vmax d a b W n m) (.vmaxScalar d a x W n m) →
      ints (fun i => if val t w (A i) ≤ val t w (B i) then B i else A i) ∧
      floats fun f i => keep f (Machine.Num.minmax true (num f w (A i)) (num f w (B i)))) ∧
    (q.instr = .vabs d a W n m → ints (fun i => if val t w (A i) < 0 then -(A i) else A i) ∧
      floats fun f i => keep f (abs (num f w (A i)), 0)) ∧
    (q.instr = .vneg d a W n m → ints (fun i => -(A i)) ∧ floats fun f i => keep f ((num f w (A i)).flip, 0)) ∧
    (is (.vand d a b W n m) (.vandScalar d a x W n m) → all fun i => A i &&& B i) ∧
    (is (.vor d a b W n m) (.vorScalar d a x W n m) → all fun i => A i ||| B i) ∧
    (is (.vxor d a b W n m) (.vxorScalar d a x W n m) → all fun i => A i ^^^ B i) ∧
    (is (.vandn d a b W n m) (.vandnScalar d a x W n m) → all fun i => A i &&& ~~~(B i)) ∧
    (is (.vshl d a b W n m) (.vshlScalar d a x W n m) → ints fun i => A i <<< ((B i).toNat % w)) ∧
    (is (.vshr d a b W n m) (.vshrScalar d a x W n m) → ints fun i => A i >>> ((B i).toNat % w)) ∧
    (is (.vsra d a b W n m) (.vsraScalar d a x W n m) → ints fun i => (A i).sshiftRight ((B i).toNat % w)) ∧
    (is (.vavg d a b W n m) (.vavgScalar d a x W n m) →
      ints fun i => BitVec.ofInt w ((val t w (A i) + val t w (B i) + 1) / 2)) ∧
    (is (.vsadd d a b W n m) (.vsaddScalar d a x W n m) →
      ints fun i => BitVec.ofInt w (sat t (val t w (A i) + val t w (B i)))) ∧
    (is (.vssub d a b W n m) (.vssubScalar d a x W n m) →
      ints fun i => BitVec.ofInt w (sat t (val t w (A i) - val t w (B i)))) ∧
    (is (.vmulh d a b W n m) (.vmulhScalar d a x W n m) →
      ints fun i => BitVec.ofInt w (val t w (A i) * val t w (B i) / 2 ^ w)) ∧
    (is (.vclamp d a b W n m) (.vclampScalar d a x W n m) →
      let top : Nat → BitVec w := fun i => if val t w (l.elem w d i) ≤ val t w (A i) then A i else l.elem w d i
      ints (fun i => if val t w (top i) ≤ val t w (B i) then top i else B i) ∧
      floats fun f i =>
        let e := Machine.Num.minmax true (num f w (l.elem w d i)) (num f w (A i))
        let o := Machine.Num.minmax false e.1 (num f w (B i))
        keep f (o.1, e.2 ||| o.2)) ∧
    -- R254, R255: widening arithmetic
    (is (.vaddw d a b W n m) (.vaddwScalar d a x W n m) → widens (fun u v => u + v) (Machine.Num.add rm)) ∧
    (is (.vsubw d a b W n m) (.vsubwScalar d a x W n m) →
      widens (fun u v => u - v) (fun u v => Machine.Num.add rm u v.flip)) ∧
    (is (.vmulw d a b W n m) (.vmulwScalar d a x W n m) → widens (fun u v => u * v) Machine.Num.mul) ∧
    (is (.vdotw d a b W n m) (.vdotwScalar d a x W n m) →
      let sums : (Nat → BitVec (2 * w) × Fl) → Prop := VecGroup s s g q d n (W == 0) m (2 * w) G fun j => 2 * j
      (narrow.contains t = true → sums fun i => (l.elem (2 * w) d (i / 2) + BitVec.ofInt (2 * w)
        (val t w (A i) * val t w (B i) + val t w (A (i + 1)) * val t w (B (i + 1))), 0)) ∧
      ∀ fm, vfloat t = some fm → w = 16 → sums fun i =>
        let p := Machine.Num.mul (num fm w (A i)) (num fm w (B i))
        let p1 := Machine.Num.mul (num fm w (A (i + 1))) (num fm w (B (i + 1)))
        let e := Machine.Num.add rm p.1 p1.1
        let o := Machine.Num.add rm (num .f32 (2 * w) (l.elem (2 * w) d (i / 2))) e.1
        let z := round .f32 (o.1, p.2 ||| p1.2 ||| e.2 ||| o.2)
        (BitVec.ofNat (2 * w) z.1, z.2)) ∧
    -- R257, R258: compares, selection and masks
    (is (.vcmpeq k a b W m) (.vcmpeqScalar k a x W m) → compares (fun i => A i == B i)
      fun u v => (!un u v && !(u.lt v) && !(v.lt u), quiet u v)) ∧
    (is (.vcmpne k a b W m) (.vcmpneScalar k a x W m) → compares (fun i => A i != B i)
      fun u v => (un u v || u.lt v || v.lt u, quiet u v)) ∧
    (is (.vcmplt k a b W m) (.vcmpltScalar k a x W m) → compares (fun i => decide (val t w (A i) < val t w (B i)))
      fun u v => (!un u v && u.lt v, any u v)) ∧
    (is (.vcmple k a b W m) (.vcmpleScalar k a x W m) → compares (fun i => decide (val t w (A i) ≤ val t w (B i)))
      fun u v => (!un u v && !(v.lt u), any u v)) ∧
    (is (.vcmpltn k a b W m) (.vcmpltnScalar k a x W m) → vint t = true → VecMask s g q k m L fun i => ((A i).ult (B i), 0)) ∧
    (is (.vcmplen k a b W m) (.vcmplenScalar k a x W m) → vint t = true →
      VecMask s g q k m L fun i => ((A i).ule (B i), 0)) ∧
    (q.instr = .vsel d a b W n → VecGroup s s g q d n (W == 0) false w G id fun i =>
      (if l.acts q true i then A i else l.elem w b i, 0)) ∧
    (q.instr = .vmand k k2 k3 m → bits2 fun u v => u && v) ∧ (q.instr = .vmor k k2 k3 m → bits2 fun u v => u || v) ∧
    (q.instr = .vmxor k k2 k3 m → bits2 fun u v => u != v) ∧ (q.instr = .vmnot k k2 m → bits2 fun u _ => !u) ∧
    (q.instr = .vmpop x k2 m → VecScalar s g q x (BitVec.ofNat 64 counted.length)) ∧
    (q.instr = .vmfirst x k2 m →
      VecScalar s g q x (match counted with | [] => BitVec.allOnes 64 | i :: _ => BitVec.ofNat 64 i)) ∧
    -- R259: permutes
    (q.instr = .vperm d a b W n m → all fun i => if L ≤ (l.elem w b i).toNat then 0 else A (l.elem w b i).toNat) ∧
    (q.instr = .vrot d a x W n m → all fun i => A ((i + x0.toNat) % L)) ∧
    (q.instr = .vslideup d a x W n m → 
      ∃ C : Nat → BitVec w, (n = false → C = l.elem w d) ∧ all fun i => if x0.toNat ≤ i then A (i - x0.toNat) else C i) ∧
    (q.instr = .vslidedn d a x W n m → all fun i => if i + x0.toNat < L then A (i + x0.toNat) else 0) ∧
    (q.instr = .vzip d a b W n m → VecGroup s s g q d n false m w (2 * G) id fun i =>
      (if i % 2 = 0 then A (i / 2) else l.elem w b (i / 2), 0)) ∧
    (q.instr = .vunzip d a W n m → VecGroup s s g q d n false m w (2 * G) id fun i =>
      (if i < L then A (2 * i) else A (2 * (i - L) + 1), 0)) ∧
    (q.instr = .vbcast d x W n m → all fun _ => x0.setWidth w) ∧
    (q.instr = .vins d x y W n m → 
      ∃ C : Nat → BitVec w, (n = false → C = l.elem w d) ∧ all fun i => if i = x1.toNat then x0.setWidth w else C i) ∧
    (q.instr = .vext x a y W →
      VecScalar s g q x (if L ≤ x0.toNat then 0 else BitVec.ofInt 64 (val t w (A x0.toNat)))) ∧
    (q.instr = .vcompress d a k W n → VecGroup s s g q d n (W == 0) false w G id fun i =>
      ((((List.range L).filter fun j => (l.rm k.toNat).getLsbD (j % 1024)).map A).getD i 0, 0)) ∧
    (q.instr = .viota d k W n m → ints fun i =>
      BitVec.ofNat w (((List.range (i % 1024)).filter fun j => (l.rm k.toNat).getLsbD j).length + 1024 * (i / 1024))) ∧
    (q.instr = .vmovv d a W n m → all A) ∧
    -- R265 to R269: conversions and quantisation
    (q.instr = .vcvt d a ty W n m → W ≠ 3 ∨ vwidth ty = w → vcvtOk ty t = true →
      let v : Nat → BitVec (vwidth ty) := l.elem (vwidth ty) a
      let bits : Nat × Fl → BitVec w × Fl := fun o => (BitVec.ofNat w o.1, o.2)
      let elem : Nat → BitVec w × Fl := fun i =>
        match vfloat ty, vfloat t with
        | some f, some h => bits (round h (num f _ (v i), 0))
        | some f, none =>
          if t = .tf8 then bits (tf8Write (num f _ (v i)))
          else
            let o := (num f _ (v i)).toIntBounded rm (low t) (high t)
            (BitVec.ofInt w o.1, o.2)
        | none, some h =>
          if ty = .tf8 then bits (keep h (tf8Read (v i).toNat, 0))
          else bits (round h (Machine.Num.ofInt (val ty _ (v i)), 0))
        | none, none => (BitVec.ofInt w (val ty _ (v i)), 0)
      (w = vwidth ty → puts elem) ∧
      (w = 2 * vwidth ty → VecGroup s s g q d n false m w (2 * G)
        (fun j => j % (4096 / w) * (2 * G) + j / (4096 / w)) elem) ∧
      (vwidth ty = 2 * w → puts fun i => elem (i % (2 * G) * (4096 / vwidth ty) + i / (2 * G)))) ∧
    (q.instr = .vnarrow d a x W n m → narrow.contains t = true ∨ t = .i4 ∨ t = .n4 →
      let sh := x0.toNat % 64
      all fun i =>
        let e := l.elem (2 * w) a (i % (2 * G) * (4096 / (2 * w)) + i / (2 * G))
        let v : Int := if signed t then e.toInt else e.toNat
        BitVec.ofInt w (sat t (if sh = 0 then v else (v + 2 ^ (sh - 1)) / 2 ^ sh))) ∧
    (q.instr = .vround d a W n m → floats fun f i => match num f w (A i) with
      | .nan sig => ((fmtOf f).canonNan, if sig then flNV else 0)
      | .inf neg => ((fmtOf f).infBits neg, 0)
      | .fin neg j e => if j = 0 ∨ 0 ≤ e then (keep f (.fin neg j e, 0)) else
          (((fmtOf f).write .rne false (.fin neg (roundInt rm neg j e).1.natAbs 0)).1, 0)) ∧
    (q.instr = .vqnt d a x n →
      let block : Nat → Nat × List Nat × Fl := fun j =>
        quantBlock ((List.range 32).map fun i => num .f32 32 (l.elem 32 a (32 * j + i)))
      VecStarts s s g q fun o => ∃ (v : VWord) (lo hi : W64),
        o = { VRun.empty with
          vregs := if n then [] else [(d.toNat, v)], xregs := [(x.toNat, lo), (x.toNat + 1, hi)], flags := o.flags } ∧
        VecFlags (fun _ => true) id 16 (fun j => (block j).2.2) o.flags ∧
        ∀ j, j < 16 →
          ((if j < 8 then lo else hi).extractLsb' (8 * (j % 8)) 8).toNat = (block j).1 % 256 ∧
          ∀ i, i < 32 → (v.extractLsb' (8 * (32 * j + i)) 8).toNat = (block j).2.1.getD i 0 % 256) ∧
    (q.instr = .vdqnt d a x n →
      VecGroup s s g q d n false false 32 4 id fun i =>
        let sc := if i / 32 < 8 then x0.extractLsb' (8 * (i / 32)) 8 else x1.extractLsb' (8 * (i / 32 - 8)) 8
        let o := if sc = 0x80 then ((fmtOf .f32).canonNan, 0) else
          (fmtOf .f32).write rm (flushOut q.fz .f32) ((tf8Read (l.elem 8 a i).toNat).scale sc.toInt)
        (BitVec.ofNat 32 o.1, o.2)) ∧
    -- R270: special functions
    (∀ fn, (fn, q.instr) ∈ [(SpecFn.exp2, Instr.vexp2 d a W n m), (.log2, .vlog2 d a W n m), (.exp, .vexp d a W n m),
        (.log, .vlog d a W n m), (.rcp, .vrcp d a W n m), (.rsq, .vrsq d a W n m), (.sqrt, .vsqrt d a W n m),
        (.tanh, .vtanh d a W n m), (.sigm, .vsigm d a W n m), (.sin, .vsin d a W n m), (.cos, .vcos d a W n m)] →
      floats fun f i => specResult fn f rm q.fz (A i).toNat) ∧
    (q.instr = .vdiv d a b W n m → floats fun f i =>
      (fmtOf f).div rm (flushOut q.fz f) (num f w (A i)) (num f w (l.elem w b i))) ∧
    -- R120, R271, R272: reductions and the scan
    (let zero : BitVec w := match vfloat t with | some f => BitVec.ofNat w ((fmtOf f).zeroBits true) | none => 0
     let least : BitVec w := match vfloat t with | some f => BitVec.ofNat w ((fmtOf f).infBits true) | none => BitVec.ofInt w (low t)
     let most : BitVec w := match vfloat t with | some f => BitVec.ofNat w ((fmtOf f).infBits false) | none => BitVec.ofInt w (high t)
     let sum : BitVec w → BitVec w → BitVec w × Fl := fun u v => match vfloat t with
       | some f => (BitVec.ofNat w (round f (Machine.Num.add rm (num f w u) (num f w v))).1,
           (round f (Machine.Num.add rm (num f w u) (num f w v))).2)
       | none => (u + v, 0)
     let side : Bool → BitVec w → BitVec w → BitVec w × Fl := fun wantMax u v => match vfloat t with
       | some f => (BitVec.ofNat w (keep f (Machine.Num.minmax wantMax (num f w u) (num f w v))).1,
           (keep f (Machine.Num.minmax wantMax (num f w u) (num f w v))).2)
       | none => (if decide (val t w u ≤ val t w v) == wantMax then v else u, 0)
     let tree : BitVec w → (BitVec w → BitVec w → BitVec w × Fl) → Prop := fun idle f =>
       ∃ node : Nat → Nat → BitVec w × Fl, (∀ i, i < 4096 / w → node 0 i = (if l.acts q m i then A i else idle, 0)) ∧
         (∀ j i, j < Nat.log2 (4096 / w) → i < 4096 / w / 2 ^ (j + 1) →
           node (j + 1) i = f (node j (2 * i)).1 (node j (2 * i + 1)).1) ∧
         VecStarts s s g q fun o => ∃ v : VWord,
           o = { VRun.empty with vregs := if n then [] else [(d.toNat, v)], push := some v, flags := o.flags } ∧
           v = ((node (Nat.log2 (4096 / w)) 0).1).setWidth 4096 ∧
           ∀ bit, o.flags.getLsbD bit = true ↔ ∃ j i, 1 ≤ j ∧ j ≤ Nat.log2 (4096 / w) ∧ i < 4096 / w / 2 ^ j ∧
             (node j i).2.getLsbD bit = true
     (vint t = true ∨ (vfloat t).isSome = true →
      (q.instr = .vredsum d a n m → tree zero sum) ∧ (q.instr = .vredmax d a n m → tree least (side true)) ∧
      (q.instr = .vredmin d a n m → tree most (side false)) ∧
      (q.instr = .vscan d a n m → ∃ out : Nat → BitVec w × Fl,
        (∀ i, out i = let v := if l.acts q m i then A i else zero; if i = 0 then (v, 0) else sum (out (i - 1)).1 v) ∧
        VecStarts s s g q fun o => ∃ v : VWord,
          o = { VRun.empty with vregs := if n then [] else [(d.toNat, v)], push := some v, flags := o.flags } ∧
          VecFlags (fun _ => true) id (4096 / w) (fun i => (out i).2) o.flags ∧
          ∀ i, i < 4096 / w → v.extractLsb' (w * i) w = (out i).1) ∧
      (q.instr = .vexpmax x a m →
        let finite : Nat → Prop := fun i => i ∈ acts ∧ ∃ neg j e, exact i = .fin neg j e ∧ j ≠ 0
        let top : Nat → Int := fun i => match exact i with | .fin _ j e => (Nat.log2 j : Int) + e | _ => 0
        ((∃ i, i ∈ acts ∧ ((exact i).isNan || (exact i).isInf) = true) → VecScalar s g q x 32767) ∧
        ((∀ i, i ∈ acts → ((exact i).isNan || (exact i).isInf) = false) →
          ((∀ i, ¬ finite i) → VecScalar s g q x (BitVec.ofInt 64 (-32768))) ∧
          ∀ i, finite i → (∀ j, finite j → top j ≤ top i) → VecScalar s g q x (BitVec.ofInt 64 (top i)))) ∧
      -- R273 to R275: accumulation
      (q.instr = .vacc d a b m → b.toNat ≤ 5 →
        let lanes := 32 / 2 ^ b.toNat
        let lane : Nat → Acc := fun j => Acc.ofPlanes (l.elem 128 d j).toNat ((l.rv (d.toNat + 1)).extractLsb' (16 * j) 16).toNat
        VecStarts s s g q fun o => ∃ v z : VWord,
          o = { VRun.empty with vregs := [(d.toNat, v), (d.toNat + 1, z)] } ∧ z.toNat < 2 ^ 512 ∧
          ∀ j, j < 32 →
            let e : Acc := if lanes ≤ j then lane j else
              (acts.filter fun i => i % lanes == j).foldl (fun e i => e.add q.anch.toInt (exact i)) (lane j)
            (v.extractLsb' (128 * j) 128).toNat = e.plane ∧ (z.extractLsb' (16 * j) 16).toNat = e.side) ∧
      (q.instr = .vacccvt d a n m →
        VecGroup s s g q d n true m w 1 id fun j =>
          let e := Acc.ofPlanes (l.elem 128 a j).toNat ((l.rv (a.toNat + 1)).extractLsb' (16 * j) 16).toNat
          (if 32 ≤ j then 0 else match vfloat t with
            | some f => BitVec.ofNat w (e.toFmt q.anch.toInt f)
            | none => BitVec.ofInt w (e.toInt q.anch.toInt (low t) (high t)), 0)))) ∧
    -- R276: random numbers
    (q.instr = .vrng d a x n → ∃ c : Nat → Nat → Nat → BitVec 32,
      (∀ j, j < 32 → (∀ h, h < 4 → c j 0 h = l.elem 32 a (4 * j + h)) ∧ ∀ i, i < 10 →
        let p0 : W64 := 0xD2511F53 * (c j i 0).setWidth 64
        let p1 : W64 := 0xCD9E8D57 * (c j i 2).setWidth 64
        let k0 : W32 := x0.setWidth 32 + BitVec.ofNat 32 i * 0x9E3779B9
        let k1 : W32 := (x0 >>> 32).setWidth 32 + BitVec.ofNat 32 i * 0xBB67AE85
        c j (i + 1) 0 = (p1 >>> 32).setWidth 32 ^^^ c j i 1 ^^^ k0 ∧ c j (i + 1) 1 = p1.setWidth 32 ∧
        c j (i + 1) 2 = (p0 >>> 32).setWidth 32 ^^^ c j i 3 ^^^ k1 ∧ c j (i + 1) 3 = p0.setWidth 32) ∧
      VecGroup s s g q d n true false 32 1 id (fun i => (c (i / 4) 10 (i % 4), 0)) ∧
      ((∀ h, h < 4 → l.elem 32 a h = 0) → x0 = 0 →
        c 0 10 0 = 0x6627E8D5 ∧ c 0 10 1 = 0xE169C58D ∧ c 0 10 2 = 0xBC57AC4C ∧ c 0 10 3 = 0x9B00DBD8)) ∧
    -- R260 to R263: memory forms
    (∀ (va : Nat → W64) (locs : List (Nat × Nat × Nat)) (v : State),
      let B := max 1 (w / 8)
      let elems : List (Nat × Nat) := ((List.range L).filter (l.acts q m)).map fun i => (i, (va i).toNat)
      let at_ : Nat → Nat := fun i => ((locs.find? fun e => e.1 == i).map fun e => e.2.2).getD 0
      let shift : Nat → Nat := fun i => if w = 4 then 4 * (i % 2) else 0
      let plain : Nat → W64 := fun i => x0 + x1 + BitVec.ofNat 64 (i * w / 8)
      let strided : Nat → W64 := fun i => x0 + BitVec.ofNat 64 i * x1
      let gathered : Nat → W64 := fun i => x0 + BitVec.ofNat 64 ((l.elem w b i).toNat * B)
      let load : Prop := q.instr = .vld d x y W n m ∧ va = plain ∨ q.instr = .vlds d x y W n m ∧ va = strided ∨
        q.instr = .vldg d x b W n m ∧ va = gathered
      let store : Prop := q.instr = .vst d x y W m ∧ va = plain ∨ q.instr = .vsts d x y W m ∧ va = strided ∨
        q.instr = .vstg d x b W m ∧ va = gathered
      let reach : Access → Nat → VAcc := fun acc ctr => ({ s with freeCtr := ctr } : State).vecAccess r acc B elems
      (load → (∀ ctr, reach .read ctr = .ok locs { v with freeCtr := ctr }) →
        VecGroup s v g q d n (W == 0) m w G id fun i =>
          (BitVec.ofNat w (natOfBytes ((List.range B).map fun j => v.vecByte r (at_ i + j)) / 2 ^ shift i), 0)) ∧
      (store → (∀ ctr, reach .write ctr = .ok locs { v with freeCtr := ctr }) →
        VecStarts s v g q fun o => o = { VRun.empty with stores := o.stores } ∧
          (w ≠ 4 → o.stores = locs.flatMap fun e => (List.range B).map fun j =>
            (e.2.1 + j, e.2.2 + j, BitVec.ofNat 8 ((l.elem w d e.1).toNat / 2 ^ (8 * j)), 0xFF)) ∧
          (w = 4 → (∀ c, c ∈ o.stores → ∃ e, e ∈ locs ∧ c.2.1 = e.2.2) ∧ ∀ e, e ∈ locs → ∃ c, c ∈ o.stores ∧
            c.2.1 = e.2.2 ∧ c.2.2.2.extractLsb' (shift e.1) 4 = 15 ∧
            c.2.2.1.extractLsb' (shift e.1) 4 = (l.elem w d e.1).setWidth 4)) ∧
      ∀ acc, load ∧ acc = .read ∨ store ∧ acc = .write →
        (∀ ca a1, (∀ ctr, reach acc ctr = .trap ca a1 { v with freeCtr := ctr }) → VecStarts s v g q fun o =>
          o = { VRun.empty with trap := some { cause := ca, tval := BitVec.ofNat 64 a1, word := q.instr.encode
                                               qent := BitVec.ofNat 8 q.idx, orig := 1 } }) ∧
        (∀ loc, (∀ ctr, reach acc ctr = .away loc 1) → s.hostAsked r 1 loc = false →
          Happens s (.vectorEntryStart g) (s.askHost r 1 loc)) ∧
        (∀ wm, (∀ ctr, reach acc ctr = .stall wm) →
          (q.st = .running → Idle s (.vectorEntryStart g)) ∧
          (q.st = .queued → ∃ ctr, Happens s (.vectorEntryStart g) (({ s with freeCtr := ctr } : State).setCore g
            { s.core g with vq := { (s.core g).vq with recs := [{ q with st := .running }] }
                            wdog := tdel (s.core g).wdog 0 }))))) ∧
  -- the end of an entry
  (∀ (s : State) (g : Nat) (q : QRec) (v : VRun), (s.core g).vq.recs = [q] → s.clusterStopped (g / 4) = false →
    (s.core g).vrun = some v → (∃ d, vdesc q.instr (vcfgType q.vcfg) = some d) →
    let r : SlotRef := ⟨g, q.slot⟩
    let l := s.slotAt r
    let on := enabledFlags l.fpctl v.flags
    let raised : PendTrap :=
      { cause := .fp, tval := v.flags.setWidth 64, word := q.instr.encode, qent := BitVec.ofNat 8 q.idx, orig := 1 }
    (v.trap = none → on = 0 ∨ l.engTraps.all (fun z => z.orig != 1) = true →
      ∃ u, Happens s (.vectorEntryEnd g) u ∧ (u.core g).vq.recs = [] ∧ (u.core g).vrun = none ∧ u.mem = s.mem ∧
        (∀ p, p ≠ r → u.slotAt p = s.slotAt p) ∧
        (let l' := u.slotAt r
         l' = { l with v := l'.v, m := l'.m, x := l'.x, b := l'.b, fpctl := l.fpctl ||| (v.flags.setWidth 64 <<< 16)
                       snap := l'.snap, hidden := l'.hidden, stalled := if on = 0 then l.stalled else false
                       engTraps := l'.engTraps } ∧
         (on = 0 → l'.engTraps = l.engTraps) ∧ (on ≠ 0 → Stops s raised l.engTraps l'.engTraps) ∧
         (∀ j, j < 48 → l'.rv j = ((v.vregs.reverse.find? fun e => e.1 == j).map fun e => e.2).getD (l.rv j)) ∧
         (∀ j, j < 8 → l'.rm j = if j = 0 then BitVec.allOnes 1024 else
           ((v.mregs.reverse.find? fun e => e.1 == j).map fun e => e.2).getD (l.rm j)) ∧
         ((∀ e, e ∈ v.xregs → e.1 < 32) → ∀ j : XReg, l'.rx j = if j = 0 then 0 else
           ((v.xregs.reverse.find? fun e => e.1 == j.toNat).map fun e => e.2).getD (l.rx j)) ∧
         (v.push = none → l'.b = l.b) ∧
         ∀ x, v.push = some x → l'.b[0] = x ∧ ∀ j, (h : j < 7) → l'.b[j + 1] = l.b[j]) ∧
        (∀ h a, (∀ e, e ∈ v.stores → e.2.1 ≠ a) → u.vis h a = s.vis h a) ∧
        ((v.stores.map fun e => e.2.1).Nodup → ∀ e, e ∈ v.stores → ∀ h,
          u.vis h e.2.1 = (s.vis g e.2.1 &&& ~~~e.2.2.2) ||| (e.2.2.1 &&& e.2.2.2))) ∧
    (∀ t : PendTrap, v.trap = some t → l.engTraps.all (fun z => z.orig != t.orig) = true →
      ∃ u, Happens s (.vectorEntryEnd g) u ∧ (u.core g).vq.recs = [] ∧ (u.core g).vrun = none ∧
        u.slotAt r = { l with engTraps := (u.slotAt r).engTraps, stalled := false } ∧
        Stops s t l.engTraps (u.slotAt r).engTraps ∧
        (∀ p, p ≠ r → u.slotAt p = s.slotAt p) ∧ MemoryKept s u)) ∧
  -- R121, R122: special values and exact results
  ∀ (fm : FFmt) (rm : RMode) (z : Flush) (n : Nat),
    let F := fmtOf fm
    let res : SpecFn → Nat × Fl := fun fn => specResult fn fm rm z n
    let one : Bool → Nat := fun neg => (F.write .rne false (.fin neg 1 0)).1
    (∀ sig, F.read (flushIn z fm) n = .nan sig → ∀ fn, res fn = (F.canonNan, if sig then flNV else 0)) ∧
    (∀ neg, F.read (flushIn z fm) n = .inf neg →
      (∀ fn, fn = .exp ∨ fn = .exp2 → res fn = (if neg then 0 else F.infBits false, 0)) ∧
      (∀ fn, fn = .log ∨ fn = .log2 ∨ fn = .sqrt → res fn = if neg then (F.canonNan, flNV) else (F.infBits false, 0)) ∧
      res .rsq = (if neg then (F.canonNan, flNV) else (0, 0)) ∧ res .rcp = (F.zeroBits neg, 0) ∧ res .tanh = (one neg, 0) ∧
      res .sigm = (if neg then 0 else one false, 0) ∧ res .sin = (F.canonNan, flNV) ∧ res .cos = (F.canonNan, flNV)) ∧
    ∀ neg m e, F.read (flushIn z fm) n = .fin neg m e →
      (m = 0 → (∀ fn, fn = .exp ∨ fn = .exp2 ∨ fn = .cos → res fn = (one false, 0)) ∧
        (∀ fn, fn = .log ∨ fn = .log2 → res fn = (F.infBits true, flDZ)) ∧
        (∀ fn, fn = .rcp ∨ fn = .rsq → res fn = (F.infBits neg, flDZ)) ∧
        (∀ fn, fn = .sqrt ∨ fn = .tanh ∨ fn = .sin → res fn = (F.zeroBits neg, 0)) ∧
        res .sigm = ((F.write .rne false (.fin false 1 (-1))).1, 0)) ∧
      (m ≠ 0 → neg = true → ∀ fn, fn = .log ∨ fn = .log2 ∨ fn = .rsq → res fn = (F.canonNan, flNV)) ∧
      res .sqrt = F.sqrt rm (flushOut z fm) (.fin neg m e) ∧
      (fm ≠ .f32 → m ≠ 0 → res .rcp = F.div rm (flushOut z fm) (.fin false 1 0) (.fin neg m e)) ∧
      (m ≠ 0 → ∀ j : Nat, j < 4096 → e ≤ 0 → m = j * 2 ^ (-e).toNat →
        res .exp2 = F.write rm (flushOut z fm) (.fin false 1 (if neg then -(j : Int) else j))) ∧
      (neg = false → ∀ j : Nat, m = 2 ^ j →
        res .log2 = F.write rm (flushOut z fm) (.fin (decide (j + e < 0)) (j + e).natAbs 0) ∧
        (j + e = 0 → res .log = (0, 0)))

/-! ## Special registers -/

/-- R10, R21, R31, R32, R33, R128, R129, R238, R243, R365: the special registers. CSRR reads every assigned number; CSRW,
CSRS and CSRC write the fields of the slot's registers that are RW, a value outside a field's range is stored as the register
says, and FPCTL flags are cleared by a CSRW that writes 1. A write of a number from 0xF00 on raises PRIV, a number that is not
assigned ILLEGAL, and CYCLE DETERMINISM at levels 1 and 2. R382, R387, R388: STEPLEN and SLACK at every level. -/
def Obligations.SpecialRegisters : Prop :=
  ∀ (s : State) (a : XReg),
    let l := s.slot
    let c := s.here
    let v := s.rx a
    let w (x : W64) (hi lo : Nat) : Nat := (x.extractLsb' lo (hi - lo + 1)).toNat
    let rows : List (BitVec 12 × W64 × W64 × (W64 → Slot)) := [
      (0x7C0, 0xFFFF, l.ageLimit, fun x => { l with ageLimit := if w x 15 0 < 16 then 16 else x }),
      (0x7C1, 1, l.gangctl, fun x => { l with gangctl := x }),
      (0x7C2, 0xFFFF, l.parklim, fun x => { l with parklim := if w x 15 0 = 0 then 1 else x }),
      (0x7C3, 0x1F0001FF, l.fpctl, fun x => { l with fpctl := if 5 ≤ w x 2 0 then x &&& ~~~7#64 else x }),
      (0x7C4, 0xFFFF, l.accanch, fun x => { l with accanch := x }),
      (0x7C5, 0xFF, l.vcfg, fun x => { l with vcfg := if 12 ≤ w x 3 0 then (x &&& ~~~15#64) ||| 6 else x }),
      (0x7C6, ~~~3#64, l.tvec, fun x => { l with tvec := x }), (0x7C7, 0, l.tcause, fun _ => l),
      (0x7C8, ~~~0#64, l.tpc, fun x => { l with tpc := x }), (0x7C9, 0, l.tval, fun _ => l), (0x7CA, 0, l.tword, fun _ => l),
      (0x7CB, 0xFFFFFFFF00000000, l.tstat, fun x => { l with tstat := x })]
    let core : W64 := (0#34 ++ (s.devid ++ (BitVec.ofNat 3 (s.cur.core / 96) ++ (BitVec.ofNat 5 (s.cur.core / 4 % 24) ++
      BitVec.ofNat 2 (s.cur.core % 4)))) : BitVec (34 + (20 + (3 + (5 + 2)))))
    let info : W64 := (0#55 ++ (BitVec.ofBool (s.launchOf s.cur).cgran ++ ((s.launchOf s.cur).det ++ (l.entry ++
      ((match l.role with | .epilogue => 0#2 | .arith => 1#2 | .loader => 2#2) ++ BitVec.ofNat 2 s.cur.slot.val)))) :
        BitVec (55 + (1 + (2 + (2 + (2 + 2))))))
    let fixed : List (BitVec 12 × W64) := [(0xF01, core), (0xF02, l.task.setWidth 64), (0xF03, info),
      (0xF04, c.b0.setWidth 64), (0xF05, c.b1.setWidth 64), (0xF06, c.b2.setWidth 64), (0xF07, if c.degraded then 1 else 0),
      (0xF08, (s.queueOf s.cur).troot &&& 0x000FFFFFFFFF0000), (0xF09, c.mxw.setWidth 64), (0xF0B, s.gstep)]
    (∀ n m old set, (n, m, old, set) ∈ rows →
      Puts s (.csrr a n) a old ∧
      Becomes s (.csrw a n)
        (set ((old &&& ~~~m &&& ~~~(if n = 0x7C3 then v &&& 0x1F0000 else 0)) ||| (v &&& m))).next ∧
      Becomes s (.csrs a n) (set ((old &&& ~~~m) ||| ((old ||| v) &&& m))).next ∧
      Becomes s (.csrc a n) (set ((old &&& ~~~m) ||| ((old &&& ~~~v) &&& m))).next) ∧
    (∀ n old, (n, old) ∈ fixed → Puts s (.csrr a n) a old) ∧
    (s.level = 0 → Puts s (.csrr a 0xF0A) a (s.cycleOf s.cur.core 0)) ∧
    (s.level ≠ 0 → s.slot.inh = false → TrapsOpen s (.csrr a 0xF0A) .determinism) ∧
    (s.steplen < 2 ^ 17 →
      let k := s.cluster (s.cur.core / 4)
      let slack := if s.level = 2 then (s.queueOf s.cur).slack % 65536 else 0
      let scyc := if s.level = 2 then
          min (s.refclk - s.stepBase + (k.stop - s.refclk) - k.spent)
            (s.steplen - (s.queue ((s.die (s.cur.core / 96)).d2.getD 0)).slack)
        else s.refclk - s.stepBase
      Puts s (.csrr a 0xF0C) a (BitVec.ofNat 64 s.steplen + (BitVec.ofNat 64 (scyc % 65536) <<< 32)) ∧
      Puts s (.csrr a 0xF0D) a (BitVec.ofNat 64 slack + (BitVec.ofNat 64 (k.spent % 65536) <<< 32))) ∧
    (s.slot.inh = false → ∀ n : BitVec 12, ∀ i, i = .csrw a n ∨ i = .csrs a n ∨ i = .csrc a n →
      (0xF01 ≤ n.toNat → n.toNat ≤ 0xF0D → TrapsOpen s i .priv) ∧
      (n.toNat < 0x7C0 ∨ (0x7CB < n.toNat ∧ n.toNat < 0xF01) ∨ 0xF0D < n.toNat →
        Traps s i .illegal 0 ∧ Traps s (.csrr a n) .illegal 0))

/-! ## Tasks -/

/-- R47, R48, R49, R233, R236, R237: YIELD, ROLE and children. A child enters the pending pool of the die with the next
task number; where that is full, or children are spilled, it is written to the tail of the die's spill queue in the TCB layout,
after the checks of R86, which end the task with LEASE or park it; where that is full too the slot stalls; an unaligned start raises MISALIGNED, D2
DETERMINISM. R174, R242: LAUNCH. A descriptor that is not 64-byte aligned raises MISALIGNED, one in a window
POOL_RANGE, D2 DETERMINISM; one that may be read is published for and queued as the last launch of its queue. -/
def Obligations.ChildrenRolesAndLaunches : Prop :=
  (∀ (s : State) (a b : XReg) (r : Role) (g : BitVec 6) (n : BitVec 8),
    let l := s.launch s.slot.launch
    let d := s.cur.core / 96
    let tail := tget 0 l.spillTail d
    let held := tail - tget 0 l.spillHead d
    let child : Option (BitVec 6) → Child := fun k =>
      { launch := s.slot.launch, num := BitVec.ofNat 32 l.nextNum, prog := s.rx a, arg := s.rx b, role := r, gang := k }
    let added : Option (BitVec 6) → State := fun k => (({ s with
      launches := tset s.launches s.slot.launch { l with nextNum := l.nextNum + 1 } }.modDie d fun x =>
        { x with pool := x.pool ++ [child k] }).mapSlot Slot.next)
    let at_ := l.spill.toNat + 64 * l.spillcap * d + 64 * (tail % l.spillcap)
    let spills : Prop := (960 ≤ (s.die d).pool.length ∨ held ≠ 0) ∧ held < l.spillcap
    let spilled : Option (BitVec 6) → Nat → State → State → Prop := fun k loc u t =>
      (t.launch s.slot.launch).nextNum = (u.launch s.slot.launch).nextNum + 1 ∧
      tget 0 (t.launch s.slot.launch).spillTail d = tail + 1 ∧
      t.peek loc 8 = (s.rx a).toNat ∧ t.peek (loc + 8) 8 = (s.rx b).toNat ∧
      t.peek (loc + 16) 8 = (BitVec.ofNat 32 l.nextNum).toNat + l.prio.toNat * 2 ^ 32 +
        (match r with | .epilogue => 0 | .arith => 1 | .loader => 2) * 2 ^ 40 +
        (match k with | some g => g.toNat * 2 ^ 42 + 2 ^ 48 | none => 0) ∧
      t.peek (loc + 24) 8 = 0 ∧ t.dies = u.dies ∧ t.slot.pc = s.slot.pc + 4 ∧ t.slot.x = s.slot.x
    Becomes s (.yield n) { s.slot with yield := n.toNat + 2, age := 0 }.next ∧
    Becomes s (.role r) { s.slot with role := r }.next ∧
    (s.level = 2 → s.slot.inh = false → TrapsOpen s (.spawn a b r) .determinism ∧ TrapsOpen s (.spawng a b r g) .determinism) ∧
    (s.level ≠ 2 → (s.rx a).toNat % 4 ≠ 0 → s.slot.inh = false →
      Traps s (.spawn a b r) .misaligned (s.rx a) ∧ Traps s (.spawng a b r g) .misaligned (s.rx a)) ∧
    (s.level ≠ 2 → (s.rx a).toNat % 4 = 0 →
      (held = 0 → (s.die d).pool.length < 960 →
        exec (.spawn a b r) s = .next (added none) ∧ exec (.spawng a b r g) s = .next (added (some g))) ∧
      (960 ≤ (s.die d).pool.length ∨ held ≠ 0 → l.spillcap ≤ held → Stalls s (.spawn a b r) ∧ Stalls s (.spawng a b r g)) ∧
      (spills → ∀ k i, (k = none ∧ i = .spawn a b r) ∨ (k = some g ∧ i = .spawng a b r g) →
        ((isWindow at_ = true ∨ s.checkTranslated s.cur at_ 64 .write .early = .trap .lease) → EndsTask s i) ∧
        (isWindow at_ = false →
          (∀ loc u, s.checkTranslated s.cur at_ 64 .write .early = .ok loc u → u.mem.wf = true →
            ∃ t, exec i s = .next t ∧ spilled k loc u t ∧ OthersKept s t ∧ Carries u t) ∧
          (∀ c, s.checkTranslated s.cur at_ 64 .write .early = .trap c → c = .lease) ∧
          (∀ e, s.checkTranslated s.cur at_ 64 .write .early = .park e → ∃ (t : State) (p : Park), exec i s = .next t ∧
            p.addr = BitVec.ofNat 64 at_ ∧ p.entry = e ∧ Frame (s.arm p) t ∧ t.slot = { s.slot with park := some p }))))) ∧
  (∀ (s : State) (a : XReg),
    let va := s.rx a
    let q := (s.launchOf s.cur).queue
    (s.level = 2 → s.slot.inh = false → TrapsOpen s (.launch a) .determinism) ∧
    (s.level ≠ 2 → va.toNat % 64 ≠ 0 → s.slot.inh = false → Traps s (.launch a) .misaligned va) ∧
    (s.level ≠ 2 → va.toNat % 64 = 0 → isWindow va.toNat = true → s.slot.inh = false → Traps s (.launch a) .poolRange va) ∧
    (s.level ≠ 2 → va.toNat % 64 = 0 → isWindow va.toNat = false → ∀ n1 n2 u v,
      s.check s.cur va.toNat 64 .read .early = .ok n1 u → u.check s.cur (va + 64).toNat 64 .read .early = .ok n2 v →
      ∃ t, exec (.launch a) s = .next t ∧
        t.launches = tset v.launches v.nextLaunch
          { Launch.blank with queue := q, desc := va, stage := if (s.queue q).cadence then .ticking else .queued } ∧
        t.nextLaunch = v.nextLaunch + 1 ∧ t.slot.pend = [] ∧ t.slot.pc = s.slot.pc + 4 ∧ t.slot.x = s.slot.x ∧ OthersKept s t))

/-- R235: EXIT removes its token waits and waits for its engine entries; it then leaves its gangs, by an operation that takes effect
at their home 12 + 20h cycles later (R231), publishes, its task is over and counted, and its slot is free. What it changes besides is stated for a task in no gang and no cluster group: no other slot,
and of memory its pending stores, with STATE 4 of its TCB where it came from one (here where its queue is not pre-empted, and
nothing is on its way). -/
def Obligations.TaskEnd : Prop :=
  ∀ (s : State),
    let l := s.slot
    let n := l.launch
    let busy : Prop := ∃ w : Which, ∃ q, q ∈ (s.here.queue w).recs ∧ q.uid = l.uid ∧ q.st ≠ .ended ∧ ∀ e t, q.instr ≠ .tokwait e t
    (busy → ∃ t, exec .exit s = .next t ∧ t.slot = { l with
        exiting := true, started := true, stalled := true, stall := .condition } ∧
      OthersKept s t ∧ MemoryKept s t ∧ ∀ w : Which, ∀ q, q ∈ (t.here.queue w).recs → q.uid = l.uid → ∀ e k, q.instr ≠ .tokwait e k) ∧
    (¬ busy → ∃ t, exec .exit s = .next t ∧ t.slot.occ = false ∧ t.slot.started = true ∧
      (t.launch n).exited = (s.launch n).exited + 1 ∧ (t.launch n).faulted = (s.launch n).faulted ∧
      (∀ g, g ∈ (s.launch n).gangsOf l.uid → ∃ o, o ∈ (t.die (s.launch n).home).gangs ∧
        o = { kind := .quit, launch := n, gang := BitVec.ofNat 6 g, core := s.cur.core, slot := s.cur.slot, uid := l.uid
              due := Nat.max s.refclk l.busyTill + 12 + 20 * hops (s.cur.core / 96) (s.launch n).home }) ∧
      ((s.launch n).gangsOf l.uid = [] → l.group = none → OthersKept s t) ∧
      ((s.launch n).gangsOf l.uid = [] → s.overlay = [] → (s.queueOf s.cur).stopped = false →
        ((∀ i, l.origin ≠ .tcb i) → t.mem = s.mem.setAll l.pend) ∧
        (∀ i, l.origin = .tcb i → l.pend = [] → t.mem = (s.setTcbState n i 4).mem)))

/-! ## Flambeol queue cores -/

/-- R422, R423: the four instructions of a queue core. BFX extracts a field; RFETCH stages the packet at HEAD, answers 0
on an empty queue and during a live update (R426), or faults; SWAIT takes the pending bits it waits for, or sleeps until one is
set or its limit passes, while the next core that has woken goes on (one queue core executes at a time: assumption 21); DISP
offers the staged packet to a die, answers 1 where its queue is full, or faults. A fault writes mepc,
mcause and mtval. STAGE, and the size of a DISP queue with what marks a packet as done, are the model's choices (assumptions 30,
31), the entry into a trap is PRESUMED (assumption 39), and which queue a packet belongs to and that an address outside STAGE
faults is the model's reading (assumption 54). R423: the limit of a sleeping SWAIT passes: rd is 0, and the core goes on; before that nothing happens. -/
def Obligations.FlambeolInstructions : Prop :=
  (∀ (s : State) (n : Nat) (a b d : BitVec 5), s.fcur = some n →
    let f := s.fcore n
    let v := f.rx a
    let w := f.rx b
    let put : State → FCore → State := fun t x => { t with fcores := tset t.fcores n x }
    let goes : State → W64 → State := fun t x => put t { f.wx d x with pc := f.pc + 4 }
    let fault : Nat → W64 → State := fun k x =>
      put s { f with mepc := f.pc, mcause := BitVec.ofNat 64 k, mtval := x, pc := f.mtvec &&& ~~~3#64 }
    let q := v.toNat
    let u := s.queue q
    let word : Nat → Nat := fun k => s.peek (u.ring.toNat + 64 * (u.head.toNat % 2 ^ u.log2n) + 8 * k) 8
    let bad : Prop := 8 ≤ word 0 % 256 ∨ word 0 / 256 % 2 ^ 24 ≠ 0
    let here : Prop := v.toNat < 256 ∧ tmem s.queues q = true ∧ u.resident = true ∧ u.qcore = n
    let field : Prop := (w.extractLsb' 0 6).toNat + (w.extractLsb' 8 6).toNat + 1 ≤ 64 ∧ w.extractLsb' 6 2 = 0 ∧ w.extractLsb' 14 50 = 0
    (field → exec (.flambeolBfx b a d) s =
      .next (goes s (BitVec.ofNat 64 (v.toNat / 2 ^ (w.extractLsb' 0 6).toNat % 2 ^ ((w.extractLsb' 8 6).toNat + 1))))) ∧
    (¬ field → exec (.flambeolBfx b a d) s = .next (fault 28 w)) ∧
    (¬ here → exec (.rfetch a d) s = .next (fault 24 v)) ∧
    (here → u.head = u.tail ∨ s.update ≠ none →
      exec (.rfetch a d) s = .next (goes (s.modQueue q fun x => { x with staged := false }) 0)) ∧
    (here → u.head ≠ u.tail → s.update = none → bad → exec (.rfetch a d) s = .next (fault 25 (u.head.setWidth 64))) ∧
    (here → u.head ≠ u.tail → s.update = none → ¬ bad → ∃ t, exec (.rfetch a d) s = .next t ∧ (t.queue q).head = u.head + 1 ∧
      (t.queue q).staged = true ∧
      (t.fcore n).x = (f.wx d (BitVec.ofNat 64 (Config.stageBase + 64 * q))).x ∧ (t.fcore n).pc = f.pc + 4 ∧
      (∀ k j, k < 8 → j < 8 →
        tget 0 (t.fcore n).lmem (Config.stageBase + 64 * q + 8 * k + j) = BitVec.ofNat 8 (word k / 2 ^ (8 * j))) ∧
      (∀ m, m ≠ n → t.fcore m = s.fcore m) ∧ t.cores = s.cores) ∧
    (let ripe := f.pending.setWidth 64 &&& v
     (v.extractLsb' 0 8 = 0 ∨ v.extractLsb' 7 57 ≠ 0 → exec (.swait b a d) s = .next (fault 26 v)) ∧
     (v.extractLsb' 0 8 ≠ 0 → v.extractLsb' 7 57 = 0 →
       (ripe ≠ 0 → exec (.swait b a d) s = .next (put s { f.wx d ripe with
         pc := f.pc + 4, pending := f.pending &&& ~~~(v.setWidth 7), asleep := false, swLimit := none })) ∧
       (ripe = 0 → exec (.swait b a d) s = .next { put s { f with
         asleep := true, swMask := v, swRd := d, swLimit := if w = 0 then none else some (s.refclk + w.toNat) } with
         fcur := s.fwoken.head?, fwoken := s.fwoken.drop 1 }))) ∧
    (let die := (w.extractLsb' 0 3).toNat
     let byte : Nat → Nat := fun j => (tget 0 f.lmem (v.toNat + j)).toNat
     let of := (v.toNat - Config.stageBase) / 64
     let good : Prop := v.toNat % 64 = 0 ∧ Config.stageBase ≤ v.toNat ∧ of < 256 ∧
       (byte 0 = 1 ∨ byte 0 = 3 ∨ byte 0 = 4) ∧ (s.queue of).dies.getLsbD die = true ∧
       (∃ k, k < 24 ∧ (s.cluster (24 * die + k)).retired = false) ∧ w.extractLsb' 3 61 = 0
     (¬ good → exec (.disp b a d) s = .next (fault 27 v)) ∧
     (good → Config.dispQueue ≤ (s.die die).disp.length ∨ (s.queue of).stopped = true →
       exec (.disp b a d) s = .next (goes s 1)) ∧
     (good → (s.die die).disp.length < Config.dispQueue → (s.queue of).stopped = false →
       ∃ bytes, exec (.disp b a d) s = .next (goes ((s.modDie die fun x => { x with disp := x.disp ++ [(of, bytes)] }).modQueue
           of fun x => { x with staged := false }) 0) ∧
         ∀ j, j < 64 → bytes / 2 ^ (8 * j) % 256 = byte j))) ∧
  (∀ (s : State) (n t : Nat), (s.fcore n).swLimit = some t → (s.fcore n).asleep = true →
    let f := s.fcore n
    (t ≤ s.refclk → Happens s (.swaitTimeout n) { s with
      fcores := tset s.fcores n { f.wx f.swRd 0 with pc := f.pc + 4, asleep := false, swLimit := none }
      fcur := match s.fcur with | some m => some m | none => some n
      fwoken := match s.fcur with | some _ => s.fwoken ++ [n] | none => s.fwoken }) ∧
    (s.refclk < t → Idle s (.swaitTimeout n)))

/-! ## Host queues -/

/-- R415, R416, R394, R395: the packets, each acted on as the packet at HEAD by Flambeol. A done packet moves HEAD on; a
reserved packet sets ERR 1, a name outside the grant, of no device of the system or with a reserved bit ERR 5; an event of another
TYPE than the packet's changes nothing. That a WAIT packet waits at the home as an operation with task number 0 and the queue's
number is the model's choice (assumption 56), and that a DETLEVEL stays at HEAD until its switch is done is assumption 57. -/
def Obligations.HostPackets : Prop :=
  ∀ (s : State) (q : Nat),
    let u := s.queue q
    tmem s.queues q = true → u.resident = true → u.err = 0 → u.resetting = false → u.waiting = false → u.switching = none →
    s.update = none → u.head ≠ u.tail →
    let w : Nat → W64 := fun k => BitVec.ofNat 64 (s.peek (u.ring.toNat + 64 * (u.head.toNat % 2 ^ u.log2n) + 8 * k) 8)
    let type := ((w 0).extractLsb' 0 8).toNat
    let plain : Prop := (w 0).extractLsb' 8 24 = 0
    let zero : List Nat → Prop := fun ks => ∀ k, k ∈ ks → w k = 0
    let events : List Instr := [.nopPacket q, .launchPacket q, .waitPacket q, .signalPacket q, .copyPacket q, .detlevel q,
      .cadence q, .barrier q]
    let done : Instr → (State → Prop) → Prop := fun i p => ∃ t, Happens s i t ∧ (t.queue q).head = u.head + 1 ∧ (t.queue q).err = 0 ∧ p t
    let fails : Instr → BitVec 8 → Prop := fun i e => ∃ t, Happens s i t ∧ (t.queue q).err = e ∧ (t.queue q).head = u.head
    let ok : W64 → Prop := fun n => n.extractLsb' 52 12 = 0 ∧ n.extractLsb' 14 15 = 0 ∧ n.extractLsb' 32 20 = s.devid ∧
      u.semb ≤ (n.extractLsb' 0 14).toNat ∧ (n.extractLsb' 0 14).toNat < u.semb + u.semn
    let bad : W64 → Prop := fun n => n.extractLsb' 52 12 ≠ 0 ∨ n.extractLsb' 14 15 ≠ 0 ∨
      (n.extractLsb' 32 20 ≠ s.devid ∧ n.extractLsb' 32 20 ∉ s.system) ∨ (n.extractLsb' 0 14).toNat < u.semb ∨
      u.semb + u.semn ≤ (n.extractLsb' 0 14).toNat
    let sends : State → W64 → SemKind → Prop := fun t n k =>
      (t.die (n.extractLsb' 29 3).toNat).inbox = insertSem {
        index := (n.extractLsb' 0 14).toNat, kind := k, core := q, slot := 0, uid := 0, queue := q, gen := u.gen
        dev := s.devid, due := s.refclk } (s.die (n.extractLsb' 29 3).toNat).inbox
    let quiet : Prop := ∀ e, e ∈ s.launches → e.2.queue = q → e.2.stage = .over
    (8 ≤ type ∨ ¬ plain → ∀ i, i ∈ events → fails i 1) ∧
    (type < 8 → plain → ∀ k, k < 8 → k ≠ type → Idle s ([Instr.nopPacket q, .launchPacket q, .waitPacket q, .signalPacket q,
      .copyPacket q, .detlevel q, .cadence q, .barrier q].getD k (.nopPacket q))) ∧
    (plain →
      (type = 0 → zero [1, 2, 3, 4, 5, 6, 7] → done (.nopPacket q) fun t => t.launches = s.launches ∧ t.dies = s.dies) ∧
      (type = 0 → ¬ zero [1, 2, 3, 4, 5, 6, 7] → fails (.nopPacket q) 1) ∧
      (type = 1 → zero [2, 3, 4, 5, 6, 7] → u.stopped = false →
        (let readable := (s.fwRead u.troot (w 1).toNat 128).isSome
         ((w 1).toNat % 64 = 0 → readable = true → done (.launchPacket q) fun t =>
           t.launches = tset s.launches s.nextLaunch { Launch.blank with
             queue := q, desc := w 1, stage := if u.cadence then .ticking else .queued } ∧ t.nextLaunch = s.nextLaunch + 1) ∧
         ((w 1).toNat % 64 ≠ 0 ∨ readable = false → fails (.launchPacket q) 3))) ∧
      (type = 2 → zero [4, 5, 6, 7] → (w 3).toNat < 2 →
        (ok (w 1) → ∃ t, Happens s (.waitPacket q) t ∧ sends t (w 1) (.wait (w 2) ((w 3).getLsbD 0)) ∧
          (t.queue q).waiting = true ∧ (t.queue q).head = u.head) ∧
        (bad (w 1) → fails (.waitPacket q) 5)) ∧
      (type = 3 → zero [3, 4, 5, 6, 7] →
        (ok (w 1) → done (.signalPacket q) fun t => sends t (w 1) (.sig (w 2))) ∧
        (bad (w 1) → fails (.signalPacket q) 5)) ∧
      (type = 4 → zero [5, 6, 7] → (w 3).toNat < 2 ^ 40 → quiet → w 4 = 0 →
        (let src := (w 1).toNat
         let dst := (w 2).toNat
         let n := (w 3).toNat
         0 < n → src % 64 + n ≤ 64 → dst % 64 + n ≤ 64 →
           (∀ x y, s.fwTranslate u.troot src 1 = some x → s.fwTranslate u.troot dst 2 = some y → x / 64 ∉ s.poison →
             y + n ≤ u.stataddr.toNat ∨ u.stataddr.toNat + 8 ≤ y → s.mem.wf = true →
             done (.copyPacket q) fun t => ∀ j, j < n → t.mem.get (y + j) = s.mem.get (x + j)) ∧
           (s.fwTranslate u.troot src 1 = none ∨ s.fwTranslate u.troot dst 2 = none → fails (.copyPacket q) 3))) ∧
      (type = 4 → zero [5, 6, 7] → (w 3).toNat < 2 ^ 40 → ¬ quiet → Idle s (.copyPacket q)) ∧
      (type = 5 → zero [2, 3, 4, 5, 6, 7] → (w 1).toNat < 3 →
        (w 1 ≠ 2 ∨ s.service ≠ 1 → Happens s (.detlevel q)
          (s.modQueue q fun x => { x with switching := some ((w 1).setWidth 2) })) ∧
        (w 1 = 2 → s.service = 1 → fails (.detlevel q) 1)) ∧
      (type = 6 → zero [3, 4, 5, 6, 7] → (w 1).toNat < 2 ^ 48 →
        (w 1 = 0 → done (.cadence q) fun t => (t.queue q).cadence = false) ∧
        (0 < (w 1).toNat → (w 1).toNat < 65536 → fails (.cadence q) 4) ∧
        (65536 ≤ (w 1).toNat → done (.cadence q) fun t => (t.queue q).cadence = true ∧
          (t.queue q).period = (w 1).setWidth 48 ∧
          ∃ k, (t.queue q).tick = BitVec.ofNat 64 ((w 2).toNat + k * (w 1).toNat) ∧
            s.gstep.toNat < ((w 2).toNat + k * (w 1).toNat) / 65536 ∧
            (0 < k → ((w 2).toNat + (k - 1) * (w 1).toNat) / 65536 ≤ s.gstep.toNat))) ∧
      (type = 7 → zero [3, 4, 5, 6, 7] →
        (quiet → w 1 = 0 → done (.barrier q) fun t => t.dies = s.dies) ∧
        (quiet → w 1 ≠ 0 → ok (w 1) → done (.barrier q) fun t => sends t (w 1) (.sig (w 2))) ∧
        (quiet → w 1 ≠ 0 → bad (w 1) → fails (.barrier q) 5) ∧
        (¬ quiet → Idle s (.barrier q))))

/-- R417: doorbells and the pending map. A doorbell for no queue, or with the TAIL the queue has, changes nothing; a TAIL past
the ring sets ERR 2; any other one is recorded, and a queue that becomes non-empty rings its core, or waits in the pending
map, whose scan makes it resident. -/
def Obligations.Doorbells : Prop :=
  ∀ (s : State) (q : Nat) (tail : W32),
    let u := s.queue q
    let n := u.qcore
    (tmem s.queues q = false ∨ tail = u.tail → Idle s (.doorbell q tail)) ∧
    (tmem s.queues q = true → tail ≠ u.tail →
      (2 ^ u.log2n < (tail - u.head).toNat → ∃ t, Happens s (.doorbell q tail) t ∧ (t.queue q).err = 2 ∧
        (t.queue q).tail = u.tail) ∧
      ((tail - u.head).toNat ≤ 2 ^ u.log2n → ∃ t, Happens s (.doorbell q tail) t ∧ (t.queue q).tail = tail ∧
        (t.queue q).err = u.err ∧
        (u.resident = true → u.head = u.tail → (s.fcore n).asleep = false →
          t.fcore n = { s.fcore n with pending := (s.fcore n).pending ||| 1 }) ∧
        (u.resident = true → u.head = u.tail → (s.fcore n).asleep = true → (s.fcore n).swMask.getLsbD 0 = true →
          (t.fcore n).asleep = false ∧ (t.fcore n).pc = (s.fcore n).pc + 4) ∧
        (u.resident = false → q ∈ t.pendingMap ∧ ∀ k, k ∈ s.pendingMap → k ∈ t.pendingMap))) ∧
    (s.pendingMap = [] → Idle s .pendingMapScan) ∧
    (s.pendingMap = [q] → u.resident = false → (s.queues.filter fun e => e.2.resident).length < 256 →
      ∃ t, Happens s .pendingMapScan t ∧ (t.queue q).resident = true ∧ t.pendingMap = [] ∧
        ((s.fcore (t.queue q).qcore).asleep = false → t.fcore (t.queue q).qcore =
          { s.fcore (t.queue q).qcore with pending := (s.fcore (t.queue q).qcore).pending ||| 1 }))

/-! ## Firmware -/

/-- R400, R406, R409, R419, R420, R421, R429, R93, R382, R404, R362: the mailbox commands on the device. A command in progress
of this OPCODE is performed and answered with its RESULT and TAG, and GO is cleared; an event of another OPCODE changes
nothing. DEVREAD of an address in the fuse block answers 2; where that block lies is a free value (assumption 29). The numbering
of CLEARMAP's bits is the model's choice (assumption 26), and that SETPARAM checks its limits before RESULT 4 its reading
(assumption 73). -/
def Obligations.DeviceCommands : Prop :=
  ∀ (s : State) (c : Cmd), s.mbox.cmd = some c → c.away = false → c.src = none → s.cmdWait = [] →
    let arg : Nat → W64 := fun k => c.args.getD k 0
    let ans : State → BitVec 16 → State := fun t r =>
      { t with mbox := { t.mbox with cmd := none, go := false, result := r, rtag := c.tag } }
    let ans1 : State → BitVec 16 → W64 → State := fun t r v =>
      { t with mbox := { t.mbox with cmd := none, go := false, result := r, rtag := c.tag, res := tset t.mbox.res 0 v } }
    let commands : List (Nat × Instr) := [(1, .create), (2, .destroy), (3, .qreset), (4, .preempt), (5, .resume), (6, .pkgreset),
      (7, .update), (8, .slotwrite), (9, .slotverify), (10, .setslot), (11, .pcap), (12, .setparam), (13, .snapshot),
      (14, .devread), (15, .devwrite), (16, .clearmap), (17, .group)]
    let v := (arg 1).toNat
    (∀ k i, (k, i) ∈ commands → c.opcode ≠ k → Idle s i) ∧
    (c.opcode = 6 → ∃ t, Happens s .pkgreset t ∧ t.queues = [] ∧ t.launches = [] ∧ t.cores = [] ∧ t.dies = [] ∧
      t.mbox = State.reset.mbox ∧ t.service = 0 ∧ t.imageA = s.imageA ∧ t.imageB = s.imageB ∧ t.flashWays = s.flashWays) ∧
    (c.opcode = 11 →
      (800 ≤ (arg 0).toNat → (arg 0).toNat ≤ 1950 → Happens s .pcap (ans { s with pcap := (arg 0).toNat } 0)) ∧
      ((arg 0).toNat < 800 ∨ 1950 < (arg 0).toNat → Happens s .pcap (ans s 2))) ∧
    (c.opcode = 12 →
      (arg 0 = 1 → 1 ≤ v → v ≤ 65535 → Happens s .setparam (ans1 { s with shootWait := v } 0 (arg 1))) ∧
      (arg 0 = 2 → 1 ≤ v → v ≤ 168 → Happens s .setparam (ans1 { s with ftper := v } 0 (arg 1))) ∧
      (arg 0 = 3 → v % 256 = 0 → 256 ≤ v → v ≤ 65536 →
        (s.queues = [] → Happens s .setparam (ans1 { s with steplen := v } 0 (arg 1))) ∧
        (s.queues ≠ [] → Happens s .setparam (ans s 4))) ∧
      ((arg 0 = 1 ∧ (v < 1 ∨ 65535 < v)) ∨ (arg 0 = 2 ∧ (v < 1 ∨ 168 < v)) ∨
          (arg 0 = 3 ∧ (v % 256 ≠ 0 ∨ v < 256 ∨ 65536 < v)) ∨ arg 0 = 0 ∨ 4 ≤ (arg 0).toNat →
        Happens s .setparam (ans s 2))) ∧
    (c.opcode = 13 →
      (s.snapctl.getLsbD 0 = true → s.snapctl.extractLsb' 2 2 = 3 →
        Happens s .snapshot (ans { s with snapDue := some s.refclk } 0)) ∧
      (s.snapctl.getLsbD 0 = false ∨ s.snapctl.extractLsb' 2 2 ≠ 3 → Happens s .snapshot (ans s 0))) ∧
    (c.opcode = 14 →
      ((arg 0).toNat % 8 ≠ 0 ∨ (0xF000000000000 ≤ (arg 0).toNat ∧ isDevReg (arg 0).toNat = false ∧
        Config.inFuses (arg 0).toNat = true) → Happens s .devread (ans s 2)) ∧
      ((arg 0).toNat % 8 = 0 → (arg 0).toNat < 0xF000000000000 ∨ (isDevReg (arg 0).toNat = false ∧
        Config.inFuses (arg 0).toNat = false) → Happens s .devread (ans1 s 0 0)) ∧
      (∀ k : Nat, k < 192 → (arg 0).toNat = 0xF000000200100 + 0x10000 * (k / 24) + 8 * (k % 24) →
        Happens s .devread (ans1 s 0 (s.cluster k).mon)) ∧
      (arg 0 = 0xF000000001000 → Happens s .devread (ans1 s 0 s.hbeat)) ∧
      (arg 0 = 0xF000000300000 → Happens s .devread (ans1 s 0 s.snapctl)) ∧
      (∀ d : Nat, d < 8 → (arg 0).toNat = 0xF000000100000 + 0x10000 * d → Happens s .devread (ans1 s 0 (s.die d).nbctl)) ∧
      (arg 0 = 0xF000000000000 → Happens s .devread (ans1 s 0
        (BitVec.ofNat 64 (s.devid.toNat * 16 + s.running.toNat * 4 + s.service.toNat))))) ∧
    (c.opcode = 15 →
      (arg 0 = 0xF000000300008 → Happens s .devwrite (ans { s with snapstep := arg 1 } 0)) ∧
      (∀ d : Nat, d < 8 → (arg 0).toNat = 0xF000000100008 + 0x10000 * d → Happens s .devwrite
        (ans (s.modDie d fun x => { x with nbwdog := BitVec.ofNat 64 (max 1024 (v % 2 ^ 32)) }) 0)) ∧
      ((arg 0).toNat < 0xF000000000000 ∨ arg 0 = 0xF000000000000 → Happens s .devwrite (ans s 2))) ∧
    (c.opcode = 16 →
      (8 ≤ (arg 0).toNat ∨ 2 ≤ v ∨ 786432 ≤ (arg 2).toNat → Happens s .clearmap (ans s 2)) ∧
      ((arg 0).toNat < 8 → arg 1 = 1 → (arg 2).toNat < 786432 → ∃ t, Happens s .clearmap t ∧ t.mbox = (ans s 0).mbox ∧
        t.flashWays = s.flashWays ∧ ∀ x, x ∈ t.flashLines ↔
          x ∈ s.flashLines ∧ x ≠ (96 * (arg 0).toNat + (arg 2).toNat / 8192, (arg 2).toNat % 8192)) ∧
      ((arg 0).toNat < 8 → arg 1 = 0 → (arg 2).toNat < 786432 → ∃ t, Happens s .clearmap t ∧ t.mbox = (ans s 0).mbox ∧
        t.flashLines = s.flashLines ∧ ((arg 0).toNat, (arg 2).toNat / 16, (arg 2).toNat % 16) ∉ t.flashWays)) ∧
    (c.opcode = 17 → s.members.length ≤ 15 → Happens s .group
      (ans1 s 0 (BitVec.ofNat 64 (2 ^ (s.members.length + 1) - 1 + s.refusedIds % 65536 * 65536))))

/-- R364, R371, R375, R413, R414, R420: the mailbox commands on a queue. CREATE takes the configuration block, DESTROY removes
a queue whose launches have ended; PREEMPT stops admission, and ends when no task is left in a slot, at rung 1 where none was
left; RESUME lets the queue run once no image is left; QRESET waits for a live update, performs what is on its way to the
homes, raises the generation and sends the fence to every home, those of the other devices included, and ends when each has
acknowledged; a launch of the queue that has not ended takes STATE 5 with ERR 9, and a task of it leaves its slot. The 33 homes of
a device are the model's reading (assumption 51), as are RESULT 2 for a queue that does not exist and RESULT 0 of RESUME for one
that is not pre-empted (assumption 73). -/
def Obligations.QueueCommands : Prop :=
  ∀ (s : State) (c : Cmd), s.mbox.cmd = some c → c.away = false → c.src = none → s.cmdWait = [] →
    let q := (c.args.getD 0 0).toNat
    let u := s.queue q
    let w : Nat → W64 := fun k => tget 0 s.cfgblocks (16 * q + k)
    let ans : State → BitVec 16 → State := fun t r =>
      { t with mbox := { t.mbox with cmd := none, go := false, result := r, rtag := c.tag } }
    let ans1 : State → BitVec 16 → W64 → State := fun t r v =>
      { t with mbox := { t.mbox with cmd := none, go := false, result := r, rtag := c.tag, res := tset t.mbox.res 0 v } }
    let started : Option Cmd := some { c with started := true }
    let known := tmem s.queues q
    (c.opcode = 1 →
      (4096 ≤ q → Happens s .create (ans s 2)) ∧ (q < 4096 → known = true → Happens s .create (ans s 4)) ∧
      (q < 4096 → known = false → s.blockBad q = true → Happens s .create (ans s 2)) ∧
      (w 11 ≠ 0 ∨ (w 0).toNat % 4096 ≠ 0 ∨ (w 1).extractLsb' 16 2 = 3 ∨ (w 4).extractLsb' 4 60 ≠ 0 → s.blockBad q = true) ∧
      (q < 4096 → known = false → s.blockBad q = false → ∃ t, Happens s .create t ∧ tmem t.queues q = true ∧
        t.mbox = (ans s 0).mbox ∧ t.queueMade = true ∧ (t.queue q).ring = w 0 ∧
        (t.queue q).log2n = ((w 1).extractLsb' 0 4).toNat ∧ (t.queue q).prio = (w 1).extractLsb' 8 8 ∧
        (t.queue q).level = (w 1).extractLsb' 16 2 ∧ (t.queue q).blockLevel = (w 1).extractLsb' 16 2 ∧ (t.queue q).ws = (w 1).extractLsb' 18 2 ∧
        (t.queue q).excl = (w 1).getLsbD 20 ∧ (t.queue q).slack = ((w 1).extractLsb' 32 16).toNat ∧
        (t.queue q).stataddr = w 2 ∧ (t.queue q).evring = w 3 ∧ (t.queue q).troot = w 5 ∧
        (t.queue q).semb = ((w 6).extractLsb' 0 14).toNat ∧ (t.queue q).semn = ((w 6).extractLsb' 16 14).toNat ∧
        (t.queue q).t1 = ((w 7).extractLsb' 0 16).toNat ∧ (t.queue q).t2 = ((w 7).extractLsb' 16 16).toNat ∧
        (t.queue q).ckbase = w 8 ∧ (t.queue q).savebase = w 9 ∧ (t.queue q).dies = (w 10).extractLsb' 0 8 ∧
        (t.queue q).gen = 0 ∧ (t.queue q).rung = 0 ∧ (t.queue q).head = 0 ∧ (t.queue q).tail = 0 ∧ (t.queue q).err = 0)) ∧
    (∀ i, (c.opcode = 2 ∧ i = Instr.destroy) ∨ (c.opcode = 3 ∧ i = .qreset) ∨ (c.opcode = 4 ∧ i = .preempt) ∨
        (c.opcode = 5 ∧ i = .resume) → 4096 ≤ q ∨ known = false → Happens s i (ans s 2)) ∧
    (q < 4096 → known = true →
      (c.opcode = 2 → ((∀ e, e ∈ s.launches → e.2.queue = q → e.2.stage = .over) →
          ∃ t, Happens s .destroy t ∧ tmem t.queues q = false ∧ t.mbox = (ans s 0).mbox ∧
            (∀ e, e ∈ t.launches → e.2.queue ≠ q) ∧ ∀ k, k ≠ q → t.queue k = s.queue k) ∧
        ((∃ e, e ∈ s.launches ∧ e.2.queue = q ∧ e.2.stage ≠ .over) → Happens s .destroy (ans s 4))) ∧
      (c.opcode = 4 → c.started = false → ∃ t, Happens s .preempt t ∧ (t.queue q).stopped = true ∧
        (t.queue q).ladder = s.refclk ∧ t.mbox.cmd = started ∧ t.cores = s.cores ∧
        (s.tasksOfQueue q ≠ [] → (t.queue q).rung = u.rung) ∧
        (s.tasksOfQueue q = [] → (∀ v, v ∈ s.saved → v.queue ≠ q) → (t.queue q).rung = BitVec.ofNat 2 (max u.rung.toNat 1))) ∧
      (c.opcode = 4 → c.started = true → u.stopped = true →
        (s.tasksOfQueue q = [] → (∀ v, v ∈ s.saved → v.queue = q → v.remap = []) →
          Happens s .preempt (ans1 s 0 (u.rung.setWidth 64))) ∧
        (s.tasksOfQueue q ≠ [] ∨ (∃ v, v ∈ s.saved ∧ v.queue = q ∧ v.remap ≠ []) → Idle s .preempt)) ∧
      (c.opcode = 5 → u.stopped = false → Happens s .resume (ans s 0)) ∧
      (c.opcode = 5 → u.stopped = true → (∀ v, v ∈ s.saved → v.queue ≠ q) → ∃ t, Happens s .resume t ∧
        (t.queue q).stopped = false ∧ (t.queue q).rung = 0 ∧ t.mbox.cmd = started) ∧
      (c.opcode = 3 → c.started = true ∨ s.update ≠ none → Idle s .qreset) ∧
      (c.opcode = 3 → c.started = false → s.update = none → s.launches = [] →
        (let begun : State → Prop := fun t => (t.queue q).gen = u.gen + 1 ∧ (t.queue q).resetting = true ∧
           (t.queue q).fences = [] ∧ (t.queue q).head = u.tail ∧ (t.queue q).err = 0 ∧ t.mbox.cmd = started ∧
           ∃ ws, t.outbox = s.outbox ++ ((s.system.filter fun d => d != s.devid).map fun d =>
             { dest := d, body := .fence s.devid q (u.gen + 1) }) ++ ws ∧ (s.bridge = true → ws = []) ∧
             ∀ f, f ∈ ws → ∃ at_ bs, f = { dest := s.hostDev, body := .hostWrite s.devid none at_ bs }
         ((∀ d o, o ∈ (s.die d).inbox → o.dev = s.devid → o.queue ≠ q) → ∃ t, Happens s .qreset t ∧ begun t) ∧
         (∀ d o a, d < 8 → (∀ k, k ≠ d → (s.die k).inbox = []) → (s.die d).inbox = [o] → (s.die d).arms = [] →
           (s.die d).waiters = [] → o.kind = .sig a → o.dev = s.devid → o.queue = q → o.gen = u.gen →
           ∃ t, Happens s .qreset t ∧ begun t ∧ (t.die d).inbox = [] ∧ tget 0 (t.die d).sems o.index =
             BitVec.ofNat 64 (min ((tget 0 (s.die d).sems o.index).toNat + a.toNat) (2 ^ 64 - 1))))) ∧
      (c.opcode = 3 → c.started = false → s.update = none → ∀ n l, s.launches = [(n, l)] → l.queue = q → l.stage ≠ .over →
        s.saved = [] → (∀ d, (s.die d).inbox = [] ∧ (s.die d).waiters = []) →
        (let ended : State → Prop := fun t => (t.launch n).stage = .over ∧ (t.launch n).state = 5 ∧ (t.launch n).err = 9 ∧
           (t.queue q).gen = u.gen + 1 ∧ (t.queue q).resetting = true ∧ (t.queue q).fences = [] ∧ t.mbox.cmd = started ∧
           ∀ d, d ∈ s.system → d ≠ s.devid → ({ dest := d, body := .fence s.devid q (u.gen + 1) } : Flit) ∈ t.outbox
         (s.cores = [] → ∃ t, Happens s .qreset t ∧ ended t) ∧
         (∀ g x, s.cores = [(g, x)] → l.stage = .admitted → (x.slot 0).occ = true → (x.slot 0).launch = n →
           (x.slot 0).pfx = [] → (x.slot 0).wait = .run → (x.slot 1).occ = false → (x.slot 2).occ = false →
           (x.slot 3).occ = false → x.context = some q → ∃ t, Happens s .qreset t ∧ ended t ∧ (t.slotAt ⟨g, 0⟩).occ = false ∧
             (t.core g).vq.recs = [] ∧ (t.core g).cq.recs = [] ∧ (t.core g).mq.recs = []))) ∧
      (c.opcode = 3 → c.started = true →
        (let all : Prop := (∀ h : Nat, h < 33 → h ∈ u.fences) ∧ ∀ d, d ∈ s.system → d ≠ s.devid → 33 + d.toNat ∈ u.fences
         (u.resetting = true → all → Happens s (.queueResetComplete q)
           (ans1 (s.modQueue q fun x => { x with resetting := false, fences := [] }) 0 (u.gen.setWidth 64))) ∧
         (u.resetting = false ∨ ¬ all → Idle s (.queueResetComplete q))))) ∧
    (∀ home : Nat,
      (u.resetting = true → home < 33 → home ∉ u.fences →
        Happens s (.homeFence q home) (s.modQueue q fun x => { x with fences := home :: x.fences })) ∧
      (u.resetting = false ∨ 33 ≤ home ∨ home ∈ u.fences → Idle s (.homeFence q home)))

/-- R419, R420, R424, R425, R426, R427: the images of the configuration flash, boot, live update, the heartbeat and attestation.
Whether an image verifies, its VERSION, digests and signatures are free values (assumptions 28, 29); that answers of the
attestation are kept in the state, and where the handover structure lies and what follows its word 0 (assumption 32), are the
model's choices, as is what of an image the queue cores hold as their program (assumption 28); RESULT 2 for a range outside the host
window, before RESULT 4, is its reading (assumption 73). An update hands over at a packet boundary of every queue, and waits for it
where a queue core has fetched a packet and is not done with it (assumption 31). A bridging device asks its group members for their
measurements too. -/
def Obligations.ImagesAndUpdates : Prop :=
  ∀ (s : State), s.cmdWait = [] →
    (∀ c, s.mbox.cmd = some c → c.away = false → c.src = none →
      let arg : Nat → Nat := fun k => (c.args.getD k 0).toNat
      let ans : State → BitVec 16 → State := fun t r =>
        { t with mbox := { t.mbox with cmd := none, go := false, result := r, rtag := c.tag } }
      let ans1 : State → BitVec 16 → W64 → State := fun t r v =>
        { t with mbox := { t.mbox with cmd := none, go := false, result := r, rtag := c.tag, res := tset t.mbox.res 0 v } }
      let host : Nat → Nat → List Byte := fun a n => (List.range n).map fun k => s.mem.get (0x8000000000000 + a + k)
      let fits : Nat → Nat → Prop := fun a n => a + n ≤ 2 ^ 50
      let put : Nat → Image → State := fun k i => if k = 0 then { s with imageA := i } else { s with imageB := i }
      let image : Nat → Image := fun k => if k = 0 then s.imageA else s.imageB
      let k := arg 0
      (c.opcode = 8 →
        (2 ≤ k ∨ ¬ fits (arg 1) (arg 2) → Happens s .slotwrite (ans s 2)) ∧
        (k < 2 → fits (arg 1) (arg 2) → s.service ≠ 3 → k = s.running.toNat → Happens s .slotwrite (ans s 4)) ∧
        (k < 2 → fits (arg 1) (arg 2) → s.service = 3 ∨ k ≠ s.running.toNat → Happens s .slotwrite
          (ans (put k { bytes := host (arg 1) (arg 2), verified := false }) 0))) ∧
      (c.opcode = 9 →
        (2 ≤ k → Happens s .slotverify (ans s 2)) ∧
        (k < 2 → imageOk (image k).bytes = true → Happens s .slotverify
          (ans1 (put k { image k with verified := true }) 0 ((Config.imageVersion (image k).bytes).setWidth 64))) ∧
        (k < 2 → imageOk (image k).bytes = false → Happens s .slotverify (ans (put k { image k with verified := false }) 6))) ∧
      (c.opcode = 10 →
        (2 ≤ k → Happens s .setslot (ans s 2)) ∧
        (k < 2 → (image k).verified = true → Happens s .setslot (ans { s with activeSlot := BitVec.ofNat 1 k } 0)) ∧
        (k < 2 → (image k).verified = false → Happens s .setslot (ans s 4))) ∧
      (c.opcode = 7 → c.started = false →
        (let other := 1 - s.running.toNat
         let bytes := host (arg 0) (arg 1)
         (¬ fits (arg 0) (arg 1) → Happens s .update (ans s 2)) ∧
         (fits (arg 0) (arg 1) → imageOk bytes = false → ∃ t, Happens s .update t ∧ t.running = s.running ∧ t.update = s.update ∧
           t.mbox.result = 6 ∧ t.mbox.cmd = none) ∧
         (fits (arg 0) (arg 1) → imageOk bytes = true → (∀ e, e ∈ s.queues → e.2.staged = false) → ∃ t, Happens s .update t ∧
           t.running = BitVec.ofNat 1 other ∧
           t.update = some { oldSlot := s.running, newSlot := BitVec.ofNat 1 other, since := s.refclk, handed := true } ∧
           (t.image other).bytes = bytes ∧ t.mbox.cmd = some { c with started := true } ∧
           (s.residents = [] → t.fcur = some 0 ∧ t.fwoken = (List.range 16).drop 1 ∧ ∀ n : Nat, n < 16 → t.fcore n =
             { FCore.reset with lmem := Config.imageProgram bytes, pending := (s.fcore n).pending }) ∧
           (s.mem.wf = true → t.peek handoverAt 2 = 3 ∧
             t.peek (handoverAt + 2) 4 = (8 + 8 * (21 * s.queues.length + 1) + 8 * 196608) % 2 ^ 32)) ∧
         (fits (arg 0) (arg 1) → imageOk bytes = true → (∃ e, e ∈ s.queues ∧ e.2.staged = true) → ∃ t, Happens s .update t ∧
           t.running = s.running ∧ t.fcores = s.fcores ∧ (t.image other).bytes = bytes ∧
           t.update = some { oldSlot := s.running, newSlot := BitVec.ofNat 1 other, since := s.refclk, handed := false } ∧
           t.mbox.cmd = some { c with started := true }))) ∧
      (c.opcode = 7 → c.started = true → ∀ u, s.update = some u →
        (u.handed = false → (∀ e, e ∈ s.queues → e.2.staged = false) → ∃ t, Happens s .update t ∧ t.running = u.newSlot ∧
          t.update = some { u with since := s.refclk, handed := true } ∧ t.mbox.cmd = some c ∧
          (s.residents = [] → t.fcur = some 0 ∧ ∀ n : Nat, n < 16 → t.fcore n = { FCore.reset with
            lmem := Config.imageProgram (s.image u.newSlot.toNat).bytes, pending := (s.fcore n).pending })) ∧
        (u.handed = true ∨ (∃ e, e ∈ s.queues ∧ e.2.staged = true) → Idle s .update))) ∧
    (∀ u v, s.update = some u → u.handed = false → Happens s (.hbeat v) { s with hbeat := v } ∧ Idle s .heartbeatTimeout) ∧
    (∀ u c, s.update = some u → u.handed = true → s.mbox.cmd = some c → c.opcode = 7 → c.started = true → c.src = none →
      (s.refclk ≤ u.since + 40000000 → ∃ t, Happens s (.hbeat 1) t ∧ t.hbeat = 1 ∧ t.update = none ∧
        t.activeSlot = u.newSlot ∧ t.running = s.running ∧ t.mbox.result = 0) ∧
      (u.since + 40000000 < s.refclk → Happens s (.hbeat 1) { s with hbeat := 1 }) ∧
      (∀ i, i = .hbeat 2 ∨ i = .heartbeatTimeout ∧ u.since + 40000000 ≤ s.refclk →
        ∃ t, Happens s i t ∧ t.update = none ∧ t.running = u.oldSlot ∧ (t.image u.newSlot.toNat).verified = false ∧
          (s.residents = [] → t.fcur = some 0) ∧
          t.mbox.result = 5 ∧ t.activeSlot = s.activeSlot) ∧
      (s.refclk < u.since + 40000000 → Idle s .heartbeatTimeout)) ∧
    (∀ v, s.update = none → Happens s (.hbeat v) { s with hbeat := v } ∧ Idle s .heartbeatTimeout) ∧
    (s.service ≠ 0 ∨ s.measurements ≠ [] → Idle s .boot) ∧
    (s.service = 0 → s.measurements = [] →
      (imageOk (s.image s.activeSlot.toNat).bytes = true → ∃ t, Happens s .boot t ∧ t.running = s.activeSlot ∧
        t.service = (if s.bridge then 1 else 0) ∧ t.devid = (if s.bridge then s.identity else 0) ∧ t.measurements.length = 4 ∧
        (t.image s.activeSlot.toNat).verified = true ∧ ∀ k, k ∈ s.flashClusters → (t.cluster k).retired = true) ∧
      (imageOk (s.image s.activeSlot.toNat).bytes = false → imageOk (s.image (1 - s.activeSlot.toNat)).bytes = true →
        ∃ t, Happens s .boot t ∧ t.running = ~~~s.activeSlot ∧ t.service = (if s.bridge then 1 else 0)) ∧
      (imageOk s.imageA.bytes = false → imageOk s.imageB.bytes = false → ∃ t, Happens s .boot t ∧ t.service = 3 ∧
        t.running = s.running ∧ t.measurements = [] ∧ t.mem = s.mem ∧ t.mbox = State.reset.mbox)) ∧
    (let sent : BitVec 256 → BitVec 768 → State := fun nonce sig => { s with
       attest := s.attest ++ [sig]
       outbox := s.outbox ++ s.members.map fun d => { dest := d, body := .measureRequest s.devid nonce } }
     (∃ sig, Happens s .getMeasurements (sent 0 sig)) ∧ ∀ nonce, ∃ sig, Happens s (.challenge nonce) (sent nonce sig))

/-- R10, R25, R409, R410, R412, R417, R419, R420, R428: register writes and reads, enumeration, and the end of reduced service. A
write that is not 8-byte aligned has no effect; the configuration blocks and the mailbox take what the host writes; GO starts a
command, sends it to the member it names, or answers one that cannot be accepted; BAR0 reads the mailbox, the configuration
blocks and the information blocks of the members, and 0 where nothing is assigned; a bridging device claims the devices found in
ascending order of hop count and port, up to 15, refuses an identity word that is a DEVID already, and leaves a device that another
bridge has claimed alone; a device whose service is reduced enters full service when no launch is admitted. That GSTEP is aligned to
0, and when a device that does not bridge has full service, are the model's choices (assumption 76), that GO set takes the command
at once its reading (assumption 73), and that bit 4 goes to the core of each resident queue its choice (assumption 53). -/
def Obligations.RegistersAndEnumeration : Prop :=
  ∀ (s : State) (space : RegSpace) (a v : W64),
    let n := a.toNat
    let m := s.mbox
    (n % 8 ≠ 0 → Happens s (.deviceRegisterWrite space a v) s) ∧
    (s.bridge = true →
      (0x200000 ≤ n → n < 0x280000 → n % 8 = 0 → Happens s (.deviceRegisterWrite .bar0 a v)
        { s with cfgblocks := tset s.cfgblocks ((n - 0x200000) / 8) v }) ∧
      (∀ k : Nat, k < 14 → n = 0x1000008 + 8 * k → Happens s (.deviceRegisterWrite .bar0 a v)
        { s with mbox := { m with args := tset m.args k v } }) ∧
      (n = 0x1000000 → Happens s (.deviceRegisterWrite .bar0 a v) { s with mbox := { m with
        opcode := v.extractLsb' 0 16, member := v.extractLsb' 16 4, reserved := v.extractLsb' 20 12, tag := v.extractLsb' 32 32 } }) ∧
      (n = 0x1000080 → m.go = true → Happens s (.deviceRegisterWrite .bar0 a v) s) ∧
      (n = 0x1000080 → m.go = false → v = 1 → s.cmdWait = [] →
        (let op := m.opcode.toNat
         let args := (List.range 14).map fun k => tget 0 m.args k
         let block := if op = 1 then (List.range 16).map fun k => tget 0 s.cfgblocks (16 * (tget 0 m.args 0).toNat + k) else []
         let cmd : Cmd := { opcode := op, tag := m.tag, args := args, src := none, away := false, started := false }
         let given : BitVec 16 → Prop := fun r => ∃ t, Happens s (.deviceRegisterWrite .bar0 a v) t ∧ t.mbox.result = r ∧
           t.mbox.go = false ∧ t.mbox.cmd = none ∧ t.mbox.rtag = m.tag
         let known : Prop := m.reserved = 0 ∧ 1 ≤ op ∧ op ≤ 17
         let ok : Prop := (op = 6 ∨ op = 8 ∨ op = 9 ∨ op = 10) ∨ (op = 16 ∧ s.service = 1 ∧ s.queueMade = false) ∨
           (1 ≤ op ∧ op ≤ 17 ∧ op ≠ 16 ∧ (s.service = 1 ∨ s.service = 2))
         (¬ known → given 1) ∧
         (known → m.member = 0 →
           (ok → ∃ t, Happens s (.deviceRegisterWrite .bar0 a v) t ∧
             t = { s with mbox := { m with go := true, cmd := some cmd }
                          fcores := t.fcores, fcur := t.fcur, fwoken := t.fwoken } ∧
             (s.residents = [] → t.fcores = s.fcores) ∧
             ∀ q u, s.queues = [(q, u)] → u.resident = true → (s.fcore u.qcore).asleep = false →
               t.fcore u.qcore = { s.fcore u.qcore with pending := (s.fcore u.qcore).pending ||| 0x10 }) ∧
           (¬ ok → given 3)) ∧
         (known → m.member ≠ 0 →
           (∀ d, s.members[m.member.toNat - 1]? = some d → Happens s (.deviceRegisterWrite .bar0 a v) { s with
             mbox := { m with go := true, cmd := some { cmd with away := true } }
             outbox := s.outbox ++ [{ dest := d, body := .mailboxCommand s.devid m.tag m.opcode args block }] }) ∧
           (s.members.length < m.member.toNat → given 7)))) ∧
      s.bar0Read 0x1000080 = some (if m.go then 1 else 0) ∧
      s.bar0Read 0x1000100 = some (BitVec.ofNat 64 (m.result.toNat + m.rtag.toNat * 2 ^ 32)) ∧
      (∀ k : Nat, k < 14 → s.bar0Read (0x1000108 + 8 * k) = some (tget 0 m.res k)) ∧
      (∀ k : Nat, k < 65536 → s.bar0Read (0x200000 + 8 * k) = some (tget 0 s.cfgblocks k)) ∧
      (∀ j k : Nat, 1 ≤ j → j ≤ 15 → k < 7 → s.bar0Read (0x10000 + 0x100 * j + 8 * k) = some ((tget [] s.infos j).getD k 0)) ∧
      (∀ k : Nat, 0x38 ≤ k → k < 0x10100 → s.bar0Read k = some 0)) ∧
    (s.bridge = false → Happens s (.deviceRegisterWrite .bar0 a v) s ∧ s.bar0Read n = some 0) ∧
    (a = 0xF000000300008 → Happens s (.deviceRegisterWrite .device a v) { s with snapstep := v }) ∧
    (∀ found others len, s.aligned = false → s.measurements ≠ [] →
      (∃ t, Happens s (.systemEnumeration found others len) t ∧ t.aligned = true ∧ t.gstep = 0 ∧ t.stepBase = s.refclk ∧
        t.steplen = (if len % 256 = 0 ∧ 256 ≤ len ∧ len ≤ 65536 then len else s.steplen)) ∧
      (s.bridge = true → others = [] → ∀ x, found = [x] → x.claimed = true → ∃ t,
        Happens s (.systemEnumeration found others len) t ∧ t.members = s.members ∧ t.system = s.system ∧
        t.refusedIds = s.refusedIds ∧ tget [] t.routes x.id.toNat = tget [] s.routes x.id.toNat ++
            ((x.hops, x.port) :: x.more).map fun y => { port := y.2, hops := y.1, extra := 0 }) ∧
      (s.bridge = true → others = [] → ∀ x, found = [x] → x.claimed = false →
        (x.id ∉ s.system → s.members.length < 15 → ∃ t, Happens s (.systemEnumeration found others len) t ∧
          t.members = s.members ++ [x.id] ∧ t.system = s.system ++ [x.id] ∧
          tget [] t.routes x.id.toNat = tget [] s.routes x.id.toNat ++
            ((x.hops, x.port) :: x.more).map fun y => { port := y.2, hops := y.1, extra := 0 }) ∧
        (x.id ∈ s.system → ∃ t, Happens s (.systemEnumeration found others len) t ∧ t.members = s.members ∧
          t.system = s.system ∧ t.refusedIds = s.refusedIds + 1)) ∧
      (s.bridge = true → others = [] → ∀ x y, found = [x, y] ∨ found = [y, x] →
        x.claimed = false → y.claimed = false →
        x.hops < y.hops ∨ (x.hops = y.hops ∧ x.port < y.port) → x.id ≠ y.id → x.id ∉ s.system → y.id ∉ s.system →
        s.members.length < 14 → ∃ t, Happens s (.systemEnumeration found others len) t ∧
          t.members = s.members ++ [x.id, y.id] ∧ t.system = s.system ++ [x.id, y.id]) ∧
      (s.bridge = false →
        (s.identity ∉ others → ∃ t, Happens s (.systemEnumeration found others len) t ∧ t.devid = s.identity ∧
          t.system = others ++ [s.identity] ∧ ∃ ws, ws.length = 7 ∧ t.outbox = s.outbox ++ [{
            dest := others.headD 0, body := .infoBlock s.identity ws }]) ∧
        (s.identity ∈ others → ∃ t, Happens s (.systemEnumeration found others len) t ∧ t.devid = s.devid))) ∧
    (∀ found others len, s.aligned = true ∨ s.measurements = [] → Idle s (.systemEnumeration found others len)) ∧
    (let ready : Prop := s.service = 1 ∨ (s.service = 0 ∧ s.bridge = false ∧ s.system ≠ [])
     let quiet : Prop := ∀ e, e ∈ s.launches → e.2.stage ≠ .admitted
     (ready → quiet → ∃ t, Happens s .reducedServiceEnd t ∧ t.service = 2 ∧ t.mem = s.mem ∧ t.launches = s.launches) ∧
     (¬ ready ∨ ¬ quiet → Idle s .reducedServiceEnd))

/-! ## Schedulers -/

/-- R29, R36, R37, R38, R39, R40, R41, R43, R48, R84: the scheduler of a die. It admits a queued launch, or rejects it with the
first error code of R36 that its descriptor deserves, or leaves it waiting for dies. With no packet offered it places the head of
its sequence: a released TCB, a child of the pool, or the next task or group of four of an admitted launch, which starts as R29
says; a launch whose next phase is not admitted yet holds the others back. A phase is admitted when the one before it has ended;
the head of a spill queue moves into the pool; a launch ends in STATE 2, or 3 where a task ended on a fatal trap. Which slot and
which dies are taken, and how a phase boundary splits a group, is the model's
choice (assumptions 90, 25); ERR 7 for a phase table that cannot be read is its reading (assumption 61). Of two admitted launches
the earlier one comes first, and while its next task has no slot or belongs to a phase not admitted yet the other one's tasks wait.
R378, R394, R395, R404: a level switch takes effect when every launch ahead of it has ended,
and for D2 when the dies are free, of which no cluster is under test; a cluster that is being emptied for a test is tested later.
That HEAD moves on and the dies are owned at the switch is the model's reading (assumption 57). A tick of the cadence releases the head launch, or posts an event where there is
none, and T moves on by the period. -/
def Obligations.SchedulingAndLevels : Prop :=
  (∀ (s : State) (d n q : Nat) (l : Launch) (u : Queue), s.launches = [(n, l)] → s.queues = [(q, u)] → l.queue = q →
    let runs : Prop := (s.service = 1 ∨ s.service = 2) ∧ (s.die d).disp = [] ∧ u.stopped = false ∧ u.resetting = false
    let free : Prop := runs ∧ (s.die d).ready = [] ∧ (s.die d).pool = []
    let own : Prop := free ∧ l.stage = .admitted ∧ l.det ≠ 2 ∧ l.mask.getLsbD d = true ∧ l.nextTask < l.count
    let starts : State → SlotRef → W32 → W64 → W64 → Role → Prop := fun t r task pc arg role =>
      (let m := t.slotAt r
       m.occ = true ∧ m.launch = n ∧ m.task = task ∧ m.pc = pc ∧ m.rx 1 = arg ∧ m.rx 2 = task.setWidth 64 ∧
       m.rx 3 = BitVec.ofNat 64 l.count ∧ (∀ k : XReg, 4 ≤ k.toNat → m.rx k = 0) ∧ m.p = 0 ∧ m.role = role ∧ m.tvec = l.tvec ∧
       m.yield = (if l.det = 2 then 0 else 16) ∧ m.started = false)
    let entry : Nat → W64 := fun k => l.prog + BitVec.ofNat 64 (4 * (l.entries.getD (k % (l.nent + 1)) 0).toNat)
    let role : Nat → Role := fun k => match (l.roles.getD (k % (l.nent + 1)) 0).toNat with | 0 => .epilogue | 1 => .arith | _ => .loader
    (runs → ∀ x, (s.die d).ready = [x] → x.launch = n → ∀ r, s.findSlot d l = some r → ∃ t, Happens s (.launchAdmission d) t ∧
      starts t r x.num x.prog x.arg x.role ∧ (t.slotAt r).origin = x.origin ∧ (t.die d).ready = [] ∧
      ∀ p, p ≠ r → t.slotAt p = s.slotAt p) ∧
    (runs → (s.die d).ready = [] → ∀ x, (s.die d).pool = [x] → x.launch = n → ∀ r, s.findSlot d l = some r →
      ∃ t, Happens s (.launchAdmission d) t ∧ starts t r x.num x.prog x.arg x.role ∧ (t.slotAt r).origin = .child ∧
        (t.die d).pool = [] ∧ ∀ p, p ≠ r → t.slotAt p = s.slotAt p) ∧
    (own → l.nextTask < l.lastTask → l.cgran = false → ∀ r, s.findSlot d l = some r → ∃ t, Happens s (.launchAdmission d) t ∧
      starts t r (BitVec.ofNat 32 l.nextTask) (entry l.nextTask) l.args (role l.nextTask) ∧ (t.slotAt r).uid = s.nextUid ∧
      (t.launch n).nextTask = l.nextTask + 1 ∧ (∀ p, p ≠ r → t.slotAt p = s.slotAt p) ∧
      q ∈ (t.cluster (r.core / 4)).placed ∧
      (t.core r.core).b0 = (if (s.core r.core).empty then l.b0 else (s.core r.core).b0)) ∧
    (own → l.nextTask + 4 ≤ l.lastTask → l.nextTask % 4 = 0 → l.cgran = true → ∀ k, k < 24 →
      (let fits : Nat → Prop := fun k => ∀ c, c < 4 → s.coreFits (96 * d + 4 * k + c) l = true ∧
         (s.core (96 * d + 4 * k + c)).freeSlot ≠ none
       fits k → (∀ j, j < k → ¬ fits j) → ∃ t, Happens s (.launchAdmission d) t ∧ (t.launch n).nextTask = l.nextTask + 4 ∧
         ∀ c, c < 4 → ∃ j, (s.core (96 * d + 4 * k + c)).freeSlot = some j ∧
           starts t ⟨96 * d + 4 * k + c, j⟩ (BitVec.ofNat 32 (l.nextTask + c)) (entry (l.nextTask + c)) l.args
             (role (l.nextTask + c)) ∧ (t.slotAt ⟨96 * d + 4 * k + c, j⟩).group = some s.nextUid)) ∧
    (own → l.lastTask ≤ l.nextTask → Idle s (.launchAdmission d)) ∧
    (free → l.stage = .queued → lowestDie u.dies = d → ∀ w, s.descWords u.troot l.desc = some w →
      (let f : Nat → Nat → Nat → Nat := fun k hi lo => ((w.getD k 0).extractLsb' lo (hi - lo + 1)).toNat
       let rejects : BitVec 8 → Prop := fun e => ∃ t, Happens s (.launchAdmission d) t ∧ (t.launch n).stage = .over ∧
         (t.launch n).state = 4 ∧ (t.launch n).err = e ∧ t.cores = s.cores
       let read : Nat → Nat → Option Nat := fun a k => s.fwRead u.troot a k
       let det := f 5 33 32
       let bad1 : Prop := f 2 63 32 ≠ 0 ∨ f 5 63 59 ≠ 0 ∨ f 5 30 30 ≠ 0 ∨ f 5 23 23 ≠ 0 ∨ f 5 15 15 ≠ 0 ∨ f 5 7 7 ≠ 0 ∨
         f 8 7 5 ≠ 0 ∨ f 8 31 16 ≠ 0 ∨ f 8 63 48 ≠ 0 ∨ f 12 63 32 ≠ 0 ∨ f 14 63 0 ≠ 0 ∨ f 15 63 0 ≠ 0 ∨
         (∃ k, k ≤ f 5 35 34 ∧ f 5 (37 + 2 * k) (36 + 2 * k) = 3) ∨ f 0 1 0 ≠ 0 ∨ f 6 1 0 ≠ 0 ∨ 16 < f 8 4 0 ∨ 48 < f 5 29 24
       let bad2 : Prop := ¬ (f 5 6 0 ≤ f 5 14 8 ∧ f 5 14 8 ≤ f 5 22 16 ∧ f 5 22 16 ≤ 64) ∨
         f 5 6 0 * 16384 < 32768 + 4 * (f 5 29 24 * 512 + 1024)
       let bad3 : Prop := det ≠ u.level.toNat ∨ det = 3 ∨ (det = 2 ∧ s.service = 1)
       let bad4 : Prop := f 5 49 47 < f 5 46 44 ∨ (det = 2 ∧ f 5 46 44 ≠ f 5 49 47)
       let count : Option Nat := if f 3 63 0 = 0 then some (f 2 31 0) else if f 3 63 0 % 8 ≠ 0 then none
         else match read (f 3 63 0) 8 with | some v => if v < 2 ^ 32 then some v else none | none => none
       let ok4 : Prop := ¬ bad1 ∧ ¬ bad2 ∧ ¬ bad3 ∧ ¬ bad4
       (bad1 → rejects 1) ∧ (¬ bad1 → bad2 → rejects 2) ∧ (¬ bad1 → ¬ bad2 → bad3 → rejects 3) ∧
       (¬ bad1 → ¬ bad2 → ¬ bad3 → bad4 → rejects 4) ∧ (ok4 → count = none → rejects 5) ∧
       ∀ c, count = some c →
         let bad6 : Prop := f 5 31 31 = 1 ∧ c % 4 ≠ 0
         let phases := f 8 15 8
         let first : Nat → Nat → Nat := fun v p => v / 2 ^ (64 * p) % 2 ^ 32
         let size : Nat → Nat → Nat := fun v p => v / 2 ^ (64 * p + 32) % 2 ^ 32
         let covers : Nat → Prop := fun v => first v 0 = 0 ∧ (∀ p, p + 1 < phases → first v (p + 1) = first v p + size v p) ∧
           first v (phases - 1) + size v (phases - 1) = c
         let bad7 : Prop := 0 < phases ∧ ∀ v, read (f 9 63 0) (8 * phases) = some v → ¬ covers v
         let bad12 : Prop := det = 2 ∧ (0 < f 8 47 32 ∨ f 5 50 50 = 1)
         let ok12 : Prop := ok4 ∧ ¬ bad6 ∧ ¬ bad7 ∧ ¬ bad12
         let ds := (s.diesFor q det).take (f 5 46 44 + 1)
         let ls := s.descLeases u.troot w det
         let big : Prop := det = 2 ∧ ((phases = 0 ∧ s.slotCount q ds < c) ∨ (0 < phases ∧ ∃ v p,
           read (f 9 63 0) (8 * phases) = some v ∧ p < phases ∧ s.slotCount q ds < size v p))
         let table : Nat → Nat → Nat → Nat → Nat := fun v k hi lo => v / 2 ^ (128 * k + lo) % 2 ^ (hi + 1 - lo)
         let bad10 : Prop := f 7 63 0 % 16 ≠ 0 ∨ (0 < f 8 4 0 ∧ ∀ v, read (f 7 63 0) (16 * f 8 4 0) = some v →
           ∃ k, k < f 8 4 0 ∧ (table v k 15 0 ≠ 0 ∨ canonical (table v k 63 0) = false ∨ table v k 127 99 ≠ 0 ∨
             table v k 95 64 = 0 ∨ (table v k 98 98 = 1 ∧ det = 2)))
         let enough : Prop := (s.service = 2 ∨ f 5 46 44 = 0) ∧ ds.length = f 5 46 44 + 1
         (ok4 → bad6 → rejects 6) ∧ (ok4 → ¬ bad6 → bad7 → rejects 7) ∧
         (ok4 → ¬ bad6 → ¬ bad7 → bad12 → rejects 12) ∧
         (ok12 → s.service = 1 → 0 < f 5 46 44 → rejects 11) ∧
         (ok12 → s.service = 2 ∨ f 5 46 44 = 0 → ds.length < f 5 46 44 + 1 → Idle s (.launchAdmission d)) ∧
         (ok12 → enough → big → rejects 12) ∧ (ok12 → enough → ¬ big → bad10 → rejects 10) ∧
         (ok12 → enough → ¬ big → ¬ bad10 → ls ≠ none) ∧
         (ok12 → enough → ¬ big → ∀ es, ls = some es →
           (s.service = 1 → es.any (s.leaseService u.troot) = true → rejects 11) ∧
           (s.service = 2 ∨ es.any (s.leaseService u.troot) = false →
             (s.residentPages u.troot es [] = none → Idle s (.launchAdmission d)) ∧
             (∀ ts, s.residentPages u.troot es [] = some ts → ∃ t, Happens s (.launchAdmission d) t ∧
               (t.launch n).stage = .admitted ∧ (t.launch n).state = 1 ∧ (t.launch n).err = 0 ∧ (t.launch n).count = c ∧
               (t.launch n).prog = w.getD 0 0 ∧ (t.launch n).args = w.getD 1 0 ∧ (t.launch n).leases = es ∧
               (t.launch n).gstepStart = s.gstep ∧ (t.launch n).nextTask = 0 ∧
               (phases = 0 → (t.launch n).lastTask = c) ∧
               (∀ v, 0 < phases → read (f 9 63 0) (8 * phases) = some v → (t.launch n).lastTask = size v 0) ∧
               (∀ e, e < 8 → ((t.launch n).mask.getLsbD e = true ↔ e ∈ ds))))))) ∧
    (let more := l.phase + 1 < l.phases.length
     (l.stage = .admitted → l.det ≠ 2 → more → s.launchQuiet n = true → ∃ t, Happens s (.phaseAdmission n) t ∧
       t.launches = [(n, { l with
         phase := l.phase + 1, nextTask := (l.phases.getD (l.phase + 1) (0, 0)).1
         lastTask := (l.phases.getD (l.phase + 1) (0, 0)).1 + (l.phases.getD (l.phase + 1) (0, 0)).2
         barrier := none, phaseStart := (l.nextNum, l.exited, l.faulted) })] ∧ t.mem = s.mem) ∧
     (¬ more ∨ s.launchQuiet n = false → Idle s (.phaseAdmission n)) ∧
     (l.stage = .admitted → ¬ more → s.launchQuiet n = true → l.det ≠ 2 → ∃ t, Happens s (.launchEnd n) t ∧
       (t.launch n).stage = .over ∧ (t.launch n).state = (if l.faulted = 0 then 2 else 3) ∧ (t.launch n).gstepEnd = s.gstep) ∧
     (l.stage ≠ .admitted ∨ more ∨ s.launchQuiet n = false → Idle s (.launchEnd n))) ∧
    (let held := tget 0 l.spillTail d - tget 0 l.spillHead d
     let at_ := l.spill.toNat + 64 * l.spillcap * d + 64 * (tget 0 l.spillHead d % l.spillcap)
     (l.stage = .admitted → u.stopped = false → u.resetting = false → 0 < held → (s.die d).pool.length < 1024 →
       ∀ v, s.fwRead u.troot at_ 64 = some v →
       ∃ t c, Happens s (.spillRefill d) t ∧ (t.die d).pool = (s.die d).pool ++ [c] ∧ c.launch = n ∧
         c.prog = BitVec.ofNat 64 v ∧ c.arg = BitVec.ofNat 64 (v / 2 ^ 64) ∧ c.num = BitVec.ofNat 32 (v / 2 ^ 128) ∧
         c.gang = (if v / 2 ^ 176 % 2 = 1 then some (BitVec.ofNat 6 (v / 2 ^ 170)) else none) ∧
         tget 0 (t.launch n).spillHead d = tget 0 l.spillHead d + 1) ∧
     (1024 ≤ (s.die d).pool.length ∨ held = 0 ∨ u.stopped = true ∨ u.resetting = true → Idle s (.spillRefill d)))) ∧
  (∀ (s : State) (d n m : Nat) (l x : Launch), s.launches = [(n, l), (m, x)] ∨ s.launches = [(m, x), (n, l)] → n ≠ m →
    s.service = 1 ∨ s.service = 2 → (s.die d).disp = [] → (s.die d).ready = [] → (s.die d).pool = [] →
    (∀ y, y = l ∨ y = x → y.stage = .admitted ∧ y.det ≠ 2 ∧ y.mask.getLsbD d = true ∧ y.nextTask < y.count ∧ y.cgran = false ∧
      (s.queue y.queue).stopped = false ∧ (s.queue y.queue).resetting = false) → l.order < x.order →
    (l.lastTask ≤ l.nextTask ∨ s.findSlot d l = none → Idle s (.launchAdmission d)) ∧
    (l.nextTask < l.lastTask → ∀ r, s.findSlot d l = some r → ∃ t, Happens s (.launchAdmission d) t ∧
      (t.slotAt r).occ = true ∧ (t.slotAt r).launch = n ∧ (t.slotAt r).task = BitVec.ofNat 32 l.nextTask ∧
      (t.launch n).nextTask = l.nextTask + 1 ∧ (t.launch m).nextTask = x.nextTask ∧ ∀ p, p ≠ r → t.slotAt p = s.slotAt p)) ∧
  (∀ (s : State) (q : Nat), tmem s.queues q = true →
    let u := s.queue q
    let quiet : Prop := ∀ e, e ∈ s.launches → e.2.queue = q → e.2.stage = .over
    (∀ lv, u.switching = some lv →
      (¬ quiet → Idle s (.levelSwitch q)) ∧
      (quiet → lv = 2 → (∃ d, d < 8 ∧ u.dies.getLsbD d = true ∧ s.dieFree d q = false) → Idle s (.levelSwitch q)) ∧
      (quiet → lv = 2 → (∃ d k, d < 8 ∧ u.dies.getLsbD d = true ∧ (s.die d).d2 ≠ some q ∧ k < 24 ∧
        (s.cluster (24 * d + k)).test = .running) → Idle s (.levelSwitch q)) ∧
      (quiet → lv ≠ 2 ∨ (∀ d, d < 8 → u.dies.getLsbD d = true → s.dieFree d q = true) → ∃ t, Happens s (.levelSwitch q) t ∧
        (t.queue q).level = lv ∧ (t.queue q).switching = none ∧ (t.queue q).head = u.head + 1 ∧
        (∀ d, d < 8 → u.dies.getLsbD d = true → lv = 2 → (t.die d).d2 = some q) ∧
        (∀ d k, d < 8 → u.dies.getLsbD d = true → lv = 2 → (s.die d).d2 ≠ some q → k < 24 →
          (s.cluster (24 * d + k)).test = .emptying →
          (t.cluster (24 * d + k)).test = .none ∧ (t.cluster (24 * d + k)).testDue = true) ∧
        (∀ d, d < 8 → lv ≠ 2 → (t.die d).d2 ≠ some q))) ∧
    (u.switching = none → Idle s (.levelSwitch q)) ∧
    (u.cadence = true → u.tick.toNat / 65536 = s.gstep.toNat % 2 ^ 48 →
      (∀ n l, s.launches = [(n, l)] → l.queue = q → l.stage = .ticking → ∃ t, Happens s (.cadenceTick q) t ∧
        t.launches = [(n, { l with stage := .queued })] ∧ (t.queue q).tick = u.tick + u.period.setWidth 64 ∧
        (t.queue q).evseq = u.evseq ∧ t.mem = s.mem ∧
        (u.resident = true → (s.fcore u.qcore).asleep = false →
          t.fcore u.qcore = { s.fcore u.qcore with pending := (s.fcore u.qcore).pending ||| 8 })) ∧
      (s.launches = [] → ∃ t, Happens s (.cadenceTick q) t ∧ (t.queue q).tick = u.tick + u.period.setWidth 64 ∧
        (t.queue q).evseq = u.evseq + 1)) ∧
    (u.cadence = false ∨ u.tick.toNat / 65536 ≠ s.gstep.toNat % 2 ^ 48 → Idle s (.cadenceTick q)))

/-! ## Parks, shootdowns and pre-emption -/

/-- R87, R88, R89, R91, R92, R93: a parked access of a slot goes on when a write has reached the line that its monitor watches
and its entry has become valid, and parks again where it meets an invalid one; it traps PARK_TIMEOUT when its limit has passed.
A shootdown is posted to the cores of its context, or waits at Flambeol while a mapping is pinned; it is
acknowledged when no task lags, with what the core's pool cache holds of the range written back, and at SHOOT_WAIT a lagging task
stops at its boundary, where it stays until the acknowledgement. The park of an engine's entry is woken and times out in the same
way; its PARK_TIMEOUT is pending in the slot of the entry, which stays parked. R339, R371 to R374, R376: the ladder. T1 after its
start the cores of the queue begin to save; at level 2 they wait for the end of the superstep, until T1 + T2 at the latest, where
that end falls within T2, and save at once where it does not. A core whose tasks stand at boundaries is saved and left empty, with its pool and tags, its memory image
written, its generation and rung, boundaries, GSTEP, pool and slot blocks among it (here where no engine has an entry and nothing
is on its way); a landing that arrives after the save goes to the image, and with the last one the save is complete; T2 after the
saves began a core that is not saved is reset and saved as such. When no task is left, the rung is
recorded. That the save itself takes no time is the model's choice (assumption 22), and so is what a saved core keeps
(assumption 98); whether the end of a superstep falls within T2 is a free value (assumption 65). -/
def Obligations.ParksShootdownsAndPreemption : Prop :=
  (∀ (s : State) (g : Nat) (k : Fin 4),
    let r : SlotRef := ⟨g, k⟩
    let l := s.slotAt r
    (∀ p, l.park = some p →
      (let hears : Prop := if p.monitored = true then (p.entry, true) ∈ s.armed else p.entry ∈ s.monitors (g / 4) ∨
         ((s.monitors (g / 4)).length < 64 ∧ ∀ y, y ∈ s.parksIn (g / 4) → y.monitored = true ∨ p.order ≤ y.order)
       (¬ hears → Idle s (.parkWake g (.slot k.val))) ∧
       (hears → ∀ e x y z, s.walk (s.queueOf r).troot p.addr.toNat = .ok e x y z →
         Happens s (.parkWake g (.slot k.val)) (s.setSlot r { l with park := none })) ∧
       (hears → ∀ e, s.walk (s.queueOf r).troot p.addr.toNat = .invalid e → ∃ t p1, Happens s (.parkWake g (.slot k.val)) t ∧
         t.slotAt r = { l with park := some p1 } ∧ p1.addr = p.addr ∧ p1.entry = e ∧ p1.since = p.since ∧
         p1.expired = p.expired ∧ (∀ y, y ≠ r → t.slotAt y = s.slotAt y) ∧ t.mem = s.mem))) ∧
    (∀ p, l.park = some p → p.expired = false →
      (let limit := (l.parklim.extractLsb' 0 16).toNat * 1024
       (s.refclk - p.since < limit → Idle s (.parkTimeout g (.slot k.val))) ∧
       (limit ≤ s.refclk - p.since → l.inh = false → ∃ t, Happens s (.parkTimeout g (.slot k.val)) t ∧
         (t.slotAt r).tcause = 0x11 ∧ (t.slotAt r).tval = p.addr ∧ (t.slotAt r).tpc = l.trapPc ∧ (t.slotAt r).pc = l.tvec ∧
         (t.slotAt r).park = none ∧ (t.slotAt r).x = l.x ∧ bits (t.slotAt r).tstat 0 0 = 1 ∧
         (∀ p, p ≠ r → t.slotAt p = s.slotAt p) ∧ t.mem = s.mem))) ∧
    (l.park = none → Idle s (.parkWake g (.slot k.val)) ∧ Idle s (.parkTimeout g (.slot k.val))) ∧
    (∀ (e : EngId) (q : QRec) (p : Park), q.slot = k → q.park = some p →
      (let w : Which := match e with | .vec => .vec | .copy => .copy | .mx => .mx
       let recs : State → List QRec := fun t => ((t.core g).queue w).recs
       let stays : State → Prop := fun t => (∀ y, t.slotAt y = s.slotAt y) ∧ t.mem = s.mem
       let hears : Prop := if p.monitored = true then (p.entry, true) ∈ s.armed else p.entry ∈ s.monitors (g / 4) ∨
         ((s.monitors (g / 4)).length < 64 ∧ ∀ y, y ∈ s.parksIn (g / 4) → y.monitored = true ∨ p.order ≤ y.order)
       let limit := (l.parklim.extractLsb' 0 16).toNat * 1024
       recs s = [q] →
       (¬ hears → Idle s (.parkWake g (.engine e))) ∧
       (hears → ∀ a x y z, s.walk (s.queueOf r).troot p.addr.toNat = .ok a x y z → ∃ t,
         Happens s (.parkWake g (.engine e)) t ∧ recs t = [{ q with park := none }] ∧ stays t) ∧
       (hears → ∀ a, s.walk (s.queueOf r).troot p.addr.toNat = .invalid a → ∃ t p1,
         Happens s (.parkWake g (.engine e)) t ∧ recs t = [{ q with park := some p1 }] ∧ stays t ∧ p1.addr = p.addr ∧
         p1.entry = a ∧ p1.since = p.since ∧ p1.expired = p.expired) ∧
       (p.expired = true ∨ s.refclk - p.since < limit ∨ (∃ x, x ∈ l.engTraps ∧ x.orig = w.orig) →
         Idle s (.parkTimeout g (.engine e))) ∧
       (p.expired = false → limit ≤ s.refclk - p.since → l.engTraps = [] → ∃ t x,
         Happens s (.parkTimeout g (.engine e)) t ∧ recs t = [{ q with park := some { p with expired := true } }] ∧
         (t.slotAt r).engTraps = [x] ∧ x.cause = .parkTimeout ∧ x.tval = p.addr ∧ x.word = q.instr.encode ∧
         x.qent = BitVec.ofNat 8 q.idx ∧ x.orig = w.orig ∧ (t.slotAt r).pc = l.pc ∧ (t.slotAt r).x = l.x ∧
         (∀ y, y ≠ r → t.slotAt y = s.slotAt y) ∧ t.mem = s.mem))) ∧
    (∀ q base pages,
      (s.rangePinned (s.queue q).troot base pages = true →
        ((q, base, pages) ∈ s.shootReqs → Idle s (.shootdown q base pages)) ∧
        ((q, base, pages) ∉ s.shootReqs → Happens s (.shootdown q base pages)
          { s with shootReqs := s.shootReqs ++ [(q, base, pages)] })) ∧
      (s.rangePinned (s.queue q).troot base pages = false → ∀ c, s.cores = [(g, c)] → c.context = some q →
        ∃ x : Shoot, Happens s (.shootdown q base pages)
            (({ s with shootReqs := s.shootReqs.erase (q, base, pages) } : State).setCore g { c with shoots := c.shoots ++ [x] }) ∧
          x.base = base ∧ x.pages = pages ∧ x.since = s.refclk ∧ x.stopped = [] ∧
          ((∀ j : Fin 4, (s.slotAt ⟨g, j⟩).occ = true → (s.launchOf ⟨g, j⟩).det ≠ 2) →
            ∀ uid, uid ∈ x.lagging ↔ ∃ j : Fin 4, (s.slotAt ⟨g, j⟩).occ = true ∧ (s.slotAt ⟨g, j⟩).uid = uid) ∧
          ((∃ j : Fin 4, (s.slotAt ⟨g, j⟩).occ = true ∧ (s.launchOf ⟨g, j⟩).det = 2) → x.lagging = []))) ∧
    (∀ x, (s.core g).shoots = [x] →
      (x.lagging ≠ [] → Idle s (.shootdownAck g)) ∧
      (x.lagging = [] → s.overlay = [] → ∃ tlb,
        Happens s (.shootdownAck g) (s.setCore g { s.core g with shoots := [], tlb := tlb }) ∧
        ∀ e, e ∈ tlb ↔ e ∈ (s.core g).tlb ∧ e.touches x = false) ∧
      (x.lagging = [] → ∀ o e, s.overlay = [o] → o.eng = none → o.sees g = true → s.mem.wf = true → (s.core g).tlb = [e] →
        e.pages = 1 → x.pages = 1 → e.vpn = x.base.toNat / 65536 % 2 ^ 39 →
        (o.loc / 65536 = (e.pte.extractLsb' 16 36).toNat → ∃ t, Happens s (.shootdownAck g) t ∧ t.mem.get o.loc = o.byte ∧
          t.overlay = [] ∧ (t.core g).shoots = [] ∧ (t.core g).tlb = []) ∧
        (o.loc / 65536 ≠ (e.pte.extractLsb' 16 36).toNat → ∃ t, Happens s (.shootdownAck g) t ∧ t.mem = s.mem ∧
          t.overlay = [o] ∧ (t.core g).shoots = [] ∧ (t.core g).tlb = [])) ∧
      (x.lagging = [l.uid] → s.refclk - x.since < 800 * s.shootWait → Idle s (.shootWaitExpiry g)) ∧
      (x.lagging = [l.uid] → 800 * s.shootWait ≤ s.refclk - x.since → l.occ = true →
        (∀ j : Fin 4, j ≠ k → (s.slotAt ⟨g, j⟩).occ = false) → l.away = none →
        (l.atBoundary = false → Idle s (.shootWaitExpiry g)) ∧
        (l.atBoundary = true → ∃ t, Happens s (.shootWaitExpiry g) t ∧
          (t.core g).shoots = [{ x with lagging := [], stopped := x.stopped ++ [l.uid] }] ∧ (t.slotAt r).park = none ∧
          (t.slotAt r).pushes = 0 ∧ (t.slotAt r).pc = l.trapPc ∧ (t.slotAt r).pfx = [] ∧ (t.slotAt r).x = l.x ∧
          (t.slotAt r).pend = l.pend ∧ t.mem = s.mem ∧ (t.core g).ready k = false)))) ∧
  (∀ (s : State) (q g : Nat), s.coresOf q = [g] → (s.core g).context = some q →
    let u := s.queue q
    let c := s.core g
    let slot : Fin 4 → Slot := fun k => s.slotAt ⟨g, k⟩
    let emptied : State → BitVec 2 → Prop := fun t n => (t.core g).context = c.context ∧ (t.core g).saving = false ∧
      (t.core g).b0 = c.b0 ∧ (t.core g).b1 = c.b1 ∧ (t.core g).b2 = c.b2 ∧ (t.core g).vq = EngQ.reset ∧
      (t.core g).cq = EngQ.reset ∧ (t.core g).mq = EngQ.reset ∧ (∀ k : Fin 4, (t.slotAt ⟨g, k⟩).occ = false) ∧
      (∃ v : Saved, t.saved = s.saved ++ [v] ∧ v.queue = q ∧ v.core = g ∧ v.fresh = (n == 3) ∧
        ∀ k : Fin 4, (slot k).occ = true → ∃ l, (k.val, l) ∈ v.slots ∧ l.uid = (slot k).uid) ∧
      (u.stopped = true → (∀ v, v ∈ s.saved → v.queue = q → v.fresh = false ∧ v.remap = []) → (t.queue q).rung.toNat = max u.rung.toNat n.toNat)
    let saves : Nat → State := fun reason =>
      (s.modQueue q fun x => { x with breakWith := reason, saveAt := s.refclk }).setCore g { c with saving := true }
    (u.stopped = true → c.saving = false →
      (s.refclk < u.ladder + 800 * u.t1 → Idle s (.drainTimeout q)) ∧
      (u.level ≠ 2 → u.ladder + 800 * u.t1 ≤ s.refclk → Happens s (.drainTimeout q) (saves 0)) ∧
      (u.level = 2 → u.awaits = false → u.ladder + 800 * u.t1 ≤ s.refclk →
        (Config.superstepFits s.freeCtr = false → Happens s (.drainTimeout q) { saves 3 with freeCtr := s.freeCtr + 1 }) ∧
        (Config.superstepFits s.freeCtr = true → Happens s (.drainTimeout q)
          { s.modQueue q fun x => { x with awaits := true } with freeCtr := s.freeCtr + 1 })) ∧
      (u.level = 2 → u.awaits = true →
        (s.refclk < u.ladder + 800 * (u.t1 + u.t2) → Idle s (.drainTimeout q)) ∧
        (u.ladder + 800 * (u.t1 + u.t2) ≤ s.refclk → Happens s (.drainTimeout q) (saves 3)))) ∧
    (u.stopped = false → Idle s (.drainTimeout q) ∧ Idle s (.saveTimeout q)) ∧
    (c.saving = false → Idle s (.saveComplete g)) ∧
    (∀ v r w loc b, s.saved = [v] → v.core = g → v.queue = q → v.remap = [([(loc, b)], r, w)] → c.saving = true →
      ∃ t v1, Happens s (.saveComplete g) t ∧ t.saved = [v1] ∧ v1.remap = [] ∧ v1.slots = v.slots ∧ (t.core g).saving = false ∧
        (let at_ := u.savebase.toNat + g * 0x200000
         let off := loc - (2 ^ 52 + g * 2 ^ 20)
         s.mem.wf = true → at_ + 0x200000 ≤ 2 ^ 52 → u.stataddr.toNat + 8 ≤ at_ ∨ at_ + 0x200000 ≤ u.stataddr.toNat →
         2 ^ 52 + g * 2 ^ 20 ≤ loc → 32768 ≤ off → off < 0x100000 → r.idx < 64 →
         t.mem.get (at_ + 0x100000 + off) = b ∧
         (cpWmen r.ops = true → t.peek (at_ + 0x100 + 32 * cpWmi r.ops + 16) 8 = w.wm.toNat))) ∧
    (c.saving = true → (∀ k, (slot k).away = none) → (∀ x, x ∈ c.cq.recs → x.landing = false) →
      (∀ v, v ∈ s.saved → v.core = g → v.remap = []) →
      ((∃ k, (slot k).occ = true ∧ (slot k).atBoundary = false) → Idle s (.saveComplete g)) ∧
      ((∀ k, (slot k).occ = true → (slot k).atBoundary = true) → ∃ t, Happens s (.saveComplete g) t ∧ emptied t 2 ∧
        (t.core g).tags = c.tags ∧
        (let at_ := u.savebase.toNat + g * 0x200000
         s.mem.wf = true → s.overlay = [] → at_ + 0x200000 ≤ 2 ^ 52 → c.vregs ≤ 48 →
         32768 + 4 * (c.vregs * 512 + 1024) ≤ c.b0.toNat * 16384 →
         u.stataddr.toNat + 8 ≤ at_ ∨ at_ + 0x200000 ≤ u.stataddr.toNat → (∀ w : Which, (c.queue w).recs = []) →
         (∀ e, e ∈ c.tags → e.1 < 256) → (∀ k, (slot k).occ = true → (slot k).pend = []) →
         t.peek at_ 2 = u.gen.toNat + 2 * 256 ∧ t.peek (at_ + 8) 8 = s.gstep.toNat ∧
         t.peek (at_ + 0x340) 8 = c.b0.toNat ∧ t.peek (at_ + 0x348) 8 = c.b1.toNat ∧ t.peek (at_ + 0x350) 8 = c.b2.toNat ∧
         (∀ k, (slot k).occ = true → t.peek (at_ + 0x1000 + 0x400 * k.val) 8 = (slot k).trapPc.toNat ∧
           (∀ j : XReg, 1 ≤ j.toNat → t.peek (at_ + 0x1000 + 0x400 * k.val + 8 * j.toNat) 8 = ((slot k).rx j).toNat) ∧
           t.peek (at_ + 0x1000 + 0x400 * k.val + 0x100) 8 = (slot k).p.toNat / 2 * 2 ∧
           t.peek (at_ + 0x1000 + 0x400 * k.val + 0x180) 4 = (slot k).task.toNat) ∧
         ∀ o, c.b0.toNat * 16384 ≤ o → o < 0x100000 →
           t.mem.get (at_ + 0x100000 + o) = s.mem.get (2 ^ 52 + g * 2 ^ 20 + o)))) ∧
    (u.stopped = true → c.saving = true → (∀ k, (slot k).dying = false) →
      (s.refclk < u.saveAt + 800 * u.t2 → Idle s (.saveTimeout q)) ∧
      (u.saveAt + 800 * u.t2 ≤ s.refclk → ∃ t, Happens s (.saveTimeout q) t ∧ emptied t 3 ∧ (t.core g).tags = [])))

/-! ## Nimbus and resets -/

/-- R348, R349, R350, R351, R353, R354, R356, R357, R377, R392, R393: an alarm resets the engine, and NBEVT and NBCNT record it; a
second alarm of one engine in one cycle is no second reset, and leaves the lower cause in NBEVT; outside a Drizzle window it
breaks the schedule of the core's tasks on a D2 die, and the third one of causes 0 to 2 in 2^26 cycles makes Nimbus reset the core
where NBCTL asks for it, also where it comes in the cycle of a test alarm or a Drizzle reset. A watchdog fires once its entry has run
NBWDOG.LIMIT cycles without progress, which a parked one does not. A test alarm fires at its cycle; a Drizzle reset takes the engine
that is due when its time has come and it is idle or at a mark, and the round-robin passes on (that the resets of a DRZPER are evenly
spaced is the model's choice, assumption 92). In D2 it happens when the Drizzle window opens: the engine that is due is reset unless
it runs, in which case the round-robin offers it again, and each core with an engine that runs has its tasks' schedule broken with
reason 4. -/
def Obligations.Alarms : Prop :=
  ∀ (s : State) (g : Nat) (e : EngId),
    let d := g / 96
    let x := s.die d
    let c := s.core g
    let code : EngId → BitVec 2 := fun e => match e with | .vec => 0 | .copy => 1 | .mx => 2
    let last : Nat → EngId → Nat × Nat := fun g e => tget (0, 5) (s.die (g / 96)).alarmed (g % 96 * 3 + (code e).toNat)
    let quiet : Nat → EngId → Prop := fun g e => (last g e).2 < 5 → (last g e).1 ≠ s.refclk
    let event : Nat → EngId → BitVec 7 → W64 := fun g e cause =>
      (s.gstep.extractLsb' 0 48 ++ (cause ++ (code e ++ BitVec.ofNat 7 (g % 96))) : BitVec (48 + (7 + (2 + 7))))
    let counted : State → Nat → EngId → BitVec 7 → Prop := fun t g e cause =>
      (t.die (g / 96)).nbevt = event g e cause ∧
      (t.die (g / 96)).nbcnt = (s.die (g / 96)).nbcnt.extractLsb' 32 32 ++ ((s.die (g / 96)).nbcnt.extractLsb' 0 32 + 1)
    let cleared : State → Nat → EngId → Prop := fun t g e =>
      match e with
        | .vec => (t.core g).vrun = none ∧ ∀ q, q ∈ (t.core g).vq.recs → q.park = none
        | .copy => ∀ q, q ∈ (t.core g).cq.recs → q.st = .running → q.fin = .no → q.row = q.mrow ∧ q.off = q.moff
        | .mx => (t.core g).mrun = none ∧ (t.core g).active.stale = (s.core g).active.has ∧
          (t.core g).shadow.stale = (s.core g).shadow.has
    let reset : State → Nat → EngId → BitVec 7 → Prop := fun t g e cause => counted t g e cause ∧ cleared t g e ∧
      (∀ p, t.slotAt p = s.slotAt p) ∧ t.mem = s.mem ∧ ∀ k, k ≠ g / 96 → t.die k = s.die k
    let runs : Nat → EngId → Prop := fun g e =>
      match e with
        | .vec => (s.core g).vrun ≠ none ∨ ∃ q, q ∈ (s.core g).vq.recs ∧ q.st = .running
        | .copy => ∃ q, q ∈ (s.core g).cq.recs ∧ q.st = .running ∧ q.fin = .no
        | .mx => (s.core g).mrun ≠ none ∨ ∃ q, q ∈ (s.core g).mq.recs ∧ q.st = .running
    let running : Prop := runs g e
    let stuck := tget 0 c.wdog (code e).toNat
    let limit := (x.nbwdog.extractLsb' 0 32).toNat
    let fires : Instr → Nat → Prop := fun i n => (i = .parityAlarm g e ∧ n = 1) ∨ (i = .protocolAlarm g e ∧ n = 2) ∨
      (i = .watchdog g e ∧ n = 0 ∧ running ∧ limit ≤ stuck)
    let twice : Prop := ∃ a b, s.faults = [(.engine g e, [a, b])] ∧ s.refclk - a ≤ 2 ^ 26 ∧ s.refclk - b ≤ 2 ^ 26
    (s.faults = [] → x.d2 = none → quiet g e →
      (∃ t, Happens s (.parityAlarm g e) t ∧ reset t g e 1) ∧ (∃ t, Happens s (.protocolAlarm g e) t ∧ reset t g e 2) ∧
      (running → limit ≤ stuck → ∃ t, Happens s (.watchdog g e) t ∧ reset t g e 0 ∧ tget 0 (t.core g).wdog (code e).toNat = 0)) ∧
    (∀ i n, fires i n → ¬ quiet g e →
      ((last g e).2 ≤ n → Happens s i s) ∧
      (n < (last g e).2 → (last g e).2 < 3 ∨ s.faults = [] → ∃ t, Happens s i t ∧ t.cores = s.cores ∧
        (t.die d).nbcnt = x.nbcnt ∧ (t.die d).nbevt.extractLsb' 9 3 = BitVec.ofNat 3 n ∧
        t.faults = (if (last g e).2 < 3 then s.faults else [(.engine g e, [s.refclk])])) ∧
      (3 ≤ (last g e).2 → twice → x.nbctl.getLsbD 1 = true → ∃ t, Happens s i t ∧ (t.core g).vq = EngQ.reset ∧
        (t.core g).tags = [] ∧ (t.die d).nbcnt = (x.nbcnt.extractLsb' 32 32 + 1) ++ x.nbcnt.extractLsb' 0 32)) ∧
    (∀ i n, fires i n → quiet g e → s.faults = [] → x.d2 ≠ none →
      ∃ t, Happens s i t ∧ counted t g e (BitVec.ofNat 7 n) ∧ ∀ k : Fin 4, (s.slotAt ⟨g, k⟩).occ = true →
        (s.slotAt ⟨g, k⟩).evTraps = [] →
        (s.inWindow = true → (t.slotAt ⟨g, k⟩).evTraps = []) ∧
        (s.inWindow = false → ∃ p, (t.slotAt ⟨g, k⟩).evTraps = [p] ∧ p.cause = .schedBreak ∧ p.tval = 5)) ∧
    (∀ i n, fires i n → quiet g e → twice → x.d2 = none → x.nbctl.getLsbD 1 = true → ∃ t, Happens s i t ∧ (t.core g).vq = EngQ.reset ∧ (t.core g).tags = [] ∧
        (t.die d).nbcnt = (x.nbcnt.extractLsb' 32 32 + 1) ++ (x.nbcnt.extractLsb' 0 32 + 1)) ∧
    (¬ running ∨ stuck < limit → Idle s (.watchdog g e)) ∧
    (∀ q rest p, e = .vec → c.vq.recs = q :: rest → q.park = some p →
      tget 0 (s.cyclePasses g c).wdog 0 = tget 0 c.wdog 0) ∧
    (∀ d, (let x := s.die d
      let core := 96 * d + (x.nbtest.extractLsb' 5 7).toNat
      (x.nbtest.getLsbD 0 = false → Idle s (.testAlarm d)) ∧
      (x.nbtest.getLsbD 0 = true → 96 ≤ (x.nbtest.extractLsb' 5 7).toNat →
        Happens s (.testAlarm d) (s.modDie d fun y => { y with nbtest := y.nbtest &&& ~~~1#64 })) ∧
      (x.nbtest.getLsbD 0 = true → (x.nbtest.extractLsb' 5 7).toNat < 96 →
        (let cycle := (s.cycleOf core (if x.d2 = none then 0 else 2)).toNat
         (cycle < x.nbtcyc.toNat → Idle s (.testAlarm d)) ∧
         (∀ e, x.nbtest.extractLsb' 3 2 = code e → x.nbtcyc.toNat ≤ cycle →
           (quiet core e → x.d2 = none →
             ∃ t, Happens s (.testAlarm d) t ∧ reset t core e 4 ∧ (t.die d).nbtest.getLsbD 0 = false) ∧
           (quiet core e → x.d2 ≠ none → ∃ t, Happens s (.testAlarm d) t ∧ counted t core e 4 ∧ cleared t core e ∧
             (t.die d).nbtest.getLsbD 0 = false ∧ ∀ k : Fin 4, (s.slotAt ⟨core, k⟩).occ = true →
               (s.slotAt ⟨core, k⟩).evTraps = [] →
               (s.inWindow = true → (t.slotAt ⟨core, k⟩).evTraps = []) ∧
               (s.inWindow = false → ∃ p, (t.slotAt ⟨core, k⟩).evTraps = [p] ∧ p.cause = .schedBreak ∧ p.tval = 5)) ∧
           (¬ quiet core e → Happens s (.testAlarm d) (s.modDie d fun y => { y with nbtest := y.nbtest &&& ~~~1#64 }))))))) ∧
    (∀ d, (let x := s.die d
      let core := 96 * d + x.drz % 288 / 3
      let due : EngId := match x.drz % 3 with | 0 => .vec | 1 => .copy | _ => .mx
      let every := (x.nbctl.extractLsb' 32 32).toNat * 800000 / 288
      (x.nbctl.getLsbD 0 = false ∨ x.d2 ≠ none ∨ s.refclk < x.drzAt + every → Idle s (.drizzleReset d)) ∧
      (due = .copy → (∃ q, q ∈ (s.core core).cq.recs ∧ q.st = .running ∧ q.fin = .no ∧ (q.row ≠ q.mrow ∨ q.off ≠ q.moff)) →
        Idle s (.drizzleReset d)) ∧
      (let stands : Prop := match due with
         | .vec => ¬ runs core .vec
         | .copy => ∀ q, q ∈ (s.core core).cq.recs → q.st = .running → q.fin = .no → q.row = q.mrow ∧ q.off = q.moff
         | .mx => ¬ runs core .mx ∨ ∃ m q rest, (s.core core).mrun = some m ∧ (s.core core).mq.recs = q :: rest ∧
             m.idx = q.firstIdx ∧ m.block = 0 ∧ m.passed = false
       (¬ stands → Idle s (.drizzleReset d)) ∧
       (x.nbctl.getLsbD 0 = true → x.d2 = none → x.drzAt + every ≤ s.refclk → stands →
         (quiet core due → ∃ t, Happens s (.drizzleReset d) t ∧ reset t core due 3 ∧ (t.die d).drz = (x.drz + 1) % 288 ∧
           x.drzAt + every ≤ (t.die d).drzAt) ∧
         (¬ quiet core due → ∃ t, Happens s (.drizzleReset d) t ∧ t.cores = s.cores ∧ (t.die d).nbcnt = x.nbcnt ∧
           (t.die d).drz = (x.drz + 1) % 288 ∧ x.drzAt + every ≤ (t.die d).drzAt))) ∧
      (let window : Prop := 4096 ≤ s.gstep.toNat % 4096 + (4096 + s.steplen - 1) / s.steplen
       (x.d2 = none ∨ x.drzWindow = true ∨ ¬ window → Idle s (.drizzleWindow d)) ∧
       (d < 8 → x.d2 ≠ none → x.drzWindow = false → window → ∃ t, Happens s (.drizzleWindow d) t ∧
         (t.die d).drzWindow = true ∧ t.mem = s.mem ∧
         (∀ k : Nat, k < 96 → (∃ e, runs (96 * d + k) e) → ∀ j : Fin 4, (s.slotAt ⟨96 * d + k, j⟩).occ = true →
           (s.slotAt ⟨96 * d + k, j⟩).evTraps = [] →
           ∃ p, (t.slotAt ⟨96 * d + k, j⟩).evTraps = [p] ∧ p.cause = .schedBreak ∧ p.tval = 4) ∧
         (∀ p : SlotRef, p.core / 96 ≠ d ∨ (∀ e, ¬ runs p.core e) → t.slotAt p = s.slotAt p) ∧
         (x.nbctl.getLsbD 0 = true → ¬ runs core due → quiet core due →
           counted t core due 3 ∧ cleared t core due ∧ (t.die d).drz = (x.drz + 1) % 288) ∧
         (x.nbctl.getLsbD 0 = false ∨ runs core due →
           (t.die d).drz = x.drz ∧ (t.die d).nbevt = x.nbevt ∧ (t.die d).nbcnt = x.nbcnt ∧
           ∀ k, (t.core k).vq = (s.core k).vq ∧ (t.core k).cq = (s.core k).cq ∧ (t.core k).mq = (s.core k).mq)))))

/-- R359, R361, R362, R398: the resets. A core reset clears the engines, the tag table, the TLB and the pool, and restarts its
tasks: a task without a checkpoint at its entry point with its start values, one that has passed a checkpoint from its record, with
TSTAT.CKR set; a die reset does so on every core of the die,
retrains the edges of the die, and a
launch with tasks there starts its phase anew, saved tasks of it included; a package reset leaves the flash, the fitted memory
and the host's memory. What near and far memory read as afterwards is the model's choice (assumption 1), as are the shadow lane of a
retrained link (assumption 27); that a phase that is run again counts its tasks' ends anew is its reading (assumption 64). -/
def Obligations.Resets : Prop :=
  ∀ (s : State) (g d : Nat),
    let wiped : State → Nat → Prop := fun t g => (t.core g).vq = EngQ.reset ∧ (t.core g).cq = EngQ.reset ∧
      (t.core g).mq = EngQ.reset ∧ (t.core g).vrun = none ∧ (t.core g).mrun = none ∧ (t.core g).tags = [] ∧
      (t.core g).tlb = [] ∧ (t.core g).lower = [] ∧ (t.core g).upper = [] ∧ (t.core g).b0 = (s.core g).b0 ∧
      (t.core g).vregs = (s.core g).vregs
    (∃ t, Happens s (.coreReset g) t ∧ wiped t g ∧
      (s.mem.wf = true → ∀ o, o < 1048576 → t.mem.get (2 ^ 52 + g * 2 ^ 20 + o) = 0) ∧
      ((∀ k : Fin 4, (s.slotAt ⟨g, k⟩).dying = false) →
        (∀ k : Fin 4, let l := s.slotAt ⟨g, k⟩
          let m := t.slotAt ⟨g, k⟩
          (l.occ = false → m = l) ∧
          (l.occ = true → l.ckpt = false → m.occ = true ∧ m.uid = l.uid ∧ m.task = l.task ∧ m.pc = l.startPc ∧
            m.rx 1 = l.startArg ∧ m.rx 2 = l.task.setWidth 64 ∧ m.role = l.startRole ∧ m.pend = [] ∧ m.pfx = []) ∧
          (l.occ = true → l.ckpt = true →
            (let at_ := (s.queue (s.launch l.launch).queue).ckbase.toNat + (4 * g + k.val) * 32768
             m.occ = true ∧ m.uid = l.uid ∧ m.ckpt = true ∧ m.pc = BitVec.ofNat 64 (t.peek at_ 8) ∧
             (∀ j : XReg, 1 ≤ j.toNat → m.rx j = BitVec.ofNat 64 (t.peek (at_ + 8 * j.toNat) 8)) ∧
             m.task = BitVec.ofNat 32 (t.peek (at_ + 0x180) 4) ∧ m.p.toNat = t.peek (at_ + 0x100) 1 / 2 * 2 ∧
             (∀ n : Nat, 1 ≤ n → n < 8 → m.rm n = BitVec.ofNat 1024 (t.peek (at_ + 0x400 + 128 * n) 128)) ∧
             (∀ n : Nat, n < 48 → n < (s.core g).vregs → m.rv n = BitVec.ofNat 4096 (t.peek (at_ + 0x800 + 512 * n) 512)) ∧
             m.tstat.getLsbD 7 = true ∧ m.pend = [] ∧ m.pfx = []))) ∧
        (∀ p, p.core ≠ g → s.launches = [] → t.slotAt p = s.slotAt p))) ∧
    ((∀ k, k < 96 → ∀ j : Fin 4, (s.slotAt ⟨96 * d + k, j⟩).occ = false) → d < 8 →
      ∃ t, Happens s (.dieReset d) t ∧ (∀ k, k < 96 → wiped t (96 * d + k)) ∧
        ∀ n, n = 36 + d ∨ n = 48 + d ∨ n = 44 + d % 4 → (t.link n).excluded = [] ∧ (t.link n).retry = false ∧
          (t.link n).shadow = 8 ∧ (t.link n).rot = s.refclk / 2 ^ 20) ∧
    (∀ n l r, s.launches = [(n, l)] → l.gangs = [] → r ∈ s.slotRefs → (s.slotAt r).occ = true →
      (s.slotAt r).launch = n → r.core / 96 = d → (∀ p, p ∈ s.slotRefs → (s.slotAt p).occ = true → p = r) →
      ∃ t, Happens s (.dieReset d) t ∧ (t.launch n).nextTask = (l.phases.getD l.phase (0, 0)).1 ∧
        (t.launch n).nextNum = l.phaseStart.1 ∧ (t.launch n).exited = l.phaseStart.2.1 ∧
        (t.launch n).faulted = l.phaseStart.2.2 ∧ (t.slotAt r).occ = false ∧
        ∀ v, v ∈ t.saved → ∀ x, x ∈ v.slots → x.2.launch ≠ n) ∧
    (∃ t, Happens s .packageReset t ∧ t.cores = [] ∧ t.dies = [] ∧ t.clusters = [] ∧ t.queues = [] ∧ t.launches = [] ∧
      t.mbox = State.reset.mbox ∧ t.service = 0 ∧ t.gstep = 0 ∧ t.devid = 0 ∧ t.identity = s.identity ∧ t.bridge = s.bridge ∧
      t.imageA = s.imageA ∧ t.imageB = s.imageB ∧ t.activeSlot = s.activeSlot ∧ t.farcap = s.farcap ∧
      t.flashWays = s.flashWays ∧ t.flashLines = s.flashLines ∧ t.flashClusters = s.flashClusters ∧
      ∀ n, 0x8000000000000 ≤ n → n < 0xC000000000000 → t.mem.get n = s.mem.get n)

/-! ## Clocks -/

/-- R380, R381, R382, R383, R384, R406: a replay stops its cluster for two cycles that CYCLE and SCYC do not count, and what its
slots wait for is delivered two reference cycles later (assumption 99); an elastic
clock stretches (that it runs at its nominal rate otherwise is the model's choice, assumption 88); a D2
cluster holds when SCYC has reached STEPLEN - SLACK; a step boundary ends the step, and GSTEP counts once
it is aligned; a D2 step whose replays cost more than SLACK raises STEP_OVERRUN; an armed snapshot latches at the start of a
step, and with SPREAD its trigger goes to the other devices (assumption 69). -/
def Obligations.ClocksAndSnapshots : Prop :=
  ∀ (s : State) (k : Nat),
    let c := s.cluster k
    let d2 := (s.die (4 * k / 96)).d2
    let rate := if d2.isSome then 20 else if s.service = 1 then 10 else 22
    let arm := s.snapctl.getLsbD 0
    (c.hold = true → Idle s (.replay k)) ∧
    (c.hold = false → ∃ t, Happens s (.replay k) t ∧
      t = { (s.modCluster k fun x => { x with stop := max s.refclk x.stop + 2, spent := x.spent + 2, lost := x.lost + 2 * rate })
        with cores := t.cores } ∧
      ∀ g x, (g, x) ∈ s.cores → (g / 4 ≠ k → (g, x) ∈ t.cores) ∧ (g / 4 = k → ∃ y, (g, y) ∈ t.cores ∧
        y = { x with slots := y.slots } ∧ ∀ j : Fin 4,
          y.slot j = { x.slot j with lag := (x.slot j).lag + 2, busyTill := (x.slot j).busyTill + 2, wait := (y.slot j).wait } ∧
          (∀ a v b due, (x.slot j).wait = .semDone a v b due → (y.slot j).wait = .semDone a v b (due + 2)) ∧
          (∀ a n w v due, (x.slot j).wait = .barDone a n w v due → (y.slot j).wait = .barDone a n w v (due + 2)) ∧
          (∀ due, (x.slot j).wait = .gangDone due → (y.slot j).wait = .gangDone (due + 2)) ∧
          (∀ a n kind b due, (x.slot j).wait = .atomic a n kind b due → (y.slot j).wait = .atomic a n kind b (due + 2)) ∧
          ((x.slot j).wait = .run → (y.slot j).wait = .run))) ∧
    (d2 ≠ none → Idle s (.droopStretch k)) ∧
    (d2 = none → ∃ ts, Happens s (.droopStretch k)
      (s.modCluster k fun x => { x with debt := x.debt + 5, stretched := s.refclk :: ts }) ∧
      ∀ t, t ∈ ts ↔ t ∈ c.stretched ∧ s.refclk - t < 2 ^ 20) ∧
    (d2 = none ∨ c.hold = true ∨ s.refclk < c.stop → Idle s (.scycHold k)) ∧
    (∀ q, d2 = some q → c.hold = false → c.stop ≤ s.refclk →
      (s.steplen - (s.queue q).slack ≤ s.refclk - s.stepBase - c.spent →
        Happens s (.scycHold k) (s.modCluster k fun x => { x with hold := true, heldAt := s.refclk })) ∧
      (s.refclk - s.stepBase - c.spent < s.steplen - (s.queue q).slack → Idle s (.scycHold k))) ∧
    (s.refclk < s.stepBase + s.steplen → Idle s .stepBoundary) ∧
    (s.stepBase + s.steplen ≤ s.refclk → s.launches = [] → (∀ e, e ∈ s.queues → e.2.hot = false) →
      (let turned : State → Prop := fun t => t.stepBase = s.stepBase + s.steplen ∧
         t.gstep = (if s.aligned then s.gstep + 1 else s.gstep) ∧ (t.cluster k).hold = false ∧
         (t.cluster k).spent = c.stop - s.refclk ∧ t.refclk = s.refclk ∧ t.mem = s.mem
       ((∀ e, e ∈ s.dies → e.2.d2 = none) → ∃ t, Happens s .stepBoundary t ∧ turned t ∧ t.cores = s.cores) ∧
       (∀ q, s.clusters = [(k, c)] → d2 = some q → ∃ t, Happens s .stepBoundary t ∧ turned t ∧
         (c.spent ≤ (s.queue q).slack + (c.stop - s.refclk) → t.cores = s.cores) ∧
         ((s.queue q).slack + (c.stop - s.refclk) < c.spent → ∀ r, r.core / 4 = k → (s.slotAt r).occ = true →
           (s.slotAt r).evTraps = [] →
           ∃ p, (t.slotAt r).evTraps = [p] ∧ p.cause = .stepOverrun ∧ p.tval = s.gstep)))) ∧
    (let mode := (s.snapctl.extractLsb' 2 2).toNat
     let start : Prop := arm = true ∧ s.refclk = s.stepBase
     let latches : Prop := ∃ x : Snapshot, Happens s .snapshotLatch
        { s with snap := x, snapctl := s.snapctl &&& ~~~1#64 ||| 2, snapDue := none, freeCtr := s.freeCtr + 256
                 outbox := s.outbox ++ (if s.snapctl.getLsbD 7 then (s.system.filter fun d => d != s.devid).map fun d =>
                   { dest := d, body := .snapTrigger } else []) } ∧
        (∀ g c, (g, c) ∈ s.cores → ∃ ws, (g, ws) ∈ x.cores ∧
          (∀ j : Fin 4, ws.getD (2 * j.val) 0 = (c.slot j).pc ∧ ws.getD (2 * j.val + 1) 0 = (c.slot j).tcause) ∧
          ws.getD 8 0 = BitVec.ofNat 64 c.vq.head ∧ ws.getD 9 0 = BitVec.ofNat 64 c.vq.tail ∧
          ws.getD 10 0 = BitVec.ofNat 64 c.cq.head ∧ ws.getD 11 0 = BitVec.ofNat 64 c.cq.tail ∧
          ws.getD 12 0 = BitVec.ofNat 64 c.mq.head ∧ ws.getD 13 0 = BitVec.ofNat 64 c.mq.tail ∧
          ∀ j : Fin 8, ws.getD (14 + 2 * j.val) 0 = (c.wms[j]).wm ∧ ws.getD (15 + 2 * j.val) 0 = (c.wms[j]).stat) ∧
        (x.ports = s.links.map fun e => (e.1, [if e.2.half then 1 else 0, e.2.shadow, e.2.errors])) ∧
        x.mons = s.clusters.map fun e => (e.1, e.2.mon)
     (¬ start → Idle s .snapshotLatch) ∧
     (start → mode = 1 →
       (s.gstep.toNat < s.snapstep.toNat → Idle s .snapshotLatch) ∧ (s.snapstep.toNat ≤ s.gstep.toNat → latches)) ∧
     (start → mode = 2 ∨ mode = 3 →
       (s.snapDue = none → Idle s .snapshotLatch) ∧
       (∀ t, s.snapDue = some t → (t < s.stepBase → latches) ∧ (s.stepBase ≤ t → Idle s .snapshotLatch))) ∧
     (start → mode = 0 → Idle s .snapshotLatch))

/-! ## Reliability, links and heat -/

/-- R397, R398, R399, R400, R401, R402, R403, R404, R405: errors of lanes, ways and lines, and in-field tests. A corrected
error is counted, and the third within 2^26 cycles makes the lane, way or line fail lastingly; an uncorrectable one
poisons the line; with a second failed lane a trunk halves its width, window and weight at twice its cost, a scale-up port leaves
service and an edge sends its flits again, for 4 cycles each of a cluster that receives them (which one is a free value); a link rotates its shadow lane once in 2^20 cycles
and is retrained; a cluster that is due is emptied, or waits for its die to leave D2, is emptied by the ladder after 1 s, tested,
and reinstated or retired. The reports go to every queue, the retrained link's shadow lane is the last one and the links have the
model's numbers: the model's choices (assumptions 20, 27, 70). R407, R430, R431: a sample of the monitors, in every 2^16th cycle, sets
MON and the throttle levels, the thermal one by its two thresholds; at 110 °C a D2 context of the die is marked to be stopped, and an
elastic cluster of the die is held at level 7; at 118 °C the package is reset, at once (assumption 76). -/
def Obligations.ErrorsAndMonitors : Prop :=
  (∀ (s : State) (n lane : Nat),
    let l := s.link n
    let failing : Prop := l.retry = true ∧ lane ∈ l.excluded.dropLast
    let idle : Prop := (l.excluded = [] ∧ l.shadow = lane) ∨ (lane ∈ l.excluded ∧ ¬ failing)
    let withLink : Link → State := fun x => { s with links := tset s.links n x }
    let counted : Link := { l with errors := l.errors + 1 }
    let seen : FaultSrc → Prop := fun x => ∃ a b, s.faults = [(x, [a, b])] ∧ s.refclk - a ≤ 2 ^ 26 ∧ s.refclk - b ≤ 2 ^ 26
    let fails : (State → Prop) → Prop := fun p => ∃ t, Happens s (.laneError n lane) t ∧
      (t.link n).errors = l.errors + 1 ∧ (t.link n).excluded = lane :: l.excluded ∧ p t
    (idle ∨ l.out = true → Idle s (.laneError n lane)) ∧
    (¬ idle → l.out = false →
      (failing → ∃ (t : State) (c : Option Nat), Happens s (.laneError n lane) t ∧ t.links = (withLink counted).links ∧
        t.faults = s.faults ∧ (c = none → t.cores = s.cores) ∧ (∀ p : SlotRef, c ≠ some (p.core / 4) → t.slotAt p = s.slotAt p) ∧ (n < 48 → c ≠ none) ∧ (∀ k, c = some k → k / 24 ∈ edgeDies n) ∧
        ∀ k, (c ≠ some k ∨ (s.cluster k).hold = true → t.cluster k = s.cluster k) ∧
          (c = some k → (s.cluster k).hold = false → (t.cluster k).stop = max s.refclk (s.cluster k).stop + 4 ∧
            (t.cluster k).spent = (s.cluster k).spent + 4)) ∧
      (¬ failing → s.faults = [] → Happens s (.laneError n lane)
        { withLink counted with faults := [(.lane n lane, [s.refclk])] }) ∧
      (¬ failing → seen (.lane n lane) →
        (l.excluded = [] → fails fun t => (t.link n).cost = l.cost ∧ (t.link n).half = l.half ∧ (s.bridge = true → t.outbox = s.outbox)) ∧
        (l.excluded ≠ [] → n < 36 → n % 18 < 16 → fails fun t => (t.link n).out = true) ∧
        (l.excluded ≠ [] → n < 36 → 16 ≤ n % 18 → l.half = false → fails fun t => (t.link n).half = true ∧
          (t.link n).cost = 2 * l.cost ∧ (t.link n).window = l.window / 2 ∧ (t.link n).weight = l.weight / 2 ∧
          (s.bridge = true → t.outbox = s.outbox ++ (s.system.filter fun d => d != s.devid).map fun d =>
            { dest := d, body := .routeCost s.devid n (2 * l.cost) }) ∧
          ∀ d, d ∈ s.system → d ≠ s.devid → ({ dest := d, body := .routeCost s.devid n (2 * l.cost) } : Flit) ∈ t.outbox) ∧
        (l.excluded ≠ [] → 36 ≤ n → l.retry = false → fails fun t => (t.link n).retry = true ∧
          ∀ d, d ∈ edgeDies n → (t.die d).noD2 = true))) ∧
    (let due : Prop := l.excluded = [] ∧ l.out = false ∧ l.rot < s.refclk / 2 ^ 20
     (due → Happens s (.laneRotation n) (withLink { l with shadow := (l.shadow + 1) % 9, rot := s.refclk / 2 ^ 20 })) ∧
     (¬ due → Idle s (.laneRotation n))) ∧
    (n < 36 → (∀ q, q ∈ s.d2Queues → s.usesPort q n = false) →
      (l.half = false → Happens s (.linkRetrain n) (withLink { l with
        shadow := 8, rot := s.refclk / 2 ^ 20, excluded := [], half := false, out := false, retry := false })) ∧
      (l.half = true → Happens s (.linkRetrain n) (withLink { l with
        shadow := 8, rot := s.refclk / 2 ^ 20, excluded := [], half := false, out := false, retry := false
        cost := l.cost / 2, window := l.window * 2, weight := l.weight * 2 }))) ∧
    (36 ≤ n ∨ (∃ q, q ∈ s.d2Queues ∧ s.usesPort q n = true) → Idle s (.linkRetrain n)) ∧
    (∀ cost, Happens s (.routeCostFlit n cost) (withLink { l with cost := cost })) ∧
    (∀ d set way line, way < 16 →
      (s.faults = [] → Happens s (.l2EccError d set way true line) { s with faults := [(.way d set way, [s.refclk])] }) ∧
      (seen (.way d set way) → ∃ t, Happens s (.l2EccError d set way true line) t ∧
        (tget 0 (t.die d).l2off set).getLsbD way = true ∧ (d, set, way) ∈ t.flashWays ∧ t.cores = s.cores) ∧
      (∃ t, Happens s (.l2EccError d set way false line) t ∧ 2 * line ∈ t.poison ∧ 2 * line + 1 ∈ t.poison ∧
        (∀ p, p ∈ t.poison → p ∈ s.poison ∨ p / 2 = line) ∧ t.mem = s.mem)) ∧
    (∀ g line, line < 8192 →
      (s.faults = [] → Happens s (.poolEccError g line true) { s with faults := [(.line g line, [s.refclk])] }) ∧
      (seen (.line g line) → ∃ t, Happens s (.poolEccError g line true) t ∧ (g, line) ∈ t.flashLines) ∧
      (∃ t, Happens s (.poolEccError g line false) t ∧ 2 ^ 46 + g * 2 ^ 14 + 2 * line ∈ t.poison ∧
        2 ^ 46 + g * 2 ^ 14 + 2 * line + 1 ∈ t.poison ∧ (∀ p, t.slotAt p = s.slotAt p) ∧ t.mem = s.mem)) ∧
    (∀ g i, i < 256 → Happens s (.poolEccError g (8192 + i) true) s ∧ ∃ t, Happens s (.poolEccError g (8192 + i) false) t ∧
      (tget TagEntry.reset (t.core g).tags i).bad = true ∧ t.mem = s.mem) ∧
    (∀ k, (let c := s.cluster k
      let d2 := (s.die (4 * k / 96)).d2
      let empty : Prop := ∀ j, j < 4 → (s.core (4 * k + j)).empty = true
      let set : (Cluster → Cluster) → Prop := fun f => Happens s (.inFieldTest k) (s.modCluster k f)
      (c.retired = true ∨ c.test = .running → Idle s (.inFieldTest k)) ∧
      (c.retired = false → c.test = .none →
        (d2 = none → set fun x => { x with test := .emptying, testDue := false, tested := s.refclk, emptyAt := s.refclk }) ∧
        (d2 ≠ none → c.testDue = false → set fun x => { x with testDue := true }) ∧
        (d2 ≠ none → c.testDue = true → Idle s (.inFieldTest k))) ∧
      (c.retired = false → c.test = .emptying →
        (d2 = none → empty → set fun x => { x with test := .running, emptyAt := s.refclk }) ∧
        (d2 ≠ none ∨ ¬ empty → Idle s (.inFieldTest k))) ∧
      (∀ pass, c.test ≠ .running → Idle s (.clusterTestResult k pass)) ∧
      (c.test = .running → c.emptied = [] →
        Happens s (.clusterTestResult k true) (s.modCluster k fun x =>
          { x with test := .none, lastPass := s.gstep, placed := [], emptied := [] }) ∧
        (∃ t, Happens s (.clusterTestResult k false) t ∧ (t.cluster k).retired = true ∧
          (t.cluster k).test = .none ∧ k ∈ t.flashClusters ∧
          ∀ q, c.placed = [q] → tmem s.queues q = true → (t.queue q).evseq = (s.queue q).evseq + 1)) ∧
      (c.test ≠ .emptying ∨ (∀ q, q ∈ s.clusterQueues k → (s.queue q).stopped = true) ∨ s.refclk < c.emptyAt + 800000000 →
        Idle s (.clusterEmptyTimeout k)) ∧
      (∀ q, c.test = .emptying → c.emptyAt + 800000000 ≤ s.refclk → s.clusterQueues k = [q] → (s.queue q).stopped = false →
        ∃ t, Happens s (.clusterEmptyTimeout k) t ∧ (t.queue q).stopped = true ∧ (t.queue q).ladder = s.refclk ∧
          (t.cluster k).emptied = c.emptied ++ [q])))) ∧
  (∀ (s : State) (k : Nat) (proc vdd temp : BitVec 16) (watts : Nat),
    let c := s.cluster k
    let d2 := (s.die (4 * k / 96)).d2
    let droop := if d2 = none then (c.stretched.filter fun t => decide (s.refclk - t < 2 ^ 20)).length else 0
    let mon : W64 := (proc ++ (BitVec.ofNat 16 (min 65535 droop) ++ (vdd ++ temp)) : BitVec (16 + (16 + (16 + 16))))
    let due : Prop := s.refclk % 65536 = 0 ∧ c.sampled < s.refclk / 65536
    (¬ due → Idle s (.monSample k proc vdd temp watts)) ∧
    (due → temp.toInt < 16 * 118 → ∃ t, Happens s (.monSample k proc vdd temp watts) t ∧
      (t.cluster k).mon = mon ∧ t.watts = watts ∧ (t.cluster k).sampled = s.refclk / 65536 ∧
      (s.pcap < watts → (t.cluster k).power = min 7 (c.power + 1)) ∧
      (watts * 100 < s.pcap * 95 → watts ≤ s.pcap → (t.cluster k).power = c.power - 1) ∧
      (watts ≤ s.pcap → s.pcap * 95 ≤ watts * 100 → (t.cluster k).power = c.power) ∧
      (t.cluster k).thermal ≤ 7 ∧
      (∀ j : Nat, 1 ≤ j → j ≤ 7 → (j ≤ (t.cluster k).thermal ↔ (16 * (90 + 2 * j : Nat) : Int) ≤ temp.toInt ∨
        (j ≤ c.thermal ∧ (16 * (87 + 2 * j : Nat) : Int) ≤ temp.toInt))) ∧
      (16 * 110 ≤ temp.toInt → (s.die (k / 24)).d2 = none → ∀ g, g / 96 = k / 24 → (t.cycleOf g 0).toNat % 8 < 7 →
        t.coreHeld g = true) ∧
      (temp.toInt < 16 * 110 → (∀ j, j ≠ k → (s.cluster j).mon = 0) → d2 = none →
        t.throttle k = max (t.cluster k).thermal (t.cluster k).power) ∧
      (temp.toInt < 16 * 110 → t.queues = s.queues) ∧
      (∀ q, 16 * 110 ≤ temp.toInt → (s.die (k / 24)).d2 = some q → (t.queue q).hot = true)) ∧
    (due → 16 * 118 ≤ temp.toInt → ∃ t, Happens s (.monSample k proc vdd temp watts) t ∧
      t.cores = [] ∧ t.queues = [] ∧ t.service = 0))

/-- R51, R211, R214 to R219, R244, R363, R364, R399, R410, R411, R412, R413, R419, R425: a flit for another device is passed on;
one for this device acts: a semaphore operation joins those that have reached its home, with its queue's generation; an answer
goes to the slot or the queue that waits; a SEM.WAIT is withdrawn; a TCB is released, with the GSTEP of the flit's arrival
(assumption 93); a fence reaches the homes, or is acknowledged; a command or its answer reaches the mailbox; a member's traffic
reaches the host, but for what a fence has made old, and what the host returns reaches the access that waits for it (assumption 94);
a snapshot trigger latches (assumption 69), a request for measurements is answered, and a port's cost enters the routing table. The
kinds of flits, and that a payload does nothing, are the model's choice (assumption 100); so are the withdrawal of a SEM.WAIT
(assumption 47), the cost on every route to a device (assumption 27) and that an answer for which nothing waits changes nothing
(assumption 50); the count of arms at other devices (assumption 49) and the numbers of the homes of another device (assumption 51)
are its reading. -/
def Obligations.Flits : Prop :=
  ∀ (s : State) (f : Flit),
    let acts : FlitBody → (State → Prop) → Prop := fun b p => f.body = b → ∃ t, Happens s (.flit f) t ∧ p t
    let gives : FlitBody → State → Prop := fun b u => f.body = b → Happens s (.flit f) u
    let sends : BitVec 20 → FlitBody → State := fun d b => { s with outbox := s.outbox ++ [{ dest := d, body := b }] }
    (f.dest ≠ s.devid → Happens s (.flit f) { s with outbox := s.outbox ++ [f] }) ∧
    (f.dest = s.devid →
      (∀ name v code launch tcb dev core (k : Fin 4) task queue gen,
        (let kinds : List SemKind := [.sig v, .wait v false, .wait v true, .add v, .set v, .read, .arm launch tcb v]
         let d := (name.extractLsb' 29 3).toNat
         let op : SemKind → SemOp := fun kind =>
           { index := (name.extractLsb' 0 14).toNat, kind := kind, core := core, slot := k, uid := task, queue := queue
             gen := gen, dev := dev, due := s.refclk }
         (∀ kind, kinds[code]? = some kind → gives (.semUpdate name v code launch tcb dev core k.val task queue gen)
           (s.modDie d fun x => { x with inbox := insertSem (op kind) x.inbox })) ∧
         (7 ≤ code → gives (.semUpdate name v code launch tcb dev core k.val task queue gen) s))) ∧
      (∀ core (k : Fin 4) task v,
        (let r : SlotRef := ⟨core, k⟩
         let l := s.slotAt r
         let answer : FlitBody := .semAnswer core k.val task v
         let goes : Slot → Slot := fun l => { l with wait := .run, pc := l.pc + 4, pfx := [], started := true, stalled := false }
         (task ≠ 0 → l.occ = true → l.uid = task →
           (∀ d, l.wait = .sem d false → gives answer (s.setSlot r { l with wait := .semDone d v false (s.refclk + l.lag) })) ∧
           (∀ d, l.wait = .sem d true →
             gives answer (s.setSlot r { l with wait := .semDone d v true s.refclk, away := none, cancelled := false })) ∧
           (∀ d i name t, l.wait = .arm d i name t → v ≠ 0 →
             gives answer (s.setSlot r { l with wait := .semDone d v false s.refclk })) ∧
           (∀ d i name t, l.wait = .arm d i name t → v = 0 → acts answer fun u =>
             u.slotAt r = { l with wait := .semDone d v false s.refclk } ∧
             (u.launch l.launch).remoteArms = (s.launch l.launch).remoteArms + 1) ∧
           (l.wait = .withdrawn → gives answer (s.setSlot r { l with wait := .run })) ∧
           (l.wait = .run → gives answer s)) ∧
         (task ≠ 0 → l.occ = false ∨ l.uid ≠ task → gives answer s) ∧
         (task = 0 → (s.queue core).waiting = true → acts answer fun u => (u.queue core).waiting = false ∧
           (u.queue core).head = (s.queue core).head + 1) ∧
         (task = 0 → (s.queue core).waiting = false → gives answer s) ∧
         (let told : FlitBody := .semCancelled core k.val task
          (task ≠ 0 → l.occ = true → l.uid = task → (∃ d, l.wait = .sem d true) ∨ l.wait = .withdrawn →
            gives told (s.setSlot r { l with wait := .run, away := none, cancelled := false })) ∧
          (l.wait = .run → gives told s)))) ∧
      (∀ name dev core slot task,
        (let d := (name.extractLsb' 29 3).toNat
         (∀ w, (s.die d).inbox = [] → (s.die d).waiters = [w] → w.dev = dev → w.uid = task → w.core = core →
           gives (.semCancel name dev core slot task) { s.modDie d (fun x => { x with waiters := [] }) with
             outbox := s.outbox ++ [{ dest := dev, body := .semCancelled core slot task }] }) ∧
         ((s.die d).inbox = [] → (s.die d).waiters = [] → gives (.semCancel name dev core slot task) s))) ∧
      (∀ n i gen,
        (let l := s.launch n
         let at_ := l.tcbs.toNat + 64 * i
         let root := (s.queue l.queue).troot
         let u := (s.fwWrite root (at_ + 0x18) 8 s.gstep.toNat).setTcbState n i 2
         (l.stage ≠ .admitted ∨ (s.queue l.queue).gen ≠ gen → gives (.tcbRelease n i gen) s) ∧
         (l.stage = .admitted → (s.queue l.queue).gen = gen → ∀ p a w, u.fwRead root at_ 8 = some p →
           u.fwRead root (at_ + 8) 8 = some a → u.fwRead root (at_ + 16) 8 = some w → p % 4 = 0 → w / 2 ^ 49 = 0 →
           w / 2 ^ 40 % 4 ≠ 3 → acts (.tcbRelease n i gen) fun t => (t.launch n).remoteArms = l.remoteArms - 1 ∧
             ∃ x, x ∈ (t.die (lowestDie l.mask)).ready ∧ x.launch = n ∧ x.index = some i ∧ x.rstep = s.gstep ∧
               x.prog = BitVec.ofNat 64 p ∧ x.arg = BitVec.ofNat 64 a ∧ x.num = BitVec.ofNat 32 w ∧
               x.prio = BitVec.ofNat 8 (w / 2 ^ 32)))) ∧
      (∀ dev q gen,
        (let old : BitVec 20 → Nat → BitVec 8 → Prop := fun d k g => d = dev ∧ k = q ∧ g ≠ gen
         acts (.fence dev q gen) fun t => (dev, q, gen) ∈ t.foreign ∧
           t.outbox = s.outbox ++ [{ dest := dev, body := .fenceAck s.devid q gen }] ∧
           ∀ d o w, (o ∈ (t.die d).inbox ↔ o ∈ (s.die d).inbox ∧ ¬ old o.dev o.queue o.gen) ∧
             (w ∈ (t.die d).waiters ↔ w ∈ (s.die d).waiters ∧ ¬ old w.dev w.queue w.gen)) ∧
        ((s.queue q).resetting = true → (s.queue q).gen = gen → gives (.fenceAck dev q gen)
          (s.modQueue q fun u => { u with fences := (33 + dev.toNat) :: u.fences })) ∧
        ((s.queue q).resetting = false ∨ (s.queue q).gen ≠ gen → gives (.fenceAck dev q gen) s)) ∧
      (∀ src tag (op : BitVec 16) args block, s.cmdWait = [] →
        (let q := (args.getD 0 0).toNat
         let cmd : Cmd := { opcode := op.toNat, tag := tag, args := args, src := some src, away := false, started := false }
         let told : FlitBody := .mailboxCommand src tag op args block
         let filed : State → Prop := fun t => ∀ k, k < block.length → tget 0 t.cfgblocks (16 * q + k) = block.getD k 0
         (s.mbox.cmd = none → 1 ≤ op.toNat → op.toNat ≤ 17 → op.toNat ≠ 16 → s.service = 2 → acts told fun t =>
           t.mbox = { s.mbox with cmd := some cmd } ∧ filed t ∧ t.outbox = s.outbox) ∧
         (s.mbox.cmd = none → op.toNat = 0 ∨ 17 < op.toNat → acts told fun t => t.mbox.cmd = none ∧
           t.outbox = s.outbox ++ [{ dest := src, body := .mailboxAnswer tag 1 [] }]) ∧
         (s.mbox.cmd ≠ none → acts told fun t => t.mbox = s.mbox ∧ t.cmdWait = [cmd] ∧ filed t))) ∧
      (∀ c tag result values, s.mbox.cmd = some c → c.away = true → c.tag = tag → c.src = none → s.cmdWait = [] →
        acts (.mailboxAnswer tag result values) fun t => t.mbox.cmd = none ∧ t.mbox.go = false ∧ t.mbox.result = result ∧
          t.mbox.rtag = tag ∧ (∀ k, k < values.length → tget 0 t.mbox.res k = values.getD k 0) ∧
          t = { s with mbox := t.mbox }) ∧
      (∀ src words k, s.members[k]? = some src → (∀ j, j < k → s.members[j]? ≠ some src) →
        gives (.infoBlock src words) { s with infos := tset s.infos (k + 1) words }) ∧
      (∀ dev stamp offset bytes,
        (let stale : Prop := ∃ q g h, stamp = some (q, g) ∧ (dev, q, h) ∈ s.foreign ∧ h ≠ g
         (s.bridge = true → ¬ stale → s.mem.wf = true → acts (.hostWrite dev stamp offset bytes) fun t =>
           (∀ k, k < bytes.length → t.mem.get (0x8000000000000 + offset + k) = bytes.getD k 0) ∧ t.cores = s.cores) ∧
         (s.bridge = false ∨ stale → gives (.hostWrite dev stamp offset bytes) s ∧
           ∀ tag size o, gives (.hostAtomic dev stamp tag offset size o) s) ∧
         (∀ tag size o v, s.bridge = true → ¬ stale → s.mem.wf = true →
           acts (.hostAtomic dev stamp tag offset size (.amo o v)) fun t =>
             (let old := s.peek (0x8000000000000 + offset) 8
              t.peek (0x8000000000000 + offset) 8 = (amoNew o (BitVec.ofNat 64 old) v).toNat ∧
                t.outbox = s.outbox ++ [{ dest := dev, body := .hostValue tag (bytesLE 8 old) }])) ∧
         (∀ tag size (e n : W64), s.bridge = true → ¬ stale → s.mem.wf = true →
           acts (.hostAtomic dev stamp tag offset size (.cas e n)) fun t =>
             (let old := s.peek (0x8000000000000 + offset) 8
              t.peek (0x8000000000000 + offset) 8 = (if old = e.toNat then n.toNat else old) ∧
                t.outbox = s.outbox ++ [{ dest := dev, body := .hostValue tag (bytesLE 8 old) }])) ∧
         (∀ tag size m at_ element, s.bridge = true → ¬ stale → s.mem.wf = true → at_.Nodup →
           acts (.hostAtomic dev stamp tag offset size (.merge m at_ element)) fun t =>
             t.outbox = s.outbox ∧ (let new := mergeElem m element (at_.map fun n => s.mem.get (0x8000000000000 + n))
               ∀ k, k < at_.length → k < new.length → t.mem.get (0x8000000000000 + at_.getD k 0) = new.getD k 0)))) ∧
      (∀ dev tag offset size, s.bridge = true → gives (.hostRead dev tag offset size) (sends dev (.hostValue tag
        ((List.range size).map fun k => s.mem.get (0x8000000000000 + offset + k))))) ∧
      (∀ tag bytes, (∀ q, q ∈ s.hostReqs → q.tag ≠ tag ∨ q.back = true) → gives (.hostValue tag bytes) s) ∧
      (∀ tag bytes q, s.hostReqs = [q] → q.tag = tag → q.back = false →
        (let r : SlotRef := ⟨q.core, Fin.ofNat 4 q.slot⟩
         let l := s.slotAt r
         (q.unit ≠ 4 → s.mem.wf = true → acts (.hostValue tag bytes) fun t => t.hostReqs = [{ q with back := true }] ∧
           (∀ k, k < bytes.length → t.mem.get (64 * q.granule + k) = bytes.getD k 0) ∧ t.slotAt r = { l with stalled := false }) ∧
         (∀ d, q.unit = 4 → l.wait = .hostAtomic d false → acts (.hostValue tag bytes) fun t => t.hostReqs = [] ∧
           t.mem = s.mem ∧ t.slotAt r = { l.wx d (BitVec.ofNat 64 (natOfBytes bytes)) with
             wait := .run, pc := l.pc + 4, pfx := [], started := true, stalled := false }))) ∧
      acts .snapTrigger (fun t => t = { s with snap := t.snap, snapctl := s.snapctl &&& ~~~1#64 ||| 2, snapDue := none
                                               freeCtr := s.freeCtr + 256 } ∧
        t.snap.mons = s.clusters.map fun e => (e.1, e.2.mon)) ∧
      (∀ dev nonce, ∃ sig, gives (.measureRequest dev nonce) (sends dev (.measureAnswer sig))) ∧
      (∀ sig, gives (.measureAnswer sig) { s with attest := s.attest ++ [sig] }) ∧
      (∀ dev port cost, gives (.routeCost dev port cost) { s with
        routes := tset s.routes dev.toNat ((tget [] s.routes dev.toNat).map fun x => { x with extra := cost - 1 }) }) ∧
      ∀ bits, gives (.payload bits) s)
end

