-- ==== Sys2Proof/Laws/State.lean ====
section
/-! SUPPORT. The fields of a state after each of its updates, one lemma each. -/

namespace Sys2Proof.Machine

/-! ### setCore -/

@[simp] theorem State.setCore_mem (s : State) (g : Nat) (c : Core) : (s.setCore g c).mem = s.mem := rfl
@[simp] theorem State.setCore_overlay (s : State) (g : Nat) (c : Core) : (s.setCore g c).overlay = s.overlay := rfl
@[simp] theorem State.setCore_poison (s : State) (g : Nat) (c : Core) : (s.setCore g c).poison = s.poison := rfl
@[simp] theorem State.setCore_armed (s : State) (g : Nat) (c : Core) : (s.setCore g c).armed = s.armed := rfl
@[simp] theorem State.setCore_foreign (s : State) (g : Nat) (c : Core) : (s.setCore g c).foreign = s.foreign := rfl
@[simp] theorem State.setCore_shootReqs (s : State) (g : Nat) (c : Core) : (s.setCore g c).shootReqs = s.shootReqs := rfl
@[simp] theorem State.setCore_dies (s : State) (g : Nat) (c : Core) : (s.setCore g c).dies = s.dies := rfl
@[simp] theorem State.setCore_clusters (s : State) (g : Nat) (c : Core) : (s.setCore g c).clusters = s.clusters := rfl
@[simp] theorem State.setCore_queues (s : State) (g : Nat) (c : Core) : (s.setCore g c).queues = s.queues := rfl
@[simp] theorem State.setCore_launches (s : State) (g : Nat) (c : Core) : (s.setCore g c).launches = s.launches := rfl
@[simp] theorem State.setCore_nextLaunch (s : State) (g : Nat) (c : Core) : (s.setCore g c).nextLaunch = s.nextLaunch := rfl
@[simp] theorem State.setCore_nextOrder (s : State) (g : Nat) (c : Core) : (s.setCore g c).nextOrder = s.nextOrder := rfl
@[simp] theorem State.setCore_nextUid (s : State) (g : Nat) (c : Core) : (s.setCore g c).nextUid = s.nextUid := rfl
@[simp] theorem State.setCore_saved (s : State) (g : Nat) (c : Core) : (s.setCore g c).saved = s.saved := rfl
@[simp] theorem State.setCore_links (s : State) (g : Nat) (c : Core) : (s.setCore g c).links = s.links := rfl
@[simp] theorem State.setCore_outbox (s : State) (g : Nat) (c : Core) : (s.setCore g c).outbox = s.outbox := rfl
@[simp] theorem State.setCore_hostReqs (s : State) (g : Nat) (c : Core) : (s.setCore g c).hostReqs = s.hostReqs := rfl
@[simp] theorem State.setCore_hostTag (s : State) (g : Nat) (c : Core) : (s.setCore g c).hostTag = s.hostTag := rfl
@[simp] theorem State.setCore_fcores (s : State) (g : Nat) (c : Core) : (s.setCore g c).fcores = s.fcores := rfl
@[simp] theorem State.setCore_fcur (s : State) (g : Nat) (c : Core) : (s.setCore g c).fcur = s.fcur := rfl
@[simp] theorem State.setCore_fwoken (s : State) (g : Nat) (c : Core) : (s.setCore g c).fwoken = s.fwoken := rfl
@[simp] theorem State.setCore_mcores (s : State) (g : Nat) (c : Core) : (s.setCore g c).mcores = s.mcores := rfl
@[simp] theorem State.setCore_mbox (s : State) (g : Nat) (c : Core) : (s.setCore g c).mbox = s.mbox := rfl
@[simp] theorem State.setCore_cmdWait (s : State) (g : Nat) (c : Core) : (s.setCore g c).cmdWait = s.cmdWait := rfl
@[simp] theorem State.setCore_infos (s : State) (g : Nat) (c : Core) : (s.setCore g c).infos = s.infos := rfl
@[simp] theorem State.setCore_routes (s : State) (g : Nat) (c : Core) : (s.setCore g c).routes = s.routes := rfl
@[simp] theorem State.setCore_hostDev (s : State) (g : Nat) (c : Core) : (s.setCore g c).hostDev = s.hostDev := rfl
@[simp] theorem State.setCore_cfgblocks (s : State) (g : Nat) (c : Core) : (s.setCore g c).cfgblocks = s.cfgblocks := rfl
@[simp] theorem State.setCore_pendingMap (s : State) (g : Nat) (c : Core) : (s.setCore g c).pendingMap = s.pendingMap := rfl
@[simp] theorem State.setCore_devid (s : State) (g : Nat) (c : Core) : (s.setCore g c).devid = s.devid := rfl
@[simp] theorem State.setCore_identity (s : State) (g : Nat) (c : Core) : (s.setCore g c).identity = s.identity := rfl
@[simp] theorem State.setCore_bridge (s : State) (g : Nat) (c : Core) : (s.setCore g c).bridge = s.bridge := rfl
@[simp] theorem State.setCore_members (s : State) (g : Nat) (c : Core) : (s.setCore g c).members = s.members := rfl
@[simp] theorem State.setCore_refusedIds (s : State) (g : Nat) (c : Core) : (s.setCore g c).refusedIds = s.refusedIds := rfl
@[simp] theorem State.setCore_queueMade (s : State) (g : Nat) (c : Core) : (s.setCore g c).queueMade = s.queueMade := rfl
@[simp] theorem State.setCore_system (s : State) (g : Nat) (c : Core) : (s.setCore g c).system = s.system := rfl
@[simp] theorem State.setCore_service (s : State) (g : Nat) (c : Core) : (s.setCore g c).service = s.service := rfl
@[simp] theorem State.setCore_imageA (s : State) (g : Nat) (c : Core) : (s.setCore g c).imageA = s.imageA := rfl
@[simp] theorem State.setCore_imageB (s : State) (g : Nat) (c : Core) : (s.setCore g c).imageB = s.imageB := rfl
@[simp] theorem State.setCore_running (s : State) (g : Nat) (c : Core) : (s.setCore g c).running = s.running := rfl
@[simp] theorem State.setCore_activeSlot (s : State) (g : Nat) (c : Core) : (s.setCore g c).activeSlot = s.activeSlot := rfl
@[simp] theorem State.setCore_farcap (s : State) (g : Nat) (c : Core) : (s.setCore g c).farcap = s.farcap := rfl
@[simp] theorem State.setCore_flashWays (s : State) (g : Nat) (c : Core) : (s.setCore g c).flashWays = s.flashWays := rfl
@[simp] theorem State.setCore_flashLines (s : State) (g : Nat) (c : Core) : (s.setCore g c).flashLines = s.flashLines := rfl
@[simp] theorem State.setCore_flashClusters (s : State) (g : Nat) (c : Core) : (s.setCore g c).flashClusters = s.flashClusters := rfl
@[simp] theorem State.setCore_measurements (s : State) (g : Nat) (c : Core) : (s.setCore g c).measurements = s.measurements := rfl
@[simp] theorem State.setCore_attest (s : State) (g : Nat) (c : Core) : (s.setCore g c).attest = s.attest := rfl
@[simp] theorem State.setCore_update (s : State) (g : Nat) (c : Core) : (s.setCore g c).update = s.update := rfl
@[simp] theorem State.setCore_hbeat (s : State) (g : Nat) (c : Core) : (s.setCore g c).hbeat = s.hbeat := rfl
@[simp] theorem State.setCore_pcap (s : State) (g : Nat) (c : Core) : (s.setCore g c).pcap = s.pcap := rfl
@[simp] theorem State.setCore_watts (s : State) (g : Nat) (c : Core) : (s.setCore g c).watts = s.watts := rfl
@[simp] theorem State.setCore_shootWait (s : State) (g : Nat) (c : Core) : (s.setCore g c).shootWait = s.shootWait := rfl
@[simp] theorem State.setCore_ftper (s : State) (g : Nat) (c : Core) : (s.setCore g c).ftper = s.ftper := rfl
@[simp] theorem State.setCore_steplen (s : State) (g : Nat) (c : Core) : (s.setCore g c).steplen = s.steplen := rfl
@[simp] theorem State.setCore_gstep (s : State) (g : Nat) (c : Core) : (s.setCore g c).gstep = s.gstep := rfl
@[simp] theorem State.setCore_aligned (s : State) (g : Nat) (c : Core) : (s.setCore g c).aligned = s.aligned := rfl
@[simp] theorem State.setCore_refclk (s : State) (g : Nat) (c : Core) : (s.setCore g c).refclk = s.refclk := rfl
@[simp] theorem State.setCore_stepBase (s : State) (g : Nat) (c : Core) : (s.setCore g c).stepBase = s.stepBase := rfl
@[simp] theorem State.setCore_sweep (s : State) (g : Nat) (c : Core) : (s.setCore g c).sweep = s.sweep := rfl
@[simp] theorem State.setCore_lap (s : State) (g : Nat) (c : Core) : (s.setCore g c).lap = s.lap := rfl
@[simp] theorem State.setCore_faults (s : State) (g : Nat) (c : Core) : (s.setCore g c).faults = s.faults := rfl
@[simp] theorem State.setCore_snapctl (s : State) (g : Nat) (c : Core) : (s.setCore g c).snapctl = s.snapctl := rfl
@[simp] theorem State.setCore_snapstep (s : State) (g : Nat) (c : Core) : (s.setCore g c).snapstep = s.snapstep := rfl
@[simp] theorem State.setCore_snapDue (s : State) (g : Nat) (c : Core) : (s.setCore g c).snapDue = s.snapDue := rfl
@[simp] theorem State.setCore_snap (s : State) (g : Nat) (c : Core) : (s.setCore g c).snap = s.snap := rfl
@[simp] theorem State.setCore_cur (s : State) (g : Nat) (c : Core) : (s.setCore g c).cur = s.cur := rfl
@[simp] theorem State.setCore_agenda (s : State) (g : Nat) (c : Core) : (s.setCore g c).agenda = s.agenda := rfl
@[simp] theorem State.setCore_freeCtr (s : State) (g : Nat) (c : Core) : (s.setCore g c).freeCtr = s.freeCtr := rfl

/-! ### modCore -/

@[simp] theorem State.modCore_mem (s : State) (g : Nat) (f : Core → Core) : (s.modCore g f).mem = s.mem := rfl
@[simp] theorem State.modCore_overlay (s : State) (g : Nat) (f : Core → Core) : (s.modCore g f).overlay = s.overlay := rfl
@[simp] theorem State.modCore_poison (s : State) (g : Nat) (f : Core → Core) : (s.modCore g f).poison = s.poison := rfl
@[simp] theorem State.modCore_armed (s : State) (g : Nat) (f : Core → Core) : (s.modCore g f).armed = s.armed := rfl
@[simp] theorem State.modCore_foreign (s : State) (g : Nat) (f : Core → Core) : (s.modCore g f).foreign = s.foreign := rfl
@[simp] theorem State.modCore_shootReqs (s : State) (g : Nat) (f : Core → Core) : (s.modCore g f).shootReqs = s.shootReqs := rfl
@[simp] theorem State.modCore_dies (s : State) (g : Nat) (f : Core → Core) : (s.modCore g f).dies = s.dies := rfl
@[simp] theorem State.modCore_clusters (s : State) (g : Nat) (f : Core → Core) : (s.modCore g f).clusters = s.clusters := rfl
@[simp] theorem State.modCore_queues (s : State) (g : Nat) (f : Core → Core) : (s.modCore g f).queues = s.queues := rfl
@[simp] theorem State.modCore_launches (s : State) (g : Nat) (f : Core → Core) : (s.modCore g f).launches = s.launches := rfl
@[simp] theorem State.modCore_nextLaunch (s : State) (g : Nat) (f : Core → Core) : (s.modCore g f).nextLaunch = s.nextLaunch := rfl
@[simp] theorem State.modCore_nextOrder (s : State) (g : Nat) (f : Core → Core) : (s.modCore g f).nextOrder = s.nextOrder := rfl
@[simp] theorem State.modCore_nextUid (s : State) (g : Nat) (f : Core → Core) : (s.modCore g f).nextUid = s.nextUid := rfl
@[simp] theorem State.modCore_saved (s : State) (g : Nat) (f : Core → Core) : (s.modCore g f).saved = s.saved := rfl
@[simp] theorem State.modCore_links (s : State) (g : Nat) (f : Core → Core) : (s.modCore g f).links = s.links := rfl
@[simp] theorem State.modCore_outbox (s : State) (g : Nat) (f : Core → Core) : (s.modCore g f).outbox = s.outbox := rfl
@[simp] theorem State.modCore_hostReqs (s : State) (g : Nat) (f : Core → Core) : (s.modCore g f).hostReqs = s.hostReqs := rfl
@[simp] theorem State.modCore_hostTag (s : State) (g : Nat) (f : Core → Core) : (s.modCore g f).hostTag = s.hostTag := rfl
@[simp] theorem State.modCore_fcores (s : State) (g : Nat) (f : Core → Core) : (s.modCore g f).fcores = s.fcores := rfl
@[simp] theorem State.modCore_fcur (s : State) (g : Nat) (f : Core → Core) : (s.modCore g f).fcur = s.fcur := rfl
@[simp] theorem State.modCore_fwoken (s : State) (g : Nat) (f : Core → Core) : (s.modCore g f).fwoken = s.fwoken := rfl
@[simp] theorem State.modCore_mcores (s : State) (g : Nat) (f : Core → Core) : (s.modCore g f).mcores = s.mcores := rfl
@[simp] theorem State.modCore_mbox (s : State) (g : Nat) (f : Core → Core) : (s.modCore g f).mbox = s.mbox := rfl
@[simp] theorem State.modCore_cmdWait (s : State) (g : Nat) (f : Core → Core) : (s.modCore g f).cmdWait = s.cmdWait := rfl
@[simp] theorem State.modCore_infos (s : State) (g : Nat) (f : Core → Core) : (s.modCore g f).infos = s.infos := rfl
@[simp] theorem State.modCore_routes (s : State) (g : Nat) (f : Core → Core) : (s.modCore g f).routes = s.routes := rfl
@[simp] theorem State.modCore_hostDev (s : State) (g : Nat) (f : Core → Core) : (s.modCore g f).hostDev = s.hostDev := rfl
@[simp] theorem State.modCore_cfgblocks (s : State) (g : Nat) (f : Core → Core) : (s.modCore g f).cfgblocks = s.cfgblocks := rfl
@[simp] theorem State.modCore_pendingMap (s : State) (g : Nat) (f : Core → Core) : (s.modCore g f).pendingMap = s.pendingMap := rfl
@[simp] theorem State.modCore_devid (s : State) (g : Nat) (f : Core → Core) : (s.modCore g f).devid = s.devid := rfl
@[simp] theorem State.modCore_identity (s : State) (g : Nat) (f : Core → Core) : (s.modCore g f).identity = s.identity := rfl
@[simp] theorem State.modCore_bridge (s : State) (g : Nat) (f : Core → Core) : (s.modCore g f).bridge = s.bridge := rfl
@[simp] theorem State.modCore_members (s : State) (g : Nat) (f : Core → Core) : (s.modCore g f).members = s.members := rfl
@[simp] theorem State.modCore_refusedIds (s : State) (g : Nat) (f : Core → Core) : (s.modCore g f).refusedIds = s.refusedIds := rfl
@[simp] theorem State.modCore_queueMade (s : State) (g : Nat) (f : Core → Core) : (s.modCore g f).queueMade = s.queueMade := rfl
@[simp] theorem State.modCore_system (s : State) (g : Nat) (f : Core → Core) : (s.modCore g f).system = s.system := rfl
@[simp] theorem State.modCore_service (s : State) (g : Nat) (f : Core → Core) : (s.modCore g f).service = s.service := rfl
@[simp] theorem State.modCore_imageA (s : State) (g : Nat) (f : Core → Core) : (s.modCore g f).imageA = s.imageA := rfl
@[simp] theorem State.modCore_imageB (s : State) (g : Nat) (f : Core → Core) : (s.modCore g f).imageB = s.imageB := rfl
@[simp] theorem State.modCore_running (s : State) (g : Nat) (f : Core → Core) : (s.modCore g f).running = s.running := rfl
@[simp] theorem State.modCore_activeSlot (s : State) (g : Nat) (f : Core → Core) : (s.modCore g f).activeSlot = s.activeSlot := rfl
@[simp] theorem State.modCore_farcap (s : State) (g : Nat) (f : Core → Core) : (s.modCore g f).farcap = s.farcap := rfl
@[simp] theorem State.modCore_flashWays (s : State) (g : Nat) (f : Core → Core) : (s.modCore g f).flashWays = s.flashWays := rfl
@[simp] theorem State.modCore_flashLines (s : State) (g : Nat) (f : Core → Core) : (s.modCore g f).flashLines = s.flashLines := rfl
@[simp] theorem State.modCore_flashClusters (s : State) (g : Nat) (f : Core → Core) : (s.modCore g f).flashClusters = s.flashClusters := rfl
@[simp] theorem State.modCore_measurements (s : State) (g : Nat) (f : Core → Core) : (s.modCore g f).measurements = s.measurements := rfl
@[simp] theorem State.modCore_attest (s : State) (g : Nat) (f : Core → Core) : (s.modCore g f).attest = s.attest := rfl
@[simp] theorem State.modCore_update (s : State) (g : Nat) (f : Core → Core) : (s.modCore g f).update = s.update := rfl
@[simp] theorem State.modCore_hbeat (s : State) (g : Nat) (f : Core → Core) : (s.modCore g f).hbeat = s.hbeat := rfl
@[simp] theorem State.modCore_pcap (s : State) (g : Nat) (f : Core → Core) : (s.modCore g f).pcap = s.pcap := rfl
@[simp] theorem State.modCore_watts (s : State) (g : Nat) (f : Core → Core) : (s.modCore g f).watts = s.watts := rfl
@[simp] theorem State.modCore_shootWait (s : State) (g : Nat) (f : Core → Core) : (s.modCore g f).shootWait = s.shootWait := rfl
@[simp] theorem State.modCore_ftper (s : State) (g : Nat) (f : Core → Core) : (s.modCore g f).ftper = s.ftper := rfl
@[simp] theorem State.modCore_steplen (s : State) (g : Nat) (f : Core → Core) : (s.modCore g f).steplen = s.steplen := rfl
@[simp] theorem State.modCore_gstep (s : State) (g : Nat) (f : Core → Core) : (s.modCore g f).gstep = s.gstep := rfl
@[simp] theorem State.modCore_aligned (s : State) (g : Nat) (f : Core → Core) : (s.modCore g f).aligned = s.aligned := rfl
@[simp] theorem State.modCore_refclk (s : State) (g : Nat) (f : Core → Core) : (s.modCore g f).refclk = s.refclk := rfl
@[simp] theorem State.modCore_stepBase (s : State) (g : Nat) (f : Core → Core) : (s.modCore g f).stepBase = s.stepBase := rfl
@[simp] theorem State.modCore_sweep (s : State) (g : Nat) (f : Core → Core) : (s.modCore g f).sweep = s.sweep := rfl
@[simp] theorem State.modCore_lap (s : State) (g : Nat) (f : Core → Core) : (s.modCore g f).lap = s.lap := rfl
@[simp] theorem State.modCore_faults (s : State) (g : Nat) (f : Core → Core) : (s.modCore g f).faults = s.faults := rfl
@[simp] theorem State.modCore_snapctl (s : State) (g : Nat) (f : Core → Core) : (s.modCore g f).snapctl = s.snapctl := rfl
@[simp] theorem State.modCore_snapstep (s : State) (g : Nat) (f : Core → Core) : (s.modCore g f).snapstep = s.snapstep := rfl
@[simp] theorem State.modCore_snapDue (s : State) (g : Nat) (f : Core → Core) : (s.modCore g f).snapDue = s.snapDue := rfl
@[simp] theorem State.modCore_snap (s : State) (g : Nat) (f : Core → Core) : (s.modCore g f).snap = s.snap := rfl
@[simp] theorem State.modCore_cur (s : State) (g : Nat) (f : Core → Core) : (s.modCore g f).cur = s.cur := rfl
@[simp] theorem State.modCore_agenda (s : State) (g : Nat) (f : Core → Core) : (s.modCore g f).agenda = s.agenda := rfl
@[simp] theorem State.modCore_freeCtr (s : State) (g : Nat) (f : Core → Core) : (s.modCore g f).freeCtr = s.freeCtr := rfl

/-! ### setSlot -/

@[simp] theorem State.setSlot_mem (s : State) (r : SlotRef) (l : Slot) : (s.setSlot r l).mem = s.mem := rfl
@[simp] theorem State.setSlot_overlay (s : State) (r : SlotRef) (l : Slot) : (s.setSlot r l).overlay = s.overlay := rfl
@[simp] theorem State.setSlot_poison (s : State) (r : SlotRef) (l : Slot) : (s.setSlot r l).poison = s.poison := rfl
@[simp] theorem State.setSlot_armed (s : State) (r : SlotRef) (l : Slot) : (s.setSlot r l).armed = s.armed := rfl
@[simp] theorem State.setSlot_foreign (s : State) (r : SlotRef) (l : Slot) : (s.setSlot r l).foreign = s.foreign := rfl
@[simp] theorem State.setSlot_shootReqs (s : State) (r : SlotRef) (l : Slot) : (s.setSlot r l).shootReqs = s.shootReqs := rfl
@[simp] theorem State.setSlot_dies (s : State) (r : SlotRef) (l : Slot) : (s.setSlot r l).dies = s.dies := rfl
@[simp] theorem State.setSlot_clusters (s : State) (r : SlotRef) (l : Slot) : (s.setSlot r l).clusters = s.clusters := rfl
@[simp] theorem State.setSlot_queues (s : State) (r : SlotRef) (l : Slot) : (s.setSlot r l).queues = s.queues := rfl
@[simp] theorem State.setSlot_launches (s : State) (r : SlotRef) (l : Slot) : (s.setSlot r l).launches = s.launches := rfl
@[simp] theorem State.setSlot_nextLaunch (s : State) (r : SlotRef) (l : Slot) : (s.setSlot r l).nextLaunch = s.nextLaunch := rfl
@[simp] theorem State.setSlot_nextOrder (s : State) (r : SlotRef) (l : Slot) : (s.setSlot r l).nextOrder = s.nextOrder := rfl
@[simp] theorem State.setSlot_nextUid (s : State) (r : SlotRef) (l : Slot) : (s.setSlot r l).nextUid = s.nextUid := rfl
@[simp] theorem State.setSlot_saved (s : State) (r : SlotRef) (l : Slot) : (s.setSlot r l).saved = s.saved := rfl
@[simp] theorem State.setSlot_links (s : State) (r : SlotRef) (l : Slot) : (s.setSlot r l).links = s.links := rfl
@[simp] theorem State.setSlot_outbox (s : State) (r : SlotRef) (l : Slot) : (s.setSlot r l).outbox = s.outbox := rfl
@[simp] theorem State.setSlot_hostReqs (s : State) (r : SlotRef) (l : Slot) : (s.setSlot r l).hostReqs = s.hostReqs := rfl
@[simp] theorem State.setSlot_hostTag (s : State) (r : SlotRef) (l : Slot) : (s.setSlot r l).hostTag = s.hostTag := rfl
@[simp] theorem State.setSlot_fcores (s : State) (r : SlotRef) (l : Slot) : (s.setSlot r l).fcores = s.fcores := rfl
@[simp] theorem State.setSlot_fcur (s : State) (r : SlotRef) (l : Slot) : (s.setSlot r l).fcur = s.fcur := rfl
@[simp] theorem State.setSlot_fwoken (s : State) (r : SlotRef) (l : Slot) : (s.setSlot r l).fwoken = s.fwoken := rfl
@[simp] theorem State.setSlot_mcores (s : State) (r : SlotRef) (l : Slot) : (s.setSlot r l).mcores = s.mcores := rfl
@[simp] theorem State.setSlot_mbox (s : State) (r : SlotRef) (l : Slot) : (s.setSlot r l).mbox = s.mbox := rfl
@[simp] theorem State.setSlot_cmdWait (s : State) (r : SlotRef) (l : Slot) : (s.setSlot r l).cmdWait = s.cmdWait := rfl
@[simp] theorem State.setSlot_infos (s : State) (r : SlotRef) (l : Slot) : (s.setSlot r l).infos = s.infos := rfl
@[simp] theorem State.setSlot_routes (s : State) (r : SlotRef) (l : Slot) : (s.setSlot r l).routes = s.routes := rfl
@[simp] theorem State.setSlot_hostDev (s : State) (r : SlotRef) (l : Slot) : (s.setSlot r l).hostDev = s.hostDev := rfl
@[simp] theorem State.setSlot_cfgblocks (s : State) (r : SlotRef) (l : Slot) : (s.setSlot r l).cfgblocks = s.cfgblocks := rfl
@[simp] theorem State.setSlot_pendingMap (s : State) (r : SlotRef) (l : Slot) : (s.setSlot r l).pendingMap = s.pendingMap := rfl
@[simp] theorem State.setSlot_devid (s : State) (r : SlotRef) (l : Slot) : (s.setSlot r l).devid = s.devid := rfl
@[simp] theorem State.setSlot_identity (s : State) (r : SlotRef) (l : Slot) : (s.setSlot r l).identity = s.identity := rfl
@[simp] theorem State.setSlot_bridge (s : State) (r : SlotRef) (l : Slot) : (s.setSlot r l).bridge = s.bridge := rfl
@[simp] theorem State.setSlot_members (s : State) (r : SlotRef) (l : Slot) : (s.setSlot r l).members = s.members := rfl
@[simp] theorem State.setSlot_refusedIds (s : State) (r : SlotRef) (l : Slot) : (s.setSlot r l).refusedIds = s.refusedIds := rfl
@[simp] theorem State.setSlot_queueMade (s : State) (r : SlotRef) (l : Slot) : (s.setSlot r l).queueMade = s.queueMade := rfl
@[simp] theorem State.setSlot_system (s : State) (r : SlotRef) (l : Slot) : (s.setSlot r l).system = s.system := rfl
@[simp] theorem State.setSlot_service (s : State) (r : SlotRef) (l : Slot) : (s.setSlot r l).service = s.service := rfl
@[simp] theorem State.setSlot_imageA (s : State) (r : SlotRef) (l : Slot) : (s.setSlot r l).imageA = s.imageA := rfl
@[simp] theorem State.setSlot_imageB (s : State) (r : SlotRef) (l : Slot) : (s.setSlot r l).imageB = s.imageB := rfl
@[simp] theorem State.setSlot_running (s : State) (r : SlotRef) (l : Slot) : (s.setSlot r l).running = s.running := rfl
@[simp] theorem State.setSlot_activeSlot (s : State) (r : SlotRef) (l : Slot) : (s.setSlot r l).activeSlot = s.activeSlot := rfl
@[simp] theorem State.setSlot_farcap (s : State) (r : SlotRef) (l : Slot) : (s.setSlot r l).farcap = s.farcap := rfl
@[simp] theorem State.setSlot_flashWays (s : State) (r : SlotRef) (l : Slot) : (s.setSlot r l).flashWays = s.flashWays := rfl
@[simp] theorem State.setSlot_flashLines (s : State) (r : SlotRef) (l : Slot) : (s.setSlot r l).flashLines = s.flashLines := rfl
@[simp] theorem State.setSlot_flashClusters (s : State) (r : SlotRef) (l : Slot) : (s.setSlot r l).flashClusters = s.flashClusters := rfl
@[simp] theorem State.setSlot_measurements (s : State) (r : SlotRef) (l : Slot) : (s.setSlot r l).measurements = s.measurements := rfl
@[simp] theorem State.setSlot_attest (s : State) (r : SlotRef) (l : Slot) : (s.setSlot r l).attest = s.attest := rfl
@[simp] theorem State.setSlot_update (s : State) (r : SlotRef) (l : Slot) : (s.setSlot r l).update = s.update := rfl
@[simp] theorem State.setSlot_hbeat (s : State) (r : SlotRef) (l : Slot) : (s.setSlot r l).hbeat = s.hbeat := rfl
@[simp] theorem State.setSlot_pcap (s : State) (r : SlotRef) (l : Slot) : (s.setSlot r l).pcap = s.pcap := rfl
@[simp] theorem State.setSlot_watts (s : State) (r : SlotRef) (l : Slot) : (s.setSlot r l).watts = s.watts := rfl
@[simp] theorem State.setSlot_shootWait (s : State) (r : SlotRef) (l : Slot) : (s.setSlot r l).shootWait = s.shootWait := rfl
@[simp] theorem State.setSlot_ftper (s : State) (r : SlotRef) (l : Slot) : (s.setSlot r l).ftper = s.ftper := rfl
@[simp] theorem State.setSlot_steplen (s : State) (r : SlotRef) (l : Slot) : (s.setSlot r l).steplen = s.steplen := rfl
@[simp] theorem State.setSlot_gstep (s : State) (r : SlotRef) (l : Slot) : (s.setSlot r l).gstep = s.gstep := rfl
@[simp] theorem State.setSlot_aligned (s : State) (r : SlotRef) (l : Slot) : (s.setSlot r l).aligned = s.aligned := rfl
@[simp] theorem State.setSlot_refclk (s : State) (r : SlotRef) (l : Slot) : (s.setSlot r l).refclk = s.refclk := rfl
@[simp] theorem State.setSlot_stepBase (s : State) (r : SlotRef) (l : Slot) : (s.setSlot r l).stepBase = s.stepBase := rfl
@[simp] theorem State.setSlot_sweep (s : State) (r : SlotRef) (l : Slot) : (s.setSlot r l).sweep = s.sweep := rfl
@[simp] theorem State.setSlot_lap (s : State) (r : SlotRef) (l : Slot) : (s.setSlot r l).lap = s.lap := rfl
@[simp] theorem State.setSlot_faults (s : State) (r : SlotRef) (l : Slot) : (s.setSlot r l).faults = s.faults := rfl
@[simp] theorem State.setSlot_snapctl (s : State) (r : SlotRef) (l : Slot) : (s.setSlot r l).snapctl = s.snapctl := rfl
@[simp] theorem State.setSlot_snapstep (s : State) (r : SlotRef) (l : Slot) : (s.setSlot r l).snapstep = s.snapstep := rfl
@[simp] theorem State.setSlot_snapDue (s : State) (r : SlotRef) (l : Slot) : (s.setSlot r l).snapDue = s.snapDue := rfl
@[simp] theorem State.setSlot_snap (s : State) (r : SlotRef) (l : Slot) : (s.setSlot r l).snap = s.snap := rfl
@[simp] theorem State.setSlot_cur (s : State) (r : SlotRef) (l : Slot) : (s.setSlot r l).cur = s.cur := rfl
@[simp] theorem State.setSlot_agenda (s : State) (r : SlotRef) (l : Slot) : (s.setSlot r l).agenda = s.agenda := rfl
@[simp] theorem State.setSlot_freeCtr (s : State) (r : SlotRef) (l : Slot) : (s.setSlot r l).freeCtr = s.freeCtr := rfl

/-! ### modSlot -/

@[simp] theorem State.modSlot_mem (s : State) (r : SlotRef) (f : Slot → Slot) : (s.modSlot r f).mem = s.mem := rfl
@[simp] theorem State.modSlot_overlay (s : State) (r : SlotRef) (f : Slot → Slot) : (s.modSlot r f).overlay = s.overlay := rfl
@[simp] theorem State.modSlot_poison (s : State) (r : SlotRef) (f : Slot → Slot) : (s.modSlot r f).poison = s.poison := rfl
@[simp] theorem State.modSlot_armed (s : State) (r : SlotRef) (f : Slot → Slot) : (s.modSlot r f).armed = s.armed := rfl
@[simp] theorem State.modSlot_foreign (s : State) (r : SlotRef) (f : Slot → Slot) : (s.modSlot r f).foreign = s.foreign := rfl
@[simp] theorem State.modSlot_shootReqs (s : State) (r : SlotRef) (f : Slot → Slot) : (s.modSlot r f).shootReqs = s.shootReqs := rfl
@[simp] theorem State.modSlot_dies (s : State) (r : SlotRef) (f : Slot → Slot) : (s.modSlot r f).dies = s.dies := rfl
@[simp] theorem State.modSlot_clusters (s : State) (r : SlotRef) (f : Slot → Slot) : (s.modSlot r f).clusters = s.clusters := rfl
@[simp] theorem State.modSlot_queues (s : State) (r : SlotRef) (f : Slot → Slot) : (s.modSlot r f).queues = s.queues := rfl
@[simp] theorem State.modSlot_launches (s : State) (r : SlotRef) (f : Slot → Slot) : (s.modSlot r f).launches = s.launches := rfl
@[simp] theorem State.modSlot_nextLaunch (s : State) (r : SlotRef) (f : Slot → Slot) : (s.modSlot r f).nextLaunch = s.nextLaunch := rfl
@[simp] theorem State.modSlot_nextOrder (s : State) (r : SlotRef) (f : Slot → Slot) : (s.modSlot r f).nextOrder = s.nextOrder := rfl
@[simp] theorem State.modSlot_nextUid (s : State) (r : SlotRef) (f : Slot → Slot) : (s.modSlot r f).nextUid = s.nextUid := rfl
@[simp] theorem State.modSlot_saved (s : State) (r : SlotRef) (f : Slot → Slot) : (s.modSlot r f).saved = s.saved := rfl
@[simp] theorem State.modSlot_links (s : State) (r : SlotRef) (f : Slot → Slot) : (s.modSlot r f).links = s.links := rfl
@[simp] theorem State.modSlot_outbox (s : State) (r : SlotRef) (f : Slot → Slot) : (s.modSlot r f).outbox = s.outbox := rfl
@[simp] theorem State.modSlot_hostReqs (s : State) (r : SlotRef) (f : Slot → Slot) : (s.modSlot r f).hostReqs = s.hostReqs := rfl
@[simp] theorem State.modSlot_hostTag (s : State) (r : SlotRef) (f : Slot → Slot) : (s.modSlot r f).hostTag = s.hostTag := rfl
@[simp] theorem State.modSlot_fcores (s : State) (r : SlotRef) (f : Slot → Slot) : (s.modSlot r f).fcores = s.fcores := rfl
@[simp] theorem State.modSlot_fcur (s : State) (r : SlotRef) (f : Slot → Slot) : (s.modSlot r f).fcur = s.fcur := rfl
@[simp] theorem State.modSlot_fwoken (s : State) (r : SlotRef) (f : Slot → Slot) : (s.modSlot r f).fwoken = s.fwoken := rfl
@[simp] theorem State.modSlot_mcores (s : State) (r : SlotRef) (f : Slot → Slot) : (s.modSlot r f).mcores = s.mcores := rfl
@[simp] theorem State.modSlot_mbox (s : State) (r : SlotRef) (f : Slot → Slot) : (s.modSlot r f).mbox = s.mbox := rfl
@[simp] theorem State.modSlot_cmdWait (s : State) (r : SlotRef) (f : Slot → Slot) : (s.modSlot r f).cmdWait = s.cmdWait := rfl
@[simp] theorem State.modSlot_infos (s : State) (r : SlotRef) (f : Slot → Slot) : (s.modSlot r f).infos = s.infos := rfl
@[simp] theorem State.modSlot_routes (s : State) (r : SlotRef) (f : Slot → Slot) : (s.modSlot r f).routes = s.routes := rfl
@[simp] theorem State.modSlot_hostDev (s : State) (r : SlotRef) (f : Slot → Slot) : (s.modSlot r f).hostDev = s.hostDev := rfl
@[simp] theorem State.modSlot_cfgblocks (s : State) (r : SlotRef) (f : Slot → Slot) : (s.modSlot r f).cfgblocks = s.cfgblocks := rfl
@[simp] theorem State.modSlot_pendingMap (s : State) (r : SlotRef) (f : Slot → Slot) : (s.modSlot r f).pendingMap = s.pendingMap := rfl
@[simp] theorem State.modSlot_devid (s : State) (r : SlotRef) (f : Slot → Slot) : (s.modSlot r f).devid = s.devid := rfl
@[simp] theorem State.modSlot_identity (s : State) (r : SlotRef) (f : Slot → Slot) : (s.modSlot r f).identity = s.identity := rfl
@[simp] theorem State.modSlot_bridge (s : State) (r : SlotRef) (f : Slot → Slot) : (s.modSlot r f).bridge = s.bridge := rfl
@[simp] theorem State.modSlot_members (s : State) (r : SlotRef) (f : Slot → Slot) : (s.modSlot r f).members = s.members := rfl
@[simp] theorem State.modSlot_refusedIds (s : State) (r : SlotRef) (f : Slot → Slot) : (s.modSlot r f).refusedIds = s.refusedIds := rfl
@[simp] theorem State.modSlot_queueMade (s : State) (r : SlotRef) (f : Slot → Slot) : (s.modSlot r f).queueMade = s.queueMade := rfl
@[simp] theorem State.modSlot_system (s : State) (r : SlotRef) (f : Slot → Slot) : (s.modSlot r f).system = s.system := rfl
@[simp] theorem State.modSlot_service (s : State) (r : SlotRef) (f : Slot → Slot) : (s.modSlot r f).service = s.service := rfl
@[simp] theorem State.modSlot_imageA (s : State) (r : SlotRef) (f : Slot → Slot) : (s.modSlot r f).imageA = s.imageA := rfl
@[simp] theorem State.modSlot_imageB (s : State) (r : SlotRef) (f : Slot → Slot) : (s.modSlot r f).imageB = s.imageB := rfl
@[simp] theorem State.modSlot_running (s : State) (r : SlotRef) (f : Slot → Slot) : (s.modSlot r f).running = s.running := rfl
@[simp] theorem State.modSlot_activeSlot (s : State) (r : SlotRef) (f : Slot → Slot) : (s.modSlot r f).activeSlot = s.activeSlot := rfl
@[simp] theorem State.modSlot_farcap (s : State) (r : SlotRef) (f : Slot → Slot) : (s.modSlot r f).farcap = s.farcap := rfl
@[simp] theorem State.modSlot_flashWays (s : State) (r : SlotRef) (f : Slot → Slot) : (s.modSlot r f).flashWays = s.flashWays := rfl
@[simp] theorem State.modSlot_flashLines (s : State) (r : SlotRef) (f : Slot → Slot) : (s.modSlot r f).flashLines = s.flashLines := rfl
@[simp] theorem State.modSlot_flashClusters (s : State) (r : SlotRef) (f : Slot → Slot) : (s.modSlot r f).flashClusters = s.flashClusters := rfl
@[simp] theorem State.modSlot_measurements (s : State) (r : SlotRef) (f : Slot → Slot) : (s.modSlot r f).measurements = s.measurements := rfl
@[simp] theorem State.modSlot_attest (s : State) (r : SlotRef) (f : Slot → Slot) : (s.modSlot r f).attest = s.attest := rfl
@[simp] theorem State.modSlot_update (s : State) (r : SlotRef) (f : Slot → Slot) : (s.modSlot r f).update = s.update := rfl
@[simp] theorem State.modSlot_hbeat (s : State) (r : SlotRef) (f : Slot → Slot) : (s.modSlot r f).hbeat = s.hbeat := rfl
@[simp] theorem State.modSlot_pcap (s : State) (r : SlotRef) (f : Slot → Slot) : (s.modSlot r f).pcap = s.pcap := rfl
@[simp] theorem State.modSlot_watts (s : State) (r : SlotRef) (f : Slot → Slot) : (s.modSlot r f).watts = s.watts := rfl
@[simp] theorem State.modSlot_shootWait (s : State) (r : SlotRef) (f : Slot → Slot) : (s.modSlot r f).shootWait = s.shootWait := rfl
@[simp] theorem State.modSlot_ftper (s : State) (r : SlotRef) (f : Slot → Slot) : (s.modSlot r f).ftper = s.ftper := rfl
@[simp] theorem State.modSlot_steplen (s : State) (r : SlotRef) (f : Slot → Slot) : (s.modSlot r f).steplen = s.steplen := rfl
@[simp] theorem State.modSlot_gstep (s : State) (r : SlotRef) (f : Slot → Slot) : (s.modSlot r f).gstep = s.gstep := rfl
@[simp] theorem State.modSlot_aligned (s : State) (r : SlotRef) (f : Slot → Slot) : (s.modSlot r f).aligned = s.aligned := rfl
@[simp] theorem State.modSlot_refclk (s : State) (r : SlotRef) (f : Slot → Slot) : (s.modSlot r f).refclk = s.refclk := rfl
@[simp] theorem State.modSlot_stepBase (s : State) (r : SlotRef) (f : Slot → Slot) : (s.modSlot r f).stepBase = s.stepBase := rfl
@[simp] theorem State.modSlot_sweep (s : State) (r : SlotRef) (f : Slot → Slot) : (s.modSlot r f).sweep = s.sweep := rfl
@[simp] theorem State.modSlot_lap (s : State) (r : SlotRef) (f : Slot → Slot) : (s.modSlot r f).lap = s.lap := rfl
@[simp] theorem State.modSlot_faults (s : State) (r : SlotRef) (f : Slot → Slot) : (s.modSlot r f).faults = s.faults := rfl
@[simp] theorem State.modSlot_snapctl (s : State) (r : SlotRef) (f : Slot → Slot) : (s.modSlot r f).snapctl = s.snapctl := rfl
@[simp] theorem State.modSlot_snapstep (s : State) (r : SlotRef) (f : Slot → Slot) : (s.modSlot r f).snapstep = s.snapstep := rfl
@[simp] theorem State.modSlot_snapDue (s : State) (r : SlotRef) (f : Slot → Slot) : (s.modSlot r f).snapDue = s.snapDue := rfl
@[simp] theorem State.modSlot_snap (s : State) (r : SlotRef) (f : Slot → Slot) : (s.modSlot r f).snap = s.snap := rfl
@[simp] theorem State.modSlot_cur (s : State) (r : SlotRef) (f : Slot → Slot) : (s.modSlot r f).cur = s.cur := rfl
@[simp] theorem State.modSlot_agenda (s : State) (r : SlotRef) (f : Slot → Slot) : (s.modSlot r f).agenda = s.agenda := rfl
@[simp] theorem State.modSlot_freeCtr (s : State) (r : SlotRef) (f : Slot → Slot) : (s.modSlot r f).freeCtr = s.freeCtr := rfl

/-! ### mapSlot -/

@[simp] theorem State.mapSlot_mem (s : State) (f : Slot → Slot) : (s.mapSlot f).mem = s.mem := rfl
@[simp] theorem State.mapSlot_overlay (s : State) (f : Slot → Slot) : (s.mapSlot f).overlay = s.overlay := rfl
@[simp] theorem State.mapSlot_poison (s : State) (f : Slot → Slot) : (s.mapSlot f).poison = s.poison := rfl
@[simp] theorem State.mapSlot_armed (s : State) (f : Slot → Slot) : (s.mapSlot f).armed = s.armed := rfl
@[simp] theorem State.mapSlot_foreign (s : State) (f : Slot → Slot) : (s.mapSlot f).foreign = s.foreign := rfl
@[simp] theorem State.mapSlot_shootReqs (s : State) (f : Slot → Slot) : (s.mapSlot f).shootReqs = s.shootReqs := rfl
@[simp] theorem State.mapSlot_dies (s : State) (f : Slot → Slot) : (s.mapSlot f).dies = s.dies := rfl
@[simp] theorem State.mapSlot_clusters (s : State) (f : Slot → Slot) : (s.mapSlot f).clusters = s.clusters := rfl
@[simp] theorem State.mapSlot_queues (s : State) (f : Slot → Slot) : (s.mapSlot f).queues = s.queues := rfl
@[simp] theorem State.mapSlot_launches (s : State) (f : Slot → Slot) : (s.mapSlot f).launches = s.launches := rfl
@[simp] theorem State.mapSlot_nextLaunch (s : State) (f : Slot → Slot) : (s.mapSlot f).nextLaunch = s.nextLaunch := rfl
@[simp] theorem State.mapSlot_nextOrder (s : State) (f : Slot → Slot) : (s.mapSlot f).nextOrder = s.nextOrder := rfl
@[simp] theorem State.mapSlot_nextUid (s : State) (f : Slot → Slot) : (s.mapSlot f).nextUid = s.nextUid := rfl
@[simp] theorem State.mapSlot_saved (s : State) (f : Slot → Slot) : (s.mapSlot f).saved = s.saved := rfl
@[simp] theorem State.mapSlot_links (s : State) (f : Slot → Slot) : (s.mapSlot f).links = s.links := rfl
@[simp] theorem State.mapSlot_outbox (s : State) (f : Slot → Slot) : (s.mapSlot f).outbox = s.outbox := rfl
@[simp] theorem State.mapSlot_hostReqs (s : State) (f : Slot → Slot) : (s.mapSlot f).hostReqs = s.hostReqs := rfl
@[simp] theorem State.mapSlot_hostTag (s : State) (f : Slot → Slot) : (s.mapSlot f).hostTag = s.hostTag := rfl
@[simp] theorem State.mapSlot_fcores (s : State) (f : Slot → Slot) : (s.mapSlot f).fcores = s.fcores := rfl
@[simp] theorem State.mapSlot_fcur (s : State) (f : Slot → Slot) : (s.mapSlot f).fcur = s.fcur := rfl
@[simp] theorem State.mapSlot_fwoken (s : State) (f : Slot → Slot) : (s.mapSlot f).fwoken = s.fwoken := rfl
@[simp] theorem State.mapSlot_mcores (s : State) (f : Slot → Slot) : (s.mapSlot f).mcores = s.mcores := rfl
@[simp] theorem State.mapSlot_mbox (s : State) (f : Slot → Slot) : (s.mapSlot f).mbox = s.mbox := rfl
@[simp] theorem State.mapSlot_cmdWait (s : State) (f : Slot → Slot) : (s.mapSlot f).cmdWait = s.cmdWait := rfl
@[simp] theorem State.mapSlot_infos (s : State) (f : Slot → Slot) : (s.mapSlot f).infos = s.infos := rfl
@[simp] theorem State.mapSlot_routes (s : State) (f : Slot → Slot) : (s.mapSlot f).routes = s.routes := rfl
@[simp] theorem State.mapSlot_hostDev (s : State) (f : Slot → Slot) : (s.mapSlot f).hostDev = s.hostDev := rfl
@[simp] theorem State.mapSlot_cfgblocks (s : State) (f : Slot → Slot) : (s.mapSlot f).cfgblocks = s.cfgblocks := rfl
@[simp] theorem State.mapSlot_pendingMap (s : State) (f : Slot → Slot) : (s.mapSlot f).pendingMap = s.pendingMap := rfl
@[simp] theorem State.mapSlot_devid (s : State) (f : Slot → Slot) : (s.mapSlot f).devid = s.devid := rfl
@[simp] theorem State.mapSlot_identity (s : State) (f : Slot → Slot) : (s.mapSlot f).identity = s.identity := rfl
@[simp] theorem State.mapSlot_bridge (s : State) (f : Slot → Slot) : (s.mapSlot f).bridge = s.bridge := rfl
@[simp] theorem State.mapSlot_members (s : State) (f : Slot → Slot) : (s.mapSlot f).members = s.members := rfl
@[simp] theorem State.mapSlot_refusedIds (s : State) (f : Slot → Slot) : (s.mapSlot f).refusedIds = s.refusedIds := rfl
@[simp] theorem State.mapSlot_queueMade (s : State) (f : Slot → Slot) : (s.mapSlot f).queueMade = s.queueMade := rfl
@[simp] theorem State.mapSlot_system (s : State) (f : Slot → Slot) : (s.mapSlot f).system = s.system := rfl
@[simp] theorem State.mapSlot_service (s : State) (f : Slot → Slot) : (s.mapSlot f).service = s.service := rfl
@[simp] theorem State.mapSlot_imageA (s : State) (f : Slot → Slot) : (s.mapSlot f).imageA = s.imageA := rfl
@[simp] theorem State.mapSlot_imageB (s : State) (f : Slot → Slot) : (s.mapSlot f).imageB = s.imageB := rfl
@[simp] theorem State.mapSlot_running (s : State) (f : Slot → Slot) : (s.mapSlot f).running = s.running := rfl
@[simp] theorem State.mapSlot_activeSlot (s : State) (f : Slot → Slot) : (s.mapSlot f).activeSlot = s.activeSlot := rfl
@[simp] theorem State.mapSlot_farcap (s : State) (f : Slot → Slot) : (s.mapSlot f).farcap = s.farcap := rfl
@[simp] theorem State.mapSlot_flashWays (s : State) (f : Slot → Slot) : (s.mapSlot f).flashWays = s.flashWays := rfl
@[simp] theorem State.mapSlot_flashLines (s : State) (f : Slot → Slot) : (s.mapSlot f).flashLines = s.flashLines := rfl
@[simp] theorem State.mapSlot_flashClusters (s : State) (f : Slot → Slot) : (s.mapSlot f).flashClusters = s.flashClusters := rfl
@[simp] theorem State.mapSlot_measurements (s : State) (f : Slot → Slot) : (s.mapSlot f).measurements = s.measurements := rfl
@[simp] theorem State.mapSlot_attest (s : State) (f : Slot → Slot) : (s.mapSlot f).attest = s.attest := rfl
@[simp] theorem State.mapSlot_update (s : State) (f : Slot → Slot) : (s.mapSlot f).update = s.update := rfl
@[simp] theorem State.mapSlot_hbeat (s : State) (f : Slot → Slot) : (s.mapSlot f).hbeat = s.hbeat := rfl
@[simp] theorem State.mapSlot_pcap (s : State) (f : Slot → Slot) : (s.mapSlot f).pcap = s.pcap := rfl
@[simp] theorem State.mapSlot_watts (s : State) (f : Slot → Slot) : (s.mapSlot f).watts = s.watts := rfl
@[simp] theorem State.mapSlot_shootWait (s : State) (f : Slot → Slot) : (s.mapSlot f).shootWait = s.shootWait := rfl
@[simp] theorem State.mapSlot_ftper (s : State) (f : Slot → Slot) : (s.mapSlot f).ftper = s.ftper := rfl
@[simp] theorem State.mapSlot_steplen (s : State) (f : Slot → Slot) : (s.mapSlot f).steplen = s.steplen := rfl
@[simp] theorem State.mapSlot_gstep (s : State) (f : Slot → Slot) : (s.mapSlot f).gstep = s.gstep := rfl
@[simp] theorem State.mapSlot_aligned (s : State) (f : Slot → Slot) : (s.mapSlot f).aligned = s.aligned := rfl
@[simp] theorem State.mapSlot_refclk (s : State) (f : Slot → Slot) : (s.mapSlot f).refclk = s.refclk := rfl
@[simp] theorem State.mapSlot_stepBase (s : State) (f : Slot → Slot) : (s.mapSlot f).stepBase = s.stepBase := rfl
@[simp] theorem State.mapSlot_sweep (s : State) (f : Slot → Slot) : (s.mapSlot f).sweep = s.sweep := rfl
@[simp] theorem State.mapSlot_lap (s : State) (f : Slot → Slot) : (s.mapSlot f).lap = s.lap := rfl
@[simp] theorem State.mapSlot_faults (s : State) (f : Slot → Slot) : (s.mapSlot f).faults = s.faults := rfl
@[simp] theorem State.mapSlot_snapctl (s : State) (f : Slot → Slot) : (s.mapSlot f).snapctl = s.snapctl := rfl
@[simp] theorem State.mapSlot_snapstep (s : State) (f : Slot → Slot) : (s.mapSlot f).snapstep = s.snapstep := rfl
@[simp] theorem State.mapSlot_snapDue (s : State) (f : Slot → Slot) : (s.mapSlot f).snapDue = s.snapDue := rfl
@[simp] theorem State.mapSlot_snap (s : State) (f : Slot → Slot) : (s.mapSlot f).snap = s.snap := rfl
@[simp] theorem State.mapSlot_cur (s : State) (f : Slot → Slot) : (s.mapSlot f).cur = s.cur := rfl
@[simp] theorem State.mapSlot_agenda (s : State) (f : Slot → Slot) : (s.mapSlot f).agenda = s.agenda := rfl
@[simp] theorem State.mapSlot_freeCtr (s : State) (f : Slot → Slot) : (s.mapSlot f).freeCtr = s.freeCtr := rfl

/-! ### modDie -/

@[simp] theorem State.modDie_mem (s : State) (d : Nat) (f : Die → Die) : (s.modDie d f).mem = s.mem := rfl
@[simp] theorem State.modDie_overlay (s : State) (d : Nat) (f : Die → Die) : (s.modDie d f).overlay = s.overlay := rfl
@[simp] theorem State.modDie_poison (s : State) (d : Nat) (f : Die → Die) : (s.modDie d f).poison = s.poison := rfl
@[simp] theorem State.modDie_armed (s : State) (d : Nat) (f : Die → Die) : (s.modDie d f).armed = s.armed := rfl
@[simp] theorem State.modDie_foreign (s : State) (d : Nat) (f : Die → Die) : (s.modDie d f).foreign = s.foreign := rfl
@[simp] theorem State.modDie_shootReqs (s : State) (d : Nat) (f : Die → Die) : (s.modDie d f).shootReqs = s.shootReqs := rfl
@[simp] theorem State.modDie_cores (s : State) (d : Nat) (f : Die → Die) : (s.modDie d f).cores = s.cores := rfl
@[simp] theorem State.modDie_clusters (s : State) (d : Nat) (f : Die → Die) : (s.modDie d f).clusters = s.clusters := rfl
@[simp] theorem State.modDie_queues (s : State) (d : Nat) (f : Die → Die) : (s.modDie d f).queues = s.queues := rfl
@[simp] theorem State.modDie_launches (s : State) (d : Nat) (f : Die → Die) : (s.modDie d f).launches = s.launches := rfl
@[simp] theorem State.modDie_nextLaunch (s : State) (d : Nat) (f : Die → Die) : (s.modDie d f).nextLaunch = s.nextLaunch := rfl
@[simp] theorem State.modDie_nextOrder (s : State) (d : Nat) (f : Die → Die) : (s.modDie d f).nextOrder = s.nextOrder := rfl
@[simp] theorem State.modDie_nextUid (s : State) (d : Nat) (f : Die → Die) : (s.modDie d f).nextUid = s.nextUid := rfl
@[simp] theorem State.modDie_saved (s : State) (d : Nat) (f : Die → Die) : (s.modDie d f).saved = s.saved := rfl
@[simp] theorem State.modDie_links (s : State) (d : Nat) (f : Die → Die) : (s.modDie d f).links = s.links := rfl
@[simp] theorem State.modDie_outbox (s : State) (d : Nat) (f : Die → Die) : (s.modDie d f).outbox = s.outbox := rfl
@[simp] theorem State.modDie_hostReqs (s : State) (d : Nat) (f : Die → Die) : (s.modDie d f).hostReqs = s.hostReqs := rfl
@[simp] theorem State.modDie_hostTag (s : State) (d : Nat) (f : Die → Die) : (s.modDie d f).hostTag = s.hostTag := rfl
@[simp] theorem State.modDie_fcores (s : State) (d : Nat) (f : Die → Die) : (s.modDie d f).fcores = s.fcores := rfl
@[simp] theorem State.modDie_fcur (s : State) (d : Nat) (f : Die → Die) : (s.modDie d f).fcur = s.fcur := rfl
@[simp] theorem State.modDie_fwoken (s : State) (d : Nat) (f : Die → Die) : (s.modDie d f).fwoken = s.fwoken := rfl
@[simp] theorem State.modDie_mcores (s : State) (d : Nat) (f : Die → Die) : (s.modDie d f).mcores = s.mcores := rfl
@[simp] theorem State.modDie_mbox (s : State) (d : Nat) (f : Die → Die) : (s.modDie d f).mbox = s.mbox := rfl
@[simp] theorem State.modDie_cmdWait (s : State) (d : Nat) (f : Die → Die) : (s.modDie d f).cmdWait = s.cmdWait := rfl
@[simp] theorem State.modDie_infos (s : State) (d : Nat) (f : Die → Die) : (s.modDie d f).infos = s.infos := rfl
@[simp] theorem State.modDie_routes (s : State) (d : Nat) (f : Die → Die) : (s.modDie d f).routes = s.routes := rfl
@[simp] theorem State.modDie_hostDev (s : State) (d : Nat) (f : Die → Die) : (s.modDie d f).hostDev = s.hostDev := rfl
@[simp] theorem State.modDie_cfgblocks (s : State) (d : Nat) (f : Die → Die) : (s.modDie d f).cfgblocks = s.cfgblocks := rfl
@[simp] theorem State.modDie_pendingMap (s : State) (d : Nat) (f : Die → Die) : (s.modDie d f).pendingMap = s.pendingMap := rfl
@[simp] theorem State.modDie_devid (s : State) (d : Nat) (f : Die → Die) : (s.modDie d f).devid = s.devid := rfl
@[simp] theorem State.modDie_identity (s : State) (d : Nat) (f : Die → Die) : (s.modDie d f).identity = s.identity := rfl
@[simp] theorem State.modDie_bridge (s : State) (d : Nat) (f : Die → Die) : (s.modDie d f).bridge = s.bridge := rfl
@[simp] theorem State.modDie_members (s : State) (d : Nat) (f : Die → Die) : (s.modDie d f).members = s.members := rfl
@[simp] theorem State.modDie_refusedIds (s : State) (d : Nat) (f : Die → Die) : (s.modDie d f).refusedIds = s.refusedIds := rfl
@[simp] theorem State.modDie_queueMade (s : State) (d : Nat) (f : Die → Die) : (s.modDie d f).queueMade = s.queueMade := rfl
@[simp] theorem State.modDie_system (s : State) (d : Nat) (f : Die → Die) : (s.modDie d f).system = s.system := rfl
@[simp] theorem State.modDie_service (s : State) (d : Nat) (f : Die → Die) : (s.modDie d f).service = s.service := rfl
@[simp] theorem State.modDie_imageA (s : State) (d : Nat) (f : Die → Die) : (s.modDie d f).imageA = s.imageA := rfl
@[simp] theorem State.modDie_imageB (s : State) (d : Nat) (f : Die → Die) : (s.modDie d f).imageB = s.imageB := rfl
@[simp] theorem State.modDie_running (s : State) (d : Nat) (f : Die → Die) : (s.modDie d f).running = s.running := rfl
@[simp] theorem State.modDie_activeSlot (s : State) (d : Nat) (f : Die → Die) : (s.modDie d f).activeSlot = s.activeSlot := rfl
@[simp] theorem State.modDie_farcap (s : State) (d : Nat) (f : Die → Die) : (s.modDie d f).farcap = s.farcap := rfl
@[simp] theorem State.modDie_flashWays (s : State) (d : Nat) (f : Die → Die) : (s.modDie d f).flashWays = s.flashWays := rfl
@[simp] theorem State.modDie_flashLines (s : State) (d : Nat) (f : Die → Die) : (s.modDie d f).flashLines = s.flashLines := rfl
@[simp] theorem State.modDie_flashClusters (s : State) (d : Nat) (f : Die → Die) : (s.modDie d f).flashClusters = s.flashClusters := rfl
@[simp] theorem State.modDie_measurements (s : State) (d : Nat) (f : Die → Die) : (s.modDie d f).measurements = s.measurements := rfl
@[simp] theorem State.modDie_attest (s : State) (d : Nat) (f : Die → Die) : (s.modDie d f).attest = s.attest := rfl
@[simp] theorem State.modDie_update (s : State) (d : Nat) (f : Die → Die) : (s.modDie d f).update = s.update := rfl
@[simp] theorem State.modDie_hbeat (s : State) (d : Nat) (f : Die → Die) : (s.modDie d f).hbeat = s.hbeat := rfl
@[simp] theorem State.modDie_pcap (s : State) (d : Nat) (f : Die → Die) : (s.modDie d f).pcap = s.pcap := rfl
@[simp] theorem State.modDie_watts (s : State) (d : Nat) (f : Die → Die) : (s.modDie d f).watts = s.watts := rfl
@[simp] theorem State.modDie_shootWait (s : State) (d : Nat) (f : Die → Die) : (s.modDie d f).shootWait = s.shootWait := rfl
@[simp] theorem State.modDie_ftper (s : State) (d : Nat) (f : Die → Die) : (s.modDie d f).ftper = s.ftper := rfl
@[simp] theorem State.modDie_steplen (s : State) (d : Nat) (f : Die → Die) : (s.modDie d f).steplen = s.steplen := rfl
@[simp] theorem State.modDie_gstep (s : State) (d : Nat) (f : Die → Die) : (s.modDie d f).gstep = s.gstep := rfl
@[simp] theorem State.modDie_aligned (s : State) (d : Nat) (f : Die → Die) : (s.modDie d f).aligned = s.aligned := rfl
@[simp] theorem State.modDie_refclk (s : State) (d : Nat) (f : Die → Die) : (s.modDie d f).refclk = s.refclk := rfl
@[simp] theorem State.modDie_stepBase (s : State) (d : Nat) (f : Die → Die) : (s.modDie d f).stepBase = s.stepBase := rfl
@[simp] theorem State.modDie_sweep (s : State) (d : Nat) (f : Die → Die) : (s.modDie d f).sweep = s.sweep := rfl
@[simp] theorem State.modDie_lap (s : State) (d : Nat) (f : Die → Die) : (s.modDie d f).lap = s.lap := rfl
@[simp] theorem State.modDie_faults (s : State) (d : Nat) (f : Die → Die) : (s.modDie d f).faults = s.faults := rfl
@[simp] theorem State.modDie_snapctl (s : State) (d : Nat) (f : Die → Die) : (s.modDie d f).snapctl = s.snapctl := rfl
@[simp] theorem State.modDie_snapstep (s : State) (d : Nat) (f : Die → Die) : (s.modDie d f).snapstep = s.snapstep := rfl
@[simp] theorem State.modDie_snapDue (s : State) (d : Nat) (f : Die → Die) : (s.modDie d f).snapDue = s.snapDue := rfl
@[simp] theorem State.modDie_snap (s : State) (d : Nat) (f : Die → Die) : (s.modDie d f).snap = s.snap := rfl
@[simp] theorem State.modDie_cur (s : State) (d : Nat) (f : Die → Die) : (s.modDie d f).cur = s.cur := rfl
@[simp] theorem State.modDie_agenda (s : State) (d : Nat) (f : Die → Die) : (s.modDie d f).agenda = s.agenda := rfl
@[simp] theorem State.modDie_freeCtr (s : State) (d : Nat) (f : Die → Die) : (s.modDie d f).freeCtr = s.freeCtr := rfl

/-! ### modCluster -/

@[simp] theorem State.modCluster_mem (s : State) (k : Nat) (f : Cluster → Cluster) : (s.modCluster k f).mem = s.mem := rfl
@[simp] theorem State.modCluster_overlay (s : State) (k : Nat) (f : Cluster → Cluster) : (s.modCluster k f).overlay = s.overlay := rfl
@[simp] theorem State.modCluster_poison (s : State) (k : Nat) (f : Cluster → Cluster) : (s.modCluster k f).poison = s.poison := rfl
@[simp] theorem State.modCluster_armed (s : State) (k : Nat) (f : Cluster → Cluster) : (s.modCluster k f).armed = s.armed := rfl
@[simp] theorem State.modCluster_foreign (s : State) (k : Nat) (f : Cluster → Cluster) : (s.modCluster k f).foreign = s.foreign := rfl
@[simp] theorem State.modCluster_shootReqs (s : State) (k : Nat) (f : Cluster → Cluster) : (s.modCluster k f).shootReqs = s.shootReqs := rfl
@[simp] theorem State.modCluster_cores (s : State) (k : Nat) (f : Cluster → Cluster) : (s.modCluster k f).cores = s.cores := rfl
@[simp] theorem State.modCluster_dies (s : State) (k : Nat) (f : Cluster → Cluster) : (s.modCluster k f).dies = s.dies := rfl
@[simp] theorem State.modCluster_queues (s : State) (k : Nat) (f : Cluster → Cluster) : (s.modCluster k f).queues = s.queues := rfl
@[simp] theorem State.modCluster_launches (s : State) (k : Nat) (f : Cluster → Cluster) : (s.modCluster k f).launches = s.launches := rfl
@[simp] theorem State.modCluster_nextLaunch (s : State) (k : Nat) (f : Cluster → Cluster) : (s.modCluster k f).nextLaunch = s.nextLaunch := rfl
@[simp] theorem State.modCluster_nextOrder (s : State) (k : Nat) (f : Cluster → Cluster) : (s.modCluster k f).nextOrder = s.nextOrder := rfl
@[simp] theorem State.modCluster_nextUid (s : State) (k : Nat) (f : Cluster → Cluster) : (s.modCluster k f).nextUid = s.nextUid := rfl
@[simp] theorem State.modCluster_saved (s : State) (k : Nat) (f : Cluster → Cluster) : (s.modCluster k f).saved = s.saved := rfl
@[simp] theorem State.modCluster_links (s : State) (k : Nat) (f : Cluster → Cluster) : (s.modCluster k f).links = s.links := rfl
@[simp] theorem State.modCluster_outbox (s : State) (k : Nat) (f : Cluster → Cluster) : (s.modCluster k f).outbox = s.outbox := rfl
@[simp] theorem State.modCluster_hostReqs (s : State) (k : Nat) (f : Cluster → Cluster) : (s.modCluster k f).hostReqs = s.hostReqs := rfl
@[simp] theorem State.modCluster_hostTag (s : State) (k : Nat) (f : Cluster → Cluster) : (s.modCluster k f).hostTag = s.hostTag := rfl
@[simp] theorem State.modCluster_fcores (s : State) (k : Nat) (f : Cluster → Cluster) : (s.modCluster k f).fcores = s.fcores := rfl
@[simp] theorem State.modCluster_fcur (s : State) (k : Nat) (f : Cluster → Cluster) : (s.modCluster k f).fcur = s.fcur := rfl
@[simp] theorem State.modCluster_fwoken (s : State) (k : Nat) (f : Cluster → Cluster) : (s.modCluster k f).fwoken = s.fwoken := rfl
@[simp] theorem State.modCluster_mcores (s : State) (k : Nat) (f : Cluster → Cluster) : (s.modCluster k f).mcores = s.mcores := rfl
@[simp] theorem State.modCluster_mbox (s : State) (k : Nat) (f : Cluster → Cluster) : (s.modCluster k f).mbox = s.mbox := rfl
@[simp] theorem State.modCluster_cmdWait (s : State) (k : Nat) (f : Cluster → Cluster) : (s.modCluster k f).cmdWait = s.cmdWait := rfl
@[simp] theorem State.modCluster_infos (s : State) (k : Nat) (f : Cluster → Cluster) : (s.modCluster k f).infos = s.infos := rfl
@[simp] theorem State.modCluster_routes (s : State) (k : Nat) (f : Cluster → Cluster) : (s.modCluster k f).routes = s.routes := rfl
@[simp] theorem State.modCluster_hostDev (s : State) (k : Nat) (f : Cluster → Cluster) : (s.modCluster k f).hostDev = s.hostDev := rfl
@[simp] theorem State.modCluster_cfgblocks (s : State) (k : Nat) (f : Cluster → Cluster) : (s.modCluster k f).cfgblocks = s.cfgblocks := rfl
@[simp] theorem State.modCluster_pendingMap (s : State) (k : Nat) (f : Cluster → Cluster) : (s.modCluster k f).pendingMap = s.pendingMap := rfl
@[simp] theorem State.modCluster_devid (s : State) (k : Nat) (f : Cluster → Cluster) : (s.modCluster k f).devid = s.devid := rfl
@[simp] theorem State.modCluster_identity (s : State) (k : Nat) (f : Cluster → Cluster) : (s.modCluster k f).identity = s.identity := rfl
@[simp] theorem State.modCluster_bridge (s : State) (k : Nat) (f : Cluster → Cluster) : (s.modCluster k f).bridge = s.bridge := rfl
@[simp] theorem State.modCluster_members (s : State) (k : Nat) (f : Cluster → Cluster) : (s.modCluster k f).members = s.members := rfl
@[simp] theorem State.modCluster_refusedIds (s : State) (k : Nat) (f : Cluster → Cluster) : (s.modCluster k f).refusedIds = s.refusedIds := rfl
@[simp] theorem State.modCluster_queueMade (s : State) (k : Nat) (f : Cluster → Cluster) : (s.modCluster k f).queueMade = s.queueMade := rfl
@[simp] theorem State.modCluster_system (s : State) (k : Nat) (f : Cluster → Cluster) : (s.modCluster k f).system = s.system := rfl
@[simp] theorem State.modCluster_service (s : State) (k : Nat) (f : Cluster → Cluster) : (s.modCluster k f).service = s.service := rfl
@[simp] theorem State.modCluster_imageA (s : State) (k : Nat) (f : Cluster → Cluster) : (s.modCluster k f).imageA = s.imageA := rfl
@[simp] theorem State.modCluster_imageB (s : State) (k : Nat) (f : Cluster → Cluster) : (s.modCluster k f).imageB = s.imageB := rfl
@[simp] theorem State.modCluster_running (s : State) (k : Nat) (f : Cluster → Cluster) : (s.modCluster k f).running = s.running := rfl
@[simp] theorem State.modCluster_activeSlot (s : State) (k : Nat) (f : Cluster → Cluster) : (s.modCluster k f).activeSlot = s.activeSlot := rfl
@[simp] theorem State.modCluster_farcap (s : State) (k : Nat) (f : Cluster → Cluster) : (s.modCluster k f).farcap = s.farcap := rfl
@[simp] theorem State.modCluster_flashWays (s : State) (k : Nat) (f : Cluster → Cluster) : (s.modCluster k f).flashWays = s.flashWays := rfl
@[simp] theorem State.modCluster_flashLines (s : State) (k : Nat) (f : Cluster → Cluster) : (s.modCluster k f).flashLines = s.flashLines := rfl
@[simp] theorem State.modCluster_flashClusters (s : State) (k : Nat) (f : Cluster → Cluster) : (s.modCluster k f).flashClusters = s.flashClusters := rfl
@[simp] theorem State.modCluster_measurements (s : State) (k : Nat) (f : Cluster → Cluster) : (s.modCluster k f).measurements = s.measurements := rfl
@[simp] theorem State.modCluster_attest (s : State) (k : Nat) (f : Cluster → Cluster) : (s.modCluster k f).attest = s.attest := rfl
@[simp] theorem State.modCluster_update (s : State) (k : Nat) (f : Cluster → Cluster) : (s.modCluster k f).update = s.update := rfl
@[simp] theorem State.modCluster_hbeat (s : State) (k : Nat) (f : Cluster → Cluster) : (s.modCluster k f).hbeat = s.hbeat := rfl
@[simp] theorem State.modCluster_pcap (s : State) (k : Nat) (f : Cluster → Cluster) : (s.modCluster k f).pcap = s.pcap := rfl
@[simp] theorem State.modCluster_watts (s : State) (k : Nat) (f : Cluster → Cluster) : (s.modCluster k f).watts = s.watts := rfl
@[simp] theorem State.modCluster_shootWait (s : State) (k : Nat) (f : Cluster → Cluster) : (s.modCluster k f).shootWait = s.shootWait := rfl
@[simp] theorem State.modCluster_ftper (s : State) (k : Nat) (f : Cluster → Cluster) : (s.modCluster k f).ftper = s.ftper := rfl
@[simp] theorem State.modCluster_steplen (s : State) (k : Nat) (f : Cluster → Cluster) : (s.modCluster k f).steplen = s.steplen := rfl
@[simp] theorem State.modCluster_gstep (s : State) (k : Nat) (f : Cluster → Cluster) : (s.modCluster k f).gstep = s.gstep := rfl
@[simp] theorem State.modCluster_aligned (s : State) (k : Nat) (f : Cluster → Cluster) : (s.modCluster k f).aligned = s.aligned := rfl
@[simp] theorem State.modCluster_refclk (s : State) (k : Nat) (f : Cluster → Cluster) : (s.modCluster k f).refclk = s.refclk := rfl
@[simp] theorem State.modCluster_stepBase (s : State) (k : Nat) (f : Cluster → Cluster) : (s.modCluster k f).stepBase = s.stepBase := rfl
@[simp] theorem State.modCluster_sweep (s : State) (k : Nat) (f : Cluster → Cluster) : (s.modCluster k f).sweep = s.sweep := rfl
@[simp] theorem State.modCluster_lap (s : State) (k : Nat) (f : Cluster → Cluster) : (s.modCluster k f).lap = s.lap := rfl
@[simp] theorem State.modCluster_faults (s : State) (k : Nat) (f : Cluster → Cluster) : (s.modCluster k f).faults = s.faults := rfl
@[simp] theorem State.modCluster_snapctl (s : State) (k : Nat) (f : Cluster → Cluster) : (s.modCluster k f).snapctl = s.snapctl := rfl
@[simp] theorem State.modCluster_snapstep (s : State) (k : Nat) (f : Cluster → Cluster) : (s.modCluster k f).snapstep = s.snapstep := rfl
@[simp] theorem State.modCluster_snapDue (s : State) (k : Nat) (f : Cluster → Cluster) : (s.modCluster k f).snapDue = s.snapDue := rfl
@[simp] theorem State.modCluster_snap (s : State) (k : Nat) (f : Cluster → Cluster) : (s.modCluster k f).snap = s.snap := rfl
@[simp] theorem State.modCluster_cur (s : State) (k : Nat) (f : Cluster → Cluster) : (s.modCluster k f).cur = s.cur := rfl
@[simp] theorem State.modCluster_agenda (s : State) (k : Nat) (f : Cluster → Cluster) : (s.modCluster k f).agenda = s.agenda := rfl
@[simp] theorem State.modCluster_freeCtr (s : State) (k : Nat) (f : Cluster → Cluster) : (s.modCluster k f).freeCtr = s.freeCtr := rfl

/-! ### modQueue -/

@[simp] theorem State.modQueue_mem (s : State) (q : Nat) (f : Queue → Queue) : (s.modQueue q f).mem = s.mem := rfl
@[simp] theorem State.modQueue_overlay (s : State) (q : Nat) (f : Queue → Queue) : (s.modQueue q f).overlay = s.overlay := rfl
@[simp] theorem State.modQueue_poison (s : State) (q : Nat) (f : Queue → Queue) : (s.modQueue q f).poison = s.poison := rfl
@[simp] theorem State.modQueue_armed (s : State) (q : Nat) (f : Queue → Queue) : (s.modQueue q f).armed = s.armed := rfl
@[simp] theorem State.modQueue_foreign (s : State) (q : Nat) (f : Queue → Queue) : (s.modQueue q f).foreign = s.foreign := rfl
@[simp] theorem State.modQueue_shootReqs (s : State) (q : Nat) (f : Queue → Queue) : (s.modQueue q f).shootReqs = s.shootReqs := rfl
@[simp] theorem State.modQueue_cores (s : State) (q : Nat) (f : Queue → Queue) : (s.modQueue q f).cores = s.cores := rfl
@[simp] theorem State.modQueue_dies (s : State) (q : Nat) (f : Queue → Queue) : (s.modQueue q f).dies = s.dies := rfl
@[simp] theorem State.modQueue_clusters (s : State) (q : Nat) (f : Queue → Queue) : (s.modQueue q f).clusters = s.clusters := rfl
@[simp] theorem State.modQueue_launches (s : State) (q : Nat) (f : Queue → Queue) : (s.modQueue q f).launches = s.launches := rfl
@[simp] theorem State.modQueue_nextLaunch (s : State) (q : Nat) (f : Queue → Queue) : (s.modQueue q f).nextLaunch = s.nextLaunch := rfl
@[simp] theorem State.modQueue_nextOrder (s : State) (q : Nat) (f : Queue → Queue) : (s.modQueue q f).nextOrder = s.nextOrder := rfl
@[simp] theorem State.modQueue_nextUid (s : State) (q : Nat) (f : Queue → Queue) : (s.modQueue q f).nextUid = s.nextUid := rfl
@[simp] theorem State.modQueue_saved (s : State) (q : Nat) (f : Queue → Queue) : (s.modQueue q f).saved = s.saved := rfl
@[simp] theorem State.modQueue_links (s : State) (q : Nat) (f : Queue → Queue) : (s.modQueue q f).links = s.links := rfl
@[simp] theorem State.modQueue_outbox (s : State) (q : Nat) (f : Queue → Queue) : (s.modQueue q f).outbox = s.outbox := rfl
@[simp] theorem State.modQueue_hostReqs (s : State) (q : Nat) (f : Queue → Queue) : (s.modQueue q f).hostReqs = s.hostReqs := rfl
@[simp] theorem State.modQueue_hostTag (s : State) (q : Nat) (f : Queue → Queue) : (s.modQueue q f).hostTag = s.hostTag := rfl
@[simp] theorem State.modQueue_fcores (s : State) (q : Nat) (f : Queue → Queue) : (s.modQueue q f).fcores = s.fcores := rfl
@[simp] theorem State.modQueue_fcur (s : State) (q : Nat) (f : Queue → Queue) : (s.modQueue q f).fcur = s.fcur := rfl
@[simp] theorem State.modQueue_fwoken (s : State) (q : Nat) (f : Queue → Queue) : (s.modQueue q f).fwoken = s.fwoken := rfl
@[simp] theorem State.modQueue_mcores (s : State) (q : Nat) (f : Queue → Queue) : (s.modQueue q f).mcores = s.mcores := rfl
@[simp] theorem State.modQueue_mbox (s : State) (q : Nat) (f : Queue → Queue) : (s.modQueue q f).mbox = s.mbox := rfl
@[simp] theorem State.modQueue_cmdWait (s : State) (q : Nat) (f : Queue → Queue) : (s.modQueue q f).cmdWait = s.cmdWait := rfl
@[simp] theorem State.modQueue_infos (s : State) (q : Nat) (f : Queue → Queue) : (s.modQueue q f).infos = s.infos := rfl
@[simp] theorem State.modQueue_routes (s : State) (q : Nat) (f : Queue → Queue) : (s.modQueue q f).routes = s.routes := rfl
@[simp] theorem State.modQueue_hostDev (s : State) (q : Nat) (f : Queue → Queue) : (s.modQueue q f).hostDev = s.hostDev := rfl
@[simp] theorem State.modQueue_cfgblocks (s : State) (q : Nat) (f : Queue → Queue) : (s.modQueue q f).cfgblocks = s.cfgblocks := rfl
@[simp] theorem State.modQueue_pendingMap (s : State) (q : Nat) (f : Queue → Queue) : (s.modQueue q f).pendingMap = s.pendingMap := rfl
@[simp] theorem State.modQueue_devid (s : State) (q : Nat) (f : Queue → Queue) : (s.modQueue q f).devid = s.devid := rfl
@[simp] theorem State.modQueue_identity (s : State) (q : Nat) (f : Queue → Queue) : (s.modQueue q f).identity = s.identity := rfl
@[simp] theorem State.modQueue_bridge (s : State) (q : Nat) (f : Queue → Queue) : (s.modQueue q f).bridge = s.bridge := rfl
@[simp] theorem State.modQueue_members (s : State) (q : Nat) (f : Queue → Queue) : (s.modQueue q f).members = s.members := rfl
@[simp] theorem State.modQueue_refusedIds (s : State) (q : Nat) (f : Queue → Queue) : (s.modQueue q f).refusedIds = s.refusedIds := rfl
@[simp] theorem State.modQueue_queueMade (s : State) (q : Nat) (f : Queue → Queue) : (s.modQueue q f).queueMade = s.queueMade := rfl
@[simp] theorem State.modQueue_system (s : State) (q : Nat) (f : Queue → Queue) : (s.modQueue q f).system = s.system := rfl
@[simp] theorem State.modQueue_service (s : State) (q : Nat) (f : Queue → Queue) : (s.modQueue q f).service = s.service := rfl
@[simp] theorem State.modQueue_imageA (s : State) (q : Nat) (f : Queue → Queue) : (s.modQueue q f).imageA = s.imageA := rfl
@[simp] theorem State.modQueue_imageB (s : State) (q : Nat) (f : Queue → Queue) : (s.modQueue q f).imageB = s.imageB := rfl
@[simp] theorem State.modQueue_running (s : State) (q : Nat) (f : Queue → Queue) : (s.modQueue q f).running = s.running := rfl
@[simp] theorem State.modQueue_activeSlot (s : State) (q : Nat) (f : Queue → Queue) : (s.modQueue q f).activeSlot = s.activeSlot := rfl
@[simp] theorem State.modQueue_farcap (s : State) (q : Nat) (f : Queue → Queue) : (s.modQueue q f).farcap = s.farcap := rfl
@[simp] theorem State.modQueue_flashWays (s : State) (q : Nat) (f : Queue → Queue) : (s.modQueue q f).flashWays = s.flashWays := rfl
@[simp] theorem State.modQueue_flashLines (s : State) (q : Nat) (f : Queue → Queue) : (s.modQueue q f).flashLines = s.flashLines := rfl
@[simp] theorem State.modQueue_flashClusters (s : State) (q : Nat) (f : Queue → Queue) : (s.modQueue q f).flashClusters = s.flashClusters := rfl
@[simp] theorem State.modQueue_measurements (s : State) (q : Nat) (f : Queue → Queue) : (s.modQueue q f).measurements = s.measurements := rfl
@[simp] theorem State.modQueue_attest (s : State) (q : Nat) (f : Queue → Queue) : (s.modQueue q f).attest = s.attest := rfl
@[simp] theorem State.modQueue_update (s : State) (q : Nat) (f : Queue → Queue) : (s.modQueue q f).update = s.update := rfl
@[simp] theorem State.modQueue_hbeat (s : State) (q : Nat) (f : Queue → Queue) : (s.modQueue q f).hbeat = s.hbeat := rfl
@[simp] theorem State.modQueue_pcap (s : State) (q : Nat) (f : Queue → Queue) : (s.modQueue q f).pcap = s.pcap := rfl
@[simp] theorem State.modQueue_watts (s : State) (q : Nat) (f : Queue → Queue) : (s.modQueue q f).watts = s.watts := rfl
@[simp] theorem State.modQueue_shootWait (s : State) (q : Nat) (f : Queue → Queue) : (s.modQueue q f).shootWait = s.shootWait := rfl
@[simp] theorem State.modQueue_ftper (s : State) (q : Nat) (f : Queue → Queue) : (s.modQueue q f).ftper = s.ftper := rfl
@[simp] theorem State.modQueue_steplen (s : State) (q : Nat) (f : Queue → Queue) : (s.modQueue q f).steplen = s.steplen := rfl
@[simp] theorem State.modQueue_gstep (s : State) (q : Nat) (f : Queue → Queue) : (s.modQueue q f).gstep = s.gstep := rfl
@[simp] theorem State.modQueue_aligned (s : State) (q : Nat) (f : Queue → Queue) : (s.modQueue q f).aligned = s.aligned := rfl
@[simp] theorem State.modQueue_refclk (s : State) (q : Nat) (f : Queue → Queue) : (s.modQueue q f).refclk = s.refclk := rfl
@[simp] theorem State.modQueue_stepBase (s : State) (q : Nat) (f : Queue → Queue) : (s.modQueue q f).stepBase = s.stepBase := rfl
@[simp] theorem State.modQueue_sweep (s : State) (q : Nat) (f : Queue → Queue) : (s.modQueue q f).sweep = s.sweep := rfl
@[simp] theorem State.modQueue_lap (s : State) (q : Nat) (f : Queue → Queue) : (s.modQueue q f).lap = s.lap := rfl
@[simp] theorem State.modQueue_faults (s : State) (q : Nat) (f : Queue → Queue) : (s.modQueue q f).faults = s.faults := rfl
@[simp] theorem State.modQueue_snapctl (s : State) (q : Nat) (f : Queue → Queue) : (s.modQueue q f).snapctl = s.snapctl := rfl
@[simp] theorem State.modQueue_snapstep (s : State) (q : Nat) (f : Queue → Queue) : (s.modQueue q f).snapstep = s.snapstep := rfl
@[simp] theorem State.modQueue_snapDue (s : State) (q : Nat) (f : Queue → Queue) : (s.modQueue q f).snapDue = s.snapDue := rfl
@[simp] theorem State.modQueue_snap (s : State) (q : Nat) (f : Queue → Queue) : (s.modQueue q f).snap = s.snap := rfl
@[simp] theorem State.modQueue_cur (s : State) (q : Nat) (f : Queue → Queue) : (s.modQueue q f).cur = s.cur := rfl
@[simp] theorem State.modQueue_agenda (s : State) (q : Nat) (f : Queue → Queue) : (s.modQueue q f).agenda = s.agenda := rfl
@[simp] theorem State.modQueue_freeCtr (s : State) (q : Nat) (f : Queue → Queue) : (s.modQueue q f).freeCtr = s.freeCtr := rfl

/-! ### modLaunch -/

@[simp] theorem State.modLaunch_mem (s : State) (n : Nat) (f : Launch → Launch) : (s.modLaunch n f).mem = s.mem := rfl
@[simp] theorem State.modLaunch_overlay (s : State) (n : Nat) (f : Launch → Launch) : (s.modLaunch n f).overlay = s.overlay := rfl
@[simp] theorem State.modLaunch_poison (s : State) (n : Nat) (f : Launch → Launch) : (s.modLaunch n f).poison = s.poison := rfl
@[simp] theorem State.modLaunch_armed (s : State) (n : Nat) (f : Launch → Launch) : (s.modLaunch n f).armed = s.armed := rfl
@[simp] theorem State.modLaunch_foreign (s : State) (n : Nat) (f : Launch → Launch) : (s.modLaunch n f).foreign = s.foreign := rfl
@[simp] theorem State.modLaunch_shootReqs (s : State) (n : Nat) (f : Launch → Launch) : (s.modLaunch n f).shootReqs = s.shootReqs := rfl
@[simp] theorem State.modLaunch_cores (s : State) (n : Nat) (f : Launch → Launch) : (s.modLaunch n f).cores = s.cores := rfl
@[simp] theorem State.modLaunch_dies (s : State) (n : Nat) (f : Launch → Launch) : (s.modLaunch n f).dies = s.dies := rfl
@[simp] theorem State.modLaunch_clusters (s : State) (n : Nat) (f : Launch → Launch) : (s.modLaunch n f).clusters = s.clusters := rfl
@[simp] theorem State.modLaunch_queues (s : State) (n : Nat) (f : Launch → Launch) : (s.modLaunch n f).queues = s.queues := rfl
@[simp] theorem State.modLaunch_nextLaunch (s : State) (n : Nat) (f : Launch → Launch) : (s.modLaunch n f).nextLaunch = s.nextLaunch := rfl
@[simp] theorem State.modLaunch_nextOrder (s : State) (n : Nat) (f : Launch → Launch) : (s.modLaunch n f).nextOrder = s.nextOrder := rfl
@[simp] theorem State.modLaunch_nextUid (s : State) (n : Nat) (f : Launch → Launch) : (s.modLaunch n f).nextUid = s.nextUid := rfl
@[simp] theorem State.modLaunch_saved (s : State) (n : Nat) (f : Launch → Launch) : (s.modLaunch n f).saved = s.saved := rfl
@[simp] theorem State.modLaunch_links (s : State) (n : Nat) (f : Launch → Launch) : (s.modLaunch n f).links = s.links := rfl
@[simp] theorem State.modLaunch_outbox (s : State) (n : Nat) (f : Launch → Launch) : (s.modLaunch n f).outbox = s.outbox := rfl
@[simp] theorem State.modLaunch_hostReqs (s : State) (n : Nat) (f : Launch → Launch) : (s.modLaunch n f).hostReqs = s.hostReqs := rfl
@[simp] theorem State.modLaunch_hostTag (s : State) (n : Nat) (f : Launch → Launch) : (s.modLaunch n f).hostTag = s.hostTag := rfl
@[simp] theorem State.modLaunch_fcores (s : State) (n : Nat) (f : Launch → Launch) : (s.modLaunch n f).fcores = s.fcores := rfl
@[simp] theorem State.modLaunch_fcur (s : State) (n : Nat) (f : Launch → Launch) : (s.modLaunch n f).fcur = s.fcur := rfl
@[simp] theorem State.modLaunch_fwoken (s : State) (n : Nat) (f : Launch → Launch) : (s.modLaunch n f).fwoken = s.fwoken := rfl
@[simp] theorem State.modLaunch_mcores (s : State) (n : Nat) (f : Launch → Launch) : (s.modLaunch n f).mcores = s.mcores := rfl
@[simp] theorem State.modLaunch_mbox (s : State) (n : Nat) (f : Launch → Launch) : (s.modLaunch n f).mbox = s.mbox := rfl
@[simp] theorem State.modLaunch_cmdWait (s : State) (n : Nat) (f : Launch → Launch) : (s.modLaunch n f).cmdWait = s.cmdWait := rfl
@[simp] theorem State.modLaunch_infos (s : State) (n : Nat) (f : Launch → Launch) : (s.modLaunch n f).infos = s.infos := rfl
@[simp] theorem State.modLaunch_routes (s : State) (n : Nat) (f : Launch → Launch) : (s.modLaunch n f).routes = s.routes := rfl
@[simp] theorem State.modLaunch_hostDev (s : State) (n : Nat) (f : Launch → Launch) : (s.modLaunch n f).hostDev = s.hostDev := rfl
@[simp] theorem State.modLaunch_cfgblocks (s : State) (n : Nat) (f : Launch → Launch) : (s.modLaunch n f).cfgblocks = s.cfgblocks := rfl
@[simp] theorem State.modLaunch_pendingMap (s : State) (n : Nat) (f : Launch → Launch) : (s.modLaunch n f).pendingMap = s.pendingMap := rfl
@[simp] theorem State.modLaunch_devid (s : State) (n : Nat) (f : Launch → Launch) : (s.modLaunch n f).devid = s.devid := rfl
@[simp] theorem State.modLaunch_identity (s : State) (n : Nat) (f : Launch → Launch) : (s.modLaunch n f).identity = s.identity := rfl
@[simp] theorem State.modLaunch_bridge (s : State) (n : Nat) (f : Launch → Launch) : (s.modLaunch n f).bridge = s.bridge := rfl
@[simp] theorem State.modLaunch_members (s : State) (n : Nat) (f : Launch → Launch) : (s.modLaunch n f).members = s.members := rfl
@[simp] theorem State.modLaunch_refusedIds (s : State) (n : Nat) (f : Launch → Launch) : (s.modLaunch n f).refusedIds = s.refusedIds := rfl
@[simp] theorem State.modLaunch_queueMade (s : State) (n : Nat) (f : Launch → Launch) : (s.modLaunch n f).queueMade = s.queueMade := rfl
@[simp] theorem State.modLaunch_system (s : State) (n : Nat) (f : Launch → Launch) : (s.modLaunch n f).system = s.system := rfl
@[simp] theorem State.modLaunch_service (s : State) (n : Nat) (f : Launch → Launch) : (s.modLaunch n f).service = s.service := rfl
@[simp] theorem State.modLaunch_imageA (s : State) (n : Nat) (f : Launch → Launch) : (s.modLaunch n f).imageA = s.imageA := rfl
@[simp] theorem State.modLaunch_imageB (s : State) (n : Nat) (f : Launch → Launch) : (s.modLaunch n f).imageB = s.imageB := rfl
@[simp] theorem State.modLaunch_running (s : State) (n : Nat) (f : Launch → Launch) : (s.modLaunch n f).running = s.running := rfl
@[simp] theorem State.modLaunch_activeSlot (s : State) (n : Nat) (f : Launch → Launch) : (s.modLaunch n f).activeSlot = s.activeSlot := rfl
@[simp] theorem State.modLaunch_farcap (s : State) (n : Nat) (f : Launch → Launch) : (s.modLaunch n f).farcap = s.farcap := rfl
@[simp] theorem State.modLaunch_flashWays (s : State) (n : Nat) (f : Launch → Launch) : (s.modLaunch n f).flashWays = s.flashWays := rfl
@[simp] theorem State.modLaunch_flashLines (s : State) (n : Nat) (f : Launch → Launch) : (s.modLaunch n f).flashLines = s.flashLines := rfl
@[simp] theorem State.modLaunch_flashClusters (s : State) (n : Nat) (f : Launch → Launch) : (s.modLaunch n f).flashClusters = s.flashClusters := rfl
@[simp] theorem State.modLaunch_measurements (s : State) (n : Nat) (f : Launch → Launch) : (s.modLaunch n f).measurements = s.measurements := rfl
@[simp] theorem State.modLaunch_attest (s : State) (n : Nat) (f : Launch → Launch) : (s.modLaunch n f).attest = s.attest := rfl
@[simp] theorem State.modLaunch_update (s : State) (n : Nat) (f : Launch → Launch) : (s.modLaunch n f).update = s.update := rfl
@[simp] theorem State.modLaunch_hbeat (s : State) (n : Nat) (f : Launch → Launch) : (s.modLaunch n f).hbeat = s.hbeat := rfl
@[simp] theorem State.modLaunch_pcap (s : State) (n : Nat) (f : Launch → Launch) : (s.modLaunch n f).pcap = s.pcap := rfl
@[simp] theorem State.modLaunch_watts (s : State) (n : Nat) (f : Launch → Launch) : (s.modLaunch n f).watts = s.watts := rfl
@[simp] theorem State.modLaunch_shootWait (s : State) (n : Nat) (f : Launch → Launch) : (s.modLaunch n f).shootWait = s.shootWait := rfl
@[simp] theorem State.modLaunch_ftper (s : State) (n : Nat) (f : Launch → Launch) : (s.modLaunch n f).ftper = s.ftper := rfl
@[simp] theorem State.modLaunch_steplen (s : State) (n : Nat) (f : Launch → Launch) : (s.modLaunch n f).steplen = s.steplen := rfl
@[simp] theorem State.modLaunch_gstep (s : State) (n : Nat) (f : Launch → Launch) : (s.modLaunch n f).gstep = s.gstep := rfl
@[simp] theorem State.modLaunch_aligned (s : State) (n : Nat) (f : Launch → Launch) : (s.modLaunch n f).aligned = s.aligned := rfl
@[simp] theorem State.modLaunch_refclk (s : State) (n : Nat) (f : Launch → Launch) : (s.modLaunch n f).refclk = s.refclk := rfl
@[simp] theorem State.modLaunch_stepBase (s : State) (n : Nat) (f : Launch → Launch) : (s.modLaunch n f).stepBase = s.stepBase := rfl
@[simp] theorem State.modLaunch_sweep (s : State) (n : Nat) (f : Launch → Launch) : (s.modLaunch n f).sweep = s.sweep := rfl
@[simp] theorem State.modLaunch_lap (s : State) (n : Nat) (f : Launch → Launch) : (s.modLaunch n f).lap = s.lap := rfl
@[simp] theorem State.modLaunch_faults (s : State) (n : Nat) (f : Launch → Launch) : (s.modLaunch n f).faults = s.faults := rfl
@[simp] theorem State.modLaunch_snapctl (s : State) (n : Nat) (f : Launch → Launch) : (s.modLaunch n f).snapctl = s.snapctl := rfl
@[simp] theorem State.modLaunch_snapstep (s : State) (n : Nat) (f : Launch → Launch) : (s.modLaunch n f).snapstep = s.snapstep := rfl
@[simp] theorem State.modLaunch_snapDue (s : State) (n : Nat) (f : Launch → Launch) : (s.modLaunch n f).snapDue = s.snapDue := rfl
@[simp] theorem State.modLaunch_snap (s : State) (n : Nat) (f : Launch → Launch) : (s.modLaunch n f).snap = s.snap := rfl
@[simp] theorem State.modLaunch_cur (s : State) (n : Nat) (f : Launch → Launch) : (s.modLaunch n f).cur = s.cur := rfl
@[simp] theorem State.modLaunch_agenda (s : State) (n : Nat) (f : Launch → Launch) : (s.modLaunch n f).agenda = s.agenda := rfl
@[simp] theorem State.modLaunch_freeCtr (s : State) (n : Nat) (f : Launch → Launch) : (s.modLaunch n f).freeCtr = s.freeCtr := rfl

/-! ### modLink -/

@[simp] theorem State.modLink_mem (s : State) (n : Nat) (f : Link → Link) : (s.modLink n f).mem = s.mem := rfl
@[simp] theorem State.modLink_overlay (s : State) (n : Nat) (f : Link → Link) : (s.modLink n f).overlay = s.overlay := rfl
@[simp] theorem State.modLink_poison (s : State) (n : Nat) (f : Link → Link) : (s.modLink n f).poison = s.poison := rfl
@[simp] theorem State.modLink_armed (s : State) (n : Nat) (f : Link → Link) : (s.modLink n f).armed = s.armed := rfl
@[simp] theorem State.modLink_foreign (s : State) (n : Nat) (f : Link → Link) : (s.modLink n f).foreign = s.foreign := rfl
@[simp] theorem State.modLink_shootReqs (s : State) (n : Nat) (f : Link → Link) : (s.modLink n f).shootReqs = s.shootReqs := rfl
@[simp] theorem State.modLink_cores (s : State) (n : Nat) (f : Link → Link) : (s.modLink n f).cores = s.cores := rfl
@[simp] theorem State.modLink_dies (s : State) (n : Nat) (f : Link → Link) : (s.modLink n f).dies = s.dies := rfl
@[simp] theorem State.modLink_clusters (s : State) (n : Nat) (f : Link → Link) : (s.modLink n f).clusters = s.clusters := rfl
@[simp] theorem State.modLink_queues (s : State) (n : Nat) (f : Link → Link) : (s.modLink n f).queues = s.queues := rfl
@[simp] theorem State.modLink_launches (s : State) (n : Nat) (f : Link → Link) : (s.modLink n f).launches = s.launches := rfl
@[simp] theorem State.modLink_nextLaunch (s : State) (n : Nat) (f : Link → Link) : (s.modLink n f).nextLaunch = s.nextLaunch := rfl
@[simp] theorem State.modLink_nextOrder (s : State) (n : Nat) (f : Link → Link) : (s.modLink n f).nextOrder = s.nextOrder := rfl
@[simp] theorem State.modLink_nextUid (s : State) (n : Nat) (f : Link → Link) : (s.modLink n f).nextUid = s.nextUid := rfl
@[simp] theorem State.modLink_saved (s : State) (n : Nat) (f : Link → Link) : (s.modLink n f).saved = s.saved := rfl
@[simp] theorem State.modLink_outbox (s : State) (n : Nat) (f : Link → Link) : (s.modLink n f).outbox = s.outbox := rfl
@[simp] theorem State.modLink_hostReqs (s : State) (n : Nat) (f : Link → Link) : (s.modLink n f).hostReqs = s.hostReqs := rfl
@[simp] theorem State.modLink_hostTag (s : State) (n : Nat) (f : Link → Link) : (s.modLink n f).hostTag = s.hostTag := rfl
@[simp] theorem State.modLink_fcores (s : State) (n : Nat) (f : Link → Link) : (s.modLink n f).fcores = s.fcores := rfl
@[simp] theorem State.modLink_fcur (s : State) (n : Nat) (f : Link → Link) : (s.modLink n f).fcur = s.fcur := rfl
@[simp] theorem State.modLink_fwoken (s : State) (n : Nat) (f : Link → Link) : (s.modLink n f).fwoken = s.fwoken := rfl
@[simp] theorem State.modLink_mcores (s : State) (n : Nat) (f : Link → Link) : (s.modLink n f).mcores = s.mcores := rfl
@[simp] theorem State.modLink_mbox (s : State) (n : Nat) (f : Link → Link) : (s.modLink n f).mbox = s.mbox := rfl
@[simp] theorem State.modLink_cmdWait (s : State) (n : Nat) (f : Link → Link) : (s.modLink n f).cmdWait = s.cmdWait := rfl
@[simp] theorem State.modLink_infos (s : State) (n : Nat) (f : Link → Link) : (s.modLink n f).infos = s.infos := rfl
@[simp] theorem State.modLink_routes (s : State) (n : Nat) (f : Link → Link) : (s.modLink n f).routes = s.routes := rfl
@[simp] theorem State.modLink_hostDev (s : State) (n : Nat) (f : Link → Link) : (s.modLink n f).hostDev = s.hostDev := rfl
@[simp] theorem State.modLink_cfgblocks (s : State) (n : Nat) (f : Link → Link) : (s.modLink n f).cfgblocks = s.cfgblocks := rfl
@[simp] theorem State.modLink_pendingMap (s : State) (n : Nat) (f : Link → Link) : (s.modLink n f).pendingMap = s.pendingMap := rfl
@[simp] theorem State.modLink_devid (s : State) (n : Nat) (f : Link → Link) : (s.modLink n f).devid = s.devid := rfl
@[simp] theorem State.modLink_identity (s : State) (n : Nat) (f : Link → Link) : (s.modLink n f).identity = s.identity := rfl
@[simp] theorem State.modLink_bridge (s : State) (n : Nat) (f : Link → Link) : (s.modLink n f).bridge = s.bridge := rfl
@[simp] theorem State.modLink_members (s : State) (n : Nat) (f : Link → Link) : (s.modLink n f).members = s.members := rfl
@[simp] theorem State.modLink_refusedIds (s : State) (n : Nat) (f : Link → Link) : (s.modLink n f).refusedIds = s.refusedIds := rfl
@[simp] theorem State.modLink_queueMade (s : State) (n : Nat) (f : Link → Link) : (s.modLink n f).queueMade = s.queueMade := rfl
@[simp] theorem State.modLink_system (s : State) (n : Nat) (f : Link → Link) : (s.modLink n f).system = s.system := rfl
@[simp] theorem State.modLink_service (s : State) (n : Nat) (f : Link → Link) : (s.modLink n f).service = s.service := rfl
@[simp] theorem State.modLink_imageA (s : State) (n : Nat) (f : Link → Link) : (s.modLink n f).imageA = s.imageA := rfl
@[simp] theorem State.modLink_imageB (s : State) (n : Nat) (f : Link → Link) : (s.modLink n f).imageB = s.imageB := rfl
@[simp] theorem State.modLink_running (s : State) (n : Nat) (f : Link → Link) : (s.modLink n f).running = s.running := rfl
@[simp] theorem State.modLink_activeSlot (s : State) (n : Nat) (f : Link → Link) : (s.modLink n f).activeSlot = s.activeSlot := rfl
@[simp] theorem State.modLink_farcap (s : State) (n : Nat) (f : Link → Link) : (s.modLink n f).farcap = s.farcap := rfl
@[simp] theorem State.modLink_flashWays (s : State) (n : Nat) (f : Link → Link) : (s.modLink n f).flashWays = s.flashWays := rfl
@[simp] theorem State.modLink_flashLines (s : State) (n : Nat) (f : Link → Link) : (s.modLink n f).flashLines = s.flashLines := rfl
@[simp] theorem State.modLink_flashClusters (s : State) (n : Nat) (f : Link → Link) : (s.modLink n f).flashClusters = s.flashClusters := rfl
@[simp] theorem State.modLink_measurements (s : State) (n : Nat) (f : Link → Link) : (s.modLink n f).measurements = s.measurements := rfl
@[simp] theorem State.modLink_attest (s : State) (n : Nat) (f : Link → Link) : (s.modLink n f).attest = s.attest := rfl
@[simp] theorem State.modLink_update (s : State) (n : Nat) (f : Link → Link) : (s.modLink n f).update = s.update := rfl
@[simp] theorem State.modLink_hbeat (s : State) (n : Nat) (f : Link → Link) : (s.modLink n f).hbeat = s.hbeat := rfl
@[simp] theorem State.modLink_pcap (s : State) (n : Nat) (f : Link → Link) : (s.modLink n f).pcap = s.pcap := rfl
@[simp] theorem State.modLink_watts (s : State) (n : Nat) (f : Link → Link) : (s.modLink n f).watts = s.watts := rfl
@[simp] theorem State.modLink_shootWait (s : State) (n : Nat) (f : Link → Link) : (s.modLink n f).shootWait = s.shootWait := rfl
@[simp] theorem State.modLink_ftper (s : State) (n : Nat) (f : Link → Link) : (s.modLink n f).ftper = s.ftper := rfl
@[simp] theorem State.modLink_steplen (s : State) (n : Nat) (f : Link → Link) : (s.modLink n f).steplen = s.steplen := rfl
@[simp] theorem State.modLink_gstep (s : State) (n : Nat) (f : Link → Link) : (s.modLink n f).gstep = s.gstep := rfl
@[simp] theorem State.modLink_aligned (s : State) (n : Nat) (f : Link → Link) : (s.modLink n f).aligned = s.aligned := rfl
@[simp] theorem State.modLink_refclk (s : State) (n : Nat) (f : Link → Link) : (s.modLink n f).refclk = s.refclk := rfl
@[simp] theorem State.modLink_stepBase (s : State) (n : Nat) (f : Link → Link) : (s.modLink n f).stepBase = s.stepBase := rfl
@[simp] theorem State.modLink_sweep (s : State) (n : Nat) (f : Link → Link) : (s.modLink n f).sweep = s.sweep := rfl
@[simp] theorem State.modLink_lap (s : State) (n : Nat) (f : Link → Link) : (s.modLink n f).lap = s.lap := rfl
@[simp] theorem State.modLink_faults (s : State) (n : Nat) (f : Link → Link) : (s.modLink n f).faults = s.faults := rfl
@[simp] theorem State.modLink_snapctl (s : State) (n : Nat) (f : Link → Link) : (s.modLink n f).snapctl = s.snapctl := rfl
@[simp] theorem State.modLink_snapstep (s : State) (n : Nat) (f : Link → Link) : (s.modLink n f).snapstep = s.snapstep := rfl
@[simp] theorem State.modLink_snapDue (s : State) (n : Nat) (f : Link → Link) : (s.modLink n f).snapDue = s.snapDue := rfl
@[simp] theorem State.modLink_snap (s : State) (n : Nat) (f : Link → Link) : (s.modLink n f).snap = s.snap := rfl
@[simp] theorem State.modLink_cur (s : State) (n : Nat) (f : Link → Link) : (s.modLink n f).cur = s.cur := rfl
@[simp] theorem State.modLink_agenda (s : State) (n : Nat) (f : Link → Link) : (s.modLink n f).agenda = s.agenda := rfl
@[simp] theorem State.modLink_freeCtr (s : State) (n : Nat) (f : Link → Link) : (s.modLink n f).freeCtr = s.freeCtr := rfl

/-! ### modFcore -/

@[simp] theorem State.modFcore_mem (s : State) (n : Nat) (f : FCore → FCore) : (s.modFcore n f).mem = s.mem := rfl
@[simp] theorem State.modFcore_overlay (s : State) (n : Nat) (f : FCore → FCore) : (s.modFcore n f).overlay = s.overlay := rfl
@[simp] theorem State.modFcore_poison (s : State) (n : Nat) (f : FCore → FCore) : (s.modFcore n f).poison = s.poison := rfl
@[simp] theorem State.modFcore_armed (s : State) (n : Nat) (f : FCore → FCore) : (s.modFcore n f).armed = s.armed := rfl
@[simp] theorem State.modFcore_foreign (s : State) (n : Nat) (f : FCore → FCore) : (s.modFcore n f).foreign = s.foreign := rfl
@[simp] theorem State.modFcore_shootReqs (s : State) (n : Nat) (f : FCore → FCore) : (s.modFcore n f).shootReqs = s.shootReqs := rfl
@[simp] theorem State.modFcore_cores (s : State) (n : Nat) (f : FCore → FCore) : (s.modFcore n f).cores = s.cores := rfl
@[simp] theorem State.modFcore_dies (s : State) (n : Nat) (f : FCore → FCore) : (s.modFcore n f).dies = s.dies := rfl
@[simp] theorem State.modFcore_clusters (s : State) (n : Nat) (f : FCore → FCore) : (s.modFcore n f).clusters = s.clusters := rfl
@[simp] theorem State.modFcore_queues (s : State) (n : Nat) (f : FCore → FCore) : (s.modFcore n f).queues = s.queues := rfl
@[simp] theorem State.modFcore_launches (s : State) (n : Nat) (f : FCore → FCore) : (s.modFcore n f).launches = s.launches := rfl
@[simp] theorem State.modFcore_nextLaunch (s : State) (n : Nat) (f : FCore → FCore) : (s.modFcore n f).nextLaunch = s.nextLaunch := rfl
@[simp] theorem State.modFcore_nextOrder (s : State) (n : Nat) (f : FCore → FCore) : (s.modFcore n f).nextOrder = s.nextOrder := rfl
@[simp] theorem State.modFcore_nextUid (s : State) (n : Nat) (f : FCore → FCore) : (s.modFcore n f).nextUid = s.nextUid := rfl
@[simp] theorem State.modFcore_saved (s : State) (n : Nat) (f : FCore → FCore) : (s.modFcore n f).saved = s.saved := rfl
@[simp] theorem State.modFcore_links (s : State) (n : Nat) (f : FCore → FCore) : (s.modFcore n f).links = s.links := rfl
@[simp] theorem State.modFcore_outbox (s : State) (n : Nat) (f : FCore → FCore) : (s.modFcore n f).outbox = s.outbox := rfl
@[simp] theorem State.modFcore_hostReqs (s : State) (n : Nat) (f : FCore → FCore) : (s.modFcore n f).hostReqs = s.hostReqs := rfl
@[simp] theorem State.modFcore_hostTag (s : State) (n : Nat) (f : FCore → FCore) : (s.modFcore n f).hostTag = s.hostTag := rfl
@[simp] theorem State.modFcore_fcur (s : State) (n : Nat) (f : FCore → FCore) : (s.modFcore n f).fcur = s.fcur := rfl
@[simp] theorem State.modFcore_fwoken (s : State) (n : Nat) (f : FCore → FCore) : (s.modFcore n f).fwoken = s.fwoken := rfl
@[simp] theorem State.modFcore_mcores (s : State) (n : Nat) (f : FCore → FCore) : (s.modFcore n f).mcores = s.mcores := rfl
@[simp] theorem State.modFcore_mbox (s : State) (n : Nat) (f : FCore → FCore) : (s.modFcore n f).mbox = s.mbox := rfl
@[simp] theorem State.modFcore_cmdWait (s : State) (n : Nat) (f : FCore → FCore) : (s.modFcore n f).cmdWait = s.cmdWait := rfl
@[simp] theorem State.modFcore_infos (s : State) (n : Nat) (f : FCore → FCore) : (s.modFcore n f).infos = s.infos := rfl
@[simp] theorem State.modFcore_routes (s : State) (n : Nat) (f : FCore → FCore) : (s.modFcore n f).routes = s.routes := rfl
@[simp] theorem State.modFcore_hostDev (s : State) (n : Nat) (f : FCore → FCore) : (s.modFcore n f).hostDev = s.hostDev := rfl
@[simp] theorem State.modFcore_cfgblocks (s : State) (n : Nat) (f : FCore → FCore) : (s.modFcore n f).cfgblocks = s.cfgblocks := rfl
@[simp] theorem State.modFcore_pendingMap (s : State) (n : Nat) (f : FCore → FCore) : (s.modFcore n f).pendingMap = s.pendingMap := rfl
@[simp] theorem State.modFcore_devid (s : State) (n : Nat) (f : FCore → FCore) : (s.modFcore n f).devid = s.devid := rfl
@[simp] theorem State.modFcore_identity (s : State) (n : Nat) (f : FCore → FCore) : (s.modFcore n f).identity = s.identity := rfl
@[simp] theorem State.modFcore_bridge (s : State) (n : Nat) (f : FCore → FCore) : (s.modFcore n f).bridge = s.bridge := rfl
@[simp] theorem State.modFcore_members (s : State) (n : Nat) (f : FCore → FCore) : (s.modFcore n f).members = s.members := rfl
@[simp] theorem State.modFcore_refusedIds (s : State) (n : Nat) (f : FCore → FCore) : (s.modFcore n f).refusedIds = s.refusedIds := rfl
@[simp] theorem State.modFcore_queueMade (s : State) (n : Nat) (f : FCore → FCore) : (s.modFcore n f).queueMade = s.queueMade := rfl
@[simp] theorem State.modFcore_system (s : State) (n : Nat) (f : FCore → FCore) : (s.modFcore n f).system = s.system := rfl
@[simp] theorem State.modFcore_service (s : State) (n : Nat) (f : FCore → FCore) : (s.modFcore n f).service = s.service := rfl
@[simp] theorem State.modFcore_imageA (s : State) (n : Nat) (f : FCore → FCore) : (s.modFcore n f).imageA = s.imageA := rfl
@[simp] theorem State.modFcore_imageB (s : State) (n : Nat) (f : FCore → FCore) : (s.modFcore n f).imageB = s.imageB := rfl
@[simp] theorem State.modFcore_running (s : State) (n : Nat) (f : FCore → FCore) : (s.modFcore n f).running = s.running := rfl
@[simp] theorem State.modFcore_activeSlot (s : State) (n : Nat) (f : FCore → FCore) : (s.modFcore n f).activeSlot = s.activeSlot := rfl
@[simp] theorem State.modFcore_farcap (s : State) (n : Nat) (f : FCore → FCore) : (s.modFcore n f).farcap = s.farcap := rfl
@[simp] theorem State.modFcore_flashWays (s : State) (n : Nat) (f : FCore → FCore) : (s.modFcore n f).flashWays = s.flashWays := rfl
@[simp] theorem State.modFcore_flashLines (s : State) (n : Nat) (f : FCore → FCore) : (s.modFcore n f).flashLines = s.flashLines := rfl
@[simp] theorem State.modFcore_flashClusters (s : State) (n : Nat) (f : FCore → FCore) : (s.modFcore n f).flashClusters = s.flashClusters := rfl
@[simp] theorem State.modFcore_measurements (s : State) (n : Nat) (f : FCore → FCore) : (s.modFcore n f).measurements = s.measurements := rfl
@[simp] theorem State.modFcore_attest (s : State) (n : Nat) (f : FCore → FCore) : (s.modFcore n f).attest = s.attest := rfl
@[simp] theorem State.modFcore_update (s : State) (n : Nat) (f : FCore → FCore) : (s.modFcore n f).update = s.update := rfl
@[simp] theorem State.modFcore_hbeat (s : State) (n : Nat) (f : FCore → FCore) : (s.modFcore n f).hbeat = s.hbeat := rfl
@[simp] theorem State.modFcore_pcap (s : State) (n : Nat) (f : FCore → FCore) : (s.modFcore n f).pcap = s.pcap := rfl
@[simp] theorem State.modFcore_watts (s : State) (n : Nat) (f : FCore → FCore) : (s.modFcore n f).watts = s.watts := rfl
@[simp] theorem State.modFcore_shootWait (s : State) (n : Nat) (f : FCore → FCore) : (s.modFcore n f).shootWait = s.shootWait := rfl
@[simp] theorem State.modFcore_ftper (s : State) (n : Nat) (f : FCore → FCore) : (s.modFcore n f).ftper = s.ftper := rfl
@[simp] theorem State.modFcore_steplen (s : State) (n : Nat) (f : FCore → FCore) : (s.modFcore n f).steplen = s.steplen := rfl
@[simp] theorem State.modFcore_gstep (s : State) (n : Nat) (f : FCore → FCore) : (s.modFcore n f).gstep = s.gstep := rfl
@[simp] theorem State.modFcore_aligned (s : State) (n : Nat) (f : FCore → FCore) : (s.modFcore n f).aligned = s.aligned := rfl
@[simp] theorem State.modFcore_refclk (s : State) (n : Nat) (f : FCore → FCore) : (s.modFcore n f).refclk = s.refclk := rfl
@[simp] theorem State.modFcore_stepBase (s : State) (n : Nat) (f : FCore → FCore) : (s.modFcore n f).stepBase = s.stepBase := rfl
@[simp] theorem State.modFcore_sweep (s : State) (n : Nat) (f : FCore → FCore) : (s.modFcore n f).sweep = s.sweep := rfl
@[simp] theorem State.modFcore_lap (s : State) (n : Nat) (f : FCore → FCore) : (s.modFcore n f).lap = s.lap := rfl
@[simp] theorem State.modFcore_faults (s : State) (n : Nat) (f : FCore → FCore) : (s.modFcore n f).faults = s.faults := rfl
@[simp] theorem State.modFcore_snapctl (s : State) (n : Nat) (f : FCore → FCore) : (s.modFcore n f).snapctl = s.snapctl := rfl
@[simp] theorem State.modFcore_snapstep (s : State) (n : Nat) (f : FCore → FCore) : (s.modFcore n f).snapstep = s.snapstep := rfl
@[simp] theorem State.modFcore_snapDue (s : State) (n : Nat) (f : FCore → FCore) : (s.modFcore n f).snapDue = s.snapDue := rfl
@[simp] theorem State.modFcore_snap (s : State) (n : Nat) (f : FCore → FCore) : (s.modFcore n f).snap = s.snap := rfl
@[simp] theorem State.modFcore_cur (s : State) (n : Nat) (f : FCore → FCore) : (s.modFcore n f).cur = s.cur := rfl
@[simp] theorem State.modFcore_agenda (s : State) (n : Nat) (f : FCore → FCore) : (s.modFcore n f).agenda = s.agenda := rfl
@[simp] theorem State.modFcore_freeCtr (s : State) (n : Nat) (f : FCore → FCore) : (s.modFcore n f).freeCtr = s.freeCtr := rfl

/-! ### homeWrite -/

@[simp] theorem State.homeWrite_foreign (s : State) (cs : List (Nat × Byte)) : (s.homeWrite cs).foreign = s.foreign := rfl
@[simp] theorem State.homeWrite_shootReqs (s : State) (cs : List (Nat × Byte)) : (s.homeWrite cs).shootReqs = s.shootReqs := rfl
@[simp] theorem State.homeWrite_cores (s : State) (cs : List (Nat × Byte)) : (s.homeWrite cs).cores = s.cores := rfl
@[simp] theorem State.homeWrite_dies (s : State) (cs : List (Nat × Byte)) : (s.homeWrite cs).dies = s.dies := rfl
@[simp] theorem State.homeWrite_clusters (s : State) (cs : List (Nat × Byte)) : (s.homeWrite cs).clusters = s.clusters := rfl
@[simp] theorem State.homeWrite_queues (s : State) (cs : List (Nat × Byte)) : (s.homeWrite cs).queues = s.queues := rfl
@[simp] theorem State.homeWrite_launches (s : State) (cs : List (Nat × Byte)) : (s.homeWrite cs).launches = s.launches := rfl
@[simp] theorem State.homeWrite_nextLaunch (s : State) (cs : List (Nat × Byte)) : (s.homeWrite cs).nextLaunch = s.nextLaunch := rfl
@[simp] theorem State.homeWrite_nextOrder (s : State) (cs : List (Nat × Byte)) : (s.homeWrite cs).nextOrder = s.nextOrder := rfl
@[simp] theorem State.homeWrite_nextUid (s : State) (cs : List (Nat × Byte)) : (s.homeWrite cs).nextUid = s.nextUid := rfl
@[simp] theorem State.homeWrite_saved (s : State) (cs : List (Nat × Byte)) : (s.homeWrite cs).saved = s.saved := rfl
@[simp] theorem State.homeWrite_links (s : State) (cs : List (Nat × Byte)) : (s.homeWrite cs).links = s.links := rfl
@[simp] theorem State.homeWrite_outbox (s : State) (cs : List (Nat × Byte)) : (s.homeWrite cs).outbox = s.outbox := rfl
@[simp] theorem State.homeWrite_hostReqs (s : State) (cs : List (Nat × Byte)) : (s.homeWrite cs).hostReqs = s.hostReqs := rfl
@[simp] theorem State.homeWrite_hostTag (s : State) (cs : List (Nat × Byte)) : (s.homeWrite cs).hostTag = s.hostTag := rfl
@[simp] theorem State.homeWrite_fcores (s : State) (cs : List (Nat × Byte)) : (s.homeWrite cs).fcores = s.fcores := rfl
@[simp] theorem State.homeWrite_fcur (s : State) (cs : List (Nat × Byte)) : (s.homeWrite cs).fcur = s.fcur := rfl
@[simp] theorem State.homeWrite_fwoken (s : State) (cs : List (Nat × Byte)) : (s.homeWrite cs).fwoken = s.fwoken := rfl
@[simp] theorem State.homeWrite_mcores (s : State) (cs : List (Nat × Byte)) : (s.homeWrite cs).mcores = s.mcores := rfl
@[simp] theorem State.homeWrite_mbox (s : State) (cs : List (Nat × Byte)) : (s.homeWrite cs).mbox = s.mbox := rfl
@[simp] theorem State.homeWrite_cmdWait (s : State) (cs : List (Nat × Byte)) : (s.homeWrite cs).cmdWait = s.cmdWait := rfl
@[simp] theorem State.homeWrite_infos (s : State) (cs : List (Nat × Byte)) : (s.homeWrite cs).infos = s.infos := rfl
@[simp] theorem State.homeWrite_routes (s : State) (cs : List (Nat × Byte)) : (s.homeWrite cs).routes = s.routes := rfl
@[simp] theorem State.homeWrite_hostDev (s : State) (cs : List (Nat × Byte)) : (s.homeWrite cs).hostDev = s.hostDev := rfl
@[simp] theorem State.homeWrite_cfgblocks (s : State) (cs : List (Nat × Byte)) : (s.homeWrite cs).cfgblocks = s.cfgblocks := rfl
@[simp] theorem State.homeWrite_pendingMap (s : State) (cs : List (Nat × Byte)) : (s.homeWrite cs).pendingMap = s.pendingMap := rfl
@[simp] theorem State.homeWrite_devid (s : State) (cs : List (Nat × Byte)) : (s.homeWrite cs).devid = s.devid := rfl
@[simp] theorem State.homeWrite_identity (s : State) (cs : List (Nat × Byte)) : (s.homeWrite cs).identity = s.identity := rfl
@[simp] theorem State.homeWrite_bridge (s : State) (cs : List (Nat × Byte)) : (s.homeWrite cs).bridge = s.bridge := rfl
@[simp] theorem State.homeWrite_members (s : State) (cs : List (Nat × Byte)) : (s.homeWrite cs).members = s.members := rfl
@[simp] theorem State.homeWrite_refusedIds (s : State) (cs : List (Nat × Byte)) : (s.homeWrite cs).refusedIds = s.refusedIds := rfl
@[simp] theorem State.homeWrite_queueMade (s : State) (cs : List (Nat × Byte)) : (s.homeWrite cs).queueMade = s.queueMade := rfl
@[simp] theorem State.homeWrite_system (s : State) (cs : List (Nat × Byte)) : (s.homeWrite cs).system = s.system := rfl
@[simp] theorem State.homeWrite_service (s : State) (cs : List (Nat × Byte)) : (s.homeWrite cs).service = s.service := rfl
@[simp] theorem State.homeWrite_imageA (s : State) (cs : List (Nat × Byte)) : (s.homeWrite cs).imageA = s.imageA := rfl
@[simp] theorem State.homeWrite_imageB (s : State) (cs : List (Nat × Byte)) : (s.homeWrite cs).imageB = s.imageB := rfl
@[simp] theorem State.homeWrite_running (s : State) (cs : List (Nat × Byte)) : (s.homeWrite cs).running = s.running := rfl
@[simp] theorem State.homeWrite_activeSlot (s : State) (cs : List (Nat × Byte)) : (s.homeWrite cs).activeSlot = s.activeSlot := rfl
@[simp] theorem State.homeWrite_farcap (s : State) (cs : List (Nat × Byte)) : (s.homeWrite cs).farcap = s.farcap := rfl
@[simp] theorem State.homeWrite_flashWays (s : State) (cs : List (Nat × Byte)) : (s.homeWrite cs).flashWays = s.flashWays := rfl
@[simp] theorem State.homeWrite_flashLines (s : State) (cs : List (Nat × Byte)) : (s.homeWrite cs).flashLines = s.flashLines := rfl
@[simp] theorem State.homeWrite_flashClusters (s : State) (cs : List (Nat × Byte)) : (s.homeWrite cs).flashClusters = s.flashClusters := rfl
@[simp] theorem State.homeWrite_measurements (s : State) (cs : List (Nat × Byte)) : (s.homeWrite cs).measurements = s.measurements := rfl
@[simp] theorem State.homeWrite_attest (s : State) (cs : List (Nat × Byte)) : (s.homeWrite cs).attest = s.attest := rfl
@[simp] theorem State.homeWrite_update (s : State) (cs : List (Nat × Byte)) : (s.homeWrite cs).update = s.update := rfl
@[simp] theorem State.homeWrite_hbeat (s : State) (cs : List (Nat × Byte)) : (s.homeWrite cs).hbeat = s.hbeat := rfl
@[simp] theorem State.homeWrite_pcap (s : State) (cs : List (Nat × Byte)) : (s.homeWrite cs).pcap = s.pcap := rfl
@[simp] theorem State.homeWrite_watts (s : State) (cs : List (Nat × Byte)) : (s.homeWrite cs).watts = s.watts := rfl
@[simp] theorem State.homeWrite_shootWait (s : State) (cs : List (Nat × Byte)) : (s.homeWrite cs).shootWait = s.shootWait := rfl
@[simp] theorem State.homeWrite_ftper (s : State) (cs : List (Nat × Byte)) : (s.homeWrite cs).ftper = s.ftper := rfl
@[simp] theorem State.homeWrite_steplen (s : State) (cs : List (Nat × Byte)) : (s.homeWrite cs).steplen = s.steplen := rfl
@[simp] theorem State.homeWrite_gstep (s : State) (cs : List (Nat × Byte)) : (s.homeWrite cs).gstep = s.gstep := rfl
@[simp] theorem State.homeWrite_aligned (s : State) (cs : List (Nat × Byte)) : (s.homeWrite cs).aligned = s.aligned := rfl
@[simp] theorem State.homeWrite_refclk (s : State) (cs : List (Nat × Byte)) : (s.homeWrite cs).refclk = s.refclk := rfl
@[simp] theorem State.homeWrite_stepBase (s : State) (cs : List (Nat × Byte)) : (s.homeWrite cs).stepBase = s.stepBase := rfl
@[simp] theorem State.homeWrite_sweep (s : State) (cs : List (Nat × Byte)) : (s.homeWrite cs).sweep = s.sweep := rfl
@[simp] theorem State.homeWrite_lap (s : State) (cs : List (Nat × Byte)) : (s.homeWrite cs).lap = s.lap := rfl
@[simp] theorem State.homeWrite_faults (s : State) (cs : List (Nat × Byte)) : (s.homeWrite cs).faults = s.faults := rfl
@[simp] theorem State.homeWrite_snapctl (s : State) (cs : List (Nat × Byte)) : (s.homeWrite cs).snapctl = s.snapctl := rfl
@[simp] theorem State.homeWrite_snapstep (s : State) (cs : List (Nat × Byte)) : (s.homeWrite cs).snapstep = s.snapstep := rfl
@[simp] theorem State.homeWrite_snapDue (s : State) (cs : List (Nat × Byte)) : (s.homeWrite cs).snapDue = s.snapDue := rfl
@[simp] theorem State.homeWrite_snap (s : State) (cs : List (Nat × Byte)) : (s.homeWrite cs).snap = s.snap := rfl
@[simp] theorem State.homeWrite_cur (s : State) (cs : List (Nat × Byte)) : (s.homeWrite cs).cur = s.cur := rfl
@[simp] theorem State.homeWrite_agenda (s : State) (cs : List (Nat × Byte)) : (s.homeWrite cs).agenda = s.agenda := rfl
@[simp] theorem State.homeWrite_freeCtr (s : State) (cs : List (Nat × Byte)) : (s.homeWrite cs).freeCtr = s.freeCtr := rfl

/-! ### Updates of a slot -/

@[simp] theorem Slot.goto_occ (l : Slot) (a : W64) : (l.goto a).occ = l.occ := rfl
@[simp] theorem Slot.goto_uid (l : Slot) (a : W64) : (l.goto a).uid = l.uid := rfl
@[simp] theorem Slot.goto_launch (l : Slot) (a : W64) : (l.goto a).launch = l.launch := rfl
@[simp] theorem Slot.goto_task (l : Slot) (a : W64) : (l.goto a).task = l.task := rfl
@[simp] theorem Slot.goto_origin (l : Slot) (a : W64) : (l.goto a).origin = l.origin := rfl
@[simp] theorem Slot.goto_startPc (l : Slot) (a : W64) : (l.goto a).startPc = l.startPc := rfl
@[simp] theorem Slot.goto_startArg (l : Slot) (a : W64) : (l.goto a).startArg = l.startArg := rfl
@[simp] theorem Slot.goto_startRole (l : Slot) (a : W64) : (l.goto a).startRole = l.startRole := rfl
@[simp] theorem Slot.goto_prio (l : Slot) (a : W64) : (l.goto a).prio = l.prio := rfl
@[simp] theorem Slot.goto_role (l : Slot) (a : W64) : (l.goto a).role = l.role := rfl
@[simp] theorem Slot.goto_entry (l : Slot) (a : W64) : (l.goto a).entry = l.entry := rfl
@[simp] theorem Slot.goto_x (l : Slot) (a : W64) : (l.goto a).x = l.x := rfl
@[simp] theorem Slot.goto_p (l : Slot) (a : W64) : (l.goto a).p = l.p := rfl
@[simp] theorem Slot.goto_v (l : Slot) (a : W64) : (l.goto a).v = l.v := rfl
@[simp] theorem Slot.goto_m (l : Slot) (a : W64) : (l.goto a).m = l.m := rfl
@[simp] theorem Slot.goto_b (l : Slot) (a : W64) : (l.goto a).b = l.b := rfl
@[simp] theorem Slot.goto_pushes (l : Slot) (a : W64) : (l.goto a).pushes = l.pushes := rfl
@[simp] theorem Slot.goto_tok (l : Slot) (a : W64) : (l.goto a).tok = l.tok := rfl
@[simp] theorem Slot.goto_ageLimit (l : Slot) (a : W64) : (l.goto a).ageLimit = l.ageLimit := rfl
@[simp] theorem Slot.goto_gangctl (l : Slot) (a : W64) : (l.goto a).gangctl = l.gangctl := rfl
@[simp] theorem Slot.goto_parklim (l : Slot) (a : W64) : (l.goto a).parklim = l.parklim := rfl
@[simp] theorem Slot.goto_fpctl (l : Slot) (a : W64) : (l.goto a).fpctl = l.fpctl := rfl
@[simp] theorem Slot.goto_accanch (l : Slot) (a : W64) : (l.goto a).accanch = l.accanch := rfl
@[simp] theorem Slot.goto_vcfg (l : Slot) (a : W64) : (l.goto a).vcfg = l.vcfg := rfl
@[simp] theorem Slot.goto_tvec (l : Slot) (a : W64) : (l.goto a).tvec = l.tvec := rfl
@[simp] theorem Slot.goto_tcause (l : Slot) (a : W64) : (l.goto a).tcause = l.tcause := rfl
@[simp] theorem Slot.goto_tpc (l : Slot) (a : W64) : (l.goto a).tpc = l.tpc := rfl
@[simp] theorem Slot.goto_tval (l : Slot) (a : W64) : (l.goto a).tval = l.tval := rfl
@[simp] theorem Slot.goto_tword (l : Slot) (a : W64) : (l.goto a).tword = l.tword := rfl
@[simp] theorem Slot.goto_tstat (l : Slot) (a : W64) : (l.goto a).tstat = l.tstat := rfl
@[simp] theorem Slot.goto_mxtab (l : Slot) (a : W64) : (l.goto a).mxtab = l.mxtab := rfl
@[simp] theorem Slot.goto_engTraps (l : Slot) (a : W64) : (l.goto a).engTraps = l.engTraps := rfl
@[simp] theorem Slot.goto_evTraps (l : Slot) (a : W64) : (l.goto a).evTraps = l.evTraps := rfl
@[simp] theorem Slot.goto_pfxPc (l : Slot) (a : W64) : (l.goto a).pfxPc = l.pfxPc := rfl
@[simp] theorem Slot.goto_wait (l : Slot) (a : W64) : (l.goto a).wait = l.wait := rfl
@[simp] theorem Slot.goto_park (l : Slot) (a : W64) : (l.goto a).park = l.park := rfl
@[simp] theorem Slot.goto_stall (l : Slot) (a : W64) : (l.goto a).stall = l.stall := rfl
@[simp] theorem Slot.goto_busyTill (l : Slot) (a : W64) : (l.goto a).busyTill = l.busyTill := rfl
@[simp] theorem Slot.goto_lag (l : Slot) (a : W64) : (l.goto a).lag = l.lag := rfl
@[simp] theorem Slot.goto_opens (l : Slot) (a : W64) : (l.goto a).opens = l.opens := rfl
@[simp] theorem Slot.goto_evOpens (l : Slot) (a : W64) : (l.goto a).evOpens = l.evOpens := rfl
@[simp] theorem Slot.goto_ckIssued (l : Slot) (a : W64) : (l.goto a).ckIssued = l.ckIssued := rfl
@[simp] theorem Slot.goto_age (l : Slot) (a : W64) : (l.goto a).age = l.age := rfl
@[simp] theorem Slot.goto_yield (l : Slot) (a : W64) : (l.goto a).yield = l.yield := rfl
@[simp] theorem Slot.goto_exiting (l : Slot) (a : W64) : (l.goto a).exiting = l.exiting := rfl
@[simp] theorem Slot.goto_held (l : Slot) (a : W64) : (l.goto a).held = l.held := rfl
@[simp] theorem Slot.goto_group (l : Slot) (a : W64) : (l.goto a).group = l.group := rfl
@[simp] theorem Slot.goto_dying (l : Slot) (a : W64) : (l.goto a).dying = l.dying := rfl
@[simp] theorem Slot.goto_away (l : Slot) (a : W64) : (l.goto a).away = l.away := rfl
@[simp] theorem Slot.goto_cancelled (l : Slot) (a : W64) : (l.goto a).cancelled = l.cancelled := rfl
@[simp] theorem Slot.goto_pend (l : Slot) (a : W64) : (l.goto a).pend = l.pend := rfl
@[simp] theorem Slot.goto_snap (l : Slot) (a : W64) : (l.goto a).snap = l.snap := rfl
@[simp] theorem Slot.goto_hidden (l : Slot) (a : W64) : (l.goto a).hidden = l.hidden := rfl
@[simp] theorem Slot.goto_ckpt (l : Slot) (a : W64) : (l.goto a).ckpt = l.ckpt := rfl
@[simp] theorem Slot.goto_frozen (l : Slot) (a : W64) : (l.goto a).frozen = l.frozen := rfl
@[simp] theorem Slot.goto_issuedCopies (l : Slot) (a : W64) : (l.goto a).issuedCopies = l.issuedCopies := rfl
@[simp] theorem Slot.goto_issuedVecs (l : Slot) (a : W64) : (l.goto a).issuedVecs = l.issuedVecs := rfl
@[simp] theorem Slot.goto_issuedMxs (l : Slot) (a : W64) : (l.goto a).issuedMxs = l.issuedMxs := rfl
@[simp] theorem Slot.goto_late (l : Slot) (a : W64) : (l.goto a).late = l.late := rfl
@[simp] theorem Slot.goto_quiesced (l : Slot) (a : W64) : (l.goto a).quiesced = l.quiesced := rfl

@[simp] theorem Slot.next_occ (l : Slot) : (l.next).occ = l.occ := rfl
@[simp] theorem Slot.next_uid (l : Slot) : (l.next).uid = l.uid := rfl
@[simp] theorem Slot.next_launch (l : Slot) : (l.next).launch = l.launch := rfl
@[simp] theorem Slot.next_task (l : Slot) : (l.next).task = l.task := rfl
@[simp] theorem Slot.next_origin (l : Slot) : (l.next).origin = l.origin := rfl
@[simp] theorem Slot.next_startPc (l : Slot) : (l.next).startPc = l.startPc := rfl
@[simp] theorem Slot.next_startArg (l : Slot) : (l.next).startArg = l.startArg := rfl
@[simp] theorem Slot.next_startRole (l : Slot) : (l.next).startRole = l.startRole := rfl
@[simp] theorem Slot.next_prio (l : Slot) : (l.next).prio = l.prio := rfl
@[simp] theorem Slot.next_role (l : Slot) : (l.next).role = l.role := rfl
@[simp] theorem Slot.next_entry (l : Slot) : (l.next).entry = l.entry := rfl
@[simp] theorem Slot.next_x (l : Slot) : (l.next).x = l.x := rfl
@[simp] theorem Slot.next_p (l : Slot) : (l.next).p = l.p := rfl
@[simp] theorem Slot.next_v (l : Slot) : (l.next).v = l.v := rfl
@[simp] theorem Slot.next_m (l : Slot) : (l.next).m = l.m := rfl
@[simp] theorem Slot.next_b (l : Slot) : (l.next).b = l.b := rfl
@[simp] theorem Slot.next_pushes (l : Slot) : (l.next).pushes = l.pushes := rfl
@[simp] theorem Slot.next_tok (l : Slot) : (l.next).tok = l.tok := rfl
@[simp] theorem Slot.next_ageLimit (l : Slot) : (l.next).ageLimit = l.ageLimit := rfl
@[simp] theorem Slot.next_gangctl (l : Slot) : (l.next).gangctl = l.gangctl := rfl
@[simp] theorem Slot.next_parklim (l : Slot) : (l.next).parklim = l.parklim := rfl
@[simp] theorem Slot.next_fpctl (l : Slot) : (l.next).fpctl = l.fpctl := rfl
@[simp] theorem Slot.next_accanch (l : Slot) : (l.next).accanch = l.accanch := rfl
@[simp] theorem Slot.next_vcfg (l : Slot) : (l.next).vcfg = l.vcfg := rfl
@[simp] theorem Slot.next_tvec (l : Slot) : (l.next).tvec = l.tvec := rfl
@[simp] theorem Slot.next_tcause (l : Slot) : (l.next).tcause = l.tcause := rfl
@[simp] theorem Slot.next_tpc (l : Slot) : (l.next).tpc = l.tpc := rfl
@[simp] theorem Slot.next_tval (l : Slot) : (l.next).tval = l.tval := rfl
@[simp] theorem Slot.next_tword (l : Slot) : (l.next).tword = l.tword := rfl
@[simp] theorem Slot.next_tstat (l : Slot) : (l.next).tstat = l.tstat := rfl
@[simp] theorem Slot.next_mxtab (l : Slot) : (l.next).mxtab = l.mxtab := rfl
@[simp] theorem Slot.next_engTraps (l : Slot) : (l.next).engTraps = l.engTraps := rfl
@[simp] theorem Slot.next_evTraps (l : Slot) : (l.next).evTraps = l.evTraps := rfl
@[simp] theorem Slot.next_pfxPc (l : Slot) : (l.next).pfxPc = l.pfxPc := rfl
@[simp] theorem Slot.next_wait (l : Slot) : (l.next).wait = l.wait := rfl
@[simp] theorem Slot.next_park (l : Slot) : (l.next).park = l.park := rfl
@[simp] theorem Slot.next_stall (l : Slot) : (l.next).stall = l.stall := rfl
@[simp] theorem Slot.next_busyTill (l : Slot) : (l.next).busyTill = l.busyTill := rfl
@[simp] theorem Slot.next_lag (l : Slot) : (l.next).lag = l.lag := rfl
@[simp] theorem Slot.next_opens (l : Slot) : (l.next).opens = l.opens := rfl
@[simp] theorem Slot.next_evOpens (l : Slot) : (l.next).evOpens = l.evOpens := rfl
@[simp] theorem Slot.next_ckIssued (l : Slot) : (l.next).ckIssued = l.ckIssued := rfl
@[simp] theorem Slot.next_age (l : Slot) : (l.next).age = l.age := rfl
@[simp] theorem Slot.next_yield (l : Slot) : (l.next).yield = l.yield := rfl
@[simp] theorem Slot.next_exiting (l : Slot) : (l.next).exiting = l.exiting := rfl
@[simp] theorem Slot.next_held (l : Slot) : (l.next).held = l.held := rfl
@[simp] theorem Slot.next_group (l : Slot) : (l.next).group = l.group := rfl
@[simp] theorem Slot.next_dying (l : Slot) : (l.next).dying = l.dying := rfl
@[simp] theorem Slot.next_away (l : Slot) : (l.next).away = l.away := rfl
@[simp] theorem Slot.next_cancelled (l : Slot) : (l.next).cancelled = l.cancelled := rfl
@[simp] theorem Slot.next_pend (l : Slot) : (l.next).pend = l.pend := rfl
@[simp] theorem Slot.next_snap (l : Slot) : (l.next).snap = l.snap := rfl
@[simp] theorem Slot.next_hidden (l : Slot) : (l.next).hidden = l.hidden := rfl
@[simp] theorem Slot.next_ckpt (l : Slot) : (l.next).ckpt = l.ckpt := rfl
@[simp] theorem Slot.next_frozen (l : Slot) : (l.next).frozen = l.frozen := rfl
@[simp] theorem Slot.next_issuedCopies (l : Slot) : (l.next).issuedCopies = l.issuedCopies := rfl
@[simp] theorem Slot.next_issuedVecs (l : Slot) : (l.next).issuedVecs = l.issuedVecs := rfl
@[simp] theorem Slot.next_issuedMxs (l : Slot) : (l.next).issuedMxs = l.issuedMxs := rfl
@[simp] theorem Slot.next_late (l : Slot) : (l.next).late = l.late := rfl
@[simp] theorem Slot.next_quiesced (l : Slot) : (l.next).quiesced = l.quiesced := rfl

@[simp] theorem Slot.resume_occ (l : Slot) : (l.resume).occ = l.occ := rfl
@[simp] theorem Slot.resume_uid (l : Slot) : (l.resume).uid = l.uid := rfl
@[simp] theorem Slot.resume_launch (l : Slot) : (l.resume).launch = l.launch := rfl
@[simp] theorem Slot.resume_task (l : Slot) : (l.resume).task = l.task := rfl
@[simp] theorem Slot.resume_origin (l : Slot) : (l.resume).origin = l.origin := rfl
@[simp] theorem Slot.resume_startPc (l : Slot) : (l.resume).startPc = l.startPc := rfl
@[simp] theorem Slot.resume_startArg (l : Slot) : (l.resume).startArg = l.startArg := rfl
@[simp] theorem Slot.resume_startRole (l : Slot) : (l.resume).startRole = l.startRole := rfl
@[simp] theorem Slot.resume_prio (l : Slot) : (l.resume).prio = l.prio := rfl
@[simp] theorem Slot.resume_role (l : Slot) : (l.resume).role = l.role := rfl
@[simp] theorem Slot.resume_entry (l : Slot) : (l.resume).entry = l.entry := rfl
@[simp] theorem Slot.resume_x (l : Slot) : (l.resume).x = l.x := rfl
@[simp] theorem Slot.resume_p (l : Slot) : (l.resume).p = l.p := rfl
@[simp] theorem Slot.resume_v (l : Slot) : (l.resume).v = l.v := rfl
@[simp] theorem Slot.resume_m (l : Slot) : (l.resume).m = l.m := rfl
@[simp] theorem Slot.resume_b (l : Slot) : (l.resume).b = l.b := rfl
@[simp] theorem Slot.resume_pushes (l : Slot) : (l.resume).pushes = l.pushes := rfl
@[simp] theorem Slot.resume_tok (l : Slot) : (l.resume).tok = l.tok := rfl
@[simp] theorem Slot.resume_ageLimit (l : Slot) : (l.resume).ageLimit = l.ageLimit := rfl
@[simp] theorem Slot.resume_gangctl (l : Slot) : (l.resume).gangctl = l.gangctl := rfl
@[simp] theorem Slot.resume_parklim (l : Slot) : (l.resume).parklim = l.parklim := rfl
@[simp] theorem Slot.resume_fpctl (l : Slot) : (l.resume).fpctl = l.fpctl := rfl
@[simp] theorem Slot.resume_accanch (l : Slot) : (l.resume).accanch = l.accanch := rfl
@[simp] theorem Slot.resume_vcfg (l : Slot) : (l.resume).vcfg = l.vcfg := rfl
@[simp] theorem Slot.resume_tvec (l : Slot) : (l.resume).tvec = l.tvec := rfl
@[simp] theorem Slot.resume_tcause (l : Slot) : (l.resume).tcause = l.tcause := rfl
@[simp] theorem Slot.resume_tpc (l : Slot) : (l.resume).tpc = l.tpc := rfl
@[simp] theorem Slot.resume_tval (l : Slot) : (l.resume).tval = l.tval := rfl
@[simp] theorem Slot.resume_tword (l : Slot) : (l.resume).tword = l.tword := rfl
@[simp] theorem Slot.resume_tstat (l : Slot) : (l.resume).tstat = l.tstat := rfl
@[simp] theorem Slot.resume_mxtab (l : Slot) : (l.resume).mxtab = l.mxtab := rfl
@[simp] theorem Slot.resume_engTraps (l : Slot) : (l.resume).engTraps = l.engTraps := rfl
@[simp] theorem Slot.resume_evTraps (l : Slot) : (l.resume).evTraps = l.evTraps := rfl
@[simp] theorem Slot.resume_pfxPc (l : Slot) : (l.resume).pfxPc = l.pfxPc := rfl
@[simp] theorem Slot.resume_park (l : Slot) : (l.resume).park = l.park := rfl
@[simp] theorem Slot.resume_stall (l : Slot) : (l.resume).stall = l.stall := rfl
@[simp] theorem Slot.resume_busyTill (l : Slot) : (l.resume).busyTill = l.busyTill := rfl
@[simp] theorem Slot.resume_lag (l : Slot) : (l.resume).lag = l.lag := rfl
@[simp] theorem Slot.resume_opens (l : Slot) : (l.resume).opens = l.opens := rfl
@[simp] theorem Slot.resume_evOpens (l : Slot) : (l.resume).evOpens = l.evOpens := rfl
@[simp] theorem Slot.resume_ckIssued (l : Slot) : (l.resume).ckIssued = l.ckIssued := rfl
@[simp] theorem Slot.resume_age (l : Slot) : (l.resume).age = l.age := rfl
@[simp] theorem Slot.resume_yield (l : Slot) : (l.resume).yield = l.yield := rfl
@[simp] theorem Slot.resume_exiting (l : Slot) : (l.resume).exiting = l.exiting := rfl
@[simp] theorem Slot.resume_held (l : Slot) : (l.resume).held = l.held := rfl
@[simp] theorem Slot.resume_group (l : Slot) : (l.resume).group = l.group := rfl
@[simp] theorem Slot.resume_dying (l : Slot) : (l.resume).dying = l.dying := rfl
@[simp] theorem Slot.resume_away (l : Slot) : (l.resume).away = l.away := rfl
@[simp] theorem Slot.resume_cancelled (l : Slot) : (l.resume).cancelled = l.cancelled := rfl
@[simp] theorem Slot.resume_pend (l : Slot) : (l.resume).pend = l.pend := rfl
@[simp] theorem Slot.resume_snap (l : Slot) : (l.resume).snap = l.snap := rfl
@[simp] theorem Slot.resume_hidden (l : Slot) : (l.resume).hidden = l.hidden := rfl
@[simp] theorem Slot.resume_ckpt (l : Slot) : (l.resume).ckpt = l.ckpt := rfl
@[simp] theorem Slot.resume_frozen (l : Slot) : (l.resume).frozen = l.frozen := rfl
@[simp] theorem Slot.resume_issuedCopies (l : Slot) : (l.resume).issuedCopies = l.issuedCopies := rfl
@[simp] theorem Slot.resume_issuedVecs (l : Slot) : (l.resume).issuedVecs = l.issuedVecs := rfl
@[simp] theorem Slot.resume_issuedMxs (l : Slot) : (l.resume).issuedMxs = l.issuedMxs := rfl
@[simp] theorem Slot.resume_late (l : Slot) : (l.resume).late = l.late := rfl
@[simp] theorem Slot.resume_quiesced (l : Slot) : (l.resume).quiesced = l.quiesced := rfl

@[simp] theorem Slot.refresh_occ (l : Slot) : (l.refresh).occ = l.occ := rfl
@[simp] theorem Slot.refresh_uid (l : Slot) : (l.refresh).uid = l.uid := rfl
@[simp] theorem Slot.refresh_launch (l : Slot) : (l.refresh).launch = l.launch := rfl
@[simp] theorem Slot.refresh_task (l : Slot) : (l.refresh).task = l.task := rfl
@[simp] theorem Slot.refresh_origin (l : Slot) : (l.refresh).origin = l.origin := rfl
@[simp] theorem Slot.refresh_startPc (l : Slot) : (l.refresh).startPc = l.startPc := rfl
@[simp] theorem Slot.refresh_startArg (l : Slot) : (l.refresh).startArg = l.startArg := rfl
@[simp] theorem Slot.refresh_startRole (l : Slot) : (l.refresh).startRole = l.startRole := rfl
@[simp] theorem Slot.refresh_prio (l : Slot) : (l.refresh).prio = l.prio := rfl
@[simp] theorem Slot.refresh_role (l : Slot) : (l.refresh).role = l.role := rfl
@[simp] theorem Slot.refresh_entry (l : Slot) : (l.refresh).entry = l.entry := rfl
@[simp] theorem Slot.refresh_pc (l : Slot) : (l.refresh).pc = l.pc := rfl
@[simp] theorem Slot.refresh_x (l : Slot) : (l.refresh).x = l.x := rfl
@[simp] theorem Slot.refresh_p (l : Slot) : (l.refresh).p = l.p := rfl
@[simp] theorem Slot.refresh_v (l : Slot) : (l.refresh).v = l.v := rfl
@[simp] theorem Slot.refresh_m (l : Slot) : (l.refresh).m = l.m := rfl
@[simp] theorem Slot.refresh_b (l : Slot) : (l.refresh).b = l.b := rfl
@[simp] theorem Slot.refresh_pushes (l : Slot) : (l.refresh).pushes = l.pushes := rfl
@[simp] theorem Slot.refresh_tok (l : Slot) : (l.refresh).tok = l.tok := rfl
@[simp] theorem Slot.refresh_ageLimit (l : Slot) : (l.refresh).ageLimit = l.ageLimit := rfl
@[simp] theorem Slot.refresh_gangctl (l : Slot) : (l.refresh).gangctl = l.gangctl := rfl
@[simp] theorem Slot.refresh_parklim (l : Slot) : (l.refresh).parklim = l.parklim := rfl
@[simp] theorem Slot.refresh_fpctl (l : Slot) : (l.refresh).fpctl = l.fpctl := rfl
@[simp] theorem Slot.refresh_accanch (l : Slot) : (l.refresh).accanch = l.accanch := rfl
@[simp] theorem Slot.refresh_vcfg (l : Slot) : (l.refresh).vcfg = l.vcfg := rfl
@[simp] theorem Slot.refresh_tvec (l : Slot) : (l.refresh).tvec = l.tvec := rfl
@[simp] theorem Slot.refresh_tcause (l : Slot) : (l.refresh).tcause = l.tcause := rfl
@[simp] theorem Slot.refresh_tpc (l : Slot) : (l.refresh).tpc = l.tpc := rfl
@[simp] theorem Slot.refresh_tval (l : Slot) : (l.refresh).tval = l.tval := rfl
@[simp] theorem Slot.refresh_tword (l : Slot) : (l.refresh).tword = l.tword := rfl
@[simp] theorem Slot.refresh_tstat (l : Slot) : (l.refresh).tstat = l.tstat := rfl
@[simp] theorem Slot.refresh_mxtab (l : Slot) : (l.refresh).mxtab = l.mxtab := rfl
@[simp] theorem Slot.refresh_engTraps (l : Slot) : (l.refresh).engTraps = l.engTraps := rfl
@[simp] theorem Slot.refresh_evTraps (l : Slot) : (l.refresh).evTraps = l.evTraps := rfl
@[simp] theorem Slot.refresh_pfx (l : Slot) : (l.refresh).pfx = l.pfx := rfl
@[simp] theorem Slot.refresh_pfxPc (l : Slot) : (l.refresh).pfxPc = l.pfxPc := rfl
@[simp] theorem Slot.refresh_wait (l : Slot) : (l.refresh).wait = l.wait := rfl
@[simp] theorem Slot.refresh_park (l : Slot) : (l.refresh).park = l.park := rfl
@[simp] theorem Slot.refresh_stalled (l : Slot) : (l.refresh).stalled = l.stalled := rfl
@[simp] theorem Slot.refresh_stall (l : Slot) : (l.refresh).stall = l.stall := rfl
@[simp] theorem Slot.refresh_busyTill (l : Slot) : (l.refresh).busyTill = l.busyTill := rfl
@[simp] theorem Slot.refresh_lag (l : Slot) : (l.refresh).lag = l.lag := rfl
@[simp] theorem Slot.refresh_opens (l : Slot) : (l.refresh).opens = l.opens := rfl
@[simp] theorem Slot.refresh_evOpens (l : Slot) : (l.refresh).evOpens = l.evOpens := rfl
@[simp] theorem Slot.refresh_ckIssued (l : Slot) : (l.refresh).ckIssued = l.ckIssued := rfl
@[simp] theorem Slot.refresh_age (l : Slot) : (l.refresh).age = l.age := rfl
@[simp] theorem Slot.refresh_yield (l : Slot) : (l.refresh).yield = l.yield := rfl
@[simp] theorem Slot.refresh_started (l : Slot) : (l.refresh).started = l.started := rfl
@[simp] theorem Slot.refresh_exiting (l : Slot) : (l.refresh).exiting = l.exiting := rfl
@[simp] theorem Slot.refresh_held (l : Slot) : (l.refresh).held = l.held := rfl
@[simp] theorem Slot.refresh_group (l : Slot) : (l.refresh).group = l.group := rfl
@[simp] theorem Slot.refresh_dying (l : Slot) : (l.refresh).dying = l.dying := rfl
@[simp] theorem Slot.refresh_away (l : Slot) : (l.refresh).away = l.away := rfl
@[simp] theorem Slot.refresh_cancelled (l : Slot) : (l.refresh).cancelled = l.cancelled := rfl
@[simp] theorem Slot.refresh_pend (l : Slot) : (l.refresh).pend = l.pend := rfl
@[simp] theorem Slot.refresh_hidden (l : Slot) : (l.refresh).hidden = l.hidden := rfl
@[simp] theorem Slot.refresh_ckpt (l : Slot) : (l.refresh).ckpt = l.ckpt := rfl
@[simp] theorem Slot.refresh_frozen (l : Slot) : (l.refresh).frozen = l.frozen := rfl
@[simp] theorem Slot.refresh_issuedCopies (l : Slot) : (l.refresh).issuedCopies = l.issuedCopies := rfl
@[simp] theorem Slot.refresh_issuedVecs (l : Slot) : (l.refresh).issuedVecs = l.issuedVecs := rfl
@[simp] theorem Slot.refresh_issuedMxs (l : Slot) : (l.refresh).issuedMxs = l.issuedMxs := rfl
@[simp] theorem Slot.refresh_late (l : Slot) : (l.refresh).late = l.late := rfl
@[simp] theorem Slot.refresh_quiesced (l : Slot) : (l.refresh).quiesced = l.quiesced := rfl

@[simp] theorem Slot.wx_occ (l : Slot) (d : XReg) (v : W64) : (l.wx d v).occ = l.occ := by
  unfold Slot.wx; split <;> rfl
@[simp] theorem Slot.wx_uid (l : Slot) (d : XReg) (v : W64) : (l.wx d v).uid = l.uid := by
  unfold Slot.wx; split <;> rfl
@[simp] theorem Slot.wx_launch (l : Slot) (d : XReg) (v : W64) : (l.wx d v).launch = l.launch := by
  unfold Slot.wx; split <;> rfl
@[simp] theorem Slot.wx_task (l : Slot) (d : XReg) (v : W64) : (l.wx d v).task = l.task := by
  unfold Slot.wx; split <;> rfl
@[simp] theorem Slot.wx_origin (l : Slot) (d : XReg) (v : W64) : (l.wx d v).origin = l.origin := by
  unfold Slot.wx; split <;> rfl
@[simp] theorem Slot.wx_startPc (l : Slot) (d : XReg) (v : W64) : (l.wx d v).startPc = l.startPc := by
  unfold Slot.wx; split <;> rfl
@[simp] theorem Slot.wx_startArg (l : Slot) (d : XReg) (v : W64) : (l.wx d v).startArg = l.startArg := by
  unfold Slot.wx; split <;> rfl
@[simp] theorem Slot.wx_startRole (l : Slot) (d : XReg) (v : W64) : (l.wx d v).startRole = l.startRole := by
  unfold Slot.wx; split <;> rfl
@[simp] theorem Slot.wx_prio (l : Slot) (d : XReg) (v : W64) : (l.wx d v).prio = l.prio := by
  unfold Slot.wx; split <;> rfl
@[simp] theorem Slot.wx_role (l : Slot) (d : XReg) (v : W64) : (l.wx d v).role = l.role := by
  unfold Slot.wx; split <;> rfl
@[simp] theorem Slot.wx_entry (l : Slot) (d : XReg) (v : W64) : (l.wx d v).entry = l.entry := by
  unfold Slot.wx; split <;> rfl
@[simp] theorem Slot.wx_pc (l : Slot) (d : XReg) (v : W64) : (l.wx d v).pc = l.pc := by
  unfold Slot.wx; split <;> rfl
@[simp] theorem Slot.wx_p (l : Slot) (d : XReg) (v : W64) : (l.wx d v).p = l.p := by
  unfold Slot.wx; split <;> rfl
@[simp] theorem Slot.wx_v (l : Slot) (d : XReg) (v : W64) : (l.wx d v).v = l.v := by
  unfold Slot.wx; split <;> rfl
@[simp] theorem Slot.wx_m (l : Slot) (d : XReg) (v : W64) : (l.wx d v).m = l.m := by
  unfold Slot.wx; split <;> rfl
@[simp] theorem Slot.wx_b (l : Slot) (d : XReg) (v : W64) : (l.wx d v).b = l.b := by
  unfold Slot.wx; split <;> rfl
@[simp] theorem Slot.wx_pushes (l : Slot) (d : XReg) (v : W64) : (l.wx d v).pushes = l.pushes := by
  unfold Slot.wx; split <;> rfl
@[simp] theorem Slot.wx_tok (l : Slot) (d : XReg) (v : W64) : (l.wx d v).tok = l.tok := by
  unfold Slot.wx; split <;> rfl
@[simp] theorem Slot.wx_ageLimit (l : Slot) (d : XReg) (v : W64) : (l.wx d v).ageLimit = l.ageLimit := by
  unfold Slot.wx; split <;> rfl
@[simp] theorem Slot.wx_gangctl (l : Slot) (d : XReg) (v : W64) : (l.wx d v).gangctl = l.gangctl := by
  unfold Slot.wx; split <;> rfl
@[simp] theorem Slot.wx_parklim (l : Slot) (d : XReg) (v : W64) : (l.wx d v).parklim = l.parklim := by
  unfold Slot.wx; split <;> rfl
@[simp] theorem Slot.wx_fpctl (l : Slot) (d : XReg) (v : W64) : (l.wx d v).fpctl = l.fpctl := by
  unfold Slot.wx; split <;> rfl
@[simp] theorem Slot.wx_accanch (l : Slot) (d : XReg) (v : W64) : (l.wx d v).accanch = l.accanch := by
  unfold Slot.wx; split <;> rfl
@[simp] theorem Slot.wx_vcfg (l : Slot) (d : XReg) (v : W64) : (l.wx d v).vcfg = l.vcfg := by
  unfold Slot.wx; split <;> rfl
@[simp] theorem Slot.wx_tvec (l : Slot) (d : XReg) (v : W64) : (l.wx d v).tvec = l.tvec := by
  unfold Slot.wx; split <;> rfl
@[simp] theorem Slot.wx_tcause (l : Slot) (d : XReg) (v : W64) : (l.wx d v).tcause = l.tcause := by
  unfold Slot.wx; split <;> rfl
@[simp] theorem Slot.wx_tpc (l : Slot) (d : XReg) (v : W64) : (l.wx d v).tpc = l.tpc := by
  unfold Slot.wx; split <;> rfl
@[simp] theorem Slot.wx_tval (l : Slot) (d : XReg) (v : W64) : (l.wx d v).tval = l.tval := by
  unfold Slot.wx; split <;> rfl
@[simp] theorem Slot.wx_tword (l : Slot) (d : XReg) (v : W64) : (l.wx d v).tword = l.tword := by
  unfold Slot.wx; split <;> rfl
@[simp] theorem Slot.wx_tstat (l : Slot) (d : XReg) (v : W64) : (l.wx d v).tstat = l.tstat := by
  unfold Slot.wx; split <;> rfl
@[simp] theorem Slot.wx_mxtab (l : Slot) (d : XReg) (v : W64) : (l.wx d v).mxtab = l.mxtab := by
  unfold Slot.wx; split <;> rfl
@[simp] theorem Slot.wx_engTraps (l : Slot) (d : XReg) (v : W64) : (l.wx d v).engTraps = l.engTraps := by
  unfold Slot.wx; split <;> rfl
@[simp] theorem Slot.wx_evTraps (l : Slot) (d : XReg) (v : W64) : (l.wx d v).evTraps = l.evTraps := by
  unfold Slot.wx; split <;> rfl
@[simp] theorem Slot.wx_pfx (l : Slot) (d : XReg) (v : W64) : (l.wx d v).pfx = l.pfx := by
  unfold Slot.wx; split <;> rfl
@[simp] theorem Slot.wx_pfxPc (l : Slot) (d : XReg) (v : W64) : (l.wx d v).pfxPc = l.pfxPc := by
  unfold Slot.wx; split <;> rfl
@[simp] theorem Slot.wx_wait (l : Slot) (d : XReg) (v : W64) : (l.wx d v).wait = l.wait := by
  unfold Slot.wx; split <;> rfl
@[simp] theorem Slot.wx_park (l : Slot) (d : XReg) (v : W64) : (l.wx d v).park = l.park := by
  unfold Slot.wx; split <;> rfl
@[simp] theorem Slot.wx_stalled (l : Slot) (d : XReg) (v : W64) : (l.wx d v).stalled = l.stalled := by
  unfold Slot.wx; split <;> rfl
@[simp] theorem Slot.wx_stall (l : Slot) (d : XReg) (v : W64) : (l.wx d v).stall = l.stall := by
  unfold Slot.wx; split <;> rfl
@[simp] theorem Slot.wx_busyTill (l : Slot) (d : XReg) (v : W64) : (l.wx d v).busyTill = l.busyTill := by
  unfold Slot.wx; split <;> rfl
@[simp] theorem Slot.wx_lag (l : Slot) (d : XReg) (v : W64) : (l.wx d v).lag = l.lag := by
  unfold Slot.wx; split <;> rfl
@[simp] theorem Slot.wx_opens (l : Slot) (d : XReg) (v : W64) : (l.wx d v).opens = l.opens := by
  unfold Slot.wx; split <;> rfl
@[simp] theorem Slot.wx_evOpens (l : Slot) (d : XReg) (v : W64) : (l.wx d v).evOpens = l.evOpens := by
  unfold Slot.wx; split <;> rfl
@[simp] theorem Slot.wx_ckIssued (l : Slot) (d : XReg) (v : W64) : (l.wx d v).ckIssued = l.ckIssued := by
  unfold Slot.wx; split <;> rfl
@[simp] theorem Slot.wx_age (l : Slot) (d : XReg) (v : W64) : (l.wx d v).age = l.age := by
  unfold Slot.wx; split <;> rfl
@[simp] theorem Slot.wx_yield (l : Slot) (d : XReg) (v : W64) : (l.wx d v).yield = l.yield := by
  unfold Slot.wx; split <;> rfl
@[simp] theorem Slot.wx_started (l : Slot) (d : XReg) (v : W64) : (l.wx d v).started = l.started := by
  unfold Slot.wx; split <;> rfl
@[simp] theorem Slot.wx_exiting (l : Slot) (d : XReg) (v : W64) : (l.wx d v).exiting = l.exiting := by
  unfold Slot.wx; split <;> rfl
@[simp] theorem Slot.wx_held (l : Slot) (d : XReg) (v : W64) : (l.wx d v).held = l.held := by
  unfold Slot.wx; split <;> rfl
@[simp] theorem Slot.wx_group (l : Slot) (d : XReg) (v : W64) : (l.wx d v).group = l.group := by
  unfold Slot.wx; split <;> rfl
@[simp] theorem Slot.wx_dying (l : Slot) (d : XReg) (v : W64) : (l.wx d v).dying = l.dying := by
  unfold Slot.wx; split <;> rfl
@[simp] theorem Slot.wx_away (l : Slot) (d : XReg) (v : W64) : (l.wx d v).away = l.away := by
  unfold Slot.wx; split <;> rfl
@[simp] theorem Slot.wx_cancelled (l : Slot) (d : XReg) (v : W64) : (l.wx d v).cancelled = l.cancelled := by
  unfold Slot.wx; split <;> rfl
@[simp] theorem Slot.wx_pend (l : Slot) (d : XReg) (v : W64) : (l.wx d v).pend = l.pend := by
  unfold Slot.wx; split <;> rfl
@[simp] theorem Slot.wx_snap (l : Slot) (d : XReg) (v : W64) : (l.wx d v).snap = l.snap := by
  unfold Slot.wx; split <;> rfl
@[simp] theorem Slot.wx_hidden (l : Slot) (d : XReg) (v : W64) : (l.wx d v).hidden = l.hidden := by
  unfold Slot.wx; split <;> rfl
@[simp] theorem Slot.wx_ckpt (l : Slot) (d : XReg) (v : W64) : (l.wx d v).ckpt = l.ckpt := by
  unfold Slot.wx; split <;> rfl
@[simp] theorem Slot.wx_frozen (l : Slot) (d : XReg) (v : W64) : (l.wx d v).frozen = l.frozen := by
  unfold Slot.wx; split <;> rfl
@[simp] theorem Slot.wx_issuedCopies (l : Slot) (d : XReg) (v : W64) : (l.wx d v).issuedCopies = l.issuedCopies := by
  unfold Slot.wx; split <;> rfl
@[simp] theorem Slot.wx_issuedVecs (l : Slot) (d : XReg) (v : W64) : (l.wx d v).issuedVecs = l.issuedVecs := by
  unfold Slot.wx; split <;> rfl
@[simp] theorem Slot.wx_issuedMxs (l : Slot) (d : XReg) (v : W64) : (l.wx d v).issuedMxs = l.issuedMxs := by
  unfold Slot.wx; split <;> rfl
@[simp] theorem Slot.wx_late (l : Slot) (d : XReg) (v : W64) : (l.wx d v).late = l.late := by
  unfold Slot.wx; split <;> rfl
@[simp] theorem Slot.wx_quiesced (l : Slot) (d : XReg) (v : W64) : (l.wx d v).quiesced = l.quiesced := by
  unfold Slot.wx; split <;> rfl

@[simp] theorem Slot.wp_occ (l : Slot) (d : PReg) (v : Bool) : (l.wp d v).occ = l.occ := by
  unfold Slot.wp; split <;> rfl
@[simp] theorem Slot.wp_uid (l : Slot) (d : PReg) (v : Bool) : (l.wp d v).uid = l.uid := by
  unfold Slot.wp; split <;> rfl
@[simp] theorem Slot.wp_launch (l : Slot) (d : PReg) (v : Bool) : (l.wp d v).launch = l.launch := by
  unfold Slot.wp; split <;> rfl
@[simp] theorem Slot.wp_task (l : Slot) (d : PReg) (v : Bool) : (l.wp d v).task = l.task := by
  unfold Slot.wp; split <;> rfl
@[simp] theorem Slot.wp_origin (l : Slot) (d : PReg) (v : Bool) : (l.wp d v).origin = l.origin := by
  unfold Slot.wp; split <;> rfl
@[simp] theorem Slot.wp_startPc (l : Slot) (d : PReg) (v : Bool) : (l.wp d v).startPc = l.startPc := by
  unfold Slot.wp; split <;> rfl
@[simp] theorem Slot.wp_startArg (l : Slot) (d : PReg) (v : Bool) : (l.wp d v).startArg = l.startArg := by
  unfold Slot.wp; split <;> rfl
@[simp] theorem Slot.wp_startRole (l : Slot) (d : PReg) (v : Bool) : (l.wp d v).startRole = l.startRole := by
  unfold Slot.wp; split <;> rfl
@[simp] theorem Slot.wp_prio (l : Slot) (d : PReg) (v : Bool) : (l.wp d v).prio = l.prio := by
  unfold Slot.wp; split <;> rfl
@[simp] theorem Slot.wp_role (l : Slot) (d : PReg) (v : Bool) : (l.wp d v).role = l.role := by
  unfold Slot.wp; split <;> rfl
@[simp] theorem Slot.wp_entry (l : Slot) (d : PReg) (v : Bool) : (l.wp d v).entry = l.entry := by
  unfold Slot.wp; split <;> rfl
@[simp] theorem Slot.wp_pc (l : Slot) (d : PReg) (v : Bool) : (l.wp d v).pc = l.pc := by
  unfold Slot.wp; split <;> rfl
@[simp] theorem Slot.wp_x (l : Slot) (d : PReg) (v : Bool) : (l.wp d v).x = l.x := by
  unfold Slot.wp; split <;> rfl
@[simp] theorem Slot.wp_v (l : Slot) (d : PReg) (v : Bool) : (l.wp d v).v = l.v := by
  unfold Slot.wp; split <;> rfl
@[simp] theorem Slot.wp_m (l : Slot) (d : PReg) (v : Bool) : (l.wp d v).m = l.m := by
  unfold Slot.wp; split <;> rfl
@[simp] theorem Slot.wp_b (l : Slot) (d : PReg) (v : Bool) : (l.wp d v).b = l.b := by
  unfold Slot.wp; split <;> rfl
@[simp] theorem Slot.wp_pushes (l : Slot) (d : PReg) (v : Bool) : (l.wp d v).pushes = l.pushes := by
  unfold Slot.wp; split <;> rfl
@[simp] theorem Slot.wp_tok (l : Slot) (d : PReg) (v : Bool) : (l.wp d v).tok = l.tok := by
  unfold Slot.wp; split <;> rfl
@[simp] theorem Slot.wp_ageLimit (l : Slot) (d : PReg) (v : Bool) : (l.wp d v).ageLimit = l.ageLimit := by
  unfold Slot.wp; split <;> rfl
@[simp] theorem Slot.wp_gangctl (l : Slot) (d : PReg) (v : Bool) : (l.wp d v).gangctl = l.gangctl := by
  unfold Slot.wp; split <;> rfl
@[simp] theorem Slot.wp_parklim (l : Slot) (d : PReg) (v : Bool) : (l.wp d v).parklim = l.parklim := by
  unfold Slot.wp; split <;> rfl
@[simp] theorem Slot.wp_fpctl (l : Slot) (d : PReg) (v : Bool) : (l.wp d v).fpctl = l.fpctl := by
  unfold Slot.wp; split <;> rfl
@[simp] theorem Slot.wp_accanch (l : Slot) (d : PReg) (v : Bool) : (l.wp d v).accanch = l.accanch := by
  unfold Slot.wp; split <;> rfl
@[simp] theorem Slot.wp_vcfg (l : Slot) (d : PReg) (v : Bool) : (l.wp d v).vcfg = l.vcfg := by
  unfold Slot.wp; split <;> rfl
@[simp] theorem Slot.wp_tvec (l : Slot) (d : PReg) (v : Bool) : (l.wp d v).tvec = l.tvec := by
  unfold Slot.wp; split <;> rfl
@[simp] theorem Slot.wp_tcause (l : Slot) (d : PReg) (v : Bool) : (l.wp d v).tcause = l.tcause := by
  unfold Slot.wp; split <;> rfl
@[simp] theorem Slot.wp_tpc (l : Slot) (d : PReg) (v : Bool) : (l.wp d v).tpc = l.tpc := by
  unfold Slot.wp; split <;> rfl
@[simp] theorem Slot.wp_tval (l : Slot) (d : PReg) (v : Bool) : (l.wp d v).tval = l.tval := by
  unfold Slot.wp; split <;> rfl
@[simp] theorem Slot.wp_tword (l : Slot) (d : PReg) (v : Bool) : (l.wp d v).tword = l.tword := by
  unfold Slot.wp; split <;> rfl
@[simp] theorem Slot.wp_tstat (l : Slot) (d : PReg) (v : Bool) : (l.wp d v).tstat = l.tstat := by
  unfold Slot.wp; split <;> rfl
@[simp] theorem Slot.wp_mxtab (l : Slot) (d : PReg) (v : Bool) : (l.wp d v).mxtab = l.mxtab := by
  unfold Slot.wp; split <;> rfl
@[simp] theorem Slot.wp_engTraps (l : Slot) (d : PReg) (v : Bool) : (l.wp d v).engTraps = l.engTraps := by
  unfold Slot.wp; split <;> rfl
@[simp] theorem Slot.wp_evTraps (l : Slot) (d : PReg) (v : Bool) : (l.wp d v).evTraps = l.evTraps := by
  unfold Slot.wp; split <;> rfl
@[simp] theorem Slot.wp_pfx (l : Slot) (d : PReg) (v : Bool) : (l.wp d v).pfx = l.pfx := by
  unfold Slot.wp; split <;> rfl
@[simp] theorem Slot.wp_pfxPc (l : Slot) (d : PReg) (v : Bool) : (l.wp d v).pfxPc = l.pfxPc := by
  unfold Slot.wp; split <;> rfl
@[simp] theorem Slot.wp_wait (l : Slot) (d : PReg) (v : Bool) : (l.wp d v).wait = l.wait := by
  unfold Slot.wp; split <;> rfl
@[simp] theorem Slot.wp_park (l : Slot) (d : PReg) (v : Bool) : (l.wp d v).park = l.park := by
  unfold Slot.wp; split <;> rfl
@[simp] theorem Slot.wp_stalled (l : Slot) (d : PReg) (v : Bool) : (l.wp d v).stalled = l.stalled := by
  unfold Slot.wp; split <;> rfl
@[simp] theorem Slot.wp_stall (l : Slot) (d : PReg) (v : Bool) : (l.wp d v).stall = l.stall := by
  unfold Slot.wp; split <;> rfl
@[simp] theorem Slot.wp_busyTill (l : Slot) (d : PReg) (v : Bool) : (l.wp d v).busyTill = l.busyTill := by
  unfold Slot.wp; split <;> rfl
@[simp] theorem Slot.wp_lag (l : Slot) (d : PReg) (v : Bool) : (l.wp d v).lag = l.lag := by
  unfold Slot.wp; split <;> rfl
@[simp] theorem Slot.wp_opens (l : Slot) (d : PReg) (v : Bool) : (l.wp d v).opens = l.opens := by
  unfold Slot.wp; split <;> rfl
@[simp] theorem Slot.wp_evOpens (l : Slot) (d : PReg) (v : Bool) : (l.wp d v).evOpens = l.evOpens := by
  unfold Slot.wp; split <;> rfl
@[simp] theorem Slot.wp_ckIssued (l : Slot) (d : PReg) (v : Bool) : (l.wp d v).ckIssued = l.ckIssued := by
  unfold Slot.wp; split <;> rfl
@[simp] theorem Slot.wp_age (l : Slot) (d : PReg) (v : Bool) : (l.wp d v).age = l.age := by
  unfold Slot.wp; split <;> rfl
@[simp] theorem Slot.wp_yield (l : Slot) (d : PReg) (v : Bool) : (l.wp d v).yield = l.yield := by
  unfold Slot.wp; split <;> rfl
@[simp] theorem Slot.wp_started (l : Slot) (d : PReg) (v : Bool) : (l.wp d v).started = l.started := by
  unfold Slot.wp; split <;> rfl
@[simp] theorem Slot.wp_exiting (l : Slot) (d : PReg) (v : Bool) : (l.wp d v).exiting = l.exiting := by
  unfold Slot.wp; split <;> rfl
@[simp] theorem Slot.wp_held (l : Slot) (d : PReg) (v : Bool) : (l.wp d v).held = l.held := by
  unfold Slot.wp; split <;> rfl
@[simp] theorem Slot.wp_group (l : Slot) (d : PReg) (v : Bool) : (l.wp d v).group = l.group := by
  unfold Slot.wp; split <;> rfl
@[simp] theorem Slot.wp_dying (l : Slot) (d : PReg) (v : Bool) : (l.wp d v).dying = l.dying := by
  unfold Slot.wp; split <;> rfl
@[simp] theorem Slot.wp_away (l : Slot) (d : PReg) (v : Bool) : (l.wp d v).away = l.away := by
  unfold Slot.wp; split <;> rfl
@[simp] theorem Slot.wp_cancelled (l : Slot) (d : PReg) (v : Bool) : (l.wp d v).cancelled = l.cancelled := by
  unfold Slot.wp; split <;> rfl
@[simp] theorem Slot.wp_pend (l : Slot) (d : PReg) (v : Bool) : (l.wp d v).pend = l.pend := by
  unfold Slot.wp; split <;> rfl
@[simp] theorem Slot.wp_snap (l : Slot) (d : PReg) (v : Bool) : (l.wp d v).snap = l.snap := by
  unfold Slot.wp; split <;> rfl
@[simp] theorem Slot.wp_hidden (l : Slot) (d : PReg) (v : Bool) : (l.wp d v).hidden = l.hidden := by
  unfold Slot.wp; split <;> rfl
@[simp] theorem Slot.wp_ckpt (l : Slot) (d : PReg) (v : Bool) : (l.wp d v).ckpt = l.ckpt := by
  unfold Slot.wp; split <;> rfl
@[simp] theorem Slot.wp_frozen (l : Slot) (d : PReg) (v : Bool) : (l.wp d v).frozen = l.frozen := by
  unfold Slot.wp; split <;> rfl
@[simp] theorem Slot.wp_issuedCopies (l : Slot) (d : PReg) (v : Bool) : (l.wp d v).issuedCopies = l.issuedCopies := by
  unfold Slot.wp; split <;> rfl
@[simp] theorem Slot.wp_issuedVecs (l : Slot) (d : PReg) (v : Bool) : (l.wp d v).issuedVecs = l.issuedVecs := by
  unfold Slot.wp; split <;> rfl
@[simp] theorem Slot.wp_issuedMxs (l : Slot) (d : PReg) (v : Bool) : (l.wp d v).issuedMxs = l.issuedMxs := by
  unfold Slot.wp; split <;> rfl
@[simp] theorem Slot.wp_late (l : Slot) (d : PReg) (v : Bool) : (l.wp d v).late = l.late := by
  unfold Slot.wp; split <;> rfl
@[simp] theorem Slot.wp_quiesced (l : Slot) (d : PReg) (v : Bool) : (l.wp d v).quiesced = l.quiesced := by
  unfold Slot.wp; split <;> rfl

@[simp] theorem Slot.goto_pc (l : Slot) (a : W64) : (l.goto a).pc = a := rfl
@[simp] theorem Slot.goto_pfx (l : Slot) (a : W64) : (l.goto a).pfx = [] := rfl
@[simp] theorem Slot.goto_started (l : Slot) (a : W64) : (l.goto a).started = true := rfl
@[simp] theorem Slot.goto_stalled (l : Slot) (a : W64) : (l.goto a).stalled = false := rfl
@[simp] theorem Slot.next_pc (l : Slot) : l.next.pc = l.pc + 4 := rfl
@[simp] theorem Slot.next_pfx (l : Slot) : l.next.pfx = [] := rfl
@[simp] theorem Slot.next_started (l : Slot) : l.next.started = true := rfl
@[simp] theorem Slot.next_stalled (l : Slot) : l.next.stalled = false := rfl
@[simp] theorem Slot.resume_pc (l : Slot) : l.resume.pc = l.pc + 4 := rfl
@[simp] theorem Slot.resume_pfx (l : Slot) : l.resume.pfx = [] := rfl
@[simp] theorem Slot.resume_wait (l : Slot) : l.resume.wait = .run := rfl
@[simp] theorem Slot.refresh_snap (l : Slot) : l.refresh.snap = [] := rfl

end Sys2Proof.Machine
end

