-- ==== Sys2Proof/Laws/Parts.lean ====
section
/-! SUPPORT. Reading a part of the state after a write of a part: tables, cores, slots, and the registers of a slot. -/

namespace Sys2Proof.Machine

/-! ## Tables -/

@[simp] theorem tget_tset_same {α : Type} (d : α) (t : Table α) (n : Nat) (a : α) : tget d (tset t n a) n = a := by
  induction t with
  | nil => simp [tset, tget]
  | cons h t ih =>
    obtain ⟨k, v⟩ := h
    by_cases h1 : k = n
    · simp [tset, tget, h1]
    · by_cases h2 : n < k
      · simp [tset, tget, h1, h2]
      · simp [tset, tget, h1, h2, ih]

theorem tget_tset_ne {α : Type} (d : α) (t : Table α) {n m : Nat} (a : α) (h : m ≠ n) :
    tget d (tset t n a) m = tget d t m := by
  induction t with
  | nil => simp [tset, tget, h.symm]
  | cons p t ih =>
    obtain ⟨k, v⟩ := p
    by_cases h1 : k = n
    · subst h1; simp [tset, tget, h.symm]
    · by_cases h2 : n < k
      · simp only [tset, h1, h2, if_true, if_false, tget, h.symm]
      · simp only [tset, h1, h2, if_false, tget, ih]

theorem tget_tset {α : Type} (d : α) (t : Table α) (n m : Nat) (a : α) :
    tget d (tset t n a) m = if m = n then a else tget d t m := by
  by_cases h : m = n
  · subst h; simp
  · simp [h, tget_tset_ne d t a h]

@[simp] theorem tset_tset {α : Type} (t : Table α) (n : Nat) (a b : α) : tset (tset t n a) n b = tset t n b := by
  induction t with
  | nil => simp [tset]
  | cons h t ih =>
    obtain ⟨k, v⟩ := h
    by_cases h1 : k = n
    · simp [tset, h1]
    · by_cases h2 : n < k
      · simp [tset, h1, h2]
      · simp [tset, h1, h2, ih]

@[simp] theorem tmem_tset {α : Type} (t : Table α) (n m : Nat) (a : α) :
    tmem (tset t n a) m = (n == m || tmem t m) := by
  induction t with
  | nil => simp [tset, tmem]
  | cons h t ih =>
    obtain ⟨k, v⟩ := h
    by_cases h1 : k = n
    · subst h1; simp [tset, tmem]
    · by_cases h2 : n < k
      · simp [tset, tmem, h1, h2]
      · simp only [tset, h1, h2, if_false, tmem, ih]
        cases k == m <;> cases n == m <;> simp

/-! ## Cores and slots -/

@[simp] theorem State.core_setCore_same (s : State) (g : Nat) (c : Core) : (s.setCore g c).core g = c := by
  simp [State.core, State.setCore]

theorem State.core_setCore_ne (s : State) {g h : Nat} (c : Core) (n : h ≠ g) : (s.setCore g c).core h = s.core h := by
  simp [State.core, State.setCore, tget_tset_ne _ _ _ n]

theorem State.core_setCore (s : State) (g h : Nat) (c : Core) :
    (s.setCore g c).core h = if h = g then c else s.core h := by
  simp [State.core, State.setCore, tget_tset]

@[simp] theorem State.setCore_setCore (s : State) (g : Nat) (c d : Core) :
    (s.setCore g c).setCore g d = s.setCore g d := by
  simp [State.setCore]

@[simp] theorem State.core_modCore_same (s : State) (g : Nat) (f : Core → Core) :
    (s.modCore g f).core g = f (s.core g) := by
  simp [State.modCore]

theorem State.core_modCore (s : State) (g h : Nat) (f : Core → Core) :
    (s.modCore g f).core h = if h = g then f (s.core g) else s.core h := by
  simp [State.modCore, State.core_setCore]

@[simp] theorem Core.slot_setSlot_same (c : Core) (k : Fin 4) (l : Slot) : (c.setSlot k l).slot k = l := by
  simp [Core.slot, Core.setSlot]

theorem Core.slot_setSlot_ne (c : Core) {k j : Fin 4} (l : Slot) (h : j ≠ k) : (c.setSlot k l).slot j = c.slot j := by
  have : k.val ≠ j.val := fun e => h (Fin.ext e.symm)
  simp [Core.slot, Core.setSlot, this]

@[simp] theorem Core.setSlot_setSlot (c : Core) (k : Fin 4) (l m : Slot) :
    (c.setSlot k l).setSlot k m = c.setSlot k m := by
  simp [Core.setSlot]

@[simp] theorem Core.setSlot_slot (c : Core) (k : Fin 4) : c.setSlot k (c.slot k) = c := by
  simp [Core.setSlot, Core.slot]

@[simp] theorem State.slotAt_setSlot_same (s : State) (r : SlotRef) (l : Slot) : (s.setSlot r l).slotAt r = l := by
  simp [State.slotAt, State.setSlot]

theorem State.slotAt_setSlot_ne (s : State) {r q : SlotRef} (l : Slot) (h : q ≠ r) :
    (s.setSlot r l).slotAt q = s.slotAt q := by
  obtain ⟨g, k⟩ := r
  obtain ⟨g', k'⟩ := q
  by_cases hg : g' = g
  · subst hg
    have hk : k' ≠ k := fun e => h (by rw [e])
    simp [State.slotAt, State.setSlot, Core.slot_setSlot_ne _ _ hk]
  · simp [State.slotAt, State.setSlot, State.core_setCore_ne _ _ hg]

theorem State.slotAt_setSlot (s : State) (r q : SlotRef) (l : Slot) :
    (s.setSlot r l).slotAt q = if q = r then l else s.slotAt q := by
  by_cases h : q = r
  · subst h; simp
  · simp [h, State.slotAt_setSlot_ne s l h]

@[simp] theorem State.setSlot_setSlot (s : State) (r : SlotRef) (l m : Slot) :
    (s.setSlot r l).setSlot r m = s.setSlot r m := by
  simp [State.setSlot]

@[simp] theorem State.slotAt_modSlot_same (s : State) (r : SlotRef) (f : Slot → Slot) :
    (s.modSlot r f).slotAt r = f (s.slotAt r) := by
  simp [State.modSlot]

theorem State.slotAt_modSlot (s : State) (r q : SlotRef) (f : Slot → Slot) :
    (s.modSlot r f).slotAt q = if q = r then f (s.slotAt r) else s.slotAt q := by
  simp [State.modSlot, State.slotAt_setSlot]

@[simp] theorem State.modSlot_modSlot (s : State) (r : SlotRef) (f g : Slot → Slot) :
    (s.modSlot r f).modSlot r g = s.modSlot r fun l => g (f l) := by
  simp [State.modSlot]

@[simp] theorem State.slot_mapSlot (s : State) (f : Slot → Slot) : (s.mapSlot f).slot = f s.slot := by
  simp [State.slot, State.mapSlot, State.modSlot]

@[simp] theorem State.mapSlot_mapSlot (s : State) (f g : Slot → Slot) :
    (s.mapSlot f).mapSlot g = s.mapSlot fun l => g (f l) := by
  simp [State.mapSlot, State.modSlot]

theorem State.slotAt_mapSlot (s : State) (q : SlotRef) (f : Slot → Slot) :
    (s.mapSlot f).slotAt q = if q = s.cur then f s.slot else s.slotAt q := by
  simp [State.mapSlot, State.slotAt_modSlot, State.slot]

@[simp] theorem State.slotAt_cur (s : State) : s.slotAt s.cur = s.slot := rfl

/-- Changing the executing slot leaves the rest of every core. -/
theorem State.core_mapSlot (s : State) (g : Nat) (f : Slot → Slot) :
    (s.mapSlot f).core g = if g = s.cur.core then (s.core g).setSlot s.cur.slot (f s.slot) else s.core g := by
  unfold State.mapSlot State.modSlot State.setSlot
  rw [State.core_setCore]
  by_cases h : g = s.cur.core
  · subst h; rfl
  · rw [if_neg h, if_neg h]

/-! ## The other parts -/

@[simp] theorem State.die_modDie_same (s : State) (d : Nat) (f : Die → Die) : (s.modDie d f).die d = f (s.die d) := by
  simp [State.die, State.modDie]
theorem State.die_modDie (s : State) (d e : Nat) (f : Die → Die) :
    (s.modDie d f).die e = if e = d then f (s.die d) else s.die e := by
  simp [State.die, State.modDie, tget_tset]
@[simp] theorem State.cluster_modCluster_same (s : State) (k : Nat) (f : Cluster → Cluster) :
    (s.modCluster k f).cluster k = f (s.cluster k) := by
  simp [State.cluster, State.modCluster]
theorem State.cluster_modCluster (s : State) (k j : Nat) (f : Cluster → Cluster) :
    (s.modCluster k f).cluster j = if j = k then f (s.cluster k) else s.cluster j := by
  simp [State.cluster, State.modCluster, tget_tset]
@[simp] theorem State.queue_modQueue_same (s : State) (q : Nat) (f : Queue → Queue) :
    (s.modQueue q f).queue q = f (s.queue q) := by
  simp [State.queue, State.modQueue]
theorem State.queue_modQueue (s : State) (q p : Nat) (f : Queue → Queue) :
    (s.modQueue q f).queue p = if p = q then f (s.queue q) else s.queue p := by
  simp [State.queue, State.modQueue, tget_tset]
@[simp] theorem State.launch_modLaunch_same (s : State) (n : Nat) (f : Launch → Launch) :
    (s.modLaunch n f).launch n = f (s.launch n) := by
  simp [State.launch, State.modLaunch]
theorem State.launch_modLaunch (s : State) (n m : Nat) (f : Launch → Launch) :
    (s.modLaunch n f).launch m = if m = n then f (s.launch n) else s.launch m := by
  simp [State.launch, State.modLaunch, tget_tset]
@[simp] theorem State.link_modLink_same (s : State) (n : Nat) (f : Link → Link) :
    (s.modLink n f).link n = f (s.link n) := by
  simp [State.link, State.modLink]
@[simp] theorem State.fcore_modFcore_same (s : State) (n : Nat) (f : FCore → FCore) :
    (s.modFcore n f).fcore n = f (s.fcore n) := by
  simp [State.fcore, State.modFcore]
@[simp] theorem State.modFcore_modFcore (s : State) (n : Nat) (f g : FCore → FCore) :
    (s.modFcore n f).modFcore n g = s.modFcore n fun x => g (f x) := by
  simp [State.modFcore, State.fcore]

/-! ## Registers (R125, R126) -/

/-- x0 reads 0 whatever it was given; every other register reads what it was given. -/
theorem Slot.rx_wx (l : Slot) (d r : XReg) (v : W64) :
    (l.wx d v).rx r = if r = d then (if d = 0 then 0 else v) else l.rx r := by
  unfold Slot.wx
  by_cases hd : d = 0
  · rw [if_pos hd, if_pos hd]
    by_cases hr : r = d
    · rw [if_pos hr, Slot.rx, if_pos (hr.trans hd)]
    · rw [if_neg hr]
  · rw [if_neg hd, if_neg hd]
    by_cases hr : r = d
    · subst hr; rw [if_pos rfl, Slot.rx, if_neg hd]; simp
    · have : d.toNat ≠ r.toNat := fun e => hr (BitVec.eq_of_toNat_eq e.symm)
      rw [if_neg hr, Slot.rx, Slot.rx]
      simp [this]

@[simp] theorem Slot.rx_zero (l : Slot) : l.rx 0 = 0 := by simp [Slot.rx]
@[simp] theorem Slot.wx_zero (l : Slot) (v : W64) : l.wx 0 v = l := by simp [Slot.wx]
@[simp] theorem Slot.rx_goto (l : Slot) (a : W64) (r : XReg) : (l.goto a).rx r = l.rx r := rfl
@[simp] theorem Slot.rx_next (l : Slot) (r : XReg) : l.next.rx r = l.rx r := rfl
@[simp] theorem Slot.rx_resume (l : Slot) (r : XReg) : l.resume.rx r = l.rx r := rfl
@[simp] theorem Slot.rx_refresh (l : Slot) (r : XReg) : l.refresh.rx r = l.rx r := rfl
@[simp] theorem Slot.rx_wp (l : Slot) (d : PReg) (v : Bool) (r : XReg) : (l.wp d v).rx r = l.rx r := by
  unfold Slot.rx; simp
@[simp] theorem Slot.rp_wx (l : Slot) (d : XReg) (v : W64) (r : PReg) : (l.wx d v).rp r = l.rp r := by
  unfold Slot.rp; simp
@[simp] theorem Slot.rp_next (l : Slot) (r : PReg) : l.next.rp r = l.rp r := rfl
@[simp] theorem Slot.rp_goto (l : Slot) (a : W64) (r : PReg) : (l.goto a).rp r = l.rp r := rfl

/-- p0 reads 1 whatever it was given; every other predicate reads what it was given. -/
theorem Slot.rp_wp (l : Slot) (d r : PReg) (v : Bool) :
    (l.wp d v).rp r = if r = d then (if d = 0 then true else v) else l.rp r := by
  generalize hp : l.p = p
  have key : ∀ (d r : BitVec 3) (p : BitVec 8) (v : Bool), d ≠ 0 → r ≠ 0 →
      (if v then p ||| (1#8 <<< d.toNat) else p &&& ~~~(1#8 <<< d.toNat)).getLsbD r.toNat =
        if r = d then v else p.getLsbD r.toNat := by
    intro d r p v hd hr
    have h1 : d.toNat < 8 := d.isLt
    have h2 : r.toNat < 8 := r.isLt
    have e : (r = d) ↔ r.toNat = d.toNat := ⟨fun h => by rw [h], BitVec.eq_of_toNat_eq⟩
    have one : ∀ k, k < 8 → ((1#8 <<< d.toNat).getLsbD k = decide (k = d.toNat)) := by
      intro k hk
      rw [BitVec.getLsbD_shiftLeft]
      by_cases hkd : k = d.toNat
      · subst hkd; simp [hk]
      · by_cases hlt : k < d.toNat
        · simp [hlt, hkd]
        · have : k - d.toNat ≠ 0 := by omega
          simp [hkd, hlt, hk, this]
    cases v
    · simp only [Bool.false_eq_true, if_false, BitVec.getLsbD_and, BitVec.getLsbD_not, one _ h2, h2]
      by_cases h : r.toNat = d.toNat <;> simp [e, h]
    · simp only [if_true, BitVec.getLsbD_or, one _ h2]
      by_cases h : r.toNat = d.toNat <;> simp [e, h]
  unfold Slot.wp
  by_cases hd : d = 0
  · rw [if_pos hd, if_pos hd]
    by_cases hr : r = d
    · rw [if_pos hr, Slot.rp, if_pos (hr.trans hd)]
    · rw [if_neg hr]
  · rw [if_neg hd, if_neg hd]
    by_cases hr : r = 0
    · have : r ≠ d := fun h => hd (h.symm.trans hr)
      rw [if_neg this, Slot.rp, if_pos hr, Slot.rp, if_pos hr]
    · rw [Slot.rp, if_neg hr, Slot.rp, if_neg hr, hp]
      exact key d r p v hd hr

@[simp] theorem State.rx_mapSlot (s : State) (f : Slot → Slot) (r : XReg) : (s.mapSlot f).rx r = (f s.slot).rx r := by
  simp [State.rx]

end Sys2Proof.Machine
end

