-- ==== Sys2Proof/Laws/Memory.lean ====
section
/-! SUPPORT. The canonical form of memory: every operation keeps it, a read after a write, and memories that read alike
are equal. -/

namespace Sys2Proof.Machine

theorem Memory.wfFrom_mono {lo lo' : Nat} {m : Memory} (h : lo' ≤ lo) (w : Memory.wfFrom lo m = true) :
    Memory.wfFrom lo' m = true := by
  cases m with
  | nil => rfl
  | cons c t =>
    obtain ⟨k, b⟩ := c
    simp only [Memory.wfFrom, Bool.and_eq_true, decide_eq_true_eq] at w ⊢
    exact ⟨⟨by omega, w.1.2⟩, w.2⟩

/-- Nothing is listed below the bound. -/
theorem Memory.get_below {lo : Nat} {m : Memory} (w : Memory.wfFrom lo m = true) {n : Nat} (h : n < lo) :
    m.get n = Memory.blank := by
  induction m generalizing lo with
  | nil => rfl
  | cons c t ih =>
    obtain ⟨k, b⟩ := c
    simp only [Memory.wfFrom, Bool.and_eq_true, decide_eq_true_eq] at w
    have hk : k ≠ n := by omega
    simp only [Memory.get, hk, if_false]
    exact ih w.2 (by omega)

theorem Memory.wfFrom_set {lo : Nat} {m : Memory} (w : Memory.wfFrom lo m = true) {n : Nat} (h : lo ≤ n) (b : Byte) :
    Memory.wfFrom lo (m.set n b) = true := by
  induction m generalizing lo with
  | nil =>
    unfold Memory.set
    split
    · rfl
    · rename_i hb
      simp [Memory.wfFrom, h, hb]
  | cons c t ih =>
    obtain ⟨k, v⟩ := c
    have w0 := w
    simp only [Memory.wfFrom, Bool.and_eq_true, decide_eq_true_eq] at w
    unfold Memory.set
    by_cases h1 : k = n
    · subst h1
      rw [if_pos rfl]
      split
      · exact Memory.wfFrom_mono (by omega) w.2
      · rename_i hb
        simp only [Memory.wfFrom, Bool.and_eq_true, decide_eq_true_eq]
        exact ⟨⟨h, by simpa using hb⟩, w.2⟩
    · rw [if_neg h1]
      by_cases h2 : n < k
      · rw [if_pos h2]
        split
        · exact w0
        · rename_i hb
          simp only [Memory.wfFrom, Bool.and_eq_true, decide_eq_true_eq]
          exact ⟨⟨h, by simpa using hb⟩, ⟨by omega, w.1.2⟩, w.2⟩
      · rw [if_neg h2]
        simp only [Memory.wfFrom, Bool.and_eq_true, decide_eq_true_eq]
        exact ⟨⟨w.1.1, w.1.2⟩, ih w.2 (by omega)⟩

/-- A write keeps the canonical form. -/
theorem Memory.wf_set {m : Memory} (w : m.wf = true) (n : Nat) (b : Byte) : (m.set n b).wf = true :=
  Memory.wfFrom_set w (Nat.zero_le n) b

theorem Memory.get_set_from {lo : Nat} {m : Memory} (w : Memory.wfFrom lo m = true) (n k : Nat) (b : Byte) :
    (m.set n b).get k = if k = n then b else m.get k := by
  induction m generalizing lo with
  | nil =>
    unfold Memory.set
    by_cases hk : k = n
    · subst hk; split <;> simp_all [Memory.get]
    · have : n ≠ k := fun e => hk e.symm
      split <;> simp [Memory.get, hk, this]
  | cons c t ih =>
    obtain ⟨j, v⟩ := c
    have w0 := w
    simp only [Memory.wfFrom, Bool.and_eq_true, decide_eq_true_eq] at w
    unfold Memory.set
    by_cases h1 : j = n
    · subst h1
      rw [if_pos rfl]
      by_cases hb : b = Memory.blank
      · rw [if_pos hb]
        by_cases hk : k = j
        · subst hk; rw [if_pos rfl, hb]; exact Memory.get_below w.2 (by omega)
        · have : j ≠ k := fun e => hk e.symm
          simp [Memory.get, hk, this]
      · rw [if_neg hb]
        by_cases hk : k = j
        · subst hk; simp [Memory.get]
        · have : j ≠ k := fun e => hk e.symm
          simp [Memory.get, hk, this]
    · rw [if_neg h1]
      by_cases h2 : n < j
      · rw [if_pos h2]
        by_cases hb : b = Memory.blank
        · rw [if_pos hb]
          by_cases hk : k = n
          · subst hk
            rw [if_pos rfl, hb]
            exact Memory.get_below (lo := j) (m := (j, v) :: t)
              (by simp only [Memory.wfFrom, Bool.and_eq_true, decide_eq_true_eq]; exact ⟨⟨Nat.le_refl j, w.1.2⟩, w.2⟩) h2
          · rw [if_neg hk]
        · rw [if_neg hb]
          by_cases hk : k = n
          · subst hk; simp [Memory.get]
          · have : n ≠ k := fun e => hk e.symm
            simp [Memory.get, hk, this]
      · rw [if_neg h2]
        by_cases hj : j = k
        · subst hj
          simp [Memory.get, h1]
        · simp only [Memory.get, hj, if_false]
          exact ih w.2

/-- A read after a write. -/
theorem Memory.get_set {m : Memory} (w : m.wf = true) (n k : Nat) (b : Byte) :
    (m.set n b).get k = if k = n then b else m.get k := Memory.get_set_from w n k b

theorem Memory.ext_from {lo : Nat} {m m' : Memory} (w : Memory.wfFrom lo m = true) (w' : Memory.wfFrom lo m' = true)
    (h : ∀ n, m.get n = m'.get n) : m = m' := by
  induction m generalizing lo m' with
  | nil =>
    cases m' with
    | nil => rfl
    | cons c t =>
      obtain ⟨k, b⟩ := c
      simp only [Memory.wfFrom, Bool.and_eq_true, decide_eq_true_eq] at w'
      have := h k
      simp only [Memory.get, if_true] at this
      simp [this] at w'
  | cons c t ih =>
    obtain ⟨k, b⟩ := c
    have v := w
    simp only [Memory.wfFrom, Bool.and_eq_true, decide_eq_true_eq] at v
    have hk := h k
    simp only [Memory.get, if_true] at hk
    cases m' with
    | nil => simp [Memory.get] at hk; simp [hk] at v
    | cons c' t' =>
      obtain ⟨k', b'⟩ := c'
      have v' := w'
      simp only [Memory.wfFrom, Bool.and_eq_true, decide_eq_true_eq] at v'
      have hk' := h k'
      simp only [Memory.get, if_true] at hk'
      have e : k = k' := by
        rcases Nat.lt_trichotomy k k' with l | e | l
        · have := Memory.get_below v'.2 (n := k) (by omega)
          have n1 : k' ≠ k := by omega
          have hk2 : b = Memory.blank := by rw [hk, Memory.get, if_neg n1, this]
          simp [hk2] at v
        · exact e
        · have := Memory.get_below v.2 (n := k') (by omega)
          have n1 : k ≠ k' := by omega
          have hk2 : b' = Memory.blank := by rw [← hk', if_neg n1, this]
          simp [hk2] at v'
      subst e
      have eb : b = b' := by rw [hk]; exact if_pos rfl
      subst eb
      have et : t = t' := ih v.2 v'.2 fun n => by
        by_cases hn : n < k + 1
        · rw [Memory.get_below v.2 hn, Memory.get_below v'.2 hn]
        · have := h n
          have hne : k ≠ n := by omega
          simpa only [Memory.get, hne, if_false] using this
      rw [et]

/-- Memories in canonical form that read alike are the same data. -/
theorem Memory.ext {m m' : Memory} (w : m.wf = true) (w' : m'.wf = true) (h : ∀ n, m.get n = m'.get n) : m = m' :=
  Memory.ext_from w w' h

theorem Memory.wf_setAll {m : Memory} (w : m.wf = true) (cs : List (Nat × Byte)) : (m.setAll cs).wf = true := by
  induction cs generalizing m with
  | nil => exact w
  | cons c t ih => exact ih (Memory.wf_set w c.1 c.2)

/-- A location that is not written keeps its byte. -/
theorem Memory.get_setAll_of_not_mem {m : Memory} (w : m.wf = true) {cs : List (Nat × Byte)} {n : Nat}
    (h : ∀ c ∈ cs, c.1 ≠ n) : (m.setAll cs).get n = m.get n := by
  induction cs generalizing m with
  | nil => rfl
  | cons c t ih =>
    obtain ⟨k, b⟩ := c
    have h1 : k ≠ n := h (k, b) (by simp)
    rw [Memory.setAll, ih (Memory.wf_set w k b) fun c hc => h c (by simp [hc]), Memory.get_set w]
    rw [if_neg fun e => h1 e.symm]

theorem Memory.wfFrom_filter {lo : Nat} {m : Memory} (w : Memory.wfFrom lo m = true) (p : Host.Cell → Bool) :
    Memory.wfFrom lo (m.filter p) = true := by
  induction m generalizing lo with
  | nil => rfl
  | cons c t ih =>
    obtain ⟨k, b⟩ := c
    simp only [Memory.wfFrom, Bool.and_eq_true, decide_eq_true_eq] at w
    rw [List.filter_cons]
    split
    · simp only [Memory.wfFrom, Bool.and_eq_true, decide_eq_true_eq]
      exact ⟨w.1, ih w.2⟩
    · exact Memory.wfFrom_mono (by omega) (ih w.2)

/-- Dropping what memory lists keeps the canonical form. -/
theorem Memory.wf_filter {m : Memory} (w : m.wf = true) (p : Host.Cell → Bool) :
    Memory.wf (m.filter p) = true := Memory.wfFrom_filter w p

theorem Memory.wf_nil : Memory.wf [] = true := rfl

/-! ## The operations that write memory -/

@[simp] theorem State.homeWrite_mem (s : State) (cs : List (Nat × Byte)) : (s.homeWrite cs).mem = s.mem.setAll cs := rfl

/-- A write at the homes keeps the canonical form. -/
theorem State.wf_homeWrite {s : State} (w : s.mem.wf = true) (cs : List (Nat × Byte)) : (s.homeWrite cs).mem.wf = true :=
  Memory.wf_setAll w cs

end Sys2Proof.Machine
end

