-- ==== Sys2Proof/Laws/Inv.lean ====
section
/-! SUPPORT. Every operation keeps the invariant: one lemma for each operation that a meaning is made of. -/

namespace Sys2Proof.Machine

/-- What an operation that may not happen leads to. -/
def OptInv (o : Option State) : Prop := ∀ t, o = some t → t.Inv

theorem optInv_none : OptInv none := fun _ e => by cases e
theorem optInv_some {s : State} (h : s.Inv) : OptInv (some s) := fun _ e => by cases e; exact h
theorem optInv_get {o : Option State} {t : State} (e : o = some t) (h : OptInv o) : t.Inv := h t e
theorem optInv_map {α : Type} {o : Option α} {f : α → State} (h : ∀ a, o = some a → (f a).Inv) :
    OptInv (o.map f) := fun t e => by
  cases o with
  | none => cases e
  | some a => cases e; exact h a rfl
theorem optInv_bind {α : Type} {o : Option α} {f : α → Option State} (h : ∀ a, OptInv (f a)) : OptInv (o.bind f) :=
  fun t e => by
    cases o with
    | none => cases e
    | some a => exact h a t e
theorem optInv_orElse {o : Option State} {f : Unit → Option State} (h : OptInv o) (k : OptInv (f ())) :
    OptInv (o.orElse f) := fun t e => by
  cases o with
  | none => exact k t e
  | some a => cases e; exact h _ rfl
theorem optInv_findSome {α : Type} {l : List α} {f : α → Option State} (h : ∀ a, OptInv (f a)) :
    OptInv (l.findSome? f) := fun t e => by
  induction l with
  | nil => cases e
  | cons a l ih =>
    rw [List.findSome?_cons] at e
    split at e
    · cases e; exact h a _ ‹_›
    · exact ih e
theorem getD_inv {o : Option State} {s : State} (h : s.Inv) (k : OptInv o) : (o.getD s).Inv := by
  cases o with
  | none => exact h
  | some t => exact k t rfl
theorem foldl_inv {α : Type} {f : State → α → State} {l : List α} {s : State} (h : s.Inv)
    (hf : ∀ s a, s.Inv → (f s a).Inv) : (l.foldl f s).Inv := by
  induction l generalizing s with
  | nil => exact h
  | cons a l ih => exact ih (hf s a h)
theorem foldr_inv {α : Type} {f : α → State → State} {l : List α} {s : State} (h : s.Inv)
    (hf : ∀ s a, s.Inv → (f a s).Inv) : (l.foldr f s).Inv := by
  induction l with
  | nil => exact h
  | cons a l ih => exact hf _ _ ih

/-- An update that leaves memory and the host's parameters alone. -/
theorem State.inv_of_eq {s t : State} (h : s.Inv) (m : t.mem = s.mem) (a : t.steplen = s.steplen) (b
    : t.pcap = s.pcap)
    (c : t.shootWait = s.shootWait) (d : t.ftper = s.ftper) : t.Inv := by
  unfold State.Inv at *; rw [m, a, b, c, d]; exact h

/-- A state written field by field that has the memory and the host's parameters of another. -/
theorem State.inv_mk {s : State}
    {a0 a1 a2 a3 a4 a5 a6 a7 a8 a9 a10 a11 a12 a13 a14 a15 a16 a17 a18 a19 a20 a21 a22 a23 a24 a25 a26 a27 a28 a29 a30 a31 a32 a33 a34 a35 a36 a37 a38 a39 a40 a41 a42 a43 a44 a45 a46 a47 a48 a49 a50 a51 a52 a53 a54 a55 a56 a57 a58 a59 a60 a61 a62 a63 a64 a65 a66 a67 a68}
    (h : s.Inv) (m : a0 = s.mem) (a : a54 = s.steplen) (b : a50 = s.pcap)
    (c : a52 = s.shootWait) (d : a53 = s.ftper) :
    (State.mk a0 a1 a2 a3 a4 a5 a6 a7 a8 a9 a10 a11 a12 a13 a14 a15 a16 a17 a18 a19 a20 a21 a22 a23 a24 a25 a26 a27 a28 a29 a30 a31 a32 a33 a34 a35 a36 a37 a38 a39 a40 a41 a42 a43 a44 a45 a46 a47 a48 a49 a50 a51 a52 a53 a54 a55 a56 a57 a58 a59 a60 a61 a62 a63 a64 a65 a66 a67 a68).Inv := by
  unfold State.Inv at *; dsimp only; rw [m, a, b, c, d]; exact h

/-- A state written field by field with memory in its canonical form and the host's parameters of another. -/
theorem State.inv_mem {s : State}
    {a0 a1 a2 a3 a4 a5 a6 a7 a8 a9 a10 a11 a12 a13 a14 a15 a16 a17 a18 a19 a20 a21 a22 a23 a24 a25 a26 a27 a28 a29 a30 a31 a32 a33 a34 a35 a36 a37 a38 a39 a40 a41 a42 a43 a44 a45 a46 a47 a48 a49 a50 a51 a52 a53 a54 a55 a56 a57 a58 a59 a60 a61 a62 a63 a64 a65 a66 a67 a68}
    (h : s.Inv) (m : a0.wf = true) (a : a54 = s.steplen) (b : a50 = s.pcap)
    (c : a52 = s.shootWait) (d : a53 = s.ftper) :
    (State.mk a0 a1 a2 a3 a4 a5 a6 a7 a8 a9 a10 a11 a12 a13 a14 a15 a16 a17 a18 a19 a20 a21 a22 a23 a24 a25 a26 a27 a28 a29 a30 a31 a32 a33 a34 a35 a36 a37 a38 a39 a40 a41 a42 a43 a44 a45 a46 a47 a48 a49 a50 a51 a52 a53 a54 a55 a56 a57 a58 a59 a60 a61 a62 a63 a64 a65 a66 a67 a68).Inv := by
  unfold State.Inv at *; dsimp only; rw [a, b, c, d]; exact ⟨m, h.2⟩

/-- What a check answers. -/
def CheckInv (c : Check) : Prop := ∀ loc t, c = .ok loc t → t.Inv
theorem checkInv_get {c : Check} {loc : Nat} {t : State} (e : c = .ok loc t) (h : CheckInv c) : t.Inv := h loc t e
theorem checkInv_ok {loc : Nat} {s : State} (h : s.Inv) : CheckInv (.ok loc s) := fun _ _ e => by cases e; exact h
theorem checkInv_trap {c : Cause} : CheckInv (.trap c) := fun _ _ e => by cases e
theorem checkInv_park {n : Nat} : CheckInv (.park n) := fun _ _ e => by cases e
theorem checkInv_away {a b : Nat} : CheckInv (.away a b) := fun _ _ e => by cases e
theorem checkInv_stall {w : Bool} : CheckInv (.stall w) := fun _ _ e => by cases e
/-- What a pair's state keeps. -/
def PairInv {α : Type} (p : α × State) : Prop := p.2.Inv
theorem pairInv_get {α : Type} {p : α × State} {a : α} {t : State} (e : p = (a, t)) (h : PairInv p) : t.Inv := by
  rw [e] at h; exact h
theorem pairInv_mk {α : Type} {a : α} {t : State} (h : t.Inv) : PairInv (a, t) := h
def LeftInv {α : Type} (p : State × α) : Prop := p.1.Inv
theorem leftInv_get {α : Type} {p : State × α} {a : α} {t : State} (e : p = (t, a)) (h : LeftInv p) : t.Inv := by
  rw [e] at h; exact h
theorem leftInv_mk {α : Type} {a : α} {t : State} (h : t.Inv) : LeftInv (t, a) := h
/-- What the action of a packet keeps. -/
def ActInv : Act → Prop
  | .done s => s.Inv
  | .fail _ s => s.Inv
theorem actInv_done {s : State} (h : s.Inv) : ActInv (.done s) := h
theorem actInv_fail {e : Nat} {s : State} (h : s.Inv) : ActInv (.fail e s) := h
theorem actInv_get_done {a : Act} {s : State} (e : a = .done s) (h : ActInv a) : s.Inv := by rw [e] at h; exact h
theorem actInv_get_fail {a : Act} {s : State} {n : Nat} (e : a = .fail n s) (h : ActInv a) : s.Inv := by
  rw [e] at h; exact h

/-- What the accesses of an engine entry keep. -/
def VAccInv : VAcc → Prop
  | .ok _ s => s.Inv
  | .trap _ _ s => s.Inv
  | _ => True
theorem vaccInv_ok {l : List (Nat × Nat × Nat)} {s : State} (h : s.Inv) : VAccInv (.ok l s) := h
theorem vaccInv_trap {c : Cause} {va : Nat} {s : State} (h : s.Inv) : VAccInv (.trap c va s) := h
theorem vaccInv_park {va n : Nat} : VAccInv (.park va n) := trivial
theorem vaccInv_away {a b : Nat} : VAccInv (.away a b) := trivial
theorem vaccInv_stall {w : Bool} : VAccInv (.stall w) := trivial
theorem vaccInv_get {a : VAcc} {l : List (Nat × Nat × Nat)} {s : State} (e : a = .ok l s) (h : VAccInv a) : s.Inv
    := by
  rw [e] at h; exact h
theorem vaccInv_get_trap {a : VAcc} {c : Cause} {va : Nat} {s : State} (e : a = .trap c va s) (h : VAccInv a) :
    s.Inv := by
  rw [e] at h; exact h
/-- What the accesses of a copy or matrix entry keep. -/
def AccInv : CAcc → Prop
  | .ok _ s => s.Inv
  | .trap _ _ s => s.Inv
  | _ => True
theorem accInv_ok {l : List (Nat × Nat)} {s : State} (h : s.Inv) : AccInv (.ok l s) := h
theorem accInv_trap {c : Cause} {va : Nat} {s : State} (h : s.Inv) : AccInv (.trap c va s) := h
theorem accInv_park {va n : Nat} : AccInv (.park va n) := trivial
theorem accInv_away {a b : Nat} : AccInv (.away a b) := trivial
theorem accInv_stall {w : Bool} : AccInv (.stall w) := trivial
theorem accInv_get {a : CAcc} {l : List (Nat × Nat)} {s : State} (e : a = .ok l s) (h : AccInv a) : s.Inv := by
  rw [e] at h; exact h
/-- What a part of an engine entry keeps. -/
def StepInv : CStep → Prop
  | .go s => s.Inv
  | .trap _ _ s => s.Inv
  | _ => True
theorem stepInv_go {s : State} (h : s.Inv) : StepInv (.go s) := h
theorem stepInv_trap {c : Cause} {va : Nat} {s : State} (h : s.Inv) : StepInv (.trap c va s) := h
theorem stepInv_park {va n : Nat} : StepInv (.park va n) := trivial
theorem stepInv_away {a b : Nat} : StepInv (.away a b) := trivial
theorem stepInv_stall {w : Bool} : StepInv (.stall w) := trivial
theorem stepInv_of_go {s : State} (h : StepInv (.go s)) : s.Inv := h
theorem stepInv_of_trap {c : Cause} {va : Nat} {s : State} (h : StepInv (.trap c va s)) : s.Inv := h

/-- What a part of an engine entry keeps, where there is one. -/
def OptStepInv {α : Type} (o : Option (α × CStep)) : Prop := ∀ y, o = some y → StepInv y.2
theorem optStepInv_none {α : Type} : OptStepInv (none : Option (α × CStep)) := fun _ e => by cases e
theorem optStepInv_some {α : Type} {a : α} {x : CStep} (h : StepInv x) : OptStepInv (some (a, x)) :=
  fun _ e => by cases e; exact h
theorem optStepInv_map {α β : Type} {o : Option α} {f : α → β × CStep} (h : ∀ a, StepInv (f a).2) :
    OptStepInv (o.map f) := fun y e => by
  cases o with
  | none => cases e
  | some a => cases e; exact h a
theorem pairInv_snd {α : Type} {p : α × State} (h : PairInv p) : p.2.Inv := h
theorem leftInv_fst {α : Type} {p : State × α} (h : LeftInv p) : p.1.Inv := h

theorem State.setCore_inv {s : State} (h : s.Inv) (g : Nat) (c : Core) : (State.setCore s g c).Inv := by
  unfold State.setCore
  repeat' first
      | with_reducible assumption | with_reducible intro _
      | (with_reducible refine State.inv_mk ?_ rfl rfl rfl rfl rfl; first | with_reducible assumption) | dsimp only

theorem State.modCore_inv {s : State} (h : s.Inv) (g : Nat) (f : Core → Core) : (State.modCore s g f).Inv := by
  unfold State.modCore
  repeat' first
      | with_reducible assumption | with_reducible intro _ | with_reducible apply State.setCore_inv | dsimp only

theorem State.setSlot_inv {s : State} (h : s.Inv) (r : SlotRef) (l : Slot) : (State.setSlot s r l).Inv := by
  unfold State.setSlot
  repeat' first
      | with_reducible assumption | with_reducible intro _ | with_reducible apply State.setCore_inv | dsimp only

theorem State.modSlot_inv {s : State} (h : s.Inv) (r : SlotRef) (f : Slot → Slot) : (State.modSlot s r f).Inv := by
  unfold State.modSlot
  repeat' first
      | with_reducible assumption | with_reducible intro _ | with_reducible apply State.setSlot_inv | dsimp only

theorem State.mapSlot_inv {s : State} (h : s.Inv) (f : Slot → Slot) : (State.mapSlot s f).Inv := by
  unfold State.mapSlot
  repeat' first
      | with_reducible assumption | with_reducible intro _ | with_reducible apply State.modSlot_inv | dsimp only

theorem State.modDie_inv {s : State} (h : s.Inv) (d : Nat) (f : Die → Die) : (State.modDie s d f).Inv := by
  unfold State.modDie
  repeat' first
      | with_reducible assumption | with_reducible intro _
      | (with_reducible refine State.inv_mk ?_ rfl rfl rfl rfl rfl; first | with_reducible assumption) | dsimp only

theorem State.modCluster_inv {s : State} (h : s.Inv) (k : Nat) (f : Cluster → Cluster) :
    (State.modCluster s k f).Inv := by
  unfold State.modCluster
  repeat' first
      | with_reducible assumption | with_reducible intro _
      | (with_reducible refine State.inv_mk ?_ rfl rfl rfl rfl rfl; first | with_reducible assumption) | dsimp only

theorem State.modQueue_inv {s : State} (h : s.Inv) (q : Nat) (f : Queue → Queue) : (State.modQueue s q f).Inv := by
  unfold State.modQueue
  repeat' first
      | with_reducible assumption | with_reducible intro _
      | (with_reducible refine State.inv_mk ?_ rfl rfl rfl rfl rfl; first | with_reducible assumption) | dsimp only

theorem State.modLaunch_inv {s : State} (h : s.Inv) (l : Nat) (f : Launch → Launch) :
    (State.modLaunch s l f).Inv := by
  unfold State.modLaunch
  repeat' first
      | with_reducible assumption | with_reducible intro _
      | (with_reducible refine State.inv_mk ?_ rfl rfl rfl rfl rfl; first | with_reducible assumption) | dsimp only

theorem State.modGang_inv {s : State} (h : s.Inv) (l : Nat) (g : Nat) (f : Gang → Gang) :
    (State.modGang s l g f).Inv := by
  unfold State.modGang
  repeat' first
      | with_reducible assumption | with_reducible intro _ | with_reducible apply State.modLaunch_inv
      | (with_reducible refine State.inv_mk ?_ rfl rfl rfl rfl rfl; first | with_reducible assumption | with_reducible apply State.modLaunch_inv)
      | dsimp only

theorem State.modLink_inv {s : State} (h : s.Inv) (n : Nat) (f : Link → Link) : (State.modLink s n f).Inv := by
  unfold State.modLink
  repeat' first
      | with_reducible assumption | with_reducible intro _
      | (with_reducible refine State.inv_mk ?_ rfl rfl rfl rfl rfl; first | with_reducible assumption) | dsimp only

theorem State.modFcore_inv {s : State} (h : s.Inv) (n : Nat) (f : FCore → FCore) : (State.modFcore s n f).Inv := by
  unfold State.modFcore
  repeat' first
      | with_reducible assumption | with_reducible intro _
      | (with_reducible refine State.inv_mk ?_ rfl rfl rfl rfl rfl; first | with_reducible assumption) | dsimp only

theorem State.wx_inv {s : State} (h : s.Inv) (r : XReg) (v : W64) : (State.wx s r v).Inv := by
  unfold State.wx
  repeat' first
      | with_reducible assumption | with_reducible intro _ | with_reducible apply State.mapSlot_inv
      | with_reducible apply optInv_map | dsimp only

theorem State.wp_inv {s : State} (h : s.Inv) (r : PReg) (v : Bool) : (State.wp s r v).Inv := by
  unfold State.wp
  repeat' first
      | with_reducible assumption | with_reducible intro _ | with_reducible apply State.mapSlot_inv
      | with_reducible apply optInv_map | dsimp only

theorem State.rebase_inv {s : State} (h : s.Inv) (k : Nat) : (State.rebase s k).Inv := by
  unfold State.rebase
  repeat' first
      | with_reducible assumption | with_reducible intro _ | with_reducible apply State.modCluster_inv
      | (with_reducible refine State.inv_mk ?_ rfl rfl rfl rfl rfl; first | with_reducible assumption | with_reducible apply State.modCluster_inv)
      | dsimp only

theorem State.rebaseDie_inv {s : State} (h : s.Inv) (d : Nat) : (State.rebaseDie s d).Inv := by
  unfold State.rebaseDie
  repeat' first
      | with_reducible assumption | with_reducible intro _ | with_reducible apply State.rebase_inv
      | with_reducible apply foldl_inv | dsimp only

theorem State.release_inv {s : State} (h : s.Inv) (k : Nat) : (State.release s k).Inv := by
  unfold State.release
  repeat' first
      | with_reducible assumption | with_reducible intro _ | with_reducible apply State.modCluster_inv
      | (with_reducible refine State.inv_mk ?_ rfl rfl rfl rfl rfl; first | with_reducible assumption | with_reducible apply State.modCluster_inv)
      | split | dsimp only

theorem State.standStill_inv {s : State} (h : s.Inv) (k : Nat) (n : Nat) : (State.standStill s k n).Inv := by
  unfold State.standStill
  repeat' first
      | with_reducible assumption | with_reducible intro _ | with_reducible apply State.modCluster_inv
      | with_reducible apply optInv_map
      | (with_reducible refine State.inv_mk ?_ rfl rfl rfl rfl rfl; first | with_reducible assumption | with_reducible apply State.modCluster_inv)
      | split | dsimp only

theorem State.free_inv {s : State} (h : s.Inv) : PairInv s.free := h

theorem State.freeAs_inv {s : State} (h : s.Inv) (r : SlotRef) (kind : Nat) (ord : Nat) :
    PairInv (State.freeAs s r kind ord) := by
  unfold State.freeAs
  dsimp only
  split
  · exact h
  · exact h

theorem State.freeFor_inv {s : State} (h : s.Inv) (r : SlotRef) (own : Bool) : PairInv (State.freeFor s r own) := by
  unfold State.freeFor
  repeat' first
      | with_reducible assumption | with_reducible intro _ | with_reducible apply State.freeAs_inv
      | with_reducible apply State.modSlot_inv | with_reducible apply pairInv_mk | with_reducible apply pairInv_mk
      | with_reducible apply pairInv_snd | with_reducible refine pairInv_get (by assumption) ?_
      | (with_reducible refine State.inv_mk ?_ rfl rfl rfl rfl rfl; first | with_reducible assumption | with_reducible apply State.modSlot_inv)
      | split | dsimp only

theorem State.wakeAll_inv {s : State} (h : s.Inv) : (State.wakeAll s).Inv := by
  unfold State.wakeAll
  repeat' first
      | with_reducible assumption | with_reducible intro _ | with_reducible apply optInv_map
      | (with_reducible refine State.inv_mk ?_ rfl rfl rfl rfl rfl; first | with_reducible assumption) | dsimp only

theorem State.land_inv {s : State} (h : s.Inv) (cells : List (Nat × Byte)) (left : List Over) :
    (s.land cells left).Inv := ⟨Memory.wf_setAll h.1 cells, h.2⟩

theorem State.carry_inv {s : State} (h : s.Inv) (stamp : Option (Nat × BitVec 8)) (cells : List (Nat × Byte)) :
    (State.carry s stamp cells).Inv := by
  unfold State.carry
  repeat' first
      | with_reducible assumption | with_reducible intro _
      | (with_reducible refine State.inv_mk ?_ rfl rfl rfl rfl rfl; first | with_reducible assumption) | dsimp only

theorem State.hostCall_inv {s : State} (h : s.Inv) (r : SlotRef) (unit : Nat) (loc : Nat) (b : FlitBody) :
    (State.hostCall s r unit loc b).Inv := by
  unfold State.hostCall
  repeat' first
      | with_reducible assumption | with_reducible intro _
      | (with_reducible refine State.inv_mk ?_ rfl rfl rfl rfl rfl; first | with_reducible assumption) | dsimp only

theorem State.askHost_inv {s : State} (h : s.Inv) (r : SlotRef) (unit : Nat) (loc : Nat) :
    (State.askHost s r unit loc).Inv := by
  unfold State.askHost
  repeat' first
      | with_reducible assumption | with_reducible intro _ | with_reducible apply State.hostCall_inv | split
      | dsimp only

theorem State.askOnce_inv {s : State} (h : s.Inv) (r : SlotRef) (unit : Nat) (loc : Nat) :
    OptInv (State.askOnce s r unit loc) := by
  unfold State.askOnce
  repeat' first
      | with_reducible assumption | with_reducible intro _ | with_reducible apply State.askHost_inv
      | with_reducible apply optInv_none | with_reducible apply optInv_some | split | dsimp only

theorem State.doneHost_inv {s : State} (h : s.Inv) (r : SlotRef) (unit : Nat) : (State.doneHost s r unit).Inv := by
  unfold State.doneHost
  repeat' first
      | with_reducible assumption | with_reducible intro _
      | (with_reducible refine State.inv_mk ?_ rfl rfl rfl rfl rfl; first | with_reducible assumption) | dsimp only

theorem State.dropHost_inv {s : State} (h : s.Inv) (uid : Nat) : (State.dropHost s uid).Inv := by
  unfold State.dropHost
  repeat' first
      | with_reducible assumption | with_reducible intro _
      | (with_reducible refine State.inv_mk ?_ rfl rfl rfl rfl rfl; first | with_reducible assumption) | dsimp only

theorem State.homeWrite_inv {s : State} (h : s.Inv) (cells : List (Nat × Byte)) : (s.homeWrite cells).Inv :=
  ⟨Memory.wf_setAll h.1 cells, h.2⟩

theorem State.poke_inv {s : State} (h : s.Inv) (n : Nat) (k : Nat) (v : Nat) : (State.poke s n k v).Inv := by
  unfold State.poke
  repeat' first
      | with_reducible assumption | with_reducible intro _ | with_reducible apply State.homeWrite_inv | dsimp only

theorem State.firmWrite_inv {s : State} (h : s.Inv) (cells : List (Nat × Byte)) : (State.firmWrite s cells).Inv := by
  unfold State.firmWrite
  repeat' first
      | with_reducible assumption | with_reducible intro _ | with_reducible apply State.carry_inv
      | with_reducible apply State.homeWrite_inv | dsimp only

theorem State.flushBy_inv {s : State} (h : s.Inv) (p : Over → Bool) : (State.flushBy s p).Inv := by
  unfold State.flushBy
  repeat' first
      | with_reducible assumption | with_reducible intro _ | with_reducible apply State.land_inv
      | with_reducible apply optInv_map
      | (with_reducible refine State.inv_mk ?_ rfl rfl rfl rfl rfl; first | with_reducible assumption | with_reducible apply State.land_inv)
      | dsimp only

theorem State.flushOwn_inv {s : State} (h : s.Inv) (uid : Nat) : (State.flushOwn s uid).Inv := by
  unfold State.flushOwn
  repeat' first
      | with_reducible assumption | with_reducible intro _ | with_reducible apply State.flushBy_inv | dsimp only

theorem State.flushStopped_inv {s : State} (h : s.Inv) (uid : Nat) : (State.flushStopped s uid).Inv := by
  unfold State.flushStopped
  repeat' first
      | with_reducible assumption | with_reducible intro _ | with_reducible apply State.flushBy_inv | dsimp only

theorem State.publishAt_inv {s : State} (h : s.Inv) (r : SlotRef) (sc : Scope) : (State.publishAt s r sc).Inv := by
  unfold State.publishAt
  repeat' first
      | with_reducible assumption | with_reducible intro _ | with_reducible apply State.carry_inv
      | with_reducible apply State.flushBy_inv | with_reducible apply State.homeWrite_inv
      | with_reducible apply State.modSlot_inv | with_reducible apply optInv_map
      | (with_reducible refine State.inv_mk ?_ rfl rfl rfl rfl rfl; first | with_reducible assumption | with_reducible apply State.carry_inv | with_reducible apply State.flushBy_inv | with_reducible apply State.homeWrite_inv | with_reducible apply State.modSlot_inv)
      | split | dsimp only

theorem State.noteRead_inv {s : State} (h : s.Inv) (r : SlotRef) (n : Nat) : (State.noteRead s r n).Inv := by
  unfold State.noteRead
  repeat' first
      | with_reducible assumption | with_reducible intro _ | with_reducible apply State.modSlot_inv
      | (with_reducible refine State.inv_mk ?_ rfl rfl rfl rfl rfl; first | with_reducible assumption | with_reducible apply State.modSlot_inv)
      | split | dsimp only

theorem State.rereadBy_inv {s : State} (h : s.Inv) (r : SlotRef) (p : Nat → Bool) : (State.rereadBy s r p).Inv := by
  unfold State.rereadBy
  repeat' first
      | with_reducible assumption | with_reducible intro _ | with_reducible apply State.modSlot_inv
      | with_reducible apply optInv_map
      | (with_reducible refine State.inv_mk ?_ rfl rfl rfl rfl rfl; first | with_reducible assumption | with_reducible apply State.modSlot_inv)
      | split | dsimp only

theorem State.engWrite_inv {s : State} (h : s.Inv) (r : SlotRef) (queue : Nat) (ord : Nat) (cells : List (Nat × Nat × Byte)) :
    (State.engWrite s r queue ord cells).Inv := by
  unfold State.engWrite
  repeat' first
      | with_reducible assumption | with_reducible intro _ | with_reducible apply State.modSlot_inv
      | with_reducible apply State.rereadBy_inv | with_reducible apply optInv_map
      | (with_reducible refine State.inv_mk ?_ rfl rfl rfl rfl rfl; first | with_reducible assumption | with_reducible apply State.modSlot_inv | with_reducible apply State.rereadBy_inv)
      | dsimp only

theorem State.fwWrite_inv {s : State} (h : s.Inv) (root : W64) (va : Nat) (k : Nat) (v : Nat) :
    (State.fwWrite s root va k v).Inv := by
  unfold State.fwWrite
  repeat' first
      | with_reducible assumption | with_reducible intro _ | with_reducible apply State.firmWrite_inv
      | with_reducible apply optInv_map | dsimp only

theorem State.pin_inv {s : State} (h : s.Inv) (g : Nat) (off : Nat) : OptInv (State.pin s g off) := by
  unfold State.pin
  repeat' first
      | with_reducible assumption | with_reducible intro _ | with_reducible apply State.homeWrite_inv
      | with_reducible apply State.modCore_inv | with_reducible apply optInv_none | with_reducible apply optInv_some
      | (with_reducible refine State.inv_mk ?_ rfl rfl rfl rfl rfl; first | with_reducible assumption | with_reducible apply State.homeWrite_inv | with_reducible apply State.modCore_inv)
      | split | dsimp only

theorem checkInv_ite {c : Prop} [Decidable c] {a b : Check} (ha : CheckInv a) (hb : CheckInv b) :
    CheckInv (if c then a else b) := by split; exacts [ha, hb]

theorem State.checkLate_inv {s : State} (h : s.Inv) (r : SlotRef) (va : Nat) (loc : Nat) (n : Nat) (port : Option (Nat × Nat)) (k : Access) (m : Mode) :
    CheckInv (State.checkLate s r va loc n port k m) :=
  checkInv_ite (checkInv_ok h) <| checkInv_ite checkInv_stall <| checkInv_ite checkInv_trap <|
    checkInv_ite checkInv_stall <| checkInv_ite checkInv_stall <| checkInv_ite checkInv_away <|
    checkInv_ite checkInv_trap (checkInv_ok (by split; exacts [State.doneHost_inv h _ _, h]))

theorem State.touch_inv {s : State} (h : s.Inv) (g : Nat) (e : W64) (pteAt : Nat) (k : Access) :
    (State.touch s g e pteAt k).Inv := by
  unfold State.touch
  repeat' first
      | with_reducible assumption | with_reducible intro _ | with_reducible apply State.homeWrite_inv
      | with_reducible apply State.modCore_inv | with_reducible apply optInv_map
      | (with_reducible refine State.inv_mk ?_ rfl rfl rfl rfl rfl; first | with_reducible assumption | with_reducible apply State.homeWrite_inv | with_reducible apply State.modCore_inv)
      | split | dsimp only

theorem State.checkTranslated_inv {s : State} (h : s.Inv) (r : SlotRef) (va : Nat) (n : Nat) (k : Access) (m : Mode) :
    CheckInv (State.checkTranslated s r va n k m) := by
  unfold State.checkTranslated
  repeat' first
      | with_reducible assumption | with_reducible intro _ | with_reducible apply State.checkLate_inv
      | with_reducible apply State.modCore_inv | with_reducible apply State.touch_inv
      | with_reducible apply checkInv_ok | with_reducible apply checkInv_trap | with_reducible apply checkInv_park
      | with_reducible apply checkInv_stall | with_reducible apply checkInv_away | split | dsimp only

theorem State.check_inv {s : State} (h : s.Inv) (r : SlotRef) (va : Nat) (n : Nat) (k : Access) (m : Mode) :
    CheckInv (State.check s r va n k m) := by
  unfold State.check
  repeat' first
      | with_reducible assumption | with_reducible intro _ | with_reducible apply State.checkLate_inv
      | with_reducible apply State.checkTranslated_inv | with_reducible apply State.pin_inv
      | with_reducible apply checkInv_ok | with_reducible apply checkInv_trap | with_reducible apply checkInv_park
      | with_reducible apply checkInv_stall | with_reducible apply checkInv_away
      | with_reducible refine optInv_get (by assumption) ?_ | with_reducible refine checkInv_get (by assumption) ?_
      | split | dsimp only

theorem State.atHome_inv {s : State} (h : s.Inv) (r : SlotRef) (loc : Nat) (k : AtomicKind) :
    PairInv (State.atHome s r loc k) := by
  unfold State.atHome
  repeat' first
      | with_reducible assumption | with_reducible intro _ | with_reducible apply State.flushBy_inv
      | with_reducible apply State.land_inv | with_reducible apply State.rereadBy_inv
      | with_reducible apply pairInv_mk | split | dsimp only

theorem State.atomicAway_inv {s : State} (h : s.Inv) (r : SlotRef) (d : XReg) (loc : Nat) (k : AtomicKind) (fresh : Bool) :
    (State.atomicAway s r d loc k fresh).Inv := by
  unfold State.atomicAway
  repeat' first
      | with_reducible assumption | with_reducible intro _ | with_reducible apply State.flushBy_inv
      | with_reducible apply State.hostCall_inv | with_reducible apply State.modSlot_inv
      | (with_reducible refine State.inv_mk ?_ rfl rfl rfl rfl rfl; first | with_reducible assumption | with_reducible apply State.flushBy_inv | with_reducible apply State.hostCall_inv | with_reducible apply State.modSlot_inv)
      | dsimp only

theorem State.finishAtomic_inv {s : State} (h : s.Inv) (r : SlotRef) : OptInv (State.finishAtomic s r) := by
  unfold State.finishAtomic
  repeat' first
      | with_reducible assumption | with_reducible intro _ | with_reducible apply State.atHome_inv
      | with_reducible apply State.atomicAway_inv | with_reducible apply State.modSlot_inv
      | with_reducible apply State.wx_inv | with_reducible apply optInv_none | with_reducible apply optInv_some
      | with_reducible apply pairInv_mk | with_reducible apply pairInv_snd
      | with_reducible refine pairInv_get (by assumption) ?_ | split | dsimp only

theorem State.performAtomic_inv {s : State} (h : s.Inv) (r : SlotRef) : OptInv (State.performAtomic s r) := by
  unfold State.performAtomic
  repeat' first
      | with_reducible assumption | with_reducible intro _ | with_reducible apply State.finishAtomic_inv
      | with_reducible apply optInv_none | with_reducible apply optInv_some
      | with_reducible refine optInv_get (by assumption) ?_ | split | dsimp only

theorem State.woken_inv {s : State} (h : s.Inv) (n : Nat) : (State.woken s n).Inv := by
  unfold State.woken
  repeat' first
      | with_reducible assumption | with_reducible intro _
      | (with_reducible refine State.inv_mk ?_ rfl rfl rfl rfl rfl; first | with_reducible assumption) | split
      | dsimp only

theorem State.ring_inv {s : State} (h : s.Inv) (q : Nat) (b : BitVec 7) : (State.ring s q b).Inv := by
  unfold State.ring
  repeat' first
      | with_reducible assumption | with_reducible intro _ | with_reducible apply State.modFcore_inv
      | with_reducible apply State.woken_inv | split | dsimp only

theorem State.syncQueue_inv {s : State} (h : s.Inv) (q : Nat) : (State.syncQueue s q).Inv := by
  unfold State.syncQueue
  repeat' first
      | with_reducible assumption | with_reducible intro _ | with_reducible apply State.firmWrite_inv
      | with_reducible apply State.modQueue_inv
      | (with_reducible refine State.inv_mk ?_ rfl rfl rfl rfl rfl; first | with_reducible assumption | with_reducible apply State.firmWrite_inv | with_reducible apply State.modQueue_inv)
      | split | dsimp only

theorem State.failQueue_inv {s : State} (h : s.Inv) (q : Nat) (e : Nat) : (State.failQueue s q e).Inv := by
  unfold State.failQueue
  repeat' first
      | with_reducible assumption | with_reducible intro _ | with_reducible apply State.modQueue_inv
      | with_reducible apply State.syncQueue_inv
      | (with_reducible refine State.inv_mk ?_ rfl rfl rfl rfl rfl; first | with_reducible assumption | with_reducible apply State.modQueue_inv | with_reducible apply State.syncQueue_inv)
      | dsimp only

theorem State.postEvent_inv {s : State} (h : s.Inv) (q : Nat) (e : Event) : (State.postEvent s q e).Inv := by
  unfold State.postEvent
  repeat' first
      | with_reducible assumption | with_reducible intro _ | with_reducible apply State.firmWrite_inv
      | with_reducible apply State.modQueue_inv | with_reducible apply State.syncQueue_inv
      | (with_reducible refine State.inv_mk ?_ rfl rfl rfl rfl rfl; first | with_reducible assumption | with_reducible apply State.firmWrite_inv | with_reducible apply State.modQueue_inv | with_reducible apply State.syncQueue_inv)
      | split | dsimp only

theorem State.snapEvent_inv {s : State} (h : s.Inv) (bit : Nat) : (State.snapEvent s bit).Inv := by
  unfold State.snapEvent
  repeat' first
      | with_reducible assumption | with_reducible intro _
      | (with_reducible refine State.inv_mk ?_ rfl rfl rfl rfl rfl; first | with_reducible assumption) | split
      | dsimp only

theorem State.faultEvent_inv {s : State} (h : s.Inv) (q : Nat) (e : Event) : (State.faultEvent s q e).Inv := by
  unfold State.faultEvent
  repeat' first
      | with_reducible assumption | with_reducible intro _ | with_reducible apply State.postEvent_inv
      | with_reducible apply State.ring_inv | with_reducible apply State.snapEvent_inv | dsimp only

theorem State.putStatus_inv {s : State} (h : s.Inv) (n : Nat) : (State.putStatus s n).Inv := by
  unfold State.putStatus
  repeat' first
      | with_reducible assumption | with_reducible intro _ | with_reducible apply State.fwWrite_inv
      | with_reducible apply foldl_inv | dsimp only

theorem State.setLaunchState_inv {s : State} (h : s.Inv) (n : Nat) (st : Nat) (err : Nat) :
    (State.setLaunchState s n st err).Inv := by
  unfold State.setLaunchState
  repeat' first
      | with_reducible assumption | with_reducible intro _ | with_reducible apply State.modLaunch_inv
      | with_reducible apply State.putStatus_inv
      | (with_reducible refine State.inv_mk ?_ rfl rfl rfl rfl rfl; first | with_reducible assumption | with_reducible apply State.modLaunch_inv | with_reducible apply State.putStatus_inv)
      | dsimp only

theorem State.setTcbState_inv {s : State} (h : s.Inv) (n : Nat) (i : Nat) (st : Nat) :
    (State.setTcbState s n i st).Inv := by
  unfold State.setTcbState
  repeat' first
      | with_reducible assumption | with_reducible intro _ | with_reducible apply State.fwWrite_inv | dsimp only

theorem State.answerGang_inv {s : State} (h : s.Inv) (n : Nat) (r : SlotRef) : (State.answerGang s n r).Inv := by
  unfold State.answerGang
  repeat' first
      | with_reducible assumption | with_reducible intro _ | with_reducible apply State.modSlot_inv
      | (with_reducible refine State.inv_mk ?_ rfl rfl rfl rfl rfl; first | with_reducible assumption | with_reducible apply State.modSlot_inv)
      | dsimp only

theorem State.admitJoiners_inv {s : State} (h : s.Inv) (n : Nat) (g : Nat) : (State.admitJoiners s n g).Inv := by
  unfold State.admitJoiners
  repeat' first
      | with_reducible assumption | with_reducible intro _ | with_reducible apply State.answerGang_inv
      | with_reducible apply State.modGang_inv | with_reducible apply State.modSlot_inv
      | with_reducible apply foldl_inv | with_reducible apply optInv_map
      | (with_reducible refine State.inv_mk ?_ rfl rfl rfl rfl rfl; first | with_reducible assumption | with_reducible apply State.answerGang_inv | with_reducible apply State.modGang_inv | with_reducible apply State.modSlot_inv | with_reducible apply foldl_inv)
      | split | dsimp only

theorem State.barStatus_inv {s : State} (h : s.Inv) (n : Nat) (g : Nat) (uid : Nat) (status : W64) :
    (State.barStatus s n g uid status).Inv := by
  unfold State.barStatus
  repeat' first
      | with_reducible assumption | with_reducible intro _ | with_reducible apply State.modGang_inv
      | with_reducible apply State.modSlot_inv
      | (with_reducible refine State.inv_mk ?_ rfl rfl rfl rfl rfl; first | with_reducible assumption | with_reducible apply State.modGang_inv | with_reducible apply State.modSlot_inv)
      | split | dsimp only

theorem State.closeGang_inv {s : State} (h : s.Inv) (n : Nat) (g : Nat) (status : W64) :
    (State.closeGang s n g status).Inv := by
  unfold State.closeGang
  repeat' first
      | with_reducible assumption | with_reducible intro _ | with_reducible apply State.admitJoiners_inv
      | with_reducible apply State.barStatus_inv | with_reducible apply State.modGang_inv
      | with_reducible apply foldl_inv
      | (with_reducible refine State.inv_mk ?_ rfl rfl rfl rfl rfl; first | with_reducible assumption | with_reducible apply State.admitJoiners_inv | with_reducible apply State.barStatus_inv | with_reducible apply State.modGang_inv | with_reducible apply foldl_inv)
      | dsimp only

theorem State.settleGang_inv {s : State} (h : s.Inv) (n : Nat) (g : Nat) : (State.settleGang s n g).Inv := by
  unfold State.settleGang
  repeat' first
      | with_reducible assumption | with_reducible intro _ | with_reducible apply State.closeGang_inv
      | with_reducible apply State.modGang_inv
      | (with_reducible refine State.inv_mk ?_ rfl rfl rfl rfl rfl; first | with_reducible assumption | with_reducible apply State.closeGang_inv | with_reducible apply State.modGang_inv)
      | split | dsimp only

theorem State.leaveGang_inv {s : State} (h : s.Inv) (n : Nat) (g : Nat) (uid : Nat) :
    (State.leaveGang s n g uid).Inv := by
  unfold State.leaveGang
  repeat' first
      | with_reducible assumption | with_reducible intro _ | with_reducible apply State.modGang_inv
      | with_reducible apply State.settleGang_inv
      | (with_reducible refine State.inv_mk ?_ rfl rfl rfl rfl rfl; first | with_reducible assumption | with_reducible apply State.modGang_inv | with_reducible apply State.settleGang_inv)
      | split | dsimp only

theorem State.leaveAll_inv {s : State} (h : s.Inv) (n : Nat) (uid : Nat) : (State.leaveAll s n uid).Inv := by
  unfold State.leaveAll
  repeat' first
      | with_reducible assumption | with_reducible intro _ | with_reducible apply State.leaveGang_inv
      | with_reducible apply foldl_inv | dsimp only

theorem State.breakGang_inv {s : State} (h : s.Inv) (n : Nat) (g : Nat) (uid : Nat) :
    (State.breakGang s n g uid).Inv := by
  unfold State.breakGang
  repeat' first
      | with_reducible assumption | with_reducible intro _ | with_reducible apply State.closeGang_inv
      | with_reducible apply State.modGang_inv
      | (with_reducible refine State.inv_mk ?_ rfl rfl rfl rfl rfl; first | with_reducible assumption | with_reducible apply State.closeGang_inv | with_reducible apply State.modGang_inv)
      | split | dsimp only

theorem State.freeSlot_inv {s : State} (h : s.Inv) (r : SlotRef) : (State.freeSlot s r).Inv := by
  unfold State.freeSlot
  repeat' first
      | with_reducible assumption | with_reducible intro _ | with_reducible apply State.modCore_inv
      | with_reducible apply State.modSlot_inv | with_reducible apply foldl_inv
      | (with_reducible refine State.inv_mk ?_ rfl rfl rfl rfl rfl; first | with_reducible assumption | with_reducible apply State.modCore_inv | with_reducible apply State.modSlot_inv | with_reducible apply foldl_inv)
      | split | dsimp only

theorem State.cancelAway_inv {s : State} (h : s.Inv) (r : SlotRef) : (State.cancelAway s r).Inv := by
  unfold State.cancelAway
  repeat' first
      | with_reducible assumption | with_reducible intro _ | with_reducible apply State.modSlot_inv
      | (with_reducible refine State.inv_mk ?_ rfl rfl rfl rfl rfl; first | with_reducible assumption | with_reducible apply State.modSlot_inv)
      | split | dsimp only

theorem State.withdraw_inv {s : State} (h : s.Inv) (u : Nat) : (State.withdraw s u).Inv := by
  unfold State.withdraw
  repeat' first
      | with_reducible assumption | with_reducible intro _ | with_reducible apply optInv_map
      | (with_reducible refine State.inv_mk ?_ rfl rfl rfl rfl rfl; first | with_reducible assumption) | split
      | dsimp only

theorem State.settleLadder_inv {s : State} (h : s.Inv) (q : Nat) : (State.settleLadder s q).Inv := by
  unfold State.settleLadder
  repeat' first
      | with_reducible assumption | with_reducible intro _ | with_reducible apply State.modQueue_inv
      | with_reducible apply State.syncQueue_inv
      | (with_reducible refine State.inv_mk ?_ rfl rfl rfl rfl rfl; first | with_reducible assumption | with_reducible apply State.modQueue_inv | with_reducible apply State.syncQueue_inv)
      | split | dsimp only

theorem State.removeTask_inv {s : State} (h : s.Inv) (r : SlotRef) : (State.removeTask s r).Inv := by
  unfold State.removeTask
  repeat' first
      | with_reducible assumption | with_reducible intro _ | with_reducible apply State.cancelAway_inv
      | with_reducible apply State.dropHost_inv | with_reducible apply State.flushOwn_inv
      | with_reducible apply State.freeSlot_inv | with_reducible apply State.modCore_inv
      | with_reducible apply State.settleLadder_inv | with_reducible apply State.withdraw_inv
      | with_reducible apply optInv_map
      | (with_reducible refine State.inv_mk ?_ rfl rfl rfl rfl rfl; first | with_reducible assumption | with_reducible apply State.cancelAway_inv | with_reducible apply State.dropHost_inv | with_reducible apply State.flushOwn_inv | with_reducible apply State.freeSlot_inv | with_reducible apply State.modCore_inv | with_reducible apply State.settleLadder_inv | with_reducible apply State.withdraw_inv)
      | dsimp only

theorem State.countEnd_inv {s : State} (h : s.Inv) (n : Nat) (fault : Bool) : (State.countEnd s n fault).Inv := by
  unfold State.countEnd
  repeat' first
      | with_reducible assumption | with_reducible intro _ | with_reducible apply State.modLaunch_inv
      | (with_reducible refine State.inv_mk ?_ rfl rfl rfl rfl rfl; first | with_reducible assumption | with_reducible apply State.modLaunch_inv)
      | split | dsimp only

theorem State.unpin_inv {s : State} (h : s.Inv) (n : Nat) : (State.unpin s n).Inv := by
  unfold State.unpin
  repeat' first
      | with_reducible assumption | with_reducible intro _ | with_reducible apply State.homeWrite_inv
      | with_reducible apply foldl_inv | dsimp only

theorem State.closeLaunch_inv {s : State} (h : s.Inv) (n : Nat) (st : Nat) (err : Nat) :
    (State.closeLaunch s n st err).Inv := by
  unfold State.closeLaunch
  repeat' first
      | with_reducible assumption | with_reducible intro _ | with_reducible apply State.modLaunch_inv
      | with_reducible apply State.ring_inv | with_reducible apply State.setLaunchState_inv
      | with_reducible apply State.syncQueue_inv | with_reducible apply State.unpin_inv
      | with_reducible apply foldl_inv | with_reducible apply optInv_map
      | (with_reducible refine State.inv_mk ?_ rfl rfl rfl rfl rfl; first | with_reducible assumption | with_reducible apply State.modLaunch_inv | with_reducible apply State.ring_inv | with_reducible apply State.setLaunchState_inv | with_reducible apply State.syncQueue_inv | with_reducible apply State.unpin_inv | with_reducible apply foldl_inv)
      | split | dsimp only

theorem State.endAborted_inv {s : State} (h : s.Inv) (r : SlotRef) : (State.endAborted s r).Inv := by
  unfold State.endAborted
  repeat' first
      | with_reducible assumption | with_reducible intro _ | with_reducible apply State.leaveAll_inv
      | with_reducible apply State.removeTask_inv | dsimp only

theorem State.abortLaunch_inv {s : State} (h : s.Inv) (n : Nat) (err : Nat) : (State.abortLaunch s n err).Inv := by
  unfold State.abortLaunch
  repeat' first
      | with_reducible assumption | with_reducible intro _ | with_reducible apply State.closeLaunch_inv
      | with_reducible apply State.endAborted_inv | with_reducible apply State.finishAtomic_inv
      | with_reducible apply State.flushBy_inv | with_reducible apply State.modSlot_inv
      | with_reducible apply foldl_inv | with_reducible apply getD_inv | with_reducible apply optInv_map
      | with_reducible refine optInv_get (by assumption) ?_
      | (with_reducible refine State.inv_mk ?_ rfl rfl rfl rfl rfl; first | with_reducible assumption | with_reducible apply State.closeLaunch_inv | with_reducible apply State.endAborted_inv | with_reducible apply State.flushBy_inv | with_reducible apply State.modSlot_inv | with_reducible apply foldl_inv | with_reducible apply getD_inv)
      | split | dsimp only

theorem State.releaseTcb_inv {s : State} (h : s.Inv) (n : Nat) (i : Nat) (d : Nat) :
    (State.releaseTcb s n i d).Inv := by
  unfold State.releaseTcb
  repeat' first
      | with_reducible assumption | with_reducible intro _ | with_reducible apply State.countEnd_inv
      | with_reducible apply State.faultEvent_inv | with_reducible apply State.fwWrite_inv
      | with_reducible apply State.modDie_inv | with_reducible apply State.setTcbState_inv
      | with_reducible apply getD_inv
      | (with_reducible refine State.inv_mk ?_ rfl rfl rfl rfl rfl; first | with_reducible assumption | with_reducible apply State.countEnd_inv | with_reducible apply State.faultEvent_inv | with_reducible apply State.fwWrite_inv | with_reducible apply State.modDie_inv | with_reducible apply State.setTcbState_inv | with_reducible apply getD_inv)
      | split | dsimp only

theorem State.readmit_inv {s : State} (h : s.Inv) (n : Nat) (l : Slot) : (State.readmit s n l).Inv := by
  unfold State.readmit
  repeat' first
      | with_reducible assumption | with_reducible intro _ | with_reducible apply State.fwWrite_inv
      | with_reducible apply State.modDie_inv | with_reducible apply State.setTcbState_inv
      | (with_reducible refine State.inv_mk ?_ rfl rfl rfl rfl rfl; first | with_reducible assumption | with_reducible apply State.fwWrite_inv | with_reducible apply State.modDie_inv | with_reducible apply State.setTcbState_inv)
      | split | dsimp only

theorem State.fatalTrap_inv {s : State} (h : s.Inv) (r : SlotRef) (t : PendTrap) (tpc : W64) (nested : Bool) :
    (State.fatalTrap s r t tpc nested).Inv := by
  unfold State.fatalTrap
  repeat' first
      | with_reducible assumption | with_reducible intro _ | with_reducible apply State.abortLaunch_inv
      | with_reducible apply State.breakGang_inv | with_reducible apply State.countEnd_inv
      | with_reducible apply State.faultEvent_inv | with_reducible apply State.readmit_inv
      | with_reducible apply State.removeTask_inv | with_reducible apply State.setTcbState_inv
      | with_reducible apply foldl_inv
      | (with_reducible refine State.inv_mk ?_ rfl rfl rfl rfl rfl; first | with_reducible assumption | with_reducible apply State.abortLaunch_inv | with_reducible apply State.breakGang_inv | with_reducible apply State.countEnd_inv | with_reducible apply State.faultEvent_inv | with_reducible apply State.readmit_inv | with_reducible apply State.removeTask_inv | with_reducible apply State.setTcbState_inv | with_reducible apply foldl_inv)
      | split | dsimp only

theorem State.takeTrap_inv {s : State} (h : s.Inv) (r : SlotRef) (t : PendTrap) (tpc : W64) :
    (State.takeTrap s r t tpc).Inv := by
  unfold State.takeTrap
  repeat' first
      | with_reducible assumption | with_reducible intro _ | with_reducible apply State.fatalTrap_inv
      | with_reducible apply State.modSlot_inv | split | dsimp only

theorem State.trap_inv {s : State} (h : s.Inv) (c : Cause) (tval : W64) (word : W32) :
    (State.trap s c tval word).Inv := by
  unfold State.trap
  repeat' first
      | with_reducible assumption | with_reducible intro _ | with_reducible apply State.takeTrap_inv | dsimp only

theorem State.trapOpen_inv {s : State} (h : s.Inv) (c : Cause) (word : W32) : (State.trapOpen s c word).Inv := by
  unfold State.trapOpen
  repeat' first
      | with_reducible assumption | with_reducible intro _ | with_reducible apply State.freeFor_inv
      | with_reducible apply State.trap_inv | with_reducible apply pairInv_mk | with_reducible apply pairInv_snd
      | with_reducible refine pairInv_get (by assumption) ?_ | dsimp only

theorem State.pendTrap_inv {s : State} (h : s.Inv) (r : SlotRef) (t : PendTrap) : (State.pendTrap s r t).Inv := by
  unfold State.pendTrap
  repeat' first
      | with_reducible assumption | with_reducible intro _ | with_reducible apply State.modSlot_inv
      | (with_reducible refine State.inv_mk ?_ rfl rfl rfl rfl rfl; first | with_reducible assumption | with_reducible apply State.modSlot_inv)
      | split | dsimp only

theorem State.pendEvent_inv {s : State} (h : s.Inv) (r : SlotRef) (c : Cause) (tval : W64) :
    (State.pendEvent s r c tval).Inv := by
  unfold State.pendEvent
  repeat' first
      | with_reducible assumption | with_reducible intro _ | with_reducible apply State.freeFor_inv
      | with_reducible apply State.modSlot_inv | with_reducible apply pairInv_mk | with_reducible apply pairInv_snd
      | with_reducible refine pairInv_get (by assumption) ?_
      | (with_reducible refine State.inv_mk ?_ rfl rfl rfl rfl rfl; first | with_reducible assumption | with_reducible apply State.modSlot_inv)
      | split | dsimp only

theorem State.retire_inv {s : State} (h : s.Inv) : (State.retire s).Inv := by
  unfold State.retire
  repeat' first
      | with_reducible assumption | with_reducible intro _ | with_reducible apply State.mapSlot_inv
      | with_reducible apply optInv_map | dsimp only

theorem State.jump_inv {s : State} (h : s.Inv) (a : W64) : (State.jump s a).Inv := by
  unfold State.jump
  repeat' first
      | with_reducible assumption | with_reducible intro _ | with_reducible apply State.mapSlot_inv
      | with_reducible apply optInv_map | dsimp only

theorem State.stallOn_inv {s : State} (h : s.Inv) (k : StallKind) : (State.stallOn s k).Inv := by
  unfold State.stallOn
  repeat' first
      | with_reducible assumption | with_reducible intro _ | with_reducible apply State.mapSlot_inv
      | with_reducible apply optInv_map
      | (with_reducible refine State.inv_mk ?_ rfl rfl rfl rfl rfl; first | with_reducible assumption | with_reducible apply State.mapSlot_inv)
      | dsimp only

theorem State.stallHere_inv {s : State} (h : s.Inv) : (State.stallHere s).Inv := by
  unfold State.stallHere
  repeat' first
      | with_reducible assumption | with_reducible intro _ | with_reducible apply State.stallOn_inv | dsimp only

theorem State.arm_inv {s : State} (h : s.Inv) (p : Park) : (State.arm s p).Inv := by
  unfold State.arm
  repeat' first
      | with_reducible assumption | with_reducible intro _
      | (with_reducible refine State.inv_mk ?_ rfl rfl rfl rfl rfl; first | with_reducible assumption) | split
      | dsimp only

theorem State.parkHere_inv {s : State} (h : s.Inv) (a : W64) (entry : Nat) : (State.parkHere s a entry).Inv := by
  unfold State.parkHere
  repeat' first
      | with_reducible assumption | with_reducible intro _ | with_reducible apply State.arm_inv
      | with_reducible apply State.mapSlot_inv | with_reducible apply optInv_map
      | (with_reducible refine State.inv_mk ?_ rfl rfl rfl rfl rfl; first | with_reducible assumption | with_reducible apply State.arm_inv | with_reducible apply State.mapSlot_inv)
      | dsimp only

theorem State.access_inv {s : State} (h : s.Inv) (va : W64) (n : Nat) (k : Access) (word : W32) (f : Nat → State → State) (hf_f : ∀ y0 y1, y1.Inv → (f y0 y1).Inv) :
    (State.access s va n k word f).Inv := by
  unfold State.access
  repeat' first
      | with_reducible assumption | with_reducible intro _ | with_reducible apply hf_f
      | with_reducible apply State.askHost_inv | with_reducible apply State.check_inv
      | with_reducible apply State.parkHere_inv | with_reducible apply State.stallOn_inv
      | with_reducible apply State.trap_inv | with_reducible refine checkInv_get (by assumption) ?_ | split
      | dsimp only

theorem State.aligned__inv {s : State} (h : s.Inv) (va : W64) (n : Nat) (k : Access) (word : W32) (f : Nat → State → State) (hf_f : ∀ y0 y1, y1.Inv → (f y0 y1).Inv) :
    (State.aligned_ s va n k word f).Inv := by
  unfold State.aligned_
  repeat' first
      | with_reducible assumption | with_reducible intro _ | with_reducible apply hf_f
      | with_reducible apply State.access_inv | with_reducible apply State.trap_inv | split | dsimp only

theorem State.joinPassed_inv {s : State} (h : s.Inv) (va : Nat) (n : Nat) : (State.joinPassed s va n).Inv := by
  unfold State.joinPassed
  repeat' first
      | with_reducible assumption | with_reducible intro _ | with_reducible apply State.mapSlot_inv
      | with_reducible apply optInv_map | dsimp only

theorem State.load_inv {s : State} (h : s.Inv) (va : W64) (n : Nat) (word : W32) (f : Nat → State → State) (hf_f : ∀ y0 y1, y1.Inv → (f y0 y1).Inv) :
    (State.load s va n word f).Inv := by
  unfold State.load
  repeat' first
      | with_reducible assumption | with_reducible intro _ | with_reducible apply hf_f
      | with_reducible apply State.aligned__inv | with_reducible apply State.joinPassed_inv
      | with_reducible apply State.noteRead_inv | dsimp only

theorem State.boundary_inv {s : State} (h : s.Inv) (r : SlotRef) (sc : Scope) : (State.boundary s r sc).Inv := by
  unfold State.boundary
  repeat' first
      | with_reducible assumption | with_reducible intro _ | with_reducible apply State.modCore_inv
      | with_reducible apply State.modSlot_inv | with_reducible apply State.publishAt_inv
      | with_reducible apply optInv_map
      | (with_reducible refine State.inv_mk ?_ rfl rfl rfl rfl rfl; first | with_reducible assumption | with_reducible apply State.modCore_inv | with_reducible apply State.modSlot_inv | with_reducible apply State.publishAt_inv)
      | dsimp only

theorem State.bufferStore_inv {s : State} (h : s.Inv) (loc : Nat) (n : Nat) (v : Nat) :
    (State.bufferStore s loc n v).Inv := by
  unfold State.bufferStore
  repeat' first
      | with_reducible assumption | with_reducible intro _ | with_reducible apply State.mapSlot_inv
      | with_reducible apply foldl_inv | with_reducible apply optInv_map
      | (with_reducible refine State.inv_mk ?_ rfl rfl rfl rfl rfl; first | with_reducible assumption | with_reducible apply State.mapSlot_inv | with_reducible apply foldl_inv)
      | split | dsimp only

theorem State.store_inv {s : State} (h : s.Inv) (va : W64) (n : Nat) (v : Nat) (word : W32) :
    (State.store s va n v word).Inv := by
  unfold State.store
  repeat' first
      | with_reducible assumption | with_reducible intro _ | with_reducible apply State.aligned__inv
      | with_reducible apply State.boundary_inv | with_reducible apply State.bufferStore_inv
      | with_reducible apply State.joinPassed_inv | with_reducible apply State.retire_inv
      | with_reducible apply State.trap_inv | split | dsimp only

theorem State.issueTo_inv {s : State} (h : s.Inv) (w : Which) (i : Instr) (ops : List W64) (f : QRec → QRec) :
    (State.issueTo s w i ops f).Inv := by
  unfold State.issueTo
  repeat' first
      | with_reducible assumption | with_reducible intro _ | with_reducible apply State.mapSlot_inv
      | with_reducible apply State.modCore_inv | with_reducible apply State.retire_inv
      | with_reducible apply State.stallHere_inv | with_reducible apply optInv_map | split | dsimp only

theorem State.parkRec_inv {s : State} (h : s.Inv) (g : Nat) (w : Which) (idx : Nat) (a : W64) (entry : Nat) :
    (State.parkRec s g w idx a entry).Inv := by
  unfold State.parkRec
  repeat' first
      | with_reducible assumption | with_reducible intro _ | with_reducible apply State.arm_inv
      | with_reducible apply State.modCore_inv
      | (with_reducible refine State.inv_mk ?_ rfl rfl rfl rfl rfl; first | with_reducible assumption | with_reducible apply State.arm_inv | with_reducible apply State.modCore_inv)
      | dsimp only

theorem State.cleanLine_inv {s : State} (h : s.Inv) (g : Nat) (line : Nat) : (State.cleanLine s g line).Inv := by
  unfold State.cleanLine
  repeat' first
      | with_reducible assumption | with_reducible intro _ | with_reducible apply State.flushBy_inv | split
      | dsimp only

theorem State.writeCheckpoint_inv {s : State} (h : s.Inv) (r : SlotRef) : (State.writeCheckpoint s r).Inv := by
  unfold State.writeCheckpoint
  repeat' first
      | with_reducible assumption | with_reducible intro _ | with_reducible apply State.homeWrite_inv
      | with_reducible apply State.modSlot_inv
      | (with_reducible refine State.inv_mk ?_ rfl rfl rfl rfl rfl; first | with_reducible assumption | with_reducible apply State.homeWrite_inv | with_reducible apply State.modSlot_inv)
      | dsimp only

theorem State.withName_inv {s : State} (h : s.Inv) (name : W64) (word : W32) (f : State → State) (hf_f : ∀ y0, y0.Inv → (f y0).Inv) :
    (State.withName s name word f).Inv := by
  unfold State.withName
  repeat' first
      | with_reducible assumption | with_reducible intro _ | with_reducible apply hf_f
      | with_reducible apply State.trap_inv | with_reducible apply State.trapOpen_inv | split | dsimp only

theorem State.postSem_inv {s : State} (h : s.Inv) (die : Nat) (o : SemOp) : (State.postSem s die o).Inv := by
  unfold State.postSem
  repeat' first
      | with_reducible assumption | with_reducible intro _ | with_reducible apply State.modDie_inv
      | (with_reducible refine State.inv_mk ?_ rfl rfl rfl rfl rfl; first | with_reducible assumption | with_reducible apply State.modDie_inv)
      | dsimp only

theorem State.occupy_inv {s : State} (h : s.Inv) (after : Nat) : (State.occupy s after).Inv := by
  unfold State.occupy
  repeat' first
      | with_reducible assumption | with_reducible intro _ | with_reducible apply State.mapSlot_inv
      | with_reducible apply optInv_map
      | (with_reducible refine State.inv_mk ?_ rfl rfl rfl rfl rfl; first | with_reducible assumption | with_reducible apply State.mapSlot_inv)
      | dsimp only

theorem State.sendSem_inv {s : State} (h : s.Inv) (name : W64) (k : SemKind) (after : Nat) :
    (State.sendSem s name k after).Inv := by
  unfold State.sendSem
  repeat' first
      | with_reducible assumption | with_reducible intro _ | with_reducible apply State.postSem_inv
      | (with_reducible refine State.inv_mk ?_ rfl rfl rfl rfl rfl; first | with_reducible assumption | with_reducible apply State.postSem_inv)
      | split | dsimp only

theorem State.noteAway_inv {s : State} (h : s.Inv) (name : W64) : (State.noteAway s name).Inv := by
  unfold State.noteAway
  repeat' first
      | with_reducible assumption | with_reducible intro _ | with_reducible apply State.mapSlot_inv
      | with_reducible apply optInv_map
      | (with_reducible refine State.inv_mk ?_ rfl rfl rfl rfl rfl; first | with_reducible assumption | with_reducible apply State.mapSlot_inv)
      | split | dsimp only

theorem State.waitFor_inv {s : State} (h : s.Inv) (w : Wait) : (State.waitFor s w).Inv := by
  unfold State.waitFor
  repeat' first
      | with_reducible assumption | with_reducible intro _ | with_reducible apply State.mapSlot_inv
      | with_reducible apply optInv_map
      | (with_reducible refine State.inv_mk ?_ rfl rfl rfl rfl rfl; first | with_reducible assumption | with_reducible apply State.mapSlot_inv)
      | dsimp only

theorem State.joinEnded_inv {s : State} (h : s.Inv) : (State.joinEnded s).Inv := by
  unfold State.joinEnded
  repeat' first
      | with_reducible assumption | with_reducible intro _ | with_reducible apply State.mapSlot_inv
      | with_reducible apply optInv_map | split | dsimp only

theorem State.engineWait_inv {s : State} (h : s.Inv) (met : Bool) (joins : Nat → Bool) (word : W32) (k : State → State) (hf_k : ∀ y0, y0.Inv → (k y0).Inv) :
    (State.engineWait s met joins word k).Inv := by
  unfold State.engineWait
  repeat' first
      | with_reducible assumption | with_reducible intro _ | with_reducible apply hf_k
      | with_reducible apply State.joinEnded_inv | with_reducible apply State.mapSlot_inv
      | with_reducible apply State.stallHere_inv | with_reducible apply State.trap_inv
      | with_reducible apply optInv_map
      | (with_reducible refine State.inv_mk ?_ rfl rfl rfl rfl rfl; first | with_reducible assumption | with_reducible apply State.joinEnded_inv | with_reducible apply State.mapSlot_inv | with_reducible apply State.stallHere_inv | with_reducible apply State.trap_inv)
      | split | dsimp only

theorem State.postGang_inv {s : State} (h : s.Inv) (die : Nat) (o : GangOp) : (State.postGang s die o).Inv := by
  unfold State.postGang
  repeat' first
      | with_reducible assumption | with_reducible intro _ | with_reducible apply State.modDie_inv
      | (with_reducible refine State.inv_mk ?_ rfl rfl rfl rfl rfl; first | with_reducible assumption | with_reducible apply State.modDie_inv)
      | dsimp only

theorem State.sendGang_inv {s : State} (h : s.Inv) (k : GangKind) (g : BitVec 6) (after : Nat) :
    (State.sendGang s k g after).Inv := by
  unfold State.sendGang
  repeat' first
      | with_reducible assumption | with_reducible intro _ | with_reducible apply State.postGang_inv | dsimp only

theorem State.atomicGo_inv {s : State} (h : s.Inv) (d : XReg) (a : XReg) (n : Nat) (sc : AmoScope) (k : AtomicKind) (word : W32) :
    (State.atomicGo s d a n sc k word).Inv := by
  unfold State.atomicGo
  repeat' first
      | with_reducible assumption | with_reducible intro _ | with_reducible apply State.aligned__inv
      | with_reducible apply State.boundary_inv | with_reducible apply State.trapOpen_inv
      | with_reducible apply State.waitFor_inv | split | dsimp only

theorem State.countChild_inv {s : State} (h : s.Inv) (n : Nat) : (State.countChild s n).Inv := by
  unfold State.countChild
  repeat' first
      | with_reducible assumption | with_reducible intro _ | with_reducible apply State.modLaunch_inv
      | (with_reducible refine State.inv_mk ?_ rfl rfl rfl rfl rfl; first | with_reducible assumption | with_reducible apply State.modLaunch_inv)
      | dsimp only

theorem State.poolChild_inv {s : State} (h : s.Inv) (d : Nat) (c : Child) : (State.poolChild s d c).Inv := by
  unfold State.poolChild
  repeat' first
      | with_reducible assumption | with_reducible intro _ | with_reducible apply State.countChild_inv
      | with_reducible apply State.modDie_inv
      | (with_reducible refine State.inv_mk ?_ rfl rfl rfl rfl rfl; first | with_reducible assumption | with_reducible apply State.countChild_inv | with_reducible apply State.modDie_inv)
      | dsimp only

theorem State.spillChild_inv {s : State} (h : s.Inv) (d : Nat) (c : Child) (loc : Nat) :
    (State.spillChild s d c loc).Inv := by
  unfold State.spillChild
  repeat' first
      | with_reducible assumption | with_reducible intro _ | with_reducible apply State.carry_inv
      | with_reducible apply State.countChild_inv | with_reducible apply State.modLaunch_inv
      | with_reducible apply State.poke_inv
      | (with_reducible refine State.inv_mk ?_ rfl rfl rfl rfl rfl; first | with_reducible assumption | with_reducible apply State.carry_inv | with_reducible apply State.countChild_inv | with_reducible apply State.modLaunch_inv | with_reducible apply State.poke_inv)
      | split | dsimp only

theorem State.spawn_inv {s : State} (h : s.Inv) (a : XReg) (b : XReg) (r : Role) (g : Option (BitVec 6)) (word : W32) :
    (State.spawn s a b r g word).Inv := by
  unfold State.spawn
  repeat' first
      | with_reducible assumption | with_reducible intro _ | with_reducible apply State.checkTranslated_inv
      | with_reducible apply State.parkHere_inv | with_reducible apply State.poolChild_inv
      | with_reducible apply State.retire_inv | with_reducible apply State.spillChild_inv
      | with_reducible apply State.stallHere_inv | with_reducible apply State.trap_inv
      | with_reducible apply State.trapOpen_inv | with_reducible refine checkInv_get (by assumption) ?_ | split
      | dsimp only

theorem State.quitGangs_inv {s : State} (h : s.Inv) : (State.quitGangs s).Inv := by
  unfold State.quitGangs
  repeat' first
      | with_reducible assumption | with_reducible intro _ | with_reducible apply State.sendGang_inv
      | with_reducible apply foldl_inv | dsimp only

theorem State.queueLaunch_inv {s : State} (h : s.Inv) (q : Nat) (desc : W64) : (State.queueLaunch s q desc).Inv := by
  unfold State.queueLaunch
  repeat' first
      | with_reducible assumption | with_reducible intro _ | with_reducible apply State.syncQueue_inv
      | (with_reducible refine State.inv_mk ?_ rfl rfl rfl rfl rfl; first | with_reducible assumption | with_reducible apply State.syncQueue_inv)
      | split | dsimp only

theorem State.checkWindows_inv {s : State} (h : s.Inv) (n : Nat) (es : List (Nat × Nat)) :
    LeftInv (s.checkWindows n es) := by
  induction es generalizing s with
  | nil => exact h
  | cons a t ih =>
    unfold State.checkWindows
    split
    · split
      · exact ih (checkInv_get (by assumption) (State.check_inv h _ _ _ _ _))
      · exact h
      · exact ih h
    · exact ih h

theorem State.vecAppend_inv {s : State} (h : s.Inv) (i : Instr) (d : VDesc) (guard : List (Nat × Nat)) :
    (State.vecAppend s i d guard).Inv := by
  unfold State.vecAppend
  repeat' first
      | with_reducible assumption | with_reducible intro _ | with_reducible apply State.issueTo_inv
      | with_reducible apply State.mapSlot_inv | with_reducible apply optInv_map
      | (with_reducible refine State.inv_mk ?_ rfl rfl rfl rfl rfl; first | with_reducible assumption | with_reducible apply State.issueTo_inv | with_reducible apply State.mapSlot_inv)
      | dsimp only

theorem State.vecMemIssue_inv {s : State} (h : s.Inv) (i : Instr) (d : VDesc) (k : VMem) (word : W32) :
    (State.vecMemIssue s i d k word).Inv := by
  unfold State.vecMemIssue
  repeat' first
      | with_reducible assumption | with_reducible intro _ | with_reducible apply State.checkWindows_inv
      | with_reducible apply State.stallHere_inv | with_reducible apply State.trap_inv
      | with_reducible apply State.vecAppend_inv | with_reducible apply getD_inv | with_reducible apply leftInv_fst
      | with_reducible refine leftInv_get (by assumption) ?_ | split | dsimp only

theorem State.freeVec_inv {s : State} (h : s.Inv) (r : SlotRef) (q : QRec) : PairInv (State.freeVec s r q) := by
  unfold State.freeVec
  repeat' first
      | with_reducible assumption | with_reducible intro _ | with_reducible apply foldl_inv
      | with_reducible apply pairInv_mk
      | (with_reducible refine State.inv_mk ?_ rfl rfl rfl rfl rfl; first | with_reducible assumption | with_reducible apply foldl_inv)
      | split | dsimp only

theorem State.vecAccess_inv {s : State} (h : s.Inv) (r : SlotRef) (k : Access) (n : Nat) (es : List (Nat × Nat)) :
    VAccInv (s.vecAccess r k n es) := by
  induction es generalizing s with
  | nil => (unfold State.vecAccess; repeat' first
      | with_reducible assumption | with_reducible apply State.check_inv | with_reducible apply vaccInv_ok)
  | cons a t ih =>
    unfold State.vecAccess
    repeat' first
      | with_reducible assumption | with_reducible intro _ | with_reducible apply ih
      | with_reducible apply State.check_inv | with_reducible apply vaccInv_ok | with_reducible apply vaccInv_trap
      | with_reducible apply vaccInv_park | with_reducible apply vaccInv_stall | with_reducible apply vaccInv_away
      | with_reducible refine checkInv_get (by assumption) ?_ | with_reducible refine vaccInv_get (by assumption) ?_
      | split

theorem State.vecReach_inv {s : State} (h : s.Inv) (r : SlotRef) (v : VIn) (k : VMem) :
    VAccInv (State.vecReach s r v k) := by
  unfold State.vecReach
  repeat' first
      | with_reducible assumption | with_reducible intro _ | with_reducible apply State.store_inv
      | with_reducible apply State.vecAccess_inv | with_reducible apply vaccInv_ok
      | with_reducible apply vaccInv_trap | with_reducible apply vaccInv_park | with_reducible apply vaccInv_stall
      | with_reducible apply vaccInv_away | with_reducible refine vaccInv_get (by assumption) ?_
      | with_reducible refine vaccInv_get_trap (by assumption) ?_ | split | dsimp only

theorem State.vecMemStart_inv {s : State} (h : s.Inv) (g : Nat) (q : QRec) (d : VDesc) (k : VMem) :
    OptInv (State.vecMemStart s g q d k) := by
  unfold State.vecMemStart
  repeat' first
      | with_reducible assumption | with_reducible intro _ | with_reducible apply State.askOnce_inv
      | with_reducible apply State.doneHost_inv | with_reducible apply State.freeVec_inv
      | with_reducible apply State.modCore_inv | with_reducible apply State.parkRec_inv
      | with_reducible apply State.store_inv | with_reducible apply State.vecReach_inv
      | with_reducible apply optInv_none | with_reducible apply optInv_some
      | with_reducible refine optInv_get (by assumption) ?_ | with_reducible refine vaccInv_get (by assumption) ?_
      | with_reducible refine vaccInv_get_trap (by assumption) ?_ | with_reducible apply pairInv_mk
      | with_reducible apply pairInv_snd | with_reducible refine pairInv_get (by assumption) ?_
      | (with_reducible refine State.inv_mk ?_ rfl rfl rfl rfl rfl; first | with_reducible assumption | with_reducible apply State.doneHost_inv | with_reducible apply State.modCore_inv | with_reducible apply State.parkRec_inv | with_reducible apply State.store_inv)
      | split | dsimp only

theorem State.freeVec_inv_ite {s : State} (h : s.Inv) (r : SlotRef) (q : QRec) (c : Bool) :
    PairInv (if c = true then s.freeVec r q else (0, s)) := by
  cases c
  · exact h
  · exact State.freeVec_inv h r q

theorem State.vecStart_inv {s : State} (h : s.Inv) (g : Nat) : OptInv (State.vecStart s g) := by
  unfold State.vecStart
  repeat' first
      | with_reducible assumption | with_reducible intro _ | with_reducible apply State.modCore_inv
      | with_reducible apply State.free_inv | with_reducible apply State.vecMemStart_inv
      | with_reducible apply optInv_none | with_reducible apply optInv_some | with_reducible apply optInv_map
      | with_reducible apply State.freeVec_inv_ite | with_reducible apply State.freeAs_inv | with_reducible apply pairInv_snd
      | with_reducible refine pairInv_get (by assumption) ?_ | split | dsimp only

theorem State.vecEnd_inv {s : State} (h : s.Inv) (g : Nat) : OptInv (State.vecEnd s g) := by
  unfold State.vecEnd
  repeat' first
      | with_reducible assumption | with_reducible intro _ | with_reducible apply State.engWrite_inv
      | with_reducible apply State.modCore_inv | with_reducible apply State.modSlot_inv
      | with_reducible apply State.pendTrap_inv | with_reducible apply State.trap_inv
      | with_reducible apply optInv_map | with_reducible apply optInv_none | with_reducible apply optInv_some
      | (with_reducible refine State.inv_mk ?_ rfl rfl rfl rfl rfl; first | with_reducible assumption | with_reducible apply State.engWrite_inv | with_reducible apply State.modCore_inv | with_reducible apply State.modSlot_inv | with_reducible apply State.pendTrap_inv | with_reducible apply State.trap_inv)
      | split | dsimp only

theorem State.copyAccess_inv {s : State} (h : s.Inv) (r : SlotRef) (k : Access) (m : Mode) (es : List (Nat × Nat)) :
    AccInv (s.copyAccess r k m es) := by
  induction es generalizing s with
  | nil => (unfold State.copyAccess; repeat' first
      | with_reducible assumption | with_reducible apply State.check_inv | with_reducible apply accInv_ok)
  | cons a t ih =>
    unfold State.copyAccess
    repeat' first
      | with_reducible assumption | with_reducible intro _ | with_reducible apply ih
      | with_reducible apply State.check_inv | with_reducible apply accInv_ok | with_reducible apply accInv_trap
      | with_reducible apply accInv_park | with_reducible apply accInv_stall | with_reducible apply accInv_away
      | with_reducible refine checkInv_get (by assumption) ?_ | with_reducible refine accInv_get (by assumption) ?_
      | split

theorem State.copySpan_inv {s : State} (h : s.Inv) (r : SlotRef) (k : Access) (m : Mode) (a : Int) (n : Nat) :
    AccInv (State.copySpan s r k m a n) := by
  unfold State.copySpan
  repeat' first
      | with_reducible assumption | with_reducible intro _ | with_reducible apply State.copyAccess_inv
      | with_reducible apply accInv_ok | with_reducible apply accInv_trap | with_reducible apply accInv_park
      | with_reducible apply accInv_stall | with_reducible apply accInv_away
      | with_reducible refine accInv_get (by assumption) ?_
      | with_reducible refine accInv_get_trap (by assumption) ?_ | dsimp only

theorem CAcc.andThen_inv {x : CAcc} (h : AccInv x) {f : List (Nat × Nat) → State → CStep}
    (hf : ∀ bs t, t.Inv → StepInv (f bs t)) : StepInv (x.andThen f) := by
  cases x
  · exact hf _ _ h
  · exact h
  · trivial
  · trivial
  · trivial

theorem State.rowOffset_inv {s : State} (h : s.Inv) (r : SlotRef) (q : QRec) (k : CopyKind) (j : Nat) (f : Int → State → CStep) (hf_f : ∀ y0 y1, y1.Inv → StepInv (f y0 y1)) :
    StepInv (State.rowOffset s r q k j f) := by
  unfold State.rowOffset
  repeat' first
      | with_reducible assumption | with_reducible intro _ | with_reducible apply hf_f
      | with_reducible apply CAcc.andThen_inv | with_reducible apply State.copySpan_inv
      | with_reducible apply optInv_map | with_reducible apply stepInv_go | with_reducible apply stepInv_trap
      | with_reducible apply stepInv_park | with_reducible apply stepInv_stall | with_reducible apply stepInv_away
      | with_reducible refine accInv_get (by assumption) ?_
      | with_reducible refine accInv_get_trap (by assumption) ?_ | exact stepInv_of_go (by assumption)
      | exact stepInv_of_trap (by assumption) | split | dsimp only

theorem State.copyAdvance_inv {s : State} (h : s.Inv) (g : Nat) (q : QRec) (k : CopyKind) (n : Nat) :
    (State.copyAdvance s g q k n).Inv := by
  unfold State.copyAdvance
  repeat' first
      | with_reducible assumption | with_reducible intro _ | with_reducible apply State.setCore_inv
      | (with_reducible refine State.inv_mk ?_ rfl rfl rfl rfl rfl; first | with_reducible assumption | with_reducible apply State.setCore_inv)
      | split | dsimp only

theorem State.landPlain_inv {s : State} (h : s.Inv) (g : Nat) (q : QRec) (k : CopyKind) :
    StepInv (State.landPlain s g q k) := by
  unfold State.landPlain
  repeat' first
      | with_reducible assumption | with_reducible intro _ | with_reducible apply CAcc.andThen_inv
      | with_reducible apply State.carry_inv | with_reducible apply State.copyAdvance_inv
      | with_reducible apply State.copySpan_inv | with_reducible apply State.engWrite_inv
      | with_reducible apply State.rowOffset_inv | with_reducible apply getD_inv | with_reducible apply optInv_map
      | with_reducible apply stepInv_go | with_reducible apply stepInv_trap | with_reducible apply stepInv_park
      | with_reducible apply stepInv_stall | with_reducible apply stepInv_away
      | with_reducible refine accInv_get (by assumption) ?_
      | with_reducible refine accInv_get_trap (by assumption) ?_ | exact stepInv_of_go (by assumption)
      | exact stepInv_of_trap (by assumption)
      | (with_reducible refine State.inv_mk ?_ rfl rfl rfl rfl rfl; first | with_reducible assumption | with_reducible apply State.carry_inv | with_reducible apply State.copyAdvance_inv | with_reducible apply State.engWrite_inv | with_reducible apply getD_inv)
      | split | dsimp only

theorem State.mergeAway_inv {s : State} (h : s.Inv) (r : SlotRef) (q : QRec) (m : RedMode) (cells : List (Nat × Byte)) (element : List Byte) :
    (State.mergeAway s r q m cells element).Inv := by
  unfold State.mergeAway
  repeat' first
      | with_reducible assumption | with_reducible intro _ | with_reducible apply State.land_inv
      | with_reducible apply optInv_map
      | (with_reducible refine State.inv_mk ?_ rfl rfl rfl rfl rfl; first | with_reducible assumption | with_reducible apply State.land_inv)
      | dsimp only

theorem State.mergeNext_inv {s : State} (h : s.Inv) (g : Nat) (q : QRec) (k : CopyKind) (m : RedMode) :
    StepInv (State.mergeNext s g q k m) := by
  unfold State.mergeNext
  repeat' first
      | with_reducible assumption | with_reducible intro _ | with_reducible apply CAcc.andThen_inv
      | with_reducible apply State.copyAccess_inv | with_reducible apply State.flushBy_inv
      | with_reducible apply State.land_inv | with_reducible apply State.mergeAway_inv
      | with_reducible apply State.modCore_inv | with_reducible apply State.rereadBy_inv
      | with_reducible apply optInv_map | with_reducible apply stepInv_go | with_reducible apply stepInv_trap
      | with_reducible apply stepInv_park | with_reducible apply stepInv_stall | with_reducible apply stepInv_away
      | with_reducible refine accInv_get (by assumption) ?_
      | with_reducible refine accInv_get_trap (by assumption) ?_ | exact stepInv_of_go (by assumption)
      | exact stepInv_of_trap (by assumption)
      | (with_reducible refine State.inv_mk ?_ rfl rfl rfl rfl rfl; first | with_reducible assumption | with_reducible apply State.flushBy_inv | with_reducible apply State.land_inv | with_reducible apply State.mergeAway_inv | with_reducible apply State.modCore_inv | with_reducible apply State.rereadBy_inv)
      | split | dsimp only

theorem State.freezeCopy_inv {s : State} (h : s.Inv) (g : Nat) (q : QRec) (c : Cause) (tval : W64) :
    (State.freezeCopy s g q c tval).Inv := by
  unfold State.freezeCopy
  repeat' first
      | with_reducible assumption | with_reducible intro _ | with_reducible apply State.modCore_inv
      | with_reducible apply State.pendTrap_inv
      | (with_reducible refine State.inv_mk ?_ rfl rfl rfl rfl rfl; first | with_reducible assumption | with_reducible apply State.modCore_inv | with_reducible apply State.pendTrap_inv)
      | split | dsimp only

theorem State.stopCopy_inv {s : State} (h : s.Inv) (g : Nat) (q : QRec) (c : Cause) (tval : W64) :
    (State.stopCopy s g q c tval).Inv := by
  unfold State.stopCopy
  repeat' first
      | with_reducible assumption | with_reducible intro _ | with_reducible apply State.modCore_inv
      | with_reducible apply State.pendTrap_inv | dsimp only

theorem State.badCopy_inv {s : State} (h : s.Inv) (g : Nat) (q : QRec) : (State.badCopy s g q).Inv := by
  unfold State.badCopy
  repeat' first
      | with_reducible assumption | with_reducible intro _ | with_reducible apply State.freeAs_inv
      | with_reducible apply State.stopCopy_inv | with_reducible apply pairInv_mk | with_reducible apply pairInv_snd
      | with_reducible refine pairInv_get (by assumption) ?_ | dsimp only

theorem State.copyStep_inv {s : State} (h : s.Inv) (g : Nat) (q : QRec) (x : CStep) (h_x : StepInv x) :
    OptInv (State.copyStep s g q x) := by
  unfold State.copyStep
  repeat' first
      | with_reducible assumption | with_reducible intro _ | with_reducible apply State.askOnce_inv
      | with_reducible apply State.doneHost_inv | with_reducible apply State.freezeCopy_inv
      | with_reducible apply State.parkRec_inv | with_reducible apply optInv_none | with_reducible apply optInv_some
      | with_reducible refine optInv_get (by assumption) ?_ | exact stepInv_of_go (by assumption)
      | exact stepInv_of_trap (by assumption) | split | dsimp only

theorem State.copyLand_inv {s : State} (h : s.Inv) (g : Nat) (idx : Nat) : OptInv (State.copyLand s g idx) := by
  unfold State.copyLand
  repeat' first
      | with_reducible assumption | with_reducible intro _ | with_reducible apply State.badCopy_inv
      | with_reducible apply State.copyAdvance_inv | with_reducible apply State.copyStep_inv
      | with_reducible apply State.landPlain_inv | with_reducible apply optInv_none
      | with_reducible apply optInv_some | with_reducible refine optInv_get (by assumption) ?_
      | exact stepInv_of_go (by assumption) | exact stepInv_of_trap (by assumption) | split | dsimp only

theorem State.copyMerge_inv {s : State} (h : s.Inv) (g : Nat) : OptInv (State.copyMerge s g) := by
  unfold State.copyMerge
  repeat' first
      | with_reducible assumption | with_reducible intro _ | with_reducible apply State.copyStep_inv
      | with_reducible apply State.mergeNext_inv | with_reducible apply optInv_findSome
      | with_reducible apply optInv_none | with_reducible apply optInv_some
      | with_reducible refine optInv_get (by assumption) ?_ | exact stepInv_of_go (by assumption)
      | exact stepInv_of_trap (by assumption) | split | dsimp only

theorem State.lateCopy_inv {s : State} (h : s.Inv) (g : Nat) (q : QRec) : (State.lateCopy s g q).Inv := by
  unfold State.lateCopy
  repeat' first
      | with_reducible assumption | with_reducible intro _ | with_reducible apply State.freeAs_inv
      | with_reducible apply State.modCore_inv | with_reducible apply State.modSlot_inv
      | with_reducible apply State.stopCopy_inv | with_reducible apply pairInv_mk | with_reducible apply pairInv_snd
      | with_reducible refine pairInv_get (by assumption) ?_
      | (with_reducible refine State.inv_mk ?_ rfl rfl rfl rfl rfl; first | with_reducible assumption | with_reducible apply State.modCore_inv | with_reducible apply State.modSlot_inv | with_reducible apply State.stopCopy_inv)
      | split | dsimp only

theorem State.copyStart_inv {s : State} (h : s.Inv) (g : Nat) : OptInv (State.copyStart s g) := by
  unfold State.copyStart
  repeat' first
      | with_reducible assumption | with_reducible intro _ | with_reducible apply State.badCopy_inv
      | with_reducible apply State.lateCopy_inv | with_reducible apply State.modCore_inv
      | with_reducible apply State.ring_inv | with_reducible apply optInv_none | with_reducible apply optInv_some
      | (with_reducible refine State.inv_mk ?_ rfl rfl rfl rfl rfl; first | with_reducible assumption | with_reducible apply State.badCopy_inv | with_reducible apply State.lateCopy_inv | with_reducible apply State.modCore_inv | with_reducible apply State.ring_inv)
      | split | dsimp only

theorem State.breakCopy_inv {s : State} (h : s.Inv) (g : Nat) (q : QRec) : (State.breakCopy s g q).Inv := by
  unfold State.breakCopy
  repeat' first
      | with_reducible assumption | with_reducible intro _ | with_reducible apply State.modCore_inv
      | with_reducible apply State.modSlot_inv
      | (with_reducible refine State.inv_mk ?_ rfl rfl rfl rfl rfl; first | with_reducible assumption | with_reducible apply State.modCore_inv | with_reducible apply State.modSlot_inv)
      | split | dsimp only

theorem State.cptStart_inv {s : State} (h : s.Inv) (g : Nat) : OptInv (State.cptStart s g) := by
  unfold State.cptStart
  repeat' first
      | with_reducible assumption | with_reducible intro _ | with_reducible apply State.badCopy_inv
      | with_reducible apply State.breakCopy_inv | with_reducible apply State.modCore_inv
      | with_reducible apply foldl_inv | with_reducible apply optInv_map | with_reducible apply optInv_none
      | with_reducible apply optInv_some | split | dsimp only

theorem State.copySignal_inv {s : State} (h : s.Inv) (g : Nat) (q : QRec) : (State.copySignal s g q).Inv := by
  unfold State.copySignal
  repeat' first
      | with_reducible assumption | with_reducible intro _ | with_reducible apply State.flushBy_inv
      | with_reducible apply State.modSlot_inv | with_reducible apply State.pendTrap_inv
      | with_reducible apply State.postSem_inv | with_reducible apply getD_inv | with_reducible apply optInv_map
      | (with_reducible refine State.inv_mk ?_ rfl rfl rfl rfl rfl; first | with_reducible assumption | with_reducible apply State.flushBy_inv | with_reducible apply State.modSlot_inv | with_reducible apply State.pendTrap_inv | with_reducible apply State.postSem_inv | with_reducible apply getD_inv)
      | split | dsimp only

theorem State.copyEnd_inv {s : State} (h : s.Inv) (g : Nat) (idx : Nat) : OptInv (State.copyEnd s g idx) := by
  unfold State.copyEnd
  repeat' first
      | with_reducible assumption | with_reducible intro _ | with_reducible apply State.badCopy_inv
      | with_reducible apply State.copySignal_inv | with_reducible apply State.modCore_inv
      | with_reducible apply State.modSlot_inv | with_reducible apply optInv_none | with_reducible apply optInv_some
      | (with_reducible refine State.inv_mk ?_ rfl rfl rfl rfl rfl; first | with_reducible assumption | with_reducible apply State.badCopy_inv | with_reducible apply State.copySignal_inv | with_reducible apply State.modCore_inv | with_reducible apply State.modSlot_inv)
      | split | dsimp only

theorem State.mxRead_inv {s : State} (h : s.Inv) (r : SlotRef) (a : Int) (n : Nat) (f : List Byte → State → CStep) (hf_f : ∀ y0 y1, y1.Inv → StepInv (f y0 y1)) :
    StepInv (State.mxRead s r a n f) := by
  unfold State.mxRead
  repeat' first
      | with_reducible assumption | with_reducible intro _ | with_reducible apply hf_f
      | with_reducible apply CAcc.andThen_inv | with_reducible apply State.copySpan_inv
      | with_reducible apply optInv_map | with_reducible apply stepInv_go | with_reducible apply stepInv_trap
      | with_reducible apply stepInv_park | with_reducible apply stepInv_stall | with_reducible apply stepInv_away
      | with_reducible refine accInv_get (by assumption) ?_
      | with_reducible refine accInv_get_trap (by assumption) ?_ | exact stepInv_of_go (by assumption)
      | exact stepInv_of_trap (by assumption) | dsimp only

theorem State.readPlane_inv {s : State} (h : s.Inv) (r : SlotRef) (p : Nat) (src : W64) (scaled : Bool) (sc : W64) (f : Plane → State → CStep) (hf_f : ∀ y0 y1, y1.Inv → StepInv (f y0 y1)) :
    StepInv (State.readPlane s r p src scaled sc f) := by
  unfold State.readPlane
  repeat' first
      | with_reducible assumption | with_reducible intro _ | with_reducible apply hf_f
      | with_reducible apply State.mxRead_inv | with_reducible apply stepInv_go | with_reducible apply stepInv_trap
      | with_reducible apply stepInv_park | with_reducible apply stepInv_stall | with_reducible apply stepInv_away
      | exact stepInv_of_go (by assumption) | exact stepInv_of_trap (by assumption) | split | dsimp only

theorem State.mxReadRows_inv {s : State} (h : s.Inv) (r : SlotRef) (n : Nat) (as : List Int)
    {f : List (List Byte) → State → CStep} (hf : ∀ x t, t.Inv → StepInv (f x t)) : StepInv (s.mxReadRows r n as f) := by
  induction as generalizing s f with
  | nil => (unfold State.mxReadRows; repeat' first | with_reducible assumption | with_reducible apply hf)
  | cons a t ih =>
    unfold State.mxReadRows
    repeat' first
      | with_reducible assumption | with_reducible intro _ | with_reducible apply ih | with_reducible apply hf
      | with_reducible apply State.mxRead_inv

theorem State.mxWrite_inv {s : State} (h : s.Inv) (r : SlotRef) (idx : Nat) (acc : List (Nat × Nat × Byte))
    (ws : List (Int × List Byte)) {f : State → CStep} (hf : ∀ t, t.Inv → StepInv (f t)) :
    StepInv (s.mxWrite r idx acc ws f) := by
  induction ws generalizing s acc f with
  | nil => (unfold State.mxWrite; repeat' first
      | with_reducible assumption | with_reducible apply hf | with_reducible apply State.engWrite_inv)
  | cons a t ih =>
    unfold State.mxWrite
    repeat' first
      | with_reducible assumption | with_reducible intro _ | with_reducible apply ih | with_reducible apply hf
      | with_reducible apply State.engWrite_inv | with_reducible apply State.copySpan_inv
      | with_reducible apply CAcc.andThen_inv

theorem State.stopMx_inv {s : State} (h : s.Inv) (g : Nat) (q : QRec) (c : Cause) (tval : W64) :
    (State.stopMx s g q c tval).Inv := by
  unfold State.stopMx
  repeat' first
      | with_reducible assumption | with_reducible intro _ | with_reducible apply State.modCore_inv
      | with_reducible apply State.pendTrap_inv
      | (with_reducible refine State.inv_mk ?_ rfl rfl rfl rfl rfl; first | with_reducible assumption | with_reducible apply State.modCore_inv | with_reducible apply State.pendTrap_inv)
      | dsimp only

theorem State.badMx_inv {s : State} (h : s.Inv) (g : Nat) (q : QRec) : StepInv (State.badMx s g q) := by
  unfold State.badMx
  repeat' first
      | with_reducible assumption | with_reducible intro _ | with_reducible apply State.freeAs_inv
      | with_reducible apply State.stopMx_inv | with_reducible apply stepInv_go | with_reducible apply stepInv_trap
      | with_reducible apply stepInv_park | with_reducible apply stepInv_stall | with_reducible apply stepInv_away
      | with_reducible apply pairInv_mk | with_reducible apply pairInv_snd
      | with_reducible refine pairInv_get (by assumption) ?_ | dsimp only

theorem State.mxStep_inv {s : State} (h : s.Inv) (g : Nat) (q : QRec) (x : CStep) (h_x : StepInv x) :
    OptInv (State.mxStep s g q x) := by
  unfold State.mxStep
  repeat' first
      | with_reducible assumption | with_reducible intro _ | with_reducible apply State.askOnce_inv
      | with_reducible apply State.doneHost_inv | with_reducible apply State.modCore_inv
      | with_reducible apply State.parkRec_inv | with_reducible apply State.stopMx_inv
      | with_reducible apply optInv_none | with_reducible apply optInv_some
      | with_reducible refine optInv_get (by assumption) ?_ | exact stepInv_of_go (by assumption)
      | exact stepInv_of_trap (by assumption)
      | (with_reducible refine State.inv_mk ?_ rfl rfl rfl rfl rfl; first | with_reducible assumption | with_reducible apply State.doneHost_inv | with_reducible apply State.modCore_inv | with_reducible apply State.parkRec_inv | with_reducible apply State.stopMx_inv)
      | split | dsimp only

theorem State.startNest_inv {s : State} (h : s.Inv) (g : Nat) (q : QRec) (grouped : Bool) :
    StepInv (State.startNest s g q grouped) := by
  unfold State.startNest
  repeat' first
      | with_reducible assumption | with_reducible intro _ | with_reducible apply State.modCore_inv
      | with_reducible apply State.mxRead_inv | with_reducible apply State.stopMx_inv
      | with_reducible apply stepInv_go | with_reducible apply stepInv_trap | with_reducible apply stepInv_park
      | with_reducible apply stepInv_stall | with_reducible apply stepInv_away | exact stepInv_of_go (by assumption)
      | exact stepInv_of_trap (by assumption)
      | (with_reducible refine State.inv_mk ?_ rfl rfl rfl rfl rfl; first | with_reducible assumption | with_reducible apply State.modCore_inv | with_reducible apply State.stopMx_inv)
      | split | dsimp only

theorem State.mxStartStep_inv {s : State} (h : s.Inv) (g : Nat) : OptStepInv (State.mxStartStep s g) := by
  unfold State.mxStartStep
  repeat' first
      | with_reducible assumption | with_reducible intro _ | with_reducible apply State.badMx_inv
      | with_reducible apply State.modCore_inv | with_reducible apply State.modSlot_inv
      | with_reducible apply State.mxWrite_inv | with_reducible apply State.startNest_inv
      | with_reducible apply State.wx_inv | with_reducible apply optInv_map | with_reducible apply optStepInv_map
      | with_reducible apply optStepInv_none | with_reducible apply optStepInv_some
      | with_reducible apply stepInv_go | with_reducible apply stepInv_trap | with_reducible apply stepInv_park
      | with_reducible apply stepInv_stall | with_reducible apply stepInv_away | exact stepInv_of_go (by assumption)
      | exact stepInv_of_trap (by assumption)
      | (with_reducible refine State.inv_mk ?_ rfl rfl rfl rfl rfl; first | with_reducible assumption | with_reducible apply State.modCore_inv | with_reducible apply State.modSlot_inv | with_reducible apply State.wx_inv)
      | split | dsimp only

theorem State.mxGo_inv {s : State} (h : s.Inv) (g : Nat) {x : Option (QRec × CStep)} (hx : OptStepInv x) :
    OptInv (s.mxGo g x) := fun t e => by
  cases x with
  | none => cases e
  | some y => exact State.mxStep_inv h g y.1 y.2 (hx y rfl) t e

theorem State.mxStart_inv {s : State} (h : s.Inv) (g : Nat) : OptInv (State.mxStart s g) := by
  unfold State.mxStart
  repeat' first
      | with_reducible assumption | with_reducible intro _ | with_reducible apply State.mxGo_inv
      | with_reducible apply State.mxStartStep_inv | with_reducible apply optInv_none
      | with_reducible apply optInv_some | with_reducible refine optInv_get (by assumption) ?_ | dsimp only

theorem State.reloadPlane_inv {s : State} (h : s.Inv) (g : Nat) (q : QRec) (pl : Plane) (put : Core → Plane → Core) :
    StepInv (State.reloadPlane s g q pl put) := by
  unfold State.reloadPlane
  repeat' first
      | with_reducible assumption | with_reducible intro _ | with_reducible apply State.modCore_inv
      | with_reducible apply State.readPlane_inv | with_reducible apply stepInv_go
      | with_reducible apply stepInv_trap | with_reducible apply stepInv_park | with_reducible apply stepInv_stall
      | with_reducible apply stepInv_away | exact stepInv_of_go (by assumption)
      | exact stepInv_of_trap (by assumption) | dsimp only

theorem State.mxLoadStep_inv {s : State} (h : s.Inv) (g : Nat) : OptStepInv (State.mxLoadStep s g) := by
  unfold State.mxLoadStep
  repeat' first
      | with_reducible assumption | with_reducible intro _ | with_reducible apply State.badMx_inv
      | with_reducible apply State.modCore_inv | with_reducible apply State.readPlane_inv
      | with_reducible apply State.reloadPlane_inv | with_reducible apply optStepInv_map
      | with_reducible apply optStepInv_none | with_reducible apply optStepInv_some
      | with_reducible apply stepInv_go | with_reducible apply stepInv_trap | with_reducible apply stepInv_park
      | with_reducible apply stepInv_stall | with_reducible apply stepInv_away | exact stepInv_of_go (by assumption)
      | exact stepInv_of_trap (by assumption)
      | (with_reducible refine State.inv_mk ?_ rfl rfl rfl rfl rfl; first | with_reducible assumption | with_reducible apply State.modCore_inv)
      | split | dsimp only

theorem State.mxLoad_inv {s : State} (h : s.Inv) (g : Nat) : OptInv (State.mxLoad s g) := by
  unfold State.mxLoad
  repeat' first
      | with_reducible assumption | with_reducible intro _ | with_reducible apply State.mxGo_inv
      | with_reducible apply State.mxLoadStep_inv | with_reducible apply optInv_none
      | with_reducible apply optInv_some | with_reducible refine optInv_get (by assumption) ?_ | dsimp only

theorem State.mxPassStep_inv {s : State} (h : s.Inv) (g : Nat) : OptStepInv (State.mxPassStep s g) := by
  unfold State.mxPassStep
  repeat' first
      | with_reducible assumption | with_reducible intro _ | with_reducible apply State.badMx_inv
      | with_reducible apply State.modCore_inv | with_reducible apply State.mxReadRows_inv
      | with_reducible apply getD_inv | with_reducible apply optInv_map | with_reducible apply optStepInv_map
      | with_reducible apply optStepInv_none | with_reducible apply optStepInv_some
      | with_reducible apply stepInv_go | with_reducible apply stepInv_trap | with_reducible apply stepInv_park
      | with_reducible apply stepInv_stall | with_reducible apply stepInv_away | exact stepInv_of_go (by assumption)
      | exact stepInv_of_trap (by assumption)
      | (with_reducible refine State.inv_mk ?_ rfl rfl rfl rfl rfl; first | with_reducible assumption | with_reducible apply State.modCore_inv | with_reducible apply getD_inv)
      | split | dsimp only

theorem State.mxPass_inv {s : State} (h : s.Inv) (g : Nat) : OptInv (State.mxPass s g) := by
  unfold State.mxPass
  repeat' first
      | with_reducible assumption | with_reducible intro _ | with_reducible apply State.mxGo_inv
      | with_reducible apply State.mxPassStep_inv | with_reducible apply optInv_none
      | with_reducible apply optInv_some | with_reducible refine optInv_get (by assumption) ?_ | dsimp only

theorem State.mxCommitStep_inv {s : State} (h : s.Inv) (g : Nat) : OptStepInv (State.mxCommitStep s g) := by
  unfold State.mxCommitStep
  repeat' first
      | with_reducible assumption | with_reducible intro _ | with_reducible apply State.badMx_inv
      | with_reducible apply State.modCore_inv | with_reducible apply State.mxLoad_inv
      | with_reducible apply State.mxWrite_inv | with_reducible apply optStepInv_map
      | with_reducible apply optStepInv_none | with_reducible apply optStepInv_some
      | with_reducible apply stepInv_go | with_reducible apply stepInv_trap | with_reducible apply stepInv_park
      | with_reducible apply stepInv_stall | with_reducible apply stepInv_away
      | with_reducible refine optInv_get (by assumption) ?_ | exact stepInv_of_go (by assumption)
      | exact stepInv_of_trap (by assumption)
      | (with_reducible refine State.inv_mk ?_ rfl rfl rfl rfl rfl; first | with_reducible assumption | with_reducible apply State.modCore_inv)
      | split | dsimp only

theorem State.mxCommit_inv {s : State} (h : s.Inv) (g : Nat) : OptInv (State.mxCommit s g) := by
  unfold State.mxCommit
  repeat' first
      | with_reducible assumption | with_reducible intro _ | with_reducible apply State.mxCommitStep_inv
      | with_reducible apply State.mxGo_inv | with_reducible apply optInv_none | with_reducible apply optInv_some
      | with_reducible refine optInv_get (by assumption) ?_ | dsimp only

theorem State.writeArm_inv {s : State} (h : s.Inv) (n : Nat) (i : Nat) (name : W64) (threshold : W64) :
    (State.writeArm s n i name threshold).Inv := by
  unfold State.writeArm
  repeat' first
      | with_reducible assumption | with_reducible intro _ | with_reducible apply State.fwWrite_inv | dsimp only

theorem State.consume_inv {s : State} (h : s.Inv) (q : Nat) : (State.consume s q).Inv := by
  unfold State.consume
  repeat' first
      | with_reducible assumption | with_reducible intro _ | with_reducible apply State.modQueue_inv
      | with_reducible apply State.syncQueue_inv
      | (with_reducible refine State.inv_mk ?_ rfl rfl rfl rfl rfl; first | with_reducible assumption | with_reducible apply State.modQueue_inv | with_reducible apply State.syncQueue_inv)
      | dsimp only

theorem State.packetAnswer_inv {s : State} (h : s.Inv) (q : Nat) : (State.packetAnswer s q).Inv := by
  unfold State.packetAnswer
  repeat' first
      | with_reducible assumption | with_reducible intro _ | with_reducible apply State.consume_inv
      | with_reducible apply State.modQueue_inv | with_reducible apply State.ring_inv
      | (with_reducible refine State.inv_mk ?_ rfl rfl rfl rfl rfl; first | with_reducible assumption | with_reducible apply State.consume_inv | with_reducible apply State.modQueue_inv | with_reducible apply State.ring_inv)
      | split | dsimp only

theorem State.answerSem_inv {s : State} (h : s.Inv) (r : SlotRef) (uid : Nat) (v : W64) (way : Nat) :
    (State.answerSem s r uid v way).Inv := by
  unfold State.answerSem
  repeat' first
      | with_reducible assumption | with_reducible intro _ | with_reducible apply State.modLaunch_inv
      | with_reducible apply State.modSlot_inv | with_reducible apply State.packetAnswer_inv
      | with_reducible apply State.writeArm_inv
      | (with_reducible refine State.inv_mk ?_ rfl rfl rfl rfl rfl; first | with_reducible assumption | with_reducible apply State.modLaunch_inv | with_reducible apply State.modSlot_inv | with_reducible apply State.packetAnswer_inv | with_reducible apply State.writeArm_inv)
      | split | dsimp only

theorem State.sendAnswer_inv {s : State} (h : s.Inv) (d : Nat) (dev : BitVec 20) (core : Nat) (slot : Fin 4) (uid : Nat) (v : W64) :
    (State.sendAnswer s d dev core slot uid v).Inv := by
  unfold State.sendAnswer
  repeat' first
      | with_reducible assumption | with_reducible intro _ | with_reducible apply State.answerSem_inv
      | (with_reducible refine State.inv_mk ?_ rfl rfl rfl rfl rfl; first | with_reducible assumption | with_reducible apply State.answerSem_inv)
      | split | dsimp only

theorem State.releaseArm_inv {s : State} (h : s.Inv) (d : Nat) (a : Arm) : (State.releaseArm s d a).Inv := by
  unfold State.releaseArm
  repeat' first
      | with_reducible assumption | with_reducible intro _ | with_reducible apply State.modDie_inv
      | with_reducible apply State.releaseTcb_inv
      | (with_reducible refine State.inv_mk ?_ rfl rfl rfl rfl rfl; first | with_reducible assumption | with_reducible apply State.modDie_inv | with_reducible apply State.releaseTcb_inv)
      | split | dsimp only

theorem State.serveWaiters_inv {s : State} (h : s.Inv) (d i : Nat) (ws : List Waiter) : (s.serveWaiters d i ws).Inv
    := by
  induction ws generalizing s with
  | nil => (unfold State.serveWaiters; repeat' first | with_reducible assumption)
  | cons a t ih =>
    unfold State.serveWaiters
    repeat' first
      | with_reducible assumption | with_reducible intro _ | with_reducible apply ih
      | with_reducible apply State.modDie_inv | with_reducible apply State.sendAnswer_inv | split | dsimp only

theorem State.settleSem_inv {s : State} (h : s.Inv) (d : Nat) (i : Nat) : (State.settleSem s d i).Inv := by
  unfold State.settleSem
  repeat' first
      | with_reducible assumption | with_reducible intro _ | with_reducible apply State.releaseArm_inv
      | with_reducible apply State.serveWaiters_inv | with_reducible apply foldl_inv | dsimp only

theorem State.applySem_inv {s : State} (h : s.Inv) (d : Nat) (o : SemOp) : (State.applySem s d o).Inv := by
  unfold State.applySem
  repeat' first
      | with_reducible assumption | with_reducible intro _ | with_reducible apply State.modDie_inv
      | with_reducible apply State.sendAnswer_inv | with_reducible apply State.serveWaiters_inv
      | with_reducible apply State.settleSem_inv | with_reducible apply State.writeArm_inv
      | (with_reducible refine State.inv_mk ?_ rfl rfl rfl rfl rfl; first | with_reducible assumption | with_reducible apply State.modDie_inv | with_reducible apply State.sendAnswer_inv | with_reducible apply State.serveWaiters_inv | with_reducible apply State.settleSem_inv | with_reducible apply State.writeArm_inv)
      | split | dsimp only

theorem State.semAtHome_inv {s : State} (h : s.Inv) (d : Nat) : OptInv (State.semAtHome s d) := by
  unfold State.semAtHome
  repeat' first
      | with_reducible assumption | with_reducible intro _ | with_reducible apply State.applySem_inv
      | with_reducible apply State.modDie_inv | with_reducible apply optInv_none | with_reducible apply optInv_some
      | (with_reducible refine State.inv_mk ?_ rfl rfl rfl rfl rfl; first | with_reducible assumption | with_reducible apply State.applySem_inv | with_reducible apply State.modDie_inv)
      | split | dsimp only

theorem State.waitDone_inv {s : State} (h : s.Inv) (r : SlotRef) : OptInv (State.waitDone s r) := by
  unfold State.waitDone
  repeat' first
      | with_reducible assumption | with_reducible intro _ | with_reducible apply State.modSlot_inv
      | with_reducible apply State.wx_inv | with_reducible apply optInv_none | with_reducible apply optInv_some
      | split | dsimp only

theorem State.applyGang_inv {s : State} (h : s.Inv) (o : GangOp) : (State.applyGang s o).Inv := by
  unfold State.applyGang
  repeat' first
      | with_reducible assumption | with_reducible intro _ | with_reducible apply State.admitJoiners_inv
      | with_reducible apply State.answerGang_inv | with_reducible apply State.barStatus_inv
      | with_reducible apply State.leaveGang_inv | with_reducible apply State.modGang_inv
      | with_reducible apply State.settleGang_inv
      | (with_reducible refine State.inv_mk ?_ rfl rfl rfl rfl rfl; first | with_reducible assumption | with_reducible apply State.admitJoiners_inv | with_reducible apply State.answerGang_inv | with_reducible apply State.barStatus_inv | with_reducible apply State.leaveGang_inv | with_reducible apply State.modGang_inv | with_reducible apply State.settleGang_inv)
      | split | dsimp only

theorem State.gangAtHome_inv {s : State} (h : s.Inv) (d : Nat) : OptInv (State.gangAtHome s d) := by
  unfold State.gangAtHome
  repeat' first
      | with_reducible assumption | with_reducible intro _ | with_reducible apply State.applyGang_inv
      | with_reducible apply State.modDie_inv | with_reducible apply optInv_none | with_reducible apply optInv_some
      | (with_reducible refine State.inv_mk ?_ rfl rfl rfl rfl rfl; first | with_reducible assumption | with_reducible apply State.applyGang_inv | with_reducible apply State.modDie_inv)
      | split | dsimp only

theorem State.barDone_inv {s : State} (h : s.Inv) (r : SlotRef) : OptInv (State.barDone s r) := by
  unfold State.barDone
  repeat' first
      | with_reducible assumption | with_reducible intro _ | with_reducible apply State.modSlot_inv
      | with_reducible apply State.takeTrap_inv | with_reducible apply State.wx_inv
      | with_reducible apply optInv_none | with_reducible apply optInv_some | split | dsimp only

theorem State.setPark_inv {s : State} (h : s.Inv) (g : Nat) (o : ParkOwner) (slot : Fin 4) (idx : Option Nat) (p : Option Park) :
    (State.setPark s g o slot idx p).Inv := by
  unfold State.setPark
  repeat' first
      | with_reducible assumption | with_reducible intro _ | with_reducible apply State.modCore_inv
      | with_reducible apply State.modSlot_inv
      | (with_reducible refine State.inv_mk ?_ rfl rfl rfl rfl rfl; first | with_reducible assumption | with_reducible apply State.modCore_inv | with_reducible apply State.modSlot_inv)
      | split | dsimp only

theorem State.parkAgain_inv {s : State} (h : s.Inv) (g : Nat) (o : ParkOwner) (slot : Fin 4) (idx : Option Nat) (p : Park) (entry : Nat) :
    (State.parkAgain s g o slot idx p entry).Inv := by
  unfold State.parkAgain
  repeat' first
      | with_reducible assumption | with_reducible intro _ | with_reducible apply State.arm_inv
      | with_reducible apply State.setPark_inv
      | (with_reducible refine State.inv_mk ?_ rfl rfl rfl rfl rfl; first | with_reducible assumption | with_reducible apply State.arm_inv | with_reducible apply State.setPark_inv)
      | dsimp only

theorem State.parkWake_inv {s : State} (h : s.Inv) (g : Nat) (o : ParkOwner) : OptInv (State.parkWake s g o) := by
  unfold State.parkWake
  repeat' first
      | with_reducible assumption | with_reducible intro _ | with_reducible apply State.parkAgain_inv
      | with_reducible apply State.setPark_inv | with_reducible apply optInv_findSome
      | with_reducible apply optInv_none | with_reducible apply optInv_some | split | dsimp only

theorem State.wordAt_inv {s : State} (h : s.Inv) (r : SlotRef) : PairInv (s.wordAt r) := by
  unfold State.wordAt
  dsimp only
  split
  · exact h
  · exact State.freeFor_inv h r false

theorem State.parkTimeout_inv {s : State} (h : s.Inv) (g : Nat) (o : ParkOwner) :
    OptInv (State.parkTimeout s g o) := by
  unfold State.parkTimeout
  repeat' first
      | with_reducible assumption | with_reducible intro _ | with_reducible apply State.pendTrap_inv
      | with_reducible apply State.setPark_inv | with_reducible apply State.takeTrap_inv
      | with_reducible apply State.wordAt_inv | with_reducible apply optInv_map
      | with_reducible apply optInv_findSome | with_reducible apply optInv_none | with_reducible apply optInv_some
      | with_reducible apply pairInv_mk | with_reducible apply pairInv_snd
      | with_reducible refine pairInv_get (by assumption) ?_
      | (with_reducible refine State.inv_mk ?_ rfl rfl rfl rfl rfl; first | with_reducible assumption | with_reducible apply State.pendTrap_inv | with_reducible apply State.setPark_inv | with_reducible apply State.takeTrap_inv)
      | split | dsimp only

theorem State.haltTask_inv {s : State} (h : s.Inv) (r : SlotRef) : (State.haltTask s r).Inv := by
  unfold State.haltTask
  repeat' first
      | with_reducible assumption | with_reducible intro _ | with_reducible apply State.dropHost_inv
      | with_reducible apply State.modCore_inv | with_reducible apply State.modSlot_inv
      | with_reducible apply State.withdraw_inv | dsimp only

theorem State.postShoot_inv {s : State} (h : s.Inv) (g : Nat) (base : W64) (pages : Nat) :
    (State.postShoot s g base pages).Inv := by
  unfold State.postShoot
  repeat' first
      | with_reducible assumption | with_reducible intro _ | with_reducible apply State.modCore_inv
      | with_reducible apply optInv_map
      | (with_reducible refine State.inv_mk ?_ rfl rfl rfl rfl rfl; first | with_reducible assumption | with_reducible apply State.modCore_inv)
      | split | dsimp only

theorem State.shootdown_inv {s : State} (h : s.Inv) (q : Nat) (base : W64) (pages : Nat) :
    OptInv (State.shootdown s q base pages) := by
  unfold State.shootdown
  repeat' first
      | with_reducible assumption | with_reducible intro _ | with_reducible apply State.postShoot_inv
      | with_reducible apply foldl_inv | with_reducible apply optInv_none | with_reducible apply optInv_some
      | (with_reducible refine State.inv_mk ?_ rfl rfl rfl rfl rfl; first | with_reducible assumption | with_reducible apply State.postShoot_inv | with_reducible apply foldl_inv)
      | split | dsimp only

theorem State.shootAck_inv {s : State} (h : s.Inv) (g : Nat) : OptInv (State.shootAck s g) := by
  unfold State.shootAck
  repeat' first
      | with_reducible assumption | with_reducible intro _ | with_reducible apply State.flushBy_inv
      | with_reducible apply State.modCore_inv | with_reducible apply optInv_map | with_reducible apply optInv_none
      | with_reducible apply optInv_some
      | (with_reducible refine State.inv_mk ?_ rfl rfl rfl rfl rfl; first | with_reducible assumption | with_reducible apply State.flushBy_inv | with_reducible apply State.modCore_inv)
      | dsimp only

theorem State.shootExpire_inv {s : State} (h : s.Inv) (g : Nat) : OptInv (State.shootExpire s g) := by
  unfold State.shootExpire
  repeat' first
      | with_reducible assumption | with_reducible intro _ | with_reducible apply State.cancelAway_inv
      | with_reducible apply State.haltTask_inv | with_reducible apply State.modCore_inv
      | with_reducible apply foldl_inv | with_reducible apply optInv_map | with_reducible apply optInv_none
      | with_reducible apply optInv_some
      | (with_reducible refine State.inv_mk ?_ rfl rfl rfl rfl rfl; first | with_reducible assumption | with_reducible apply State.cancelAway_inv | with_reducible apply State.haltTask_inv | with_reducible apply State.modCore_inv | with_reducible apply foldl_inv)
      | split | dsimp only

theorem State.makeResident_inv {s : State} (h : s.Inv) (q : Nat) : (State.makeResident s q).Inv := by
  unfold State.makeResident
  repeat' first
      | with_reducible assumption | with_reducible intro _ | with_reducible apply State.modQueue_inv
      | (with_reducible refine State.inv_mk ?_ rfl rfl rfl rfl rfl; first | with_reducible assumption | with_reducible apply State.modQueue_inv)
      | split | dsimp only

theorem State.doorbell_inv {s : State} (h : s.Inv) (q : Nat) (tail : W32) : OptInv (State.doorbell s q tail) := by
  unfold State.doorbell
  repeat' first
      | with_reducible assumption | with_reducible intro _ | with_reducible apply State.failQueue_inv
      | with_reducible apply State.modQueue_inv | with_reducible apply State.ring_inv
      | with_reducible apply State.syncQueue_inv | with_reducible apply optInv_none
      | with_reducible apply optInv_some
      | (with_reducible refine State.inv_mk ?_ rfl rfl rfl rfl rfl; first | with_reducible assumption | with_reducible apply State.failQueue_inv | with_reducible apply State.modQueue_inv | with_reducible apply State.ring_inv | with_reducible apply State.syncQueue_inv)
      | split | dsimp only

theorem State.scanMap_inv {s : State} (h : s.Inv) : OptInv (State.scanMap s) := by
  unfold State.scanMap
  repeat' first
      | with_reducible assumption | with_reducible intro _ | with_reducible apply State.makeResident_inv
      | with_reducible apply State.ring_inv | with_reducible apply foldl_inv | with_reducible apply optInv_none
      | with_reducible apply optInv_some
      | (with_reducible refine State.inv_mk ?_ rfl rfl rfl rfl rfl; first | with_reducible assumption | with_reducible apply State.makeResident_inv | with_reducible apply State.ring_inv | with_reducible apply foldl_inv)
      | split | dsimp only

theorem State.onPacket_inv {s : State} (h : s.Inv) (q : Nat) (ty : Nat) (f : List W64 → State → Option State) (hf_f : ∀ y0 y1, y1.Inv → OptInv (f y0 y1)) :
    OptInv (State.onPacket s q ty f) := by
  unfold State.onPacket
  repeat' first
      | with_reducible assumption | with_reducible intro _ | with_reducible apply hf_f
      | with_reducible apply State.failQueue_inv | with_reducible apply optInv_none
      | with_reducible apply optInv_some | split | dsimp only

theorem Act.finish_inv {a : Act} (h : ActInv a) (q : Nat) : (a.finish q).Inv := by
  cases a
  · exact State.consume_inv h q
  · exact State.failQueue_inv h q _

theorem State.firmSem_inv {s : State} (h : s.Inv) (q : Nat) (name : W64) (k : SemKind) :
    (State.firmSem s q name k).Inv := by
  unfold State.firmSem
  repeat' first
      | with_reducible assumption | with_reducible intro _ | with_reducible apply State.postSem_inv
      | (with_reducible refine State.inv_mk ?_ rfl rfl rfl rfl rfl; first | with_reducible assumption | with_reducible apply State.postSem_inv)
      | split | dsimp only

theorem State.actSignal_inv {s : State} (h : s.Inv) (q : Nat) (name : W64) (amount : W64) :
    ActInv (State.actSignal s q name amount) := by
  unfold State.actSignal
  repeat' first
      | with_reducible assumption | with_reducible intro _ | with_reducible apply State.firmSem_inv
      | with_reducible apply actInv_done | with_reducible apply actInv_fail | split | dsimp only

theorem State.actLaunch_inv {s : State} (h : s.Inv) (q : Nat) (desc : W64) : ActInv (State.actLaunch s q desc) := by
  unfold State.actLaunch
  repeat' first
      | with_reducible assumption | with_reducible intro _ | with_reducible apply State.queueLaunch_inv
      | with_reducible apply actInv_done | with_reducible apply actInv_fail | split | dsimp only

theorem copyFirm_inv (root : W64) (fuel : Nat) {s : State} (h : s.Inv) (a b n : Nat) :
    PairInv (copyFirm root fuel a b n s) := by
  induction fuel generalizing s a b n with
  | zero => exact h
  | succ m ih =>
    unfold copyFirm
    split
    · exact h
    · dsimp only
      split
      · split
        · exact h
        · exact ih (State.firmWrite_inv h _) _ _ _
      · exact h

theorem State.actCopy_inv {s : State} (h : s.Inv) (q : Nat) (w : List W64) : ActInv (State.actCopy s q w) := by
  unfold State.actCopy
  repeat' first
      | with_reducible assumption | with_reducible intro _ | with_reducible apply State.actSignal_inv
      | with_reducible apply copyFirm_inv | with_reducible apply getD_inv | with_reducible apply actInv_done
      | with_reducible apply actInv_fail | with_reducible refine actInv_get_done (by assumption) ?_
      | with_reducible refine actInv_get_fail (by assumption) ?_ | with_reducible apply pairInv_mk
      | with_reducible apply pairInv_snd | with_reducible refine pairInv_get (by assumption) ?_ | split | dsimp only

theorem State.actBarrier_inv {s : State} (h : s.Inv) (q : Nat) (name : W64) (amount : W64) :
    ActInv (State.actBarrier s q name amount) := by
  unfold State.actBarrier
  repeat' first
      | with_reducible assumption | with_reducible intro _ | with_reducible apply State.actSignal_inv
      | with_reducible apply actInv_done | with_reducible apply actInv_fail
      | with_reducible refine actInv_get_done (by assumption) ?_
      | with_reducible refine actInv_get_fail (by assumption) ?_ | split | dsimp only

theorem State.deferTests_inv {s : State} (h : s.Inv) (d : Nat) : (State.deferTests s d).Inv := by
  unfold State.deferTests
  repeat' first
      | with_reducible assumption | with_reducible intro _ | with_reducible apply State.modCluster_inv
      | with_reducible apply foldl_inv
      | (with_reducible refine State.inv_mk ?_ rfl rfl rfl rfl rfl; first | with_reducible assumption | with_reducible apply State.modCluster_inv | with_reducible apply foldl_inv)
      | split | dsimp only

theorem State.ownDie_inv {s : State} (h : s.Inv) (d : Nat) (q : Nat) : (State.ownDie s d q).Inv := by
  unfold State.ownDie
  repeat' first
      | with_reducible assumption | with_reducible intro _ | with_reducible apply State.deferTests_inv
      | with_reducible apply State.modDie_inv | with_reducible apply State.rebaseDie_inv
      | (with_reducible refine State.inv_mk ?_ rfl rfl rfl rfl rfl; first | with_reducible assumption | with_reducible apply State.deferTests_inv | with_reducible apply State.modDie_inv | with_reducible apply State.rebaseDie_inv)
      | split | dsimp only

theorem State.disownDie_inv {s : State} (h : s.Inv) (d : Nat) : (State.disownDie s d).Inv := by
  unfold State.disownDie
  repeat' first
      | with_reducible assumption | with_reducible intro _ | with_reducible apply State.modDie_inv
      | with_reducible apply State.rebaseDie_inv | with_reducible apply State.release_inv
      | with_reducible apply foldl_inv
      | (with_reducible refine State.inv_mk ?_ rfl rfl rfl rfl rfl; first | with_reducible assumption | with_reducible apply State.modDie_inv | with_reducible apply State.rebaseDie_inv | with_reducible apply State.release_inv | with_reducible apply foldl_inv)
      | dsimp only

theorem State.disownDies_inv {s : State} (h : s.Inv) (q : Nat) : (State.disownDies s q).Inv := by
  unfold State.disownDies
  repeat' first
      | with_reducible assumption | with_reducible intro _ | with_reducible apply State.disownDie_inv
      | with_reducible apply foldl_inv | split | dsimp only

theorem State.switchLevel_inv {s : State} (h : s.Inv) (q : Nat) : OptInv (State.switchLevel s q) := by
  unfold State.switchLevel
  repeat' first
      | with_reducible assumption | with_reducible intro _ | with_reducible apply State.consume_inv
      | with_reducible apply State.disownDies_inv | with_reducible apply State.modQueue_inv
      | with_reducible apply State.ownDie_inv | with_reducible apply foldl_inv | with_reducible apply optInv_none
      | with_reducible apply optInv_some
      | (with_reducible refine State.inv_mk ?_ rfl rfl rfl rfl rfl; first | with_reducible assumption | with_reducible apply State.consume_inv | with_reducible apply State.disownDies_inv | with_reducible apply State.modQueue_inv | with_reducible apply State.ownDie_inv | with_reducible apply foldl_inv)
      | split | dsimp only

theorem State.cadenceTick_inv {s : State} (h : s.Inv) (q : Nat) : OptInv (State.cadenceTick s q) := by
  unfold State.cadenceTick
  repeat' first
      | with_reducible assumption | with_reducible intro _ | with_reducible apply State.modLaunch_inv
      | with_reducible apply State.modQueue_inv | with_reducible apply State.postEvent_inv
      | with_reducible apply State.ring_inv | with_reducible apply optInv_none | with_reducible apply optInv_some
      | (with_reducible refine State.inv_mk ?_ rfl rfl rfl rfl rfl; first | with_reducible assumption | with_reducible apply State.modLaunch_inv | with_reducible apply State.modQueue_inv | with_reducible apply State.postEvent_inv | with_reducible apply State.ring_inv)
      | split | dsimp only

theorem State.deliverTrap_inv {s : State} (h : s.Inv) (r : SlotRef) : OptInv (State.deliverTrap s r) := by
  unfold State.deliverTrap
  repeat' first
      | with_reducible assumption | with_reducible intro _ | with_reducible apply State.fatalTrap_inv
      | with_reducible apply State.modSlot_inv | with_reducible apply optInv_map | with_reducible apply optInv_none
      | with_reducible apply optInv_some | split | dsimp only

theorem State.fbPut_inv {s : State} (h : s.Inv) (d : BitVec 5) (v : W64) : (State.fbPut s d v).Inv := by
  unfold State.fbPut
  repeat' first
      | with_reducible assumption | with_reducible intro _ | with_reducible apply State.modFcore_inv
      | with_reducible apply State.wx_inv | dsimp only

theorem State.fbFault_inv {s : State} (h : s.Inv) (cause : Nat) (tval : W64) : (State.fbFault s cause tval).Inv := by
  unfold State.fbFault
  repeat' first
      | with_reducible assumption | with_reducible intro _ | with_reducible apply State.modFcore_inv
      | (with_reducible refine State.inv_mk ?_ rfl rfl rfl rfl rfl; first | with_reducible assumption | with_reducible apply State.modFcore_inv)
      | dsimp only

theorem State.fbIllegal_inv {s : State} (h : s.Inv) : (State.fbIllegal s).Inv := by
  unfold State.fbIllegal
  repeat' first
      | with_reducible assumption | with_reducible intro _ | with_reducible apply State.fbFault_inv
      | with_reducible apply State.free_inv | with_reducible apply pairInv_mk | with_reducible apply pairInv_snd
      | with_reducible refine pairInv_get (by assumption) ?_ | dsimp only

theorem State.takeOffer_inv {s : State} (h : s.Inv) (d : Nat) : OptInv (State.takeOffer s d) := by
  unfold State.takeOffer
  repeat' first
      | with_reducible assumption | with_reducible intro _ | with_reducible apply State.actCopy_inv
      | with_reducible apply State.actLaunch_inv | with_reducible apply State.actSignal_inv
      | with_reducible apply State.failQueue_inv | with_reducible apply State.modDie_inv
      | with_reducible apply State.syncQueue_inv | with_reducible apply getD_inv | with_reducible apply optInv_map
      | with_reducible apply optInv_none | with_reducible apply optInv_some
      | with_reducible refine actInv_get_done (by assumption) ?_
      | with_reducible refine actInv_get_fail (by assumption) ?_
      | (with_reducible refine State.inv_mk ?_ rfl rfl rfl rfl rfl; first | with_reducible assumption | with_reducible apply State.failQueue_inv | with_reducible apply State.modDie_inv | with_reducible apply State.syncQueue_inv | with_reducible apply getD_inv)
      | split | dsimp only

theorem State.swaitOver_inv {s : State} (h : s.Inv) (n : Nat) : OptInv (State.swaitOver s n) := by
  unfold State.swaitOver
  repeat' first
      | with_reducible assumption | with_reducible intro _ | with_reducible apply State.modFcore_inv
      | with_reducible apply State.woken_inv | with_reducible apply State.wx_inv | with_reducible apply optInv_none
      | with_reducible apply optInv_some
      | (with_reducible refine State.inv_mk ?_ rfl rfl rfl rfl rfl; first | with_reducible assumption | with_reducible apply State.modFcore_inv | with_reducible apply State.woken_inv | with_reducible apply State.wx_inv)
      | split | dsimp only

theorem State.clearPool_inv {s : State} (h : s.Inv) (g : Nat) : (s.clearPool g).Inv :=
  ⟨Memory.wf_filter h.1 _, h.2⟩

theorem State.openPair_inv {s : State} (h : s.Inv) (g : Nat) (mxw : BitVec 3) : (State.openPair s g mxw).Inv := by
  unfold State.openPair
  repeat' first
      | with_reducible assumption | with_reducible intro _ | with_reducible apply State.modCore_inv
      | (with_reducible refine State.inv_mk ?_ rfl rfl rfl rfl rfl; first | with_reducible assumption | with_reducible apply State.modCore_inv)
      | split | dsimp only

theorem State.openCore_inv {s : State} (h : s.Inv) (g : Nat) (l : Launch) : (State.openCore s g l).Inv := by
  unfold State.openCore
  repeat' first
      | with_reducible assumption | with_reducible intro _ | with_reducible apply State.clearPool_inv
      | with_reducible apply State.modCore_inv | with_reducible apply State.openPair_inv
      | (with_reducible refine State.inv_mk ?_ rfl rfl rfl rfl rfl; first | with_reducible assumption | with_reducible apply State.clearPool_inv | with_reducible apply State.modCore_inv | with_reducible apply State.openPair_inv)
      | split | dsimp only

theorem State.admitTask_inv {s : State} (h : s.Inv) (r : SlotRef) (n : Nat) (st : Start) :
    (State.admitTask s r n st).Inv := by
  unfold State.admitTask
  repeat' first
      | with_reducible assumption | with_reducible intro _ | with_reducible apply State.modCluster_inv
      | with_reducible apply State.modCore_inv | with_reducible apply State.modSlot_inv
      | with_reducible apply State.openCore_inv | with_reducible apply State.postGang_inv
      | with_reducible apply State.setSlot_inv
      | (with_reducible refine State.inv_mk ?_ rfl rfl rfl rfl rfl; first | with_reducible assumption | with_reducible apply State.modCluster_inv | with_reducible apply State.modCore_inv | with_reducible apply State.modSlot_inv | with_reducible apply State.openCore_inv | with_reducible apply State.postGang_inv | with_reducible apply State.setSlot_inv)
      | split | dsimp only

theorem State.placeGroup_inv {s : State} (h : s.Inv) (d : Nat) (n : Nat) : OptInv (State.placeGroup s d n) := by
  unfold State.placeGroup
  repeat' first
      | with_reducible assumption | with_reducible intro _ | with_reducible apply State.admitTask_inv
      | with_reducible apply State.freeSlot_inv | with_reducible apply State.modLaunch_inv
      | with_reducible apply State.modSlot_inv | with_reducible apply foldl_inv
      | with_reducible apply optInv_findSome | with_reducible apply optInv_none | with_reducible apply optInv_some
      | (with_reducible refine State.inv_mk ?_ rfl rfl rfl rfl rfl; first | with_reducible assumption | with_reducible apply State.admitTask_inv | with_reducible apply State.freeSlot_inv | with_reducible apply State.modLaunch_inv | with_reducible apply State.modSlot_inv | with_reducible apply foldl_inv)
      | split | dsimp only

theorem State.placeHead_inv {s : State} (h : s.Inv) (d : Nat) : OptInv (State.placeHead s d) := by
  unfold State.placeHead
  repeat' first
      | with_reducible assumption | with_reducible intro _ | with_reducible apply State.admitTask_inv
      | with_reducible apply State.modDie_inv | with_reducible apply State.modLaunch_inv
      | with_reducible apply State.placeGroup_inv | with_reducible apply State.setTcbState_inv
      | with_reducible apply foldl_inv | with_reducible apply optInv_map | with_reducible apply optInv_none
      | with_reducible apply optInv_some | with_reducible refine optInv_get (by assumption) ?_
      | (with_reducible refine State.inv_mk ?_ rfl rfl rfl rfl rfl; first | with_reducible assumption | with_reducible apply State.admitTask_inv | with_reducible apply State.modDie_inv | with_reducible apply State.modLaunch_inv | with_reducible apply State.setTcbState_inv | with_reducible apply foldl_inv)
      | split | dsimp only

theorem State.dropLaunch_inv {s : State} (h : s.Inv) (n : Nat) : (State.dropLaunch s n).Inv := by
  unfold State.dropLaunch
  repeat' first
      | with_reducible assumption | with_reducible intro _ | with_reducible apply State.modLaunch_inv
      | with_reducible apply State.syncQueue_inv
      | (with_reducible refine State.inv_mk ?_ rfl rfl rfl rfl rfl; first | with_reducible assumption | with_reducible apply State.modLaunch_inv | with_reducible apply State.syncQueue_inv)
      | dsimp only

theorem State.openLaunch_inv {s : State} (h : s.Inv) (n : Nat) (ds : List Nat) (ls : List Lease) (ts : List TlbEntry) :
    (State.openLaunch s n ds ls ts).Inv := by
  unfold State.openLaunch
  repeat' first
      | with_reducible assumption | with_reducible intro _ | with_reducible apply State.homeWrite_inv
      | with_reducible apply State.modLaunch_inv | with_reducible apply State.ownDie_inv
      | with_reducible apply State.setLaunchState_inv | with_reducible apply foldl_inv
      | with_reducible apply optInv_map
      | (with_reducible refine State.inv_mk ?_ rfl rfl rfl rfl rfl; first | with_reducible assumption | with_reducible apply State.homeWrite_inv | with_reducible apply State.modLaunch_inv | with_reducible apply State.ownDie_inv | with_reducible apply State.setLaunchState_inv | with_reducible apply foldl_inv)
      | split | dsimp only

theorem State.admitLaunch_inv {s : State} (h : s.Inv) (n : Nat) : OptInv (State.admitLaunch s n) := by
  unfold State.admitLaunch
  repeat' first
      | with_reducible assumption | with_reducible intro _ | with_reducible apply State.closeLaunch_inv
      | with_reducible apply State.dropLaunch_inv | with_reducible apply State.modLaunch_inv
      | with_reducible apply State.openLaunch_inv | with_reducible apply optInv_map
      | with_reducible apply optInv_none | with_reducible apply optInv_some
      | (with_reducible refine State.inv_mk ?_ rfl rfl rfl rfl rfl; first | with_reducible assumption | with_reducible apply State.closeLaunch_inv | with_reducible apply State.dropLaunch_inv | with_reducible apply State.modLaunch_inv | with_reducible apply State.openLaunch_inv)
      | split | dsimp only

theorem placeAll_inv (n k : Nat) {s : State} (h : s.Inv) : OptInv (placeAll n k s) := by
  induction k generalizing s with
  | zero => (unfold placeAll; repeat' first
      | with_reducible assumption | with_reducible apply State.modLaunch_inv
      | with_reducible apply State.admitTask_inv | with_reducible apply State.placeGroup_inv
      | with_reducible apply optInv_none | with_reducible apply optInv_some | with_reducible apply optInv_map
      | with_reducible apply optInv_findSome | with_reducible refine optInv_get (by assumption) ?_ | split)
  | succ m ih =>
    unfold placeAll
    repeat' first
      | with_reducible assumption | with_reducible intro _ | with_reducible apply ih
      | with_reducible apply State.modLaunch_inv | with_reducible apply State.admitTask_inv
      | with_reducible apply State.placeGroup_inv | with_reducible apply optInv_none
      | with_reducible apply optInv_some | with_reducible apply optInv_map | with_reducible apply optInv_findSome
      | with_reducible refine optInv_get (by assumption) ?_ | split | dsimp only

theorem State.startSuperstep_inv {s : State} (h : s.Inv) (n : Nat) : OptInv (State.startSuperstep s n) := by
  unfold State.startSuperstep
  repeat' first
      | with_reducible assumption | with_reducible intro _ | with_reducible apply State.modCore_inv
      | with_reducible apply placeAll_inv | with_reducible apply foldl_inv | with_reducible apply optInv_map
      | with_reducible apply optInv_none | with_reducible apply optInv_some
      | with_reducible refine optInv_get (by assumption) ?_
      | (with_reducible refine State.inv_mk ?_ rfl rfl rfl rfl rfl; first | with_reducible assumption | with_reducible apply State.modCore_inv | with_reducible apply foldl_inv)
      | split | dsimp only

theorem State.admitSuperstep_inv {s : State} (h : s.Inv) (q : Nat) : OptInv (State.admitSuperstep s q) := by
  unfold State.admitSuperstep
  repeat' first
      | with_reducible assumption | with_reducible intro _ | with_reducible apply State.startSuperstep_inv
      | with_reducible apply optInv_none | with_reducible apply optInv_some
      | with_reducible refine optInv_get (by assumption) ?_ | split | dsimp only

theorem State.superstepDue_inv {s : State} (h : s.Inv) (d : Nat) : OptInv (State.superstepDue s d) := by
  unfold State.superstepDue
  repeat' first
      | with_reducible assumption | with_reducible intro _ | with_reducible apply State.admitSuperstep_inv
      | with_reducible apply optInv_findSome | with_reducible apply optInv_none | with_reducible apply optInv_some
      | with_reducible refine optInv_get (by assumption) ?_ | split | dsimp only

theorem State.scheduleDie_inv {s : State} (h : s.Inv) (d : Nat) : OptInv (State.scheduleDie s d) := by
  unfold State.scheduleDie
  repeat' first
      | with_reducible assumption | with_reducible intro _ | with_reducible apply State.admitLaunch_inv
      | with_reducible apply State.placeHead_inv | with_reducible apply State.superstepDue_inv
      | with_reducible apply State.takeOffer_inv | with_reducible apply optInv_findSome
      | with_reducible apply optInv_none | with_reducible apply optInv_some
      | with_reducible refine optInv_get (by assumption) ?_ | split | dsimp only

theorem State.nextPhase_inv {s : State} (h : s.Inv) (n : Nat) : (State.nextPhase s n).Inv := by
  unfold State.nextPhase
  repeat' first
      | with_reducible assumption | with_reducible intro _ | with_reducible apply State.modLaunch_inv
      | with_reducible apply getD_inv
      | (with_reducible refine State.inv_mk ?_ rfl rfl rfl rfl rfl; first | with_reducible assumption | with_reducible apply State.modLaunch_inv | with_reducible apply getD_inv)
      | dsimp only

theorem State.refill_inv {s : State} (h : s.Inv) (d : Nat) : OptInv (State.refill s d) := by
  unfold State.refill
  repeat' first
      | with_reducible assumption | with_reducible intro _ | with_reducible apply State.modDie_inv
      | with_reducible apply State.modLaunch_inv | with_reducible apply getD_inv | with_reducible apply optInv_map
      | with_reducible apply optInv_none | with_reducible apply optInv_some
      | (with_reducible refine State.inv_mk ?_ rfl rfl rfl rfl rfl; first | with_reducible assumption | with_reducible apply State.modDie_inv | with_reducible apply State.modLaunch_inv | with_reducible apply getD_inv)
      | split | dsimp only

theorem State.endLaunch_inv {s : State} (h : s.Inv) (n : Nat) : OptInv (State.endLaunch s n) := by
  unfold State.endLaunch
  repeat' first
      | with_reducible assumption | with_reducible intro _ | with_reducible apply State.closeLaunch_inv
      | with_reducible apply optInv_none | with_reducible apply optInv_some | split | dsimp only

theorem State.retrainDie_inv {s : State} (h : s.Inv) (d : Nat) : (State.retrainDie s d).Inv := by
  unfold State.retrainDie
  repeat' first
      | with_reducible assumption | with_reducible intro _ | with_reducible apply State.modDie_inv
      | with_reducible apply State.modLink_inv | with_reducible apply foldl_inv | with_reducible apply optInv_map
      | (with_reducible refine State.inv_mk ?_ rfl rfl rfl rfl rfl; first | with_reducible assumption | with_reducible apply State.modDie_inv | with_reducible apply State.modLink_inv | with_reducible apply foldl_inv)
      | dsimp only

theorem State.countFault_inv {s : State} (h : s.Inv) (x : FaultSrc) : PairInv (s.countFault x) := h

theorem State.reportLasting_inv {s : State} (h : s.Inv) (die : Nat) (cluster : Nat) :
    (State.reportLasting s die cluster).Inv := by
  unfold State.reportLasting
  repeat' first
      | with_reducible assumption | with_reducible intro _ | with_reducible apply State.postEvent_inv
      | with_reducible apply State.snapEvent_inv | with_reducible apply foldl_inv | dsimp only

theorem State.resetEngine_inv {s : State} (h : s.Inv) (g : Nat) (e : EngId) (cause : Nat) :
    (State.resetEngine s g e cause).Inv := by
  unfold State.resetEngine
  repeat' first
      | with_reducible assumption | with_reducible intro _ | with_reducible apply State.modCore_inv
      | with_reducible apply State.modDie_inv
      | (with_reducible refine State.inv_mk ?_ rfl rfl rfl rfl rfl; first | with_reducible assumption | with_reducible apply State.modCore_inv | with_reducible apply State.modDie_inv)
      | dsimp only

theorem State.breakCore_inv {s : State} (h : s.Inv) (g : Nat) (reason : Nat) : (State.breakCore s g reason).Inv := by
  unfold State.breakCore
  repeat' first
      | with_reducible assumption | with_reducible intro _ | with_reducible apply State.pendEvent_inv
      | with_reducible apply foldl_inv | split | dsimp only

theorem State.forget_inv {s : State} (h : s.Inv) (u : Nat) : (State.forget s u).Inv := by
  unfold State.forget
  repeat' first
      | with_reducible assumption | with_reducible intro _ | with_reducible apply State.admitJoiners_inv
      | with_reducible apply State.modGang_inv | with_reducible apply foldl_inv | with_reducible apply optInv_map
      | (with_reducible refine State.inv_mk ?_ rfl rfl rfl rfl rfl; first | with_reducible assumption | with_reducible apply State.admitJoiners_inv | with_reducible apply State.modGang_inv | with_reducible apply foldl_inv)
      | split | dsimp only

theorem State.resetCore_inv {s : State} (h : s.Inv) (g : Nat) : (State.resetCore s g).Inv := by
  unfold State.resetCore
  repeat' first
      | with_reducible assumption | with_reducible intro _ | with_reducible apply State.cancelAway_inv
      | with_reducible apply State.clearPool_inv | with_reducible apply State.endAborted_inv
      | with_reducible apply State.flushStopped_inv | with_reducible apply State.forget_inv
      | with_reducible apply State.modCore_inv | with_reducible apply State.setSlot_inv
      | with_reducible apply foldl_inv | with_reducible apply optInv_map | split | dsimp only

theorem State.weighAlarm_inv {s : State} (h : s.Inv) (g : Nat) (e : EngId) : (State.weighAlarm s g e).Inv := by
  unfold State.weighAlarm
  repeat' first
      | with_reducible assumption | with_reducible intro _ | with_reducible apply State.countFault_inv
      | with_reducible apply State.modDie_inv | with_reducible apply State.reportLasting_inv
      | with_reducible apply State.resetCore_inv | with_reducible apply pairInv_mk
      | with_reducible apply pairInv_snd | with_reducible refine pairInv_get (by assumption) ?_
      | (with_reducible refine State.inv_mk ?_ rfl rfl rfl rfl rfl; first | with_reducible assumption | with_reducible apply State.modDie_inv | with_reducible apply State.reportLasting_inv | with_reducible apply State.resetCore_inv)
      | split | dsimp only

theorem State.newAlarm_inv {s : State} (h : s.Inv) (g : Nat) (e : EngId) (cause : Nat) :
    (State.newAlarm s g e cause).Inv := by
  unfold State.newAlarm
  repeat' first
      | with_reducible assumption | with_reducible intro _ | with_reducible apply State.breakCore_inv
      | with_reducible apply State.resetEngine_inv | with_reducible apply State.snapEvent_inv
      | with_reducible apply State.weighAlarm_inv | split | dsimp only

theorem State.alarm_inv {s : State} (h : s.Inv) (g : Nat) (e : EngId) (cause : Nat) :
    (State.alarm s g e cause).Inv := by
  unfold State.alarm
  repeat' first
      | with_reducible assumption | with_reducible intro _ | with_reducible apply State.modDie_inv
      | with_reducible apply State.newAlarm_inv | with_reducible apply State.weighAlarm_inv
      | (with_reducible refine State.inv_mk ?_ rfl rfl rfl rfl rfl; first | with_reducible assumption | with_reducible apply State.modDie_inv | with_reducible apply State.newAlarm_inv | with_reducible apply State.weighAlarm_inv)
      | split | dsimp only

theorem State.watchdog_inv {s : State} (h : s.Inv) (g : Nat) (e : EngId) : OptInv (State.watchdog s g e) := by
  unfold State.watchdog
  repeat' first
      | with_reducible assumption | with_reducible intro _ | with_reducible apply State.alarm_inv
      | with_reducible apply optInv_none | with_reducible apply optInv_some | split | dsimp only

theorem State.testAlarm_inv {s : State} (h : s.Inv) (d : Nat) : OptInv (State.testAlarm s d) := by
  unfold State.testAlarm
  repeat' first
      | with_reducible assumption | with_reducible intro _ | with_reducible apply State.alarm_inv
      | with_reducible apply State.modDie_inv | with_reducible apply optInv_none | with_reducible apply optInv_some
      | (with_reducible refine State.inv_mk ?_ rfl rfl rfl rfl rfl; first | with_reducible assumption | with_reducible apply State.alarm_inv | with_reducible apply State.modDie_inv)
      | split | dsimp only

theorem State.drizzle_inv {s : State} (h : s.Inv) (d : Nat) : (State.drizzle s d).Inv := by
  unfold State.drizzle
  repeat' first
      | with_reducible assumption | with_reducible intro _ | with_reducible apply State.alarm_inv
      | with_reducible apply State.modDie_inv
      | (with_reducible refine State.inv_mk ?_ rfl rfl rfl rfl rfl; first | with_reducible assumption | with_reducible apply State.alarm_inv | with_reducible apply State.modDie_inv)
      | dsimp only

theorem State.drizzleReset_inv {s : State} (h : s.Inv) (d : Nat) : OptInv (State.drizzleReset s d) := by
  unfold State.drizzleReset
  repeat' first
      | with_reducible assumption | with_reducible intro _ | with_reducible apply State.drizzle_inv
      | with_reducible apply State.modDie_inv | with_reducible apply optInv_none | with_reducible apply optInv_some
      | (with_reducible refine State.inv_mk ?_ rfl rfl rfl rfl rfl; first | with_reducible assumption | with_reducible apply State.drizzle_inv | with_reducible apply State.modDie_inv)
      | split | dsimp only

theorem State.openWindow_inv {s : State} (h : s.Inv) (d : Nat) : OptInv (State.openWindow s d) := by
  unfold State.openWindow
  repeat' first
      | with_reducible assumption | with_reducible intro _ | with_reducible apply State.breakCore_inv
      | with_reducible apply State.drizzle_inv | with_reducible apply State.modDie_inv
      | with_reducible apply foldl_inv | with_reducible apply optInv_none | with_reducible apply optInv_some
      | (with_reducible refine State.inv_mk ?_ rfl rfl rfl rfl rfl; first | with_reducible assumption | with_reducible apply State.breakCore_inv | with_reducible apply State.drizzle_inv | with_reducible apply State.modDie_inv | with_reducible apply foldl_inv)
      | split | dsimp only

theorem State.redoPhase_inv {s : State} (h : s.Inv) (n : Nat) : (State.redoPhase s n).Inv := by
  unfold State.redoPhase
  repeat' first
      | with_reducible assumption | with_reducible intro _ | with_reducible apply State.flushBy_inv
      | with_reducible apply State.leaveAll_inv | with_reducible apply State.modLaunch_inv
      | with_reducible apply State.removeTask_inv | with_reducible apply foldl_inv | with_reducible apply getD_inv
      | with_reducible apply optInv_map
      | (with_reducible refine State.inv_mk ?_ rfl rfl rfl rfl rfl; first | with_reducible assumption | with_reducible apply State.flushBy_inv | with_reducible apply State.leaveAll_inv | with_reducible apply State.modLaunch_inv | with_reducible apply State.removeTask_inv | with_reducible apply foldl_inv | with_reducible apply getD_inv)
      | split | dsimp only

theorem State.resetDie_inv {s : State} (h : s.Inv) (d : Nat) : (State.resetDie s d).Inv := by
  unfold State.resetDie
  repeat' first
      | with_reducible assumption | with_reducible intro _ | with_reducible apply State.redoPhase_inv
      | with_reducible apply State.resetCore_inv | with_reducible apply State.retrainDie_inv
      | with_reducible apply foldl_inv | with_reducible apply optInv_map | dsimp only

theorem State.packageReset_inv {s : State} (h : s.Inv) : s.packageReset.Inv :=
  ⟨Memory.wf_filter h.1 _, (by decide : steplenOk State.reset.steplen = true ∧ (800 ≤ State.reset.pcap ∧ State.reset.pcap ≤ 1950) ∧
    (1 ≤ State.reset.shootWait ∧ State.reset.shootWait ≤ 65535) ∧ (1 ≤ State.reset.ftper ∧ State.reset.ftper ≤ 168))⟩

theorem State.zeroRange_inv {s : State} (h : s.Inv) (at_ n : Nat) : (s.zeroRange at_ n).Inv :=
  ⟨Memory.wf_filter h.1 _, h.2⟩

theorem State.copyRange_inv {s : State} (h : s.Inv) (src : Nat) (dst : Nat) (n : Nat) :
    (State.copyRange s src dst n).Inv := by
  unfold State.copyRange
  repeat' first
      | with_reducible assumption | with_reducible intro _ | with_reducible apply State.homeWrite_inv
      | with_reducible apply optInv_map | dsimp only

theorem State.unjoin_inv {s : State} (h : s.Inv) (u : Nat) : (State.unjoin s u).Inv := by
  unfold State.unjoin
  repeat' first
      | with_reducible assumption | with_reducible intro _ | with_reducible apply State.modGang_inv
      | with_reducible apply foldl_inv | with_reducible apply optInv_map
      | (with_reducible refine State.inv_mk ?_ rfl rfl rfl rfl rfl; first | with_reducible assumption | with_reducible apply State.modGang_inv | with_reducible apply foldl_inv)
      | split | dsimp only

theorem State.stopCore_inv {s : State} (h : s.Inv) (g : Nat) : (State.stopCore s g).Inv := by
  unfold State.stopCore
  repeat' first
      | with_reducible assumption | with_reducible intro _ | with_reducible apply State.flushBy_inv
      | with_reducible apply State.flushStopped_inv | with_reducible apply State.haltTask_inv
      | with_reducible apply State.modSlot_inv | with_reducible apply State.unjoin_inv
      | with_reducible apply foldl_inv | with_reducible apply optInv_map
      | (with_reducible refine State.inv_mk ?_ rfl rfl rfl rfl rfl; first | with_reducible assumption | with_reducible apply State.flushBy_inv | with_reducible apply State.flushStopped_inv | with_reducible apply State.haltTask_inv | with_reducible apply State.modSlot_inv | with_reducible apply State.unjoin_inv | with_reducible apply foldl_inv)
      | dsimp only

theorem State.saveCore_inv {s : State} (h : s.Inv) (g : Nat) (fresh : Bool) : (State.saveCore s g fresh).Inv := by
  unfold State.saveCore
  repeat' first
      | with_reducible assumption | with_reducible intro _ | with_reducible apply State.copyRange_inv
      | with_reducible apply State.homeWrite_inv | with_reducible apply State.modCore_inv
      | with_reducible apply State.stopCore_inv | with_reducible apply State.zeroRange_inv
      | with_reducible apply getD_inv
      | (with_reducible refine State.inv_mk ?_ rfl rfl rfl rfl rfl; first | with_reducible assumption | with_reducible apply State.copyRange_inv | with_reducible apply State.homeWrite_inv | with_reducible apply State.modCore_inv | with_reducible apply State.stopCore_inv | with_reducible apply State.zeroRange_inv | with_reducible apply getD_inv)
      | split | dsimp only

theorem State.landLate_inv {s : State} (h : s.Inv) (v : Saved) (x : List (Nat × Byte) × QRec × Wm) :
    (State.landLate s v x).Inv := by
  unfold State.landLate
  repeat' first
      | with_reducible assumption | with_reducible intro _ | with_reducible apply State.homeWrite_inv
      | with_reducible apply getD_inv | with_reducible apply optInv_map
      | (with_reducible refine State.inv_mk ?_ rfl rfl rfl rfl rfl; first | with_reducible assumption | with_reducible apply State.homeWrite_inv | with_reducible apply getD_inv)
      | split | dsimp only

theorem State.saveDone_inv {s : State} (h : s.Inv) (g : Nat) : OptInv (State.saveDone s g) := by
  unfold State.saveDone
  repeat' first
      | with_reducible assumption | with_reducible intro _ | with_reducible apply State.cancelAway_inv
      | with_reducible apply State.landLate_inv | with_reducible apply State.modCore_inv
      | with_reducible apply State.saveCore_inv | with_reducible apply State.settleLadder_inv
      | with_reducible apply foldl_inv | with_reducible apply getD_inv | with_reducible apply optInv_map
      | with_reducible apply optInv_bind | with_reducible apply optInv_none | with_reducible apply optInv_some
      | (with_reducible refine State.inv_mk ?_ rfl rfl rfl rfl rfl; first | with_reducible assumption | with_reducible apply State.cancelAway_inv | with_reducible apply State.landLate_inv | with_reducible apply State.modCore_inv | with_reducible apply State.saveCore_inv | with_reducible apply State.settleLadder_inv | with_reducible apply foldl_inv | with_reducible apply getD_inv)
      | split | dsimp only

theorem State.startLadder_inv {s : State} (h : s.Inv) (q : Nat) : (State.startLadder s q).Inv := by
  unfold State.startLadder
  repeat' first
      | with_reducible assumption | with_reducible intro _ | with_reducible apply State.modQueue_inv
      | with_reducible apply State.settleLadder_inv
      | (with_reducible refine State.inv_mk ?_ rfl rfl rfl rfl rfl; first | with_reducible assumption | with_reducible apply State.modQueue_inv | with_reducible apply State.settleLadder_inv)
      | dsimp only

theorem State.startSave_inv {s : State} (h : s.Inv) (q : Nat) (reason : Nat) : (State.startSave s q reason).Inv := by
  unfold State.startSave
  repeat' first
      | with_reducible assumption | with_reducible intro _ | with_reducible apply State.modCore_inv
      | with_reducible apply State.modQueue_inv | with_reducible apply foldl_inv
      | (with_reducible refine State.inv_mk ?_ rfl rfl rfl rfl rfl; first | with_reducible assumption | with_reducible apply State.modCore_inv | with_reducible apply State.modQueue_inv | with_reducible apply foldl_inv)
      | dsimp only

theorem State.drainOver_inv {s : State} (h : s.Inv) (q : Nat) : OptInv (State.drainOver s q) := by
  unfold State.drainOver
  repeat' first
      | with_reducible assumption | with_reducible intro _ | with_reducible apply State.modQueue_inv
      | with_reducible apply State.startSave_inv | with_reducible apply optInv_none
      | with_reducible apply optInv_some
      | (with_reducible refine State.inv_mk ?_ rfl rfl rfl rfl rfl; first | with_reducible assumption | with_reducible apply State.modQueue_inv | with_reducible apply State.startSave_inv)
      | split | dsimp only

theorem State.saveOver_inv {s : State} (h : s.Inv) (q : Nat) : OptInv (State.saveOver s q) := by
  unfold State.saveOver
  repeat' first
      | with_reducible assumption | with_reducible intro _ | with_reducible apply State.resetCore_inv
      | with_reducible apply State.saveCore_inv | with_reducible apply State.settleLadder_inv
      | with_reducible apply foldl_inv | with_reducible apply optInv_none | with_reducible apply optInv_some | split
      | dsimp only

theorem State.rejoin_inv {s : State} (h : s.Inv) (r : SlotRef) : (s.rejoin r).Inv := by
  unfold State.rejoin
  generalize s.slotAt r = l
  obtain ⟨w, hw⟩ : ∃ w, l.wait = w := ⟨_, rfl⟩
  dsimp only
  rw [hw]
  cases w with
  | bar d g w =>
    dsimp only
    cases ((s.launch l.launch).gang g.toNat).recorded.find? fun x => x.1 == l.uid with
    | none => exact h
    | some x => exact State.modSlot_inv (State.modGang_inv h _ _ _) _ _
  | joining k => exact State.postGang_inv h _ _
  | withdrawn => exact State.modSlot_inv h _ _
  | _ => exact h

theorem State.restoreCore_inv {s : State} (h : s.Inv) (v : Saved) (g : Nat) : (State.restoreCore s v g).Inv := by
  unfold State.restoreCore
  repeat' first
      | with_reducible assumption | with_reducible intro _ | with_reducible apply State.clearPool_inv
      | with_reducible apply State.copyRange_inv | with_reducible apply State.lateCopy_inv
      | with_reducible apply State.modCluster_inv | with_reducible apply State.modCore_inv
      | with_reducible apply State.openPair_inv | with_reducible apply State.pendEvent_inv
      | with_reducible apply State.rejoin_inv | with_reducible apply State.setSlot_inv
      | with_reducible apply foldl_inv | with_reducible apply getD_inv
      | (with_reducible refine State.inv_mk ?_ rfl rfl rfl rfl rfl; first | with_reducible assumption | with_reducible apply State.clearPool_inv | with_reducible apply State.copyRange_inv | with_reducible apply State.lateCopy_inv | with_reducible apply State.modCluster_inv | with_reducible apply State.modCore_inv | with_reducible apply State.openPair_inv | with_reducible apply State.pendEvent_inv | with_reducible apply State.rejoin_inv | with_reducible apply State.setSlot_inv | with_reducible apply foldl_inv | with_reducible apply getD_inv)
      | split | dsimp only

theorem State.dropHeld_inv {s : State} (h : s.Inv) (k : Nat) : (State.dropHeld s k).Inv := by
  unfold State.dropHeld
  repeat' first
      | with_reducible assumption | with_reducible intro _ | with_reducible apply State.modCore_inv
      | with_reducible apply foldl_inv | with_reducible apply optInv_map
      | (with_reducible refine State.inv_mk ?_ rfl rfl rfl rfl rfl; first | with_reducible assumption | with_reducible apply State.modCore_inv | with_reducible apply foldl_inv)
      | split | dsimp only

theorem State.restoreCluster_inv {s : State} (h : s.Inv) (vs : List Saved) (k : Nat) :
    OptInv (State.restoreCluster s vs k) := by
  unfold State.restoreCluster
  repeat' first
      | with_reducible assumption | with_reducible intro _ | with_reducible apply State.dropHeld_inv
      | with_reducible apply State.ownDie_inv | with_reducible apply State.restoreCore_inv
      | with_reducible apply foldl_inv | with_reducible apply optInv_map | with_reducible apply optInv_none
      | with_reducible apply optInv_some
      | (with_reducible refine State.inv_mk ?_ rfl rfl rfl rfl rfl; first | with_reducible assumption | with_reducible apply State.dropHeld_inv | with_reducible apply State.ownDie_inv | with_reducible apply State.restoreCore_inv | with_reducible apply foldl_inv)
      | split | dsimp only

theorem State.resumeQueue_inv {s : State} (h : s.Inv) (q : Nat) : OptInv (State.resumeQueue s q) := by
  unfold State.resumeQueue
  repeat' first
      | with_reducible assumption | with_reducible intro _ | with_reducible apply State.modQueue_inv
      | with_reducible apply State.restoreCluster_inv | with_reducible apply State.syncQueue_inv
      | with_reducible apply optInv_none | with_reducible apply optInv_some
      | with_reducible refine optInv_get (by assumption) ?_
      | (with_reducible refine State.inv_mk ?_ rfl rfl rfl rfl rfl; first | with_reducible assumption | with_reducible apply State.modQueue_inv | with_reducible apply State.syncQueue_inv)
      | split | dsimp only

theorem State.drainDie_inv {s : State} (h : s.Inv) (q : Nat) (d : Nat) : (State.drainDie s q d).Inv := by
  unfold State.drainDie
  repeat' first
      | with_reducible assumption | with_reducible intro _ | with_reducible apply State.applySem_inv
      | with_reducible apply State.modDie_inv | with_reducible apply foldl_inv
      | (with_reducible refine State.inv_mk ?_ rfl rfl rfl rfl rfl; first | with_reducible assumption | with_reducible apply State.applySem_inv | with_reducible apply State.modDie_inv | with_reducible apply foldl_inv)
      | dsimp only

theorem State.hostAbort_inv {s : State} (h : s.Inv) (n : Nat) : (State.hostAbort s n).Inv := by
  unfold State.hostAbort
  repeat' first
      | with_reducible assumption | with_reducible intro _ | with_reducible apply State.abortLaunch_inv
      | with_reducible apply State.closeLaunch_inv | with_reducible apply State.modLaunch_inv
      | with_reducible apply getD_inv
      | (with_reducible refine State.inv_mk ?_ rfl rfl rfl rfl rfl; first | with_reducible assumption | with_reducible apply State.abortLaunch_inv | with_reducible apply State.closeLaunch_inv | with_reducible apply State.modLaunch_inv | with_reducible apply getD_inv)
      | split | dsimp only

theorem State.postFences_inv {s : State} (h : s.Inv) (q : Nat) : (State.postFences s q).Inv := by
  unfold State.postFences
  repeat' first
      | with_reducible assumption | with_reducible intro _ | with_reducible apply optInv_map
      | (with_reducible refine State.inv_mk ?_ rfl rfl rfl rfl rfl; first | with_reducible assumption) | dsimp only

theorem State.resetQueue_inv {s : State} (h : s.Inv) (q : Nat) : (State.resetQueue s q).Inv := by
  unfold State.resetQueue
  repeat' first
      | with_reducible assumption | with_reducible intro _ | with_reducible apply State.drainDie_inv
      | with_reducible apply State.hostAbort_inv | with_reducible apply State.modQueue_inv
      | with_reducible apply State.postFences_inv | with_reducible apply State.syncQueue_inv
      | with_reducible apply foldl_inv | with_reducible apply optInv_map
      | (with_reducible refine State.inv_mk ?_ rfl rfl rfl rfl rfl; first | with_reducible assumption | with_reducible apply State.drainDie_inv | with_reducible apply State.hostAbort_inv | with_reducible apply State.modQueue_inv | with_reducible apply State.postFences_inv | with_reducible apply State.syncQueue_inv | with_reducible apply foldl_inv)
      | split | dsimp only

theorem State.passCycles_inv {s : State} (h : s.Inv) : (State.passCycles s).Inv := by
  unfold State.passCycles
  repeat' first
      | with_reducible assumption | with_reducible intro _ | with_reducible apply optInv_map
      | (with_reducible refine State.inv_mk ?_ rfl rfl rfl rfl rfl; first | with_reducible assumption) | split
      | dsimp only

theorem State.payDebt_inv {s : State} (h : s.Inv) (k : Nat) : (State.payDebt s k).Inv := by
  unfold State.payDebt
  repeat' first
      | with_reducible assumption | with_reducible intro _ | with_reducible apply State.modCluster_inv
      | (with_reducible refine State.inv_mk ?_ rfl rfl rfl rfl rfl; first | with_reducible assumption | with_reducible apply State.modCluster_inv)
      | split | dsimp only

theorem State.tick_inv {s : State} (h : s.Inv) : (State.tick s).Inv := by
  unfold State.tick
  repeat' first
      | with_reducible assumption | with_reducible intro _ | with_reducible apply State.passCycles_inv
      | with_reducible apply State.payDebt_inv | with_reducible apply foldl_inv
      | (with_reducible refine State.inv_mk ?_ rfl rfl rfl rfl rfl; first | with_reducible assumption | with_reducible apply State.passCycles_inv | with_reducible apply State.payDebt_inv | with_reducible apply foldl_inv)
      | split | dsimp only

theorem State.overrunCluster_inv {s : State} (h : s.Inv) (k : Nat) : (State.overrunCluster s k).Inv := by
  unfold State.overrunCluster
  repeat' first
      | with_reducible assumption | with_reducible intro _ | with_reducible apply State.pendEvent_inv
      | with_reducible apply foldl_inv | split | dsimp only

theorem State.turnStep_inv {s : State} (h : s.Inv) : (State.turnStep s).Inv := by
  unfold State.turnStep
  repeat' first
      | with_reducible assumption | with_reducible intro _ | with_reducible apply State.overrunCluster_inv
      | with_reducible apply State.release_inv | with_reducible apply foldl_inv | with_reducible apply optInv_map
      | (with_reducible refine State.inv_mk ?_ rfl rfl rfl rfl rfl; first | with_reducible assumption | with_reducible apply State.overrunCluster_inv | with_reducible apply State.release_inv | with_reducible apply foldl_inv)
      | split | dsimp only

theorem State.barrierStep_inv {s : State} (h : s.Inv) (n : Nat) : (State.barrierStep s n).Inv := by
  unfold State.barrierStep
  repeat' first
      | with_reducible assumption | with_reducible intro _ | with_reducible apply State.modLaunch_inv
      | with_reducible apply optInv_map
      | (with_reducible refine State.inv_mk ?_ rfl rfl rfl rfl rfl; first | with_reducible assumption | with_reducible apply State.modLaunch_inv)
      | split | dsimp only

theorem State.endSuperstep_inv {s : State} (h : s.Inv) (n : Nat) : (State.endSuperstep s n).Inv := by
  unfold State.endSuperstep
  repeat' first
      | with_reducible assumption | with_reducible intro _ | with_reducible apply State.abortLaunch_inv
      | with_reducible apply State.modLaunch_inv | with_reducible apply State.nextPhase_inv
      | (with_reducible refine State.inv_mk ?_ rfl rfl rfl rfl rfl; first | with_reducible assumption | with_reducible apply State.abortLaunch_inv | with_reducible apply State.modLaunch_inv | with_reducible apply State.nextPhase_inv)
      | split | dsimp only

theorem State.stopHot_inv {s : State} (h : s.Inv) : (State.stopHot s).Inv := by
  unfold State.stopHot
  repeat' first
      | with_reducible assumption | with_reducible intro _ | with_reducible apply State.modQueue_inv
      | with_reducible apply State.startSave_inv | with_reducible apply foldl_inv
      | (with_reducible refine State.inv_mk ?_ rfl rfl rfl rfl rfl; first | with_reducible assumption | with_reducible apply State.modQueue_inv | with_reducible apply State.startSave_inv | with_reducible apply foldl_inv)
      | split | dsimp only

theorem State.boundaryStep_inv {s : State} (h : s.Inv) : (State.boundaryStep s).Inv := by
  unfold State.boundaryStep
  repeat' first
      | with_reducible assumption | with_reducible intro _ | with_reducible apply State.barrierStep_inv
      | with_reducible apply State.endSuperstep_inv | with_reducible apply State.stopHot_inv
      | with_reducible apply State.turnStep_inv | with_reducible apply foldl_inv | with_reducible apply optInv_map
      | dsimp only

theorem State.latchHere_inv {s : State} (h : s.Inv) : (State.latchHere s).Inv := by
  unfold State.latchHere
  repeat' first
      | with_reducible assumption | with_reducible intro _
      | (with_reducible refine State.inv_mk ?_ rfl rfl rfl rfl rfl; first | with_reducible assumption) | dsimp only

theorem State.latchSnapshot_inv {s : State} (h : s.Inv) : (State.latchSnapshot s).Inv := by
  unfold State.latchSnapshot
  repeat' first
      | with_reducible assumption | with_reducible intro _ | with_reducible apply State.latchHere_inv
      | with_reducible apply optInv_map
      | (with_reducible refine State.inv_mk ?_ rfl rfl rfl rfl rfl; first | with_reducible assumption | with_reducible apply State.latchHere_inv)
      | split | dsimp only

theorem State.breakQueue_inv {s : State} (h : s.Inv) (q : Nat) (reason : Nat) :
    (State.breakQueue s q reason).Inv := by
  unfold State.breakQueue
  repeat' first
      | with_reducible assumption | with_reducible intro _ | with_reducible apply State.pendEvent_inv
      | with_reducible apply foldl_inv | with_reducible apply optInv_map
      | (with_reducible refine State.inv_mk ?_ rfl rfl rfl rfl rfl; first | with_reducible assumption | with_reducible apply State.pendEvent_inv | with_reducible apply foldl_inv)
      | split | dsimp only

theorem State.trunkFall_inv {s : State} (h : s.Inv) (qs : List Nat) : (State.trunkFall s qs).Inv := by
  unfold State.trunkFall
  repeat' first
      | with_reducible assumption | with_reducible intro _ | with_reducible apply State.breakQueue_inv
      | with_reducible apply foldl_inv | dsimp only

theorem State.sendCost_inv {s : State} (h : s.Inv) (n : Nat) : (State.sendCost s n).Inv := by
  unfold State.sendCost
  repeat' first
      | with_reducible assumption | with_reducible intro _ | with_reducible apply optInv_map
      | (with_reducible refine State.inv_mk ?_ rfl rfl rfl rfl rfl; first | with_reducible assumption) | dsimp only

theorem State.secondLane_inv {s : State} (h : s.Inv) (n : Nat) : (State.secondLane s n).Inv := by
  unfold State.secondLane
  repeat' first
      | with_reducible assumption | with_reducible intro _ | with_reducible apply State.modDie_inv
      | with_reducible apply State.modLink_inv | with_reducible apply State.reportLasting_inv
      | with_reducible apply State.sendCost_inv | with_reducible apply State.trunkFall_inv
      | with_reducible apply foldl_inv
      | (with_reducible refine State.inv_mk ?_ rfl rfl rfl rfl rfl; first | with_reducible assumption | with_reducible apply State.modDie_inv | with_reducible apply State.modLink_inv | with_reducible apply State.reportLasting_inv | with_reducible apply State.sendCost_inv | with_reducible apply State.trunkFall_inv | with_reducible apply foldl_inv)
      | split | dsimp only

theorem State.dropLane_inv {s : State} (h : s.Inv) (n : Nat) (lane : Nat) : (State.dropLane s n lane).Inv := by
  unfold State.dropLane
  repeat' first
      | with_reducible assumption | with_reducible intro _ | with_reducible apply State.modLink_inv
      | with_reducible apply State.reportLasting_inv | with_reducible apply State.secondLane_inv
      | (with_reducible refine State.inv_mk ?_ rfl rfl rfl rfl rfl; first | with_reducible assumption | with_reducible apply State.modLink_inv | with_reducible apply State.reportLasting_inv | with_reducible apply State.secondLane_inv)
      | split | dsimp only

theorem State.retryFlit_inv {s : State} (h : s.Inv) (n : Nat) : (s.retryFlit n).Inv := by
  unfold State.retryFlit
  dsimp only [State.free]
  split
  · split
    · exact h
    · exact State.standStill_inv (s := { s with freeCtr := s.freeCtr + 1 }) h _ _
  · exact h

theorem State.disableWay_inv {s : State} (h : s.Inv) (d : Nat) (set : Nat) (way : Nat) :
    (State.disableWay s d set way).Inv := by
  unfold State.disableWay
  repeat' first
      | with_reducible assumption | with_reducible intro _ | with_reducible apply State.modDie_inv
      | (with_reducible refine State.inv_mk ?_ rfl rfl rfl rfl rfl; first | with_reducible assumption | with_reducible apply State.modDie_inv)
      | split | dsimp only

theorem State.poisonLine_inv {s : State} (h : s.Inv) (line : Nat) : (State.poisonLine s line).Inv := by
  unfold State.poisonLine
  repeat' first
      | with_reducible assumption | with_reducible intro _
      | (with_reducible refine State.inv_mk ?_ rfl rfl rfl rfl rfl; first | with_reducible assumption) | dsimp only

theorem State.setImage_inv {s : State} (h : s.Inv) (k : Nat) (i : Image) : (State.setImage s k i).Inv := by
  unfold State.setImage
  repeat' first
      | with_reducible assumption | with_reducible intro _
      | (with_reducible refine State.inv_mk ?_ rfl rfl rfl rfl rfl; first | with_reducible assumption) | split
      | dsimp only

theorem State.sendInfo_inv {s : State} (h : s.Inv) : (State.sendInfo s).Inv := by
  unfold State.sendInfo
  repeat' first
      | with_reducible assumption | with_reducible intro _ | with_reducible apply optInv_map
      | (with_reducible refine State.inv_mk ?_ rfl rfl rfl rfl rfl; first | with_reducible assumption) | split
      | dsimp only

theorem resumeAll_inv (q k : Nat) {s : State} (h : s.Inv) : (resumeAll q k s).Inv := by
  induction k generalizing s with
  | zero => (unfold resumeAll; repeat' first | with_reducible assumption)
  | succ m ih =>
    unfold resumeAll
    repeat' first
      | with_reducible assumption | with_reducible intro _ | with_reducible apply ih
      | with_reducible apply State.resumeQueue_inv | with_reducible refine optInv_get (by assumption) ?_ | split

theorem State.devWrite_inv {s : State} (h : s.Inv) (a : Nat) (v : W64) : OptInv (State.devWrite s a v) := by
  unfold State.devWrite
  repeat' first
      | with_reducible assumption | with_reducible intro _ | with_reducible apply State.modDie_inv
      | with_reducible apply optInv_map | with_reducible apply optInv_none | with_reducible apply optInv_some
      | (with_reducible refine State.inv_mk ?_ rfl rfl rfl rfl rfl; first | with_reducible assumption | with_reducible apply State.modDie_inv)
      | split | dsimp only

theorem State.putAnswer_inv {s : State} (h : s.Inv) (result : Nat) (res : List W64) :
    (State.putAnswer s result res).Inv := by
  unfold State.putAnswer
  repeat' first
      | with_reducible assumption | with_reducible intro _ | with_reducible apply foldl_inv
      | (with_reducible refine State.inv_mk ?_ rfl rfl rfl rfl rfl; first | with_reducible assumption | with_reducible apply foldl_inv)
      | split | dsimp only

theorem State.acceptCmd_inv {s : State} (h : s.Inv) : (State.acceptCmd s).Inv := by
  unfold State.acceptCmd
  repeat' first
      | with_reducible assumption | with_reducible intro _ | with_reducible apply State.putAnswer_inv | split
      | dsimp only

theorem State.nextCmds_inv {s : State} (h : s.Inv) (cs : List Cmd) : (s.nextCmds cs).Inv := by
  induction cs generalizing s with
  | nil => exact h
  | cons c cs ih =>
    unfold State.nextCmds
    split
    · exact h
    · exact ih (State.acceptCmd_inv (s := { s with mbox := { s.mbox with cmd := some c } }) h)

theorem State.answerCmd_inv {s : State} (h : s.Inv) (result : Nat) (res : List W64) :
    (State.answerCmd s result res).Inv := by
  unfold State.answerCmd
  repeat' first
      | with_reducible assumption | with_reducible intro _ | with_reducible apply State.nextCmds_inv
      | with_reducible apply State.putAnswer_inv | dsimp only

theorem State.ringAll_inv {s : State} (h : s.Inv) (b : BitVec 7) : (State.ringAll s b).Inv := by
  unfold State.ringAll
  repeat' first
      | with_reducible assumption | with_reducible intro _ | with_reducible apply State.ring_inv
      | with_reducible apply foldl_inv | dsimp only

theorem State.submit_inv {s : State} (h : s.Inv) (badGo : Bool) : (State.submit s badGo).Inv := by
  unfold State.submit
  repeat' first
      | with_reducible assumption | with_reducible intro _ | with_reducible apply State.acceptCmd_inv
      | with_reducible apply State.answerCmd_inv | with_reducible apply State.ringAll_inv
      | with_reducible apply optInv_map
      | (with_reducible refine State.inv_mk ?_ rfl rfl rfl rfl rfl; first | with_reducible assumption | with_reducible apply State.acceptCmd_inv | with_reducible apply State.answerCmd_inv | with_reducible apply State.ringAll_inv)
      | split | dsimp only

theorem State.mboxWrite_inv {s : State} (h : s.Inv) (o : Nat) (v : W64) : (State.mboxWrite s o v).Inv := by
  unfold State.mboxWrite
  repeat' first
      | with_reducible assumption | with_reducible intro _ | with_reducible apply State.submit_inv
      | with_reducible apply foldl_inv
      | (with_reducible refine State.inv_mk ?_ rfl rfl rfl rfl rfl; first | with_reducible assumption | with_reducible apply State.submit_inv | with_reducible apply foldl_inv)
      | split | dsimp only

theorem State.onCmd_inv {s : State} (h : s.Inv) (op : Nat) (f : Cmd → Option State) (hf_f : ∀ y0, OptInv (f y0)) :
    OptInv (State.onCmd s op f) := by
  unfold State.onCmd
  repeat' first
      | with_reducible assumption | with_reducible intro _ | with_reducible apply hf_f
      | with_reducible apply optInv_none | with_reducible apply optInv_some | split | dsimp only

theorem State.startCmd_inv {s : State} (h : s.Inv) : (State.startCmd s).Inv := by
  unfold State.startCmd
  repeat' first
      | with_reducible assumption | with_reducible intro _ | with_reducible apply optInv_map
      | (with_reducible refine State.inv_mk ?_ rfl rfl rfl rfl rfl; first | with_reducible assumption) | dsimp only

theorem State.onQueue_inv {s : State} (h : s.Inv) (op : Nat) (f : Cmd → Nat → Option State) (hf_f : ∀ y0 y1, OptInv (f y0 y1)) :
    OptInv (State.onQueue s op f) := by
  unfold State.onQueue
  repeat' first
      | with_reducible assumption | with_reducible intro _ | with_reducible apply hf_f
      | with_reducible apply State.answerCmd_inv | with_reducible apply State.onCmd_inv
      | with_reducible apply optInv_none | with_reducible apply optInv_some
      | with_reducible refine optInv_get (by assumption) ?_ | split | dsimp only

theorem State.createQueue_inv {s : State} (h : s.Inv) (q : Nat) : (State.createQueue s q).Inv := by
  unfold State.createQueue
  repeat' first
      | with_reducible assumption | with_reducible intro _ | with_reducible apply State.firmWrite_inv
      | with_reducible apply State.modQueue_inv
      | (with_reducible refine State.inv_mk ?_ rfl rfl rfl rfl rfl; first | with_reducible assumption | with_reducible apply State.firmWrite_inv | with_reducible apply State.modQueue_inv)
      | dsimp only

theorem State.destroyQueue_inv {s : State} (h : s.Inv) (q : Nat) : (State.destroyQueue s q).Inv := by
  unfold State.destroyQueue
  repeat' first
      | with_reducible assumption | with_reducible intro _ | with_reducible apply State.disownDies_inv
      | with_reducible apply optInv_map
      | (with_reducible refine State.inv_mk ?_ rfl rfl rfl rfl rfl; first | with_reducible assumption | with_reducible apply State.disownDies_inv)
      | split | dsimp only

theorem State.restoreWays_inv {s : State} (h : s.Inv) : (State.restoreWays s).Inv := by
  unfold State.restoreWays
  repeat' first
      | with_reducible assumption | with_reducible intro _ | with_reducible apply State.disableWay_inv
      | with_reducible apply foldl_inv | with_reducible apply optInv_map
      | (with_reducible refine State.inv_mk ?_ rfl rfl rfl rfl rfl; first | with_reducible assumption | with_reducible apply State.disableWay_inv | with_reducible apply foldl_inv)
      | dsimp only

theorem State.endUpdate_inv {s : State} (h : s.Inv) (result : Nat) : (State.endUpdate s result).Inv := by
  unfold State.endUpdate
  repeat' first
      | with_reducible assumption | with_reducible intro _ | with_reducible apply State.answerCmd_inv
      | (with_reducible refine State.inv_mk ?_ rfl rfl rfl rfl rfl; first | with_reducible assumption | with_reducible apply State.answerCmd_inv)
      | split | dsimp only

theorem State.keepImage_inv {s : State} (h : s.Inv) (u : Update) : (State.keepImage s u).Inv := by
  unfold State.keepImage
  repeat' first
      | with_reducible assumption | with_reducible intro _ | with_reducible apply State.endUpdate_inv
      | (with_reducible refine State.inv_mk ?_ rfl rfl rfl rfl rfl; first | with_reducible assumption | with_reducible apply State.endUpdate_inv)
      | dsimp only

theorem State.restartQueueCores_inv {s : State} (h : s.Inv) : (State.restartQueueCores s).Inv := by
  unfold State.restartQueueCores
  repeat' first
      | with_reducible assumption | with_reducible intro _ | with_reducible apply optInv_map
      | (with_reducible refine State.inv_mk ?_ rfl rfl rfl rfl rfl; first | with_reducible assumption) | dsimp only

theorem State.rollBack_inv {s : State} (h : s.Inv) (u : Update) : (State.rollBack s u).Inv := by
  unfold State.rollBack
  repeat' first
      | with_reducible assumption | with_reducible intro _ | with_reducible apply State.endUpdate_inv
      | with_reducible apply State.restartQueueCores_inv | with_reducible apply State.sendInfo_inv
      | with_reducible apply State.setImage_inv
      | (with_reducible refine State.inv_mk ?_ rfl rfl rfl rfl rfl; first | with_reducible assumption | with_reducible apply State.endUpdate_inv | with_reducible apply State.restartQueueCores_inv | with_reducible apply State.sendInfo_inv | with_reducible apply State.setImage_inv)
      | dsimp only

theorem State.writeHandover_inv {s : State} (h : s.Inv) : (State.writeHandover s).Inv := by
  unfold State.writeHandover
  repeat' first
      | with_reducible assumption | with_reducible intro _ | with_reducible apply State.homeWrite_inv
      | with_reducible apply State.poke_inv | with_reducible apply State.zeroRange_inv
      | with_reducible apply foldl_inv | with_reducible apply optInv_map | dsimp only

theorem State.handOver_inv {s : State} (h : s.Inv) (u : Update) : (State.handOver s u).Inv := by
  unfold State.handOver
  repeat' first
      | with_reducible assumption | with_reducible intro _ | with_reducible apply State.restartQueueCores_inv
      | with_reducible apply State.ringAll_inv | with_reducible apply State.writeHandover_inv
      | (with_reducible refine State.inv_mk ?_ rfl rfl rfl rfl rfl; first | with_reducible assumption | with_reducible apply State.restartQueueCores_inv | with_reducible apply State.ringAll_inv | with_reducible apply State.writeHandover_inv)
      | dsimp only

theorem State.beat_inv {s : State} (h : s.Inv) (v : W64) : (State.beat s v).Inv := by
  unfold State.beat
  repeat' first
      | with_reducible assumption | with_reducible intro _ | with_reducible apply State.keepImage_inv
      | with_reducible apply State.rollBack_inv | with_reducible apply State.sendInfo_inv
      | (with_reducible refine State.inv_mk ?_ rfl rfl rfl rfl rfl; first | with_reducible assumption | with_reducible apply State.keepImage_inv | with_reducible apply State.rollBack_inv | with_reducible apply State.sendInfo_inv)
      | split | dsimp only

theorem State.beatOver_inv {s : State} (h : s.Inv) : OptInv (State.beatOver s) := by
  unfold State.beatOver
  repeat' first
      | with_reducible assumption | with_reducible intro _ | with_reducible apply State.rollBack_inv
      | with_reducible apply optInv_none | with_reducible apply optInv_some | split | dsimp only

theorem State.regWrite_inv {s : State} (h : s.Inv) (space : RegSpace) (a : Nat) (v : W64) :
    (State.regWrite s space a v).Inv := by
  unfold State.regWrite
  repeat' first
      | with_reducible assumption | with_reducible intro _ | with_reducible apply State.beat_inv
      | with_reducible apply State.devWrite_inv | with_reducible apply State.doorbell_inv
      | with_reducible apply State.mboxWrite_inv | with_reducible apply getD_inv
      | with_reducible refine optInv_get (by assumption) ?_
      | (with_reducible refine State.inv_mk ?_ rfl rfl rfl rfl rfl; first | with_reducible assumption | with_reducible apply State.beat_inv | with_reducible apply State.mboxWrite_inv | with_reducible apply getD_inv)
      | split | dsimp only

theorem State.setService_inv {s : State} (h : s.Inv) (v : BitVec 2) : (State.setService s v).Inv := by
  unfold State.setService
  repeat' first
      | with_reducible assumption | with_reducible intro _ | with_reducible apply State.rebaseDie_inv
      | with_reducible apply foldl_inv
      | (with_reducible refine State.inv_mk ?_ rfl rfl rfl rfl rfl; first | with_reducible assumption | with_reducible apply State.rebaseDie_inv | with_reducible apply foldl_inv)
      | split | dsimp only

theorem State.booted_inv {s : State} (h : s.Inv) : (State.booted s).Inv := by
  unfold State.booted
  repeat' first
      | with_reducible assumption | with_reducible intro _ | with_reducible apply State.modCluster_inv
      | with_reducible apply State.restoreWays_inv | with_reducible apply State.setService_inv
      | with_reducible apply foldl_inv
      | (with_reducible refine State.inv_mk ?_ rfl rfl rfl rfl rfl; first | with_reducible assumption | with_reducible apply State.modCluster_inv | with_reducible apply State.restoreWays_inv | with_reducible apply State.setService_inv | with_reducible apply foldl_inv)
      | split | dsimp only

theorem State.claim_inv {s : State} (h : s.Inv) (id : BitVec 20) : (State.claim s id).Inv := by
  unfold State.claim
  repeat' first
      | with_reducible assumption | with_reducible intro _
      | (with_reducible refine State.inv_mk ?_ rfl rfl rfl rfl rfl; first | with_reducible assumption) | split
      | dsimp only

theorem State.addRoute_inv {s : State} (h : s.Inv) (x : Reached) : (State.addRoute s x).Inv := by
  unfold State.addRoute
  repeat' first
      | with_reducible assumption | with_reducible intro _ | with_reducible apply optInv_map
      | (with_reducible refine State.inv_mk ?_ rfl rfl rfl rfl rfl; first | with_reducible assumption) | dsimp only

theorem State.attested_inv {s : State} (h : s.Inv) (nonce : BitVec 256) : (State.attested s nonce).Inv := by
  unfold State.attested
  repeat' first
      | with_reducible assumption | with_reducible intro _ | with_reducible apply optInv_map
      | (with_reducible refine State.inv_mk ?_ rfl rfl rfl rfl rfl; first | with_reducible assumption) | dsimp only

theorem State.send_inv {s : State} (h : s.Inv) (dest : BitVec 20) (b : FlitBody) : (State.send s dest b).Inv := by
  unfold State.send
  repeat' first
      | with_reducible assumption | with_reducible intro _
      | (with_reducible refine State.inv_mk ?_ rfl rfl rfl rfl rfl; first | with_reducible assumption) | dsimp only

theorem State.cancelWait_inv {s : State} (h : s.Inv) (name : W64) (dev : BitVec 20) (core : Nat) (slot : Nat) (uid : Nat) :
    (State.cancelWait s name dev core slot uid).Inv := by
  unfold State.cancelWait
  repeat' first
      | with_reducible assumption | with_reducible intro _ | with_reducible apply State.modDie_inv
      | with_reducible apply State.send_inv
      | (with_reducible refine State.inv_mk ?_ rfl rfl rfl rfl rfl; first | with_reducible assumption | with_reducible apply State.modDie_inv | with_reducible apply State.send_inv)
      | split | dsimp only

theorem State.waitCancelled_inv {s : State} (h : s.Inv) (r : SlotRef) (uid : Nat) :
    (State.waitCancelled s r uid).Inv := by
  unfold State.waitCancelled
  repeat' first
      | with_reducible assumption | with_reducible intro _ | with_reducible apply State.modSlot_inv
      | (with_reducible refine State.inv_mk ?_ rfl rfl rfl rfl rfl; first | with_reducible assumption | with_reducible apply State.modSlot_inv)
      | split | dsimp only

theorem State.takeFence_inv {s : State} (h : s.Inv) (dev : BitVec 20) (q : Nat) (gen : BitVec 8) :
    (State.takeFence s dev q gen).Inv := by
  unfold State.takeFence
  repeat' first
      | with_reducible assumption | with_reducible intro _ | with_reducible apply State.send_inv
      | with_reducible apply optInv_map
      | (with_reducible refine State.inv_mk ?_ rfl rfl rfl rfl rfl; first | with_reducible assumption | with_reducible apply State.send_inv)
      | dsimp only

theorem State.takeCommand_inv {s : State} (h : s.Inv) (c : Cmd) (block : List W64) :
    (State.takeCommand s c block).Inv := by
  unfold State.takeCommand
  repeat' first
      | with_reducible assumption | with_reducible intro _ | with_reducible apply State.nextCmds_inv
      | with_reducible apply State.ringAll_inv | with_reducible apply foldl_inv | with_reducible apply getD_inv
      | (with_reducible refine State.inv_mk ?_ rfl rfl rfl rfl rfl; first | with_reducible assumption | with_reducible apply State.nextCmds_inv | with_reducible apply State.ringAll_inv | with_reducible apply foldl_inv | with_reducible apply getD_inv)
      | dsimp only

theorem State.bridgeAtomic_inv {s : State} (h : s.Inv) (dev : BitVec 20) (tag : Nat) (offset : Nat) (o : HostAtomic) :
    (State.bridgeAtomic s dev tag offset o).Inv := by
  unfold State.bridgeAtomic
  repeat' first
      | with_reducible assumption | with_reducible intro _ | with_reducible apply State.homeWrite_inv
      | with_reducible apply State.poke_inv | with_reducible apply State.send_inv | with_reducible apply optInv_map
      | split | dsimp only

theorem State.takeHostValue_inv {s : State} (h : s.Inv) (tag : Nat) (bytes : List Byte) :
    (State.takeHostValue s tag bytes).Inv := by
  unfold State.takeHostValue
  split
  · exact h
  · dsimp only
    split
    · split
      · exact h
      · exact h
    · exact ⟨Memory.wf_setAll h.1 _, h.2⟩

theorem State.takeCost_inv {s : State} (h : s.Inv) (dev : BitVec 20) (cost : Nat) :
    (State.takeCost s dev cost).Inv := by
  unfold State.takeCost
  repeat' first
      | with_reducible assumption | with_reducible intro _ | with_reducible apply optInv_map
      | (with_reducible refine State.inv_mk ?_ rfl rfl rfl rfl rfl; first | with_reducible assumption) | dsimp only

theorem State.takeFlit_inv {s : State} (h : s.Inv) (b : FlitBody) : (State.takeFlit s b).Inv := by
  unfold State.takeFlit
  repeat' first
      | with_reducible assumption | with_reducible intro _ | with_reducible apply State.answerCmd_inv
      | with_reducible apply State.answerSem_inv | with_reducible apply State.bridgeAtomic_inv
      | with_reducible apply State.cancelWait_inv | with_reducible apply State.homeWrite_inv
      | with_reducible apply State.latchHere_inv | with_reducible apply State.modLaunch_inv
      | with_reducible apply State.modQueue_inv | with_reducible apply State.postSem_inv
      | with_reducible apply State.releaseTcb_inv | with_reducible apply State.send_inv
      | with_reducible apply State.takeCommand_inv | with_reducible apply State.takeCost_inv
      | with_reducible apply State.takeFence_inv | with_reducible apply State.takeHostValue_inv
      | with_reducible apply State.waitCancelled_inv | with_reducible apply optInv_map
      | (with_reducible refine State.inv_mk ?_ rfl rfl rfl rfl rfl; first | with_reducible assumption | with_reducible apply State.answerCmd_inv | with_reducible apply State.answerSem_inv | with_reducible apply State.bridgeAtomic_inv | with_reducible apply State.cancelWait_inv | with_reducible apply State.homeWrite_inv | with_reducible apply State.latchHere_inv | with_reducible apply State.modLaunch_inv | with_reducible apply State.modQueue_inv | with_reducible apply State.postSem_inv | with_reducible apply State.releaseTcb_inv | with_reducible apply State.send_inv | with_reducible apply State.takeCommand_inv | with_reducible apply State.takeCost_inv | with_reducible apply State.takeFence_inv | with_reducible apply State.takeHostValue_inv | with_reducible apply State.waitCancelled_inv)
      | split | dsimp only

end Sys2Proof.Machine
end

