-- ==== Sys2Proof/Laws/Ops.lean ====
section
/-! SUPPORT. What the shared operations of the meanings do, said once each: results written to registers, stalls, traps, and
records appended to engine queues. -/

namespace Sys2Proof.Machine

/-! ## Frames -/

theorem deviceKept_setSlot (s : State) (r : SlotRef) (l : Slot) : DeviceKept s (s.setSlot r l) := by
  refine ⟨rfl, fun g => ?_⟩
  unfold State.setSlot
  rw [State.core_setCore]
  by_cases h : g = r.core
  · subst h; rw [if_pos rfl]; rfl
  · rw [if_neg h]

/-- Changing the executing slot changes no other one. -/
theorem othersKept_mapSlot (s : State) (f : Slot → Slot) : OthersKept s (s.mapSlot f) :=
  fun r h => by rw [State.slotAt_mapSlot, if_neg h]

theorem vis_setSlot (s : State) (r : SlotRef) (l : Slot) (g n : Nat) : (s.setSlot r l).vis g n = s.vis g n := rfl

/-- Changing the executing slot leaves every byte that its buffer and its refresh point hold alone. -/
theorem bytesKept_mapSlot (s : State) (f : Slot → Slot) (P : Nat → Prop)
    (h : ∀ n, ¬ P n → (s.mapSlot f).readByte s.cur n = s.readByte s.cur n) : BytesKept P s (s.mapSlot f) := by
  refine fun n hn => ⟨rfl, fun g => rfl, fun r => ?_⟩
  by_cases hr : r = s.cur
  · subst hr; exact h n hn
  · unfold State.readByte
    rw [State.slotAt_mapSlot, if_neg hr]; rfl

theorem readByte_mapSlot (s : State) (f : Slot → Slot) (n : Nat) (hp : (f s.slot).pend = s.slot.pend)
    (hs : (f s.slot).snap = s.slot.snap) : (s.mapSlot f).readByte s.cur n = s.readByte s.cur n := by
  unfold State.readByte
  rw [State.slotAt_mapSlot, if_pos rfl, State.slotAt_cur]
  dsimp only
  rw [hp, hs]; rfl

/-- The frame of an instruction that changes nothing but its slot, and neither the slot's store buffer nor what it has
read. -/
theorem frame_mapSlot (s : State) (f : Slot → Slot) (hp : (f s.slot).pend = s.slot.pend)
    (hs : (f s.slot).snap = s.slot.snap) : Frame s (s.mapSlot f) :=
  ⟨deviceKept_setSlot _ _ _, othersKept_mapSlot _ _, bytesKept_mapSlot _ _ _ fun n _ => readByte_mapSlot s f n hp hs⟩

/-! ## Results -/


theorem Slot.computed_wx (l : Slot) (d : XReg) (v : W64) : l.Computed (l.wx d v).next := by
  unfold Slot.Computed Slot.wx; split <;> rfl
theorem Slot.computed_wp (l : Slot) (d : PReg) (v : Bool) : l.Computed (l.wp d v).next := by
  unfold Slot.Computed Slot.wp; split <;> rfl

theorem State.retire_wx (s : State) (d : XReg) (v : W64) : (s.wx d v).retire = s.mapSlot fun l => (l.wx d v).next := by
  unfold State.wx State.retire; rw [State.mapSlot_mapSlot]
theorem State.retire_wp (s : State) (d : PReg) (v : Bool) : (s.wp d v).retire = s.mapSlot fun l => (l.wp d v).next := by
  unfold State.wp State.retire; rw [State.mapSlot_mapSlot]

/-- A result written to a register, and on to the next word, is what `Puts` says. -/
theorem puts_of (s : State) (i : Instr) (d : XReg) (v : W64) (h : exec i s = .next (s.wx d v).retire) : Puts s i d v := by
  rw [State.retire_wx] at h
  refine ⟨_, h, frame_mapSlot _ _ (by simp [Slot.next, Slot.goto]) (by simp [Slot.next, Slot.goto]), ?_, ⟨?_, ?_, ?_⟩, ?_⟩
  · rw [State.slot_mapSlot]; exact Slot.computed_wx _ _ _
  · rw [State.rx_mapSlot, Slot.rx_next, Slot.rx_wx, if_pos rfl]
  · intro r hr; rw [State.rx_mapSlot, Slot.rx_next, Slot.rx_wx, if_neg hr]; rfl
  · intro q; rw [State.slot_mapSlot, Slot.rp_next, Slot.rp_wx]
  · rw [State.slot_mapSlot]; simp [Slot.next, Slot.goto]

/-- A truth written to a predicate, and on to the next word, is what `PutsP` says. -/
theorem putsP_of (s : State) (i : Instr) (d : PReg) (v : Bool) (h : exec i s = .next (s.wp d v).retire) :
    PutsP s i d v := by
  rw [State.retire_wp] at h
  refine ⟨_, h, frame_mapSlot _ _ (by simp [Slot.next, Slot.goto]) (by simp [Slot.next, Slot.goto]), ?_, ⟨?_, ?_, ?_⟩, ?_⟩
  · rw [State.slot_mapSlot]; exact Slot.computed_wp _ _ _
  · rw [State.slot_mapSlot, Slot.rp_next, Slot.rp_wp, if_pos rfl]
  · intro q hq; rw [State.slot_mapSlot, Slot.rp_next, Slot.rp_wp, if_neg hq]
  · intro r; rw [State.rx_mapSlot, Slot.rx_next, Slot.rx_wp]; rfl
  · rw [State.slot_mapSlot]; simp [Slot.next, Slot.goto]

/-- An instruction whose effect is a change of its slot's own fields. -/
theorem becomes_of (s : State) (i : Instr) (f : Slot → Slot) (h : exec i s = .next (s.mapSlot f))
    (hp : (f s.slot).pend = s.slot.pend) (hs : (f s.slot).snap = s.slot.snap) : Becomes s i (f s.slot) :=
  ⟨_, h, frame_mapSlot _ _ hp hs, State.slot_mapSlot _ _⟩

/-! ## Traps -/

theorem bits_trapStat_low (old : W64) (t : PendTrap) (hq : t.qent = 0) (ho : t.orig = 0) :
    bits (trapStat old t) 31 0 = 1 := by
  unfold trapStat; rw [hq, ho]
  simp only [bits, w64, BitVec.toNat_ofNat, Nat.reducePow, Nat.reduceAdd, Nat.reduceSub, BitVec.ofNat_eq_ofNat]
  omega

theorem bits_trapStat_high (old : W64) (t : PendTrap) (hq : t.qent = 0) (ho : t.orig = 0) :
    bits (trapStat old t) 63 32 = bits old 63 32 := by
  unfold trapStat; rw [hq, ho]
  have := old.isLt
  simp only [bits, w64, BitVec.toNat_ofNat, Nat.reducePow, Nat.reduceAdd, Nat.reduceSub, BitVec.ofNat_eq_ofNat]
  omega

/-- Entering the handler for a precise trap that is not fatal, outside a handler, is what `Trapped` says. -/
theorem trapped_trap (s : State) (c : Cause) (v : W64) (w : W32) (hf : c.fatal = false) (hi : s.slot.inh = false) :
    Trapped s (s.trap c v w) c v w := by
  have e : s.trap c v w = s.mapSlot (·.enterTrap { cause := c, tval := v, word := w, qent := 0, orig := 0 }
      s.slot.trapPc) := by
    unfold State.trap State.takeTrap
    rw [State.slotAt_cur]; dsimp only
    rw [hf, hi]; rfl
  rw [e]
  refine ⟨frame_mapSlot _ _ rfl rfl, ?_, ?_, ?_⟩
  · rw [State.slot_mapSlot]; exact bits_trapStat_low _ _ rfl rfl
  · rw [State.slot_mapSlot]; exact bits_trapStat_high _ _ rfl rfl
  · rw [State.slot_mapSlot]; rfl

theorem traps_of (s : State) (i : Instr) (c : Cause) (v : W64) (h : exec i s = .next (s.trap c v i.encode))
    (hf : c.fatal = false) (hi : s.slot.inh = false) : Traps s i c v := ⟨_, h, trapped_trap s c v _ hf hi⟩

/-- A free value of the executing task's own traps: the counters have counted. -/
theorem State.freeFor_own (s : State) : ∃ v n, s.freeFor s.cur true =
    (v, (({ s with freeCtr := n } : State).mapSlot fun l => { l with opens := l.opens + 1 })) := by
  unfold State.freeFor State.freeAs
  dsimp only
  split
  · exact ⟨_, s.freeCtr + 1, rfl⟩
  · exact ⟨_, s.freeCtr, rfl⟩

/-- The same for a trap whose TVAL is free. -/
theorem trapsOpen_of (s : State) (i : Instr) (c : Cause) (h : exec i s = .next (s.trapOpen c i.encode))
    (hf : c.fatal = false) (hi : s.slot.inh = false) : TrapsOpen s i c := by
  obtain ⟨v, n, e⟩ := State.freeFor_own s
  unfold State.trapOpen at h
  rw [e] at h
  refine ⟨_, v, n, h, trapped_trap _ c v _ hf ?_⟩
  rw [State.slot_mapSlot]; exact hi

/-! ## Floating point -/

theorem fpDone_ends (s : State) (i : Instr) (fl : Fl) (write : Slot → Slot) (done : State → Prop)
    (h : exec i s = s.fpDone fl i.encode write)
    (hp : ∀ l, (write l).pend = l.pend) (hs : ∀ l, (write l).snap = l.snap) (hf : ∀ l, (write l).fpctl = l.fpctl)
    (hc : ∀ l : Slot, l.Computed (write l).next)
    (hd : done (s.mapSlot fun l => (write { l with fpctl := mergeFlags l.fpctl fl }).next)) : FloatEnds s i fl done := by
  unfold State.fpDone at h
  constructor
  · intro he
    rw [if_neg (by rw [he]; simp)] at h
    simp only [State.mapSlot_mapSlot, State.retire] at h
    refine ⟨_, h, frame_mapSlot _ _ ?_ ?_, ?_, ?_, hd⟩
    · rw [show ∀ l : Slot, l.next.pend = l.pend from fun _ => rfl, hp]
    · rw [show ∀ l : Slot, l.next.snap = l.snap from fun _ => rfl, hs]
    · rw [State.slot_mapSlot]
      have := hc { s.slot with fpctl := mergeFlags s.slot.fpctl fl }
      unfold Slot.Computed at this ⊢
      exact this
    · rw [State.slot_mapSlot, show ∀ l : Slot, l.next.fpctl = l.fpctl from fun _ => rfl, hf]; rfl
  · intro he hi
    rw [if_pos he] at h
    refine ⟨_, h, trapped_trap _ _ _ _ rfl ?_⟩
    rw [State.slot_mapSlot]; exact hi

/-- A floating-point instruction that writes a register. -/
theorem floatWrites_of (s : State) (i : Instr) (fl : Fl) (d : XReg) (v : W64)
    (h : exec i s = s.fpDone fl i.encode (·.wx d v)) : FloatEnds s i fl fun t => RegIs s t d v := by
  refine fpDone_ends s i _ (·.wx d v) _ h (fun l => by simp) (fun l => by simp) (fun l => by simp)
    (fun l => Slot.computed_wx _ _ _) ⟨?_, ?_, ?_⟩
  · rw [State.rx_mapSlot, Slot.rx_next, Slot.rx_wx, if_pos rfl]
  · intro r hr; rw [State.rx_mapSlot, Slot.rx_next, Slot.rx_wx, if_neg hr]; rfl
  · intro q; rw [State.slot_mapSlot, Slot.rp_next, Slot.rp_wx]; rfl

/-- A floating-point result is what `FloatPuts` says. -/
theorem floatPuts_of (s : State) (i : Instr) (d : XReg) (v : Nat × Fl) (fl : Fl)
    (h : exec i s = s.fput d v fl i.encode) : FloatPuts s i d v fl := floatWrites_of s i _ d _ h

/-- A floating-point instruction that writes a predicate. -/
theorem floatPredicate_of (s : State) (i : Instr) (fl : Fl) (d : PReg) (v : Bool)
    (h : exec i s = s.fpDone fl i.encode (·.wp d v)) : FloatEnds s i fl fun t => PredIs s t d v := by
  refine fpDone_ends s i _ (·.wp d v) _ h (fun l => by simp) (fun l => by simp) (fun l => by simp)
    (fun l => Slot.computed_wp _ _ _) ⟨?_, ?_, ?_⟩
  · rw [State.slot_mapSlot, Slot.rp_next, Slot.rp_wp, if_pos rfl]
  · intro q hq; rw [State.slot_mapSlot, Slot.rp_next, Slot.rp_wp, if_neg hq]; rfl
  · intro r; rw [State.rx_mapSlot, Slot.rx_next, Slot.rx_wp]; rfl

end Sys2Proof.Machine
end

