-- ==== Sys2Proof/Laws/Access.lean ====
section
/-! SUPPORT. The accesses of a task: what a check changes (R174), what a load keeps of its granule (R200), and what the store
buffer holds after a store (R193). -/

namespace Sys2Proof.Machine

/-! ## Bytes of a number -/

theorem natOfBytes_byte (bs : List Byte) (k : Nat) (h : k < bs.length) :
    BitVec.ofNat 8 (natOfBytes bs / 2 ^ (8 * k)) = bs[k] := by
  induction bs generalizing k with
  | nil => simp at h
  | cons b bs ih =>
    cases k with
    | zero =>
      apply BitVec.eq_of_toNat_eq
      have := b.isLt
      simp only [natOfBytes, Nat.mul_zero, Nat.pow_zero, Nat.div_one, BitVec.toNat_ofNat, List.getElem_cons_zero]
      omega
    | succ k =>
      have e : natOfBytes (b :: bs) / 2 ^ (8 * (k + 1)) = natOfBytes bs / 2 ^ (8 * k) := by
        have := b.isLt
        rw [show 8 * (k + 1) = 8 + 8 * k by omega, Nat.pow_add, ← Nat.div_div_eq_div_mul]
        congr 1
        simp only [natOfBytes]; omega
      rw [e, ih k (by simpa using h), List.getElem_cons_succ]

theorem natOfBytes_lt (bs : List Byte) : natOfBytes bs < 2 ^ (8 * bs.length) := by
  induction bs with
  | nil => simp [natOfBytes]
  | cons b bs ih =>
    have := b.isLt
    have e : 2 ^ (8 * (bs.length + 1)) = 256 * 2 ^ (8 * bs.length) := by
      rw [show 8 * (bs.length + 1) = 8 + 8 * bs.length by omega, Nat.pow_add]
    simp only [natOfBytes, List.length_cons, e]; omega

/-- Byte k of a granule as a core sees it. -/
theorem State.granule_byte (s : State) (g n k : Nat) (h : k < 64) :
    BitVec.ofNat 8 ((s.granule g n).toNat / 2 ^ (8 * k)) = s.vis g (64 * n + k) := by
  unfold State.granule
  set_option exponentiation.threshold 512 in
  rw [BitVec.toNat_ofNat, Nat.mod_eq_of_lt]
  · rw [natOfBytes_byte _ _ (by simpa using h)]; simp
  · have := natOfBytes_lt ((List.range 64).map fun k => s.vis g (64 * n + k))
    simpa using this

/-! ## What a load keeps -/

theorem State.readByte_ext {s t : State} (r : SlotRef) (n : Nat) (hp : (t.slotAt r).pend = (s.slotAt r).pend)
    (hs : (t.slotAt r).snap = (s.slotAt r).snap) (hv : t.vis r.core n = s.vis r.core n) :
    t.readByte r n = s.readByte r n := by
  unfold State.readByte; dsimp only; rw [hp, hs, hv]

theorem State.vis_modSlot (s : State) (r : SlotRef) (f : Slot → Slot) (g n : Nat) :
    (s.modSlot r f).vis g n = s.vis g n := rfl

/-- Keeping a granule that has been read changes no byte that the task reads. -/
theorem State.readByte_noteRead (s : State) (r q : SlotRef) (m n : Nat) :
    (s.noteRead r m).readByte q n = s.readByte q n := by
  unfold State.noteRead
  split
  · rfl
  · rename_i h
    unfold State.readByte
    rw [State.slotAt_modSlot, State.vis_modSlot]
    by_cases hq : q = r
    · subst hq
      rw [if_pos rfl]
      dsimp only
      rw [tmem_tset]
      by_cases hn : m / 64 = n / 64
      · rw [← hn, tget_tset_same]
        simp only [beq_self_eq_true, Bool.true_or, if_true]
        have e : 64 * (m / 64) + n % 64 = n := by omega
        have := s.granule_byte q.core (m / 64) (n % 64) (by omega)
        rw [e] at this
        rw [this, if_neg h]
      · rw [tget_tset_ne _ _ _ (Ne.symm hn)]
        have : (m / 64 == n / 64) = false := by simp [hn]
        rw [this, Bool.false_or]
    · rw [if_neg hq]

/-! ## What a check changes -/

theorem State.slotAt_homeWrite (s : State) (cs : List (Nat × Byte)) (r : SlotRef) :
    (s.homeWrite cs).slotAt r = s.slotAt r := rfl

theorem State.cur_homeWrite (s : State) (cs : List (Nat × Byte)) : (s.homeWrite cs).cur = s.cur := rfl

theorem State.slotAt_modCore (s : State) (g : Nat) (f : Core → Core) (r : SlotRef)
    (h : ∀ c, (f c).slots = c.slots) : (s.modCore g f).slotAt r = s.slotAt r := by
  unfold State.slotAt Core.slot
  rw [State.core_modCore]
  by_cases e : r.core = g
  · rw [if_pos e]; simp only [h, e]
  · rw [if_neg e]

theorem State.slotAt_pin {s t : State} {g off : Nat} (h : s.pin g off = some t) (r : SlotRef) : t.slotAt r = s.slotAt r := by
  unfold State.pin at h
  dsimp only at h
  split at h
  · cases h; rfl
  · split at h
    · cases h; rfl
    · split at h
      · cases h
      · rw [← Option.some.inj h, State.slotAt_homeWrite]
        refine State.slotAt_modCore _ _ _ _ ?_; intro c; rfl

theorem State.slotAt_touch (s : State) (g : Nat) (e : W64) (a : Nat) (k : Access) (r : SlotRef) :
    (s.touch g e a k).slotAt r = s.slotAt r := by
  unfold State.touch
  generalize e ||| (if k.writes then (0x30 : W64) else 0x10) = want
  dsimp only
  split
  · rfl
  · rw [State.slotAt_modCore]; · rfl
    intro c; rfl

/-- A check that passes changes nothing but what the bridging device has been asked (R409). -/
theorem State.checkLate_eq {s t : State} {r : SlotRef} {va l n loc : Nat} {p : Option (Nat × Nat)} {k : Access} {m : Mode}
    (h : s.checkLate r va l n p k m = .ok loc t) : (∃ q, t = { s with hostReqs := q }) ∧ loc = l := by
  unfold State.checkLate at h
  dsimp only at h
  generalize hd : (if k = .read ∧ m.unit = 0 ∧ hostLoc l = true then s.doneHost r 0 else s) = d at h
  have hq : ∃ q, d = { s with hostReqs := q } := by rw [← hd]; split <;> exact ⟨_, rfl⟩
  repeat' split at h
  all_goals first
    | (injection h with h1 h2; exact ⟨h2 ▸ ⟨_, rfl⟩, h1.symm⟩)
    | (injection h with h1 h2; exact ⟨h2 ▸ hq, h1.symm⟩)
    | cases h

theorem State.checkLate_slotAt {s t : State} {r : SlotRef} {va l n loc : Nat} {p : Option (Nat × Nat)} {k : Access} {m : Mode}
    (h : s.checkLate r va l n p k m = .ok loc t) (q : SlotRef) : t.slotAt q = s.slotAt q := by
  obtain ⟨⟨_, rfl⟩, -⟩ := State.checkLate_eq h; rfl

theorem State.checkLate_cur {s t : State} {r : SlotRef} {va l n loc : Nat} {p : Option (Nat × Nat)} {k : Access} {m : Mode}
    (h : s.checkLate r va l n p k m = .ok loc t) : t.cur = s.cur := by
  obtain ⟨⟨_, rfl⟩, -⟩ := State.checkLate_eq h; rfl

/-- A check that passes changes no slot. -/
theorem State.slotAt_check {s t : State} {r : SlotRef} {va n loc : Nat} {k : Access} {m : Mode}
    (h : s.check r va n k m = .ok loc t) (q : SlotRef) : t.slotAt q = s.slotAt q := by
  unfold State.check at h
  dsimp only at h
  split at h
  · split at h
    · cases h
    · split at h
      · cases h
      · rename_i hp; rw [State.checkLate_slotAt h]; exact State.slotAt_pin hp q
  · split at h
    · split at h
      · cases h
      · split at h
        · cases h
        · rename_i hp; rw [State.checkLate_slotAt h]; exact State.slotAt_pin hp q
    · unfold State.checkTranslated at h
      dsimp only at h
      repeat' split at h
      all_goals first
        | cases h
        | (rw [State.checkLate_slotAt h, State.slotAt_touch]; done)
        | (rw [State.checkLate_slotAt h, State.slotAt_touch, State.slotAt_modCore]; intro c; rfl)

theorem State.cur_touch (s : State) (g : Nat) (e : W64) (a : Nat) (k : Access) : (s.touch g e a k).cur = s.cur := by
  unfold State.touch
  generalize e ||| (if k.writes then (0x30 : W64) else 0x10) = want
  dsimp only
  split <;> rfl

theorem State.cur_pin {s t : State} {g off : Nat} (h : s.pin g off = some t) : t.cur = s.cur := by
  unfold State.pin at h
  dsimp only at h
  split at h
  · cases h; rfl
  · split at h
    · cases h; rfl
    · split at h
      · cases h
      · rw [← Option.some.inj h, State.cur_homeWrite]; rfl

theorem State.cur_check {s t : State} {r : SlotRef} {va n loc : Nat} {k : Access} {m : Mode}
    (h : s.check r va n k m = .ok loc t) : t.cur = s.cur := by
  unfold State.check at h
  dsimp only at h
  split at h
  · split at h
    · cases h
    · split at h
      · cases h
      · rename_i hp; rw [State.checkLate_cur h]; exact State.cur_pin hp
  · split at h
    · split at h
      · cases h
      · split at h
        · cases h
        · rename_i hp; rw [State.checkLate_cur h]; exact State.cur_pin hp
    · unfold State.checkTranslated at h
      dsimp only at h
      repeat' split at h
      all_goals first
        | cases h
        | (rw [State.checkLate_cur h, State.cur_touch]
           done)
        | (rw [State.checkLate_cur h, State.cur_touch]; rfl)

/-! ## Joins -/

theorem State.retire_mapSlot (s : State) (f : Slot → Slot) : (s.mapSlot f).retire = s.mapSlot fun l => (f l).next := by
  unfold State.retire; rw [State.mapSlot_mapSlot]

/-- A join of passed destination bytes marks records of engine writes, and changes nothing else (R207). -/
theorem State.joinPassed_eq (s : State) (va n : Nat) :
    ∃ f : Slot → Slot, (∀ l, ∃ x, f l = { l with hidden := x }) ∧ s.joinPassed va n = s.mapSlot f := by
  unfold State.joinPassed; exact ⟨_, fun l => ⟨_, rfl⟩, rfl⟩

/-- A read keeps its granule, where that was not read before (R200). -/
theorem State.noteRead_eq (s : State) (n : Nat) :
    (tmem s.slot.snap (n / 64) = true ∧ s.noteRead s.cur n = s) ∨
    ∃ f : Slot → Slot, tmem (f s.slot).snap (n / 64) = true ∧ (∀ l, ∃ x, f l = { l with snap := x }) ∧
      s.noteRead s.cur n = s.mapSlot f := by
  unfold State.noteRead
  rw [State.slotAt_cur]
  by_cases h : tmem s.slot.snap (n / 64) = true
  · rw [if_pos h]; exact .inl ⟨h, rfl⟩
  · rw [if_neg h]
    exact .inr ⟨fun l => { l with snap := tset l.snap (n / 64) (s.granule s.cur.core (n / 64)) }, by simp, fun l => ⟨_, rfl⟩, rfl⟩

theorem State.readByte_modSlot_of (s : State) (r q : SlotRef) (f : Slot → Slot) (n : Nat)
    (hp : (f (s.slotAt r)).pend = (s.slotAt r).pend) (hs : (f (s.slotAt r)).snap = (s.slotAt r).snap) :
    (s.modSlot r f).readByte q n = s.readByte q n := by
  refine State.readByte_ext q n ?_ ?_ rfl
  · rw [State.slotAt_modSlot]; split
    · rename_i h; subst h; exact hp
    · rfl
  · rw [State.slotAt_modSlot]; split
    · rename_i h; subst h; exact hs
    · rfl

/-- A change of the executing slot after which its task still reads every byte as before. -/
theorem frame_of_readByte (s : State) (f : Slot → Slot) (h : ∀ n, (s.mapSlot f).readByte s.cur n = s.readByte s.cur n) :
    Frame s (s.mapSlot f) :=
  ⟨deviceKept_setSlot _ _ _, othersKept_mapSlot _ _, bytesKept_mapSlot _ _ _ fun n _ => h n⟩

/-- Everything a load does once its checks have passed (R172, R199, R200). -/
theorem loads_of (s : State) (i : Instr) (d : XReg) (va : W64) (n : Nat) (f : Nat → W64)
    (h : exec i s = .next (s.load va n i.encode fun v s1 => (s1.wx d (f v)).retire)) : Loads s i d va n f := by
  intro loc u ⟨ha, hc⟩
  have hcur := State.cur_check hc
  have hslot : u.slot = s.slot := by unfold State.slot; rw [hcur]; exact State.slotAt_check hc _
  unfold State.load State.aligned_ at h
  rw [if_neg (by simpa using ha)] at h
  unfold State.access at h
  rw [hc] at h
  dsimp only at h
  obtain ⟨J, hJ, hj⟩ := State.joinPassed_eq (u.noteRead u.cur loc) va.toNat n
  rw [hj] at h
  have Jp : ∀ l, (J l).pend = l.pend := fun l => by obtain ⟨x, hx⟩ := hJ l; rw [hx]
  have Js : ∀ l, (J l).snap = l.snap := fun l => by obtain ⟨x, hx⟩ := hJ l; rw [hx]
  have key : ∃ G : Slot → Slot, (u.noteRead u.cur loc).mapSlot J = u.mapSlot G ∧
      (∀ a, (u.mapSlot G).readByte u.cur a = u.readByte u.cur a) ∧ tmem (G u.slot).snap (loc / 64) = true ∧
      G u.slot = { u.slot with snap := (G u.slot).snap, hidden := (G u.slot).hidden } := by
    rcases State.noteRead_eq u loc with ⟨h1, h2⟩ | ⟨F, h1, hF, h2⟩
    · rw [h2]
      exact ⟨_, rfl, fun a => State.readByte_modSlot_of u u.cur u.cur _ a (Jp _) (Js _), by rw [Js]; exact h1,
        by obtain ⟨x, hx⟩ := hJ u.slot; rw [hx]⟩
    · have h3 := fun a => State.readByte_noteRead u u.cur u.cur loc a
      rw [h2] at h3 ⊢
      refine ⟨fun l => J (F l), State.mapSlot_mapSlot _ _ _, fun a => ?_, by rw [Js]; exact h1, ?_⟩
      · rw [← h3 a]
        refine State.readByte_ext _ _ ?_ ?_ rfl
        · rw [State.slotAt_mapSlot, State.slotAt_mapSlot, if_pos rfl, if_pos rfl, Jp]
        · rw [State.slotAt_mapSlot, State.slotAt_mapSlot, if_pos rfl, if_pos rfl, Js]
      · obtain ⟨x, hx⟩ := hJ (F u.slot)
        obtain ⟨y, hy⟩ := hF u.slot
        beta_reduce
        rw [hx, hy]
  obtain ⟨G, hG, hr, ht, he⟩ := key
  rw [hG] at h
  unfold State.wx at h
  rw [State.mapSlot_mapSlot, State.retire_mapSlot] at h
  refine ⟨_, h, frame_of_readByte _ _ fun a => ?_, ⟨?_, ?_, ?_⟩, ?_, ?_⟩
  · have hr' := hr a
    rw [← hr']
    refine State.readByte_ext _ _ ?_ ?_ rfl
    · rw [State.slotAt_mapSlot, State.slotAt_mapSlot, if_pos rfl, if_pos rfl]
      show ((G u.slot).wx d _).next.pend = (G u.slot).pend
      simp [Slot.next, Slot.goto]
    · rw [State.slotAt_mapSlot, State.slotAt_mapSlot, if_pos rfl, if_pos rfl]
      show ((G u.slot).wx d _).next.snap = (G u.slot).snap
      simp [Slot.next, Slot.goto]
  · rw [State.rx_mapSlot, Slot.rx_next, Slot.rx_wx, if_pos rfl, hcur]
  · intro r hr2; rw [State.rx_mapSlot, Slot.rx_next, Slot.rx_wx, if_neg hr2]
    show (G u.slot).rx r = u.slot.rx r
    rw [he]; rfl
  · intro q; rw [State.slot_mapSlot, Slot.rp_next, Slot.rp_wx, he]; rfl
  · rw [State.slot_mapSlot]
    show tmem ((G u.slot).wx d _).next.snap _ = true
    rw [show ((G u.slot).wx d (f (u.readBytes u.cur loc n))).next.snap = (G u.slot).snap by simp [Slot.next, Slot.goto]]
    exact ht
  · rw [State.slot_mapSlot, ← hslot]
    have e2 : ∀ (l : Slot) v, (l.wx d v).next =
        { l with x := (l.wx d v).x, pc := l.pc + 4, pfx := [], started := true, stalled := false } := by
      intro l v; unfold Slot.wx Slot.next Slot.goto; split <;> rfl
    rw [e2]
    generalize (G u.slot).wx d _ = w
    rw [he]


/-! ## Stores -/

theorem cellsLE_succ (n k v : Nat) : cellsLE n (k + 1) v = cellsLE n k v ++ [(n + k, BitVec.ofNat 8 (v / 2 ^ (8 * k)))] := by
  unfold cellsLE; rw [List.range_succ]; simp

/-- What a store buffer lists after the bytes of a store have been put into it. -/
theorem tmem_foldl_cells (p : Table Byte) (n k v a : Nat) :
    tmem ((cellsLE n k v).foldl (fun p c => tset p c.1 c.2) p) a = (decide (n ≤ a ∧ a < n + k) || tmem p a) := by
  induction k with
  | zero =>
    have : ¬ (n ≤ a ∧ a < n + 0) := by omega
    simp [cellsLE, this]
  | succ k ih =>
    rw [cellsLE_succ, List.foldl_append]
    simp only [List.foldl_cons, List.foldl_nil, tmem_tset]
    rw [ih]
    by_cases h : n + k = a
    · have : n ≤ a ∧ a < n + (k + 1) := by omega
      simp [h, this]
    · have e : (n ≤ a ∧ a < n + (k + 1)) = (n ≤ a ∧ a < n + k) := by apply propext; omega
      have : (n + k == a) = false := by simp [h]
      rw [this, Bool.false_or]; simp only [e]

theorem tget_foldl_cells_out (p : Table Byte) (n k v a : Nat) (h : ¬ (n ≤ a ∧ a < n + k)) :
    tget 0 ((cellsLE n k v).foldl (fun p c => tset p c.1 c.2) p) a = tget 0 p a := by
  induction k with
  | zero => rfl
  | succ k ih =>
    rw [cellsLE_succ, List.foldl_append]
    simp only [List.foldl_cons, List.foldl_nil]
    rw [tget_tset_ne _ _ _ (by omega), ih (by omega)]

theorem tget_foldl_cells_in (p : Table Byte) (n k v j : Nat) (h : j < k) :
    tget 0 ((cellsLE n k v).foldl (fun p c => tset p c.1 c.2) p) (n + j) = BitVec.ofNat 8 (v / 2 ^ (8 * j)) := by
  induction k with
  | zero => omega
  | succ k ih =>
    rw [cellsLE_succ, List.foldl_append]
    simp only [List.foldl_cons, List.foldl_nil]
    by_cases e : j = k
    · subst e; rw [tget_tset_same]
    · rw [tget_tset_ne _ _ _ (by omega), ih (by omega)]

theorem extract_byte (v : W64) (j : Nat) : BitVec.ofNat 8 (v.toNat / 2 ^ (8 * j)) = v.extractLsb' (8 * j) 8 := by
  apply BitVec.eq_of_toNat_eq
  simp [BitVec.extractLsb'_toNat, Nat.shiftRight_eq_div_pow]

/-- What a task reads once a store has been put into its buffer. -/
theorem readByte_bufferStore (s : State) (loc n v a : Nat) :
    (s.bufferStore loc n v).readByte s.cur a =
      if loc ≤ a ∧ a < loc + n then BitVec.ofNat 8 (v / 2 ^ (8 * (a - loc))) else s.readByte s.cur a := by
  unfold State.bufferStore State.readByte
  rw [State.slotAt_mapSlot, if_pos rfl]
  dsimp only
  rw [tmem_foldl_cells, State.slotAt_cur]
  by_cases h : loc ≤ a ∧ a < loc + n
  · rw [if_pos h, if_pos (by simp [h])]
    have := tget_foldl_cells_in s.slot.pend loc n v (a - loc) (by omega)
    rwa [show loc + (a - loc) = a by omega] at this
  · rw [if_neg h, tget_foldl_cells_out _ _ _ _ _ h]
    simp only [h, decide_false, Bool.false_or]
    rfl

/-- Everything a store does once its checks have passed, where the buffer has room (R172, R193). -/
theorem stores_of (s : State) (i : Instr) (va : W64) (n : Nat) (v : W64)
    (h : exec i s = .next (s.store va n v.toNat i.encode)) : Stores s i va n v := by
  intro loc u ⟨ha, hc⟩ hroom
  have hcur := State.cur_check hc
  have hslot : u.slot = s.slot := by unfold State.slot; rw [hcur]; exact State.slotAt_check hc _
  unfold State.store State.aligned_ at h
  rw [if_neg (by simpa using ha)] at h
  unfold State.access at h
  rw [hc] at h
  dsimp only at h
  rw [if_neg (by
    rw [hslot]; rcases hroom with h1 | h1
    · simp [h1]
    · simp only [Bool.and_eq_true, decide_eq_true_eq, not_and, Nat.not_le]; intro _; exact h1)] at h
  obtain ⟨J, hJ, hj⟩ := State.joinPassed_eq (u.bufferStore loc n v.toNat) va.toNat n
  have Jp : ∀ l, (J l).pend = l.pend := fun l => by obtain ⟨x, hx⟩ := hJ l; rw [hx]
  have Js : ∀ l, (J l).snap = l.snap := fun l => by obtain ⟨x, hx⟩ := hJ l; rw [hx]
  obtain ⟨B, hB, hb⟩ : ∃ B : Slot → Slot, (∀ l, ∃ x y, B l = { l with pend := x, hidden := y }) ∧
      u.bufferStore loc n v.toNat = u.mapSlot B := by
    unfold State.bufferStore; exact ⟨_, fun l => ⟨_, _, rfl⟩, rfl⟩
  have hr := fun a => readByte_bufferStore u loc n v.toNat a
  rw [hj, hb, State.mapSlot_mapSlot, State.retire_mapSlot] at h
  rw [hb] at hr
  have hrd : ∀ a, (u.mapSlot fun l => (J (B l)).next).readByte u.cur a =
      if loc ≤ a ∧ a < loc + n then BitVec.ofNat 8 (v.toNat / 2 ^ (8 * (a - loc))) else u.readByte u.cur a := by
    intro a
    rw [← hr a]
    refine State.readByte_ext _ _ ?_ ?_ rfl
    · rw [State.slotAt_mapSlot, State.slotAt_mapSlot, if_pos rfl, if_pos rfl]; exact Jp _
    · rw [State.slotAt_mapSlot, State.slotAt_mapSlot, if_pos rfl, if_pos rfl]; exact Js _
  refine ⟨_, h, deviceKept_setSlot _ _ _, othersKept_mapSlot _ _, bytesKept_mapSlot _ _ _ fun a hna => ?_,
    fun a => ⟨rfl, fun g => rfl⟩, fun j hj2 => ?_, ?_⟩
  · exact (hrd a).trans (if_neg hna)
  · rw [← hcur]
    refine (hrd (loc + j)).trans ?_
    rw [if_pos (by omega), ← extract_byte, show loc + j - loc = j by omega]
  · rw [State.slot_mapSlot, ← hslot]
    unfold Slot.next Slot.goto
    obtain ⟨x, hx⟩ := hJ (B u.slot)
    obtain ⟨y, z, hy⟩ := hB u.slot
    rw [hx, hy]

/-- Where an aligned access does not proceed, and where it is not aligned (R173, R174), given that a trap which is fatal or
meets an active handler ends the task. -/
theorem halts_of (s : State) (i : Instr) (va : W64) (n : Nat) (k : Access) (f : Nat → State → State)
    (hend : ∀ c, c.fatal = true ∨ s.slot.inh = true → exec i s = .next (s.trap c va i.encode) → EndsTask s i)
    (h : exec i s = .next (s.aligned_ va n k i.encode f)) : Halts s i va n k := by
  unfold State.aligned_ at h
  refine ⟨fun ha => ?_, fun ha => ?_⟩
  · rw [if_pos ha] at h
    exact ⟨fun hi => traps_of s i _ va h rfl hi, fun hi => hend _ (.inr hi) h⟩
  · rw [if_neg (by simpa using ha)] at h
    unfold State.access at h
    refine ⟨fun c hc he => ?_, fun c hc hf hi => ?_, fun e hc => ?_, fun w hc => ?_, fun loc u hc => ?_⟩
    · rw [hc] at h; exact hend c he h
    · rw [hc] at h; exact traps_of s i c va h hf hi
    · rw [hc] at h
      obtain ⟨hcur, hslot⟩ : (s.arm (s.newPark s.cur.core va e)).cur = s.cur ∧
          (s.arm (s.newPark s.cur.core va e)).slot = s.slot := by unfold State.arm; split <;> exact ⟨rfl, rfl⟩
      refine ⟨_, s.newPark s.cur.core va e, h, ⟨rfl, rfl, rfl, rfl⟩, frame_mapSlot _ _ rfl rfl, ?_⟩
      show (s.parkHere va e).slot = _
      unfold State.parkHere
      dsimp only
      rw [State.slot_mapSlot, hslot]
    · rw [hc] at h; exact ⟨_, becomes_of s i _ h rfl rfl⟩
    · rw [hc] at h
      dsimp only at h
      rw [h]
      unfold State.stallOn
      rfl

end Sys2Proof.Machine
end

