-- ==== Sys2Proof/Laws/PerInstr.lean ====
section
/-! SUPPORT. Statements made per instruction: none is named. -/

namespace Sys2Proof.Laws

end Sys2Proof.Laws
end

