-- ==== Sys2Proof/Tests/Slice0.lean ====
section
/-! SUPPORT. Tests: the terms that the well-formedness check refuses, words written out from the spec's encodings, worked
examples of the spec, and for every statement with hypotheses a state that meets them. -/

namespace Sys2Proof.Tests

open Sys2Proof Sys2Proof.Machine

set_option Elab.async false

/-! ## The well-formedness check -/

/-- Whether decoding refuses a word. -/
noncomputable def refused (w : W32) : Bool :=
  match decode w with
  | .ok _ => false
  | .error _ => true

/-- Ill-formed scalar, synchronisation and matrix instructions (R157, R167, R177, R186, R215, R228, R306 to R340). -/
def illScalar : List Instr :=
  [.plog 1 2 3 .not, .fcvt 1 2 .bf16 .bf16 .rne, .ldx 1 2 3 .d true 0, .loop 0 4, .semArm 1 2 0, .semArm 1 2 7,
   .amocas 1 2 0 .unpublished, .amocas 1 2 31 .unpublished, .waite .seq 0, .cppf .x8 false 1, .mxmrk 4 4, .vacc 2 0 6 false]

theorem test_wf_scalar : (illScalar.all fun i => !i.wf && refused i.encode) = true := by decide +kernel

/-- Ill-formed vector operands, one for each kind of check (R134, R135, R136, R256 to R276): a destination that is no
register, or no multiple of G, or not 0 with nw; sources likewise; a latch with W not 0; wide groups; W = 3; pairs. -/
def illVector : List Instr :=
  [.vadd 48 0 0 0 false false, .vadd 1 0 0 1 false false, .vadd 1 0 0 0 true false, .vadd 0 56 0 0 false false,
   .vadd 0 48 0 1 false false, .vadd 0 0 3 2 false false, .vabs 0 57 0 false false, .vaddw 2 0 0 3 false false,
   .vaddw 1 0 0 0 false false, .vaddw 2 0 0 0 true false, .vcmpeq 1 56 0 0 false, .vcmpeqScalar 1 1 0 1 false,
   .vfmaScalar 2 60 0 0 false false, .vaddwScalar 1 0 0 0 false false, .vsel 48 0 0 0 false, .vzip 1 0 0 0 false false,
   .vunzip 2 1 0 false false, .vunzip 0 0 3 false false, .vbcast 1 0 1 false false, .vext 1 1 0 1, .viota 3 0 1 false false]

theorem test_wf_vector : (illVector.all fun i => !i.wf && refused i.encode) = true := by decide +kernel

def illVectorMemory : List Instr :=
  [.vld 1 2 3 1 false false, .vst 48 2 3 0 false, .vlds 5 2 3 2 false false, .vsts 3 2 3 1 false, .vldg 2 3 2 1 false false,
   .vstg 2 3 2 1 false, .vldg 1 3 0 1 false false, .vqnt 0 1 2 false, .vqnt 0 4 3 false, .vqnt 0 4 0 false,
   .vdqnt 1 0 2 false, .vdqnt 4 48 2 false, .vnarrow 0 1 0 0 false false, .vnarrow 0 0 0 3 false false,
   .vredsum 48 0 false false, .vscan 0 56 false false, .vexpmax 1 56 false, .vacc 1 0 0 false, .vacccvt 0 1 false false,
   .vrng 48 0 1 false, .vcvt 1 0 .i8 1 false false]

theorem test_wf_vector_memory : (illVectorMemory.all fun i => !i.wf && refused i.encode) = true := by decide +kernel

/-- Operations on a queue, die, core, slot, cluster, link, way, line or home that does not exist (R15, R212, R364, R400). -/
noncomputable def illOps : List Instr :=
  [.nopPacket 4096, .doorbell 4096 0, .routeCostFlit 36 1, .launchAdmission 8, .semUpdateAtHome 8, .semWaitComplete 768 0,
   .semWaitComplete 0 4, .barComplete 0 4, .atomicAtHome 768 0, .reductionMerge 768, .homeFence 0 33, .homeFence 4096 0,
   .parkWake 768 (.slot 0), .shootdown 4096 0 1, .vectorEntryStart 768, .copyRowLanded 768 0, .matrixPass 768,
   .engineTrapDelivery 0 4, .watchdog 768 .vec, .testAlarm 8, .coreReset 768, .dieReset 8, .drainTimeout 4096,
   .scycHold 192, .drizzleWindow 8, .cadenceTick 4096, .laneError 56 0, .l2EccError 0 49152 0 true 0,
   .l2EccError 0 0 16 true 0, .poolEccError 0 8448 true, .inFieldTest 192, .monSample 192 0 0 0 0, .swaitTimeout 16]

theorem test_wf_operations : (illOps.all fun i => !i.wf) = true := by decide +kernel

/-! ## Words written out from the encodings (R131 to R139, R422) -/

/-- Classes 0x0 to 0x4. -/
theorem test_decode_scalar :
    decode (0x00400000 + 5 * 2 ^ 17 + 6 * 2 ^ 12 + 7 * 2 ^ 7 + 1 * 2 ^ 4) = .ok (.add 5 6 7 .w32) ∧
    decode 0x090A8481 = .ok (.sel 5 8 9 .d64 1) ∧ decode 0x138A62C8 = .ok (.bfxi 5 6 11 8) ∧
    decode 0x1308089A = .ok (.li 4 0x89A) ∧ decode 0x210A6391 = .ok (.ffma 5 6 7 .bf16 .rne) ∧
    decode 0x31D2A010 = .ok (.ld64 9 10 16) ∧ decode 0x32D2AFF8 = .ok (.st64 9 10 0xFF8) ∧
    decode 0x318E5000 = .ok (.ldN32 7 5 0) ∧ decode 0x330A63B3 = .ok (.ldx 5 6 7 .d false 3) ∧
    decode 0x340B4000 = .ok (.tlook 5 20 false) ∧ decode 0x34819000 = .ok (.tdel 25) ∧
    decode 0x41283FFD = .ok (.bne 5 0 0x3FFD) ∧ decode 0x48483FFC = .ok (.loop 9 0x3FFC) := by
  refine ⟨?_, ?_, ?_, ?_, ?_, ?_, ?_, ?_, ?_, ?_, ?_, ?_, ?_⟩ <;> rfl

/-- Classes 0x5 to 0x7. -/
theorem test_decode_ordering_copy_matrix :
    decode 0x50405330 = .ok (.semSig 5 6 .package) ∧ decode 0x50417B10 = .ok (.semSig 23 22 .cluster) ∧
    decode 0x508BBB01 = .ok (.semWait 5 27 22 true) ∧ decode 0x514B5300 = .ok (.semArm 5 21 6) ∧
    decode 0x51800031 = .ok (.phase .package true) ∧ decode 0x528A63B0 = .ok (.amo 5 6 7 (.pub .package) .add) ∧
    decode 0x528A63F0 = .ok (.amo 5 6 7 .unpublished .add) ∧ decode 0x53C40000 = .ok (.waite .copy 0) ∧
    decode 0x60500000 = .ok (.cp .x8) ∧ decode 0x60A00000 = .ok (.cpt .x16) ∧ decode 0x61F00001 = .ok (.cpred .x24 .fp32) ∧
    decode 0x628A6001 = .ok (.wmrd 5 6 false 1) ∧ decode 0x62CA0002 = .ok (.rngaw 5 2) ∧
    decode 0x7054B003 = .ok (.mxcfg 10 11 3) ∧ decode 0x71000000 = .ok .mxgo ∧ decode 0x7194B7F1 = .ok (.mxsta 10 11 127 1) := by
  refine ⟨?_, ?_, ?_, ?_, ?_, ?_, ?_, ?_, ?_, ?_, ?_, ?_, ?_, ?_, ?_, ?_⟩ <;> rfl

/-- Classes 0x8 to 0xB. -/
theorem test_decode_vector :
    decode 0x80441884 = .ok (.vadd 4 6 8 1 false false) ∧ decode 0x80C5C040 = .ok (.vmul 5 48 4 0 false false) ∧
    decode 0x88C20C90 = .ok (.vfmaScalar 2 3 9 0 false false) ∧ decode 0x88400058 = .ok (.vsubScalar 0 0 5 2 false false) ∧
    decode 0x88800089 = .ok (.vmulScalar 0 0 8 2 false true) ∧ decode 0x90C21050 = .ok (.vcmplt 2 4 5 0 false) ∧
    decode 0x98821050 = .ok (.vcmpltScalar 2 4 5 0 false) ∧ decode 0x98444008 = .ok (.vcmpneScalar 4 16 0 2 false) ∧ decode 0x94102108 = .ok (.vperm 16 8 16 2 false false) ∧
    decode 0x9605C000 = .ok (.vext 5 48 0 0) ∧ decode 0xA04428B4 = .ok (.vld 4 10 11 1 false false) ∧
    decode 0xA44800C8 = .ok (.vqnt 8 0 12 false) ∧ decode 0xA5401CA0 = .ok (.vsett .bf16 true 2) ∧
    decode 0xB4010000 = .ok (.vredsum 1 0 false false) ∧ decode 0xB440C002 = .ok (.vredmax 0 48 true false) ∧
    decode 0xB5420000 = .ok (.vacc 2 0 0 false) ∧ decode 0xB6085D00 = .ok (.vrng 8 23 16 false) := by
  refine ⟨?_, ?_, ?_, ?_, ?_, ?_, ?_, ?_, ?_, ?_, ?_, ?_, ?_, ?_, ?_, ?_, ?_⟩ <;> rfl

/-- Classes 0xC and 0xD, and the custom words of a queue core. -/
theorem test_decode_system :
    decode 0xC1234567 = .ok (.lix 0x1234567) ∧ decode 0xD0152E00 = .ok (.spawn 10 11 .loader) ∧
    decode 0xD0300000 = .ok .exit ∧ decode 0xD06287C3 = .ok (.csrr 5 0x7C3) ∧ decode 0xD0628F0B = .ok (.csrr 5 0xF0B) ∧
    decode 0xD0D00000 = .ok .nop ∧ decodeFlambeol 0x0005850B = .ok (.rfetch 11 10) ∧
    decodeFlambeol 0x00C5950B = .ok (.flambeolBfx 12 11 10) ∧ decodeFlambeol 0x0005A50B = .ok (.swait 0 11 10) ∧
    decodeFlambeol 0x00C5B50B = .ok (.disp 12 11 10) := by
  refine ⟨?_, ?_, ?_, ?_, ?_, ?_, ?_, ?_, ?_, ?_⟩ <;> rfl

/-- Words that are no instruction (R132, R133, R139): the all-zero word, classes 0xE and 0xF, reserved sz, op and cc values,
nonzero fields that must be 0, and a group value that is reserved. -/
theorem test_decode_refuses :
    (([0, 0xE0000000, 0xF1234567, 0x004A63A0, 0x004A6381, 0x0B000000, 0x20000000, 0x210A6396, 0x49000000, 0x4F000000, 0x504053D0,
      0x54C00000, 0x71000001, 0xD0D00001, 0xD0F00000, 0x89800000] : List W32).all refused) = true := by decide +kernel

/-! ## States for the tests -/

/-- A task at its first instruction in slot 0 of core 0, in a launch of level 0 with a lease on the first MiB. -/
def start : State := State.reset.placeWord 0xD0D00000

/-- With values in scalar registers of the executing slot. -/
def setx (s : State) (l : List (XReg × W64)) : State := s.mapSlot fun m => l.foldl (fun m p => m.wx p.1 p.2) m

/-- With the launch changed. -/
def setLaunch (s : State) (f : Launch → Launch) : State := { s with launches := tset s.launches 0 (f (s.launch 0)) }

/-- At a level. -/
def atLevel (s : State) (n : BitVec 2) : State := setLaunch s fun l => { l with det := n }

/-- In the trap handler. -/
def inHandler (s : State) : State := s.mapSlot fun l => { l with tstat := 1 }

/-- Whether an instruction answers a next state of which a condition holds. -/
def answers (i : Instr) (s : State) (p : State → Bool) : Bool :=
  match exec i s with
  | .next t => p t
  | _ => false

/-- Whether an access of the executing slot passes its checks at a location. -/
def passesAt (s : State) (va : W64) (n : Nat) (k : Access) (loc : Nat) : Bool :=
  match s.check s.cur va.toNat n k .task with
  | .ok l _ => va.toNat % n == 0 && l == loc
  | _ => false

/-- The cause of a check that traps. -/
def trapsWith (s : State) (va : W64) (n : Nat) (k : Access) (m : Mode) : Option Cause :=
  match s.check s.cur va.toNat n k m with
  | .trap c => some c
  | _ => none

/-! ## Worked examples of the spec -/

/-- R151: the table of divisions. -/
theorem test_divisions :
    (answers (.div 5 6 7 .d64) (setx start [(6, 7), (7, -2)]) (·.rx 5 == -3) &&
     answers (.rem 5 6 7 .d64) (setx start [(6, 7), (7, -2)]) (·.rx 5 == 1) &&
     answers (.rem 5 6 7 .d64) (setx start [(6, -7), (7, 2)]) (·.rx 5 == -1) &&
     answers (.divn 5 6 7 .d64) (setx start [(6, 9), (7, 0)]) (·.rx 5 == 0xFFFFFFFFFFFFFFFF) &&
     answers (.remn 5 6 7 .d64) (setx start [(6, 9), (7, 0)]) (·.rx 5 == 9) &&
     answers (.div 5 6 7 .d64) (setx start [(6, 0x8000000000000000), (7, -1)]) (·.rx 5 == 0x8000000000000000) &&
     answers (.div 5 6 7 .w32) (setx start [(6, 0x80000000), (7, 0xFFFFFFFF)]) (·.rx 5 == 0xFFFFFFFF80000000) &&
     answers (.divn 5 6 7 .w32) (setx start [(6, 0xFFFFFFFF), (7, 1)]) (·.rx 5 == 0xFFFFFFFFFFFFFFFF)) = true := by
  decide +kernel

/-- R153, R160: the table of bit fields. -/
theorem test_bit_fields :
    (answers (.bfxi 5 6 11 8) (setx start [(6, 0xDEADBEEF)]) (·.rx 5 == 0xDBE) &&
     answers (.bfx 5 6 8 .d64 true) (setx start [(6, 0xDEADBEEF), (8, 0xB08)]) (·.rx 5 == 0xFFFFFFFFFFFFFDBE) &&
     answers (.bfii 6 7 7 60) (setx start [(6, 0xDEADBEEF), (7, 0xAB)]) (·.rx 6 == 0xB0000000DEADBEEF)) = true := by
  decide +kernel

/-- R186: a counter of 1 falls through, and a counter of 0 wraps and branches. -/
theorem test_loop :
    (answers (.loop 9 0x3FFC) (setx start [(9, 1)]) (fun t => t.rx 9 == 0 && t.slot.pc == 0x20004) &&
     answers (.loop 9 0x3FFC) (setx start [(9, 0)]) (fun t => t.rx 9 == -1 && t.slot.pc == 0x1FFF0)) = true := by decide +kernel

/-- R276: the words for a counter and key of zeros. -/
theorem test_philox :
    philox 10 (0, 0, 0, 0) 0 0 = (0x6627E8D5, 0xE169C58D, 0xBC57AC4C, 0x9B00DBD8) := by decide +kernel

/-- R137: the value that two prefixes give to LI. -/
theorem test_two_prefixes :
    answers (.li 4 0x210) (start.mapSlot fun l => { l with pfx := [0xFEDCBA, 0x9876543] })
      (·.rx 4 == 0xFEDCBA9876543210) = true := by decide +kernel

/-! ## Witnesses: encoding and stepping -/

theorem witness_RoundTrip :
    ((Instr.add 5 6 7 .w32).wf && (Instr.add 5 6 7 .w32).wordOf == .sequencer && (Instr.disp 12 11 10).wf &&
     (Instr.disp 12 11 10).wordOf == .flambeol) = true := by decide +kernel

theorem witness_DecodeGivesItsWord :
    (∃ i, decode 0xD0D00000 = .ok i) ∧ ∃ i, decodeFlambeol 0x00C5B50B = .ok i := ⟨⟨.nop, rfl⟩, ⟨.disp 12 11 10, rfl⟩⟩

/-- What the fetch of the slot that issues next comes to, where nothing is due before it. -/
noncomputable def fetches (s : State) : Option Fetched :=
  if s.agenda.isEmpty && s.fcur.isNone && s.urgent.isNone && s.nextIssue == some ⟨0, 0⟩ &&
      (s.turn ⟨0, 0⟩).slot.dueTrap.isNone then some ((s.turn ⟨0, 0⟩).fetch ⟨0, 0⟩)
  else none

/-- Whether the word fetched meets a condition. -/
noncomputable def fetchesWord (s : State) (p : W32 → State → Bool) : Bool :=
  match fetches s with
  | some (.word w v) => p w v
  | _ => false

/-- A matrix entry in flight that will write x5 at its end. -/
def pendingX5 : State :=
  (start.modCore 0 fun c => { c with mq := { c.mq with recs := [start.newRec .mx (.mxmrk 5 6) c.mq []] } })

theorem witness_StepRunsDecodedWord :
    (fetchesWord start (fun w v => w == 0xD0D00000 && v.slot.pfx.isEmpty && !(v.interlocked .nop)) &&
     fetchesWord (State.reset.placeWord 0) (fun w _ => w == 0 && refused w) &&
     fetchesWord (start.mapSlot fun l => { l with pfx := [1] }) (fun w v => w == 0xD0D00000 && !(v.slot.pfx.isEmpty) &&
       (v.wordIllegal .nop).isNone) && !(mayFollow .nop) && start.poison.isEmpty && (start.slotAt ⟨0, 0⟩).dying == false &&
     (start.modDie 0 fun d => { d with d2 := some 0 }).fixed 0 && !(start.fixed 0) &&
     fetchesWord { pendingX5 with mem := (State.reset.placeWord (Instr.add 7 5 5 .d64).encode.toNat).mem }
       (fun w v => w == (Instr.add 7 5 5 .d64).encode && v.interlocked (.add 7 5 5 .d64))) = true := by decide +kernel

theorem witness_StepRunsDecodedWord_stops :
    ((match fetches (start.mapSlot fun l => { l with pc := 2 }) with | some (.trap c) => c == .misaligned | _ => false) &&
     (match (State.reset.placeFlambeol 0x00C5B50B).fcur with | some n => n == 0 | none => false) &&
     (match ((State.reset.placeFlambeol 0x00C5B50B).fcore 0).fetch with | .custom w => w == 0x00C5B50B | _ => false)) = true := by
  decide +kernel

theorem witness_StepKeepsInv :
    (start.mem.wf && steplenOk start.steplen && answers .nop start (fun t => t.mem.wf)) = true ∧ start.Inv := by
  refine ⟨by decide +kernel, ?_⟩
  unfold State.Inv
  decide +kernel

/-- The task on a device that does not bridge, with the host window mapped at 4 TiB. -/
def hostTask : State :=
  { setLaunch start fun l => { l with
      leases := l.leases ++ [{ base := 0x40000000000, pages := 16, lw := true, lx := true, demand := false }] } with
    bridge := false, hostDev := 9, mem := Memory.setAll start.mem (cellsLE 0x10008 8 0x800000000017F) }

/-- The task has been answered with the granule at a location, for a unit. -/
def fromHost (s : State) (unit loc : Nat) : State :=
  { s with hostReqs := [{ tag := 0, uid := 1, core := 0, slot := 0, unit := unit, granule := loc / 64, back := true }] }

theorem witness_StepRunsDecodedWord_away :
    (let h := hostTask.mapSlot fun l => { l with pc := 0x40000000000 }
     (match fetches h with | some (.away n) => n == 0x8000000000000 | _ => false) && hostLoc 0x8000000000000 && !h.bridge &&
     (match h.check ⟨0, 0⟩ 0x40000000000 4 .fetch Mode.early with | .ok loc v => loc == 0x8000000000000 && v.poison.isEmpty | _ => false) &&
     fetchesWord (fromHost h 5 0x8000000000000) (fun _ v => v.hostReqs.isEmpty)) = true := by decide +kernel

/-! ## Witnesses: scalar instructions and memory -/

theorem witness_ImmediateResults :
    start.slot.pfx = [] ∧ (start.mapSlot fun l => { l with pfx := [0x8000000] }).slot.pfx = [0x8000000] ∧
    (start.mapSlot fun l => { l with pfx := [0xFFFFFF, 0xFFFFFFF] }).slot.pfx = [0xFFFFFF, 0xFFFFFFF] := by decide +kernel

theorem witness_FloatResults :
    (enabledFlags start.slot.fpctl flNX == 0 && !start.slot.inh &&
     enabledFlags (start.mapSlot fun l => { l with fpctl := 0x1F000000 }).slot.fpctl flNX != 0 &&
     !(start.mapSlot fun l => { l with fpctl := 0x1F000000 }).slot.inh) = true := by decide +kernel

/-- A number, an infinity, a signalling and a quiet NaN in FP32, each at a boundary of its range. -/
theorem witness_FloatSigns :
    (let e := fun (n : Nat) => n / 2 ^ 23 % 256
     let m := fun (n : Nat) => n % 2 ^ 23
     (fmtOf .f32).width = 32 ∧ (fmtOf .f32).fbits = 23 ∧ (fmtOf .f32).ebits = 8 ∧ flushIn start.slot.flush .f32 = false ∧
     e 0x7F7FFFFF = 254 ∧ (e 0x7F800000 = 255 ∧ m 0x7F800000 = 0) ∧ (e 0x7F800001 = 255 ∧ m 0x7F800001 = 1) ∧
     (e 0x7FC00000 = 255 ∧ m 0x7FC00000 = 2 ^ 22)) := by decide +kernel

/-- Rounding at boundaries in FP32: 3 exactly, the least subnormal, 1/3, the root of 2, and a product past the largest value. -/
theorem witness_FloatRounding :
    (let f := fmtOf .f32
     f.Fits (-22) 12582912 (fun n => compare (3 * 2 ^ 24) (n * 2 ^ 0)) ∧ f.Fits (-149) 1 (fun n => compare (2 ^ 2) (n * 2 ^ 0)) ∧
     f.Fits (-25) 11184810 (fun n => compare (1 * 2 ^ 27) (n * 3 * 2 ^ 0)) ∧
     f.Fits (-23) 11863283 (fun n => compare (2 * 2 ^ 50) (n * n * 2 ^ 0)) ∧ 2 ^ 130 ≤ 2 ^ 130 * 1 ∧
     f.div .rne false (.fin false 1 0) (.fin false 3 0) = (0x3EAAAAAB, flNX) ∧
     f.sqrt .rdn false (.fin false 2 0) = (0x3FB504F3, flNX) ∧
     f.write .rtz false (.fin true 1 130) = (0xFF7FFFFF, flOF ||| flNX)) := by
  unfold Fmt.Fits
  decide +kernel

theorem witness_LoadResults :
    (passesAt (setx start [(6, 0xFFFF8)]) (0xFFFF8 : W64) 8 .read 0xFFFF8 && passesAt start (0 : W64) 1 .read 0 &&
     answers (.ld64 5 6 0) (setx start [(6, 0x20000)]) (·.rx 5 == 0xD0D00000)) = true := by decide +kernel

/-- The executing slot with n granules pending. -/
def pending (s : State) (n : Nat) : State := s.mapSlot fun l => { l with pend := (List.range n).map fun k => (64 * k, 1) }

theorem witness_StoreResults :
    (passesAt (pending start 255) (0xFFFF8 : W64) 8 .write 0xFFFF8 &&
     decide ((granules (pending start 255).slot.pend).length = 255) && Config.storeBufferGranules == 256 &&
     passesAt (pending start 256) (0xFFFF8 : W64) 8 .write 0xFFFF8 &&
     decide ((granules (pending start 256).slot.pend).length = 256) &&
     !((granules (pending start 256).slot.pend).contains (0xFFFF8 / 64)) && (pending start 256).level == 0 &&
     passesAt (pending (atLevel start 1) 256) (0xFFFF8 : W64) 8 .write 0xFFFF8 && (atLevel start 1).level == 1 &&
     !(atLevel start 1).slot.inh) = true := by decide +kernel

/-- The placed context with nothing mapped beyond its one entry, and a demand lease there. -/
def demand : State :=
  setLaunch start fun l => { l with leases := [{ base := 0x80000000000, pages := 16, lw := true, lx := true, demand := true }] }

/-- Core 0 with watermark register 0 landing on the scratchpad's first bytes. -/
def landing : State :=
  start.modCore 0 fun c => { c with
    wms := c.wms.set 0 { lo := 0xFFF0000000024000, hi := 0xFFF0000000024100, wm := 0xFFF0000000024000, stat := 1, owner := (1, 1) } }

theorem witness_AccessesThatDoNotProceed :
    (trapsWith start (0xFFF0000000000000 : W64) 8 .read .task == some .poolRange && !start.slot.inh &&
     (match demand.check demand.cur 0x80000000000 8 .write .task with | .park _ => true | _ => false) &&
     (match landing.check landing.cur 0xFFF0000000024000 8 .read .task with | .stall _ => true | _ => false) &&
     start.scopeOk .package && start.level == 0) = true := by decide +kernel

/-- The pool of core 0 with degraded mode off on every core of its cluster. -/
def quietPools : State :=
  { start with cores := [(0, placeCore.setSlot 0 { placeSlot with started := true }), (1, { Core.reset with degraded := false, b0 := 9, b1 := 40, b2 := 56 }),
    (2, { Core.reset with degraded := false }), (3, { Core.reset with degraded := false })] }

theorem witness_PoolWindows :
    (trapsWith quietPools (0xFFF0000000000000 + 9 * 16384 - 8 : W64) 8 .read .task == some .poolRange &&
     passesAt quietPools (0xFFF0000000000000 + 9 * 16384 : W64) 8 .read (poolLoc 0 (9 * 16384)) &&
     passesAt quietPools (0xFFF0000000000000 + 40 * 16384 - 8 : W64) 8 .read (poolLoc 0 (40 * 16384 - 8)) &&
     trapsWith quietPools (0xFFF0000000000000 + 40 * 16384 : W64) 8 .read .task == some .poolRange &&
     passesAt quietPools (0xFFF0000000000000 + 56 * 16384 : W64) 8 .read (poolLoc 0 (56 * 16384)) &&
     passesAt quietPools (0xFFF00000000FFFF8 : W64) 8 .read (poolLoc 0 0xFFFF8) &&
     trapsWith quietPools (0xFFF00000001FFFF8 : W64) 8 .read .task == some .poolRange &&
     passesAt (setLaunch quietPools fun l => { l with cgran := true }) (0xFFE0000000100000 + 9 * 16384 : W64) 8 .write
       (poolLoc 1 (9 * 16384)) &&
     ([0, 1, 2, 3].all fun h => !((quietPools.core h).degraded) && (quietPools.core h).wms.toList.all (fun w => w.state == 0) &&
       (quietPools.core h).mq.recs.isEmpty && (quietPools.core h).cq.recs.isEmpty && !((quietPools.core h).saving) &&
       (quietPools.core h).slots.toList.all fun l => (!l.occ && !l.held) || l.started) && quietPools.poison.isEmpty &&
     trapsWith quietPools (0xFFE0000000100000 + 9 * 16384 : W64) 8 .write .task == some .poolRange &&
     trapsWith (setLaunch quietPools fun l => { l with cgran := true }) (0xFFE0000000500000 + 9 * 16384 : W64) 8 .write .task
       == some .poolRange) = true := by decide +kernel

/-- Entry 255 of the tag table holds key 7 for the slot region's first KiB. -/
def tagged : State :=
  start.modCore 0 fun c => { c with tags := [(255, { key := 7, off := 896, len := 128, valid := true, bad := false })] }

theorem witness_TagTable :
    (tagged.here.tagFind (setx tagged [(6, 8)] |>.rx 6) == none &&
     (match tagged.here.tagFind 7 with | some (j, e) => j == 255 && e.off == 896 | none => false) &&
     decide (start.here.b2.toNat * 16384 ≤ 896 * 1024 ∧ (896 + 128) * 1024 ≤ 1048576 ∧
       895 * 1024 < start.here.b2.toNat * 16384 ∧ 1048576 < (896 + 129) * 1024)) = true := by decide +kernel

theorem witness_ChecksLeaveTheStateAlone :
    (passesAt quietPools (0xFFF0000000000000 + 9 * 16384 : W64) 8 .write (poolLoc 0 (9 * 16384)) &&
     isWindow (0xFFF0000000000000 + 9 * 16384) && passesAt start (0x100 : W64) 8 .write 0x100 && !(isWindow 0x100) &&
     start.mem.wf) = true := by decide +kernel

/-- A task of level 2 with a lease on far memory. -/
def farTask : State :=
  { setLaunch (atLevel start 2) fun l => { l with
      leases := [{ base := 0x40000000000, pages := 16, lw := true, lx := true, demand := false }] } with
    mem := Memory.setAll start.mem (cellsLE 0x10008 8 0x30001 ++ cellsLE 0x30000 8 0x100000000FF), farcap := [96] }

/-- The task with a byte that it has published to its core and that no cache has written home. -/
def published : State := { start with overlay := [{ uid := 1, scope := .core, core := 0, loc := 0x101, byte := 7, eng := none }] }

theorem witness_HintsAndCacheOperations :
    (answers (.cbo .clean 6 0) (setx published [(6, 0x100)]) (fun t => t.mem.get 0x101 == 7 && t.overlay.isEmpty) &&
     published.mem.wf && published.level == 0 && (published.overlay.all fun o => o.eng.isNone && o.sees 0) &&
     answers (.cbo .flush 6 0) (setx demand [(6, 0x80000000000)]) (fun t => t.slot.park.isSome) &&
     answers (.cbo .clean 6 0) (setx farTask [(6, 0x40000000000)]) (fun t => t.slot.tcause == 0x14) &&
     answers (.cbo .clean 6 0) (setx start [(6, 0xFFF0000000000000 + 9 * 16384)]) (·.slot.pc == 0x20004) &&
     answers (.cbo .clean 6 0) (setx start [(6, 0x100)]) (·.slot.pc == 0x20004) &&
     trapsWith farTask (0x40000000000 : W64) 1 .read .early == some .determinism && !(isWindow 0x40000000000) &&
     !(Cause.fatal .determinism) && !farTask.slot.inh) = true := by decide +kernel

/-! ## Witnesses: control flow and traps -/

theorem witness_BranchesAndJumps :
    ((setx start [(6, 0x1003)]).rx 6 + (1 : BitVec 14).signExtend 64 == 0x1004 &&
     answers (.jalr 6 6 1) (setx start [(6, 0x1003)]) (fun t => t.slot.pc == 0x1004 && t.rx 6 == 0x20004) &&
     answers (.jalr 6 6 0x3FFF) (setx start [(6, 0x1004)]) (fun t => t.slot.tval == 0x1003 && t.rx 6 == 0x1004)) = true := by
  decide +kernel

theorem witness_PrefixChains :
    ((start.slot.pfx == []) && (start.mapSlot fun l => { l with pfx := [0xFFFFFF] }).slot.pfx == [0xFFFFFF] &&
     (0xFFFFFF : BitVec 28).extractLsb' 24 4 == 0 && (0x1000000 : BitVec 28).extractLsb' 24 4 != 0 &&
     !(start.mapSlot fun l => { l with pfx := [0x1000000] }).slot.inh &&
     answers (.lix 1) (start.mapSlot fun l => { l with pfx := [1, 2] }) (fun t => t.slot.tcause == 0x13)) = true := by
  decide +kernel

theorem witness_TrapEntry : start.slot.inh = false := by decide +kernel

theorem witness_ReturnFromTrap : (inHandler start).slot.inh = true ∧ start.slot.inh = false := by decide +kernel

theorem witness_NestedTraps :
    ((inHandler start).slot.inh && ((start.launch 0).gangsOf (inHandler start).slot.uid).isEmpty &&
     answers (.trap 5) (inHandler start) (fun t => !t.slot.occ && (t.launch 0).faulted == 1)) = true := by decide +kernel

/-- The task with a pending trap of an engine and one of an event. -/
def pendingTraps : State :=
  start.mapSlot fun l => { l with
    engTraps := [{ cause := .wmFrozen, tval := 1, word := 2, qent := 3, orig := 2 }]
    evTraps := [{ cause := .stepOverrun, tval := 4, word := 0, qent := 0, orig := 0 }] }

theorem witness_PendingTraps :
    ((pendingTraps.slotAt ⟨0, 0⟩).occ && (pendingTraps.slotAt ⟨0, 0⟩).pfx.isEmpty &&
     (pendingTraps.slotAt ⟨0, 0⟩).wait == .run && (pendingTraps.slotAt ⟨0, 0⟩).park.isNone &&
     !(pendingTraps.slotAt ⟨0, 0⟩).inh && !(Cause.fatal .wmFrozen) && !(Cause.fatal .stepOverrun) &&
     answers (.engineTrapDelivery 0 0) pendingTraps (fun t => t.slot.tcause == 0x0E)) = true := by decide +kernel

theorem witness_IllegalWords :
    (start.fcur == none && !start.slot.inh && (State.reset.placeFlambeol 0).fcur == some 0) = true := by decide +kernel

/-- Sums, products and integers against values at a common exponent, at a cancellation, a tie and a bound. -/
theorem witness_FloatResults_numbers :
    (Machine.Num.add .rdn (.fin false 3 (-1)) (.fin true 6 (-2)) == (.fin true 0 (-2), 0) &&
     Machine.Num.mul (.fin true 3 5) (.fin false 7 (-9)) == (.fin true 21 (-4), 0) &&
     (Machine.Num.fin false 5 (-1)).toIntBounded .rne (-128) 127 == (2, flNX) &&
     (Machine.Num.fin false 128 0).toIntBounded .rne (-128) 127 == (127, flNV) &&
     Machine.Num.minmax false (.fin true 0 0) (.fin false 0 5) == (.fin true 0 0, 0) &&
     (let c : Nat → Ordering := fun n => compare (5 * 2 ^ 0) (n * 2 ^ 0)
      c (2 * 2) != .lt && c (2 * 2 + 2) == .lt && b2n (roundsAway .rne false 2 2 c) == 0)) = true := by decide +kernel

/-- The least subnormal of FP32, with its operand flush on. -/
theorem witness_FloatSigns_flushed :
    (let s := start.mapSlot fun l => { l with fpctl := 0x8 }
     flushIn s.slot.flush .f32 && answers (.fabs 5 6 .f32 .dyn) (setx s [(6, 0x80000001)]) (fun t => t.rx 5 == 0) &&
     answers (.fneg 5 6 .f32 .dyn) (setx s [(6, 1)]) (fun t => t.rx 5 == 0x80000000)) = true := by decide +kernel

theorem witness_CacheOperationsInWindows :
    (let g := setLaunch quietPools fun l => { l with cgran := true }
     answers (.cbo .clean 6 0) (setx g [(6, 0xFFE0000000100000 + 9 * 16384)]) (·.slot.pc == 0x20004) &&
     answers (.cbo .clean 6 0) (setx g [(6, 0xFFE0000000100000 + 40 * 16384)]) (·.slot.tcause == 5) &&
     answers (.cbo .clean 6 0) (setx quietPools [(6, 0xFFE0000000100000 + 9 * 16384)]) (·.slot.tcause == 5) &&
     answers (.cbo .clean 6 0) (setx start [(6, 0xFFF0000000000000 + 9 * 16384 - 1)]) (·.slot.tcause == 5) &&
     answers (.cbo .clean 6 0) (setx start [(6, 0xFFF0000000100000)]) (·.slot.tcause == 5) &&
     answers (.cbo .clean 6 0) (setx start [(6, 0xFFE0000000400000)]) (·.slot.tcause == 5) &&
     answers (.cbo .clean 6 0) (setx (inHandler start) [(6, 0xFFF0000000100000)]) (fun t => !t.slot.occ) &&
     trapsWith start (0x50000000000 : W64) 1 .read .early == some .lease && Cause.fatal .lease &&
     answers (.cbo .clean 6 0) (setx start [(6, 0x50000000000)]) (fun t => !t.slot.occ)) = true := by decide +kernel

/-- In the handler of PARK_TIMEOUT, which the matrix entry in flight raised. -/
def parkHandler : State :=
  (pendingX5.modCore 0 fun c => { c with mq := { c.mq with recs := c.mq.recs.map fun q => { q with
      park := some { addr := 0x8000, entry := 0x50000, monitored := true, since := 0, expired := true, order := 0 } } } }).mapSlot
    fun l => { l with tcause := 0x11, tstat := 1 + 3 * 16 }

theorem witness_ReturnFromParkTimeout :
    (parkHandler.slot.inh && answers .eret { parkHandler with refclk := 9 }
       (fun t => !t.slot.inh && t.here.mq.recs.all fun q => q.park.any fun p => p.since == 9 && !p.expired) &&
     answers .eret ({ parkHandler with refclk := 9 }.mapSlot fun l => { l with tcause := 4 })
       (fun t => t.here.mq.recs.all fun q => q.park.any fun p => p.since == 0 && p.expired) &&
     answers .eret (start) (fun t => t.slot.tcause == 0x12)) = true := by decide +kernel

/-! ## Witnesses: synchronisation -/

/-- A name of semaphore n of die 1 of this device. -/
def semName (n : Nat) : W64 := BitVec.ofNat 64 (2 ^ 29 + n)

theorem witness_Publishing :
    ((atLevel start 2).level == 2 && !(atLevel start 2).slot.inh && start.level == 0 && start.overlay.isEmpty &&
     tmem (pending start 1).slot.pend 0 && !(tmem (pending start 1).slot.pend 1) && start.mem.wf &&
     start.fenceMet 0 && !(pendingX5.fenceMet 0) && start.slot.frozen.isEmpty &&
     answers (.phase .package true) start (·.slot.ckpt) && answers (.phase .die false) start (·.slot.pc == 0x20004) &&
     answers (.phase .package false) published (fun t => t.mem.get 0x101 == 7 && t.vis 5 0x101 == 7) &&
     answers (.phase .package true) (start.mapSlot fun l => { l with frozen := [(1, 7)] })
       (fun t => t.slot.tcause == 0x06 && t.slot.tval == 7)) = true := by decide +kernel

theorem witness_SemaphoreRequests :
    NameOk (setx start [(6, semName 0)]) (semName 0) ∧ NameOk start (semName 16383) := by
  unfold NameOk; decide +kernel

/-- A bad name of each kind, a name of another device of the system, and the boundaries of a grant. -/
theorem witness_SemaphoreNames :
    let s : State := { start with system := [9], queues := [(0, { placeQueue with semb := 4, semn := 4 })] }
    ((semName 5 + 2 ^ 63).extractLsb' 52 12 ≠ 0 ∧ (semName 5 + 2 ^ 14).extractLsb' 14 15 ≠ 0 ∧
      ((semName 5 + 2 ^ 32).extractLsb' 32 20 ≠ s.devid ∧ (semName 5 + 2 ^ 32).extractLsb' 32 20 ∉ s.system) ∧
      ((semName 3).extractLsb' 0 14).toNat < (s.queueOf s.cur).semb ∧
      (s.queueOf s.cur).semb + (s.queueOf s.cur).semn ≤ ((semName 8).extractLsb' 0 14).toNat) ∧
    ((semName 4 + 9 * 2 ^ 32).extractLsb' 32 20 ≠ s.devid ∧ (semName 4 + 9 * 2 ^ 32).extractLsb' 32 20 ∈ s.system) ∧
    (s.launch s.slot.launch).gangsOf s.slot.uid = [] ∧ s.level ≠ 2 ∧ s.slot.inh = false ∧ (atLevel s 2).level = 2 := by
  decide +kernel

/-- A launch of two TCBs at 0x3000. -/
def armed : State := setLaunch start fun l => { l with ntcb := 2, tcbs := 0x3000 }

theorem witness_SemaphoreArms :
    ((match armed.checkTranslated armed.cur 0x3040 1 .write .early with
      | .ok _ u => (match u.checkTranslated armed.cur 0x307F 1 .write .early with | .ok _ _ => true | _ => false)
      | _ => false) && armed.level == 0 && (armed.launchOf armed.cur).ntcb == 2 &&
     answers (.semArm 5 6 8) (setx armed [(6, 1), (8, semName 3)]) (fun t => (t.die 1).inbox.length == 1) &&
     answers (.semArm 5 6 8) (setx armed [(6, 2), (8, semName 3)]) (fun t => t.rx 5 == 2)) = true := by decide +kernel

/-- An operation of the task at its home, die 1, and the task waiting for it. -/
def atHome (k : SemKind) (w : Wait) : State :=
  (start.mapSlot fun l => { l with wait := w }).modDie 1 fun d => { d with
    sems := [(3, 5)], inbox := [{ index := 3, kind := k, core := 0, slot := 0, uid := 1, queue := 0, gen := 0, dev := 0, due := 0 }] }

theorem witness_ArmsAway :
    (let s : State := { armed with system := [9] }
     let name := semName 3 + 9 * 2 ^ 32
     s.tcbFree 0 1 && answers (.semArm 5 6 8) (setx s [(6, 1), (8, name)])
       (fun t => t.outbox.length == 1 && t.slot.wait == .arm 5 1 name 0) &&
     !((s.setTcbState 0 1 1).tcbFree 0 1) &&
     answers (.semArm 5 6 8) (setx (s.setTcbState 0 1 1) [(6, 1), (8, name)]) (fun t => t.rx 5 == 1 && t.outbox.isEmpty)) = true := by
  decide +kernel

theorem witness_SemaphoresAtTheirHome :
    (answers (.semUpdateAtHome 1) ((atHome .read .run).modDie 1 fun d => { d with
       inbox := d.inbox.map fun o => { o with due := 1 } }) (fun t => (t.die 1).inbox.length == 1) &&
     answers (.semUpdateAtHome 1) ((atHome (.sig 1) .run).modQueue 0 fun q => { q with gen := 1 })
       (fun t => (t.die 1).inbox.isEmpty && tget 0 (t.die 1).sems 3 == 5) &&
     answers (.semUpdateAtHome 1) (atHome (.sig 0xFFFFFFFFFFFFFFFB) .run) (fun t => tget 0 (t.die 1).sems 3 == 0xFFFFFFFFFFFFFFFF) &&
     answers (.semUpdateAtHome 1) (atHome (.add (-6)) (.sem 7 false)) (fun t => tget 0 (t.die 1).sems 3 == 0 && t.slot.wait == .semDone 7 5 false 32) &&
     answers (.semUpdateAtHome 1) (atHome (.set 9) (.sem 7 false)) (fun t => tget 0 (t.die 1).sems 3 == 9) &&
     answers (.semUpdateAtHome 1) (atHome .read (.sem 7 false)) (fun t => t.slot.wait == .semDone 7 5 false 32) &&
     (atHome .read (.sem 7 false)).slot.occ && (atHome .read (.sem 7 false)).slot.uid == 1 &&
     ((atHome .read .run).die 1).arms.isEmpty && ((atHome .read .run).die 1).waiters.isEmpty) = true := by decide +kernel

theorem witness_SemaphoreWaits :
    (answers (.semUpdateAtHome 1) (atHome (.wait 5 true) (.sem 7 true))
       (fun t => t.slot.wait == .semDone 7 5 true 32 && tget 0 (t.die 1).sems 3 == 0) &&
     answers (.semUpdateAtHome 1) (atHome (.wait 6 true) (.sem 7 true)) (fun t => (t.die 1).waiters.length == 1) &&
     answers (.semWaitComplete 0 0) (atHome .read (.semDone 7 5 true 0)) (fun t => t.rx 7 == 5 && t.slot.pc == 0x20004) &&
     answers (.semWaitComplete 0 0) (atHome .read (.semDone 7 5 true 1)) (fun t => t.slot.pc == 0x20000)) = true := by
  decide +kernel

/-- The task at the home of gang 2, die 0. -/
def atGang (k : GangKind) (w : Wait) (g : Gang) : State :=
  setLaunch ((start.mapSlot fun l => { l with wait := w }).modDie 0 fun d => { d with
    gangs := [{ kind := k, launch := 0, gang := 2, core := 0, slot := 0, uid := 1, due := 0 }] }) fun l => { l with gangs := [(2, g)] }

theorem witness_GangsAtTheirHome :
    (answers (.gangArrivalAtHome 0) (atGang .arrive (.bar 5 2 0) Gang.reset) (fun t => t.slot.wait == .barDone 5 2 0 2 12) &&
     answers (.gangArrivalAtHome 0) (atGang .arrive (.bar 5 2 0) { Gang.reset with members := [1], broken := true })
       (fun t => t.slot.wait == .barDone 5 2 0 1 12) &&
     answers (.gangArrivalAtHome 0) (atGang .arrive (.bar 5 2 0) { Gang.reset with members := [1, 4] })
       (fun t => ((t.launch 0).gang 2).arrived == [1]) &&
     answers (.gangArrivalAtHome 0) (atGang .arrive (.bar 5 2 0) { Gang.reset with members := [1] })
       (fun t => t.slot.wait == .barDone 5 2 0 0 12 && ((t.launch 0).gang 2).gen == 1) &&
     answers (.gangArrivalAtHome 0) (atGang .join (.gang true) Gang.reset) (fun t => ((t.launch 0).gang 2).members == [1]) &&
     answers (.gangArrivalAtHome 0) (atGang .leave (.gang false) Gang.reset) (fun t => t.slot.wait == .gangDone 12) &&
     answers (.gangArrivalAtHome 0) (atGang .leave (.gang false) { Gang.reset with members := [1] })
       (fun t => ((t.launch 0).gang 2).members.isEmpty) &&
     ((atGang .arrive (.bar 5 2 0) Gang.reset).findTask 1 == some ⟨0, 0⟩) &&
     answers (.gangArrivalAtHome 0)
       ((atGang .arrive (.bar 5 2 0) { Gang.reset with members := [1, 4], arrived := [4] }).setSlot ⟨0, 1⟩
         { placeSlot with uid := 4, wait := .bar 6 2 0 })
       (fun t => t.slot.wait == .barDone 5 2 0 0 12 && (t.slotAt ⟨0, 1⟩).wait == .barDone 6 2 0 0 12 &&
         ((t.launch 0).gang 2).gen == 1)) = true := by decide +kernel

theorem witness_BarCompletes :
    (answers (.barComplete 0 0) (start.mapSlot fun l => { l with wait := .barDone 5 2 0 0 0 }) (fun t => t.rx 5 == 0) &&
     answers (.barComplete 0 0) (start.mapSlot fun l => { l with wait := .barDone 5 2 0 1 0, gangctl := 1 })
       (fun t => t.rx 5 == 1 && t.slot.tcause == 0x0C && t.slot.tpc == 0x20004)) = true := by decide +kernel

theorem witness_AtomicRequests :
    (passesAt start (0x100 : W64) 8 .both 0x100 && passesAt start (0x104 : W64) 4 .both 0x104 && start.level == 0 &&
     (atLevel start 1).level == 1 && (atLevel start 2).level == 2 && !(atLevel start 2).slot.inh &&
     answers (.amo 5 6 7 .unpublished .add) (setx start [(6, 0x100)]) (fun t => t.slot.wait != .run)) = true := by decide +kernel

/-- The task with an atomic on its way to a word that holds 5. -/
def atomic (k : AtomicKind) (fresh : Bool) : State :=
  { start.mapSlot fun l => { l with wait := .atomic 7 0x100 k fresh 0 } with mem := start.mem.set 0x100 5 }

theorem witness_AtomicsAtTheirHome :
    ((atomic (.amo .add 1) true).overlay.isEmpty && (atomic (.amo .add 1) true).mem.wf &&
     answers (.atomicAtHome 0 0) (atomic (.amo .min (-1)) true) (fun t => t.peek 0x100 8 == 2 ^ 64 - 1 && t.rx 7 == 5) &&
     answers (.atomicAtHome 0 0) (atomic (.amo .minn (-1)) true) (fun t => t.peek 0x100 8 == 5) &&
     answers (.atomicAtHome 0 0) (atomic (.cas 5 9) false) (fun t => t.peek 0x100 8 == 9) &&
     answers (.atomicAtHome 0 0) (atomic (.cas 4 9) false) (fun t => t.peek 0x100 8 == 5) &&
     answers (.atomicAtHome 0 0) ((atomic (.cas 5 9) false).mapSlot fun l => { l with wait := .atomic 7 0x100 (.cas 5 9) false 1 })
       (fun t => t.peek 0x100 8 == 5) &&
     answers (.atomicAtHome 0 0) (atomic (.addF 0x3F800000) false) (fun t => t.peek 0x100 4 == 0x3F800000)) = true := by
  decide +kernel

theorem witness_Tokens :
    (answers (.toksig .seq 7) (start.mapSlot fun l => { l with tok := l.tok.set 7 65535 })
       (fun t => t.slot.tok == start.slot.tok.set 7 65535) &&
     answers (.tokwait .seq 0) start (·.slot.stalled) &&
     answers (.tokwait .seq 0) (start.mapSlot fun l => { l with tok := l.tok.set 0 1 }) (fun t => !t.slot.stalled) &&
     !(start.here.vq.full .vec) && !(start.here.cq.full .copy) && !(start.here.mq.full .mx)) = true := by decide +kernel

theorem witness_EngineWaits :
    (answers (.waite .mx 0) pendingX5 (·.slot.stalled) && answers (.waite .mx 1) pendingX5 (fun t => !t.slot.stalled) &&
     answers (.waite .copy 0) (start.mapSlot fun l => { l with issuedCopies := 1, frozen := [(1, 7)] })
       (fun t => t.slot.tcause == 0x06 && t.slot.tval == 7) &&
     answers (.waite .copy 1) (start.mapSlot fun l => { l with issuedCopies := 1, frozen := [(1, 7)] })
       (fun t => t.slot.tcause == 0) &&
     answers (.fenceE 0) pendingX5 (·.slot.stalled) && answers (.fenceE 3) pendingX5 (fun t => !t.slot.stalled) &&
     answers (.waitwm 5 6 0) (setx landing [(6, 0xFFF0000000024000)]) (·.slot.stalled) &&
     answers (.waitwm 5 6 0) (setx landing [(6, 0xFFF0000000023FFF)]) (fun t => t.rx 5 == 1) &&
     answers (.waitwm 5 6 0) (setx (landing.modCore 0 fun c => { c with wms := c.wms.set 0 { c.wms[0] with stat := 3 } })
       [(6, 0xFFF0000000024000)]) (fun t => t.slot.tcause == 0x06)) = true := by decide +kernel

/-- Publications at their boundaries: system scope in D2, a granule pending to the host window, and one still on its way. -/
theorem witness_Publishing_scopes :
    (answers (.phase .system true) (atLevel start 2) (fun t => t.slot.tcause == 0x14) &&
     answers (.phase .system false) (atLevel start 2) (fun t => t.slot.tcause == 0x14) &&
     (let h := hostTask.mapSlot fun l => { l with pend := [(0x8000000000100, 7)] }
      tmem h.slot.pend 0x8000000000100 && hostLoc 0x8000000000100 && !h.bridge &&
      answers (.phase .package false) h (fun t => t.outbox.length == 1 && t.slot.busyTill == 97) &&
      answers (.phase .die false) h (fun t => t.outbox.isEmpty)) &&
     answers (.semSig 6 7 .core) (setx (start.mapSlot fun l => { l with busyTill := 50 }) [(6, semName 0)])
       (fun t => t.slot.busyTill == 53 && (t.die 1).inbox.all fun o => o.due == 85)) = true := by decide +kernel

/-- An arm whose TCB lies outside every lease. -/
theorem witness_ArmsThatEndTheTask :
    (let s := setLaunch start fun l => { l with ntcb := 1, tcbs := 0x50000000000 }
     trapsWith s 0x50000000000 1 .write .early == some .lease &&
     answers (.semArm 5 6 8) (setx s [(6, 0), (8, semName 3)]) (fun t => !t.slot.occ) &&
     (let e := setLaunch start fun l => { l with ntcb := 1, tcbs := 0x100000 - 32 }
      (match e.checkTranslated e.cur (0x100000 - 32) 1 .write .early with
       | .ok _ u => (match u.checkTranslated e.cur (0x100000 + 31) 1 .write .early with | .trap c => c == .lease | _ => false)
       | _ => false))) = true := by decide +kernel

/-- An arm of TCB 1 at threshold 6, or 5, at its home, of a launch of two TCBs whose words are 0. -/
def arming (t : W64) : State :=
  setLaunch (atHome (.arm 0 1 t) (.sem 7 false)) fun l => { l with ntcb := 2, tcbs := 0x3000 }

/-- TCB 1 of the launch is armed at semaphore 3 with a threshold, from a device. -/
def armedAt (s : State) (t : W64) (dev : BitVec 20) : State :=
  (setLaunch s fun l => { l with ntcb := 2, tcbs := 0x3000 }).modDie 1 fun d => { d with
    arms := [{ index := 3, threshold := t, launch := 0, tcb := 1, dev := dev, gen := 0 }] }

theorem witness_ArmsAtTheirHome :
    ((arming 6).tcbFree 0 1 && (match ((arming 6).launch 0).stage with | .admitted => true | _ => false) &&
     ((arming 6).slotAt ⟨0, 0⟩).wait == .sem 7 false &&
     answers (.semUpdateAtHome 1) (arming 6)
       (fun t => (t.die 1).arms.length == 1 && t.slot.wait == .semDone 7 0 false 32 && t.tcbState 0 1 == 1) &&
     answers (.semUpdateAtHome 1) (arming 5)
       (fun t => (t.die 1).arms.isEmpty && (t.die 0).ready.length == 1 && t.tcbState 0 1 == 2 && t.slot.wait == .semDone 7 0 false 32) &&
     answers (.semUpdateAtHome 1) ((arming 6).setTcbState 0 1 1) (fun t => t.slot.wait == .semDone 7 1 false 32) &&
     (let a : Arm := { index := 3, threshold := 9, launch := 0, tcb := 1, dev := 0, gen := 0 }
      answers (.semUpdateAtHome 1) ((arming 6).modDie 1 fun d => { d with arms := List.replicate Config.armRecords a })
       (fun t => t.slot.wait == .semDone 7 3 false 32)) &&
     answers (.semUpdateAtHome 1) (setLaunch (arming 6) fun l => { l with stage := .over })
       (fun t => (t.die 1).inbox.isEmpty && t.slot.wait == .sem 7 false)) = true := by decide +kernel

theorem witness_ReleasesByAnUpdate :
    (answers (.semUpdateAtHome 1) (armedAt (atHome (.sig 1) .run) 6 0)
       (fun t => (t.die 1).arms.isEmpty && (t.die 0).ready.length == 1) &&
     answers (.semUpdateAtHome 1) (armedAt (atHome (.sig 1) .run) 7 0) (fun t => (t.die 1).arms.length == 1 && (t.die 0).ready.isEmpty) &&
     answers (.semUpdateAtHome 1) (armedAt (atHome (.set 6) (.sem 7 false)) 6 9)
       (fun t => (t.die 1).arms.isEmpty && t.outbox.length == 1 && t.slot.wait == .semDone 7 5 false 32) &&
     (let s := armedAt (atHome (.sig 1) .run) 6 0
      (s.fwRead (s.queue 0).troot 0x3040 8 == some 0) && (s.fwRead (s.queue 0).troot 0x3048 8).isSome &&
      (s.fwRead (s.queue 0).troot 0x3050 8).isSome && !((s.launch 0).mask.getLsbD 1) && (s.launch 0).mask.getLsbD 0) &&
     (let s := (armedAt (atHome (.sig 1) .run) 6 0)
      answers (.semUpdateAtHome 1) { s with mem := Memory.setAll s.mem (cellsLE 0x3040 8 2) }
        (fun t => t.tcbState 0 1 == 5 && (t.launch 0).faulted == 1 && (t.queue 0).evseq == 1))) = true := by decide +kernel

/-- Two tasks that wait at semaphore 3 for what a signal brings. -/
theorem witness_TwoWaiters :
    (let w (t : W64) (k : Fin 4) (u : Nat) : Waiter :=
       { index := 3, threshold := t, take := true, core := 0, slot := k, uid := u, dev := 0, queue := 0, gen := 0 }
     let s := ((atHome (.sig 2) (.sem 7 true)).setSlot ⟨0, 1⟩ { placeSlot with uid := 4, wait := .sem 9 true }).modDie 1 fun d =>
       { d with waiters := [w 6 0 1, w 1 1 4] }
     answers (.semUpdateAtHome 1) s (fun t => t.slot.wait == .semDone 7 7 true 32 &&
       (t.slotAt ⟨0, 1⟩).wait == .semDone 9 1 true 32 && (t.die 1).waiters.isEmpty && tget 0 (t.die 1).sems 3 == 0) &&
     answers (.semUpdateAtHome 1) (s.modDie 1 fun d => { d with waiters := [w 8 0 1, w 7 1 4] }) (fun t =>
       t.slot.wait == .sem 7 true && (t.slotAt ⟨0, 1⟩).wait == .semDone 9 7 true 32 && (t.die 1).waiters.length == 1)) = true := by
  decide +kernel

theorem witness_ReadyOrder :
    (let p (prio : BitVec 8) (i : Option Nat) : ReadyTcb :=
       { launch := 0, prio := prio, rstep := 0, index := i, order := 0, num := 0, prog := 0, arg := 0, role := .epilogue
         gang := none, origin := .direct 0 }
     (insertReady (p 1 (some 3)) [p 2 none, p 1 (some 2), p 1 none, p 0 none]).map (fun x => (x.prio, x.index)) ==
       [(2, none), (1, some 2), (1, some 3), (1, none), (0, none)]) = true := by decide +kernel

theorem witness_GangAnswers :
    (answers (.semWaitComplete 0 0) (start.mapSlot fun l => { l with wait := .gangDone 0 }) (fun t => t.slot.pc == 0x20004) &&
     answers (.semWaitComplete 0 0) (start.mapSlot fun l => { l with wait := .gangDone 1 }) (fun t => t.slot.pc == 0x20000) &&
     answers (.semWaitComplete 0 0) ((start.mapSlot fun l => { l with wait := .gangDone 0 }).modCluster 0 fun c => { c with hold := true })
       (fun t => t.slot.pc == 0x20000) &&
     (start.modCluster 0 fun c => { c with hold := true }).clusterStopped 0 &&
     answers (.gangArrivalAtHome 0) (atGang .enroll (.joining 2) Gang.reset)
       (fun t => t.slot.wait == .run && ((t.launch 0).gang 2).members == [1]) &&
     answers (.gangArrivalAtHome 0) (atGang .quit .run Gang.reset) (fun t => (t.die 0).gangs.isEmpty) &&
     answers (.gangArrivalAtHome 0) (atGang .quit .run { Gang.reset with members := [1, 4] })
       (fun t => ((t.launch 0).gang 2).members == [4]) &&
     answers (.barComplete 0 0) (start.mapSlot fun l => { l with wait := .barDone 5 2 0 0 1 }) (fun t => t.slot.pc == 0x20000)) = true := by
  decide +kernel

/-- An atomic to the host window on a device that does not bridge, and an answer held by the replay of its cluster. -/
theorem witness_AtomicsAway :
    (let h := hostTask.mapSlot fun l => { l with wait := .atomic 7 0x8000000000100 (.amo .add 1) true 0 }
     hostLoc 0x8000000000100 && !h.bridge && h.mem.wf && h.overlay.isEmpty && !(h.clusterStopped 0) &&
     answers (.atomicAtHome 0 0) h (fun t => t.slot.wait == .hostAtomic 7 true && t.outbox.length == 1 && t.hostTag == 1) &&
     answers (.atomicAtHome 0 0) ((atomic (.cas 5 9) false).modCluster 0 fun c => { c with hold := true })
       (fun t => t.peek 0x100 8 == 5)) = true := by decide +kernel

/-! ## Witnesses: engines -/

/-- A record of n bytes from src to dst in x8 to x15, with word 6 and word 7. -/
def copyRegs (src dst n w6 w7 : W64) : List (XReg × W64) :=
  [(8, src), (9, dst), (10, n), (11, 0), (12, 0), (13, 0), (14, w6), (15, w7)]

theorem witness_CopiesAreQueued :
    (answers (.cp .x8) (setx start (copyRegs 0x100 0x200 64 0 0)) (fun t => t.here.cq.recs.length == 1) &&
     answers (.cp .x8) (setx start (copyRegs 0x100 0x200 (2 ^ 63) 0 0)) (fun t => t.slot.tval == 1) &&
     answers (.cp .x8) (setx start (copyRegs 0x100 0x200 (2 ^ 20) 0 0)) (fun t => t.slot.tval == 2) &&
     answers (.cpt .x8) (setx start (copyRegs 0x100 0x200 64 0 0)) (fun t => t.slot.late) &&
     answers (.cpt .x8) (setx (atLevel start 2) (copyRegs 0x100 0x200 64 0 0)) (fun t => t.slot.tcause == 0x0D) &&
     answers (.cpt .x8) (setx start (copyRegs 0x100 0x200 64 0 1)) (fun t => t.here.cq.recs.length == 1 && !t.slot.late)) = true := by
  decide +kernel

/-- Code c of a record, from word 0 on, but for the words replaced. -/
def code (k : CopyKind) (c : Nat) (ws : List (Nat × W64)) : Bool :=
  start.copyCheck k (ws.foldl (fun l w => l.set w.1 w.2) [0x100, 0x200, 64, 0, 0, 0, 0, 0]) == some c

theorem witness_CopyCodes :
    (code .plain 1 [(7, 1)] && code .timed 1 [(2, 64 + 3 * 2 ^ 56)] && code .fill 1 [(3, 1)] && code .plain 2 [(2, 0)] &&
     code .gather 2 [(2, 64 + 2 ^ 32)] && code .plain 3 [(2, 64 + 2 ^ 20), (4, 63 * 2 ^ 32)] && code .gather 4 [(3, 4)] &&
     code (.reduce .fp32) 4 [(2, 63)] && code (.reduce .acc) 4 [(0, 0x108)] && code .scatter 5 [(6, 2 ^ 17)] && code .prefetch 5 [] &&
     code .ring 6 [] && code .ring 6 [(1, 0)] && code .timed 7 [(7, 1024)] && code .plain 0 [] == false &&
     start.copyCheck (.reduce .acc) [0x100, 0x200, 64, 0, 0, 0, 0, 0] == none) = true := by decide +kernel

/-- Core 0 with a ring of four slots of 64 bytes, of which some are filled and acquired. -/
def ringed (fill acq rel : Nat) (frozen : List Nat) : State :=
  let k : Ring := { base := 0x1000, slotb := 64, nslot := 4, alloc := 4, fill := fill, acq := acq, rel := rel, filled := []
                    frozen := frozen }
  start.modCore 0 fun c => { c with rings := c.rings.set 1 k }

/-- A copy entry of the task. -/
def copyRec (i : Instr) (ops : List W64) (st : RecState) : QRec :=
  { start.newRec .copy i EngQ.reset ops with st := st, started := st == .running, dst := ops.getD 1 0 }

/-- Core 0 with one copy entry. -/
def copying (q : QRec) : State := start.modCore 0 fun c => { c with cq := { c.cq with recs := [q] } }

theorem witness_WatermarksAndRings :
    (answers (.rngaw 5 1) (ringed 2 1 0 []) (fun t => t.rx 5 == 0x1040) &&
     answers (.rngaw 5 1) (ringed 2 2 0 []) (·.slot.stalled) &&
     answers (.rngaw 5 1) (ringed 2 2 0 [2]) (fun t => t.slot.tcause == 0x06 && t.slot.tval == 0x1080) &&
     answers (.rngrel 1) (ringed 2 1 0 []) (fun t => (t.here.rings[1]).rel == 1) &&
     answers (.rngrel 1) (ringed 2 1 1 []) (fun t => t.slot.tval == 8) &&
     answers (.rnginit 6 7 2) (setx start [(6, 0x1000), (7, 2 ^ 32 + 64)]) (fun t => (t.here.rings[2]).nslot == 1) &&
     answers (.rnginit 6 7 2) (setx start [(6, 0x1000), (7, 2 ^ 32 + 32)]) (fun t => t.slot.tval == 4) &&
     answers (.cpx 0) (copying (copyRec (.cp .x8) [0x100, 0x200, 64, 0, 0, 0, 2 ^ 17, 0] .running)
        |>.modCore 0 fun c => { c with wms := c.wms.set 0 { c.wms[0] with stat := 1 } })
       (fun t => (t.here.wms[0]).stat == 4) &&
     answers (.rnginit 6 7 2) ((setx start [(6, 0x1000), (7, 2 ^ 32 + 64)]).modCore 0 fun c => { c with
       cq := { c.cq with recs := [{ start.newRec .copy (.cpr .x8) EngQ.reset [0, 0, 64, 0, 0, 0, 0, 2] with st := .queued }] } })
       (·.slot.stalled)) = true := by decide +kernel

theorem witness_CopyEngine_starts :
    (answers (.copyEntryStart 0) (copying (copyRec (.cp .x8) [0x100, 0x200, 64, 0, 0, 0, 0, 0] .queued))
       (fun t => t.here.cq.recs.any fun q => q.st == .running) &&
     answers (.copyEntryStart 0) (copying (copyRec (.cpf .x8) [7, 0x200, 64, 0, 0, 0, 2 ^ 17, 0] .queued))
       (fun t => (t.here.wms[0]).stat == 1 && (t.here.wms[0]).hi == 0x240) &&
     start.timeReached 0 0 0 0 && !(start.clusterStopped 0) && !(start.here.saving) && !(start.here.paused 1) &&
     answers (.copyEntryStart 0) ((copying (copyRec (.cpr .x8) [0x100, 0, 64, 0, 0, 0, 0, 1] .queued)).modCore 0 fun c =>
       { c with rings := ((ringed 0 0 0 []).core 0).rings.set 1 { ((ringed 0 0 0 []).core 0).rings[1] with alloc := 1 } })
       (fun t => (t.here.rings[1]).alloc == 2 && t.here.cq.recs.any fun q => q.dst == 0x1040) &&
     answers (.copyEntryStart 0) ((copying (copyRec (.cpr .x8) [0x100, 0, 64, 0, 0, 0, 0, 1] .queued)).modCore 0 fun c =>
       { c with rings := ((ringed 0 0 0 []).core 0).rings }) (fun t => (t.here.rings[1]).alloc == 4) &&
     answers (.copyEntryStart 0) (copying (copyRec (.cppf .x8 false 0) [0x100, 0, 64, 0, 0, 0, 0, 0] .queued))
       (fun t => t.here.cq.recs.any fun q => q.fin == .done) &&
     answers (.copyEntryStart 0) (copying (copyRec (.cpt .x8) [0x100, 0x200, 64, 0, 0, 0, 0, 2 ^ 16] .queued))
       (fun t => t.here.cq.recs.any fun q => q.st == .held) &&
     answers (.cptRelease 0) (copying (copyRec (.cpt .x8) [0x100, 0x200, 64, 0, 0, 0, 0, 2 ^ 16] .held))
       (fun t => t.here.cq.recs.any fun q => q.st == .held) &&
     answers (.cptRelease 0) (copying { copyRec (.cpt .x8) [0x100, 0x200, 64, 0, 0, 0, 0, 0] .held with det := 2 })
       (fun t => t.here.cq.recs.isEmpty && t.slot.evTraps.length == 1) &&
     answers (.cptRelease 0) (copying (copyRec (.cpt .x8) [0x100, 0x200, 64, 0, 0, 0, 0, 0] .held))
       (fun t => t.here.cq.recs.any fun q => q.st == .running)) = true := by decide +kernel

theorem witness_CopyEngine_lands :
    (answers (.copyRowLanded 0 0) (copying (copyRec (.cpf .x8) [0x0807060504030201, 0x201, 63, 0, 0, 0, 0, 0] .running))
       (fun t => t.vis 0 0x201 == 2 && t.vis 0 0x23F == 8) &&
     answers (.copyRowLanded 0 0) (copying (copyRec (.cp .x8) [0x20000, 0x200, 4, 0, 0, 0, 0, 0] .running))
       (fun t => t.vis 0 0x202 == 0xD0 && t.here.cq.recs.any fun q => q.fin == .done) &&
     answers (.reductionMerge 0) (copying (copyRec (.cpred .x8 .fp32) [0x20000, 0x200, 4, 0, 0, 0, 0, 0] .running))
       (fun t => t.here.cq.recs.any fun q => q.merged == 1) &&
     answers (.reductionMerge 0) (copying (copyRec (.cpred .x8 .acc) [0x20000, 0x200, 16, 0, 0, 0, 0, 0] .running))
       (fun t => t.here.cq.recs.any fun q => q.merged == 1) &&
     answers (.copyRowLanded 0 0) (copying { copyRec (.cpred .x8 .fp32) [0x20000, 0x200, 4, 0, 0, 0, 0, 0] .running with merged := 1 })
       (fun t => t.here.cq.recs.any fun q => q.fin == .done) &&
     answers (.copyRowLanded 0 0) (copying (copyRec (.cpg .x8) [0x20000, 0x200, 4, 0x300, 0, 0, 0, 0] .running))
       (fun t => t.vis 0 0x202 == 0xD0) &&
     answers (.copyRowLanded 0 0) (copying (copyRec (.cps .x8) [0x20000, 0x200, 4, 0, 0, 0x300, 0, 0] .running))
       (fun t => t.vis 0 0x202 == 0xD0) &&
     answers (.copyRowLanded 0 0) (copying (copyRec (.cp .x8) [0x20000, 0x200, 2 + 2 ^ 20, 4, 2 ^ 33, 0, 0, 0] .running))
       (fun t => t.here.cq.recs.any fun q => q.row == 1 && q.fin == .no) &&
     answers (.copyRowLanded 0 0) ((copying (copyRec (.cp .x8) [0x20000, 0x200, 4, 0, 0, 0, 2 ^ 17, 0] .running)).modCore 0 fun c =>
       { c with wms := c.wms.set 0 { lo := 0x200, hi := 0x204, wm := 0x202, stat := 1, owner := (1, 1) } })
       (fun t => t.vis 0 0x200 == 0 && t.vis 0 0x202 == 0xD0 && (t.here.wms[0]).wm == 0x204) &&
     answers (.copyRowLanded 0 0) (copying (copyRec (.cp .x8) [0x20000, 0xFFF0000000000000, 4, 0, 0, 0, 0, 0] .running))
       (fun t => t.slot.engTraps.length == 1 && t.here.cq.recs.any fun q => q.fin == .frozen) &&
     answers (.copyEntryEnd 0 0) (copying { copyRec (.cp .x8) [0, 0, 4, 0, 0, 0, 0, 0] .running with fin := .done })
       (fun t => t.here.cq.recs.isEmpty) &&
     answers (.copyEntryEnd 0 0) (copying { copyRec (.cp .x8) [0, 0, 4, 0, 0, 0, 2 ^ 17, 0] .running with fin := .frozen })
       (fun t => t.here.cq.recs.isEmpty && t.slot.frozen.length == 1) &&
     answers (.copyEntryEnd 0 0) (copying (copyRec (.tokwait .copy 3) [] .running)) (fun t => t.here.cq.recs.length == 1) &&
     answers (.copyEntryEnd 0 0) ((copying (copyRec (.tokwait .copy 3) [] .running)).mapSlot fun l => { l with tok := l.tok.set 3 1 })
       (fun t => t.slot.tok == start.slot.tok && t.here.cq.recs.isEmpty) &&
     start.semCheckFor 0 0 (semName 3) == none && start.here.context.getD 0 == 0 &&
     answers (.copyEntryEnd 0 0)
       (copying { copyRec (.cp .x8) [0, 0, 4, 0, 0, 0, semName 3 + 2 ^ 18, 0] .running with fin := .done })
       (fun t => (t.die 1).inbox.length == 1) &&
     answers (.copyEntryEnd 0 0) (copying (copyRec (.toksig .copy 3) [] .running))
       (fun t => t.slot.tok == start.slot.tok.set 3 1)) = true := by decide +kernel

/-- A table of one pass of one row of I8 pairs, with a commit after it. -/
def onePass : List (BitVec 128) :=
  [0x100, 0x200, 0, 1 + 2 ^ 24 + 2 ^ 49, 1 + 3 * 2 ^ 16, 1 + 2 ^ 16, 1, 1, 1, 1, 0, 0, 0, 0, 0, 0]

/-- The task with a shadow table. -/
def tabled (t : List (BitVec 128)) : State :=
  start.mapSlot fun l => { l with mxtab := Vector.ofFn fun k => t.getD k.val 0 }

theorem witness_MatrixInstructions :
    ((tabled onePass).mxCheck (tabled onePass).slot.mxtab.toList false == none && start.service != 1 &&
     answers .mxgo (tabled onePass) (fun t => t.here.mq.recs.length == 1) &&
     answers .mxgo (tabled (onePass.set 10 1)) (fun t => t.slot.tval == 1) &&
     answers (.mxldw 6 7) start (fun t => t.slot.tval == 1) && answers (.mxldw 6 0) start (fun t => t.slot.tval == 5) &&
     answers (.mxldw 6 6) (setx start [(6, 32)]) (fun t => t.slot.tval == 6) &&
     answers (.mxldw 6 6) (setx start [(6, 64)]) (fun t => t.here.mq.recs.length == 1) &&
     answers (.mxldwScaled 6 7 4) start (fun t => t.slot.tval == 5) &&
     answers (.mxldwScaled 6 7 3) (setx start [(6, 64), (7, 2)]) (fun t => t.slot.tval == 6) &&
     answers (.mxldwScaled 6 7 3) (setx start [(6, 64), (7, 4)]) (fun t => t.here.mq.recs.length == 1) &&
     answers (.mxsta 6 7 1 1) (setx start [(6, 64), (7, 511)]) (fun t => t.slot.tval == 6) &&
     answers (.mxsta 6 7 1 1) (setx start [(6, 64), (7, 512)]) (fun t => t.here.mq.recs.length == 1)) = true := by decide +kernel

theorem witness_TableChecks :
    (start.mxCheck (onePass.set 3 (7 + 2 ^ 24 + 2 ^ 49)) false == some 1 &&
     start.mxCheck (onePass.set 4 (1 + 2 * 2 ^ 16)) false == some 2 &&
     start.mxCheck (onePass.set 4 (2 + 3 * 2 ^ 16)) false == some 3 &&
     start.mxCheck (onePass.set 5 1) false == some 4 &&
     start.mxCheck (onePass.set 3 (2 ^ 24 + 2 ^ 49)) false == some 5 &&
     start.mxCheck (onePass.set 0 0x101) false == some 6 && start.mxCheck ((((onePass.set 3 (1 + 3 * 2 ^ 24 + 2 ^ 49)).set 5 65535).set 6 5).set 7
       (1 + 2 ^ 16)) false == some 7 &&
     start.mxCheck onePass true == some 8 && start.mxCheck onePass false == none) = true := by decide +kernel

/-- Core 0 with one matrix entry, and perhaps a nest in flight. -/
def nesting (i : Instr) (ops : List W64) (t : List (BitVec 128)) (m : Option MRun) : State :=
  start.modCore 0 fun c => { c with mq := { c.mq with recs := [{ start.newRec .mx i EngQ.reset ops with table := t }] }, mrun := m }

/-- The engine's state before, and after, the one pass of a nest. -/
def oneRun (passed : Bool) : MRun :=
  { idx := [0, 0, 0, 0, 0], loaded := true, passed := passed, block := 0, u := [], adapter := [] }

theorem witness_MatrixEngine_starts :
    (answers (.matrixEntryStart 0) (nesting .mxswp [] [] none) (fun t => t.here.mq.recs.isEmpty) &&
     answers (.matrixEntryStart 0) (nesting .mxclr [] [] none) (fun t => t.here.mq.recs.isEmpty) &&
     answers (.matrixEntryStart 0) (nesting (.mxmrk 5 6) [] [] none) (fun t => t.here.mq.recs.isEmpty) &&
     answers (.matrixEntryStart 0) (nesting .mxgo [] onePass none) (fun t => t.here.mrun.isSome) &&
     (match start.copySpan ⟨0, 0⟩ .write mxMode 0x200 512 with | .ok bs _ => bs.length == 512 | _ => false) &&
     answers (.matrixEntryStart 0) (nesting (.mxsta 6 7 0 1) [0x200, 0] [] none) (fun t => t.here.mq.recs.isEmpty)) = true := by
  decide +kernel

theorem witness_MatrixEngine_loads :
    (let s := nesting (.mxldw 6 1) [0x4000, 0] [] (some (oneRun false))
     (match s.copySpan ⟨0, 0⟩ .read mxMode 0x4000 (pairPlaneBytes 1) with | .ok bs _ => bs.length != 0 | _ => false) &&
     (s.core 0).mrun.isSome) = true := by decide +kernel

theorem witness_MatrixEngine_passes :
    ((match start.copySpan ⟨0, 0⟩ .read mxMode 0x4000 (pairPlaneBytes 1) with | .ok bs _ => bs.length == 16384 | _ => false) &&
     start.ownsWindow 0 0 && (match start.copySpan ⟨0, 0⟩ .read mxMode 0x100 128 with | .ok bs _ => bs.length == 128 | _ => false) &&
     answers (.matrixPass 0) (nesting .mxgo [] onePass (some (oneRun false)))
       (fun t => match t.here.mrun with | some m => m.passed | none => false) &&
     answers (.matrixCommit 0) (nesting .mxgo [] (onePass.set 3 (1 + 2 ^ 24 + 2 ^ 49)) (some (oneRun true)))
       (fun t => t.here.mq.recs.isEmpty && t.here.upperCommitted)) = true := by decide +kernel

/-- The task with a vector type and the registers of its core. -/
def typed (t : BitVec 4) (vregs : Nat) : State :=
  (start.mapSlot fun l => { l with vcfg := t.setWidth 64 }).modCore 0 fun c => { c with vregs := vregs }

theorem witness_VectorInstructions :
    (answers (.vadd 4 6 8 1 false false) (typed 4 48) (fun t => t.here.vq.recs.length == 1) &&
     answers (.vadd 4 6 8 1 false false) (typed 4 9) (fun t => t.slot.tcause == 1 && t.slot.tval == 9) &&
     answers (.vadd 4 6 8 1 false false) (typed 9 48) (fun t => t.slot.tcause == 1 && t.slot.tval == 0) &&
     answers (.vadd 4 49 8 0 false false) ((typed 4 48).mapSlot fun l => { l with pushes := 1 }) (fun t => t.slot.tcause == 2) &&
     answers (.vadd 4 49 8 0 false false) ((typed 4 48).mapSlot fun l => { l with pushes := 2 }) (fun t => t.slot.pushes == 3) &&
     answers (.vld 4 6 7 0 false false) (setx (typed 4 48) [(6, 0x100), (7, 4)]) (fun t => t.here.vq.recs.length == 1) &&
     answers (.vld 4 6 7 0 false false) (setx (typed 4 48) [(6, 0x100), (7, 2)])
       (fun t => t.slot.tcause == 3 && t.slot.tval == 0x102) &&
     answers (.vldg 4 6 8 0 false false) (setx (typed 4 48) [(6, 0x101)]) (fun t => t.here.vq.recs.length == 1)) = true := by
  decide +kernel

theorem witness_VectorTypes :
    (answers (.vshl 1 2 3 0 false false) (typed 6 48) (fun t => t.slot.tcause == 1) && (typed 6 48).here.vregs == 48 &&
     !(typed 6 48).slot.inh && (Instr.vshl 1 2 3 0 false false).wf && { start with service := 1 }.service == 1 &&
     answers (.vsett .tf8 true 2) { start with service := 1 } (fun t => t.slot.tcause == 1) &&
     answers (.vsett .n4 true 2) start (fun t => t.slot.vcfg == 0xAB)) = true := by decide +kernel

/-- A word at fault names a register past VREGS, and a word after a LIX is ILLEGAL by itself. -/
theorem witness_VectorWordsAtFault :
    (answers (.illegal (Instr.vadd 4 6 8 1 false false).encode) (typed 4 9) (fun t => t.slot.tcause == 1 && t.slot.tval == 9) &&
     (match vectorOp (Instr.vadd 4 6 8 1 false false).encode.toNat with | some i => (vdesc i .i32).isSome | none => false) &&
     ((typed 4 9).mapSlot fun l => { l with pfx := [1] }).wordIllegal (.vadd 4 6 8 1 false false) == some 9) = true := by
  decide +kernel

theorem witness_StepRunsDecodedWord_parks :
    (match fetches (demand.mapSlot fun l => { l with pc := 0x80000000000 }) with | some (.park _) => true | _ => false) = true := by
  decide +kernel

/-- Core 0 with one vector entry. -/
def vectoring (i : Instr) (v : Option VRun) : State :=
  (typed 4 48).modCore 0 fun c => { c with vq := { c.vq with recs := [(typed 4 48).newRec .vec i EngQ.reset []] }, vrun := v }

/-- Core 0 with one vector entry with captured scalars, of a type, and mask 1 with element 0 alone active. -/
def vectorAt (ty : BitVec 4) (i : Instr) (ops : List W64) : State :=
  let s := (typed ty 48).mapSlot fun l => { l with
    vcfg := l.vcfg + 16, m := l.m.set 1 1, v := (l.v.set 2 0x40000000).set 3 0x3F800000 }
  s.modCore 0 fun c => { c with vq := { c.vq with recs := [s.newRec .vec i EngQ.reset ops] } }

/-- Whether the entry starts, and what it will write meets a condition. -/
noncomputable def vstarts (s : State) (p : VRun → Bool) : Bool :=
  answers (.vectorEntryStart 0) s fun t => match t.here.vrun with | some o => p o | none => false

/-- The lowest 32 bits of the first register that an entry will write. -/
def lowWord (o : VRun) : Nat := (o.vregs.headD (0, 0)).2.toNat % 2 ^ 32

theorem witness_VectorEngine_arithmetic :
    (let z : State := vectorAt 4 .nop []
     (z.core 0).vq.recs.length == 1 && !((z.core 0).saving) && !(z.clusterStopped 0) && !((z.core 0).paused 1) && (z.core 0).vrun.isNone &&
     vstarts (vectorAt 4 (.vadd 1 2 3 0 false true) []) (fun o => lowWord o == 0x7F800000) &&
     vstarts (vectorAt 6 (.vadd 1 2 3 0 false true) []) (fun o => lowWord o == 0x40400000) &&
     vstarts (vectorAt 6 (.vmulScalar 1 2 5 0 false true) [0x40400000]) (fun o => lowWord o == 0x40C00000) &&
     vstarts (vectorAt 2 (.vaddw 4 2 3 0 false true) []) (fun o => o.vregs.length == 2) &&
     vstarts (vectorAt 6 (.vcmplt 2 3 2 0 true) []) (fun o => (o.mregs.headD (0, 0)).2 == 1) &&
     vstarts (vectorAt 4 (.vmpop 5 1 false) []) (fun o => o.xregs == [(5, 1)]) &&
     vstarts (vectorAt 4 (.vext 5 2 6 0) [128]) (fun o => o.xregs == [(5, 0)]) &&
     vstarts (vectorAt 6 (.vsqrt 1 2 0 false true) []) (fun o => lowWord o == 0x3FB504F3) &&
     vstarts (vectorAt 6 (.vdiv 1 3 2 0 false true) []) (fun o => lowWord o == 0x3F000000) &&
     vstarts (vectorAt 6 (.vcvt 1 2 .i32 0 false true) []) (fun o => lowWord o == 0x4E800000) &&
     vstarts (vectorAt 6 (.vexpmax 5 2 true) []) (fun o => o.xregs == [(5, 1)])) = true := by decide +kernel

theorem witness_VectorEngine_memory :
    ((match (vectorAt 4 (.vld 1 6 7 0 false true) [0x20000, 0]).vecAccess ⟨0, 0⟩ .read 4 [(0, 0x20000)] with
      | .ok locs _ => locs == [(0, 0x20000, 0x20000)] | _ => false) &&
     vstarts (vectorAt 4 (.vld 1 6 7 0 false true) [0x20000, 0]) (fun o => lowWord o == 0xD0D00000) &&
     vstarts (vectorAt 4 (.vst 2 6 7 0 true) [0x200, 0]) (fun o => o.stores.length == 4) &&
     vstarts (vectorAt 4 (.vldg 1 6 4 0 false true) [0x20000]) (fun o => lowWord o == 0xD0D00000) &&
     vstarts (vectorAt 4 (.vlds 1 6 7 0 false true) [0xFFF0000000000000, 4]) (fun o => match o.trap with
       | some t => t.cause == .poolRange && t.tval == 0xFFF0000000000000 && t.orig == 1 | none => false) &&
     answers (.vectorEntryStart 0) ((vectorAt 4 (.vld 1 6 7 0 false true) [0xFFF0000000024000, 0]).modCore 0 fun c =>
       { c with wms := (landing.core 0).wms }) (fun t => t.here.vrun.isNone && t.here.vq.recs.all fun q => q.st == .running)) = true := by
  decide +kernel

theorem witness_SpecialValues :
    (let F := fmtOf .f32
     let r := fun fn n => specResult fn .f32 .rne 0 n
     (match F.read (flushIn 0 .f32) 0x7F800000 with | .inf neg => !neg | _ => false) && r .exp 0x7F800000 == (0x7F800000, 0) &&
     r .log 0 == (0xFF800000, flDZ) && r .exp2 0x40400000 == (0x41000000, 0) && r .log2 0x41000000 == (0x40400000, 0) &&
     r .rsq 0x80000000 == (0xFF800000, flDZ) && r .sin 0x7F800000 == (0x7FC00000, flNV)) = true := by decide +kernel

theorem witness_VectorEngine_ends :
    (answers (.vectorEntryStart 0) (vectoring (.vadd 1 2 3 0 false false) none) (fun t => t.here.vrun.isSome) &&
     answers (.vectorEntryEnd 0) (vectoring (.vadd 1 2 3 0 false false)
       (some { vregs := [(47, 5)], mregs := [], xregs := [], stores := [], push := some 5, flags := 0, trap := none }))
       (fun t => t.slot.v[47] == 5 && t.slot.b[0] == 5) &&
     answers (.vectorEntryEnd 0) (vectoring (.vst 1 6 7 0 false)
       (some { vregs := [], mregs := [], xregs := [], stores := [(0x200, 0x200, 7, 0xFF)], push := none, flags := 1, trap := none }))
       (fun t => t.vis 3 0x200 == 7 && t.slot.fpctl == 0x10000) &&
     answers (.vectorEntryEnd 0) ((vectoring (.vadd 1 2 3 0 false false)
       (some { vregs := [(1, 5)], mregs := [], xregs := [], stores := [], push := none, flags := 1, trap := none })).mapSlot fun l =>
         { l with fpctl := 0x1F000000 })
       (fun t => t.slot.v[1] == 5 && t.slot.fpctl == 0x1F010000 && t.slot.engTraps.length == 1) &&
     answers (.vectorEntryEnd 0) (vectoring (.vadd 1 2 3 0 false false)
       (some { vregs := [], mregs := [], xregs := [], stores := [], push := none, flags := 0
               trap := some { cause := .fp, tval := 1, word := 2, qent := 0, orig := 1 } }))
       (fun t => t.slot.engTraps.length == 1)) = true := by decide +kernel

/-- A copy that freezes with its watermark: to an address that its checks refuse, register 0 landing. -/
theorem witness_CopyEngine_freezes :
    (let s := (copying (copyRec (.cp .x8) [0x20000, 0xFFF0000000000000, 4, 0, 0, 0, 2 ^ 17, 0] .running)).modCore 0 fun c =>
       { c with wms := c.wms.set 0 { lo := 0xFFF0000000000000, hi := 0xFFF0000000000004, wm := 0xFFF0000000000000, stat := 1
                                     owner := (1, 1) } }
     answers (.copyRowLanded 0 0) s (fun t => (t.here.wms[0]).stat == 3 && (t.here.wms[0]).wm == 0xFFF0000000000000 &&
       t.here.cq.recs.all (fun q => q.fin == .frozen) && t.slot.engTraps.all (fun p => p.cause == .poolRange && p.freeze)) &&
     (s.slotAt ⟨0, 0⟩).engTraps.isEmpty &&
     answers (.copyRowLanded 0 0) (s.mapSlot fun l => { l with engTraps := [{ cause := .mxSpec, tval := 0, word := 0, qent := 0, orig := 3
                                                                              stop := 64 * s.refclk + s.lap }] })
       (fun t => t.slot.engTraps.map (fun p => p.orig) == [2, 3])) = true := by decide +kernel

/-- The table of a nest of two passes of one TF8 row with scales, whose commit stores a row of TF8. -/
def twoPasses : List (BitVec 128) :=
  [0x100, 0x400, 0x200, 0 + 4 * 16 + 2 * 2 ^ 24 + 2 ^ 48 + 2 ^ 49, 1 + 3 * 2 ^ 16, 2 + 2 ^ 16, 1 + 2 ^ 16, 1, 1, 1, 0, 0, 0, 0, 0, 0]

/-- The state in which the nest's next pass, or its commit, is due, with the entry that maps the first 4 TiB in the TLB. -/
def scaledNest (passed : Bool) : State :=
  (nesting .mxgo [] twoPasses (some (oneRun passed))).modCore 0 fun c => { c with
    tlb := [{ vpn := 0, pages := 67108864, pte := 0x7F, pteAt := 0x10000 }] }

theorem witness_MatrixEngine_scaledPass :
    ((match (scaledNest false).copySpan ⟨0, 0⟩ .read mxMode 0x100 128 with | .ok bs u => bs.length == 128 && u == scaledNest false | _ => false) &&
     (match (scaledNest false).copySpan ⟨0, 0⟩ .read mxMode 0x200 4 with | .ok bs u => bs.length == 4 && u == scaledNest false | _ => false) &&
     (scaledNest false).ownsWindow 0 0 &&
     answers (.matrixPass 0) (scaledNest false) (fun t => match t.here.mrun with
       | some m => !m.passed && m.idx == [1, 0, 0, 0, 0] && m.loaded | none => false)) = true := by decide +kernel

theorem witness_NextPass : NextPass (fun l => if l = 1 then 2 else 1) [0, 0, 0, 0, 0] [1, 0, 0, 0, 0] ∧
    NextPass (fun l => if l = 1 then 2 else 1) [1, 0, 0, 0, 0] [0, 0, 0, 0, 1] := by
  refine ⟨⟨rfl, rfl, 0, by decide, by decide, by decide, by decide, ?_⟩, ⟨rfl, rfl, 4, by decide, by decide, by decide, by decide, ?_⟩⟩
  · intro k h1 h2
    match k with
    | 1 | 2 | 3 | 4 => rfl
  · intro k h1 h2
    omega

/-- The span of n bytes at an address of the task's first MiB, as it passes its checks. -/
theorem spanOk (s : State) (a : Int) (n : Nat) (ls : List (Nat × Nat))
    (h : (match s.copySpan ⟨0, 0⟩ .write mxStore a n with | .ok bs u => bs == ls && u == s | _ => false) = true) :
    s.copySpan ⟨0, 0⟩ .write mxStore a n = .ok ls s := by
  split at h
  · next bs u e => rw [Bool.and_eq_true, beq_iff_eq, beq_iff_eq] at h; rw [e, h.1, h.2]
  · exact absurd h (by decide)

/-- The spans of a row of TF8 and of its scales, which pass their checks one after the other. -/
theorem witness_BankChecks :
    let s := scaledNest true
    let at_ : Nat → Nat → List Nat := fun a n => (List.range n).map (a + ·)
    let locs : Nat → List Nat := fun i => if i = 0 then at_ 0x400 128 else at_ 0x600 4
    BankChecks s s ⟨0, 0⟩ (bankSpans 4 1 0x400 512) locs ∧ ((List.range 2).flatMap locs).Nodup := by
  refine ⟨⟨fun _ => scaledNest true, fun i => if i = 0 then (List.range 128).map (fun j => (0x400 + j, 0x400 + j)) else
    (List.range 4).map fun j => (0x600 + j, 0x600 + j), rfl, rfl, ?_⟩, by decide +kernel⟩
  intro i a n h
  match i, h with
  | 0, h => cases h; exact ⟨spanOk _ _ _ _ (by decide +kernel), by decide +kernel⟩
  | 1, h => cases h; exact ⟨spanOk _ _ _ _ (by decide +kernel), by decide +kernel⟩

/-- A vector load from the host window on a device that does not bridge asks the bridging device. -/
theorem witness_VectorEngine_away :
    (let v := vectorAt 4 (.vld 1 6 7 0 false true) [0x40000000000, 0]
     let s := { v with bridge := hostTask.bridge, hostDev := 9, mem := hostTask.mem, launches := hostTask.launches }
     !(s.hostAsked ⟨0, 0⟩ 1 0x8000000000000) &&
     answers (.vectorEntryStart 0) s (fun t => t.outbox.length == 1 && t.hostAsked ⟨0, 0⟩ 1 0x8000000000000)) = true := by decide +kernel

/-! ## Witnesses: system instructions and queue cores -/

theorem witness_SpecialRegisters :
    (start.level == 0 && (atLevel start 1).level == 1 && !(atLevel start 1).slot.inh && decide (start.steplen < 2 ^ 17) &&
     answers (.csrw 6 0x7C0) (setx start [(6, 15)]) (fun t => t.slot.ageLimit == 16) &&
     answers (.csrw 6 0x7C5) (setx start [(6, 12)]) (fun t => t.slot.vcfg == 6) &&
     answers (.csrr 5 0xF0A) (atLevel start 1) (fun t => t.slot.tcause == 0x14) &&
     answers (.csrr 5 0xF0C) start (fun t => t.rx 5 == 1024) && answers (.csrr 5 0xF0D) start (fun t => t.rx 5 == 0) &&
     answers (.csrr 5 0xF0D) (atLevel start 2) (fun t => t.rx 5 == 32) &&
     answers (.csrr 5 0xF0C) { atLevel start 2 with refclk := 1024 } (fun t => t.rx 5 == 1024 + 992 * 2 ^ 32) &&
     answers (.csrw 6 0xF01) start (fun t => t.slot.tcause == 0x12) && answers (.csrw 6 0xF0D) start (fun t => t.slot.tcause == 0x12) &&
     answers (.csrr 6 0x7BF) start (fun t => t.slot.tcause == 1) && answers (.csrr 6 0xF0E) start (fun t => t.slot.tcause == 1)) = true := by
  decide +kernel

/-- The pending pool of die 0 with n children, in a launch whose spill queues hold cap entries. -/
def pooled (n cap : Nat) : State :=
  (setLaunch start fun l => { l with spillcap := cap }).modDie 0 fun d => { d with
    pool := List.replicate n { launch := 0, num := 0, prog := 0, arg := 0, role := .epilogue, gang := none } }

theorem witness_ChildrenAndRoles :
    (answers (.spawn 6 7 .arith) (setx (pooled 959 0) [(6, 4)]) (fun t => (t.die 0).pool.length == 960) &&
     answers (.spawng 6 7 .arith 3) (pooled 960 0) (·.slot.stalled) &&
     answers (.spawn 6 7 .arith) (setx (setLaunch (pooled 960 4) fun l => { l with spill := 0x8000 }) [(6, 4)])
       (fun t => t.peek 0x8000 8 == 4 && tget 0 (t.launch 0).spillTail 0 == 1) &&
     answers (.spawn 6 7 .arith) (setx (setLaunch (pooled 960 4) fun l => { l with spill := 0xFFF0000000024000 }) [(6, 4)])
       (fun t => !t.slot.occ && (t.launch 0).faulted == 1) &&
     answers (.spawng 6 7 .arith 1) (setx (setLaunch (pooled 960 4) fun l => { l with spill := 0x50000000000 }) [(6, 4)])
       (fun t => !t.slot.occ && (t.launch 0).faulted == 1) &&
     answers (.spawn 6 7 .arith) (setx (setLaunch (pooled 960 4) fun l => { l with
       spill := 0x80000000000, leases := (demand.launch 0).leases }) [(6, 4)]) (fun t => t.slot.park.isSome) &&
     answers (.spawn 6 7 .arith) (setx start [(6, 6)]) (fun t => t.slot.tcause == 3 && t.slot.tval == 6) &&
     answers (.spawn 6 7 .arith) (atLevel start 2) (fun t => t.slot.tcause == 0x14) &&
     answers (.yield 0) start (fun t => t.slot.yield == 2)) = true := by decide +kernel

theorem witness_Launches :
    (answers (.launch 6) (setx start [(6, 0x20)]) (fun t => t.slot.tcause == 3) &&
     answers (.launch 6) (setx start [(6, 0xFFF0000000024000)]) (fun t => t.slot.tcause == 5) &&
     answers (.launch 6) (atLevel start 2) (fun t => t.slot.tcause == 0x14) &&
     answers (.launch 6) (setx start [(6, 0xFFF80)]) (fun t => t.nextLaunch == 2)) = true := by decide +kernel

theorem witness_TaskEnd :
    (answers .exit ((setLaunch start fun l => { l with ntcb := 2, tcbs := 0x3000 }).mapSlot fun l => { l with origin := .tcb 1 })
       (fun t => !t.slot.occ && t.tcbState 0 1 == 4) && start.slot.group.isNone && !((start.queueOf start.cur).stopped) &&
     answers .exit pendingX5 (fun t => t.slot.exiting && t.slot.occ) && answers .exit start (fun t => !t.slot.occ) &&
     ((start.launch 0).gangsOf start.slot.uid).isEmpty && start.overlay.isEmpty &&
     start.slot.frozen.isEmpty && (match start.slot.origin with | .direct _ => true | _ => false)) = true := by decide +kernel

/-- Queue core 0 awake, with values in registers, and queue 3 resident on it with packets at 0x8000. -/
def flam (l : List (XReg × W64)) : State :=
  { State.reset with
    fcur := some 0
    fcores := [(0, l.foldl (fun f p => f.wx p.1 p.2) FCore.reset)]
    mem := Memory.setAll [] (cellsLE 0x8000 1 3)
    queues := [(3, { Queue.blank with ring := 0x8000, log2n := 4, resident := true, tail := 2, dies := 1 })] }

theorem witness_FlambeolInstructions :
    (answers (.flambeolBfx 12 11 10) (flam [(11, 0xDEADBEEF), (12, 0xB08)]) (fun t => (t.fcore 0).rx 10 == 0xDBE) &&
     answers (.flambeolBfx 12 11 10) (flam [(12, 0x3F01)]) (fun t => (t.fcore 0).mcause == 28) &&
     answers (.rfetch 11 10) (flam [(11, 256)]) (fun t => (t.fcore 0).mcause == 24) &&
     answers (.rfetch 11 10) (flam [(11, 3)]) (fun t => (t.queue 3).head == 1 && (t.fcore 0).pc == 4) &&
     answers (.rfetch 11 10) ((flam [(11, 3)]).modQueue 3 fun q => { q with head := 2 }) (fun t => (t.fcore 0).rx 10 == 0) &&
     answers (.rfetch 11 10) { flam [(11, 3)] with mem := Memory.setAll [] (cellsLE 0x8000 1 8) } (fun t => (t.fcore 0).mcause == 25) &&
     answers (.rfetch 11 10) { flam [(11, 3)] with update := some { oldSlot := 0, newSlot := 1, since := 0 } }
       (fun t => (t.fcore 0).rx 10 == 0 && (t.queue 3).head == 0) &&
     answers (.swait 0 11 10) { flam [(11, 64)] with fwoken := [7] } (fun t => t.fcur == some 7) &&
     answers (.swait 0 11 10) (flam [(11, 0)]) (fun t => (t.fcore 0).mcause == 26) &&
     answers (.swait 0 11 10) (flam [(11, 64)]) (fun t => (t.fcore 0).asleep && t.fcur == none)) = true := by decide +kernel

theorem witness_FlambeolDispatch :
    (answers (.disp 12 11 10) (flam [(11, 32)]) (fun t => (t.fcore 0).mcause == 27) &&
     (let staged := { flam [(11, w64 (Config.stageBase + 192))] with
        fcores := [(0, { (flam [(11, w64 (Config.stageBase + 192))]).fcore 0 with lmem := tset [] (Config.stageBase + 192) 1 })] }
      answers (.disp 12 11 10) staged (fun t => (t.die 0).disp.length == 1 && (t.fcore 0).rx 10 == 0) &&
      answers (.disp 12 11 10) (staged.modDie 0 fun d => { d with disp := List.replicate Config.dispQueue (3, 0) })
        (fun t => (t.fcore 0).rx 10 == 1)) &&
     (let sleeping := { flam [] with fcur := none, refclk := 9, fcores := [(0, { FCore.reset with asleep := true, swLimit := some 9, swRd := 10 })] }
      answers (.swaitTimeout 0) sleeping (fun t => !(t.fcore 0).asleep) &&
      answers (.swaitTimeout 0) { sleeping with refclk := 8 } (fun t => (t.fcore 0).asleep))) = true := by decide +kernel

/-! ## Witnesses: the host -/

/-- Queue 0 resident with one packet at 0x8000, and the page table and lease of the placed task. -/
def packet (ws : List W64) : State :=
  { start with
    launches := [], cores := []
    mem := Memory.setAll start.mem ((List.range ws.length).flatMap fun k => cellsLE (0x8000 + 8 * k) 8 (ws.getD k 0).toNat)
    queues := [(0, { placeQueue with ring := 0x8000, log2n := 4, tail := 1, stataddr := 0x9000, evring := 0xA000, log2e := 4, semn := 64 })] }

theorem witness_HostPackets :
    (answers (.nopPacket 0) (packet [0]) (fun t => (t.queue 0).head == 1) &&
     answers (.nopPacket 0) (packet [0, 1]) (fun t => (t.queue 0).err == 1) &&
     answers (.signalPacket 0) (packet [8]) (fun t => (t.queue 0).err == 1) &&
     answers (.launchPacket 0) (packet [1, 0x1000]) (fun t => t.launches.length == 1 && (t.queue 0).head == 1) &&
     answers (.launchPacket 0) (packet [1, 0x1020]) (fun t => (t.queue 0).err == 3) &&
     answers (.waitPacket 0) (packet [2, semName 63, 1, 1]) (fun t => (t.queue 0).waiting && (t.die 1).inbox.length == 1) &&
     (packet [2]).mem.wf && (packet [2]).update.isNone && answers (.waitPacket 0) (packet [2, 2 ^ 52]) (fun t => (t.queue 0).err == 5) &&
     answers (.signalPacket 0) (packet [3, semName 63, 1]) (fun t => (t.queue 0).head == 1) &&
     answers (.signalPacket 0) (packet [3, 2 ^ 52]) (fun t => (t.queue 0).err == 5) &&
     answers (.copyPacket 0) (packet [4, 0x8000, 0x7000, 64]) (fun t => t.mem.get 0x7000 == 4 && (t.queue 0).head == 1)) = true := by
  decide +kernel

theorem witness_HostPackets_levels :
    (answers (.copyPacket 0) (packet [4, 0x50000000000, 0x7000, 64]) (fun t => (t.queue 0).err == 3) &&
     answers (.detlevel 0) (packet [5, 2]) (fun t => (t.queue 0).switching == some 2) &&
     answers (.detlevel 0) { packet [5, 2] with service := 1 } (fun t => (t.queue 0).err == 1) &&
     answers (.cadence 0) (packet [6, 0]) (fun t => !(t.queue 0).cadence && (t.queue 0).head == 1) &&
     answers (.cadence 0) (packet [6, 65535]) (fun t => (t.queue 0).err == 4) &&
     answers (.cadence 0) (packet [6, 65536, 0]) (fun t => (t.queue 0).cadence && (t.queue 0).tick == 65536) &&
     answers (.barrier 0) (packet [7]) (fun t => (t.queue 0).head == 1) &&
     answers (.barrier 0) (packet [7, semName 63, 1]) (fun t => (t.die 1).inbox.length == 1) &&
     answers (.barrier 0) { packet [7] with launches := [(0, { Launch.blank with stage := .queued })] }
       (fun t => (t.queue 0).head == 0)) = true := by decide +kernel

theorem witness_Doorbells :
    (answers (.doorbell 9 5) (packet [0]) (fun t => t == packet [0]) &&
     answers (.doorbell 0 16) (packet [0]) (fun t => (t.queue 0).tail == 16 && (t.queue 0).err == 0) &&
     answers (.doorbell 0 17) (packet [0]) (fun t => (t.queue 0).err == 2) &&
     answers (.doorbell 0 2) ((packet [0]).modQueue 0 fun q => { q with head := 1 }) (fun t => (t.fcore 0).pending == 1) &&
     answers (.doorbell 0 2) ((packet [0]).modQueue 0 fun q => { q with resident := false }) (fun t => t.pendingMap == [0]) &&
     answers .pendingMapScan { (packet [0]).modQueue 0 fun q => { q with resident := false } with pendingMap := [0] }
       (fun t => (t.queue 0).resident && t.pendingMap.isEmpty)) = true := by decide +kernel

/-- A mailbox command in progress. -/
def commanded (s : State) (op : Nat) (args : List W64) (begun : Bool) : State :=
  { s with mbox := { s.mbox with
    go := true, cmd := some { opcode := op, tag := 7, args := args, src := none, away := false, started := begun } } }

/-- The RESULT that a command answers. -/
def resultOf (i : Instr) (s : State) : Option (BitVec 16) :=
  match exec i s with
  | .next t => if t.mbox.cmd.isNone && t.mbox.rtag == 7 then some t.mbox.result else none
  | _ => none

theorem witness_DeviceCommands :
    (resultOf .pcap (commanded State.reset 11 [800] false) == some 0 && resultOf .pcap (commanded State.reset 11 [1950] false) == some 0 &&
     resultOf .pcap (commanded State.reset 11 [799] false) == some 2 && resultOf .pcap (commanded State.reset 11 [1951] false) == some 2 &&
     resultOf .setparam (commanded State.reset 12 [1, 65535] false) == some 0 &&
     resultOf .setparam (commanded State.reset 12 [2, 169] false) == some 2 &&
     resultOf .setparam (commanded State.reset 12 [3, 256] false) == some 0 &&
     resultOf .setparam (commanded (packet [0]) 12 [3, 256] false) == some 4 &&
     resultOf .setparam (commanded State.reset 12 [4, 1] false) == some 2 &&
     resultOf .snapshot (commanded { State.reset with snapctl := 0xD } 13 [] false) == some 0 &&
     resultOf .devread (commanded State.reset 14 [0xF000000001000] false) == some 0 &&
     resultOf .devread (commanded State.reset 14 [0xF000000001004] false) == some 2 &&
     answers .devread (commanded (State.reset.modCluster 191 fun c => { c with mon := 7 }) 14 [0xF0000002701B8] false)
       (fun t => tget 0 t.mbox.res 0 == 7) && State.reset.cmdWait.isEmpty &&
     answers .devread (commanded State.reset 14 [0xF000000100000] false) (fun t => tget 0 t.mbox.res 0 == 0xFA000000003) &&
     resultOf .devwrite (commanded State.reset 15 [0xF000000300008, 5] false) == some 0 &&
     resultOf .devwrite (commanded State.reset 15 [0xF000000000000, 5] false) == some 2 &&
     resultOf .clearmap (commanded State.reset 16 [7, 1, 786431] false) == some 0 &&
     resultOf .clearmap (commanded State.reset 16 [7, 1, 786432] false) == some 2 &&
     resultOf .group (commanded State.reset 17 [] false) == some 0) = true := by decide +kernel

/-- The configuration block of queue 5, good but for what a list of words replaces. -/
def block (ws : List (Nat × W64)) : Table W64 :=
  ws.foldl (fun t w => tset t (80 + w.1) w.2)
    [(80, 0x10000), (81, 4 + 2 ^ 18 + 32 * 2 ^ 32), (82, 0x20000), (83, 0x30000), (84, 4), (85, 0x40000), (86, 64 * 2 ^ 16),
     (87, 200 + 2000 * 2 ^ 16), (88, 0x200000), (89, 0x4000000), (90, 1), (91, 0)]

theorem witness_QueueCommands :
    (resultOf .create (commanded { State.reset with cfgblocks := block [] } 1 [5] false) == some 0 &&
     resultOf .create (commanded { State.reset with cfgblocks := block [(11, 1)] } 1 [5] false) == some 2 &&
     resultOf .create (commanded State.reset 1 [4096] false) == some 2 &&
     resultOf .create (commanded (packet [0]) 1 [0] false) == some 4 &&
     resultOf .destroy (commanded (packet [0]) 2 [0] false) == some 0 &&
     resultOf .destroy (commanded start 2 [0] false) == some 4 && resultOf .destroy (commanded start 2 [9] false) == some 2 &&
     answers .preempt (commanded start 4 [0] false) (fun t => (t.queue 0).stopped && t.mbox.cmd.isSome) &&
     resultOf .preempt (commanded ((packet [0]).modQueue 0 fun q => { q with stopped := true }) 4 [0] true) == some 0 &&
     resultOf .resume (commanded (packet [0]) 5 [0] false) == some 0 &&
     answers .resume (commanded ((packet [0]).modQueue 0 fun q => { q with stopped := true }) 5 [0] false)
       (fun t => !(t.queue 0).stopped) &&
     answers .qreset (commanded (packet [0]) 3 [0] false) (fun t => (t.queue 0).gen == 1 && (t.queue 0).resetting) &&
     answers (.homeFence 0 32) ((packet [0]).modQueue 0 fun q => { q with resetting := true }) (fun t => (t.queue 0).fences == [32]) &&
     resultOf (.queueResetComplete 0)
       (commanded ((packet [0]).modQueue 0 fun q => { q with resetting := true, fences := List.range 33 }) 3 [0] true) == some 0 &&
     resultOf (.queueResetComplete 0) { commanded ((packet [0]).modQueue 0 fun q =>
       { q with resetting := true, fences := List.range 33 }) 3 [0] true with system := [9] } == none &&
     resultOf (.queueResetComplete 0) { commanded ((packet [0]).modQueue 0 fun q =>
       { q with resetting := true, fences := 42 :: List.range 33 }) 3 [0] true with system := [9] } == some 0 &&
     (packet [0]).launches.isEmpty && (packet [0]).update.isNone &&
     answers .qreset { commanded ((packet [0]).modDie 1 fun d => { d with sems := [(3, 5)], inbox := [
         { index := 3, kind := .sig 1, core := 0, slot := 0, uid := 1, queue := 0, gen := 0, dev := 0, due := 90 }] }) 3 [0] false with
       system := [9] } (fun t => (t.die 1).inbox.isEmpty && tget 0 (t.die 1).sems 3 == 6 && t.outbox.length == 1)) = true := by
  decide +kernel

/-- An EXIT of the member of a gang. -/
theorem witness_TaskEnd_gangs :
    (let s := setLaunch start fun l => { l with gangs := [(2, { Gang.reset with members := [1, 4] })] }
     (s.launch 0).gangsOf s.slot.uid == [2] &&
     answers .exit s (fun t => !t.slot.occ && (t.launch 0).exited == 1 && (t.die (s.launch 0).home).gangs.length == 1)) = true := by
  decide +kernel

/-- Names outside the grant, and of a device that is not in the system. -/
theorem witness_HostPackets_names :
    (answers (.waitPacket 0) (packet [2, semName 64, 1, 1]) (fun t => (t.queue 0).err == 5) &&
     answers (.signalPacket 0) (packet [3, semName 64, 1]) (fun t => (t.queue 0).err == 5) &&
     answers (.signalPacket 0) (packet [3, semName 63 + 9 * 2 ^ 32, 1]) (fun t => (t.queue 0).err == 5) &&
     answers (.barrier 0) (packet [7, semName 64, 1]) (fun t => (t.queue 0).err == 5)) = true := by decide +kernel

/-- What the model keeps of core 0 of queue 0 after a save, with landings still to come. -/
def savedCore (remap : List (List (Nat × Byte) × QRec × Wm)) : Saved :=
  { queue := 0, core := 0, slots := [(0, placeSlot)], vregs := 48, bounds := [9, 40, 56], vq := EngQ.reset, cq := EngQ.reset
    mq := EngQ.reset, planes := [], rings := [], upper := false, nest := false, nestMark := 0, nestAnchor := 0, fresh := false
    reason := 0, held := [], rota := [], turn := 0, owners := [], badTags := [], remap := remap }

/-- A copy of the task with watermark register 0, of which a byte of the pool lands after the save. -/
def lateRec : QRec := copyRec (.cp .x8) [0x100, 0xFFF0000000009C40, 64, 0, 0, 0, 2 ^ 17, 0] .running

theorem witness_QueueCommands_launches :
    (let ended (t : State) : Bool := (match (t.launch 0).stage with | .over => true | _ => false) && (t.launch 0).state == 5 &&
       (t.launch 0).err == 9 && (t.queue 0).gen == 1 && (t.queue 0).resetting
     answers .qreset (commanded { packet [0] with launches := [(0, { start.launch 0 with stage := .queued })] } 3 [0] false) ended &&
     answers .qreset (commanded { start with system := [9] } 3 [0] false)
       (fun t => ended t && !(t.slotAt ⟨0, 0⟩).occ && t.outbox.length == 1) &&
     (match start.cores with | [(g, x)] => g == 0 && x.context == some 0 && (x.slot 0).occ && (x.slot 0).launch == 0 &&
        (x.slot 0).pfx.isEmpty && (x.slot 0).wait == .run && !((x.slot 1).occ) && !((x.slot 2).occ) && !((x.slot 3).occ) | _ => false) &&
     start.saved.isEmpty && start.update.isNone && start.launches.length == 1 && ((start.die 1).inbox.isEmpty && (start.die 1).waiters.isEmpty) &&
     (let p := (packet [0]).modQueue 0 fun q => { q with stopped := true }
      answers .preempt (commanded { p with saved := [savedCore [([(2 ^ 52 + 40000, 7)], lateRec, start.here.wms[0])]] } 4 [0] true)
        (fun t => t.mbox.cmd.isSome) &&
      resultOf .preempt (commanded { p with saved := [savedCore []] } 4 [0] true) == some 0)) = true := by decide +kernel

/-! ## Witnesses: firmware, schedulers, pre-emption -/

/-- Whether the images verify is a free value: what can be witnessed is everything else. -/
theorem witness_ImagesAndUpdates :
    (resultOf .slotwrite (commanded State.reset 8 [2, 0, 0] false) == some 2 &&
     resultOf .slotwrite (commanded State.reset 8 [0, 0, 4] false) == some 4 &&
     resultOf .slotwrite (commanded State.reset 8 [1, 0, 4] false) == some 0 &&
     answers .slotwrite (commanded State.reset 8 [1, 0, 4] false) (fun t => t.imageB.bytes == [0, 0, 0, 0]) &&
     resultOf .slotverify (commanded State.reset 9 [2] false) == some 2 &&
     resultOf .setslot (commanded State.reset 10 [2] false) == some 2 && resultOf .setslot (commanded State.reset 10 [1] false) == some 4 &&
     resultOf .setslot (commanded { State.reset with imageB := { State.reset.imageB with verified := true } } 10 [1] false) == some 0 &&
     State.reset.cmdWait.isEmpty && resultOf .update (commanded State.reset 7 [2 ^ 50, 1] false) == some 2 &&
     (let switched := { commanded State.reset 7 [0, 4] true with update := some { oldSlot := 0, newSlot := 1, since := 0 }, running := 1 }
      answers (.hbeat 1) switched (fun t => t.update.isNone && t.activeSlot == 1 && t.mbox.result == 0) &&
      answers (.hbeat 2) switched (fun t => t.update.isNone && t.running == 0 && t.mbox.result == 5) &&
      answers (.hbeat 1) { switched with refclk := 40000001 } (fun t => t.update.isSome && t.hbeat == 1) &&
      answers .heartbeatTimeout { switched with refclk := 40000000 } (fun t => t.running == 0) &&
      answers .heartbeatTimeout { switched with refclk := 39999999 } (fun t => t.update.isSome)) &&
     State.reset.service == 0 && State.reset.measurements.isEmpty && State.reset.update.isNone &&
     answers .boot { State.reset with service := 1 } (· == { State.reset with service := 1 })) = true := by decide +kernel

/-- A device that has booted, with a bridge. -/
def booted : State := { State.reset with service := 1, bridge := true, measurements := [0, 0, 0, 0] }

/-- The mailbox before GO. -/
def asked (s : State) (op : BitVec 16) : State := { s with mbox := { s.mbox with opcode := op, member := 0, reserved := 0, tag := 7 } }

theorem witness_RegistersAndEnumeration :
    (answers (.deviceRegisterWrite .bar0 0x1000081 1) booted (· == booted) &&
     answers (.deviceRegisterWrite .bar0 0x27FFF8 5) booted (fun t => tget 0 t.cfgblocks 65535 == 5) &&
     answers (.deviceRegisterWrite .bar0 0x1000070 5) booted (fun t => tget 0 t.mbox.args 13 == 5) &&
     answers (.deviceRegisterWrite .bar0 0x1000000 0x70000000B) booted (fun t => t.mbox.opcode == 11 && t.mbox.tag == 7) &&
     answers (.deviceRegisterWrite .bar0 0x1000080 1) (asked booted 11) (fun t => t.mbox.cmd.isSome && t.mbox.go) &&
     answers (.deviceRegisterWrite .bar0 0x1000080 1) (asked booted 16) (fun t => t.mbox.cmd.isSome) &&
     answers (.deviceRegisterWrite .bar0 0x1000080 1) (asked { booted with queueMade := true } 16) (fun t => t.mbox.result == 3) &&
     answers (.deviceRegisterWrite .bar0 0x1000080 1) (asked { booted with service := 3 } 8) (fun t => t.mbox.cmd.isSome) &&
     answers (.deviceRegisterWrite .bar0 0x1000080 1) (asked { booted with service := 3 } 11) (fun t => t.mbox.result == 3) &&
     answers (.deviceRegisterWrite .bar0 0x1000080 1) ({ asked booted 11 with members := [9] } |> fun s =>
       { s with mbox := { s.mbox with member := 1 } }) (fun t => t.outbox.length == 1 && t.mbox.go) &&
     answers (.deviceRegisterWrite .bar0 0x1000080 1) (asked booted 11 |> fun s => { s with mbox := { s.mbox with member := 1 } })
       (fun t => t.mbox.result == 7) && booted.bar0Read 0x1000100 == some 0 &&
     { booted with bridge := false }.bar0Read 0x1000100 == some 0 && booted.bar0Read 0x38 == some 0 &&
     answers (.deviceRegisterWrite .bar0 0x1000080 1) (asked booted 18) (fun t => t.mbox.result == 1) &&
     answers (.deviceRegisterWrite .device 0xF000000300008 5) booted (fun t => t.snapstep == 5) &&
     answers (.systemEnumeration [⟨9, 1, 4, [], false⟩, ⟨8, 1, 3, [], false⟩] [] 512) booted
       (fun t => t.members == [8, 9] && t.aligned && t.steplen == 512) &&
     answers (.systemEnumeration [] [] 512) { booted with bridge := false, identity := 5 } (fun t => t.devid == 5) &&
     answers (.systemEnumeration [⟨9, 1, 4, [], false⟩] [] 512) { booted with system := [9] } (fun t => t.refusedIds == 1) &&
     answers (.systemEnumeration [⟨9, 1, 4, [], true⟩] [] 512) { booted with system := [9] } (fun t => t.refusedIds == 0 && t.members.isEmpty) &&
     answers (.systemEnumeration [] [5] 512) { booted with bridge := false, identity := 5 } (fun t => t.devid == 0) &&
     answers .reducedServiceEnd booted (fun t => t.service == 2) &&
     answers .reducedServiceEnd { booted with launches := [(0, { Launch.blank with stage := .admitted })] } (fun t => t.service == 1)) = true := by
  decide +kernel

/-- One launch of queue 0, and nothing in a slot. -/
def one (f : Launch → Launch) : State :=
  { packet [0] with
    service := 2
    launches := [(0, f { start.launch 0 with desc := 0x1000, entries := [0], nextTask := 0, lastTask := 2, nextNum := 0 })] }

/-- Queue 0 with a level to take. -/
def switchTo (lv : BitVec 2) : State :=
  { packet [0] with queues := [(0, { (packet [0]).queue 0 with switching := some lv, dies := 1 })] }

/-- A paced queue at its tick. -/
def paced (l : List (Nat × Launch)) : State :=
  { packet [0] with launches := l, gstep := 3
                    queues := [(0, { (packet [0]).queue 0 with cadence := true, tick := 3 * 65536, period := 65536 })] }

theorem witness_Placement :
    ((let s := one (fun l => { l with stage := .admitted, nextTask := 0, lastTask := 2, phases := [(0, 2), (2, 1)] })
      (s.findSlot 0 (s.launch 0)).isSome && (s.launch 0).det == 0 && !((s.launch 0).cgran) && (s.die 0).ready.isEmpty &&
      !((s.queue 0).stopped) && !((s.queue 0).resetting) &&
      answers (.launchAdmission 0) s (fun t => (t.launch 0).nextTask == 1)) &&
     (let s := one (fun l => { l with stage := .queued })
      lowestDie (s.queue 0).dies == 0 && (s.descWords (s.queue 0).troot 0x1000).isSome &&
      answers (.launchAdmission 0) s (fun t => (t.launch 0).stage != .queued))) = true := by decide +kernel

theorem witness_PhasesAndEnds :
    ((let s := one (fun l => { l with stage := .admitted, nextTask := 2, lastTask := 2, phases := [(0, 2), (2, 1)] })
      s.launchQuiet 0 && answers (.phaseAdmission 0) s (fun t => (t.launch 0).phase == 1) &&
      answers (.launchEnd 0) s (fun t => (t.launch 0).stage == .admitted)) &&
     (let s := one (fun l => { l with stage := .admitted, nextTask := 2, lastTask := 2, phases := [(0, 2)], faulted := 1 })
      answers (.launchEnd 0) s (fun t => (t.launch 0).stage == .over && (t.launch 0).state == 3) &&
      answers (.phaseAdmission 0) s (· == s)) &&
     (let s := one (fun l => { l with stage := .admitted, spill := 0x8000, spillcap := 4, spillTail := [(0, 1)] })
      (s.fwRead (s.queue 0).troot 0x8000 64).isSome && answers (.spillRefill 0) s (fun t => (t.die 0).pool.length == 1) &&
      answers (.spillRefill 1) s (· == s))) = true := by decide +kernel

theorem witness_Levels :
    (answers (.levelSwitch 0) (switchTo 2) (fun t => (t.queue 0).level == 2 && (t.die 0).d2 == some 0) &&
     answers (.levelSwitch 0) (switchTo 1) (fun t => (t.queue 0).level == 1) &&
     answers (.levelSwitch 0) { switchTo 1 with launches := [(0, { Launch.blank with stage := .queued })] } (fun t => (t.queue 0).level == 0) &&
     answers (.levelSwitch 0) (packet [0]) (· == packet [0]) &&
     answers (.cadenceTick 0) (paced []) (fun t => (t.queue 0).tick == 4 * 65536 && (t.queue 0).evseq == 1) &&
     answers (.cadenceTick 0) (paced [(0, { Launch.blank with stage := .ticking })]) (fun t => (t.launch 0).stage == .queued) &&
     answers (.cadenceTick 0) { paced [] with gstep := 2 } (· == { paced [] with gstep := 2 })) = true := by decide +kernel

/-- The task parked on an access to an address. -/
def parkedAt (a : W64) : State :=
  start.mapSlot fun l => { l with
    park := some { addr := a, entry := 0x50000, monitored := true, since := 0, expired := false, order := 0 }, parklim := 1 }

/-- A shootdown at core 0 with tasks that lag. -/
def shooting (uids : List Nat) : State :=
  start.setCore 0 { start.core 0 with shoots := [{ base := 0x8000, pages := 1, since := 0, lagging := uids, stopped := [] }] }

theorem witness_Parks :
    ((match start.walk (start.queueOf ⟨0, 0⟩).troot 0x8000 with | .ok _ _ _ _ => true | _ => false) &&
     answers (.parkWake 0 (.slot 0)) { parkedAt 0x8000 with armed := [(0x50000, true)] } (fun t => t.slot.park.isNone) &&
     answers (.parkWake 0 (.slot 0)) { parkedAt 0x8000 with armed := [(0x50000, false)] } (fun t => t.slot.park.isSome) &&
     answers (.parkWake 0 (.slot 0)) { parkedAt 0x50000000000 with armed := [(0x50000, true)] }
       (fun t => t.slot.park.any fun p => p.entry == 0x10008) &&
     answers (.parkTimeout 0 (.slot 0)) { parkedAt 0x8000 with refclk := 1023 } (fun t => t.slot.park.isSome) &&
     answers (.parkTimeout 0 (.slot 0)) { parkedAt 0x8000 with refclk := 1024 } (fun t => t.slot.tcause == 0x11 && t.slot.tval == 0x8000) &&
     answers (.parkTimeout 0 (.slot 0)) start (· == start)) = true := by decide +kernel

theorem witness_Shootdowns :
    ((start.core 0).context == some 0 && start.cores.length == 1 && !(start.rangePinned (start.queue 0).troot 0x50000000000 1) &&
     answers (.shootdown 0 0x50000000000 1) start (fun t => (t.core 0).shoots.length == 1) &&
     answers (.shootdown 0 0x100000 1) start (fun t => t.shootReqs == [(0, 0x100000, 1)] && t.cores == start.cores) &&
     answers (.shootdown 0 0x100000 1) { start with shootReqs := [(0, 0x100000, 1)] } (fun t => t.shootReqs.length == 1) &&
     answers (.shootdownAck 0) (shooting []) (fun t => (t.core 0).shoots.isEmpty) &&
     answers (.shootdownAck 0) (shooting [start.slot.uid]) (· == shooting [start.slot.uid]) && start.slot.atBoundary &&
     answers (.shootWaitExpiry 0) { shooting [start.slot.uid] with refclk := 800 * start.shootWait - 1 }
       (fun t => (t.core 0).shoots.all fun x => x.lagging == [start.slot.uid]) &&
     answers (.shootWaitExpiry 0) { shooting [start.slot.uid] with refclk := 800 * start.shootWait }
       (fun t => (t.core 0).shoots.all fun x => x.lagging.isEmpty && x.stopped == [start.slot.uid]) &&
     answers (.shootWaitExpiry 0) { (shooting [start.slot.uid]).mapSlot (fun l => { l with wait := .sem 5 false }) with
       refclk := 800 * start.shootWait } (fun t => (t.core 0).shoots.all fun x => x.stopped.isEmpty)) = true := by decide +kernel

/-- Queue 0 pre-empted at cycle 0. -/
def stopped (saving : Bool) (clock : Nat) : State :=
  { (start.modQueue 0 fun q => { q with stopped := true, t1 := 1, t2 := 2 }) with
    refclk := clock, cores := [(0, { start.core 0 with saving := saving })] }

theorem witness_Preemption :
    (start.coresOf 0 == [0] && (start.queueOf ⟨0, 0⟩).savebase == 0 && ((stopped true 0).slot.pfx.isEmpty && (stopped true 0).slot.wait == .run) &&
     answers (.drainTimeout 0) (stopped false 799) (fun t => !(t.core 0).saving) &&
     answers (.drainTimeout 0) (stopped false 800) (fun t => (t.core 0).saving) &&
     answers (.saveComplete 0) (stopped false 800) (fun t => t.saved.isEmpty) &&
     answers (.saveComplete 0) (stopped true 800) (fun t => t.saved.length == 1 && !t.slot.occ) &&
     ((stopped true 800).mem.wf && (stopped true 800).overlay.isEmpty && (stopped true 800).slot.pend.isEmpty &&
       decide (32768 + 4 * (48 * 512 + 1024) ≤ placeCore.b0.toNat * 16384) && placeCore.tags.isEmpty &&
       placeCore.mq.recs.isEmpty && (stopped true 800).slot.away.isNone && !((stopped true 800).slot.dying)) &&
     answers (.saveTimeout 0) (stopped true 1599) (fun t => t.saved.isEmpty) &&
     answers (.saveTimeout 0) (stopped true 1600) (fun t => t.saved.length == 1 && !t.slot.occ)) = true := by decide +kernel

/-! ## Witnesses: Nimbus, resets, clocks, reliability -/

/-- Die 0 with a test alarm for an engine of core 0, or with Drizzle on. -/
def nimbus (test ctl cyc : W64) : State := start.modDie 0 fun d => { d with nbtest := test, nbctl := ctl, nbtcyc := cyc }

theorem witness_Alarms :
    (answers (.parityAlarm 0 .vec) start (fun t => (t.die 0).nbcnt == 1) &&
     answers (.protocolAlarm 0 .mx) start (fun t => (t.die 0).nbevt == 0x500) &&
     answers (.watchdog 0 .copy) start (· == start) &&
     answers (.testAlarm 0) (nimbus 0 0 0) (fun t => (t.die 0).nbcnt == 0) &&
     answers (.testAlarm 0) (nimbus (1 + 96 * 32) 0 0) (fun t => (t.die 0).nbtest == 96 * 32 && (t.die 0).nbcnt == 0) &&
     answers (.testAlarm 0) (nimbus (1 + 1 * 8) 0 0) (fun t => (t.die 0).nbcnt == 1) &&
     answers (.testAlarm 0) (nimbus (1 + 1 * 8) 0 5) (fun t => (t.die 0).nbcnt == 0) &&
     answers (.drizzleReset 0) (nimbus 0 0 0) (fun t => (t.die 0).drz == 0) &&
     answers (.drizzleReset 0) (nimbus 0 1 0) (fun t => (t.die 0).drz == 1 && (t.die 0).nbcnt == 1) &&
     (let s := (nimbus 0 0 0).modDie 0 fun d => { d with d2 := some 0 }
      answers (.drizzleWindow 0) { s with gstep := 4095 } (fun t => (t.die 0).drzWindow) && { s with gstep := 4095 }.inWindow &&
      answers (.drizzleWindow 0) { s with gstep := 1 } (fun t => !(t.die 0).drzWindow)) &&
     answers (.watchdog 0 .vec) (start.setCore 0 { start.core 0 with vrun := none, vq := EngQ.reset }) (fun t => (t.die 0).nbcnt == 0)) = true := by
  decide +kernel

theorem witness_Resets :
    (answers (.coreReset 0) start (fun t => t.slot.occ && (t.core 0).tlb.isEmpty) && !start.slot.ckpt &&
     (let s := setLaunch start fun l => { l with phases := [(0, 1)], nextTask := 1, lastTask := 1 }
      (s.launch 0).gangs.isEmpty && !((s.launch 0).cgran) && ((s.slotRefs).filter fun r => (s.slotAt r).occ) == [⟨0, 0⟩] && s.slot.launch == 0) &&
     answers .packageReset start (fun t => t.queues.isEmpty && t.cores.isEmpty)) = true := by decide +kernel

theorem witness_ClocksAndSnapshots :
    (answers (.replay 0) start (fun t => (t.cluster 0).stop == t.refclk + 2 && (t.cluster 0).lost == 44) &&
     answers (.replay 0) (start.modCluster 0 fun c => { c with hold := true }) (fun t => (t.cluster 0).lost == 0) &&
     answers (.droopStretch 0) start (fun t => (t.cluster 0).stretched.length == 1) &&
     answers (.scycHold 0) start (· == start) &&
     (let s := start.modDie 0 fun d => { d with d2 := some 0 }
      answers (.scycHold 0) { s with refclk := s.steplen } (fun t => (t.cluster 0).hold) &&
      answers (.scycHold 0) s (fun t => !(t.cluster 0).hold)) &&
     (let s := { start with launches := [], aligned := true }
      answers .stepBoundary { s with refclk := s.steplen } (fun t => t.gstep == s.gstep + 1 && t.stepBase == s.steplen) &&
      answers .stepBoundary s (fun t => t.stepBase == 0)) &&
     answers .snapshotLatch { start with snapctl := 5, stepBase := start.refclk } (fun t => t.snap.cores.length == 1 && t.snapctl == 6) &&
     answers .snapshotLatch { start with snapctl := 5, stepBase := start.refclk, snapstep := 9 } (fun t => t.snap.cores.isEmpty) &&
     answers .snapshotLatch start (fun t => t.snap.cores.isEmpty)) = true := by decide +kernel

/-- A link. -/
def linked (f : Link → Link) : State := { State.reset with links := tset [] 3 (f (State.reset.link 3)) }

theorem witness_Links :
    (answers (.laneError 3 0) State.reset (fun t => (t.link 3).errors == 1 && t.faults.length == 1) &&
     answers (.laneError 3 8) State.reset (fun t => (t.link 3).errors == 0) &&
     answers (.laneError 3 0) { State.reset with faults := [(.lane 3 0, [0, 0])] } (fun t => (t.link 3).excluded == [0]) &&
     answers (.laneError 3 0) { linked (fun l => { l with excluded := [8] }) with faults := [(.lane 3 0, [0, 0])] }
       (fun t => (t.link 3).excluded == [0, 8] && (t.link 3).out) &&
     answers (.laneRotation 3) { State.reset with refclk := 2 ^ 20 } (fun t => (t.link 3).shadow == 0) &&
     answers (.laneRotation 3) State.reset (fun t => (t.link 3).shadow == 8) &&
     answers (.laneError 16 0) { State.reset with
       system := [9], links := tset [] 16 { State.reset.link 16 with excluded := [8] }, faults := [(.lane 16 0, [0, 0])] }
       (fun t => (t.link 16).half && (t.link 16).cost == 2 * (State.reset.link 16).cost && t.outbox.length == 1) &&
     answers (.laneError 36 0) { State.reset with
       links := tset [] 36 { State.reset.link 36 with excluded := [8] }, faults := [(.lane 36 0, [0, 0])] }
       (fun t => (t.link 36).retry && (t.die 0).noD2) &&
     (let l := { State.reset.link 36 with excluded := [0, 8], retry := true }
      l.retry && l.excluded.dropLast.contains 0 && !l.out && l.shadow == 8) &&
     answers (.laneRotation 3) { linked (fun l => { l with out := true }) with refclk := 2 ^ 20 } (fun t => (t.link 3).shadow == 8) &&
     answers (.linkRetrain 3) (linked fun l => { l with half := true, cost := 4, out := true }) (fun t => (t.link 3).cost == 2 && (t.link 3).rot == 0) &&
     answers (.linkRetrain 36) State.reset (· == State.reset) &&
     answers (.routeCostFlit 3 7) State.reset (fun t => (t.link 3).cost == 7)) = true := by decide +kernel

theorem witness_MemoryErrors :
    (answers (.l2EccError 0 5 15 true 9) State.reset (fun t => t.faults.length == 1) &&
     answers (.l2EccError 0 5 15 true 9) { State.reset with faults := [(.way 0 5 15, [0, 0])] } (fun t => t.flashWays == [(0, 5, 15)]) &&
     answers (.l2EccError 0 5 15 false 9) State.reset (fun t => t.poison.length == 2) &&
     answers (.poolEccError 0 8191 true) State.reset (fun t => t.faults.length == 1) &&
     answers (.poolEccError 0 8191 true) { State.reset with faults := [(.line 0 8191, [0, 0])] } (fun t => t.flashLines == [(0, 8191)]) &&
     answers (.poolEccError 0 8191 false) State.reset (fun t => t.poison.length == 2) &&
     answers (.poolEccError 0 8192 false) State.reset (fun t => (tget TagEntry.reset (t.core 0).tags 0).bad)) = true := by decide +kernel

/-- Cluster 0 in a state of its test. -/
def tested (f : Cluster → Cluster) : State := State.reset.modCluster 0 f

theorem witness_FieldTests :
    (answers (.inFieldTest 0) State.reset (fun t => (t.cluster 0).test == .emptying) &&
     answers (.inFieldTest 0) { tested fun c => { c with test := .emptying } with refclk := 9 }
       (fun t => (t.cluster 0).test == .running && (t.cluster 0).emptyAt == 9) &&
     answers (.inFieldTest 0) (tested fun c => { c with retired := true }) (fun t => (t.cluster 0).test == .none) &&
     answers (.clusterTestResult 0 true) (tested fun c => { c with test := .running }) (fun t => (t.cluster 0).test == .none) &&
     answers (.clusterTestResult 0 false) (tested fun c => { c with test := .running }) (fun t => t.flashClusters == [0]) &&
     answers (.clusterTestResult 0 true) State.reset (· == State.reset) &&
     start.clusterQueues 0 == [0] &&
     answers (.clusterEmptyTimeout 0) { start.modCluster 0 (fun c => { c with test := .emptying }) with refclk := 800000000 }
       (fun t => (t.queue 0).stopped) &&
     answers (.clusterEmptyTimeout 0) { start.modCluster 0 (fun c => { c with test := .emptying }) with refclk := 799999999 }
       (fun t => !((t.queue 0).stopped)) &&
     answers (.inFieldTest 0) (start.modDie 0 fun d => { d with d2 := some 0 }) (fun t => (t.cluster 0).testDue)) = true := by
  decide +kernel

theorem witness_Monitors :
    (answers (.monSample 0 1 2 (16 * 117 + 15) 2000) { State.reset with refclk := 65536 } (fun t => (t.cluster 0).thermal == 7 && (t.cluster 0).power == 1) &&
     answers (.monSample 0 1 2 (16 * 117) 100) State.reset (fun t => (t.cluster 0).thermal == 0) &&
     answers (.monSample 0 1 2 (16 * 88) 100) { State.reset with refclk := 65536 } (fun t => (t.cluster 0).thermal == 0 && (t.cluster 0).power == 0) &&
     answers (.monSample 0 1 2 (16 * 117) 100) { State.reset with refclk := 65537 } (fun t => (t.cluster 0).mon == 0) &&
     answers (.monSample 0 1 2 (16 * 93) 100) { State.reset.modCluster 0 (fun c => { c with thermal := 3 }) with refclk := 65536 }
       (fun t => (t.cluster 0).thermal == 3 && t.throttle 0 == 3) &&
     answers (.monSample 0 1 2 (16 * 110) 100) { State.reset with refclk := 65536 }
       (fun t => t.throttle 23 == 7 && t.throttle 24 == 0 && t.coreHeld 92) &&
     answers (.monSample 0 1 2 (16 * 110) 100) { start.modDie 0 (fun d => { d with d2 := some 0 }) with refclk := 65536 } (fun t => (t.queue 0).hot) &&
     answers (.monSample 0 1 2 (16 * 118) 100) { start with refclk := 65536 } (fun t => t.cores.isEmpty)) = true := by decide +kernel

theorem witness_Flits :
    (answers (.flit { dest := 1, body := .mailboxAnswer 7 0 [] }) State.reset (fun t => t.outbox.length == 1) &&
     answers (.flit { dest := 0, body := .semUpdate (3 + 2 ^ 29) 1 0 0 0 1 0 0 9 0 0 }) State.reset (fun t => (t.die 1).inbox.length == 1) &&
     answers (.flit { dest := 0, body := .semAnswer 0 0 start.slot.uid 5 }) (start.mapSlot fun l => { l with wait := .sem 7 false })
       (fun t => t.slot.wait == .semDone 7 5 false 0) && start.slot.uid != 0 &&
     answers (.flit { dest := 0, body := .mailboxCommand 3 7 11 [900] [] }) { State.reset with service := 2 } (fun t => t.mbox.cmd.isSome) &&
     answers (.flit { dest := 0, body := .mailboxAnswer 7 4 [] })
       { State.reset with mbox := { State.reset.mbox with cmd := some { opcode := 11, tag := 7, args := [], src := none, away := true, started := true } } }
       (fun t => t.mbox.result == 4 && t.mbox.cmd.isNone)) = true := by decide +kernel


/-- R16: the fixed route takes as many links as the hop count says; from die 0 to die 6 it takes the row edge first and then,
both ways being as long, goes towards increasing columns; die 5's edge to an I/O die leads to that of its row. -/
theorem test_die_routes : ((List.range 8).all fun a => (List.range 8).all fun b => (dieRoute a b).length == hops a b) = true ∧
    dieRoute 0 6 = [4, 5, 6] ∧ dieRoute 3 0 = [0] ∧ ioDieOf 5 = 1 := by decide

/-- An update that waits for a packet boundary of queue 0. -/
def handing (staged : Bool) : State :=
  { commanded ((packet [0]).modQueue 0 fun q => { q with staged := staged }) 7 [0, 4] true with
    update := some { oldSlot := 0, newSlot := 1, since := 0, handed := false } }

theorem witness_UpdatesAtPacketBoundaries :
    (answers .update (handing true) (fun t => t.running == 0 && t.update.any fun u => !u.handed) &&
     answers .update { handing false with refclk := 9 } (fun t => t.running == 1 && t.fcur == some 0 &&
       t.update.any fun u => u.handed && u.since == 9) &&
     answers (.hbeat 1) (handing true) (fun t => t.hbeat == 1 && t.update.isSome) &&
     answers .heartbeatTimeout { handing true with refclk := 40000000 } (fun t => t.update.isSome && t.running == 0) &&
     (handing true).queues.any (fun e => e.2.staged) && (handing false).queues.all (fun e => !e.2.staged)) = true := by decide +kernel

/-- Two admitted launches of queue 0 on die 0, the first with its next task in a phase up to a number. -/
def twoLaunches (last : Nat) : State :=
  let l : Launch := { start.launch 0 with desc := 0x1000, entries := [0], count := 3, nextTask := 1, lastTask := last, nextNum := 1, order := 0 }
  { packet [0] with service := 2, launches := [(0, l), (1, { l with order := 1, lastTask := 3 })] }

theorem witness_TwoLaunches :
    (answers (.launchAdmission 0) (twoLaunches 1) (· == twoLaunches 1) &&
     answers (.launchAdmission 0) (twoLaunches 2) (fun t => (t.launch 0).nextTask == 2 && (t.launch 1).nextTask == 1) &&
     (twoLaunches 2).findSlot 0 ((twoLaunches 2).launch 0) == some ⟨0, 0⟩ && ((twoLaunches 2).die 0).disp.isEmpty &&
     ((twoLaunches 2).die 0).ready.isEmpty && ((twoLaunches 2).die 0).pool.isEmpty &&
     (let full := (twoLaunches 2).modQueue 0 fun q => { q with stopped := true }
      (full.queue 0).stopped)) = true := by decide +kernel

theorem witness_LevelSwitchAndTests :
    (let s (t : TestState) : State := (switchTo 2).modCluster 23 fun c => { c with test := t }
     answers (.levelSwitch 0) (s .running) (fun t => (t.queue 0).level == 0) &&
     answers (.levelSwitch 0) (s .emptying) (fun t => (t.queue 0).level == 2 && (t.cluster 23).test == .none && (t.cluster 23).testDue)) = true := by
  decide +kernel

/-- The matrix entry in flight is parked on an access to an address. -/
def engineParked (a : W64) : State :=
  (pendingX5.modCore 0 fun c => { c with mq := { c.mq with recs := c.mq.recs.map fun q => { q with
      park := some { addr := a, entry := 0x50000, monitored := true, since := 0, expired := false, order := 0 } } } }).mapSlot
    fun l => { l with parklim := 1 }

theorem witness_EngineParks :
    (let parks (t : State) (f : Option Park → Bool) : Bool := t.here.mq.recs.length == 1 && t.here.mq.recs.all fun q => f q.park
     answers (.parkWake 0 (.engine .mx)) (engineParked 0x8000) (fun t => parks t (·.isSome)) &&
     answers (.parkWake 0 (.engine .mx)) { engineParked 0x8000 with armed := [(0x50000, true)] } (fun t => parks t (·.isNone)) &&
     answers (.parkWake 0 (.engine .mx)) { engineParked 0x50000000000 with armed := [(0x50000, true)] }
       (fun t => parks t fun p => p.any fun p => p.entry == 0x10008 && p.addr == 0x50000000000) &&
     answers (.parkTimeout 0 (.engine .mx)) { engineParked 0x8000 with refclk := 1023 } (fun t => t.slot.engTraps.isEmpty) &&
     answers (.parkTimeout 0 (.engine .mx)) { engineParked 0x8000 with refclk := 1024 } (fun t => parks t (fun p => p.any (·.expired)) &&
       t.slot.engTraps.all (fun x => x.cause == .parkTimeout && x.tval == 0x8000 && x.orig == 3) && t.slot.engTraps.length == 1)) = true := by
  decide +kernel

/-- A shootdown of page 0 with a byte of the core's pool cache on its way, and an entry that maps page 0 to a physical page. -/
def shotDirty (ppn : Nat) : State :=
  let s := shooting []
  { s.modCore 0 fun c => { c with tlb := [{ vpn := 0, pages := 1, pte := BitVec.ofNat 64 (ppn * 65536 + 0x7F), pteAt := 0x10000 }] } with
    overlay := published.overlay }

theorem witness_ShootdownWritesBack :
    (answers (.shootdownAck 0) (shotDirty 0) (fun t => t.mem.get 0x101 == 7 && t.overlay.isEmpty && (t.core 0).shoots.isEmpty) &&
     answers (.shootdownAck 0) (shotDirty 1) (fun t => t.mem.get 0x101 == 0 && t.overlay.length == 1 && (t.core 0).tlb.isEmpty) &&
     (shotDirty 0).mem.wf && (shotDirty 0).overlay.all fun o => o.eng.isNone && o.sees 0) = true := by decide +kernel

theorem witness_Preemption_ladder :
    (let s (awaits : Bool) (clock : Nat) : State := (stopped false clock).modQueue 0 fun q => { q with level := 2, awaits := awaits }
     answers (.drainTimeout 0) (s false 799) (fun t => !(t.core 0).saving && !(t.queue 0).awaits) &&
     ((s false 800).queue 0).ladder + 800 * ((s false 800).queue 0).t1 ≤ 800 &&
     answers (.drainTimeout 0) (s true 2399) (fun t => !(t.core 0).saving) &&
     answers (.drainTimeout 0) (s true 2400) (fun t => (t.core 0).saving && (t.queue 0).breakWith == 3)) = true := by decide +kernel

theorem witness_LandingAfterTheSave :
    (let w : Wm := { lo := 0xFFF0000000009C40, hi := 0xFFF0000000009C80, wm := 0xFFF0000000009C41, stat := 1, owner := (1, 1) }
     let s := { (stopped true 800).modQueue 0 fun q => { q with savebase := 0x400000 } with
       saved := [savedCore [([(2 ^ 52 + 40000, 7)], lateRec, w)]] }
     cpWmen lateRec.ops && cpWmi lateRec.ops == 0 && decide (lateRec.idx < 64) && s.mem.wf &&
     answers (.saveComplete 0) s (fun t => t.saved.all (fun v => v.remap.isEmpty) && !(t.core 0).saving &&
       t.mem.get (0x500000 + 40000) == 7 && t.peek (0x400000 + 0x100 + 16) 8 == w.wm.toNat)) = true := by decide +kernel

/-- Die 0 in D2, with Drizzle on, at the last step before a Drizzle window. -/
def drizzling (s : State) : State :=
  { s.modDie 0 fun d => { d with d2 := some 0, nbctl := 1 } with gstep := 4095 }

theorem witness_DrizzleWindows :
    (answers (.drizzleWindow 0) (drizzling start) (fun t => (t.die 0).drzWindow && (t.die 0).drz == 1 && (t.die 0).nbcnt == 1 &&
       t.slot.evTraps.isEmpty) &&
     (let run := drizzling (vectoring (.vadd 1 2 3 0 false false)
        (some { vregs := [], mregs := [], xregs := [], stores := [], push := none, flags := 0, trap := none }))
      (run.core 0).vrun.isSome && (run.slotAt ⟨0, 0⟩).occ && (run.slotAt ⟨0, 0⟩).evTraps.isEmpty &&
      answers (.drizzleWindow 0) run (fun t => (t.die 0).drzWindow && (t.die 0).drz == 0 && (t.die 0).nbcnt == 0 &&
        t.slot.evTraps.all (fun p => p.cause == .schedBreak && p.tval == 4) && t.slot.evTraps.length == 1)) &&
     answers (.drizzleWindow 0) { drizzling start with gstep := 4094 } (fun t => (t.die 0).drzWindow == { drizzling start with gstep := 4094 }.inWindow)) = true := by
  decide +kernel

/-- An alarm of the vector engine of core 0 has come in this cycle. -/
def alarmedAt (cause : Nat) (f : Die → Die) : State := start.modDie 0 fun d => f { d with alarmed := [(0, (0, cause))] }

theorem witness_AlarmsOfOneCycle :
    (answers (.parityAlarm 0 .vec) (alarmedAt 1 id) (· == alarmedAt 1 id) &&
     answers (.parityAlarm 0 .vec) (alarmedAt 4 id) (fun t => (t.die 0).nbcnt == 0 && t.faults.length == 1 && t.cores == start.cores &&
       (t.die 0).nbevt == 0x200) &&
     answers (.parityAlarm 0 .vec) { alarmedAt 3 fun d => { d with nbctl := 2 } with faults := [(.engine 0 .vec, [0, 0])] }
       (fun t => (t.die 0).nbcnt == 2 ^ 32) &&
     answers (.drizzleReset 0) (alarmedAt 0 fun d => { d with nbctl := 1 }) (fun t => (t.die 0).drz == 1 && (t.die 0).nbcnt == 0) &&
     answers (.testAlarm 0) (alarmedAt 0 fun d => { d with nbtest := 1 }) (fun t => (t.die 0).nbtest == 0 && (t.die 0).nbcnt == 0) &&
     (let s := (nimbus 1 0 0).modDie 0 fun d => { d with d2 := some 0 }
      answers (.testAlarm 0) s (fun t => (t.die 0).nbcnt == 1 && t.slot.evTraps.all (fun p => p.tval == 5) && t.slot.evTraps.length == 1) &&
      answers (.testAlarm 0) { s with gstep := 4095 } (fun t => (t.die 0).nbcnt == 1 && t.slot.evTraps.isEmpty)) &&
     answers (.watchdog 0 .vec) ((vectoring (.vadd 1 2 3 0 false false)
         (some { vregs := [], mregs := [], xregs := [], stores := [], push := none, flags := 0, trap := none })).modDie 0 fun d =>
           { d with nbwdog := 0 }) (fun t => (t.die 0).nbcnt == 1 && (t.die 0).nbevt == 0)) = true := by decide +kernel

/-- The task after a checkpoint, whose record holds a pc and the value of x3. -/
def checkpointed : State :=
  { start.mapSlot fun l => { l with ckpt := true } with
    mem := Memory.setAll start.mem (cellsLE 0 8 0x20040 ++ cellsLE 24 8 7) }

theorem witness_RestartFromCheckpoint :
    (checkpointed.slot.ckpt && checkpointed.slot.occ && (checkpointed.queue 0).ckbase == 0 &&
     answers (.coreReset 0) checkpointed (fun t => t.slot.pc == 0x20040 && t.rx 3 == 7 && t.slot.ckpt && t.slot.occ &&
       t.slot.tstat.getLsbD 7)) = true := by decide +kernel

theorem witness_ReplaysAndSpread :
    (answers (.replay 0) (start.mapSlot fun l => { l with wait := .semDone 7 5 true 40 })
       (fun t => t.slot.wait == .semDone 7 5 true 42 && t.slot.lag == 2 && t.slot.busyTill == 2) &&
     answers (.replay 0) start (fun t => t.slot.wait == .run) &&
     answers .snapshotLatch { start with snapctl := 0x85, stepBase := start.refclk, system := [9] }
       (fun t => t.outbox.length == 1 && t.snapctl == 0x86)) = true := by decide +kernel

/-- A device with a request for a granule of the host window under way. -/
def awaiting (unit : Nat) (w : Wait) : State :=
  { hostTask.mapSlot fun l => { l with wait := w } with
    hostReqs := [{ tag := 5, uid := 1, core := 0, slot := 0, unit := unit, granule := 0x8000000000000 / 64, back := false }] }

theorem witness_HostTraffic :
    (let b : State := { start with bridge := true, foreign := [(9, 0, 1)] }
     answers (.flit { dest := 0, body := .hostWrite 9 (some (0, 0)) 64 [7] }) b (· == b) &&
     answers (.flit { dest := 0, body := .hostWrite 9 (some (0, 1)) 64 [7] }) b (fun t => t.mem.get 0x8000000000040 == 7) &&
     answers (.flit { dest := 0, body := .hostAtomic 9 none 5 64 8 (.amo .add 3) }) b
       (fun t => t.mem.get 0x8000000000040 == 3 && t.outbox.length == 1) &&
     answers (.flit { dest := 0, body := .hostAtomic 9 none 5 64 8 (.cas 0 9) }) b (fun t => t.mem.get 0x8000000000040 == 9) &&
     answers (.flit { dest := 0, body := .hostAtomic 9 none 5 64 4 (.merge .fp32 [64, 65, 66, 67] [0, 0, 0x80, 0x3F]) }) b
       (fun t => t.mem.get 0x8000000000043 == 0x3F && t.outbox.isEmpty) &&
     answers (.flit { dest := 0, body := .hostValue 4 [7] }) (awaiting 0 .run) (· == awaiting 0 .run) &&
     answers (.flit { dest := 0, body := .hostValue 5 [7] }) (awaiting 0 .run)
       (fun t => t.mem.get 0x8000000000000 == 7 && t.hostReqs.all (·.back)) &&
     answers (.flit { dest := 0, body := .hostValue 5 [7] }) (awaiting 4 (.hostAtomic 7 false))
       (fun t => t.rx 7 == 7 && t.hostReqs.isEmpty && t.slot.wait == .run) &&
     answers (.flit { dest := 0, body := .snapTrigger }) { b with snapctl := 5 } (fun t => t.snapctl == 6)) = true := by decide +kernel

end Sys2Proof.Tests
end

section
/-! Register writes and reads, GO, enumeration and the end of reduced service (O53). -/

namespace Sys2Proof.Machine

/-! ## Register writes and reads (R10, R410, R419) -/

theorem registerWrite_happens {s u : State} {space : RegSpace} {a v : W64} (h : s.regWrite space a.toNat v = u) :
    Happens s (.deviceRegisterWrite space a v) u := by
  subst h; rfl

theorem State.regWrite_unaligned (s : State) (space : RegSpace) {a : Nat} (v : W64) (h : a % 8 ≠ 0) :
    s.regWrite space a v = s := by
  simp [State.regWrite, h]

/-- A device that does not bridge presents no function to a host (R25). -/
theorem State.regWrite_bar0_of_not_bridge {s : State} (h : s.bridge = false) (a : Nat) (v : W64) :
    s.regWrite .bar0 a v = s := by
  simp [State.regWrite, h]

theorem State.regWrite_cfgblock {s : State} (hb : s.bridge = true) {a : Nat} (v : W64) (hlo : 0x200000 ≤ a)
    (hhi : a < 0x280000) (ha : a % 8 = 0) :
    s.regWrite .bar0 a v = { s with cfgblocks := tset s.cfgblocks ((a - 0x200000) / 8) v } := by
  have hdoor : ¬ a < 0x108000 := by omega
  simp [State.regWrite, hb, ha, hdoor, hlo, hhi]

/-- The mailbox takes what the host writes between its first and its last offset. -/
theorem State.regWrite_mbox {s : State} (hb : s.bridge = true) {o : Nat} (v : W64) (ho : o < 0x1000) (h8 : o % 8 = 0) :
    s.regWrite .bar0 (0x1000000 + o) v = s.mboxWrite o v := by
  have ha : (0x1000000 + o) % 8 = 0 := by omega
  have hdoor : ¬ 0x1000000 + o < 0x108000 := by omega
  have hcfg : ¬ 0x1000000 + o < 0x280000 := by omega
  have hmbox : 0x1000000 + o < 0x1001000 := by omega
  simp [State.regWrite, hb, ha, hdoor, hcfg, hmbox]

theorem State.regWrite_snapstep (s : State) (v : W64) :
    s.regWrite .device 0xF000000300008 v = { s with snapstep := v } := by
  simp [State.regWrite, State.devWrite]

theorem ofNat_bits {w : Nat} (x : BitVec w) (hi lo n : Nat) (h : n = hi + 1 - lo) :
    BitVec.ofNat n (bits x hi lo) = x.extractLsb' lo n := by
  subst h
  apply BitVec.eq_of_toNat_eq
  simp [bits, Nat.shiftRight_eq_div_pow]

theorem State.mboxWrite_head (s : State) (v : W64) :
    s.mboxWrite 0 v = { s with mbox := { s.mbox with
      opcode := v.extractLsb' 0 16, member := v.extractLsb' 16 4, reserved := v.extractLsb' 20 12
      tag := v.extractLsb' 32 32 } } := by
  simp [State.mboxWrite, ofNat_bits]

theorem State.mboxWrite_arg (s : State) {k : Nat} (hk : k < 14) (v : W64) :
    s.mboxWrite (8 + 8 * k) v = { s with mbox := { s.mbox with args := tset s.mbox.args k v } } := by
  have hlast : 8 + 8 * k < 0x78 := by omega
  simp [State.mboxWrite, hlast]

/-- While a command is in progress, GO takes no write (R419). -/
theorem State.mboxWrite_go_of_busy {s : State} (h : s.mbox.go = true) (v : W64) : s.mboxWrite 0x80 v = s := by
  simp [State.mboxWrite, h]

theorem State.mboxWrite_go_of_idle {s : State} (h : s.mbox.go = false) : s.mboxWrite 0x80 1 = s.submit false := by
  simp [State.mboxWrite, h, bitOf, bits]

theorem State.bar0Read_mbox {s : State} (hb : s.bridge = true) {o : Nat} (ho : o < 0x1000) :
    s.bar0Read (0x1000000 + o) = some (s.mbox.read o) := by
  have hinfo : ¬ 0x1000000 + o < 0x38 := by omega
  have hmem : ¬ 0x1000000 + o < 0x11000 := by omega
  have hdoor : ¬ 0x1000000 + o < 0x108000 := by omega
  have hcfg : ¬ 0x1000000 + o < 0x280000 := by omega
  have hmbox : 0x1000000 + o < 0x1001000 := by omega
  simp [State.bar0Read, hb, hinfo, hmem, hdoor, hcfg, hmbox]

theorem Mailbox.read_go (m : Mailbox) : m.read 0x80 = if m.go then 1 else 0 := by
  cases h : m.go <;> simp [Mailbox.read, h, w64, b2n]

theorem Mailbox.read_result (m : Mailbox) :
    m.read 0x100 = BitVec.ofNat 64 (m.result.toNat + m.rtag.toNat * 2 ^ 32) := by
  simp [Mailbox.read, w64]

theorem Mailbox.read_res (m : Mailbox) {k : Nat} (hk : k < 14) : m.read (0x108 + 8 * k) = tget 0 m.res k := by
  have harg : ¬ 0x108 + 8 * k < 0x78 := by omega
  have hgo : ¬ 0x108 + 8 * k = 0x80 := by omega
  have hresult : ¬ 0x108 + 8 * k = 0x100 := by omega
  have hlast : 0x108 + 8 * k < 0x178 := by omega
  simp [Mailbox.read, harg, hgo, hresult, hlast]

theorem State.bar0Read_cfgblock {s : State} (hb : s.bridge = true) {k : Nat} (hk : k < 65536) :
    s.bar0Read (0x200000 + 8 * k) = some (tget 0 s.cfgblocks k) := by
  have hinfo : ¬ 0x200000 + 8 * k < 0x38 := by omega
  have hmem : ¬ 0x200000 + 8 * k < 0x11000 := by omega
  have hdoor : ¬ 0x200000 + 8 * k < 0x108000 := by omega
  have hcfg : 0x200000 + 8 * k < 0x280000 := by omega
  simp [State.bar0Read, hb, hinfo, hmem, hdoor, hcfg]

theorem State.bar0Read_info {s : State} (hb : s.bridge = true) {j k : Nat} (hj : 1 ≤ j) (hj' : j ≤ 15) (hk : k < 7) :
    s.bar0Read (0x10000 + 0x100 * j + 8 * k) = some ((tget [] s.infos j).getD k 0) := by
  have hinfo : ¬ 0x10000 + 0x100 * j + 8 * k < 0x38 := by omega
  have hlo : 0x10100 ≤ 0x10000 + 0x100 * j + 8 * k := by omega
  have hhi : 0x10000 + 0x100 * j + 8 * k < 0x11000 := by omega
  have hword : (0x10000 + 0x100 * j + 8 * k) % 0x100 = 8 * k := by omega
  have hdev : (0x10000 + 0x100 * j + 8 * k - 0x10000) / 0x100 = j := by omega
  have hlast : 8 * k < 0x38 := by omega
  simp [State.bar0Read, hb, hinfo, hlo, hhi, hword, hdev, hlast]

/-- Between the device's own information block and those of the members nothing is assigned. -/
theorem State.bar0Read_unassigned {s : State} (hb : s.bridge = true) {k : Nat} (hlo : 0x38 ≤ k) (hhi : k < 0x10100) :
    s.bar0Read k = some 0 := by
  have hinfo : ¬ k < 0x38 := by omega
  have hmem : ¬ 0x10100 ≤ k := by omega
  have hdoor : ¬ 0x100000 ≤ k := by omega
  have hcfg : ¬ 0x200000 ≤ k := by omega
  have hmbox : ¬ 0x1000000 ≤ k := by omega
  simp [State.bar0Read, hb, hinfo, hmem, hdoor, hcfg, hmbox]

theorem State.bar0Read_of_not_bridge {s : State} (h : s.bridge = false) (a : Nat) : s.bar0Read a = some 0 := by
  simp [State.bar0Read, h]

/-! ## GO (R419, R420, R421) -/

/-- The command that the mailbox of the host holds. -/
def State.hostCmd (s : State) : Cmd :=
  { opcode := s.mbox.opcode.toNat, tag := s.mbox.tag, args := (List.range 14).map fun k => tget 0 s.mbox.args k
    src := none, away := false, started := false }

/-- The state in which the host has set GO. -/
def State.posted (s : State) : State := { s with mbox := { s.mbox with go := true, cmd := some s.hostCmd } }

/-- The state in which the mailbox shows RESULT r for the host's command, and no command is in progress. -/
def State.answered (s : State) (r : Nat) : State :=
  { s with mbox := { s.mbox with go := false, cmd := none, result := BitVec.ofNat 16 r, rtag := s.mbox.tag } }

/-- A command whose reserved bits are 0 and whose OPCODE is not reserved (R420). -/
def Mailbox.Known (m : Mailbox) : Prop := m.reserved = 0 ∧ 1 ≤ m.opcode.toNat ∧ m.opcode.toNat ≤ 17

/-- A command of the host that the device's STATE accepts (R420). -/
def State.Accepts (s : State) : Prop :=
  let op := s.mbox.opcode.toNat
  (op = 6 ∨ op = 8 ∨ op = 9 ∨ op = 10) ∨ (op = 16 ∧ s.service = 1 ∧ s.queueMade = false) ∨
    (1 ≤ op ∧ op ≤ 17 ∧ op ≠ 16 ∧ (s.service = 1 ∨ s.service = 2))

theorem opStates_isNone_iff (op : Nat) : (opStates op).isNone = true ↔ ¬ (1 ≤ op ∧ op ≤ 17) := by
  unfold opStates
  split_ifs <;> simp only [Option.isNone_some, Option.isNone_none, Bool.false_eq_true, false_iff, true_iff] <;> omega

theorem State.posted_putAnswer (s : State) (r : Nat) : s.posted.putAnswer r [] = s.answered r := rfl

/-- With no command waiting behind it, an answered command leaves the mailbox to the host. -/
theorem State.posted_answerCmd {s : State} (hw : s.cmdWait = []) (r : Nat) : s.posted.answerCmd r [] = s.answered r := by
  have hwait : s.posted.cmdWait = [] := hw
  rw [State.answerCmd, State.posted_putAnswer, hwait, State.nextCmds, ← hw]
  rfl

/-- `Accepts` says what the STATEs of `opStates` and the rule of OPCODE 16, before any queue is made, say (R420). -/
theorem State.accepts_iff (s : State) {st : List Nat} (h : opStates s.mbox.opcode.toNat = some st) :
    s.Accepts ↔ (!(st.contains s.service.toNat) || (s.mbox.opcode.toNat == 0x10 && s.queueMade)) = false := by
  have hservice : ∀ k : BitVec 2, s.service = k ↔ s.service.toNat = k.toNat := fun k => BitVec.toNat_inj.symm
  have hlt : s.service.toNat < 4 := s.service.isLt
  unfold State.Accepts
  unfold opStates at h
  simp only [hservice, Bool.or_eq_false_iff, Bool.not_eq_false', Bool.and_eq_false_iff, beq_eq_false_iff_ne]
  split_ifs at h with hany hgroup hop <;> cases Option.some.inj h
  · exact iff_of_true (.inl hany) ⟨by simp; omega, .inl (by omega)⟩
  · simp [hgroup]
  · have hnot : s.mbox.opcode.toNat ≠ 16 := hgroup
    simp [hany, hnot, hop]

theorem State.posted_acceptCmd_eq (s : State) {st : List Nat} (h : opStates s.mbox.opcode.toNat = some st) :
    s.posted.acceptCmd =
      if !(st.contains s.service.toNat) || (s.mbox.opcode.toNat == 0x10 && s.queueMade) then s.answered 3 else s.posted := by
  unfold State.acceptCmd
  simp only [State.posted, State.hostCmd, h]
  rfl

theorem Mailbox.Known.opStates_eq {m : Mailbox} (h : m.Known) : ∃ st, opStates m.opcode.toNat = some st :=
  Option.ne_none_iff_exists'.1 fun e => (opStates_isNone_iff _).1 (by rw [e]; rfl) h.2

theorem State.posted_acceptCmd_of_accepts {s : State} (hk : s.mbox.Known) (h : s.Accepts) :
    s.posted.acceptCmd = s.posted := by
  obtain ⟨st, hst⟩ := hk.opStates_eq
  rw [s.posted_acceptCmd_eq hst, (s.accepts_iff hst).1 h, if_neg Bool.false_ne_true]

theorem State.posted_acceptCmd_of_not_accepts {s : State} (hk : s.mbox.Known) (h : ¬ s.Accepts) :
    s.posted.acceptCmd = s.answered 3 := by
  obtain ⟨st, hst⟩ := hk.opStates_eq
  rw [s.posted_acceptCmd_eq hst, if_pos (Bool.not_eq_false _ ▸ mt (s.accepts_iff hst).2 h)]

theorem State.submit_of_not_known {s : State} (h : ¬ s.mbox.Known) (hw : s.cmdWait = []) :
    s.submit false = s.answered 1 := by
  have hbad : (s.mbox.reserved ≠ 0 || (opStates s.mbox.opcode.toNat).isNone) = true := by
    simp only [Bool.or_eq_true, opStates_isNone_iff, decide_eq_true_eq]
    exact or_iff_not_imp_left.2 fun hr hop => h ⟨not_not.1 hr, hop⟩
  rw [← State.posted_answerCmd hw]
  simp only [State.submit, Bool.false_or]
  rw [if_pos hbad]; rfl

theorem Mailbox.Known.not_bad {m : Mailbox} (h : m.Known) :
    (false || m.reserved ≠ 0 || (opStates m.opcode.toNat).isNone) = false := by
  obtain ⟨hr, hop⟩ := h
  have hn : (opStates m.opcode.toNat).isNone = false :=
    Bool.eq_false_iff.2 fun e => (opStates_isNone_iff _).1 e hop
  simp [hr, hn]

/-- MEMBER 0 names the device itself: Flambeol's cores hear of the command (R423). -/
theorem State.submit_own {s : State} (hk : s.mbox.Known) (hm : s.mbox.member = 0) :
    s.submit false = s.posted.acceptCmd.ringAll 0x10 := by
  unfold State.submit
  dsimp only
  rw [hk.not_bad, if_neg Bool.false_ne_true, if_pos hm]; rfl

theorem State.submit_member {s : State} (hk : s.mbox.Known) (hm : s.mbox.member ≠ 0) {d : BitVec 20}
    (hd : s.members[s.mbox.member.toNat - 1]? = some d) :
    s.submit false = { s with
      mbox := { s.mbox with go := true, cmd := some { s.hostCmd with away := true } }
      outbox := s.outbox ++ [{
        dest := d
        body := .mailboxCommand s.devid s.mbox.tag s.mbox.opcode s.hostCmd.args (s.sentBlock s.hostCmd) }] } := by
  unfold State.submit
  dsimp only
  rw [hk.not_bad, if_neg Bool.false_ne_true, if_neg hm, hd]; rfl

theorem State.submit_noMember {s : State} (hk : s.mbox.Known) (hm : s.mbox.member ≠ 0)
    (hd : s.members.length < s.mbox.member.toNat) (hw : s.cmdWait = []) : s.submit false = s.answered 7 := by
  have hnone : s.members[s.mbox.member.toNat - 1]? = none := List.getElem?_eq_none (by omega)
  rw [← State.posted_answerCmd hw]
  unfold State.submit
  dsimp only
  rw [hk.not_bad, if_neg Bool.false_ne_true, if_neg hm, hnone]; rfl

/-- Ringing a queue core changes nothing but queue cores. -/
theorem State.ring_queueCores (s : State) (q : Nat) (b : BitVec 7) :
    ∃ fc cur wk, s.ring q b = { s with fcores := fc, fcur := cur, fwoken := wk } := by
  unfold State.ring State.woken
  dsimp only
  split
  · exact ⟨_, _, _, rfl⟩
  · split
    · split <;> exact ⟨_, _, _, rfl⟩
    · exact ⟨_, _, _, rfl⟩

theorem State.foldl_ring_queueCores (b : BitVec 7) (qs : List Nat) (s : State) :
    ∃ fc cur wk, qs.foldl (fun s q => s.ring q b) s = { s with fcores := fc, fcur := cur, fwoken := wk } := by
  induction qs generalizing s with
  | nil => exact ⟨_, _, _, rfl⟩
  | cons q qs ih =>
    obtain ⟨fc, cur, wk, hring⟩ := s.ring_queueCores q b
    obtain ⟨fc', cur', wk', hrest⟩ := ih (s.ring q b)
    exact ⟨fc', cur', wk', by rw [List.foldl_cons, hrest, hring]⟩

theorem State.ringAll_queueCores (s : State) (b : BitVec 7) :
    ∃ fc cur wk, s.ringAll b = { s with fcores := fc, fcur := cur, fwoken := wk } :=
  State.foldl_ring_queueCores b _ s

theorem State.ringAll_of_noResidents {s : State} (h : s.residents = []) (b : BitVec 7) : s.ringAll b = s := by
  rw [State.ringAll, h]; rfl

/-- The core of the only queue, which is resident and whose core does not sleep, gets the pending bit. -/
theorem State.fcore_ringAll_single {s : State} {q : Nat} {u : Queue} (hq : s.queues = [(q, u)]) (hu : u.resident = true)
    (ha : (s.fcore u.qcore).asleep = false) (b : BitVec 7) :
    (s.ringAll b).fcore u.qcore = { s.fcore u.qcore with pending := (s.fcore u.qcore).pending ||| b } := by
  have hres : s.residents = [q] := by simp [State.residents, hq, hu]
  have hqueue : s.queue q = u := by simp [State.queue, hq, tget]
  have hsig : (s.fcore u.qcore).signal b = { s.fcore u.qcore with pending := (s.fcore u.qcore).pending ||| b } := by
    simp [FCore.signal, ha]
  simp [State.ringAll, hres, State.ring, hqueue, hu, ha, hsig]

/-- A host write to the mailbox does what the mailbox makes of it. -/
theorem mailboxWrite_happens {s t : State} (hb : s.bridge = true) {a v : W64} {o : Nat} (ha : a.toNat = 0x1000000 + o)
    (ho : o < 0x1000) (h8 : o % 8 = 0) (h : s.mboxWrite o v = t) : Happens s (.deviceRegisterWrite .bar0 a v) t := by
  refine registerWrite_happens ?_
  rw [ha, State.regWrite_mbox hb v ho h8, h]

theorem submit_own_accepted {s : State} (hk : s.mbox.Known) (hm : s.mbox.member = 0) (h : s.Accepts) :
    s.submit false = s.posted.ringAll 0x10 := by
  rw [State.submit_own hk hm, State.posted_acceptCmd_of_accepts hk h]

theorem submit_own_refused {s : State} (hk : s.mbox.Known) (hm : s.mbox.member = 0) (h : ¬ s.Accepts) :
    (s.submit false).mbox = (s.answered 3).mbox := by
  obtain ⟨fc, cur, wk, hring⟩ := (s.answered 3).ringAll_queueCores 0x10
  rw [State.submit_own hk hm, State.posted_acceptCmd_of_not_accepts hk h, hring]

/-! ### A write of 1 to GO while no command is in progress -/

section
variable {s : State} {a : W64} (hb : s.bridge = true) (hg : s.mbox.go = false) (ha : a.toNat = 0x1000080)
include hb hg ha

theorem goWrite_happens {t : State} (h : s.submit false = t) : Happens s (.deviceRegisterWrite .bar0 a 1) t :=
  mailboxWrite_happens (o := 0x80) hb ha (by omega) rfl ((State.mboxWrite_go_of_idle hg).trans h)

/-- The mailbox shows a RESULT at once. -/
theorem goWrite_answers {r : Nat} (hr : (s.submit false).mbox = (s.answered r).mbox) :
    ∃ t, Happens s (.deviceRegisterWrite .bar0 a 1) t ∧ t.mbox.result = BitVec.ofNat 16 r ∧
      t.mbox.go = false ∧ t.mbox.cmd = none ∧ t.mbox.rtag = s.mbox.tag :=
  ⟨_, goWrite_happens hb hg ha rfl, by rw [hr]; rfl, by rw [hr]; rfl, by rw [hr]; rfl, by rw [hr]; rfl⟩

/-- A command that the device accepts is in progress; its queue cores hear of it, and nothing else changes (R423). -/
theorem goWrite_accepted (hk : s.mbox.Known) (hm : s.mbox.member = 0) (hok : s.Accepts) :
    ∃ t, Happens s (.deviceRegisterWrite .bar0 a 1) t ∧
      t = { s.posted with fcores := t.fcores, fcur := t.fcur, fwoken := t.fwoken } ∧
      (s.residents = [] → t.fcores = s.fcores) ∧
      ∀ q u, s.queues = [(q, u)] → u.resident = true → (s.fcore u.qcore).asleep = false →
        t.fcore u.qcore = { s.fcore u.qcore with pending := (s.fcore u.qcore).pending ||| 0x10 } := by
  refine ⟨_, goWrite_happens hb hg ha (submit_own_accepted hk hm hok), ?_, ?_, ?_⟩
  · obtain ⟨fc, cur, wk, hring⟩ := s.posted.ringAll_queueCores 0x10
    rw [hring]
  · intro hres
    rw [State.ringAll_of_noResidents (by exact hres)]; rfl
  · exact fun q u hq hu hs => State.fcore_ringAll_single (s := s.posted) hq hu hs 0x10

end

/-! ## Enumeration (R382, R409, R412) -/

theorem State.foldl_addRoute_routes (found : List Reached) (s : State) :
    ∃ rs, found.foldl (fun s x => s.addRoute x) s = { s with routes := rs } := by
  induction found generalizing s with
  | nil => exact ⟨_, rfl⟩
  | cons x xs ih =>
    obtain ⟨rs, hrest⟩ := ih (s.addRoute x)
    exact ⟨rs, hrest⟩

theorem State.claim_members (s : State) (id : BitVec 20) :
    ∃ ms sys n, s.claim id = { s with members := ms, system := sys, refusedIds := n } := by
  unfold State.claim
  split
  · exact ⟨_, _, _, rfl⟩
  · split <;> exact ⟨_, _, _, rfl⟩

theorem State.foldl_claim_members (ids : List (BitVec 20)) (s : State) :
    ∃ ms sys n, ids.foldl (fun s id => s.claim id) s = { s with members := ms, system := sys, refusedIds := n } := by
  induction ids generalizing s with
  | nil => exact ⟨_, _, _, rfl⟩
  | cons id ids ih =>
    obtain ⟨ms, sys, n, hclaim⟩ := s.claim_members id
    obtain ⟨ms', sys', n', hrest⟩ := ih (s.claim id)
    exact ⟨ms', sys', n', by rw [List.foldl_cons, hrest, hclaim]⟩

theorem State.claim_of_mem {s : State} {id : BitVec 20} (h : id ∈ s.system) :
    s.claim id = { s with refusedIds := s.refusedIds + 1 } := by
  simp [State.claim, h]

theorem State.claim_of_not_mem {s : State} {id : BitVec 20} (h : id ∉ s.system) (hroom : s.members.length < 15) :
    s.claim id = { s with members := s.members ++ [id], system := s.system ++ [id] } := by
  have hfull : ¬ 15 ≤ s.members.length := by omega
  simp [State.claim, h, hfull]

/-- Two free identity words are claimed one after the other. -/
theorem State.claim_claim {s : State} {a b : BitVec 20} (hab : a ≠ b) (ha : a ∉ s.system) (hb : b ∉ s.system)
    (hroom : s.members.length < 14) :
    (s.claim a).claim b = { s with members := s.members ++ [a, b], system := s.system ++ [a, b] } := by
  have hb' : b ∉ s.system ++ [a] := by simp [hb, hab.symm]
  have hroom' : (s.members ++ [a]).length < 15 := by simp; omega
  rw [State.claim_of_not_mem ha (by omega), State.claim_of_not_mem (by exact hb') (by exact hroom')]
  simp only [List.append_assoc, List.singleton_append]

/-- What every device does at enumeration: the routes enter its table, and its steps are aligned (R382, R412). -/
def State.enumerated (s : State) (found : List Reached) (others : List (BitVec 20)) (len : Nat) : State :=
  { found.foldl (fun s x => s.addRoute x) s with
    aligned := true, gstep := 0, stepBase := s.refclk, steplen := if steplenOk len then len else s.steplen
    hostDev := if s.bridge then s.devid else others.headD 0 }

/-- The identity words that a bridging device claims, in the order of the claims. -/
def claimOrder (found : List Reached) : List (BitVec 20) :=
  ((found.filter fun x => !x.claimed).foldl (fun l x => insertReached x l) []).map (·.id)

/-- The steps of the device are aligned, with the STEPLEN asked for where that is one (R382). -/
def State.StepsAligned (s : State) (len : Nat) (t : State) : Prop :=
  t.aligned = true ∧ t.gstep = 0 ∧ t.stepBase = s.refclk ∧
    t.steplen = if len % 256 = 0 ∧ 256 ≤ len ∧ len ≤ 65536 then len else s.steplen

theorem State.enumerated_routes (s : State) (found : List Reached) (others : List (BitVec 20)) (len : Nat) :
    ∃ rs, s.enumerated found others len = { s with
      routes := rs, aligned := true, gstep := 0, stepBase := s.refclk
      steplen := if steplenOk len then len else s.steplen
      hostDev := if s.bridge then s.devid else others.headD 0 } := by
  obtain ⟨rs, h⟩ := s.foldl_addRoute_routes found
  exact ⟨rs, by rw [State.enumerated, h]⟩

theorem State.enumerated_devid (s : State) (found : List Reached) (others : List (BitVec 20)) (len : Nat) :
    (s.enumerated found others len).devid = s.devid := by
  obtain ⟨rs, h⟩ := s.enumerated_routes found others len
  rw [h]

theorem State.enumerated_stepsAligned (s : State) (found : List Reached) (others : List (BitVec 20)) (len : Nat) :
    s.StepsAligned len (s.enumerated found others len) := by
  refine ⟨rfl, rfl, rfl, ?_⟩
  simp only [State.enumerated, steplenOk, Bool.and_eq_true, beq_iff_eq, decide_eq_true_eq]

/-- One device found leaves its routes, the nearest first, behind those known. -/
theorem State.enumerated_route_single (s : State) (x : Reached) (others : List (BitVec 20)) (len : Nat) :
    tget [] (s.enumerated [x] others len).routes x.id.toNat = tget [] s.routes x.id.toNat ++
      ((x.hops, x.port) :: x.more).map fun y => { port := y.2, hops := y.1, extra := 0 } := by
  simp [State.enumerated, State.addRoute]

/-- The four ways in which an enumeration goes (R409). -/
theorem exec_systemEnumeration (found : List Reached) (others : List (BitVec 20)) (len : Nat) (s : State) :
    exec (.systemEnumeration found others len) s =
      occurs (if s.aligned || s.measurements.isEmpty then none
        else if s.bridge then some ((claimOrder found).foldl (fun s id => s.claim id)
          { s.enumerated found others len with system := (s.enumerated found others len).system ++ others })
        else if others.contains s.identity then some (s.enumerated found others len)
        else some ({ s.enumerated found others len with
          devid := s.identity, system := others ++ [s.identity] } : State).sendInfo) s := rfl

theorem enumeration_idle {s : State} (found : List Reached) (others : List (BitVec 20)) (len : Nat)
    (h : s.aligned = true ∨ s.measurements = []) : Idle s (.systemEnumeration found others len) := by
  have hdone : (s.aligned || s.measurements.isEmpty) = true := by simpa using h
  rw [Idle, exec_systemEnumeration, if_pos hdone]; rfl

section
variable {s : State} (found : List Reached) (others : List (BitVec 20)) (len : Nat)
variable (ha : s.aligned = false) (hm : s.measurements ≠ [])
include ha hm

theorem not_enumerated_yet : ¬ (s.aligned || s.measurements.isEmpty) = true := by simpa [ha] using hm

theorem enumeration_bridge (hb : s.bridge = true) : Happens s (.systemEnumeration found others len)
    ((claimOrder found).foldl (fun s id => s.claim id)
      { s.enumerated found others len with system := (s.enumerated found others len).system ++ others }) := by
  rw [Happens, exec_systemEnumeration, if_neg (not_enumerated_yet ha hm), if_pos hb]; rfl

/-- A device whose identity word another device has keeps its DEVID. -/
theorem enumeration_identityTaken (hb : s.bridge = false) (hid : s.identity ∈ others) :
    Happens s (.systemEnumeration found others len) (s.enumerated found others len) := by
  rw [Happens, exec_systemEnumeration, if_neg (not_enumerated_yet ha hm), if_neg (ne_true_of_eq_false hb),
    if_pos (List.contains_iff_mem.2 hid)]
  rfl

theorem enumeration_identityFree (hb : s.bridge = false) (hid : s.identity ∉ others) :
    Happens s (.systemEnumeration found others len)
      ({ s.enumerated found others len with devid := s.identity, system := others ++ [s.identity] } : State).sendInfo := by
  rw [Happens, exec_systemEnumeration, if_neg (not_enumerated_yet ha hm), if_neg (ne_true_of_eq_false hb),
    if_neg (mt List.contains_iff_mem.1 hid)]
  rfl

/-- Whatever a device does at enumeration, its steps are aligned. -/
theorem enumeration_stepsAligned : ∃ t, Happens s (.systemEnumeration found others len) t ∧ s.StepsAligned len t := by
  have haligned := s.enumerated_stepsAligned found others len
  cases hb : s.bridge with
  | true =>
    obtain ⟨ms, sys, n, hclaims⟩ := State.foldl_claim_members (claimOrder found)
      { s.enumerated found others len with system := (s.enumerated found others len).system ++ others }
    exact ⟨_, enumeration_bridge found others len ha hm hb, by rw [hclaims]; exact haligned⟩
  | false =>
    by_cases hid : s.identity ∈ others
    · exact ⟨_, enumeration_identityTaken found others len ha hm hb hid, haligned⟩
    · refine ⟨_, enumeration_identityFree found others len ha hm hb hid, ?_⟩
      unfold State.sendInfo
      split <;> exact haligned

/-- A device that another bridge has claimed is left alone; its routes are kept. -/
theorem enumeration_claimedFound (hb : s.bridge = true) {x : Reached} (hx : x.claimed = true) :
    ∃ t, Happens s (.systemEnumeration [x] [] len) t ∧ t.members = s.members ∧ t.system = s.system ∧
      t.refusedIds = s.refusedIds ∧ tget [] t.routes x.id.toNat = tget [] s.routes x.id.toNat ++
        ((x.hops, x.port) :: x.more).map fun y => { port := y.2, hops := y.1, extra := 0 } := by
  have horder : claimOrder [x] = [] := by simp [claimOrder, hx]
  have h := enumeration_bridge [x] [] len ha hm hb
  rw [horder, List.foldl_nil] at h
  exact ⟨_, h, rfl, List.append_nil _, rfl, s.enumerated_route_single x [] len⟩

theorem enumeration_freeFound (hb : s.bridge = true) {x : Reached} (hx : x.claimed = false) (hid : x.id ∉ s.system)
    (hroom : s.members.length < 15) :
    ∃ t, Happens s (.systemEnumeration [x] [] len) t ∧ t.members = s.members ++ [x.id] ∧
      t.system = s.system ++ [x.id] ∧ tget [] t.routes x.id.toNat = tget [] s.routes x.id.toNat ++
        ((x.hops, x.port) :: x.more).map fun y => { port := y.2, hops := y.1, extra := 0 } := by
  have horder : claimOrder [x] = [x.id] := by simp [claimOrder, hx, insertReached]
  have h := enumeration_bridge [x] [] len ha hm hb
  rw [horder, List.foldl_cons, List.foldl_nil, List.append_nil, State.claim_of_not_mem (by exact hid) (by exact hroom)] at h
  exact ⟨_, h, rfl, rfl, s.enumerated_route_single x [] len⟩

/-- An identity word that is a DEVID of the system already is refused. -/
theorem enumeration_takenFound (hb : s.bridge = true) {x : Reached} (hx : x.claimed = false) (hid : x.id ∈ s.system) :
    ∃ t, Happens s (.systemEnumeration [x] [] len) t ∧ t.members = s.members ∧ t.system = s.system ∧
      t.refusedIds = s.refusedIds + 1 := by
  have horder : claimOrder [x] = [x.id] := by simp [claimOrder, hx, insertReached]
  have h := enumeration_bridge [x] [] len ha hm hb
  rw [horder, List.foldl_cons, List.foldl_nil, List.append_nil, State.claim_of_mem (by exact hid)] at h
  exact ⟨_, h, rfl, rfl, rfl⟩

end

/-- Of two devices found, the nearer one, or the one behind the lower port, is claimed first, whichever was found first. -/
theorem claimOrder_pair {x y : Reached} (hx : x.claimed = false) (hy : y.claimed = false)
    (hxy : x.hops < y.hops ∨ (x.hops = y.hops ∧ x.port < y.port)) {found : List Reached}
    (hf : found = [x, y] ∨ found = [y, x]) : claimOrder found = [x.id, y.id] := by
  have hfirst : reachedBefore x y = true := by simpa [reachedBefore] using hxy
  have hsecond : reachedBefore y x = false := by
    simp only [reachedBefore, Bool.or_eq_false_iff, Bool.and_eq_false_imp, decide_eq_false_iff_not, beq_iff_eq]
    omega
  rcases hf with rfl | rfl
  · simp [claimOrder, hx, hy, insertReached, hsecond]
  · simp [claimOrder, hx, hy, insertReached, hfirst]

theorem enumeration_pairFound {s : State} (len : Nat) (ha : s.aligned = false) (hm : s.measurements ≠ [])
    (hb : s.bridge = true) {found : List Reached} {a b : BitVec 20} (horder : claimOrder found = [a, b]) (hab : a ≠ b)
    (hsa : a ∉ s.system) (hsb : b ∉ s.system) (hroom : s.members.length < 14) :
    ∃ t, Happens s (.systemEnumeration found [] len) t ∧ t.members = s.members ++ [a, b] ∧
      t.system = s.system ++ [a, b] := by
  have h := enumeration_bridge found [] len ha hm hb
  obtain ⟨rs, henum⟩ := s.enumerated_routes found [] len
  rw [horder, List.foldl_cons, List.foldl_cons, List.foldl_nil, List.append_nil, henum,
    State.claim_claim hab (by exact hsa) (by exact hsb) (by exact hroom)] at h
  exact ⟨_, h, rfl, rfl⟩

/-- A device that does not bridge takes its own identity word and reports to its bridging device, the first of the others. -/
theorem enumeration_takesIdentity {s : State} (found : List Reached) (others : List (BitVec 20)) (len : Nat)
    (ha : s.aligned = false) (hm : s.measurements ≠ []) (hb : s.bridge = false) (hid : s.identity ∉ others) :
    ∃ t, Happens s (.systemEnumeration found others len) t ∧ t.devid = s.identity ∧ t.system = others ++ [s.identity] ∧
      ∃ ws, ws.length = 7 ∧ t.outbox = s.outbox ++ [{ dest := others.headD 0, body := .infoBlock s.identity ws }] := by
  have h := enumeration_identityFree found others len ha hm hb hid
  obtain ⟨rs, henum⟩ := s.enumerated_routes found others len
  have hsys : (others ++ [s.identity]).isEmpty = false := by simp
  simp only [State.sendInfo, henum, hb, hsys, Bool.false_or, Bool.false_eq_true, if_false] at h
  exact ⟨_, h, rfl, rfl, _, by simp, rfl⟩

/-! ## The end of reduced service (R428) -/

theorem State.rebaseDie_clusters (s : State) (d : Nat) : ∃ cs, s.rebaseDie d = { s with clusters := cs } := by
  have hfold : ∀ (l : List Nat) (s : State),
      ∃ cs, l.foldl (fun s c => s.rebase (24 * d + c)) s = { s with clusters := cs } := by
    intro l
    induction l with
    | nil => exact fun s => ⟨_, rfl⟩
    | cons c l ih => exact fun s => ih (s.rebase (24 * d + c))
  exact hfold _ s

theorem State.foldl_rebaseDie_clusters (ds : List Nat) (s : State) :
    ∃ cs, ds.foldl (fun s d => s.rebaseDie d) s = { s with clusters := cs } := by
  induction ds generalizing s with
  | nil => exact ⟨_, rfl⟩
  | cons d ds ih =>
    obtain ⟨cs, hdie⟩ := s.rebaseDie_clusters d
    obtain ⟨cs', hrest⟩ := ih (s.rebaseDie d)
    exact ⟨cs', by rw [List.foldl_cons, hrest, hdie]⟩

/-- A change of STATE changes besides it only what the clusters have counted. -/
theorem State.setService_clusters (s : State) (v : BitVec 2) :
    ∃ cs, s.setService v = { s with clusters := cs, service := v } := by
  unfold State.setService
  split
  · exact ⟨_, rfl⟩
  · obtain ⟨cs, h⟩ := State.foldl_rebaseDie_clusters (List.range 8) s
    exact ⟨cs, by rw [h]⟩

/-- The device's service is reduced: its own, or that of a device that has been claimed. -/
def State.Reduced (s : State) : Prop := s.service = 1 ∨ (s.service = 0 ∧ s.bridge = false ∧ s.system ≠ [])

/-- No launch is admitted. -/
def State.NoneAdmitted (s : State) : Prop := ∀ e, e ∈ s.launches → e.2.stage ≠ .admitted

/-- The guard of REDUCED_SERVICE_END. -/
theorem reducedServiceEnd_guard (s : State) :
    ((s.service == 1 || (s.service == 0 && !s.bridge && !s.system.isEmpty)) &&
      s.launches.all (fun (_, l) => l.stage != .admitted)) = true ↔ s.Reduced ∧ s.NoneAdmitted := by
  simp [State.Reduced, State.NoneAdmitted, and_assoc]

theorem exec_reducedServiceEnd (s : State) : exec .reducedServiceEnd s =
    occurs (if (s.service == 1 || (s.service == 0 && !s.bridge && !s.system.isEmpty)) &&
      s.launches.all (fun (_, l) => l.stage != .admitted) then some (s.setService 2).sendInfo else none) s := rfl

theorem reducedServiceEnd_happens {s : State} (hr : s.Reduced) (hq : s.NoneAdmitted) :
    ∃ t, Happens s .reducedServiceEnd t ∧ t.service = 2 ∧ t.mem = s.mem ∧ t.launches = s.launches := by
  obtain ⟨cs, hset⟩ := s.setService_clusters 2
  refine ⟨_, by rw [Happens, exec_reducedServiceEnd, if_pos ((reducedServiceEnd_guard s).2 ⟨hr, hq⟩)]; rfl, ?_⟩
  rw [hset]
  unfold State.sendInfo
  split <;> exact ⟨rfl, rfl, rfl⟩

theorem reducedServiceEnd_idle {s : State} (h : ¬ s.Reduced ∨ ¬ s.NoneAdmitted) : Idle s .reducedServiceEnd := by
  rw [Idle, exec_reducedServiceEnd, if_neg (mt (reducedServiceEnd_guard s).1 (not_and_or.2 h))]; rfl

/-- Settles O53: register writes and reads, enumeration in order, and the end of reduced service. -/
theorem registersAndEnumeration : Obligations.RegistersAndEnumeration := by
  unfold Obligations.RegistersAndEnumeration
  intro s space a v n m
  refine ⟨?_, ?_, ?_, ?_, ?_, ?_, ?_⟩
  · exact fun h => registerWrite_happens (s.regWrite_unaligned space v h)
  · intro hb
    refine ⟨?_, ?_, ?_, ?_, ?_, ?_, ?_, ?_, ?_, ?_, ?_⟩
    · exact fun hlo hhi h8 => registerWrite_happens (State.regWrite_cfgblock hb v hlo hhi h8)
    · exact fun k hk ha => mailboxWrite_happens (o := 8 + 8 * k) hb (by omega) (by omega) (by omega) (s.mboxWrite_arg hk v)
    · exact fun ha => mailboxWrite_happens (o := 0) hb ha (by omega) rfl (s.mboxWrite_head v)
    · exact fun ha hg => mailboxWrite_happens (o := 0x80) hb ha (by omega) rfl (State.mboxWrite_go_of_busy hg v)
    · rintro ha hg rfl hw
      refine ⟨?_, ?_, ?_⟩
      · exact fun hk => goWrite_answers hb hg ha (by rw [State.submit_of_not_known hk hw])
      · exact fun hk hm => ⟨goWrite_accepted hb hg ha hk hm,
          fun hok => goWrite_answers hb hg ha (submit_own_refused hk hm hok)⟩
      · exact fun hk hm => ⟨fun d hd => goWrite_happens hb hg ha (State.submit_member hk hm hd),
          fun hd => goWrite_answers hb hg ha (by rw [State.submit_noMember hk hm hd hw])⟩
    · rw [← m.read_go]
      exact State.bar0Read_mbox (o := 0x80) hb (by omega)
    · rw [← m.read_result]
      exact State.bar0Read_mbox (o := 0x100) hb (by omega)
    · intro k hk
      rw [← m.read_res hk, show 0x1000108 + 8 * k = 0x1000000 + (0x108 + 8 * k) by omega]
      exact State.bar0Read_mbox hb (by omega)
    · exact fun k hk => State.bar0Read_cfgblock hb hk
    · exact fun j k hj hj' hk => State.bar0Read_info hb hj hj' hk
    · exact fun k hlo hhi => State.bar0Read_unassigned hb hlo hhi
  · exact fun hb => ⟨registerWrite_happens (State.regWrite_bar0_of_not_bridge hb _ v), State.bar0Read_of_not_bridge hb _⟩
  · rintro rfl
    exact registerWrite_happens (s.regWrite_snapstep v)
  · intro found others len ha hm
    refine ⟨enumeration_stepsAligned found others len ha hm, ?_, ?_, ?_, ?_⟩
    · rintro hb rfl x rfl hx
      exact enumeration_claimedFound len ha hm hb hx
    · rintro hb rfl x rfl hx
      exact ⟨fun hid hroom => enumeration_freeFound len ha hm hb hx hid hroom,
        fun hid => enumeration_takenFound len ha hm hb hx hid⟩
    · rintro hb rfl x y hf hx hy hxy hid hsx hsy hroom
      exact enumeration_pairFound len ha hm hb (claimOrder_pair hx hy hxy hf) hid hsx hsy hroom
    · exact fun hb => ⟨enumeration_takesIdentity found others len ha hm hb,
        fun hid => ⟨_, enumeration_identityTaken found others len ha hm hb hid, s.enumerated_devid found others len⟩⟩
  · exact fun found others len h => enumeration_idle found others len h
  · exact ⟨reducedServiceEnd_happens, reducedServiceEnd_idle⟩

end Sys2Proof.Machine
end

section
/-! The control and status registers (O44): what CSRR, CSRW, CSRS and CSRC do with each number of R129. -/

namespace Sys2Proof.Machine

/-! ## Fields of words -/

theorem toNat_append_eq_add {n m : Nat} (x : BitVec n) (y : BitVec m) :
    (x ++ y).toNat = x.toNat * 2 ^ m + y.toNat := by
  rw [BitVec.toNat_append, ← Nat.shiftLeft_add_eq_or_of_lt y.isLt, Nat.shiftLeft_eq]

/-- The low four bits of a word replaced by 6 (R245). -/
theorem setBits_low_nibble (x : W64) : setBits x 3 0 6 = (x &&& ~~~15#64) ||| 6 := by
  have hmask : x &&& ~~~15#64 = (x >>> 4) <<< 4 := by
    ext i hi
    have h15 : (15#64)[i] = decide (i < 4) := by
      rw [← BitVec.getLsbD_eq_getElem, BitVec.getLsbD_ofNat, show (15 : Nat) = 2 ^ 4 - 1 from rfl,
        Nat.testBit_two_pow_sub_one]
      simp [hi]
    simp only [BitVec.getElem_and, BitVec.getElem_not, h15, BitVec.getElem_shiftLeft]
    by_cases h4 : i < 4
    · simp [h4]
    · simp [h4, BitVec.getLsbD_eq_getElem hi, show 4 + (i - 4) = i by omega]
  apply BitVec.eq_of_toNat_eq
  have hx := x.isLt
  have hhigh : x.toNat >>> 4 <<< 4 < 2 ^ 64 := by rw [Nat.shiftLeft_eq, Nat.shiftRight_eq_div_pow]; omega
  have hsum : x.toNat >>> 4 <<< 4 ||| 6 = x.toNat >>> 4 <<< 4 + 6 := (Nat.shiftLeft_add_eq_or_of_lt (by decide) _).symm
  rw [hmask, BitVec.toNat_or, BitVec.toNat_shiftLeft, BitVec.toNat_ushiftRight, Nat.mod_eq_of_lt hhigh]
  refine Eq.trans ?_ hsum.symm
  rw [Nat.shiftLeft_eq, Nat.shiftRight_eq_div_pow]
  simp only [setBits, bits, BitVec.toNat_ofNat]
  omega

/-- TROOT as 0xF08 shows it: bits 51 to 16 in their place. -/
theorem w64_bits_51_16 (x : W64) : w64 (bits x 51 16 * 65536) = x &&& 0x000FFFFFFFFF0000 := by
  ext i hi
  have hmask : (0x000FFFFFFFFF0000#64)[i] = (decide (16 ≤ i) && decide (i - 16 < 36)) := by
    rw [← BitVec.getLsbD_eq_getElem, BitVec.getLsbD_ofNat, show 0x000FFFFFFFFF0000 = (2 ^ 36 - 1) <<< 16 from rfl,
      Nat.testBit_shiftLeft, Nat.testBit_two_pow_sub_one]
    simp [hi]
  simp only [w64, bits, BitVec.getElem_and, BitVec.ofNat_eq_ofNat, hmask]
  rw [← BitVec.getLsbD_eq_getElem, BitVec.getLsbD_ofNat, show 65536 = 2 ^ 16 from rfl, Nat.testBit_mul_two_pow,
    Nat.testBit_mod_two_pow, Nat.testBit_div_two_pow, ← BitVec.getLsbD_eq_getElem]
  by_cases h16 : 16 ≤ i
  · simp [h16, hi, BitVec.getLsbD, Bool.and_comm]
  · simp [h16]

theorem w64_two_fields (a b : Nat) : w64 (a + b * 2 ^ 32) = BitVec.ofNat 64 a + (BitVec.ofNat 64 b <<< 32) := by
  apply BitVec.eq_of_toNat_eq
  simp only [w64, BitVec.toNat_add, BitVec.toNat_shiftLeft, BitVec.toNat_ofNat, Nat.shiftLeft_eq]
  omega

theorem and_not_zero_and (x y : W64) : x &&& ~~~(0 &&& y) = x := by
  rw [show (0 : W64) = 0#64 from rfl, BitVec.zero_and]; exact BitVec.and_allOnes

/-! ## What CSRR, CSRW, CSRS and CSRC do (R128, R238, R243) -/

/-- CSRR of an assigned number; CYCLE is read at level 0 only. -/
theorem csrr_puts {s : State} {d : XReg} {n : BitVec 12} {v : W64} (h : s.csrRead n = some v)
    (hn : n ≠ 0xF0A ∨ s.level = 0) : Puts s (.csrr d n) d v := by
  refine puts_of s _ d v ?_
  change execCsrr d n s = _
  have hdet : (n = 0xF0A && s.level ≠ 0) = false := by
    rcases hn with hn | hn
    · simpa using fun e => absurd e hn
    · simp [hn]
  simp only [execCsrr, h]
  rw [hdet, if_neg Bool.false_ne_true]

/-- CYCLE at levels 1 and 2 (R243). -/
theorem csrr_cycle_trapsOpen {s : State} (d : XReg) (hl : s.level ≠ 0) (hi : s.slot.inh = false) :
    TrapsOpen s (.csrr d 0xF0A) .determinism := by
  refine trapsOpen_of s _ _ ?_ rfl hi
  change execCsrr d 0xF0A s = _
  have hread : s.csrRead 0xF0A = some (s.cycleOf s.cur.core s.level) := rfl
  simp only [execCsrr, hread]
  rw [if_pos (by simp [hl])]

theorem csrr_traps_illegal {s : State} (d : XReg) {n : BitVec 12} (h : s.csrRead n = none) (hi : s.slot.inh = false) :
    Traps s (.csrr d n) .illegal 0 := by
  refine traps_of s _ _ _ ?_ rfl hi
  change execCsrr d n s = _
  simp only [execCsrr, h]

section
variable {s : State} {i : Instr} {n : BitVec 12} {val clr : W64 → W64}

theorem Slot.setCsr_pend (l : Slot) (n : BitVec 12) (v : W64) : (l.setCsr n v).pend = l.pend := by
  unfold Slot.setCsr; split <;> rfl

theorem Slot.setCsr_snap (l : Slot) (n : BitVec 12) (v : W64) : (l.setCsr n v).snap = l.snap := by
  unfold Slot.setCsr; split <;> rfl

variable (hx : exec i s = s.csrWrite n i.encode val clr)
include hx

/-- A write of an assigned CSR that is not read-only changes the slot's register, and nothing else. -/
theorem csrWrite_becomes {old : W64} (h : s.csrRead n = some old) (hn : n.toNat < 0xF00) :
    Becomes s i (s.slot.setCsr n (csrNew n old (val old) (clr old))).next := by
  refine becomes_of s i (fun l => (l.setCsr n (csrNew n old (val old) (clr old))).next) ?_ (Slot.setCsr_pend _ _ _)
    (Slot.setCsr_snap _ _ _)
  rw [hx]
  simp only [State.csrWrite, h, State.retire, State.mapSlot_mapSlot]
  rw [if_neg (by omega)]

theorem csrWrite_trapsOpen_priv {old : W64} (h : s.csrRead n = some old) (hn : 0xF00 ≤ n.toNat)
    (hi : s.slot.inh = false) : TrapsOpen s i .priv := by
  refine trapsOpen_of s i _ ?_ rfl hi
  rw [hx]
  simp only [State.csrWrite, h]
  rw [if_pos hn]

theorem csrWrite_traps_illegal (h : s.csrRead n = none) (hi : s.slot.inh = false) : Traps s i .illegal 0 := by
  refine traps_of s i _ _ ?_ rfl hi
  rw [hx]
  simp only [State.csrWrite, h]

end

/-! ## The registers of R129 -/

/-- Bits hi to lo of a word. -/
def fieldOf (x : W64) (hi lo : Nat) : Nat := (x.extractLsb' lo (hi - lo + 1)).toNat

theorem fieldOf_eq_bits (x : W64) {hi lo : Nat} (h : lo ≤ hi) : fieldOf x hi lo = bits x hi lo := by
  rw [fieldOf, bits, BitVec.extractLsb'_toNat, Nat.shiftRight_eq_div_pow, show hi - lo + 1 = hi + 1 - lo by omega]

/-- The registers of a slot: number, RW fields, value, and the slot after a store in those fields. -/
def State.slotCsrs (s : State) : List (BitVec 12 × W64 × W64 × (W64 → Slot)) :=
  let l := s.slot
  [(0x7C0, 0xFFFF, l.ageLimit, fun x => { l with ageLimit := if fieldOf x 15 0 < 16 then 16 else x }),
    (0x7C1, 1, l.gangctl, fun x => { l with gangctl := x }),
    (0x7C2, 0xFFFF, l.parklim, fun x => { l with parklim := if fieldOf x 15 0 = 0 then 1 else x }),
    (0x7C3, 0x1F0001FF, l.fpctl, fun x => { l with fpctl := if 5 ≤ fieldOf x 2 0 then x &&& ~~~7#64 else x }),
    (0x7C4, 0xFFFF, l.accanch, fun x => { l with accanch := x }),
    (0x7C5, 0xFF, l.vcfg, fun x => { l with vcfg := if 12 ≤ fieldOf x 3 0 then (x &&& ~~~15#64) ||| 6 else x }),
    (0x7C6, ~~~3#64, l.tvec, fun x => { l with tvec := x }), (0x7C7, 0, l.tcause, fun _ => l),
    (0x7C8, ~~~0#64, l.tpc, fun x => { l with tpc := x }), (0x7C9, 0, l.tval, fun _ => l), (0x7CA, 0, l.tword, fun _ => l),
    (0x7CB, 0xFFFFFFFF00000000, l.tstat, fun x => { l with tstat := x })]

/-- CORE as fields of fixed width (R21). -/
def State.coreFields (s : State) : W64 :=
  (0#34 ++ (s.devid ++ (BitVec.ofNat 3 (s.cur.core / 96) ++ (BitVec.ofNat 5 (s.cur.core / 4 % 24) ++
    BitVec.ofNat 2 (s.cur.core % 4)))) : BitVec (34 + (20 + (3 + (5 + 2)))))

/-- SLOTINFO as fields of fixed width (R31). -/
def State.slotInfoFields (s : State) : W64 :=
  (0#55 ++ (BitVec.ofBool (s.launchOf s.cur).cgran ++ ((s.launchOf s.cur).det ++ (s.slot.entry ++
    ((match s.slot.role with | .epilogue => 0#2 | .arith => 1#2 | .loader => 2#2) ++ BitVec.ofNat 2 s.cur.slot.val)))) :
      BitVec (55 + (1 + (2 + (2 + (2 + 2))))))

/-- The read-only registers whose value needs no condition. -/
def State.fixedCsrs (s : State) : List (BitVec 12 × W64) :=
  let c := s.here
  [(0xF01, s.coreFields), (0xF02, s.slot.task.setWidth 64), (0xF03, s.slotInfoFields),
    (0xF04, c.b0.setWidth 64), (0xF05, c.b1.setWidth 64), (0xF06, c.b2.setWidth 64), (0xF07, if c.degraded then 1 else 0),
    (0xF08, (s.queueOf s.cur).troot &&& 0x000FFFFFFFFF0000), (0xF09, c.mxw.setWidth 64), (0xF0B, s.gstep)]

/-- What O44 says of one state and one register operand. -/
def SpecialRegistersAt (s : State) (a : XReg) : Prop :=
  let v := s.rx a
  (∀ n m old set, (n, m, old, set) ∈ s.slotCsrs →
    Puts s (.csrr a n) a old ∧
    Becomes s (.csrw a n)
      (set ((old &&& ~~~m &&& ~~~(if n = 0x7C3 then v &&& 0x1F0000 else 0)) ||| (v &&& m))).next ∧
    Becomes s (.csrs a n) (set ((old &&& ~~~m) ||| ((old ||| v) &&& m))).next ∧
    Becomes s (.csrc a n) (set ((old &&& ~~~m) ||| ((old &&& ~~~v) &&& m))).next) ∧
  (∀ n old, (n, old) ∈ s.fixedCsrs → Puts s (.csrr a n) a old) ∧
  (s.level = 0 → Puts s (.csrr a 0xF0A) a (s.cycleOf s.cur.core 0)) ∧
  (s.level ≠ 0 → s.slot.inh = false → TrapsOpen s (.csrr a 0xF0A) .determinism) ∧
  (s.steplen < 2 ^ 17 →
    let k := s.cluster (s.cur.core / 4)
    let slack := if s.level = 2 then (s.queueOf s.cur).slack % 65536 else 0
    let scyc := if s.level = 2 then
        min (s.refclk - s.stepBase + (k.stop - s.refclk) - k.spent)
          (s.steplen - (s.queue ((s.die (s.cur.core / 96)).d2.getD 0)).slack)
      else s.refclk - s.stepBase
    Puts s (.csrr a 0xF0C) a (BitVec.ofNat 64 s.steplen + (BitVec.ofNat 64 (scyc % 65536) <<< 32)) ∧
    Puts s (.csrr a 0xF0D) a (BitVec.ofNat 64 slack + (BitVec.ofNat 64 (k.spent % 65536) <<< 32))) ∧
  (s.slot.inh = false → ∀ n : BitVec 12, ∀ i, i = .csrw a n ∨ i = .csrs a n ∨ i = .csrc a n →
    (0xF01 ≤ n.toNat → n.toNat ≤ 0xF0D → TrapsOpen s i .priv) ∧
    (n.toNat < 0x7C0 ∨ (0x7CB < n.toNat ∧ n.toNat < 0xF01) ∨ 0xF0D < n.toNat →
      Traps s i .illegal 0 ∧ Traps s (.csrr a n) .illegal 0))

/-- O44 is `SpecialRegistersAt` of every state, those whose executing core the device does not have among them. -/
theorem specialRegisters_iff : Obligations.SpecialRegisters ↔ ∀ s a, SpecialRegistersAt s a := Iff.rfl

/-- The field layout of CORE is that of the device's own cores, 0 to 767. -/
theorem State.coreCsr_eq_coreFields {s : State} (h : s.cur.core < 768) : s.coreCsr s.cur.core = s.coreFields := by
  have hd := s.devid.isLt
  apply BitVec.eq_of_toNat_eq
  rw [State.coreFields]
  simp only [toNat_append_eq_add, BitVec.toNat_ofNat, State.coreCsr, w64, dieOf, clusterOf]
  omega

theorem State.slotInfo_eq_slotInfoFields (s : State) : s.slotInfo s.cur = s.slotInfoFields := by
  have hd := (s.launchOf s.cur).det.isLt
  have he := s.slot.entry.isLt
  have hk := s.cur.slot.isLt
  have hrole : (match s.slot.role with | .epilogue => 0#2 | .arith => 1#2 | .loader => 2#2).toNat = roleCode s.slot.role := by
    cases s.slot.role <;> rfl
  have hrole' : roleCode s.slot.role < 3 := by cases s.slot.role <;> decide
  have hc : (BitVec.ofBool (s.launchOf s.cur).cgran).toNat = b2n (s.launchOf s.cur).cgran := by
    cases (s.launchOf s.cur).cgran <;> rfl
  have hc' : b2n (s.launchOf s.cur).cgran < 2 := by cases (s.launchOf s.cur).cgran <;> decide
  apply BitVec.eq_of_toNat_eq
  rw [State.slotInfoFields]
  simp only [toNat_append_eq_add, hrole, hc, BitVec.toNat_ofNat]
  change BitVec.toNat (w64 (b2n (s.launchOf s.cur).cgran * 256 + (s.launchOf s.cur).det.toNat * 64 + s.slot.entry.toNat * 16 +
    roleCode s.slot.role * 4 + s.cur.slot.val)) = _
  simp only [w64, BitVec.toNat_ofNat]
  omega

theorem csrRead_fixed {s : State} (hcore : s.cur.core < 768) :
    ∀ row ∈ s.fixedCsrs, s.csrRead row.1 = some row.2 ∧ row.1 ≠ 0xF0A := by
  simp only [State.fixedCsrs, List.forall_mem_cons]
  refine ⟨⟨congrArg some (State.coreCsr_eq_coreFields hcore), by decide⟩, ⟨rfl, by decide⟩,
    ⟨congrArg some s.slotInfo_eq_slotInfoFields, by decide⟩, ⟨rfl, by decide⟩, ⟨rfl, by decide⟩, ⟨rfl, by decide⟩,
    ⟨congrArg some ?_, by decide⟩, ⟨congrArg some (w64_bits_51_16 _), by decide⟩, ⟨rfl, by decide⟩, ⟨rfl, by decide⟩,
    List.forall_mem_nil _⟩
  cases s.here.degraded <;> rfl

/-- A register of the slot: its number reads its value, its RW fields are those of a mask, and a store in them gives a
slot. -/
structure CsrRow (s : State) (n : BitVec 12) (m old : W64) (set : W64 → Slot) : Prop where
  read : s.csrRead n = some old
  writable : n.toNat < 0xF00
  mask : csrRw n = m
  store : ∀ x, s.slot.setCsr n (csrLegal n x) = set x

theorem csrRow_of_mem (s : State) : ∀ row ∈ s.slotCsrs, CsrRow s row.1 row.2.1 row.2.2.1 row.2.2.2 := by
  simp only [State.slotCsrs, List.forall_mem_cons]
  refine ⟨⟨rfl, by decide, rfl, fun x => ?_⟩, ⟨rfl, by decide, rfl, fun x => rfl⟩, ⟨rfl, by decide, rfl, fun x => ?_⟩,
    ⟨rfl, by decide, rfl, fun x => ?_⟩, ⟨rfl, by decide, rfl, fun x => rfl⟩, ⟨rfl, by decide, rfl, fun x => ?_⟩,
    ⟨rfl, by decide, rfl, fun x => rfl⟩, ⟨rfl, by decide, rfl, fun x => rfl⟩, ⟨rfl, by decide, rfl, fun x => rfl⟩,
    ⟨rfl, by decide, rfl, fun x => rfl⟩, ⟨rfl, by decide, rfl, fun x => rfl⟩, ⟨rfl, by decide, rfl, fun x => rfl⟩,
    List.forall_mem_nil _⟩
  · rw [fieldOf_eq_bits x (by decide)]; rfl
  · rw [fieldOf_eq_bits x (by decide)]; rfl
  · rw [fieldOf_eq_bits x (by decide)]; rfl
  · rw [fieldOf_eq_bits x (by decide), ← setBits_low_nibble]; rfl

section
variable {s : State} {n : BitVec 12} {m old : W64} {set : W64 → Slot} (h : CsrRow s n m old set)
include h

/-- A write of a register: its RW fields take `val`, and its W1C fields are cleared where `clr` is 1 (R10). -/
theorem CsrRow.becomes {i : Instr} {val clr : W64 → W64} (hx : exec i s = s.csrWrite n i.encode val clr) :
    Becomes s i (set ((old &&& ~~~m &&& ~~~(clr old &&& csrW1c n)) ||| (val old &&& m))).next := by
  have hw := csrWrite_becomes hx h.read h.writable
  rwa [csrNew, h.mask, h.store] at hw

theorem CsrRow.puts (a : XReg) : Puts s (.csrr a n) a old := by
  refine csrr_puts h.read (.inl ?_)
  rintro rfl
  exact absurd h.writable (by decide)

theorem CsrRow.csrw_becomes (a : XReg) : Becomes s (.csrw a n)
    (set ((old &&& ~~~m &&& ~~~(if n = 0x7C3 then s.rx a &&& 0x1F0000 else 0)) ||| (s.rx a &&& m))).next := by
  have hclr : (if n = 0x7C3 then s.rx a &&& 0x1F0000 else 0) = s.rx a &&& csrW1c n := by
    unfold csrW1c
    split
    · rfl
    · exact BitVec.and_zero.symm
  rw [hclr]
  exact h.becomes (i := .csrw a n) (val := fun _ => s.rx a) (clr := fun _ => s.rx a) rfl

theorem CsrRow.csrs_becomes (a : XReg) :
    Becomes s (.csrs a n) (set ((old &&& ~~~m) ||| ((old ||| s.rx a) &&& m))).next := by
  have hw := h.becomes (i := .csrs a n) (val := fun old => old ||| s.rx a) (clr := fun _ => 0) rfl
  rwa [and_not_zero_and] at hw

theorem CsrRow.csrc_becomes (a : XReg) :
    Becomes s (.csrc a n) (set ((old &&& ~~~m) ||| ((old &&& ~~~(s.rx a)) &&& m))).next := by
  have hw := h.becomes (i := .csrc a n) (val := fun old => old &&& ~~~(s.rx a)) (clr := fun _ => 0) rfl
  rwa [and_not_zero_and] at hw

end

theorem csrRead_eq_none (s : State) {n : BitVec 12}
    (h : n.toNat < 0x7C0 ∨ (0x7CB < n.toNat ∧ n.toNat < 0xF01) ∨ 0xF0D < n.toNat) : s.csrRead n = none := by
  unfold State.csrRead
  dsimp only
  split
  case h_26 => rfl
  all_goals omega

theorem csrRead_eq_some (s : State) {n : BitVec 12} (hlo : 0xF01 ≤ n.toNat) (hhi : n.toNat ≤ 0xF0D) :
    ∃ old, s.csrRead n = some old := by
  unfold State.csrRead
  dsimp only
  generalize n.toNat = k at hlo hhi ⊢
  interval_cases k <;> exact ⟨_, rfl⟩

theorem exec_csrWrite (s : State) {a : XReg} {n : BitVec 12} {i : Instr}
    (h : i = .csrw a n ∨ i = .csrs a n ∨ i = .csrc a n) : ∃ val clr, exec i s = s.csrWrite n i.encode val clr := by
  rcases h with rfl | rfl | rfl
  · exact ⟨fun _ => s.rx a, fun _ => s.rx a, rfl⟩
  · exact ⟨fun old => old ||| s.rx a, fun _ => 0, rfl⟩
  · exact ⟨fun old => old &&& ~~~(s.rx a), fun _ => 0, rfl⟩

/-- O44 holds of every state in which a core of the device executes (R15, R20: 768 cores). -/
theorem specialRegistersAt_of_core_lt {s : State} (hcore : s.cur.core < 768) (a : XReg) : SpecialRegistersAt s a := by
  refine ⟨?_, ?_, ?_, ?_, ?_, ?_⟩
  · intro n m old set hrow
    have h := csrRow_of_mem s _ hrow
    exact ⟨h.puts a, h.csrw_becomes a, h.csrs_becomes a, h.csrc_becomes a⟩
  · intro n old hrow
    obtain ⟨hread, hn⟩ := csrRead_fixed hcore _ hrow
    exact csrr_puts hread (.inl hn)
  · intro hl
    have hread : s.csrRead 0xF0A = some (s.cycleOf s.cur.core s.level) := rfl
    exact csrr_puts (hl ▸ hread) (.inr hl)
  · exact csrr_cycle_trapsOpen a
  · intro hlen k slack scyc
    have hstep : s.csrRead 0xF0C = some (w64 (s.steplen % 2 ^ 17 + scyc % 65536 * 2 ^ 32)) := rfl
    have hslack : s.csrRead 0xF0D = some (w64 (slack + k.spent % 65536 * 2 ^ 32)) := rfl
    rw [Nat.mod_eq_of_lt hlen, w64_two_fields] at hstep
    rw [w64_two_fields] at hslack
    exact ⟨csrr_puts hstep (.inl (by decide)), csrr_puts hslack (.inl (by decide))⟩
  · intro hi n i hform
    obtain ⟨val, clr, hexec⟩ := exec_csrWrite s hform
    refine ⟨fun hlo hhi => ?_, fun hn => ?_⟩
    · obtain ⟨old, hread⟩ := csrRead_eq_some s hlo hhi
      exact csrWrite_trapsOpen_priv hexec hread (by omega) hi
    · have hread := csrRead_eq_none s hn
      exact ⟨csrWrite_traps_illegal hexec hread hi, csrr_traps_illegal a hread hi⟩

/-- A state whose executing core, number 768, the device does not have. -/
def State.beyondCores : State := { State.reset with cur := ⟨768, 0⟩ }

/-- There CSRR of CORE gives the die number 8 in a field of three bits, and so a carry into DEVID. -/
theorem coreFields_beyondCores : State.beyondCores.coreCsr 768 ≠ State.beyondCores.coreFields := by decide

/-- Refutes O44, as it is quantified: over every state, and so over executing cores that the device does not have. In
`State.beyondCores` CSRR of CORE (R21) puts 0x400 in x1, where the fields that the statement writes out hold 0. Of every
state in which one of the device's 768 cores executes, the statement holds (`specialRegistersAt_of_core_lt`). -/
theorem not_specialRegisters : ¬ Obligations.SpecialRegisters := by
  unfold Obligations.SpecialRegisters
  intro h
  obtain ⟨-, hfixed, -⟩ := specialRegisters_iff.1 h State.beyondCores 1
  obtain ⟨t, hexec, -, -, ⟨hfields, -, -⟩, -⟩ := hfixed 0xF01 _ List.mem_cons_self
  obtain ⟨u, huexec, -, -, ⟨hvalue, -, -⟩, -⟩ :=
    csrr_puts (s := State.beyondCores) (d := 1) (n := 0xF01) rfl (.inl (by decide))
  have htu : t = u := Host.Outcome.next.inj (hexec.symm.trans huexec)
  rw [htu] at hfields
  exact coreFields_beyondCores (hvalue.symm.trans hfields)

end Sys2Proof.Machine
end

section
/-! The state after reset (O6). -/

namespace Sys2Proof.Machine

/-- Settles O6: of reset every table is empty, so each numbered part holds its part's reset value. -/
theorem resetState : Obligations.ResetState := by
  unfold Obligations.ResetState
  have hslot : ∀ g (k : Fin 4), (State.reset.core g).slot k = Slot.reset := fun g k => by
    change (Vector.replicate 4 Slot.reset)[k] = Slot.reset
    exact Vector.getElem_replicate ..
  refine ⟨?_, fun _ => rfl, fun g k => ?_, fun _ => ⟨rfl, rfl, rfl, rfl⟩, fun _ _ => rfl, fun _ => rfl,
    rfl, rfl, rfl, rfl, rfl, rfl, rfl⟩
  · exact ⟨rfl, by decide, by decide, by decide, by decide⟩
  · rw [hslot g k]
    exact ⟨rfl, rfl, rfl⟩

end Sys2Proof.Machine
end

section
/-! What one step runs (O4). -/

namespace Sys2Proof.Machine

/-! ## The fetch (R188) -/

/-- A check that stops after step 5 of R174 passes at the location it has found. -/
theorem State.checkLate_early (s : State) (r : SlotRef) (va loc n : Nat) (p : Option (Nat × Nat)) (k : Access) :
    s.checkLate r va loc n p k .early = .ok loc s := rfl

/-- The checks of a translated access that stop after step 5 neither stall nor ask the bridging device. -/
theorem State.checkTranslated_early (s : State) (r : SlotRef) (va n : Nat) (k : Access) :
    (∀ w, s.checkTranslated r va n k .early ≠ .stall w) ∧ ∀ l u, s.checkTranslated r va n k .early ≠ .away l u := by
  unfold State.checkTranslated
  dsimp only
  constructor <;> intros <;> repeat' split
  all_goals simp [State.checkLate_early]

/-- A fetch never meets a window (R67): it is a translated access. -/
theorem State.check_fetch (s : State) (r : SlotRef) (va n : Nat) :
    s.check r va n .fetch .early = .trap .poolRange ∨
      s.check r va n .fetch .early = s.checkTranslated r va n .fetch .early := by
  unfold State.check
  split
  · exact .inl (by simp)
  · split
    · exact .inl (by simp)
    · exact .inr rfl

theorem State.fetch_ne_stall (s : State) (r : SlotRef) : s.fetch r ≠ .stall := by
  obtain ⟨hstall, haway⟩ := s.checkTranslated_early r (s.slotAt r).pc.toNat 4 .fetch
  unfold State.fetch
  dsimp only
  split
  · simp
  · rcases s.check_fetch r (s.slotAt r).pc.toNat 4 with h | h <;> rw [h]
    · simp
    · generalize s.checkTranslated r (s.slotAt r).pc.toNat 4 .fetch .early = c at hstall haway
      cases c with
      | ok loc t => dsimp only; split <;> [simp; (split <;> simp)]
      | trap c => simp
      | park e => simp
      | stall w => exact absurd rfl (hstall w)
      | away l u => exact absurd rfl (haway l u)

section
variable {s v : State} {r : SlotRef} {loc : Nat} (ha : (s.slotAt r).pc.toNat % 4 = 0)
variable (hc : s.check r (s.slotAt r).pc.toNat 4 .fetch Mode.early = .ok loc v)
include ha hc

/-- A fetch whose checks pass, and which need not ask the bridging device, reads the four bytes at its location. -/
theorem State.fetch_of_ok (hp : loc / 64 ∉ v.poison)
    (hh : hostLoc loc = false ∨ v.bridge = true ∨ v.hostBack r 5 loc = true) :
    s.fetch r = .word (BitVec.ofNat 32 (natOfBytes ((List.range 4).map fun j => v.fetchByte r (loc + j))))
      (if hostLoc loc then v.doneHost r 5 else v) := by
  have haway : (!v.bridge && hostLoc loc && !(v.hostBack r 5 loc)) = false := by
    rcases hh with h | h | h <;> simp [h]
  have hpoison : v.poison.contains (loc / 64) = false := by simpa using hp
  simp only [State.fetch, ha, hc, haway, hpoison]
  rfl

theorem State.fetch_of_away (hh : hostLoc loc = true) (hb : v.bridge = false) (hback : v.hostBack r 5 loc = false) :
    s.fetch r = .away loc := by
  simp [State.fetch, ha, hc, hh, hb, hback]

end

/-! ## The issue (R57, R138, R281) -/

/-- With nothing due before the issue, the slot that issues next takes its turn. -/
theorem step_of_nextIssue {s : State} {r : SlotRef} (ha : s.agenda = []) (hf : s.fcur = none) (hu : s.urgent = none)
    (hn : s.nextIssue = some r) : step s = mapNext (·.afterIssue s r) (s.turn r).runSlot := by
  simp only [step, State.advance, ha, hf, State.runDevice, hu, hn]
  rfl

theorem State.cur_turn (s : State) (r : SlotRef) : (s.turn r).cur = r := by
  unfold State.turn
  dsimp only
  split <;> rfl

/-- Inside a chain of LIX, and where no trap is due, a slot's turn is its next instruction (R138, R281). -/
theorem State.runSlot_eq_runNext {u : State} (h : u.slot.dueTrap = none ∨ u.slot.pfx ≠ []) : u.runSlot = u.runNext := by
  unfold State.runSlot
  dsimp only
  by_cases hp : u.slot.pfx = []
  · simp [hp, h.resolve_right (not_not.2 hp)]
  · simp [hp]

section
variable {v : State} {w : W32} {i : Instr}

theorem decodeOr_of_ok (h : decode w = .ok i) : decodeOr w = i := by simp [decodeOr, h]

theorem decodeOr_of_error {e : _} (h : decode w = .error e) : decodeOr w = .illegal w := by simp [decodeOr, h]

/-- A word that may follow the chain it stands in, and whose registers no queued record will write, is executed. -/
theorem State.runWord_exec (hd : decodeOr w = i) (hf : v.slot.pfx = [] ∨ mayFollow i = true)
    (hi : v.interlocked i = false) : v.runWord w = exec i v := by
  have hfollow : (!v.slot.pfx.isEmpty && !(mayFollow i)) = false := by rcases hf with h | h <;> simp [h]
  simp [State.runWord, hd, hfollow, hi]

theorem State.runWord_stalls (hd : decodeOr w = i) (hf : v.slot.pfx = [] ∨ mayFollow i = true)
    (hi : v.interlocked i = true) : v.runWord w = .next (v.stallOn .operand) := by
  have hfollow : (!v.slot.pfx.isEmpty && !(mayFollow i)) = false := by rcases hf with h | h <;> simp [h]
  simp [State.runWord, hd, hfollow, hi]

/-- A word that may not follow a LIX raises PREFIX, or ILLEGAL where it is ILLEGAL by itself (R139). -/
theorem State.runWord_prefixed (hd : decodeOr w = i) (hp : v.slot.pfx ≠ []) (hf : mayFollow i = false) :
    v.runWord w = .next (match v.wordIllegal i with
      | some x => v.trap .illegal x w
      | none => v.trapOpen .prefixed w) := by
  simp [State.runWord, hd, hp, hf] <;> rfl

/-- A word that decodes to nothing waits for no register. -/
theorem State.interlocked_illegal (v : State) (w : W32) : v.interlocked (.illegal w) = false := rfl

end

/-! ## After the issue (R57, R58, R433) -/

/-- A table with every entry changed, by a change that leaves what it does not list. -/
theorem tget_map {α : Type} (f : Nat → α → α) (d : α) (t : Table α) (n : Nat) (h : f n d = d) :
    tget d (t.map fun (k, a) => (k, f k a)) n = f n (tget d t n) := by
  induction t with
  | nil => exact h.symm
  | cons e t ih =>
    obtain ⟨k, a⟩ := e
    by_cases hk : k = n
    · subst hk; simp [tget]
    · simpa [tget, hk] using ih

theorem Core.slot_mapSlots (c : Core) (f : Slot → Slot) (k : Fin 4) : (c.mapSlots f).slot k = f (c.slot k) := by
  simp [Core.slot, Core.mapSlots]

theorem Core.reset_mapSlots {f : Slot → Slot} (h : f Slot.reset = Slot.reset) : Core.reset.mapSlots f = Core.reset := by
  simp [Core.mapSlots, Core.reset, h]

section
variable {t : State} {r : SlotRef}

theorem State.endDying_of_not_dying (hd : (t.slotAt r).dying = false) : t.endDying r = t := by
  simp [State.endDying, hd]

theorem State.settle_of_stalled (h : (t.slotAt r).stalled = true) : t.settle r = t := by
  simp [State.settle, h]

/-- The stalled slots of the cluster may try again after an instruction that did not stall. -/
theorem State.slotAt_settle (h : (t.slotAt r).stalled = false) (q : SlotRef) :
    (t.settle r).slotAt q =
      if q.core / 4 = r.core / 4 then { t.slotAt q with stalled := false } else t.slotAt q := by
  have hreset : ∀ g, (if clusterOf g = clusterOf r.core then Core.reset.mapSlots fun l => { l with stalled := false }
      else Core.reset) = Core.reset := fun g => by rw [Core.reset_mapSlots rfl, ite_self]
  have hcore : (t.settle r).core q.core =
      if clusterOf q.core = clusterOf r.core then (t.core q.core).mapSlots fun l => { l with stalled := false }
      else t.core q.core := by
    unfold State.settle
    rw [h, if_neg Bool.false_ne_true]
    exact tget_map (fun g (c : Core) =>
      if clusterOf g = clusterOf r.core then c.mapSlots fun l => { l with stalled := false } else c) _ _ _ (hreset _)
  unfold State.slotAt
  rw [hcore]
  by_cases hk : clusterOf q.core = clusterOf r.core
  · rw [if_pos hk, Core.slot_mapSlots, if_pos (by exact hk)]
  · rw [if_neg hk, if_neg (by exact hk)]

theorem State.settle_cores (t : State) (r : SlotRef) : { t.settle r with cores := t.cores } = t := by
  unfold State.settle
  split <;> rfl

/-- An issue that did not stall lets the other slots of the cluster go on, and ends there. -/
theorem State.afterIssue_of_not_stalled (s : State) (hd : (t.slotAt r).dying = false)
    (h : (t.slotAt r).stalled = false) : t.afterIssue s r = t.settle r := by
  have hslot : (t.settle r).slotAt r = { t.slotAt r with stalled := false } := by
    rw [State.slotAt_settle h, if_pos rfl]
  have hback : (t.settle r).giveBack s r = t.settle r := by simp [State.giveBack, hslot]
  rw [State.afterIssue, hback, State.endDying_of_not_dying]
  rw [hslot]
  exact hd

/-- A slot that stalls on a fixed-timing die loses its cycle (R58). -/
theorem State.afterIssue_of_stalled_fixed {s : State} (hd : (t.slotAt r).dying = false)
    (h : (t.slotAt r).stalled = true) (hf : s.fixed r.core = true) : t.afterIssue s r = t := by
  have hback : t.giveBack s r = t := by simp [State.giveBack, hf]
  rw [State.afterIssue, State.settle_of_stalled h, hback, State.endDying_of_not_dying hd]

theorem Core.dying_unaged (c old : Core) (k j : Fin 4) : ((c.unaged old k).slot j).dying = (c.slot j).dying := by
  simp [Core.slot, Core.unaged]

/-- A slot that stalls on an elastic clock gives its core's cycle to another slot (R57). -/
theorem State.afterIssue_of_stalled_elastic {s : State} (hd : (t.slotAt r).dying = false)
    (h : (t.slotAt r).stalled = true) (hf : s.fixed r.core = false) :
    t.afterIssue s r = { t.modCore r.core (fun c => c.unaged (s.core r.core) r.slot) with sweep := r.core } := by
  have hback : t.giveBack s r =
      { t.modCore r.core (fun c => c.unaged (s.core r.core) r.slot) with sweep := r.core } := by
    simp [State.giveBack, hf, h]
  have hdying : ((t.modCore r.core fun c => c.unaged (s.core r.core) r.slot).slotAt r).dying = false := by
    rw [State.slotAt, State.core_modCore_same, Core.dying_unaged]
    exact hd
  rw [State.afterIssue, State.settle_of_stalled h, hback, State.endDying_of_not_dying (by exact hdying)]

end

/-- A queue core that is awake runs the word of its custom instruction (R422). -/
theorem step_of_fcur {s : State} {n : Nat} {w : W32} {i : Instr} (ha : s.agenda = []) (hf : s.fcur = some n)
    (hw : (s.fcore n).fetch = .custom w) (hd : decodeFlambeol w = .ok i) : step s = exec i s := by
  simp only [step, State.advance, ha, hf, State.runFcore, hw, hd]

theorem step_of_agenda {s : State} {i : Instr} {rest : List Instr} (h : s.agenda = i :: rest) :
    step s = exec i { s with agenda := rest } := by
  simp only [step, State.advance, h]

/-- Settles O4, by cases on what the fetch of the slot's turn comes to. -/
theorem stepRunsDecodedWord : Obligations.StepRunsDecodedWord := by
  unfold Obligations.StepRunsDecodedWord
  refine ⟨?_, ?_, ?_, ?_, ?_⟩
  · intro s r v loc ha hc
    exact ⟨State.fetch_of_ok ha hc, State.fetch_of_away ha hc⟩
  · rintro s r ha hf hurgent hn u rfl hdue
    have hcur := s.cur_turn r
    have hstep : step s = mapNext (·.afterIssue s r) (s.turn r).runNext := by
      rw [step_of_nextIssue ha hf hurgent hn, State.runSlot_eq_runNext hdue]
    have hword : ∀ {w v}, (s.turn r).fetch r = .word w v → step s = mapNext (·.afterIssue s r) (v.runWord w) := by
      intro w v hw
      rw [hstep, State.runNext, hcur, hw]
    refine ⟨?_, ?_, ?_, ?_, ?_, ?_, ?_, ?_, (s.turn r).fetch_ne_stall r⟩
    · intro w v i hw hd hfollow hi
      rw [hword hw, State.runWord_exec (decodeOr_of_ok hd) hfollow hi]
    · intro w v e hw hd
      rw [hword hw, State.runWord_exec (decodeOr_of_error hd) (.inr rfl) (v.interlocked_illegal w)]
    · intro w v i hw hd hp hfollow hill
      rw [hword hw, State.runWord_prefixed (decodeOr_of_ok hd) hp hfollow, hill]
      rfl
    · intro w v i x hw hd hp hfollow hill
      rw [hword hw, State.runWord_prefixed (decodeOr_of_ok hd) hp hfollow, hill]
      rfl
    · intro w v i hw hd hfollow hi
      rw [hword hw, State.runWord_stalls (decodeOr_of_ok hd) hfollow hi]
      rfl
    · intro c hw
      rw [hstep, State.runNext, hcur, hw]
      rfl
    · intro e hw
      rw [hstep, State.runNext, hcur, hw]
      rfl
    · intro n hw
      rw [hstep, State.runNext, hcur, hw]
      rfl
  · intro s t r hd
    exact ⟨fun h => ⟨State.afterIssue_of_not_stalled s hd h, t.settle_cores r, State.slotAt_settle h⟩,
      State.afterIssue_of_stalled_fixed hd, State.afterIssue_of_stalled_elastic hd⟩
  · exact fun s n w i => step_of_fcur
  · exact fun s i rest => step_of_agenda

end Sys2Proof.Machine
end

section
/-! Gangs at their home (O32): where two slots hold one task. -/

namespace Sys2Proof.Machine

/-- A slot whose task waits at a BAR. -/
def Slot.atBar (uid : Nat) : Slot := { Slot.reset with occ := true, uid := uid, wait := .bar 1 0 0 }

/-- A core whose slot 0 holds task 7, which waits at a BAR. -/
def Core.holdsBar : Core := Core.reset.setSlot 0 (Slot.atBar 7)

/-- A core whose slot 0 holds task 7 too, which runs, and whose slot 1 holds task 8, which waits at a BAR. -/
def Core.holdsCopy : Core :=
  (Core.reset.setSlot 0 { Slot.reset with occ := true, uid := 7 }).setSlot 1 (Slot.atBar 8)

/-- Task 7 arrives as the last member of its gang, after task 8; the table of cores lists core 5 before core 3, and both
hold task 7. -/
def State.lastArrival : State := { State.reset with
  cores := [(5, Core.holdsBar), (3, Core.holdsCopy)]
  dies := [(0, { Die.reset with
    gangs := [{ kind := .arrive, launch := 0, gang := 0, core := 5, slot := 0, uid := 7, due := 0 }] })]
  launches := [(0, { Launch.blank with gangs := [(0, { Gang.reset with members := [8, 7], arrived := [8] })] })] }

/-- What a slot waits for is not changed by what lets stalled slots try again. -/
theorem State.wait_wakeAll (s : State) (r : SlotRef) : (s.wakeAll.slotAt r).wait = (s.slotAt r).wait := by
  have hreset : Core.reset.mapSlots (fun l => { l with stalled := false }) = Core.reset := Core.reset_mapSlots rfl
  have hcore : s.wakeAll.core r.core = (s.core r.core).mapSlots fun l => { l with stalled := false } :=
    tget_map (fun _ (c : Core) => c.mapSlots fun l => { l with stalled := false }) _ _ _ hreset
  unfold State.slotAt
  rw [hcore, Core.slot_mapSlots]

/-- Writing the slot of task 8 lists core 3 a second time, before core 5; task 7 is then found on core 3, and the BAR that
waits on core 5 is given no status. -/
theorem lastArrival_leaves_bar :
    (State.lastArrival.gangAtHome 0).map (fun t => (t.slotAt ⟨5, 0⟩).wait) = some (.bar 1 0 0) := by
  decide +kernel

theorem lastArrival_finds_task : State.lastArrival.findTask 7 = some ⟨5, 0⟩ := by decide +kernel

/-- Refutes O32, as it is quantified: over every state, and so over those in which two slots hold one task. In
`State.lastArrival` the last member of a gang arrives; the slot in which its task is found waits at the BAR, and it goes on
waiting, where the statement has its BAR complete with status 0. -/
theorem not_gangsAtTheirHome : ¬ Obligations.GangsAtTheirHome := by
  unfold Obligations.GangsAtTheirHome
  rintro ⟨h, -⟩
  obtain ⟨-, -, -, -, hlast, -⟩ := h State.lastArrival 0 _ [] 0 0 rfl (Nat.le_refl 0)
  obtain ⟨u, hu, -, hdone, -⟩ := hlast rfl (by decide) rfl rfl
  have hslot := hdone 7 ⟨5, 0⟩ 1 0 0 (by decide) lastArrival_finds_task rfl
  obtain ⟨t, ht, hwait⟩ := Option.map_eq_some_iff.1 lastArrival_leaves_bar
  have hexec : exec (.gangArrivalAtHome 0) State.lastArrival = .next t.wakeAll := by
    change occurs (State.lastArrival.gangAtHome 0) State.lastArrival = _
    rw [ht]
    rfl
  have hwoken : u.wakeAll = t.wakeAll := Host.Outcome.next.inj (hu.symm.trans hexec)
  have hsame : (u.slotAt ⟨5, 0⟩).wait = .bar 1 0 0 := by
    rw [← State.wait_wakeAll, hwoken, State.wait_wakeAll, hwait]
  rw [hslot] at hsame
  exact Wait.noConfusion hsame

end Sys2Proof.Machine
end

section
/-! What the operations that several agents share leave unchanged: writes at homes and by firmware, status words and
events, and the checks that stop after step 5 of R174. -/

namespace Sys2Proof.Machine

/-! ## Memory and firmware -/

/-- The state with what another one holds of memory and of the traffic that leaves the device. -/
def State.withMemory (s t : State) : State :=
  { s with mem := t.mem, overlay := t.overlay, poison := t.poison, armed := t.armed, outbox := t.outbox }

/-- Nothing has changed but memory and the traffic that leaves the device. -/
def MemoryOnly (s t : State) : Prop := t = s.withMemory t

/-- The state with what another one holds of memory, the traffic that leaves the device, the host queues, an armed snapshot
and the queue cores. -/
def State.withFirmware (s t : State) : State :=
  { s.withMemory t with
    queues := t.queues, snapDue := t.snapDue, fcores := t.fcores, fcur := t.fcur, fwoken := t.fwoken }

/-- Nothing has changed but what firmware writes as it tells the host of something: memory, the traffic that leaves the
device, the host queues, an armed snapshot and the queue cores. -/
def FirmwareOnly (s t : State) : Prop := t = s.withFirmware t

theorem MemoryOnly.refl (s : State) : MemoryOnly s s := rfl

theorem MemoryOnly.trans {s t u : State} (h : MemoryOnly s t) (k : MemoryOnly t u) : MemoryOnly s u := by
  unfold MemoryOnly at h k ⊢
  rw [k, h]; rfl

theorem FirmwareOnly.refl (s : State) : FirmwareOnly s s := rfl

theorem FirmwareOnly.trans {s t u : State} (h : FirmwareOnly s t) (k : FirmwareOnly t u) : FirmwareOnly s u := by
  unfold FirmwareOnly at h k ⊢
  rw [k, h]; rfl

theorem MemoryOnly.firmware {s t : State} (h : MemoryOnly s t) : FirmwareOnly s t := by
  unfold MemoryOnly FirmwareOnly at *
  rw [h]; rfl

/-- What such a change leaves out is unchanged. -/
theorem FirmwareOnly.keeps {α : Type} {s t : State} (h : FirmwareOnly s t) (f : State → α)
    (hf : f (s.withFirmware t) = f s) : f t = f s :=
  (congrArg f (show t = s.withFirmware t from h)).trans hf

/-- What such a change leaves out is unchanged. -/
theorem MemoryOnly.keeps {α : Type} {s t : State} (h : MemoryOnly s t) (f : State → α)
    (hf : f (s.withMemory t) = f s) : f t = f s :=
  (congrArg f (show t = s.withMemory t from h)).trans hf

theorem State.homeWrite_memoryOnly (s : State) (cs : List (Nat × Byte)) : MemoryOnly s (s.homeWrite cs) := rfl

theorem State.firmWrite_memoryOnly (s : State) (cs : List (Nat × Byte)) : MemoryOnly s (s.firmWrite cs) := rfl

theorem State.setTcbState_memoryOnly (s : State) (n i st : Nat) : MemoryOnly s (s.setTcbState n i st) := rfl

theorem State.modQueue_firmwareOnly (s : State) (q : Nat) (f : Queue → Queue) : FirmwareOnly s (s.modQueue q f) := rfl

theorem State.syncQueue_firmwareOnly (s : State) (q : Nat) : FirmwareOnly s (s.syncQueue q) := by
  unfold State.syncQueue; dsimp only; split <;> rfl

/-- What posting an event does (R418): with the event numbered, it sets a flag of the queue where the ring is full, and
else writes the record and counts it. -/
theorem State.postEvent_eq (s : State) (q : Nat) (e : Event) (h : tmem s.queues q = true) :
    ∃ u : State, ∃ f : Queue → Queue, MemoryOnly (s.modQueue q fun x => { x with evseq := x.evseq + 1 }) u ∧
      (∀ x, ∃ o c, f x = { x with evovf := o, evcount := c }) ∧ s.postEvent q e = (u.modQueue q f).syncQueue q := by
  unfold State.postEvent
  rw [h, if_neg (by decide)]
  dsimp only
  split
  · exact ⟨_, fun x => { x with evovf := true }, MemoryOnly.refl _, fun _ => ⟨_, _, rfl⟩, rfl⟩
  · exact ⟨_, fun x => { x with evcount := x.evcount + 1 }, State.firmWrite_memoryOnly _ _, fun _ => ⟨_, _, rfl⟩, rfl⟩

theorem State.postEvent_none (s : State) (q : Nat) (e : Event) (h : tmem s.queues q = false) :
    s.postEvent q e = s := by
  unfold State.postEvent
  rw [h]
  rfl

theorem State.postEvent_firmwareOnly (s : State) (q : Nat) (e : Event) : FirmwareOnly s (s.postEvent q e) := by
  cases h : tmem s.queues q with
  | false => rw [s.postEvent_none q e h]; exact FirmwareOnly.refl s
  | true =>
    obtain ⟨u, f, hu, -, heq⟩ := s.postEvent_eq q e h
    rw [heq]
    exact (((s.modQueue_firmwareOnly q _).trans hu.firmware).trans (u.modQueue_firmwareOnly q f)).trans
      (State.syncQueue_firmwareOnly _ q)

theorem State.ring_firmwareOnly (s : State) (q : Nat) (b : BitVec 7) : FirmwareOnly s (s.ring q b) := by
  obtain ⟨fc, cur, wk, h⟩ := s.ring_queueCores q b
  rw [h]; rfl

theorem State.snapEvent_firmwareOnly (s : State) (b : Nat) : FirmwareOnly s (s.snapEvent b) := by
  unfold State.snapEvent; split <;> rfl

theorem State.faultEvent_firmwareOnly (s : State) (q : Nat) (e : Event) : FirmwareOnly s (s.faultEvent q e) :=
  ((s.postEvent_firmwareOnly q e).trans (State.snapEvent_firmwareOnly _ _)).trans (State.ring_firmwareOnly _ _ _)

/-! ## The host queues -/

theorem State.queue_ring (s : State) (q p : Nat) (b : BitVec 7) : (s.ring q b).queue p = s.queue p := by
  obtain ⟨fc, cur, wk, h⟩ := s.ring_queueCores q b
  rw [h]; rfl

theorem State.queue_snapEvent (s : State) (b p : Nat) : (s.snapEvent b).queue p = s.queue p := by
  unfold State.snapEvent; split <;> rfl

/-- The status word is all of a queue that Flambeol changes as it writes it (R414). -/
theorem State.queue_syncQueue (s : State) (q p : Nat) :
    ∃ v, (s.syncQueue q).queue p = { s.queue p with statword := v } := by
  unfold State.syncQueue
  dsimp only
  split
  · exact ⟨_, rfl⟩
  · by_cases h : p = q
    · subst h
      exact ⟨_, State.queue_modQueue_same _ _ _⟩
    · exact ⟨(s.queue p).statword, (State.queue_modQueue _ _ _ _).trans (if_neg h)⟩

theorem State.queue_syncQueue_ne (s : State) {q p : Nat} (h : p ≠ q) : (s.syncQueue q).queue p = s.queue p := by
  unfold State.syncQueue
  dsimp only
  split
  · rfl
  · exact (State.queue_modQueue _ _ _ _).trans (if_neg h)

theorem State.tmem_syncQueue (s : State) (q p : Nat) (h : tmem s.queues p = true) :
    tmem (s.syncQueue q).queues p = true := by
  unfold State.syncQueue
  dsimp only
  split
  · exact h
  · simp [State.modQueue, State.firmWrite, State.carry, State.homeWrite, State.land, h]

theorem MemoryOnly.queue {s t : State} (h : MemoryOnly s t) (q : Nat) : t.queue q = s.queue q :=
  h.keeps (·.queue q) rfl

theorem State.queue_modQueue_ne (s : State) {q p : Nat} (f : Queue → Queue) (h : p ≠ q) :
    (s.modQueue q f).queue p = s.queue p :=
  (State.queue_modQueue _ _ _ _).trans (if_neg h)

/-- An event for a queue leaves the other queues alone. -/
theorem State.queue_postEvent_ne (s : State) {q p : Nat} (e : Event) (h : p ≠ q) :
    (s.postEvent q e).queue p = s.queue p := by
  cases hq : tmem s.queues q with
  | false => rw [s.postEvent_none q e hq]
  | true =>
    obtain ⟨u, f, hu, -, heq⟩ := s.postEvent_eq q e hq
    rw [heq, State.queue_syncQueue_ne _ h, State.queue_modQueue_ne _ _ h, hu.queue, State.queue_modQueue_ne _ _ h]

/-- An event that is posted or dropped is numbered, and leaves of its queue all but what tells the host of it (R418). -/
theorem State.queue_postEvent (s : State) (q : Nat) (e : Event) (h : tmem s.queues q = true) :
    ∃ o c v, (s.postEvent q e).queue q =
      { s.queue q with evseq := (s.queue q).evseq + 1, evovf := o, evcount := c, statword := v } := by
  obtain ⟨u, f, hu, hf, heq⟩ := s.postEvent_eq q e h
  obtain ⟨v, hv⟩ := (u.modQueue q f).queue_syncQueue q q
  obtain ⟨o, c, hoc⟩ := hf (u.queue q)
  rw [State.queue_modQueue_same, hoc, hu.queue, State.queue_modQueue_same] at hv
  exact ⟨o, c, v, by rw [heq, hv]⟩

theorem State.evseq_postEvent (s : State) (q : Nat) (e : Event) (h : tmem s.queues q = true) :
    ((s.postEvent q e).queue q).evseq = (s.queue q).evseq + 1 := by
  obtain ⟨o, c, v, hq⟩ := s.queue_postEvent q e h
  rw [hq]

theorem State.queue_faultEvent_ne (s : State) {q p : Nat} (e : Event) (h : p ≠ q) :
    (s.faultEvent q e).queue p = s.queue p := by
  rw [State.faultEvent, State.queue_ring, State.queue_snapEvent, State.queue_postEvent_ne _ _ h]

theorem State.evseq_faultEvent (s : State) (q : Nat) (e : Event) (h : tmem s.queues q = true) :
    ((s.faultEvent q e).queue q).evseq = (s.queue q).evseq + 1 := by
  rw [State.faultEvent, State.queue_ring, State.queue_snapEvent, State.evseq_postEvent _ _ _ h]

end Sys2Proof.Machine
end

section
/-! A task that ends on a trap (R370): what becomes of its slot, its engine work, its launch and its queue, and what stays. -/

namespace Sys2Proof.Machine

/-! ## What the end of a task leaves -/

/-- Two slots that differ at most in the marks of a cluster-granular group (R41). -/
def Slot.Alike (l m : Slot) : Prop := m = { l with held := m.held, group := m.group }

theorem Slot.Alike.of_eq {l m : Slot} (h : m = l) : l.Alike m := by rw [h]; rfl

theorem Slot.Alike.trans {l m n : Slot} (h : l.Alike m) (k : m.Alike n) : l.Alike n := by
  unfold Slot.Alike at h k ⊢
  rw [k, h]

theorem Slot.Alike.keeps {α : Type} {l m : Slot} (h : l.Alike m) (f : Slot → α)
    (hf : f { l with held := m.held, group := m.group } = f l) : f m = f l :=
  (congrArg f (show m = { l with held := m.held, group := m.group } from h)).trans hf

theorem Slot.Alike.restored {l m : Slot} (h : l.Alike m) : { m with held := l.held, group := l.group } = l :=
  h.keeps (fun x => { x with held := l.held, group := l.group }) rfl

/-- The engine queues of a core. -/
def Core.work (c : Core) : EngQ × EngQ × EngQ := (c.vq, c.cq, c.mq)

/-- Parts of the state that a task which leaves its slot does not reach. -/
def State.outside (s : State) : SlotRef × Table Launch × W64 × Table Link × Mailbox :=
  (s.cur, s.launches, s.gstep, s.links, s.mbox)

/-- Nothing that the end of a task could reach has changed, but for the marks of cluster-granular groups. -/
structure GroupsOnly (s t : State) : Prop where
  slots : ∀ r, (s.slotAt r).Alike (t.slotAt r)
  work : ∀ g, (t.core g).work = (s.core g).work
  queues : t.queues = s.queues
  outside : t.outside = s.outside

theorem GroupsOnly.refl (s : State) : GroupsOnly s s := ⟨fun _ => .of_eq rfl, fun _ => rfl, rfl, rfl⟩

theorem GroupsOnly.trans {s t u : State} (h : GroupsOnly s t) (k : GroupsOnly t u) : GroupsOnly s u :=
  ⟨fun r => (h.slots r).trans (k.slots r), fun g => (k.work g).trans (h.work g), k.queues.trans h.queues,
    k.outside.trans h.outside⟩

/-- A change of a slot leaves the engine queues. -/
theorem State.work_modSlot (s : State) (r : SlotRef) (f : Slot → Slot) (g : Nat) :
    ((s.modSlot r f).core g).work = (s.core g).work := by
  unfold State.modSlot State.setSlot
  rw [State.core_setCore]
  split
  · next h => rw [h]; rfl
  · rfl

theorem State.groupsOnly_release (s : State) (r : SlotRef) :
    GroupsOnly s (s.modSlot r fun l => { l with held := false, group := none }) where
  slots p := by
    rw [State.slotAt_modSlot]
    split
    · next h => rw [h]; rfl
    · rfl
  work g := s.work_modSlot r _ g
  queues := rfl
  outside := rfl

theorem State.groupsOnly_releases (s : State) (rs : List SlotRef) :
    GroupsOnly s (rs.foldl (fun s m => s.modSlot m fun l => { l with held := false, group := none }) s) := by
  induction rs generalizing s with
  | nil => exact GroupsOnly.refl s
  | cons r rs ih => exact (s.groupsOnly_release r).trans (ih _)

/-- A slot that is freed is empty but for the marks of its group, and those of the group's other slots may go (R41). -/
theorem State.groupsOnly_freeSlot (s : State) (r : SlotRef) : GroupsOnly (s.modSlot r Slot.vacate) (s.freeSlot r) := by
  have hcore : ∀ (t : State) (g : Nat), GroupsOnly t (t.modCore g fun c =>
      if c.slots.toList.any fun l => l.occ || l.held then c else { c with pinned := [] }) := fun t g =>
    { slots := fun p => .of_eq (State.slotAt_modCore t g _ p fun c => by split <;> rfl)
      work := fun h => by
        rw [State.core_modCore]
        split
        · next e => rw [e]; split <;> rfl
        · rfl
      queues := rfl
      outside := rfl }
  unfold State.freeSlot
  dsimp only
  refine GroupsOnly.trans ?_ (hcore _ _)
  split
  · exact State.groupsOnly_releases _ _
  · exact GroupsOnly.refl _

/-! ## The engine work of a task that ends (R370, R433) -/

theorem Core.slots_modWm (c : Core) (k : Nat) (f : Wm → Wm) :
    (c.modWm k f).slots = c.slots ∧ (c.modWm k f).work = c.work := by
  unfold Core.modWm; split <;> exact ⟨rfl, rfl⟩

theorem Core.slots_fillSlot (c : Core) (q : QRec) : (c.fillSlot q).slots = c.slots ∧ (c.fillSlot q).work = c.work := by
  unfold Core.fillSlot
  split
  · unfold Core.modRing; split <;> exact ⟨rfl, rfl⟩
  · exact ⟨rfl, rfl⟩

/-- The watermark registers and rings that cancelled copies let go are beside the slots and the engine queues. -/
theorem Core.slots_letGo (c : Core) (rs : List QRec) :
    let d := rs.foldl (fun c r => (if r.holdsWm then c.modWm (cpWmi r.ops) (·.setState 4) else c).fillSlot r) c
    d.slots = c.slots ∧ d.work = c.work := by
  induction rs generalizing c with
  | nil => exact ⟨rfl, rfl⟩
  | cons r rs ih =>
    have hwm : (if r.holdsWm then c.modWm (cpWmi r.ops) (·.setState 4) else c).slots = c.slots ∧
        (if r.holdsWm then c.modWm (cpWmi r.ops) (·.setState 4) else c).work = c.work := by
      split
      · exact c.slots_modWm _ _
      · exact ⟨rfl, rfl⟩
    obtain ⟨hs, hw⟩ := ih ((if r.holdsWm then c.modWm (cpWmi r.ops) (·.setState 4) else c).fillSlot r)
    obtain ⟨fs, fw⟩ := Core.slots_fillSlot (if r.holdsWm then c.modWm (cpWmi r.ops) (·.setState 4) else c) r
    exact ⟨hs.trans (fs.trans hwm.1), hw.trans (fw.trans hwm.2)⟩

theorem EngQ.mem_keep {q : EngQ} {f : QRec → Bool} {r : QRec} (h : r ∈ (q.keep f).recs) : r ∈ q.recs ∧ f r = true :=
  List.mem_filter.1 ((List.dropWhile_sublist _).mem h)

theorem Core.slots_dropWork (c : Core) (u : Nat) : (c.dropWork u).slots = c.slots :=
  (c.slots_letGo _).1

/-- No entry of the task is left in the vector and the matrix queue. -/
theorem Core.uid_of_mem_dropWork {c : Core} {u : Nat} {r : QRec}
    (h : r ∈ (c.dropWork u).vq.recs ++ (c.dropWork u).mq.recs) : r.uid ≠ u := by
  rcases List.mem_append.1 h with h | h
  · simpa using (EngQ.mem_keep h).2
  · simpa using (EngQ.mem_keep h).2

/-- What is left of the task in the copy queue is a copy that was cancelled or had finished. -/
theorem Core.finished_of_mem_dropWork {c : Core} {u : Nat} {r : QRec} (h : r ∈ (c.dropWork u).cq.recs) (hu : r.uid = u) :
    r.fin ≠ .no ∨ r.st = .ended := by
  obtain ⟨hmem, hkeep⟩ := EngQ.mem_keep h
  obtain ⟨x, -, hx⟩ := List.mem_map.1 hmem
  split at hx
  · rw [← hx]; exact .inl fun h => Finish.noConfusion h
  · next hmine =>
    subst hx
    by_cases he : x.st = .ended
    · exact .inr he
    · have hrun : x.st = .running := by
        simp [hu, he] at hkeep
        exact hkeep.1
      left
      intro hno
      simp [hu, hrun, hno] at hmine

/-! ## Leaving the slot -/

/-- What becomes of the state when a task leaves its slot (R197, R370, R372, R433): the slot is free, its engine work has
ended, and of a queue only the rung and the status word may have moved. -/
structure Leaves (s t : State) (r : SlotRef) : Prop where
  free : (t.slotAt r).occ = false ∧ (t.slotAt r).pend = [] ∧ (t.slotAt r).hidden = []
  others : ∀ p, p ≠ r → (s.slotAt p).Alike (t.slotAt p)
  work : (t.core r.core).work = ((s.core r.core).dropWork (s.slotAt r).uid).work
  queues : ∀ p, p ≠ (s.launchOf r).queue → t.queue p = s.queue p
  evseq : (t.queue (s.launchOf r).queue).evseq = (s.queue (s.launchOf r).queue).evseq
  known : tmem s.queues (s.launchOf r).queue = true → tmem t.queues (s.launchOf r).queue = true
  outside : t.outside = s.outside

/-- The end of the ladder for a queue leaves all but the queues and what firmware writes (R371, R372). -/
theorem State.settleLadder_firmwareOnly (s : State) (q : Nat) : FirmwareOnly s (s.settleLadder q) := by
  unfold State.settleLadder
  split
  · exact (s.modQueue_firmwareOnly q _).trans (State.syncQueue_firmwareOnly _ q)
  · exact FirmwareOnly.refl s

theorem State.queue_settleLadder_ne (s : State) {q p : Nat} (h : p ≠ q) : (s.settleLadder q).queue p = s.queue p := by
  unfold State.settleLadder
  split
  · rw [State.queue_syncQueue_ne _ h, State.queue_modQueue_ne _ _ h]
  · rfl

theorem State.evseq_settleLadder (s : State) (q : Nat) : ((s.settleLadder q).queue q).evseq = (s.queue q).evseq := by
  unfold State.settleLadder
  split
  · obtain ⟨v, hv⟩ := (s.modQueue q fun u => { u with
      rung := BitVec.ofNat 2 (Nat.max u.rung.toNat (s.rungReached q)) }).queue_syncQueue q q
    rw [hv, State.queue_modQueue_same]
  · rfl

theorem State.tmem_settleLadder (s : State) (q : Nat) (h : tmem s.queues q = true) :
    tmem (s.settleLadder q).queues q = true := by
  unfold State.settleLadder
  split
  · exact State.tmem_syncQueue _ q q (by simp [State.modQueue])
  · exact h

/-- A wait that is withdrawn from another device changes at most the slot that waits. -/
theorem State.cancelAway_eq (s : State) (r : SlotRef) :
    s.cancelAway r = s ∨ ∃ fs, s.cancelAway r =
      ({ s with outbox := s.outbox ++ fs } : State).modSlot r fun l => { l with cancelled := true } := by
  unfold State.cancelAway
  dsimp only
  split
  · split
    · exact .inl rfl
    · exact .inr ⟨_, rfl⟩
  · exact .inl rfl

theorem State.slotAt_cancelAway_ne (s : State) {r p : SlotRef} (hp : p ≠ r) : (s.cancelAway r).slotAt p = s.slotAt p := by
  rcases s.cancelAway_eq r with h | ⟨fs, h⟩
  · rw [h]
  · rw [h, State.slotAt_modSlot, if_neg hp]; rfl

theorem State.vacate_cancelAway (s : State) (r : SlotRef) :
    ((s.cancelAway r).slotAt r).vacate = (s.slotAt r).vacate := by
  rcases s.cancelAway_eq r with h | ⟨fs, h⟩
  · rw [h]
  · rw [h, State.slotAt_modSlot_same]; rfl

theorem State.work_cancelAway (s : State) (r : SlotRef) (g : Nat) : ((s.cancelAway r).core g).work = (s.core g).work := by
  rcases s.cancelAway_eq r with h | ⟨fs, h⟩
  · rw [h]
  · rw [h, State.work_modSlot]; rfl

theorem State.outside_cancelAway (s : State) (r : SlotRef) :
    (s.cancelAway r).queues = s.queues ∧ (s.cancelAway r).outside = s.outside := by
  rcases s.cancelAway_eq r with h | ⟨fs, h⟩
  · rw [h]; exact ⟨rfl, rfl⟩
  · rw [h]; exact ⟨rfl, rfl⟩

/-- The slot and the engine queues of a task that leaves do not show whether a wait of it was withdrawn. -/
theorem State.groupsOnly_withdrawn (s : State) (r : SlotRef) (u : Nat) :
    GroupsOnly (s.modSlot r Slot.vacate) (((s.cancelAway r).withdraw u).modSlot r Slot.vacate) where
  slots p := .of_eq <| by
    rw [State.slotAt_modSlot, State.slotAt_modSlot]
    split
    · exact s.vacate_cancelAway r
    · next hp => exact s.slotAt_cancelAway_ne hp
  work g := by
    rw [State.work_modSlot, State.work_modSlot]
    exact s.work_cancelAway r g
  queues := (s.outside_cancelAway r).1
  outside := (s.outside_cancelAway r).2

theorem State.leaves_removeTask (s : State) (r : SlotRef) : Leaves s (s.removeTask r) r := by
  let u := (s.slotAt r).uid
  let s1 := ((s.flushOwn u).dropHost u).modCore r.core fun c => { c.dropWork u with
    shoots := c.shoots.map fun x => { x with lagging := x.lagging.filter (· != u) } }
  let t := ((s1.cancelAway r).withdraw u).freeSlot r
  have ht : GroupsOnly (s1.modSlot r Slot.vacate) t :=
    (s1.groupsOnly_withdrawn r u).trans (State.groupsOnly_freeSlot _ r)
  have hslots : ∀ p, s1.slotAt p = s.slotAt p := fun p =>
    State.slotAt_modCore ((s.flushOwn u).dropHost u) r.core _ p fun c => c.slots_dropWork u
  have hwork : (s1.core r.core).work = ((s.core r.core).dropWork u).work := by
    change ((((s.flushOwn u).dropHost u).modCore r.core _).core r.core).work = _
    rw [State.core_modCore_same]
    rfl
  have hfirm := t.settleLadder_firmwareOnly (s.launchOf r).queue
  have hvacant : (s1.slotAt r).vacate.Alike (t.slotAt r) := by
    have := ht.slots r
    rwa [State.slotAt_modSlot_same] at this
  have hqueue : ∀ p, t.queue p = s.queue p := fun p => congrArg (fun qs => tget _ qs p) ht.queues
  change Leaves s (t.settleLadder (s.launchOf r).queue) r
  have hslot : ∀ p, (t.settleLadder (s.launchOf r).queue).slotAt p = t.slotAt p :=
    fun p => hfirm.keeps (·.slotAt p) rfl
  exact
    { free := by
        rw [hslot]
        exact ⟨hvacant.keeps Slot.occ rfl, hvacant.keeps Slot.pend rfl, hvacant.keeps Slot.hidden rfl⟩
      others := fun p hp => by
        have := ht.slots p
        rw [State.slotAt_modSlot, if_neg hp, hslots] at this
        rw [hslot]
        exact this
      work := by
        rw [hfirm.keeps (fun x : State => (x.core r.core).work) rfl, ht.work, State.work_modSlot, hwork]
      queues := fun p hp => (t.queue_settleLadder_ne hp).trans (hqueue p)
      evseq := (t.evseq_settleLadder _).trans (congrArg Queue.evseq (hqueue _))
      known := fun h => t.tmem_settleLadder _ (by rw [ht.queues]; exact h)
      outside := (hfirm.keeps State.outside rfl).trans ht.outside }

/-! ## The fatal trap -/

/-- The end of a task in no gang on a fatal trap (R370): it leaves its slot, a TCB has STATE 5, the launch counts it as
faulted, and an event is posted. -/
theorem State.fatalTrap_eq (s : State) (r : SlotRef) (x : PendTrap) (tpc : W64) (nested : Bool)
    (hg : (s.launchOf r).gangsOf (s.slotAt r).uid = []) :
    ∃ u e, MemoryOnly (s.removeTask r) u ∧ s.fatalTrap r x tpc nested =
      (u.countEnd (s.slotAt r).launch true).faultEvent
        ((u.countEnd (s.slotAt r).launch true).launch (s.slotAt r).launch).queue e := by
  unfold State.fatalTrap
  dsimp only
  rw [show (s.launch (s.slotAt r).launch).gangsOf (s.slotAt r).uid = [] from hg]
  simp only [List.foldl_nil, List.isEmpty_nil, if_true]
  cases (s.slotAt r).origin with
  | tcb i => exact ⟨_, _, State.setTcbState_memoryOnly _ _ i 5, rfl⟩
  | child => exact ⟨_, _, MemoryOnly.refl _, rfl⟩
  | direct _ => exact ⟨_, _, MemoryOnly.refl _, rfl⟩

theorem State.launch_countEnd (s : State) (n : Nat) :
    (s.countEnd n true).launch n = { s.launch n with faulted := (s.launch n).faulted + 1 } := by
  unfold State.countEnd
  rw [State.launch_modLaunch_same]; rfl

/-- A trap that is fatal or that a handler meets ends the task of the executing instruction, which is a member of no gang
(R368, R370). -/
theorem endsTask_of (s : State) (i : Instr) (c : Cause) (v : W64) (w : W32) (hc : c.fatal = true ∨ s.slot.inh = true)
    (h : exec i s = .next (s.trap c v w)) : EndsTask s i := by
  intro hg
  have hfatal : (c.fatal || (s.slotAt s.cur).inh) = true := by
    rw [Bool.or_eq_true]; exact hc
  unfold State.trap State.takeTrap at h
  rw [if_pos hfatal] at h
  obtain ⟨u, e, hu, heq⟩ := s.fatalTrap_eq s.cur { cause := c, tval := v, word := w, qent := 0, orig := 0 } s.slot.trapPc
    (s.slotAt s.cur).inh hg
  rw [heq] at h
  have hleft := s.leaves_removeTask s.cur
  have hout : u.outside = s.outside := (hu.keeps State.outside rfl).trans hleft.outside
  simp only [State.outside, Prod.mk.injEq] at hout
  obtain ⟨hcur, hlaunches, hgstep, hlinks, hmbox⟩ := hout
  have hn : u.launch s.slot.launch = s.launch s.slot.launch := congrArg (fun ls => tget _ ls s.slot.launch) hlaunches
  have hq : ((u.countEnd s.slot.launch true).launch s.slot.launch).queue = (s.launch s.slot.launch).queue := by
    rw [State.launch_countEnd, hn]
  rw [State.slotAt_cur, hq] at h
  let t := (u.countEnd s.slot.launch true).faultEvent (s.launch s.slot.launch).queue e
  have hfirm : FirmwareOnly (u.countEnd s.slot.launch true) t := State.faultEvent_firmwareOnly _ _ e
  have hcore : ∀ g, t.core g = (s.removeTask s.cur).core g := fun g =>
    (hfirm.keeps (·.core g) rfl).trans (hu.keeps (·.core g) rfl)
  have hslotAt : ∀ r, t.slotAt r = (s.removeTask s.cur).slotAt r := fun r => congrArg (·.slot r.slot) (hcore r.core)
  have hslot : t.slot = (s.removeTask s.cur).slotAt s.cur := by
    have : t.cur = s.cur := (hfirm.keeps State.cur rfl).trans hcur
    rw [← hslotAt, ← this]; rfl
  have hlaunch : t.launch s.slot.launch =
      { s.launch s.slot.launch with faulted := (s.launch s.slot.launch).faulted + 1 } := by
    rw [hfirm.keeps (·.launch s.slot.launch) rfl, State.launch_countEnd, hn]
  have hqueues : (u.countEnd s.slot.launch true).queues = (s.removeTask s.cur).queues := hu.keeps State.queues rfl
  have hqueue : ∀ p, (u.countEnd s.slot.launch true).queue p = (s.removeTask s.cur).queue p := fun p =>
    congrArg (fun qs => tget _ qs p) hqueues
  have hwork := hleft.work
  simp only [Core.work, Prod.mk.injEq] at hwork
  obtain ⟨hvq, hcq, hmq⟩ := hwork
  obtain ⟨hocc, hpend, hhidden⟩ := hleft.free
  refine ⟨t, h, by rw [hslot]; exact hocc, by rw [hslot]; exact hpend, by rw [hslot]; exact hhidden, ?_, ?_,
    by rw [hlaunch], by rw [hlaunch], fun hknown => ?_, fun r hr => ?_, fun p hp => ?_,
    (hfirm.keeps State.gstep rfl).trans hgstep, (hfirm.keeps State.links rfl).trans hlinks,
    (hfirm.keeps State.mbox rfl).trans hmbox⟩
  · rw [hcore, hvq, hmq]
    exact fun r hr => Core.uid_of_mem_dropWork hr
  · rw [hcore, hcq]
    exact fun r hr hu => Core.finished_of_mem_dropWork hr hu
  · rw [State.evseq_faultEvent _ _ e (by rw [hqueues]; exact hleft.known hknown), hqueue]
    exact congrArg (· + 1) hleft.evseq
  · rw [hslotAt]
    exact (hleft.others r hr).restored
  · rw [State.queue_faultEvent_ne _ e hp, hqueue]
    exact hleft.queues p hp

end Sys2Proof.Machine
end

section
/-! The names of semaphores and SEM.ARM (O29). -/

namespace Sys2Proof.Machine

/-! ## A check that stops after step 5 of R174 -/

/-- What the checks of a translated access change where they pass: the accessed mark of an entry and what the core remembers
of it, and so memory and the cores, but no slot. -/
structure Accessed (s t : State) : Prop where
  slots : ∀ r, t.slotAt r = s.slotAt r
  rest : t = { s.withMemory t with cores := t.cores }

theorem Accessed.trans {s t u : State} (h : Accessed s t) (k : Accessed t u) : Accessed s u := by
  obtain ⟨hs, hr⟩ := h
  obtain ⟨ks, kr⟩ := k
  refine ⟨fun r => (ks r).trans (hs r), ?_⟩
  rw [kr, hr]; rfl

theorem Accessed.keeps {α : Type} {s t : State} (h : Accessed s t) (f : State → α)
    (hf : f { s.withMemory t with cores := t.cores } = f s) : f t = f s :=
  (congrArg f h.rest).trans hf

theorem State.accessed_touch (s : State) (g : Nat) (e : W64) (a : Nat) (k : Access) : Accessed s (s.touch g e a k) := by
  refine ⟨fun r => State.slotAt_touch s g e a k r, ?_⟩
  unfold State.touch
  generalize e ||| (if k.writes then (0x30 : W64) else 0x10) = want
  dsimp only
  split <;> rfl

/-- An early check that passes. -/
theorem State.accessed_early {s t : State} {r : SlotRef} {va n loc : Nat} {k : Access}
    (h : s.checkTranslated r va n k .early = .ok loc t) : Accessed s t := by
  unfold State.checkTranslated at h
  dsimp only at h
  repeat' split at h
  all_goals first
    | cases h; done
    | skip
  all_goals
    rw [State.checkLate_early] at h
    injection h with _ h
    subst h
  · exact State.accessed_touch _ _ _ _ _
  · refine Accessed.trans ⟨fun p => ?_, rfl⟩ (State.accessed_touch _ _ _ _ _)
    exact State.slotAt_modCore _ _ _ _ fun _ => rfl

section
variable {s v : State} (h : Accessed s v)
include h

theorem Accessed.cur : v.cur = s.cur := h.keeps State.cur rfl

theorem Accessed.slot : v.slot = s.slot := by
  show v.slotAt v.cur = s.slotAt s.cur
  rw [h.cur, h.slots]

theorem Accessed.rx (r : XReg) : v.rx r = s.rx r := congrArg (·.rx r) h.slot

theorem Accessed.launchOf (r : SlotRef) : v.launchOf r = s.launchOf r := by
  unfold State.launchOf
  rw [h.slots, h.keeps (·.launch (s.slotAt r).launch) rfl]

theorem Accessed.queueOf (r : SlotRef) : v.queueOf r = s.queueOf r := by
  unfold State.queueOf
  rw [h.launchOf, h.keeps (·.queue (s.launchOf r).queue) rfl]

theorem Accessed.semCheck (name : W64) : v.semCheck name = s.semCheck name := by
  have hlevel : v.level = s.level := by unfold State.level; rw [h.cur, h.launchOf]
  unfold State.semCheck
  rw [h.cur, h.launchOf, hlevel]
  exact h.keeps (·.semCheckFor (s.launchOf s.cur).queue s.level name) rfl

end

/-! ## The fields of a name (R213) -/

theorem toNat_extract {w : Nat} (x : BitVec w) (hi lo n : Nat) (h : n = hi + 1 - lo) :
    (x.extractLsb' lo n).toNat = bits x hi lo := by
  subst h
  simp [bits, Nat.shiftRight_eq_div_pow]

theorem bits_eq_zero_iff {w : Nat} (x : BitVec w) (hi lo n : Nat) (h : n = hi + 1 - lo) :
    bits x hi lo = 0 ↔ x.extractLsb' lo n = 0 := by
  rw [← toNat_extract x hi lo n h]
  exact ⟨fun e => BitVec.eq_of_toNat_eq (by simpa using e), fun e => by rw [e]; simp⟩

theorem semDev_eq (n : W64) : semDev n = n.extractLsb' 32 20 := ofNat_bits n 51 32 20 rfl

theorem semDie_eq (n : W64) : semDie n = (n.extractLsb' 29 3).toNat := (toNat_extract n 31 29 3 rfl).symm

theorem semIndex_eq (n : W64) : semIndex n = (n.extractLsb' 0 14).toNat := (toNat_extract n 13 0 14 rfl).symm

/-- A name with a reserved bit set, of a device outside the system, or outside the grant (R213). -/
def State.NameBad (s : State) (n : W64) : Prop :=
  n.extractLsb' 52 12 ≠ 0 ∨ n.extractLsb' 14 15 ≠ 0 ∨ (n.extractLsb' 32 20 ≠ s.devid ∧ n.extractLsb' 32 20 ∉ s.system) ∨
    (n.extractLsb' 0 14).toNat < (s.queueOf s.cur).semb ∨
    (s.queueOf s.cur).semb + (s.queueOf s.cur).semn ≤ (n.extractLsb' 0 14).toNat

/-- What the check of a name comes to (R213). -/
theorem State.semCheck_eq (s : State) (n : W64) [Decidable (s.NameBad n)] : s.semCheck n =
    if s.NameBad n then some .lease
    else if n.extractLsb' 32 20 ≠ s.devid ∧ s.level = 2 then some .determinism else none := by
  have hbad : (decide (bits n 63 52 ≠ 0) || decide (bits n 28 14 ≠ 0) || !(s.inSystem (semDev n)) ||
      decide (semIndex n < (s.queueOf s.cur).semb) ||
      decide ((s.queueOf s.cur).semb + (s.queueOf s.cur).semn ≤ semIndex n)) = true ↔ s.NameBad n := by
    simp only [State.NameBad, Bool.or_eq_true, decide_eq_true_eq, ne_eq, bits_eq_zero_iff n 63 52 12 rfl,
      bits_eq_zero_iff n 28 14 15 rfl, semIndex_eq, State.inSystem, semDev_eq, Bool.not_eq_true', Bool.or_eq_false_iff,
      beq_eq_false_iff_ne, List.contains_eq_mem, decide_eq_false_iff_not, or_assoc]
  unfold State.semCheck State.semCheckFor
  simp only [semDev_eq] at hbad ⊢
  rw [show s.queue (s.launchOf s.cur).queue = s.queueOf s.cur from rfl]
  by_cases hb : s.NameBad n
  · rw [if_pos (hbad.2 hb), if_pos hb]
  · rw [if_neg (mt hbad.1 hb), if_neg hb]
    simp

theorem State.semCheck_bad {s : State} {n : W64} (h : s.NameBad n) : s.semCheck n = some .lease := by
  classical rw [s.semCheck_eq, if_pos h]

theorem State.withName_bad {s : State} {n : W64} (h : s.NameBad n) (w : W32) (f : State → State) :
    s.withName n w f = s.trap .lease n w := by
  unfold State.withName; rw [State.semCheck_bad h]

theorem State.withName_determinism {s : State} {n : W64} (h : ¬ s.NameBad n) (hdev : n.extractLsb' 32 20 ≠ s.devid)
    (hlevel : s.level = 2) (w : W32) (f : State → State) : s.withName n w f = s.trapOpen .determinism w := by
  classical
  unfold State.withName; rw [s.semCheck_eq, if_neg h, if_pos ⟨hdev, hlevel⟩]

theorem State.semCheck_none {s : State} {n : W64} (h : ¬ s.NameBad n)
    (hdev : n.extractLsb' 32 20 = s.devid ∨ s.level ≠ 2) : s.semCheck n = none := by
  classical
  rw [s.semCheck_eq, if_neg h, if_neg fun hc => hdev.elim hc.1 fun hn => hn hc.2]

theorem State.withName_none {s : State} {n : W64} (h : s.semCheck n = none) (w : W32) (f : State → State) :
    s.withName n w f = f s := by
  unfold State.withName; rw [h]

theorem NameOk.not_bad {s : State} {n : W64} (h : NameOk s n) : ¬ s.NameBad n := by
  obtain ⟨hhigh, hmid, hdev, hlo, hhi⟩ := h
  rintro (hb | hb | ⟨hb, -⟩ | hb | hb)
  · exact hb hhigh
  · exact hb hmid
  · exact hb hdev
  · omega
  · omega

theorem State.not_nameBad {s : State} {n : W64} (hhigh : n.extractLsb' 52 12 = 0) (hmid : n.extractLsb' 14 15 = 0)
    (hsys : n.extractLsb' 32 20 ∈ s.system) (hlo : (s.queueOf s.cur).semb ≤ (n.extractLsb' 0 14).toNat)
    (hhi : (n.extractLsb' 0 14).toNat < (s.queueOf s.cur).semb + (s.queueOf s.cur).semn) : ¬ s.NameBad n := by
  rintro (hb | hb | ⟨-, hb⟩ | hb | hb)
  · exact hb hhigh
  · exact hb hmid
  · exact hb hsys
  · omega
  · omega

/-! ## What a publication leaves unchanged (R195, R198) -/

/-- Writes for the bridging device, and nothing else (R25, R409). -/
def State.Leave (s : State) (fs : List Flit) : Prop :=
  (s.bridge = true → fs = []) ∧
    ∀ f, f ∈ fs → f.dest = s.hostDev ∧ ∃ stamp offset bytes, f.body = .hostWrite s.devid stamp offset bytes

theorem State.Leave.append {s : State} {fs gs : List Flit} (h : s.Leave fs) (k : s.Leave gs) : s.Leave (fs ++ gs) :=
  ⟨fun hb => by rw [h.1 hb, k.1 hb]; rfl, fun f hf => (List.mem_append.1 hf).elim (h.2 f) (k.2 f)⟩

theorem State.leave_hostFlits (s : State) (stamp : Option (Nat × BitVec 8)) (cells : List (Nat × Byte)) :
    s.Leave (s.hostFlits stamp cells) := by
  unfold State.hostFlits
  split
  · exact ⟨fun _ => rfl, fun f hf => absurd hf List.not_mem_nil⟩
  · next hb =>
    refine ⟨fun hb' => absurd hb' hb, fun f hf => ?_⟩
    obtain ⟨⟨n, bs⟩, -, rfl⟩ := List.mem_map.1 hf
    exact ⟨rfl, stamp, _, bs, rfl⟩

theorem State.leave_overFlits (s : State) (os : List Over) : s.Leave (s.overFlits os) := by
  unfold State.overFlits
  refine ⟨fun hb => List.flatMap_eq_nil_iff.2 fun x _ => (s.leave_hostFlits _ _).1 hb, fun f hf => ?_⟩
  obtain ⟨x, -, hx⟩ := List.mem_flatMap.1 hf
  exact (s.leave_hostFlits _ _).2 f hx

/-- The state with what another one holds of memory, and with flits that follow those which leave. -/
def State.sending (s m : State) (fs : List Flit) : State := { s.withMemory m with outbox := s.outbox ++ fs }

/-- What a publication by the executing task leaves unchanged. -/
structure Published (s u : State) (fs : List Flit) : Prop where
  leave : s.Leave fs
  outbox : u.outbox = s.outbox ++ fs
  others : OthersKept s u
  slot : ∃ p n h, u.slot = { s.slot with pend := p, snap := n, hidden := h }
  rest : ∃ m, u = { s.sending m fs with cores := u.cores }

theorem Published.refl (s : State) : Published s s [] where
  leave := ⟨fun _ => rfl, fun _ hf => absurd hf List.not_mem_nil⟩
  outbox := (List.append_nil _).symm
  others := fun _ _ => rfl
  slot := ⟨_, _, _, rfl⟩
  rest := ⟨s, by unfold State.sending; rw [List.append_nil]; rfl⟩

/-- A slot whose pending stores are published. -/
def Slot.published (l : Slot) : Slot := { l with pend := [] }.refresh

/-- A publication is what it sends on its way or home, and what it clears in the slot. -/
theorem State.publishAt_eq (s : State) (r : SlotRef) (sc : Scope) :
    ∃ fs m, s.Leave fs ∧ s.publishAt r sc = (s.sending m fs).modSlot r Slot.published := by
  let home := (s.flushBy fun o => (o.uid == (s.slotAt r).uid && o.eng.isNone) || (s.slotAt r).joinedHere o).homeWrite
    (s.slotAt r).pend
  let stamp := some (s.stampOf (s.slotAt r).launch)
  have hhome : ∃ fs m, s.Leave fs ∧ home.carry stamp (s.slotAt r).pend = s.sending m fs :=
    ⟨_, home, (s.leave_overFlits _).append (s.leave_hostFlits stamp (s.slotAt r).pend), by
      unfold State.sending; rw [← List.append_assoc]; rfl⟩
  have hway : ∀ os : List Over, ∃ fs m, s.Leave fs ∧ ({ s with overlay := os } : State) = s.sending m fs := fun os =>
    ⟨[], { s with overlay := os }, (Published.refl s).leave, by unfold State.sending; rw [List.append_nil]; rfl⟩
  have hdone : ∀ {u : State}, (∃ fs m, s.Leave fs ∧ u = s.sending m fs) →
      ∃ fs m, s.Leave fs ∧ u.modSlot r Slot.published = (s.sending m fs).modSlot r Slot.published := by
    rintro _ ⟨fs, m, hleave, rfl⟩
    exact ⟨fs, m, hleave, rfl⟩
  cases sc with
  | package => exact hdone hhome
  | system => exact hdone hhome
  | core => exact hdone (hway _)
  | cluster => exact hdone (hway _)
  | die => exact hdone (hway _)

/-- A boundary (R196) at the executing slot. -/
theorem State.published_boundary (s : State) (sc : Scope) :
    ∃ fs, Published s (s.boundary s.cur sc) fs ∧ (s.boundary s.cur sc).slot.pend = [] := by
  obtain ⟨fs, m, hleave, heq⟩ := s.publishAt_eq s.cur sc
  let u := (s.sending m fs).modSlot s.cur fun l => { l.published with hidden := l.hidden.filter fun h => !h.joined }
  have hboundary : s.boundary s.cur sc = u.modCore s.cur.core fun c =>
      { c with shoots := c.shoots.map fun x => { x with lagging := x.lagging.filter (· != s.slot.uid) } } := by
    unfold State.boundary
    rw [heq, State.modSlot_modSlot]
    rfl
  have hslots : ∀ r, (s.boundary s.cur sc).slotAt r = u.slotAt r := fun r => by
    rw [hboundary]; exact State.slotAt_modCore u _ _ r fun _ => rfl
  have hslot : (s.boundary s.cur sc).slot = { s.slot.published with hidden := s.slot.hidden.filter fun h => !h.joined } :=
    (show (s.boundary s.cur sc).slot = (s.boundary s.cur sc).slotAt s.cur by rw [hboundary]; rfl).trans
      ((hslots s.cur).trans (State.slotAt_modSlot_same (s.sending m fs) _ _))
  refine ⟨fs, ⟨hleave, by rw [hboundary]; rfl, fun r hr => ?_, ⟨_, _, _, hslot⟩, m, by rw [hboundary]; rfl⟩, by rw [hslot]; rfl⟩
  rw [hslots]
  exact (State.slotAt_modSlot (s.sending m fs) _ _ _).trans (if_neg hr)

section
variable {s u : State} {fs : List Flit} (h : Published s u fs)
include h

theorem Published.keeps {α : Type} (f : State → α)
    (hf : ∀ m, f { s.sending m fs with cores := u.cores } = f s) : f u = f s := by
  obtain ⟨m, hm⟩ := h.rest
  exact (congrArg f hm).trans (hf m)

theorem Published.cur : u.cur = s.cur := h.keeps State.cur fun _ => rfl

theorem Published.devid : u.devid = s.devid := h.keeps State.devid fun _ => rfl

theorem Published.launchOf : u.launchOf u.cur = s.launchOf s.cur := by
  obtain ⟨_, _, _, hslot⟩ := h.slot
  show u.launch u.slot.launch = s.launch s.slot.launch
  rw [hslot]
  exact h.keeps (·.launch s.slot.launch) fun _ => rfl

theorem Published.queueOf : u.queueOf u.cur = s.queueOf s.cur := by
  unfold State.queueOf
  rw [h.launchOf]
  exact h.keeps (·.queue (s.launchOf s.cur).queue) fun _ => rfl

end

/-! ## An operation on a semaphore of another device (R213, R408) -/

/-- The flit of an operation by the executing task on a semaphore of another device. -/
def State.semFlit (s : State) (n : W64) (k : SemKind) : Flit :=
  { dest := n.extractLsb' 32 20
    body := .semUpdate n (semAmount k) (semOpCode k) (semTcb k).1 (semTcb k).2 s.devid s.cur.core s.cur.slot.val s.slot.uid
      (s.launchOf s.cur).queue (s.queueOf s.cur).gen }

theorem Published.sendSem {s u : State} {fs : List Flit} (h : Published s u fs) {n : W64}
    (hdev : n.extractLsb' 32 20 ≠ s.devid) (k : SemKind) (after : Nat) :
    u.sendSem n k after = { u with outbox := u.outbox ++ [s.semFlit n k] } := by
  obtain ⟨p, m, hid, hslot⟩ := h.slot
  unfold State.sendSem State.semFlit
  dsimp only
  rw [semDev_eq, h.devid, if_neg hdev, h.launchOf, h.queueOf, h.cur, hslot]

/-- What an operation that goes out over the links leaves: its flit follows what its publication has sent, and of the device
the slot has changed. -/
structure SentAway (s t : State) (fs : List Flit) (n : W64) (k : SemKind) : Prop where
  outbox : t.outbox = s.outbox ++ fs ++ [s.semFlit n k]
  others : OthersKept s t
  leave : s.Leave fs
  inbox : ∀ c, (t.die c).inbox = (s.die c).inbox
  x : t.slot.x = s.slot.x

theorem Published.sentAway {s u : State} {fs : List Flit} (h : Published s u fs) {n : W64}
    (hdev : n.extractLsb' 32 20 ≠ s.devid) (k : SemKind) (after : Nat) (f : Slot → Slot) (hx : ∀ l, (f l).x = l.x) :
    SentAway s ((u.sendSem n k after).mapSlot f) fs n k where
  outbox := by rw [h.sendSem hdev]; exact congrArg (· ++ _) h.outbox
  others r hr := by
    rw [h.sendSem hdev, State.slotAt_mapSlot, if_neg (by rw [← h.cur] at hr; exact hr)]
    exact h.others r hr
  leave := h.leave
  inbox c := by
    rw [h.sendSem hdev]
    exact congrArg Die.inbox (h.keeps (·.die c) fun _ => rfl)
  x := by
    obtain ⟨p, m, hid, hslot⟩ := h.slot
    rw [h.sendSem hdev, State.slot_mapSlot, hx]
    show u.slot.x = s.slot.x
    rw [hslot]

/-- The instructions that update, wait for or read a semaphore, and that no scope stops (R213 to R218, R243). -/
def SemOps (s : State) (d a b : XReg) (take : Bool) (i : Instr) : Prop :=
  i = .semWait d a b take ∨ i = .semAdd d a b ∨ i = .semSet a b ∨ i = .semRead d a ∨
    (∃ sc, i = .semSig a b sc ∧ (sc ≠ .system ∨ s.level ≠ 2))

theorem State.scopeOk_of {s : State} {sc : Scope} (h : sc ≠ .system ∨ s.level ≠ 2) : s.scopeOk sc = true := by
  unfold State.scopeOk
  rcases h with h | h <;> simp [h]

theorem exec_semSig {s : State} (a b : XReg) {sc : Scope} (h : sc ≠ .system ∨ s.level ≠ 2) :
    exec (.semSig a b sc) s = .next (s.withName (s.rx a) (Instr.semSig a b sc).encode fun s =>
      (((s.boundary s.cur sc).sendSem (s.rx a) (.sig (s.rx b)) (s.slot.pubCycles sc + 1)).occupy
        (s.slot.pubCycles sc + 1)).retire) := by
  show execSemSig a b sc s = _
  unfold execSemSig
  rw [State.scopeOk_of h]
  rfl

/-- Each of them checks its name first. -/
theorem SemOps.exec {s : State} {d a b : XReg} {take : Bool} {i : Instr} (h : SemOps s d a b take i) :
    ∃ f, exec i s = .next (s.withName (s.rx a) i.encode f) := by
  rcases h with rfl | rfl | rfl | rfl | ⟨sc, rfl, hsc⟩
  · exact ⟨_, rfl⟩
  · exact ⟨_, rfl⟩
  · exact ⟨_, rfl⟩
  · exact ⟨_, rfl⟩
  · exact ⟨_, exec_semSig a b hsc⟩

section
variable {s : State} {a : XReg} (hok : s.semCheck (s.rx a) = none) (hdev : (s.rx a).extractLsb' 32 20 ≠ s.devid)
include hok hdev

theorem semWait_away (d b : XReg) (take : Bool) : ∃ t, exec (.semWait d a b take) s = .next t ∧
    SentAway s t [] (s.rx a) (.wait (s.rx b) take) ∧ t.slot.wait = .sem d true := by
  refine ⟨_, congrArg Host.Outcome.next ?_, (Published.refl s).sentAway hdev (.wait (s.rx b) take) 0
    (fun l => { l with wait := .sem d true, started := true, stalled := false, lag := 0, away := some (s.rx a),
                       cancelled := false }) fun _ => rfl, ?_⟩
  · rw [State.withName_none hok]
    unfold State.noteAway
    rw [semDev_eq, if_neg (by rw [(Published.refl s).sendSem hdev]; exact hdev)]
    exact State.mapSlot_mapSlot _ _ _
  · rw [State.slot_mapSlot]

theorem semAdd_away (d b : XReg) : ∃ t, exec (.semAdd d a b) s = .next t ∧
    SentAway s t [] (s.rx a) (.add (s.rx b)) ∧ t.slot.wait = .sem d false :=
  ⟨_, congrArg Host.Outcome.next (State.withName_none hok _ _), (Published.refl s).sentAway hdev _ 0 _ fun _ => rfl,
    congrArg Slot.wait (State.slot_mapSlot _ _)⟩

theorem semSet_away (b : XReg) : ∃ t, exec (.semSet a b) s = .next t ∧
    SentAway s t [] (s.rx a) (.set (s.rx b)) ∧ t.slot.wait = .sem 0 false :=
  ⟨_, congrArg Host.Outcome.next (State.withName_none hok _ _), (Published.refl s).sentAway hdev _ 0 _ fun _ => rfl,
    congrArg Slot.wait (State.slot_mapSlot _ _)⟩

theorem semRead_away (d : XReg) : ∃ t, exec (.semRead d a) s = .next t ∧
    SentAway s t [] (s.rx a) .read ∧ t.slot.wait = .sem d false :=
  ⟨_, congrArg Host.Outcome.next (State.withName_none hok _ _), (Published.refl s).sentAway hdev _ 0 _ fun _ => rfl,
    congrArg Slot.wait (State.slot_mapSlot _ _)⟩

theorem semSig_away (b : XReg) {sc : Scope} (hsc : sc ≠ .system ∨ s.level ≠ 2) : ∃ t fs,
    exec (.semSig a b sc) s = .next t ∧ SentAway s t fs (s.rx a) (.sig (s.rx b)) ∧ t.slot.pc = s.slot.pc + 4 := by
  obtain ⟨fs, h, -⟩ := s.published_boundary sc
  obtain ⟨p, m, hid, hslot⟩ := h.slot
  refine ⟨_, fs, (exec_semSig a b hsc).trans (congrArg Host.Outcome.next ((State.withName_none hok _ _).trans
    (State.mapSlot_mapSlot _ _ _))), h.sentAway hdev (.sig (s.rx b)) _ _ fun _ => rfl, ?_⟩
  rw [h.sendSem hdev, State.slot_mapSlot]
  show (s.boundary s.cur sc).slot.pc + 4 = _
  rw [hslot]

end

/-! ## SEM.ARM (R51, R219, R243) -/

/-- What SEM.ARM of TCB i at a name comes to once the TCB may be written. -/
def State.sendArm (s : State) (d a b : XReg) (name : W64) (i : Nat) : State :=
  s.withName name (Instr.semArm d a b).encode fun s =>
    if semDev name = s.devid then (s.sendSem name (.arm s.slot.launch i (s.rx (b + 1))) 0).waitFor (.sem d false)
    else if s.tcbFree s.slot.launch i then
      (s.sendSem name (.arm s.slot.launch i (s.rx (b + 1))) 0).waitFor (.arm d i name (s.rx (b + 1)))
    else (s.wx d 1).retire

/-- The address of the TCB that SEM.ARM names. -/
def State.armAt (s : State) (a : XReg) : W64 := (s.launchOf s.cur).tcbs + BitVec.ofNat 64 (64 * (s.rx a).toNat)

section
variable {s : State} {d a b : XReg}

theorem exec_semArm_level2 (h : s.level = 2) :
    exec (.semArm d a b) s = .next (s.trapOpen .determinism (Instr.semArm d a b).encode) :=
  congrArg Host.Outcome.next (if_pos h)

theorem exec_semArm_past (h : s.level ≠ 2) (hi : (s.launchOf s.cur).ntcb ≤ (s.rx a).toNat) :
    exec (.semArm d a b) s = .next (s.withName (s.rx b) (Instr.semArm d a b).encode fun s => (s.wx d 2).retire) :=
  congrArg Host.Outcome.next ((if_neg h).trans (if_pos hi))

section
variable (h : s.level ≠ 2) (hi : (s.rx a).toNat < (s.launchOf s.cur).ntcb)
include h hi

theorem exec_semArm_first {c : Cause} (hc : s.checkTranslated s.cur (s.armAt a).toNat 1 .write .early = .trap c) :
    exec (.semArm d a b) s = .next (s.trap .lease (s.armAt a) (Instr.semArm d a b).encode) := by
  refine congrArg Host.Outcome.next ((if_neg h).trans ((if_neg (Nat.not_le.2 hi)).trans ?_))
  simp only [State.armAt] at hc
  simp only [w64, hc]
  rfl

theorem exec_semArm_last {c : Cause} {n : Nat} {u : State}
    (hu : s.checkTranslated s.cur (s.armAt a).toNat 1 .write .early = .ok n u)
    (hc : u.checkTranslated s.cur (s.armAt a + 63).toNat 1 .write .early = .trap c) :
    exec (.semArm d a b) s = .next (s.trap .lease (s.armAt a) (Instr.semArm d a b).encode) := by
  refine congrArg Host.Outcome.next ((if_neg h).trans ((if_neg (Nat.not_le.2 hi)).trans ?_))
  simp only [State.armAt] at hu hc
  simp only [w64, hu, hc]
  rfl

theorem exec_semArm_sends {m n : Nat} {u v : State}
    (hu : s.checkTranslated s.cur (s.armAt a).toNat 1 .write .early = .ok m u)
    (hv : u.checkTranslated s.cur (s.armAt a + 63).toNat 1 .write .early = .ok n v) :
    Accessed s v ∧ exec (.semArm d a b) s = .next (v.sendArm d a b (s.rx b) (s.rx a).toNat) := by
  have hacc := (State.accessed_early hu).trans (State.accessed_early hv)
  refine ⟨hacc, congrArg Host.Outcome.next ((if_neg h).trans ((if_neg (Nat.not_le.2 hi)).trans ?_))⟩
  simp only [State.armAt] at hu hv
  simp only [w64, hu, hv]
  rfl

end

/-- The operation that SEM.ARM of TCB i sends to the home of a name on this device. -/
def State.armOp (v : State) (b : XReg) (name : W64) (i : Nat) : SemOp :=
  { index := (name.extractLsb' 0 14).toNat, kind := .arm v.slot.launch i (v.rx (b + 1))
    core := v.cur.core, slot := v.cur.slot, uid := v.slot.uid
    queue := (v.launchOf v.cur).queue, gen := (v.queueOf v.cur).gen, dev := v.devid
    due := Nat.max v.refclk v.slot.busyTill + 12 + 20 * hops (v.cur.core / 96) (name.extractLsb' 29 3).toNat }

/-- The arm of a home on this device. -/
theorem State.sendArm_here {v : State} {name : W64} {i : Nat} (hok : v.semCheck name = none)
    (hdev : name.extractLsb' 32 20 = v.devid) : v.sendArm d a b name i =
      (v.modDie (name.extractLsb' 29 3).toNat fun x => { x with inbox := insertSem (v.armOp b name i) x.inbox }).mapSlot
        fun l => { l with wait := .sem d false, started := true, stalled := false, lag := 0 } := by
  unfold State.sendArm
  rw [State.withName_none hok, semDev_eq, if_pos hdev]
  unfold State.sendSem State.postSem
  dsimp only
  rw [semDev_eq, if_pos hdev, semDie_eq, semIndex_eq, State.leaveAt, wayCycles, dieOf, Nat.add_zero, ← Nat.add_assoc]
  rfl

/-- A TCB that may not be armed gives result 1 at once, where its home is on another device. -/
theorem State.sendArm_taken {v : State} {name : W64} {i : Nat} (hok : v.semCheck name = none)
    (hdev : name.extractLsb' 32 20 ≠ v.devid) (hfree : v.tcbFree v.slot.launch i = false) :
    v.sendArm d a b name i = (v.wx d 1).retire := by
  unfold State.sendArm
  rw [State.withName_none hok, semDev_eq, if_neg hdev, hfree, if_neg (by decide)]

theorem State.sendArm_away {v : State} {name : W64} {i : Nat} (hok : v.semCheck name = none)
    (hdev : name.extractLsb' 32 20 ≠ v.devid) (hfree : v.tcbFree v.slot.launch i = true) :
    v.sendArm d a b name i = (v.sendSem name (.arm v.slot.launch i (v.rx (b + 1))) 0).mapSlot fun l =>
      { l with wait := .arm d i name (v.rx (b + 1)), started := true, stalled := false, lag := 0 } := by
  unfold State.sendArm
  rw [State.withName_none hok, semDev_eq, if_neg hdev, hfree, if_pos rfl]
  rfl


end

theorem SentAway.carries {s t : State} {fs : List Flit} {n : W64} {k : SemKind} (h : SentAway s t fs n k) :
    Carries s { s with outbox := s.outbox ++ fs } :=
  ⟨fs, rfl, h.leave.1, h.leave.2⟩

/-- A result written to a register, and on to the next word. -/
theorem State.wx_retire (v : State) (d : XReg) (x : W64) : Frame v (v.wx d x).retire ∧ RegIs v (v.wx d x).retire d x ∧
    (v.wx d x).retire.slot.pc = v.slot.pc + 4 := by
  rw [State.retire_wx]
  refine ⟨frame_mapSlot _ _ (by simp [Slot.next, Slot.goto]) (by simp [Slot.next, Slot.goto]), ⟨?_, ?_, ?_⟩, ?_⟩
  · rw [State.rx_mapSlot, Slot.rx_next, Slot.rx_wx, if_pos rfl]
  · intro r hr
    rw [State.rx_mapSlot, Slot.rx_next, Slot.rx_wx, if_neg hr]; rfl
  · intro q
    rw [State.slot_mapSlot, Slot.rp_next, Slot.rp_wx]
  · rw [State.slot_mapSlot]
    simp [Slot.next, Slot.goto]

/-- Settles O29: each instruction checks its name before anything else; what it sends, and SEM.ARM once its checks have
passed, follow from how the check of a name and an early access check come out. -/
theorem semaphoreNamesAndArms : Obligations.SemaphoreNamesAndArms := by
  unfold Obligations.SemaphoreNamesAndArms
  refine ⟨fun s d a b take i hi => ⟨fun hbad => ?_, fun hhigh hmid hdev hsys hlo hhi => ?_⟩, fun s d a b => ?_⟩
  · obtain ⟨f, hexec⟩ := SemOps.exec (show SemOps s d a b take i from hi)
    rw [State.withName_bad hbad] at hexec
    exact endsTask_of s i .lease _ _ (.inl rfl) hexec
  · have hgood := State.not_nameBad hhigh hmid hsys hlo hhi
    refine ⟨fun hlevel hinh => ?_, fun hlevel => ?_⟩
    · obtain ⟨f, hexec⟩ := SemOps.exec (show SemOps s d a b take i from hi)
      rw [State.withName_determinism hgood hdev hlevel] at hexec
      exact trapsOpen_of s i .determinism hexec rfl hinh
    · have hok := State.semCheck_none hgood (.inr hlevel)
      rcases hi with rfl | rfl | rfl | rfl | ⟨sc, rfl, hsc⟩
      · obtain ⟨t, hexec, h, hwait⟩ := semWait_away hok hdev d b take
        exact ⟨t, _, [], hexec, h.outbox, rfl, h.others, h.carries, .inl rfl, h.inbox, h.x, _, _, rfl,
          fun _ => ⟨rfl, rfl, hwait⟩, nofun, nofun, nofun, nofun⟩
      · obtain ⟨t, hexec, h, hwait⟩ := semAdd_away hok hdev d b
        exact ⟨t, _, [], hexec, h.outbox, rfl, h.others, h.carries, .inl rfl, h.inbox, h.x, _, _, rfl,
          nofun, fun _ => ⟨rfl, rfl, hwait⟩, nofun, nofun, nofun⟩
      · obtain ⟨t, hexec, h, hwait⟩ := semSet_away hok hdev b
        exact ⟨t, _, [], hexec, h.outbox, rfl, h.others, h.carries, .inl rfl, h.inbox, h.x, _, _, rfl,
          nofun, nofun, fun _ => ⟨rfl, rfl, hwait⟩, nofun, nofun⟩
      · obtain ⟨t, hexec, h, hwait⟩ := semRead_away hok hdev d
        exact ⟨t, _, [], hexec, h.outbox, rfl, h.others, h.carries, .inl rfl, h.inbox, h.x, _, _, rfl,
          nofun, nofun, nofun, fun _ => ⟨rfl, rfl, hwait⟩, nofun⟩
      · obtain ⟨t, fs, hexec, h, hpc⟩ := semSig_away hok hdev b hsc
        exact ⟨t, _, fs, hexec, h.outbox, rfl, h.others, h.carries, .inr ⟨sc, rfl⟩, h.inbox, h.x, _, _, rfl,
          nofun, nofun, nofun, nofun, fun _ _ => ⟨rfl, rfl, hpc⟩⟩
  · refine ⟨fun hlevel hinh => trapsOpen_of s _ .determinism (exec_semArm_level2 hlevel) rfl hinh,
      fun hlevel hname hpast => puts_of s _ d 2 ?_, fun hlevel hi => ⟨fun c hc => ?_, fun n u c hu hc => ?_⟩,
      fun hlevel hname hi m n u v hu hv => ?_, fun hlevel hhigh hmid hdev hsys hlo hhi hi m n u v hu hv => ?_⟩
    · rw [exec_semArm_past hlevel hpast, State.withName_none (State.semCheck_none hname.not_bad (.inr hlevel))]
    · exact endsTask_of s _ .lease _ _ (.inl rfl) (exec_semArm_first hlevel hi hc)
    · exact endsTask_of s _ .lease _ _ (.inl rfl) (exec_semArm_last hlevel hi hu hc)
    · obtain ⟨hacc, hexec⟩ := exec_semArm_sends (d := d) (b := b) hlevel hi hu hv
      have hok : v.semCheck (s.rx b) = none :=
        (hacc.semCheck _).trans (State.semCheck_none hname.not_bad (.inr hlevel))
      obtain ⟨-, -, hhere, -, -⟩ := id hname
      have hdev : v.devid = s.devid := hacc.keeps State.devid rfl
      have hclk : v.refclk = s.refclk := hacc.keeps State.refclk rfl
      rw [State.sendArm_here hok (hhere.trans hdev.symm), State.armOp, hacc.slot, hacc.cur, hacc.rx, hacc.launchOf, hacc.queueOf,
        hdev, hclk] at hexec
      exact ⟨_, hexec, rfl⟩
    · obtain ⟨hacc, hexec⟩ := exec_semArm_sends (d := d) (b := b) hlevel hi hu hv
      have hok : v.semCheck (s.rx b) = none :=
        (hacc.semCheck _).trans (State.semCheck_none (State.not_nameBad hhigh hmid hsys hlo hhi) (.inr hlevel))
      have hvdev : v.devid = s.devid := hacc.keeps State.devid rfl
      have haway : (s.rx b).extractLsb' 32 20 ≠ v.devid := hvdev ▸ hdev
      refine ⟨fun htaken => ?_, fun hfree => ?_⟩
      · rw [State.sendArm_taken hok haway (hacc.slot ▸ htaken)] at hexec
        obtain ⟨hframe, hreg, hpc⟩ := v.wx_retire d 1
        exact ⟨_, hexec, hframe, hreg, hpc.trans (by rw [hacc.slot])⟩
      · rw [State.sendArm_away hok haway (hacc.slot ▸ hfree)] at hexec
        have h := (Published.refl v).sentAway haway (.arm v.slot.launch (s.rx a).toNat (v.rx (b + 1))) 0
          (fun l => { l with wait := .arm d (s.rx a).toNat (s.rx b) (v.rx (b + 1)), started := true, stalled := false,
                             lag := 0 }) fun _ => rfl
        refine ⟨_, hexec, h.others, ?_, ?_⟩
        · rw [h.outbox, List.append_nil, State.semFlit, hvdev, hacc.slot, hacc.cur, hacc.rx, hacc.launchOf, hacc.queueOf]
          rfl
        · rw [State.slot_mapSlot, (Published.refl v).sendSem haway, hacc.rx]
          rw [show ∀ (u : State) os, ({ u with outbox := os } : State).slot = u.slot from fun _ _ => rfl, hacc.slot]

end Sys2Proof.Machine
end

section
/-! The release of a TCB (R51 to R53), and what it leaves alone. -/

namespace Sys2Proof.Machine

/-! ## Values of a few bytes -/

theorem State.fwRead_lt {s : State} {root : W64} {va k v : Nat} (h : s.fwRead root va k = some v) : v < 2 ^ (8 * k) := by
  unfold State.fwRead at h
  dsimp only at h
  split at h
  · rw [← Option.some.inj h]
    refine (natOfBytes_lt _).trans_eq ?_
    rw [List.length_map, List.length_map, List.length_range]
  · cases h

theorem bits_w64 {x : Nat} (hi lo : Nat) (h : x < 2 ^ 64) : bits (w64 x) hi lo = x / 2 ^ lo % 2 ^ (hi + 1 - lo) := by
  unfold bits w64
  rw [BitVec.toNat_ofNat, Nat.mod_eq_of_lt h]

theorem bitOf_w64 {x : Nat} (n : Nat) (h : x < 2 ^ 64) : bitOf (w64 x) n = true ↔ x / 2 ^ n % 2 = 1 := by
  unfold bitOf w64
  rw [BitVec.toNat_ofNat, Nat.mod_eq_of_lt h, beq_iff_eq]

theorem ofNat_mod_two_pow (n x : Nat) : BitVec.ofNat n (x % 2 ^ n) = BitVec.ofNat n x := by
  apply BitVec.eq_of_toNat_eq
  simp

/-! ## The ready queue that a TCB enters (R51) -/

/-- The die of a TCB's ready queue: the semaphore's where the launch runs on it, and else the lowest-numbered one. -/
theorem readyDie_eq {m : BitVec 8} {d e : Nat} (he : e < 8)
    (h : m.getLsbD d = true ∧ e = d ∨
      m.getLsbD d = false ∧ m.getLsbD e = true ∧ ∀ k, k < e → m.getLsbD k = false) : readyDie m d = e := by
  unfold readyDie
  rcases h with ⟨hd, rfl⟩ | ⟨hd, hme, hlow⟩
  · rw [if_pos hd]
  · rw [hd, if_neg (by decide)]
    unfold lowestDie
    have hfind : (List.range 8).find? (fun d => m.getLsbD d) = some e := by
      rw [List.find?_range_eq_some]
      exact ⟨hme, List.mem_range.2 he, fun k hk => by simp [hlow k hk]⟩
    rw [hfind]; rfl

/-! ## The release -/

/-- The address of a TCB of a launch. -/
def State.tcbAt (s : State) (n i : Nat) : Nat := (s.launch n).tcbs.toNat + 64 * i

/-- The root of the page tables of a launch. -/
def State.rootOf (s : State) (n : Nat) : W64 := (s.queue (s.launch n).queue).troot

/-- A TCB with RSTEP and STATE 2 written. -/
def State.markTcb (s : State) (n i : Nat) : State :=
  (s.fwWrite (s.rootOf n) (s.tcbAt n i + 0x18) 8 s.gstep.toNat).fwWrite (s.rootOf n) (s.tcbAt n i + 0x30) 8 2

/-- A released TCB as it enters a ready queue, from three of its words. -/
def State.tcbEntry (s : State) (n i : Nat) (prog arg w : W64) : ReadyTcb :=
  { launch := n, prio := BitVec.ofNat 8 (bits w 39 32), rstep := s.gstep, index := some i, order := (s.launch n).order
    num := BitVec.ofNat 32 (bits w 31 0), prog := prog, arg := arg, role := roleOf (bits w 41 40)
    gang := if bitOf w 48 then some (BitVec.ofNat 6 (bits w 47 42)) else none, origin := .tcb i }

/-- A released TCB that fails its check (R51). -/
def State.faultTcb (s : State) (n i c : Nat) (prog w : W64) : State :=
  let t := (s.setTcbState n i 5).countEnd n true
  t.faultEvent (s.launch n).queue { t.plainEvent 1 c 31 with
    cause := 1, task := BitVec.ofNat 32 (bits w 31 0), tpc := prog, tval := w64 (s.tcbAt n i) }

/-- What becomes of a released TCB whose words have been read. -/
def State.enterTcb (s : State) (n i c : Nat) (prog arg w : W64) : State :=
  if bits w 63 49 ≠ 0 || bits w 41 40 = 3 || bits prog 1 0 ≠ 0 then s.faultTcb n i c prog w
  else s.modDie c fun x => { x with ready := insertReady (s.tcbEntry n i prog arg w) x.ready }

/-- A word of a TCB as firmware reads it. -/
def State.tcbWord (s : State) (n i k : Nat) : W64 := w64 ((s.fwRead (s.rootOf n) (s.tcbAt n i + k) 8).getD 0)

theorem State.releaseTcb_eq (s : State) (n i d : Nat) : s.releaseTcb n i d =
    (s.markTcb n i).enterTcb n i (readyDie (s.launch n).mask d) ((s.markTcb n i).tcbWord n i 0)
      ((s.markTcb n i).tcbWord n i 8) ((s.markTcb n i).tcbWord n i 16) := rfl

/-- A release marks the TCB, and enters it in a ready queue or counts it as faulted and posts an event. -/
theorem State.enterTcb_eq (s : State) (n i c : Nat) (prog arg w : W64) :
    (∃ p, s.enterTcb n i c prog arg w = s.modDie c fun x => { x with ready := insertReady p x.ready }) ∨
      FirmwareOnly ((s.setTcbState n i 5).countEnd n true) (s.enterTcb n i c prog arg w) := by
  unfold State.enterTcb
  split
  · exact .inr (State.faultEvent_firmwareOnly _ _ _)
  · exact .inl ⟨_, rfl⟩

/-- What a release leaves alone: the slots, the semaphores, and all of the state but memory, what tells the host, the dies and
the launches. -/
structure ReleaseKept (s t : State) : Prop where
  core : t.cores = s.cores
  refclk : t.refclk = s.refclk
  devid : t.devid = s.devid
  sems : ∀ c, (t.die c).sems = (s.die c).sems
  arms : ∀ c, (t.die c).arms = (s.die c).arms
  waiters : ∀ c, (t.die c).waiters = (s.die c).waiters

theorem State.releaseKept_releaseTcb (s : State) (n i d : Nat) : ReleaseKept s (s.releaseTcb n i d) := by
  rw [State.releaseTcb_eq]
  rcases State.enterTcb_eq (s.markTcb n i) n i (readyDie (s.launch n).mask d) _ _ _ with ⟨p, h⟩ | h
  · rw [h]
    have hdie : ∀ c, ∃ r, ((s.markTcb n i).modDie (readyDie (s.launch n).mask d) fun x =>
        { x with ready := insertReady p x.ready }).die c = { s.die c with ready := r } := fun c => by
      rw [State.die_modDie]
      split
      · next e => exact ⟨_, by rw [e]; rfl⟩
      · exact ⟨_, rfl⟩
    refine ⟨rfl, rfl, rfl, fun c => ?_, fun c => ?_, fun c => ?_⟩ <;>
    · obtain ⟨r, hr⟩ := hdie c
      rw [hr]
  · have hdie : ∀ c, ((s.markTcb n i).enterTcb n i (readyDie (s.launch n).mask d) _ _ _).die c = s.die c :=
      fun c => h.keeps (·.die c) rfl
    exact ⟨h.keeps State.cores rfl, h.keeps State.refclk rfl, h.keeps State.devid rfl, fun c => congrArg Die.sems (hdie c),
      fun c => congrArg Die.arms (hdie c), fun c => congrArg Die.waiters (hdie c)⟩

theorem ReleaseKept.slotAt {s t : State} (h : ReleaseKept s t) (r : SlotRef) : t.slotAt r = s.slotAt r :=
  congrArg (fun cs => (tget _ cs r.core : Core).slot r.slot) h.core

/-- The release of a TCB is what R51 to R53 say of it. -/
theorem State.releases_releaseTcb (s : State) (n i d : Nat) : Releases s (s.releaseTcb n i d) n i d := by
  intro prog arg w e hprog harg hw he hmask good p
  have hprog64 : prog < 2 ^ 64 := State.fwRead_lt hprog
  have hw64 : w < 2 ^ 64 := State.fwRead_lt hw
  have hword : ∀ {k x : Nat}, (s.markTcb n i).fwRead (s.rootOf n) (s.tcbAt n i + k) 8 = some x →
      (s.markTcb n i).tcbWord n i k = w64 x := fun h =>
    congrArg (fun x : Option Nat => w64 (x.getD 0)) h
  rw [State.releaseTcb_eq, readyDie_eq he hmask, hword (k := 0) hprog, hword harg, hword hw]
  have hbad : (decide (bits (w64 w) 63 49 ≠ 0) || decide (bits (w64 w) 41 40 = 3) || decide (bits (w64 prog) 1 0 ≠ 0)) = true ↔
      ¬ good := by
    simp only [Bool.or_eq_true, decide_eq_true_eq, bits_w64 _ _ hw64, bits_w64 _ _ hprog64, good, Nat.pow_zero, Nat.div_one]
    omega
  unfold State.enterTcb
  refine ⟨fun hgood => ?_, fun hgood => ?_⟩
  · rw [if_neg fun h => hbad.1 h hgood]
    have hp : (s.markTcb n i).tcbEntry n i (w64 prog) (w64 arg) (w64 w) = p := by
      have hprio : BitVec.ofNat 8 (bits (w64 w) 39 32) = BitVec.ofNat 8 (w / 2 ^ 32) := by
        rw [bits_w64 _ _ hw64]; exact ofNat_mod_two_pow 8 _
      have hnum : BitVec.ofNat 32 (bits (w64 w) 31 0) = BitVec.ofNat 32 w := by
        rw [bits_w64 _ _ hw64, Nat.pow_zero, Nat.div_one]; exact ofNat_mod_two_pow 32 _
      have hrole : roleOf (bits (w64 w) 41 40) = match w / 2 ^ 40 % 4 with | 0 => .epilogue | 1 => .arith | _ => .loader := by
        rw [bits_w64 _ _ hw64]; rfl
      have hgang : BitVec.ofNat 6 (bits (w64 w) 47 42) = BitVec.ofNat 6 (w / 2 ^ 42) := by
        rw [bits_w64 _ _ hw64]; exact ofNat_mod_two_pow 6 _
      simp only [State.tcbEntry, hprio, hnum, hrole, hgang, bitOf_w64 _ hw64, p] <;> rfl
    rw [hp]; rfl
  · rw [if_pos (hbad.2 hgood)]
    refine ⟨_, rfl, rfl, ?_, rfl, rfl, rfl⟩
    show BitVec.ofNat 32 (bits (w64 w) 31 0) = BitVec.ofNat 32 w
    rw [bits_w64 _ _ hw64, Nat.pow_zero, Nat.div_one]
    exact ofNat_mod_two_pow 32 _

end Sys2Proof.Machine
end

section
/-! Operations on a semaphore at its home (O30). -/

namespace Sys2Proof.Machine

/-! ## A die changed -/

theorem State.modDie_modDie (s : State) (d : Nat) (f g : Die → Die) :
    (s.modDie d f).modDie d g = s.modDie d fun x => g (f x) := by
  unfold State.modDie State.die
  simp

/-- A change of a die that leaves it as it is listed is none. -/
theorem State.modDie_self {s : State} {d : Nat} {f : Die → Die} {ds : Table Die} {y : Die} (hd : s.dies = tset ds d y)
    (hf : f y = y) : s.modDie d f = s := by
  unfold State.modDie State.die
  rw [hd, tget_tset_same, tset_tset, hf, ← hd]

/-! ## The order of a ready queue (R52) -/

/-- What enters a ready queue stands behind all before which it does not belong, and ahead of the first before which it
does. -/
theorem insertReady_split (p : ReadyTcb) (ps : List ReadyTcb) : ∃ l r, ps = l ++ r ∧ insertReady p ps = l ++ p :: r ∧
    (∀ x, x ∈ l → p.before x = false) ∧ ∀ x, r.head? = some x → p.before x = true := by
  induction ps with
  | nil => exact ⟨[], [], rfl, rfl, nofun, nofun⟩
  | cons x xs ih =>
    by_cases h : p.before x = true
    · refine ⟨[], x :: xs, rfl, if_pos h, nofun, fun y hy => ?_⟩
      rw [← Option.some.inj hy]; exact h
    · obtain ⟨l, r, hxs, hins, hl, hr⟩ := ih
      refine ⟨x :: l, r, by rw [hxs]; rfl, (if_neg h).trans (by rw [hins]; rfl), fun y hy => ?_, hr⟩
      rcases List.mem_cons.1 hy with rfl | hy
      · simpa using h
      · exact hl y hy

/-- R52's order of two TCBs. -/
def ReadyTcb.Above (a b : ReadyTcb) : Prop :=
  b.prio.toNat < a.prio.toNat ∨ a.prio = b.prio ∧ (a.rstep.toNat < b.rstep.toNat ∨ a.rstep = b.rstep ∧
    match a.index, b.index with
    | some i, some j => i < j ∨ i = j ∧ a.order < b.order
    | some _, none => True
    | none, some _ => False
    | none, none => a.num.toNat < b.num.toNat ∨ a.num = b.num ∧ a.order < b.order)

theorem ReadyTcb.before_iff (a b : ReadyTcb) : a.before b = true ↔ a.Above b := by
  unfold ReadyTcb.before ReadyTcb.Above
  by_cases hp : a.prio = b.prio
  · rw [if_neg (by simpa using hp)]
    by_cases hr : a.rstep = b.rstep
    · rw [if_neg (by simpa using hr)]
      simp only [hp, hr, Nat.lt_irrefl, false_or, true_and]
      rcases a.index with _ | i <;> rcases b.index with _ | j
      · by_cases hn : a.num = b.num <;> simp [hn, BitVec.lt_def]
      · simp
      · simp
      · by_cases hi : i = j <;> simp [hi]
    · simp [hp, hr, BitVec.lt_def]
  · simp [hp, BitVec.lt_def]

/-! ## What a home does next (R214, R231, R364) -/

/-- A home whose oldest operation has been taken. -/
def State.taken (s : State) (d : Nat) (os : List SemOp) : State := s.modDie d fun x => { x with inbox := os }

section
variable {s : State} {d : Nat} {o : SemOp} {os : List SemOp} (hin : (s.die d).inbox = o :: os)
include hin

theorem semUpdateAtHome_idle (h : s.refclk < o.due) : Idle s (.semUpdateAtHome d) := by
  have hnone : s.semAtHome d = none := by
    unfold State.semAtHome
    rw [hin]
    exact if_pos h
  show execSemUpdateAtHome d s = _
  unfold execSemUpdateAtHome
  rw [hnone]; rfl

theorem semUpdateAtHome_happens (h : o.due ≤ s.refclk) : Happens s (.semUpdateAtHome d) ((s.taken d os).applySem d o) := by
  have hsome : s.semAtHome d = some ((s.taken d os).applySem d o) := by
    unfold State.semAtHome
    rw [hin]
    exact if_neg (Nat.not_lt.2 h)
  show execSemUpdateAtHome d s = _
  unfold execSemUpdateAtHome
  rw [hsome]; rfl

end

theorem State.dropsOp_of {s : State} {d : Nat} {o : SemOp} (hdev : o.dev = s.devid) (hgen : (s.queue o.queue).gen ≠ o.gen)
    (h : (s.queue o.queue).resetting = false ∨ d ∈ (s.queue o.queue).fences) : s.dropsOp d o = true := by
  unfold State.dropsOp State.fencedOff
  rw [if_pos hdev]
  rcases h with h | h <;> simp [hgen, h]

theorem State.not_dropsOp {s : State} {d : Nat} {o : SemOp} (hdev : o.dev = s.devid) (hgen : (s.queue o.queue).gen = o.gen) :
    s.dropsOp d o = false := by
  unfold State.dropsOp State.fencedOff
  rw [if_pos hdev]
  simp [hgen]

/-! ## Waiting SEM.WAITs (R214, R217) -/

/-- No waiting SEM.WAIT of a semaphore has its threshold met. -/
def State.Calm (s : State) (d i : Nat) : Prop :=
  ∀ x, x ∈ (s.die d).waiters → x.index = i → ((s.die d).sem i).toNat < x.threshold.toNat

/-- No arm of a list has its threshold met by a value of a semaphore. -/
def ArmsIdle (as : List Arm) (i : Nat) (v : W64) : Prop :=
  ∀ x, x ∈ as → x.index = i → v.toNat < x.threshold.toNat

theorem State.serveWaiters_unmet {s : State} {d i : Nat} {w : Waiter}
    (h : w.index = i → ((s.die d).sem i).toNat < w.threshold.toNat) (ws : List Waiter) :
    s.serveWaiters d i (w :: ws) = s.serveWaiters d i ws := by
  have hc : (decide (w.index = i) && decide (w.threshold.toNat ≤ ((s.die d).sem i).toNat)) = false := by
    by_cases hi : w.index = i
    · simpa [hi] using h hi
    · simp [hi]
  rw [State.serveWaiters]
  dsimp only
  rw [if_neg]
  simpa using hc

theorem State.serveWaiters_calm {s : State} {d i : Nat} (ws : List Waiter)
    (h : ∀ w, w ∈ ws → w.index = i → ((s.die d).sem i).toNat < w.threshold.toNat) : s.serveWaiters d i ws = s := by
  induction ws with
  | nil => rfl
  | cons w ws ih =>
    rw [State.serveWaiters_unmet (h w List.mem_cons_self)]
    exact ih fun x hx => h x (List.mem_cons_of_mem _ hx)

/-! ## What follows an update (R51, R214) -/

theorem filter_armsIdle {as : List Arm} {i : Nat} {v : W64} (h : ArmsIdle as i v) :
    as.filter (fun a => a.index == i && decide (a.threshold.toNat ≤ v.toNat)) = [] := by
  refine List.filter_eq_nil_iff.2 fun a ha hmet => ?_
  simp only [Bool.and_eq_true, beq_iff_eq, decide_eq_true_eq] at hmet
  exact absurd (h a ha hmet.1) (Nat.not_lt.2 hmet.2)

/-- Where no threshold is met, nothing follows. -/
theorem State.settleSem_idle {s : State} {d i : Nat} (harms : ArmsIdle (s.die d).arms i ((s.die d).sem i))
    (hcalm : s.Calm d i) : s.settleSem d i = s := by
  unfold State.settleSem
  dsimp only
  rw [filter_armsIdle harms]
  exact State.serveWaiters_calm _ hcalm

theorem State.releaseArm_kept (s : State) (d : Nat) (a : Arm) (c : Nat) :
    ((s.releaseArm d a).die c).sems = (s.die c).sems ∧ ((s.releaseArm d a).die c).waiters = (s.die c).waiters := by
  have hfree : ((s.modDie d fun x => { x with arms := x.arms.erase a }).die c).sems = (s.die c).sems ∧
      ((s.modDie d fun x => { x with arms := x.arms.erase a }).die c).waiters = (s.die c).waiters := by
    rw [State.die_modDie]
    split
    · next h => rw [h]; exact ⟨rfl, rfl⟩
    · exact ⟨rfl, rfl⟩
  unfold State.releaseArm
  dsimp only
  split
  · have h := State.releaseKept_releaseTcb (s.modDie d fun x => { x with arms := x.arms.erase a }) a.launch a.tcb d
    exact ⟨(h.sems c).trans hfree.1, (h.waiters c).trans hfree.2⟩
  · exact hfree

/-- Where the threshold of one arm is met, its TCB is released. -/
theorem State.settleSem_arm {s : State} {d i : Nat} {a : Arm} {as bs : List Arm} (harms : (s.die d).arms = as ++ a :: bs)
    (hi : a.index = i) (hmet : a.threshold.toNat ≤ ((s.die d).sem i).toNat)
    (hidle : ArmsIdle (as ++ bs) i ((s.die d).sem i)) (hcalm : s.Calm d i) : s.settleSem d i = s.releaseArm d a := by
  have has : ArmsIdle as i ((s.die d).sem i) := fun x hx => hidle x (List.mem_append_left _ hx)
  have hbs : ArmsIdle bs i ((s.die d).sem i) := fun x hx => hidle x (List.mem_append_right _ hx)
  have hdue : (s.die d).arms.filter (fun a => a.index == i && decide (a.threshold.toNat ≤ ((s.die d).sem i).toNat)) = [a] := by
    rw [harms, List.filter_append, filter_armsIdle has, List.filter_cons_of_pos (by simp [hi, hmet]), filter_armsIdle hbs]
    rfl
  obtain ⟨hsems, hwaiters⟩ := s.releaseArm_kept d a d
  unfold State.settleSem
  dsimp only
  rw [hdue]
  refine State.serveWaiters_calm _ fun w hw hwi => ?_
  have hw' : w ∈ ((s.releaseArm d a).die d).waiters := hw
  rw [hwaiters] at hw'
  show (tget 0 ((s.releaseArm d a).die d).sems i).toNat < _
  rw [hsems]
  exact hcalm w hw' hwi

theorem erase_arm {as bs : List Arm} {a : Arm} {i : Nat} {v : W64} (hi : a.index = i) (hmet : a.threshold.toNat ≤ v.toNat)
    (hidle : ArmsIdle as i v) : (as ++ a :: bs).erase a = as ++ bs := by
  rw [List.erase_append_right _ fun h => absurd (hidle a h hi) (Nat.not_lt.2 hmet), List.erase_cons_head]

/-! ## Answers (R218, R231) -/

/-- The slot of a task of this device waits for the answer to an operation other than a SEM.WAIT. -/
def State.Asked (s : State) (o : SemOp) (xd : XReg) : Prop :=
  o.uid ≠ 0 ∧ (s.slotAt ⟨o.core, o.slot⟩).occ = true ∧ (s.slotAt ⟨o.core, o.slot⟩).uid = o.uid ∧
    (s.slotAt ⟨o.core, o.slot⟩).wait = .sem xd false

/-- A state in which the answer to an operation at a die, asked in another state, is on its way. -/
def State.answering (s u : State) (d : Nat) (o : SemOp) (xd : XReg) (x : W64) : State :=
  u.setSlot ⟨o.core, o.slot⟩ { s.slotAt ⟨o.core, o.slot⟩ with
    wait := .semDone xd x false (s.refclk + (12 + 20 * hops (o.core / 96) d) + (s.slotAt ⟨o.core, o.slot⟩).lag) }

theorem State.sendAnswer_asked {s u : State} {o : SemOp} {xd : XReg} (h : s.Asked o xd) (hdev : o.dev = u.devid)
    (hslot : u.slotAt ⟨o.core, o.slot⟩ = s.slotAt ⟨o.core, o.slot⟩) (hclk : u.refclk = s.refclk) (d : Nat) (x : W64) :
    u.sendAnswer d o.dev o.core o.slot o.uid x = s.answering u d o xd x := by
  obtain ⟨huid, hocc, hmine, hwait⟩ := h
  unfold State.sendAnswer State.answerSem
  rw [if_pos hdev]
  dsimp only
  rw [if_neg huid, hslot, hocc, hmine, hwait]
  simp only [Bool.not_true, Bool.false_or, ne_eq, not_true_eq_false, decide_false, Bool.false_eq_true, if_false]
  unfold State.modSlot State.answering
  rw [hslot, hclk]
  rfl

/-- A task of this device waits in a slot for the condition of a SEM.WAIT. -/
def State.WaitsIn (s : State) (z : Waiter) (dz : XReg) : Prop :=
  z.dev = s.devid ∧ z.uid ≠ 0 ∧ (s.slotAt ⟨z.core, z.slot⟩).occ = true ∧ (s.slotAt ⟨z.core, z.slot⟩).uid = z.uid ∧
    (s.slotAt ⟨z.core, z.slot⟩).wait = .sem dz true

/-- A slot whose SEM.WAIT has been met: the value is on its way. -/
def Slot.metWait (l : Slot) (dz : XReg) (v : W64) (at_ : Nat) : Slot :=
  { l with wait := .semDone dz v true at_, away := none, cancelled := false }

theorem State.sendAnswer_waits {u : State} {z : Waiter} {dz : XReg} (h : u.WaitsIn z dz) (d : Nat) (v : W64) :
    u.sendAnswer d z.dev z.core z.slot z.uid v =
      u.modSlot ⟨z.core, z.slot⟩ fun l => l.metWait dz v (u.refclk + (12 + 20 * hops (z.core / 96) d)) := by
  obtain ⟨hdev, huid, hocc, hmine, hwait⟩ := h
  unfold State.sendAnswer State.answerSem
  rw [if_pos hdev]
  dsimp only
  rw [if_neg huid, hocc, hmine, hwait]
  simp only [Bool.not_true, Bool.false_or, ne_eq, not_true_eq_false, decide_false, Bool.false_eq_true, if_false]
  rfl

/-! ## The operations (R214 to R219) -/

/-- The state in which an operation has been taken and has given its semaphore a value. -/
def State.updated (s : State) (d : Nat) (o : SemOp) (os : List SemOp) (w : W64) : State :=
  s.modDie d fun x => { x with inbox := os, sems := tset x.sems o.index w }

theorem State.sem_updated (s : State) (d : Nat) (o : SemOp) (os : List SemOp) (w : W64) :
    ((s.updated d o os w).die d).sem o.index = w := by
  unfold State.updated Die.sem
  rw [State.die_modDie_same]
  exact tget_tset_same _ _ _ _

theorem State.die_taken (s : State) (d : Nat) (os : List SemOp) :
    (s.taken d os).die d = { s.die d with inbox := os } := State.die_modDie_same _ _ _

theorem State.taken_setSem (s : State) (d : Nat) (o : SemOp) (os : List SemOp) (w : W64) :
    (s.taken d os).modDie d (fun x => x.setSem o.index w) = s.updated d o os w := State.modDie_modDie _ _ _ _

/-- SEM.ADD keeps the sum in range (R218). -/
theorem semClamp_eq (v a : W64) : semClamp v a = BitVec.ofInt 64 (min (max (v.toNat + a.toInt) 0) (2 ^ 64 - 1)) := by
  unfold semClamp w64
  dsimp only
  split
  · next h => rw [max_eq_right h.le]; rfl
  · next h =>
    rw [max_eq_left (not_lt.1 h)]
    split
    · next h2 => rw [min_eq_right (by omega)]; rfl
    · next h2 =>
      rw [min_eq_left (by omega), ← BitVec.ofInt_natCast, Int.toNat_of_nonneg (not_lt.1 h)]

section
variable {s : State} {d : Nat} {o : SemOp} {os : List SemOp} (hkeep : s.dropsOp d o = false)
include hkeep

theorem State.applySem_read (h : o.kind = .read) : (s.taken d os).applySem d o =
    (s.taken d os).sendAnswer d o.dev o.core o.slot o.uid ((s.die d).sem o.index) := by
  unfold State.applySem
  dsimp only
  rw [show (s.taken d os).dropsOp d o = false from hkeep, h, s.die_taken]
  rfl

theorem State.applySem_sig {a : W64} (h : o.kind = .sig a) : (s.taken d os).applySem d o =
    (s.updated d o os (semSum ((s.die d).sem o.index) a)).settleSem d o.index := by
  unfold State.applySem
  dsimp only
  rw [show (s.taken d os).dropsOp d o = false from hkeep, h, s.die_taken, State.taken_setSem]
  rfl

/-- SEM.ADD and SEM.SET answer with the value from before. -/
theorem State.applySem_answered {w : W64} (h : (∃ a, o.kind = .add a ∧ w = semClamp ((s.die d).sem o.index) a) ∨ o.kind = .set w) :
    (s.taken d os).applySem d o = ((s.updated d o os w).settleSem d o.index).sendAnswer d o.dev o.core o.slot o.uid
      ((s.die d).sem o.index) := by
  unfold State.applySem
  dsimp only
  rw [show (s.taken d os).dropsOp d o = false from hkeep]
  rcases h with ⟨a, h, rfl⟩ | h
  · rw [h, s.die_taken, State.taken_setSem]
    rfl
  · rw [h, s.die_taken, State.taken_setSem]
    rfl

/-- The arm record of SEM.ARM of TCB i of launch n at a threshold. -/
def SemOp.arm (o : SemOp) (n i : Nat) (t : W64) : Arm :=
  { index := o.index, threshold := t, launch := n, tcb := i, dev := o.dev, gen := o.gen }

/-- The name of a semaphore of this device at a die. -/
def State.semName (s : State) (d : Nat) (o : SemOp) : W64 := w64 (s.devid.toNat * 2 ^ 32 + d * 2 ^ 29 + o.index)

/-- An arm of a launch that has ended has no effect, and one of a TCB that may not be armed, or with no record free, answers 1
or 3 (R219). -/
theorem State.applySem_arm {n i : Nat} {t : W64} (hdev : o.dev = s.devid) (h : o.kind = .arm n i t) :
    (s.taken d os).applySem d o =
      if (s.launch n).stage ≠ .admitted then s.taken d os
      else if s.tcbFree n i = false then (s.taken d os).sendAnswer d o.dev o.core o.slot o.uid 1
      else if Config.armRecords ≤ (s.die d).arms.length then (s.taken d os).sendAnswer d o.dev o.core o.slot o.uid 3
      else ((((s.taken d os).writeArm n i (s.semName d o) t).modDie d fun x =>
        { x with arms := x.arms ++ [o.arm n i t] }).sendAnswer d o.dev o.core o.slot o.uid 0).settleSem d o.index := by
  have hfree : (s.taken d os).tcbFree n i = s.tcbFree n i := rfl
  have hlaunch : (s.taken d os).launch n = s.launch n := rfl
  unfold State.applySem
  dsimp only
  rw [show (s.taken d os).dropsOp d o = false from hkeep, h, s.die_taken,
    decide_eq_true (show o.dev = (s.taken d os).devid from hdev)]
  dsimp only
  rw [hfree, hlaunch]
  simp only [Bool.false_eq_true, if_false, Bool.true_and, bne_iff_ne, Bool.not_eq_true', if_true]
  rfl

end

/-! ## Arms at a home (R51, R219) -/

/-- The name of a semaphore of a die fits its fields. -/
theorem State.toNat_semName (s : State) {d : Nat} {o : SemOp} (hd : d < 8) (hi : o.index < 2 ^ 14) :
    (s.semName d o).toNat = s.devid.toNat * 2 ^ 32 + d * 2 ^ 29 + o.index := by
  have := s.devid.isLt
  unfold State.semName w64
  rw [BitVec.toNat_ofNat, Nat.mod_eq_of_lt (by omega)]

/-- The state in which an operation has been taken and SEMID, THRESH and STATE of a TCB are written. -/
def State.armWritten (s : State) (d : Nat) (o : SemOp) (os : List SemOp) (n i : Nat) (t : W64) : State :=
  (s.taken d os).fwWrite (s.queue (s.launch n).queue).troot ((s.launch n).tcbs.toNat + 64 * i + 0x20) 24
    (s.devid.toNat * 2 ^ 32 + d * 2 ^ 29 + o.index + t.toNat * 2 ^ 64 + 2 ^ 128)

theorem State.writeArm_taken {s : State} {d : Nat} {o : SemOp} (hd : d < 8) (hi : o.index < 2 ^ 14) (os : List SemOp)
    (n i : Nat) (t : W64) : (s.taken d os).writeArm n i (s.semName d o) t = s.armWritten d o os n i t := by
  unfold State.writeArm State.armWritten
  rw [s.toNat_semName hd hi]
  rfl

/-- The state in which the home of a semaphore has answered an arm and keeps its record. -/
def State.recorded (s : State) (d : Nat) (o : SemOp) (os : List SemOp) (xd : XReg) (n i : Nat) (t : W64) : State :=
  s.answering ((s.armWritten d o os n i t).modDie d fun x => { x with arms := x.arms ++ [o.arm n i t] }) d o xd 0

theorem State.die_recorded (s : State) (d : Nat) (o : SemOp) (os : List SemOp) (xd : XReg) (n i : Nat) (t : W64) :
    (s.recorded d o os xd n i t).die d = { s.die d with inbox := os, arms := (s.die d).arms ++ [o.arm n i t] } := by
  show ((s.armWritten d o os n i t).modDie d fun x => { x with arms := x.arms ++ [o.arm n i t] }).die d = _
  rw [State.die_modDie_same]
  show { (s.taken d os).die d with arms := ((s.taken d os).die d).arms ++ [o.arm n i t] } = _
  rw [s.die_taken]

section
variable {s : State} {d : Nat} {o : SemOp} {os : List SemOp} {xd : XReg} {n i : Nat} {t : W64}
  (hidle : ArmsIdle (s.die d).arms o.index ((s.die d).sem o.index)) (hcalm : s.Calm d o.index)
include hidle hcalm

/-- A new arm whose threshold is not met waits. -/
theorem State.settleSem_recorded_unmet (h : ((s.die d).sem o.index).toNat < t.toNat) :
    (s.recorded d o os xd n i t).settleSem d o.index = s.recorded d o os xd n i t := by
  refine State.settleSem_idle ?_ ?_
  · rw [s.die_recorded]
    intro x hx hxi
    rcases List.mem_append.1 hx with hx | hx
    · exact hidle x hx hxi
    · rw [List.mem_singleton.1 hx]; exact h
  · unfold State.Calm
    rw [s.die_recorded]
    exact hcalm

/-- A new arm whose threshold is met frees its record again, and its TCB is released. -/
theorem State.settleSem_recorded_met (hdev : o.dev = s.devid) (h : t.toNat ≤ ((s.die d).sem o.index).toNat) :
    (s.recorded d o os xd n i t).settleSem d o.index =
      (s.answering (s.armWritten d o os n i t) d o xd 0).releaseTcb n i d := by
  have hdie := s.die_recorded d o os xd n i t
  have hsettle : (s.recorded d o os xd n i t).settleSem d o.index = (s.recorded d o os xd n i t).releaseArm d (o.arm n i t) := by
    refine State.settleSem_arm (as := (s.die d).arms) (bs := []) (by rw [hdie]) rfl (by rw [hdie]; exact h) ?_ ?_
    · rw [hdie, List.append_nil]; exact hidle
    · unfold State.Calm
      rw [hdie]
      exact hcalm
  have hfreed : (s.recorded d o os xd n i t).modDie d (fun x => { x with arms := x.arms.erase (o.arm n i t) }) =
      s.answering (s.armWritten d o os n i t) d o xd 0 := by
    show (((s.armWritten d o os n i t).modDie d fun x => { x with arms := x.arms ++ [o.arm n i t] }).modDie d
      (fun x => { x with arms := x.arms.erase (o.arm n i t) })).setSlot _ _ = (s.armWritten d o os n i t).setSlot _ _
    rw [State.modDie_modDie]
    congr 1
    refine State.modDie_self (y := { s.die d with inbox := os }) rfl ?_
    dsimp only
    rw [erase_arm (v := (s.die d).sem o.index) rfl h hidle, List.append_nil]
  rw [hsettle]
  unfold State.releaseArm
  dsimp only
  rw [hfreed]
  exact if_pos hdev

end

/-- The clauses of SEM.ARM at its home. -/
theorem armAtHome {s : State} {d : Nat} {o : SemOp} {os : List SemOp} {xd : XReg} {n i : Nat} {t : W64}
    (hin : (s.die d).inbox = o :: os) (hdev : o.dev = s.devid) (hdue : o.due ≤ s.refclk)
    (hgen : (s.queue o.queue).gen = o.gen) (hasked : s.Asked o xd) (hkind : o.kind = .arm n i t) (hd : d < 8)
    (hindex : o.index < 2 ^ 14) :
    ((s.launch n).stage ≠ .admitted → Happens s (.semUpdateAtHome d) (s.taken d os)) ∧
    ((s.launch n).stage = .admitted → s.tcbFree n i = false →
      Happens s (.semUpdateAtHome d) (s.answering (s.taken d os) d o xd 1)) ∧
    ((s.launch n).stage = .admitted → s.tcbFree n i = true → Config.armRecords ≤ (s.die d).arms.length →
      Happens s (.semUpdateAtHome d) (s.answering (s.taken d os) d o xd 3)) ∧
    ((s.launch n).stage = .admitted → s.tcbFree n i = true → (s.die d).arms.length < Config.armRecords →
      ArmsIdle (s.die d).arms o.index ((s.die d).sem o.index) → s.Calm d o.index →
      (((s.die d).sem o.index).toNat < t.toNat → Happens s (.semUpdateAtHome d) (s.recorded d o os xd n i t)) ∧
      (t.toNat ≤ ((s.die d).sem o.index).toNat → Happens s (.semUpdateAtHome d)
        ((s.answering (s.armWritten d o os n i t) d o xd 0).releaseTcb n i d))) := by
  have hnext := semUpdateAtHome_happens hin hdue
  rw [State.applySem_arm (State.not_dropsOp hdev hgen) hdev hkind] at hnext
  have hanswer : ∀ (u : State) (x : W64), u.devid = s.devid → u.slotAt ⟨o.core, o.slot⟩ = s.slotAt ⟨o.core, o.slot⟩ →
      u.refclk = s.refclk → u.sendAnswer d o.dev o.core o.slot o.uid x = s.answering u d o xd x := fun u x hud hus huc =>
    State.sendAnswer_asked hasked (hdev.trans hud.symm) hus huc d x
  refine ⟨fun hstage => ?_, fun hstage htaken => ?_, fun hstage hfree hfull => ?_, fun hstage hfree hroom hidle hcalm => ?_⟩
  · rwa [if_pos hstage] at hnext
  · rwa [if_neg (not_not.2 hstage), if_pos htaken, hanswer (s.taken d os) 1 rfl rfl rfl] at hnext
  · rwa [if_neg (not_not.2 hstage), if_neg (by simp [hfree]), if_pos hfull, hanswer (s.taken d os) 3 rfl rfl rfl] at hnext
  · rw [if_neg (not_not.2 hstage), if_neg (by simp [hfree]), if_neg (Nat.not_le.2 hroom), State.writeArm_taken hd hindex,
      hanswer ((s.armWritten d o os n i t).modDie d fun x => { x with arms := x.arms ++ [o.arm n i t] }) 0 rfl rfl rfl] at hnext
    refine ⟨fun hunmet => ?_, fun hmet => ?_⟩
    · rw [← State.settleSem_recorded_unmet (os := os) (xd := xd) (n := n) (i := i) hidle hcalm hunmet]
      exact hnext
    · rw [← State.settleSem_recorded_met (os := os) (xd := xd) (n := n) (i := i) hidle hcalm hdev hmet]
      exact hnext

/-! ## Updates (R214, R216, R218) -/

/-- An operation that gives its semaphore a value, with what becomes of a state when the value from before leaves for the slot
that asked for it. -/
def State.Updates (s : State) (d : Nat) (o : SemOp) (xd : XReg) (w : W64) (ends : State → State) : Prop :=
  (∃ a, o.kind = .sig a ∧
      w = BitVec.ofNat 64 (min (((s.die d).sem o.index).toNat + a.toNat) (2 ^ 64 - 1)) ∧ ends = id) ∨
    s.Asked o xd ∧ ends = (fun u => s.answering u d o xd ((s.die d).sem o.index)) ∧
      ((∃ a, o.kind = .add a ∧
          w = BitVec.ofInt 64 (min (max (((s.die d).sem o.index).toNat + a.toInt) 0) (2 ^ 64 - 1))) ∨
        o.kind = .set w)

/-- An update settles its semaphore before its answer leaves. -/
theorem State.Updates.happens {s : State} {d : Nat} {o : SemOp} {os : List SemOp} {xd : XReg} {w : W64}
    {ends : State → State} (h : s.Updates d o xd w ends) (hin : (s.die d).inbox = o :: os) (hdev : o.dev = s.devid)
    (hdue : o.due ≤ s.refclk) (hgen : (s.queue o.queue).gen = o.gen) {u : State}
    (hsettle : (s.updated d o os w).settleSem d o.index = u) (hslot : ∀ r, u.slotAt r = s.slotAt r)
    (hclk : u.refclk = s.refclk) (hudev : u.devid = s.devid) : Happens s (.semUpdateAtHome d) (ends u) := by
  have hnext := semUpdateAtHome_happens hin hdue
  have hkeep : s.dropsOp d o = false := State.not_dropsOp hdev hgen
  rcases h with ⟨a, hkind, rfl, rfl⟩ | ⟨hasked, rfl, hkind⟩
  · rw [State.applySem_sig hkeep hkind] at hnext
    exact hsettle ▸ hnext
  · have hkind' : (∃ a, o.kind = .add a ∧ w = semClamp ((s.die d).sem o.index) a) ∨ o.kind = .set w :=
      hkind.imp_left fun ⟨a, ha, hw⟩ => ⟨a, ha, hw.trans (semClamp_eq _ _).symm⟩
    rw [State.applySem_answered hkeep hkind', hsettle,
      State.sendAnswer_asked hasked (hdev.trans hudev.symm) (hslot _) hclk] at hnext
    exact hnext

theorem State.die_updated (s : State) (d : Nat) (o : SemOp) (os : List SemOp) (w : W64) :
    (s.updated d o os w).die d = { s.die d with inbox := os, sems := tset (s.die d).sems o.index w } :=
  State.die_modDie_same _ _ _

/-- No waiting SEM.WAIT of a semaphore has its threshold met by a value. -/
def State.CalmAt (s : State) (d i : Nat) (w : W64) : Prop :=
  ∀ x, x ∈ (s.die d).waiters → x.index = i → w.toNat < x.threshold.toNat

theorem State.CalmAt.updated {s : State} {d : Nat} {o : SemOp} {os : List SemOp} {w : W64} (h : s.CalmAt d o.index w) :
    (s.updated d o os w).Calm d o.index := by
  unfold State.Calm
  rw [State.sem_updated, s.die_updated]
  exact h

theorem State.settleSem_updated_idle {s : State} {d : Nat} {o : SemOp} {os : List SemOp} {w : W64}
    (hidle : ArmsIdle (s.die d).arms o.index w) (hcalm : s.CalmAt d o.index w) :
    (s.updated d o os w).settleSem d o.index = s.updated d o os w := by
  refine State.settleSem_idle ?_ hcalm.updated
  rw [State.sem_updated, s.die_updated]
  exact hidle

/-- The state in which an update has met the threshold of an arm, and freed its record. -/
def State.freed (s : State) (d : Nat) (o : SemOp) (os : List SemOp) (w : W64) (left : List Arm) : State :=
  (s.updated d o os w).modDie d fun x => { x with arms := left }

theorem State.settleSem_updated_arm {s : State} {d : Nat} {o : SemOp} {os : List SemOp} {w : W64} {a : Arm} {as bs : List Arm}
    (harms : (s.die d).arms = as ++ a :: bs) (hi : a.index = o.index) (hmet : a.threshold.toNat ≤ w.toNat)
    (hidle : ArmsIdle (as ++ bs) o.index w) (hcalm : s.CalmAt d o.index w) :
    (s.updated d o os w).settleSem d o.index =
      if a.dev = s.devid then (s.freed d o os w (as ++ bs)).releaseTcb a.launch a.tcb d
      else { s.freed d o os w (as ++ bs) with
        outbox := s.outbox ++ [{ dest := a.dev, body := .tcbRelease a.launch a.tcb a.gen }] } := by
  have hfreed : (s.updated d o os w).modDie d (fun x => { x with arms := x.arms.erase a }) = s.freed d o os w (as ++ bs) := by
    unfold State.freed State.modDie
    rw [s.die_updated]
    dsimp only
    rw [harms, erase_arm hi hmet fun x hx => hidle x (List.mem_append_left _ hx)]
  rw [State.settleSem_arm (as := as) (bs := bs) (by rw [s.die_updated]; exact harms) hi (by rw [State.sem_updated]; exact hmet)
    (by rw [State.sem_updated]; exact hidle) hcalm.updated]
  unfold State.releaseArm
  dsimp only
  rw [hfreed]
  rfl

/-! ## Two waiting SEM.WAITs in their order of arrival (R214) -/

/-- The value that a SEM.WAIT leaves to those behind it. -/
def Waiter.leaves (z : Waiter) (w : W64) : W64 :=
  if z.threshold.toNat ≤ w.toNat ∧ z.take = true then w - z.threshold else w

/-- What the home has done, once it has come past one waiting SEM.WAIT. -/
structure ServedOne (u t : State) (d i : Nat) (z : Waiter) (dz : XReg) : Prop where
  slot : t.slotAt ⟨z.core, z.slot⟩ = if z.threshold.toNat ≤ ((u.die d).sem i).toNat
    then (u.slotAt ⟨z.core, z.slot⟩).metWait dz ((u.die d).sem i) (u.refclk + (12 + 20 * hops (z.core / 96) d))
    else u.slotAt ⟨z.core, z.slot⟩
  others : ∀ q, q ≠ ⟨z.core, z.slot⟩ → t.slotAt q = u.slotAt q
  sem : (t.die d).sem i = z.leaves ((u.die d).sem i)
  waiters : (t.die d).waiters =
    if z.threshold.toNat ≤ ((u.die d).sem i).toNat then (u.die d).waiters.erase z else (u.die d).waiters
  rest : t.mem = u.mem ∧ t.refclk = u.refclk ∧ t.devid = u.devid

theorem State.serveWaiters_one {u : State} {d i : Nat} {z : Waiter} {dz : XReg} (hi : z.index = i) (h : u.WaitsIn z dz)
    (ws : List Waiter) : ∃ t, u.serveWaiters d i (z :: ws) = t.serveWaiters d i ws ∧ ServedOne u t d i z dz := by
  by_cases hmet : z.threshold.toNat ≤ ((u.die d).sem i).toNat
  · let v := (u.die d).sem i
    let f : Die → Die := fun x => { (if z.take then x.setSem i (v - z.threshold) else x) with waiters := x.waiters.erase z }
    have hstep : u.serveWaiters d i (z :: ws) =
        ((u.modDie d f).sendAnswer d z.dev z.core z.slot z.uid v).serveWaiters d i ws := by
      rw [State.serveWaiters]
      dsimp only
      rw [if_pos (by simp [hi, hmet])]
    rw [State.sendAnswer_waits (u := u.modDie d f) (dz := dz) h] at hstep
    refine ⟨_, hstep, ?_, fun q hq => ?_, ?_, ?_, rfl, rfl, rfl⟩
    · rw [if_pos hmet, State.slotAt_modSlot_same]; rfl
    · rw [State.slotAt_modSlot, if_neg hq]; rfl
    · show (((u.modDie d f).die d).sem i) = _
      rw [State.die_modDie_same, Waiter.leaves]
      by_cases htake : z.take = true
      · rw [if_pos ⟨hmet, htake⟩]
        show (f (u.die d)).sem i = v - z.threshold
        simp [f, htake, Die.sem, Die.setSem]
      · rw [if_neg fun hc => htake hc.2]
        show (f (u.die d)).sem i = v
        simp [f, htake, Die.sem, v]
    · show (((u.modDie d f).die d).waiters) = _
      rw [State.die_modDie_same, if_pos hmet]
  · refine ⟨u, State.serveWaiters_unmet (fun _ => Nat.not_le.1 hmet) ws, ?_, fun _ _ => rfl, ?_, ?_, rfl, rfl, rfl⟩
    · rw [if_neg hmet]
    · rw [Waiter.leaves, if_neg fun hc => hmet hc.1]
    · rw [if_neg hmet]

theorem State.WaitsIn.mono {u t : State} {z : Waiter} {dz : XReg} (h : u.WaitsIn z dz) (hdev : t.devid = u.devid)
    (hslot : t.slotAt ⟨z.core, z.slot⟩ = u.slotAt ⟨z.core, z.slot⟩) : t.WaitsIn z dz := by
  unfold State.WaitsIn
  rw [hdev, hslot]
  exact h

/-- The waiting SEM.WAITs that are left of two. -/
theorem erase_two {x y : Waiter} (hxy : x ≠ y) (p q : Prop) [Decidable p] [Decidable q] :
    (if q then (if p then [x, y].erase x else [x, y]).erase y else if p then [x, y].erase x else [x, y]) =
      (if p then [] else [x]) ++ if q then [] else [y] := by
  by_cases hp : p <;> by_cases hq : q <;> simp [hp, hq, hxy]

/-- Two waiting SEM.WAITs are served in their order, each with the value that the one before it has left. -/
theorem State.serveWaiters_two {u : State} {d i : Nat} {x y : Waiter} {dx dy : XReg} (hw : (u.die d).waiters = [x, y])
    (hx : x.index = i) (hy : y.index = i) (hxw : u.WaitsIn x dx) (hyw : u.WaitsIn y dy)
    (hne : (⟨x.core, x.slot⟩ : SlotRef) ≠ ⟨y.core, y.slot⟩) :
    let w := (u.die d).sem i
    let t := u.serveWaiters d i [x, y]
    t.slotAt ⟨x.core, x.slot⟩ = (if x.threshold.toNat ≤ w.toNat
      then (u.slotAt ⟨x.core, x.slot⟩).metWait dx w (u.refclk + (12 + 20 * hops (x.core / 96) d))
      else u.slotAt ⟨x.core, x.slot⟩) ∧
    t.slotAt ⟨y.core, y.slot⟩ = (if y.threshold.toNat ≤ (x.leaves w).toNat
      then (u.slotAt ⟨y.core, y.slot⟩).metWait dy (x.leaves w) (u.refclk + (12 + 20 * hops (y.core / 96) d))
      else u.slotAt ⟨y.core, y.slot⟩) ∧
    (t.die d).sem i = y.leaves (x.leaves w) ∧
    (t.die d).waiters = (if x.threshold.toNat ≤ w.toNat then [] else [x]) ++
      (if y.threshold.toNat ≤ (x.leaves w).toNat then [] else [y]) ∧
    t.mem = u.mem ∧ ∀ q, q ≠ ⟨x.core, x.slot⟩ → q ≠ ⟨y.core, y.slot⟩ → t.slotAt q = u.slotAt q := by
  intro w t
  obtain ⟨u1, h1, s1⟩ := State.serveWaiters_one (d := d) hx hxw [y]
  obtain ⟨hmem1, hclk1, hdev1⟩ := s1.rest
  obtain ⟨u2, h2, s2⟩ := State.serveWaiters_one (d := d) hy (hyw.mono hdev1 (s1.others _ hne.symm)) []
  obtain ⟨hmem2, -, -⟩ := s2.rest
  have ht : t = u2 := h1.trans h2
  have hyslot := s2.slot
  have hwaiters := s2.waiters
  rw [s1.sem, s1.others _ hne.symm, hclk1] at hyslot
  rw [s1.sem, s1.waiters, hw, erase_two fun e => hne (by rw [e])] at hwaiters
  rw [ht]
  exact ⟨(s2.others _ hne).trans s1.slot, hyslot, s2.sem.trans (by rw [s1.sem]), hwaiters, hmem2.trans hmem1,
    fun q hqx hqy => (s2.others q hqy).trans (s1.others q hqx)⟩

theorem State.settleSem_armsIdle {s : State} {d i : Nat} (h : ArmsIdle (s.die d).arms i ((s.die d).sem i)) :
    s.settleSem d i = s.serveWaiters d i (s.die d).waiters := by
  unfold State.settleSem
  dsimp only
  rw [filter_armsIdle h]
  rfl

/-- Settles O30: a home takes the oldest operation that has reached it; what follows an update is the release of the arm that
it meets and the service of those that wait; and what enters a ready queue is put into R52's order. -/
theorem semaphoresAtTheirHome : Obligations.SemaphoresAtTheirHome := by
  unfold Obligations.SemaphoresAtTheirHome
  refine ⟨fun s d o os xd hin hdev => ⟨semUpdateAtHome_idle hin, fun hdue hgen hfence => ?_, fun hdue hgen => ?_⟩,
    fun p ps => ?_⟩
  · have hnext := semUpdateAtHome_happens hin hdue
    unfold State.applySem at hnext
    rw [show (s.taken d os).dropsOp d o = true from State.dropsOp_of hdev hgen hfence] at hnext
    exact hnext
  · refine ⟨fun hmine hread => ?_, fun n i t hmine harm hd hindex => ?_, fun w ends hupd => ?_,
      fun a w x y dx dy hsig hw hidle hwaiters hx hy hne => ?_⟩
    · have hnext := semUpdateAtHome_happens hin hdue
      rw [State.applySem_read (State.not_dropsOp hdev hgen) hread,
        State.sendAnswer_asked (s := s) (u := s.taken d os) hmine hdev rfl rfl] at hnext
      exact hnext
    · obtain ⟨hended, htaken, hfull, hroom⟩ := armAtHome hin hdev hdue hgen hmine harm hd hindex
      refine ⟨hended, htaken, hfull, fun hstage hfree hlen hidle hcalm => ?_⟩
      obtain ⟨hunmet, hmet⟩ := hroom hstage hfree hlen hidle hcalm
      exact ⟨hunmet, fun ht => ⟨_, State.releases_releaseTcb _ n i d, hmet ht⟩⟩
    · have hupd' : s.Updates d o xd w ends := hupd
      refine ⟨fun hidle hcalm => hupd'.happens hin hdev hdue hgen (State.settleSem_updated_idle hidle hcalm)
        (fun _ => rfl) rfl rfl, fun a as bs harms hai hmet hidle hcalm => ?_⟩
      have hsettle := State.settleSem_updated_arm (os := os) harms hai hmet hidle hcalm
      refine ⟨fun hadev => ?_, fun hadev => ?_⟩
      · rw [if_pos hadev] at hsettle
        have hkept := State.releaseKept_releaseTcb (s.freed d o os w (as ++ bs)) a.launch a.tcb d
        exact ⟨_, State.releases_releaseTcb _ _ _ _, hupd'.happens hin hdev hdue hgen hsettle (fun r => hkept.slotAt r)
          hkept.refclk hkept.devid⟩
      · rw [if_neg hadev] at hsettle
        exact hupd'.happens hin hdev hdue hgen hsettle (fun _ => rfl) rfl rfl
    · obtain ⟨hxi, hxdev, hxuid, hxocc, hxmine, hxwait⟩ := hx
      obtain ⟨hyi, hydev, hyuid, hyocc, hymine, hywait⟩ := hy
      have hsem := State.sem_updated s d o os w
      have hdie := s.die_updated d o os w
      have hnext := semUpdateAtHome_happens hin hdue
      rw [State.applySem_sig (State.not_dropsOp hdev hgen) hsig, show semSum ((s.die d).sem o.index) a = w from hw.symm,
        State.settleSem_armsIdle (by rw [hsem, hdie]; exact hidle),
        show ((s.updated d o os w).die d).waiters = [x, y] by rw [hdie]; exact hwaiters] at hnext
      obtain ⟨hxs, hys, hss, hws, hmem, hrest⟩ := State.serveWaiters_two (u := s.updated d o os w) (d := d)
        (by rw [hdie]; exact hwaiters) hxi hyi (dx := dx) (dy := dy) ⟨hxdev, hxuid, hxocc, hxmine, hxwait⟩
        ⟨hydev, hyuid, hyocc, hymine, hywait⟩ hne
      rw [hsem] at hxs hys hss hws
      exact ⟨_, hnext, hxs, hys, hss, hws, hmem, hrest⟩
  · obtain ⟨l, r, hps, hins, hl, hr⟩ := insertReady_split p ps
    exact ⟨l, r, hps, hins,
      fun x hx habove => Bool.false_ne_true ((hl x hx).symm.trans ((ReadyTcb.before_iff p x).2 habove)),
      fun x hx => (ReadyTcb.before_iff p x).1 (hr x hx)⟩

end Sys2Proof.Machine
end

section
/-! What memory holds after a value has been written to consecutive locations (R7, R192). -/

namespace Sys2Proof.Machine

theorem Memory.setAll_append (m : Memory) (cs ds : List (Nat × Byte)) : m.setAll (cs ++ ds) = (m.setAll cs).setAll ds := by
  induction cs generalizing m with
  | nil => rfl
  | cons c cs ih => exact ih _

/-- A byte of a value that has been written. -/
theorem Memory.get_setAll_cells {m : Memory} (w : m.wf = true) (n v : Nat) {k j : Nat} (h : j < k) :
    (m.setAll (cellsLE n k v)).get (n + j) = BitVec.ofNat 8 (v / 2 ^ (8 * j)) := by
  induction k with
  | zero => omega
  | succ k ih =>
    rw [cellsLE_succ, Memory.setAll_append]
    show ((m.setAll (cellsLE n k v)).set (n + k) (BitVec.ofNat 8 (v / 2 ^ (8 * k)))).get (n + j) = _
    rw [Memory.get_set (Memory.wf_setAll w _)]
    by_cases e : j = k
    · rw [if_pos (by rw [e]), e]
    · rw [if_neg (by omega), ih (by omega)]

/-- The value of the bytes of a number. -/
theorem natOfBytes_cells (k x : Nat) :
    natOfBytes ((List.range k).map fun j => BitVec.ofNat 8 (x / 2 ^ (8 * j))) = x % 2 ^ (8 * k) := by
  induction k generalizing x with
  | zero => simp [natOfBytes, Nat.mod_one]
  | succ k ih =>
    have htail : ((List.range k).map fun j => BitVec.ofNat 8 (x / 2 ^ (8 * (j + 1)))) =
        (List.range k).map fun j => BitVec.ofNat 8 (x / 256 / 2 ^ (8 * j)) :=
      List.map_congr_left fun j _ => by
        rw [Nat.div_div_eq_div_mul, show 8 * (j + 1) = 8 + 8 * j by omega, Nat.pow_add]
    rw [List.range_succ_eq_map, List.map_cons, List.map_map]
    show (BitVec.ofNat 8 (x / 2 ^ (8 * 0))).toNat + 256 * natOfBytes ((List.range k).map fun j =>
      BitVec.ofNat 8 (x / 2 ^ (8 * (j + 1)))) = _
    rw [htail, ih, show 8 * (k + 1) = 8 + 8 * k by omega, Nat.pow_add, Nat.mod_mul, BitVec.toNat_ofNat]
    simp

/-- Some of the bytes of a value that has been written. -/
theorem Memory.natOfBytes_setAll_cells {m : Memory} (w : m.wf = true) (n v : Nat) {k a b : Nat} (h : a + b ≤ k) :
    natOfBytes ((List.range b).map fun j => (m.setAll (cellsLE n k v)).get (n + a + j)) = v / 2 ^ (8 * a) % 2 ^ (8 * b) := by
  rw [← natOfBytes_cells]
  refine congrArg natOfBytes (List.map_congr_left fun j hj => ?_)
  have hj' := List.mem_range.1 hj
  rw [Nat.add_assoc, Memory.get_setAll_cells w n v (by omega), Nat.div_div_eq_div_mul, ← Nat.pow_add, Nat.mul_add]

end Sys2Proof.Machine
end

section
/-! YIELD, ROLE, children and LAUNCH (O45). -/

namespace Sys2Proof.Machine

/-! ## Early checks -/

/-- Below D2 an early check of a translated access raises no trap but LEASE. -/
theorem State.early_trap {s : State} {r : SlotRef} {va n : Nat} {k : Access} {c : Cause} (hdet : (s.launchOf r).det ≠ 2)
    (h : s.checkTranslated r va n k .early = .trap c) : c = .lease := by
  unfold State.checkTranslated at h
  dsimp only at h
  simp only [decide_eq_false hdet, Bool.false_and, Bool.false_eq_true, if_false] at h
  repeat' split at h
  all_goals first
    | (injection h with h; exact h.symm)
    | cases h

theorem State.det_of_level {s : State} (h : s.level ≠ 2) : (s.launchOf s.cur).det ≠ 2 :=
  fun hd => h (congrArg BitVec.toNat hd)

theorem MemoryOnly.accessed {s t : State} (h : MemoryOnly s t) : Accessed s t :=
  ⟨fun r => h.keeps (·.slotAt r) rfl, by rw [h.keeps State.cores rfl]; exact h⟩

theorem State.accessed_pin {s t : State} {g off : Nat} (h : s.pin g off = some t) : Accessed s t := by
  unfold State.pin at h
  dsimp only at h
  split at h
  · cases h; exact ⟨fun _ => rfl, rfl⟩
  · split at h
    · cases h; exact ⟨fun _ => rfl, rfl⟩
    · split at h
      · cases h
      · rw [← Option.some.inj h]
        refine Accessed.trans ⟨fun r => ?_, ?_⟩ (State.homeWrite_memoryOnly _ _).accessed
        · exact State.slotAt_modCore _ _ _ _ fun _ => rfl
        · rfl

/-- An early check that passes, of an address in a window or of a translated one. -/
theorem State.accessed_checkEarly {s t : State} {r : SlotRef} {va n loc : Nat} {k : Access}
    (h : s.check r va n k .early = .ok loc t) : Accessed s t := by
  have hpin : ∀ {g off l : Nat} {c : Cause} {port : Option (Nat × Nat)},
      (match s.pin g off with
        | none => Check.trap c
        | some s1 => s1.checkLate r va l n port k .early) = .ok loc t → Accessed s t := fun {g off _ _ _} hm => by
    split at hm
    · cases hm
    · next s1 hs1 =>
      rw [State.checkLate_early] at hm
      injection hm with _ hm
      exact hm ▸ State.accessed_pin hs1
  unfold State.check at h
  dsimp only at h
  split at h
  · split at h
    · cases h
    · exact hpin h
  · split at h
    · split at h
      · cases h
      · exact hpin h
    · exact State.accessed_early h

/-! ## Children (R47 to R49, R233) -/

/-- SPAWN of a child in no gang, or SPAWNG of one in a gang. -/
def Spawns (a b : XReg) (r : Role) (g : BitVec 6) (k : Option (BitVec 6)) (i : Instr) : Prop :=
  (k = none ∧ i = .spawn a b r) ∨ (k = some g ∧ i = .spawng a b r g)

theorem Spawns.exec {s : State} {a b : XReg} {r : Role} {g : BitVec 6} {k : Option (BitVec 6)} {i : Instr}
    (h : Spawns a b r g k i) : exec i s = .next (s.spawn a b r k i.encode) := by
  rcases h with ⟨rfl, rfl⟩ | ⟨rfl, rfl⟩ <;> rfl

/-- The child that SPAWN or SPAWNG makes. -/
def State.child (s : State) (a b : XReg) (r : Role) (k : Option (BitVec 6)) : Child :=
  { launch := s.slot.launch, num := BitVec.ofNat 32 (s.launch s.slot.launch).nextNum, prog := s.rx a, arg := s.rx b, role := r
    gang := k }

/-- The address of the entry of the spill queue that the next child of the executing task's die takes. -/
def State.spillVa (s : State) : Nat :=
  (s.launch s.slot.launch).spillAt (s.cur.core / 96) (tget 0 (s.launch s.slot.launch).spillTail (s.cur.core / 96))

/-- How many children the spill queue of the executing task's die holds. -/
def State.spillHeld (s : State) : Nat := (s.launch s.slot.launch).spilled (s.cur.core / 96)

section
variable {s : State} {a b : XReg} {r : Role} {k : Option (BitVec 6)} {w : W32}

theorem State.spawn_level2 (h : s.level = 2) : s.spawn a b r k w = s.trapOpen .determinism w := if_pos h

theorem bits_low_two (x : W64) : bits x 1 0 = x.toNat % 4 := by
  unfold bits
  rw [Nat.pow_zero, Nat.div_one]
  rfl

theorem State.spawn_misaligned (h : s.level ≠ 2) (ha : (s.rx a).toNat % 4 ≠ 0) :
    s.spawn a b r k w = s.trap .misaligned (s.rx a) w :=
  (if_neg h).trans (if_pos (by rw [bits_low_two]; exact ha))

/-- What becomes of an aligned child below D2. -/
theorem State.spawn_aligned (h : s.level ≠ 2) (ha : (s.rx a).toNat % 4 = 0) : s.spawn a b r k w =
    if s.spillHeld = 0 ∧ (s.die (s.cur.core / 96)).pool.length < 960 then
      (s.poolChild (s.cur.core / 96) (s.child a b r k)).retire
    else if (s.launch s.slot.launch).spillcap ≤ s.spillHeld then s.stallHere
    else if isWindow s.spillVa then s.trap .lease (w64 s.spillVa) w
    else match s.checkTranslated s.cur s.spillVa 64 .write .early with
      | .ok loc s1 => (s1.spillChild (s.cur.core / 96) (s.child a b r k) loc).retire
      | .trap x => s.trap x (w64 s.spillVa) w
      | .park entry => s.parkHere (w64 s.spillVa) entry
      | .stall _ | .away .. => s.stallHere := by
  refine (if_neg h).trans ((if_neg (by rw [bits_low_two]; exact not_not.2 ha)).trans ?_)
  dsimp only
  have hcond : (decide ((s.launch s.slot.launch).spilled (dieOf s.cur.core) = 0) &&
      decide ((s.die (dieOf s.cur.core)).pool.length < Config.pendingNew)) = true ↔
      s.spillHeld = 0 ∧ (s.die (s.cur.core / 96)).pool.length < 960 := by
    rw [Bool.and_eq_true, decide_eq_true_eq, decide_eq_true_eq]
    rfl
  by_cases hpool : s.spillHeld = 0 ∧ (s.die (s.cur.core / 96)).pool.length < 960
  · rw [if_pos hpool]
    exact if_pos (hcond.2 hpool)
  · rw [if_neg hpool]
    exact if_neg (mt hcond.1 hpool)

end

/-! ## A child in the spill queue (R48, R50) -/

/-- The third word of a spilled child (R50). -/
def Launch.childWord (l : Launch) (c : Child) : Nat :=
  c.num.toNat + l.prio.toNat * 2 ^ 32 + roleCode c.role * 2 ^ 40 +
    (match c.gang with | some g => g.toNat * 2 ^ 42 + 2 ^ 48 | none => 0)

theorem Launch.childWord_lt (l : Launch) (c : Child) : l.childWord c < 2 ^ 64 := by
  have hnum := c.num.isLt
  have hprio := l.prio.isLt
  have hrole : roleCode c.role ≤ 2 := by cases c.role <;> decide
  unfold Launch.childWord
  cases c.gang with
  | none => dsimp only; omega
  | some g => have := g.isLt; dsimp only; omega

/-- The 64 bytes of a spilled child. -/
def Launch.childBytes (l : Launch) (c : Child) : Nat := c.prog.toNat + c.arg.toNat * 2 ^ 64 + l.childWord c * 2 ^ 128

/-- The first four words of a spilled child. -/
theorem Launch.words_childBytes (l : Launch) (c : Child) :
    l.childBytes c / 2 ^ (8 * 0) % 2 ^ (8 * 8) = c.prog.toNat ∧ l.childBytes c / 2 ^ (8 * 8) % 2 ^ (8 * 8) = c.arg.toNat ∧
      l.childBytes c / 2 ^ (8 * 16) % 2 ^ (8 * 8) = l.childWord c ∧ l.childBytes c / 2 ^ (8 * 24) % 2 ^ (8 * 8) = 0 := by
  have hprog := c.prog.isLt
  have harg := c.arg.isLt
  have hword := l.childWord_lt c
  unfold Launch.childBytes
  omega

/-- What is left when a child has been spilled. -/
structure Spilled (u t : State) (d : Nat) (c : Child) (loc : Nat) : Prop where
  number : (t.launch c.launch).nextNum = (u.launch c.launch).nextNum + 1
  tail : tget 0 (t.launch c.launch).spillTail d = tget 0 (u.launch c.launch).spillTail d + 1
  mem : t.mem = u.mem.setAll (cellsLE loc 64 ((u.launch c.launch).childBytes c))
  slots : ∀ r, t.slotAt r = u.slotAt r
  cur : t.cur = u.cur
  dies : t.dies = u.dies
  carries : Carries u t

/-- Bytes written at their homes, of which those in the host window leave. -/
def State.writeOut (s : State) (stamp : Option (Nat × BitVec 8)) (cs : List (Nat × Byte)) : State :=
  (s.homeWrite cs).carry stamp cs

theorem State.writeOut_memoryOnly (s : State) (stamp : Option (Nat × BitVec 8)) (cs : List (Nat × Byte)) :
    MemoryOnly s (s.writeOut stamp cs) := rfl

theorem State.carries_writeOut (s : State) (stamp : Option (Nat × BitVec 8)) (cs : List (Nat × Byte)) :
    Carries s (s.writeOut stamp cs) :=
  ⟨_, rfl, (s.leave_hostFlits _ _).1, (s.leave_hostFlits _ _).2⟩

theorem State.spillChild_eq (u : State) (d : Nat) (c : Child) (loc : Nat) : u.spillChild d c loc =
    ((u.countChild c.launch).writeOut (some (u.stampOf c.launch))
      (cellsLE loc 64 ((u.launch c.launch).childBytes c))).modLaunch c.launch fun l =>
      { l with spillTail := tset l.spillTail d (tget 0 l.spillTail d + 1) } := by
  unfold State.spillChild State.poke State.writeOut Launch.childBytes Launch.childWord
  dsimp only <;> (generalize cellsLE loc 64 _ = cs; rfl)

theorem State.spilled_spillChild (u : State) (d : Nat) (c : Child) (loc : Nat) :
    Spilled u (u.spillChild d c loc) d c loc := by
  rw [State.spillChild_eq]
  generalize hcs : cellsLE loc 64 ((u.launch c.launch).childBytes c) = cs
  have hcount : ((u.countChild c.launch).writeOut (some (u.stampOf c.launch)) cs).launch c.launch =
      { u.launch c.launch with nextNum := (u.launch c.launch).nextNum + 1 } :=
    ((State.writeOut_memoryOnly _ _ cs).keeps (·.launch c.launch) rfl).trans (State.launch_modLaunch_same u _ _)
  refine ⟨?_, ?_, by rw [hcs]; rfl, fun _ => rfl, rfl, rfl, ?_⟩
  · rw [State.launch_modLaunch_same, hcount]
  · rw [State.launch_modLaunch_same, hcount]
    exact tget_tset_same _ _ _ _
  · exact (State.carries_writeOut u (some (u.stampOf c.launch)) cs)

/-! ## LAUNCH (R174, R242) -/

/-- A launch queued behind every other; no slot and no other part of the device changes but what tells the host. -/
theorem State.queueLaunch_eq (s : State) (q : Nat) (desc : W64) :
    FirmwareOnly { s with
        launches := tset s.launches s.nextLaunch { Launch.blank with
          queue := q, desc := desc, stage := if (s.queue q).cadence then .ticking else .queued }
        nextLaunch := s.nextLaunch + 1 } (s.queueLaunch q desc) :=
  State.syncQueue_firmwareOnly _ q

theorem bits_low_six (x : W64) : bits x 5 0 = x.toNat % 64 := by
  unfold bits
  rw [Nat.pow_zero, Nat.div_one]
  rfl

section
variable {s : State} {a : XReg}

theorem exec_launch_level2 (h : s.level = 2) :
    exec (.launch a) s = .next (s.trapOpen .determinism (Instr.launch a).encode) :=
  congrArg Host.Outcome.next (if_pos h)

theorem exec_launch_misaligned (h : s.level ≠ 2) (ha : (s.rx a).toNat % 64 ≠ 0) :
    exec (.launch a) s = .next (s.trap .misaligned (s.rx a) (Instr.launch a).encode) :=
  congrArg Host.Outcome.next ((if_neg h).trans (if_pos (by rw [bits_low_six]; exact ha)))

section
variable (h : s.level ≠ 2) (ha : (s.rx a).toNat % 64 = 0)
include h ha

theorem exec_launch_window (hw : isWindow (s.rx a).toNat = true) :
    exec (.launch a) s = .next (s.trap .poolRange (s.rx a) (Instr.launch a).encode) :=
  congrArg Host.Outcome.next ((if_neg h).trans ((if_neg (by rw [bits_low_six]; exact not_not.2 ha)).trans (if_pos hw)))

/-- A descriptor that may be read is published for and queued. -/
theorem exec_launch_queued (hw : isWindow (s.rx a).toNat = false) {m n : Nat} {u v : State}
    (hu : s.check s.cur (s.rx a).toNat 64 .read .early = .ok m u)
    (hv : u.check s.cur (s.rx a + 64).toNat 64 .read .early = .ok n v) : Accessed s v ∧ exec (.launch a) s =
      .next ((v.boundary v.cur .package).queueLaunch (v.launchOf v.cur).queue (s.rx a)).retire := by
  have hsu := State.accessed_checkEarly hu
  refine ⟨hsu.trans (State.accessed_checkEarly hv), congrArg Host.Outcome.next ((if_neg h).trans
    ((if_neg (by rw [bits_low_six]; exact not_not.2 ha)).trans ((if_neg (by rw [hw]; decide)).trans ?_)))⟩
  rw [← hsu.cur] at hv
  simp only [hu, hv]

end

end

theorem State.next_retire (s : State) : s.retire.slot = s.slot.next ∧ ∀ r, r ≠ s.cur → s.retire.slotAt r = s.slotAt r :=
  ⟨State.slot_mapSlot _ _, fun r hr => by unfold State.retire; rw [State.slotAt_mapSlot, if_neg hr]⟩

/-- What is left when a launch has been queued. -/
theorem State.launched_eq {s v : State} (h : Accessed s v) (desc : W64) :
    let q := (s.launchOf s.cur).queue
    let t := ((v.boundary v.cur .package).queueLaunch (v.launchOf v.cur).queue desc).retire
    t.launches = tset v.launches v.nextLaunch
      { Launch.blank with queue := q, desc := desc, stage := if (s.queue q).cadence then .ticking else .queued } ∧
    t.nextLaunch = v.nextLaunch + 1 ∧ t.slot.pend = [] ∧ t.slot.pc = s.slot.pc + 4 ∧ t.slot.x = s.slot.x ∧ OthersKept s t := by
  intro q t
  have hq : (v.launchOf v.cur).queue = q := by rw [h.cur, h.launchOf]
  obtain ⟨fs, hpub, hpend⟩ := v.published_boundary .package
  obtain ⟨p, m, hid, hslot⟩ := hpub.slot
  have hfirm := (v.boundary v.cur .package).queueLaunch_eq q desc
  have ht : t = ((v.boundary v.cur .package).queueLaunch q desc).retire := by rw [← hq]
  have hcadence : ((v.boundary v.cur .package).queue q).cadence = (s.queue q).cadence :=
    congrArg Queue.cadence ((hpub.keeps (·.queue q) fun _ => rfl).trans (h.keeps (·.queue q) rfl))
  obtain ⟨hnext, hothers⟩ := State.next_retire ((v.boundary v.cur .package).queueLaunch q desc)
  have htslot : t.slot = (v.boundary v.cur .package).slot.next := by
    rw [ht, hnext]
    exact congrArg Slot.next (hfirm.keeps State.slot rfl)
  rw [htslot]
  refine ⟨?_, ?_, hpend, ?_, ?_, fun r hr => ?_⟩
  · rw [ht]
    refine (hfirm.keeps State.launches rfl).trans ?_
    rw [hcadence]
    exact congrArg₂ (fun (ls : Table Launch) k => tset ls k _) (hpub.keeps State.launches fun _ => rfl)
      (hpub.keeps State.nextLaunch fun _ => rfl)
  · rw [ht]
    exact (hfirm.keeps State.nextLaunch rfl).trans (congrArg (· + 1) (hpub.keeps State.nextLaunch fun _ => rfl))
  · show (v.boundary v.cur .package).slot.pc + 4 = _
    rw [hslot, ← h.slot]
  · show (v.boundary v.cur .package).slot.x = _
    rw [hslot, ← h.slot]
  · have hcur : ((v.boundary v.cur .package).queueLaunch q desc).cur = s.cur :=
      (hfirm.keeps State.cur rfl).trans (hpub.cur.trans h.cur)
    rw [ht, hothers r (by rw [hcur]; exact hr), hfirm.keeps (·.slotAt r) rfl]
    exact (hpub.others r (by rw [h.cur]; exact hr)).trans (h.slots r)

/-! ## What SPAWN and SPAWNG come to below D2 (R48, R49, R86) -/

section
variable {s : State} {a b : XReg} {r : Role} {g : BitVec 6} {k : Option (BitVec 6)} {i : Instr} (hi : Spawns a b r g k i)
  (hlevel : s.level ≠ 2) (ha : (s.rx a).toNat % 4 = 0)
include hi hlevel ha

theorem spawn_pools (hheld : s.spillHeld = 0) (hroom : (s.die (s.cur.core / 96)).pool.length < 960) :
    exec i s = .next (s.poolChild (s.cur.core / 96) (s.child a b r k)).retire := by
  rw [hi.exec, State.spawn_aligned hlevel ha, if_pos ⟨hheld, hroom⟩]

section
variable (hpool : 960 ≤ (s.die (s.cur.core / 96)).pool.length ∨ s.spillHeld ≠ 0)
include hpool

theorem spawn_stalls (hfull : (s.launch s.slot.launch).spillcap ≤ s.spillHeld) : Stalls s i := by
  have h := hi.exec (s := s)
  rw [State.spawn_aligned hlevel ha, if_neg (by omega), if_pos hfull] at h
  exact ⟨.condition, becomes_of s i (fun l => { l with stalled := true, stall := .condition }) h rfl rfl⟩

section
variable (hroom : s.spillHeld < (s.launch s.slot.launch).spillcap)
include hroom

theorem spawn_ends (h : isWindow s.spillVa = true ∨ s.checkTranslated s.cur s.spillVa 64 .write .early = .trap .lease) :
    EndsTask s i := by
  have hexec := hi.exec (s := s)
  rw [State.spawn_aligned hlevel ha, if_neg (by omega), if_neg (by omega)] at hexec
  cases hw : isWindow s.spillVa with
  | true =>
    rw [hw, if_pos rfl] at hexec
    exact endsTask_of s i .lease _ _ (.inl rfl) hexec
  | false =>
    have hcheck := h.resolve_left (by rw [hw]; decide)
    simp only [hw, hcheck] at hexec
    exact endsTask_of s i .lease _ _ (.inl rfl) hexec

section
variable (hw : isWindow s.spillVa = false)
include hw

theorem spawn_spills {loc : Nat} {u : State} (h : s.checkTranslated s.cur s.spillVa 64 .write .early = .ok loc u) :
    exec i s = .next (u.spillChild (s.cur.core / 96) (s.child a b r k) loc).retire := by
  rw [hi.exec, State.spawn_aligned hlevel ha, if_neg (by omega), if_neg (by omega), hw, if_neg (by decide), h]

theorem spawn_parks {e : Nat} (h : s.checkTranslated s.cur s.spillVa 64 .write .early = .park e) :
    exec i s = .next (s.parkHere (w64 s.spillVa) e) := by
  rw [hi.exec, State.spawn_aligned hlevel ha, if_neg (by omega), if_neg (by omega), hw, if_neg (by decide), h]

end

end

end

end

/-- The executing slot parks: nothing else has changed but the monitor that it arms (R87). -/
theorem State.parked_parkHere (s : State) (va : W64) (e : Nat) : ∃ p : Park, p.addr = va ∧ p.entry = e ∧
    Frame (s.arm p) (s.parkHere va e) ∧ (s.parkHere va e).slot = { s.slot with park := some p } := by
  have hslot : (s.arm (s.newPark s.cur.core va e)).slot = s.slot := by unfold State.arm; split <;> rfl
  refine ⟨s.newPark s.cur.core va e, rfl, rfl, frame_mapSlot _ _ rfl rfl, ?_⟩
  unfold State.parkHere
  dsimp only
  rw [State.slot_mapSlot, hslot]

/-- A child that has been spilled, as the statement reads it back. -/
theorem spawn_spilled {s u v : State} {a b : XReg} {r : Role} {k : Option (BitVec 6)} {loc : Nat} (h : Accessed s u)
    (hsp : Spilled u v (s.cur.core / 96) (s.child a b r k) loc) (hwf : u.mem.wf = true) :
    let l := s.launch s.slot.launch
    let d := s.cur.core / 96
    let t := v.retire
    ((t.launch s.slot.launch).nextNum = (u.launch s.slot.launch).nextNum + 1 ∧
      tget 0 (t.launch s.slot.launch).spillTail d = tget 0 l.spillTail d + 1 ∧
      t.peek loc 8 = (s.rx a).toNat ∧ t.peek (loc + 8) 8 = (s.rx b).toNat ∧ t.peek (loc + 16) 8 = l.childWord (s.child a b r k) ∧
      t.peek (loc + 24) 8 = 0 ∧ t.dies = u.dies ∧ t.slot.pc = s.slot.pc + 4 ∧ t.slot.x = s.slot.x) ∧
    OthersKept s t ∧ Carries u t := by
  intro l d t
  have hlaunch : u.launch s.slot.launch = l := h.keeps (·.launch s.slot.launch) rfl
  have hnumber := hsp.number
  have htail := hsp.tail
  have hmem := hsp.mem
  rw [show (s.child a b r k).launch = s.slot.launch from rfl] at hnumber htail hmem
  rw [hlaunch] at htail hmem
  obtain ⟨hprog, harg, hword, hzero⟩ := l.words_childBytes (s.child a b r k)
  have hpeek : ∀ o, o + 8 ≤ 64 → t.peek (loc + o) 8 = l.childBytes (s.child a b r k) / 2 ^ (8 * o) % 2 ^ (8 * 8) := fun o ho => by
    rw [← Memory.natOfBytes_setAll_cells hwf loc _ ho, ← hmem]
    rfl
  obtain ⟨hnext, hothers⟩ := State.next_retire v
  have hvslot : v.slot = s.slot := by
    rw [← h.slot, ← State.slotAt_cur, ← State.slotAt_cur, hsp.cur, hsp.slots]
  have hslot : t.slot = s.slot.next := hnext.trans (congrArg Slot.next hvslot)
  refine ⟨⟨hnumber, htail, (hpeek 0 (by decide)).trans hprog, (hpeek 8 (by decide)).trans harg,
    (hpeek 16 (by decide)).trans hword, (hpeek 24 (by decide)).trans hzero, hsp.dies, by rw [hslot]; rfl, by rw [hslot]; rfl⟩,
    fun p hp => ?_, hsp.carries⟩
  rw [hothers p (by rw [hsp.cur, h.cur]; exact hp), hsp.slots, h.slots]

/-- Settles O45: the checks of a child and of a descriptor come one after another, and each outcome of theirs is followed to
its end. -/
theorem childrenRolesAndLaunches : Obligations.ChildrenRolesAndLaunches := by
  unfold Obligations.ChildrenRolesAndLaunches
  refine ⟨fun s a b r g n => ?_, fun s a => ?_⟩
  · have hspawn : Spawns a b r g none (.spawn a b r) := .inl ⟨rfl, rfl⟩
    have hspawng : Spawns a b r g (some g) (.spawng a b r g) := .inr ⟨rfl, rfl⟩
    have hyield : exec (.yield n) s = .next (s.mapSlot fun l => { l with yield := n.toNat + 2, age := 0 }.next) :=
      congrArg Host.Outcome.next (State.mapSlot_mapSlot _ _ _)
    have hrole : exec (.role r) s = .next (s.mapSlot fun l => { l with role := r }.next) :=
      congrArg Host.Outcome.next (State.mapSlot_mapSlot _ _ _)
    refine ⟨becomes_of s _ _ hyield rfl rfl, becomes_of s _ _ hrole rfl rfl,
      fun hlevel hinh => ?_, fun hlevel ha hinh => ?_, fun hlevel ha => ⟨fun hheld hroom => ?_, fun hpool hfull => ?_,
      fun hspills k i hi => ?_⟩⟩
    · exact ⟨trapsOpen_of s _ .determinism (by rw [hspawn.exec, State.spawn_level2 hlevel]) rfl hinh,
        trapsOpen_of s _ .determinism (by rw [hspawng.exec, State.spawn_level2 hlevel]) rfl hinh⟩
    · exact ⟨traps_of s _ .misaligned _ (by rw [hspawn.exec, State.spawn_misaligned hlevel ha]) rfl hinh,
        traps_of s _ .misaligned _ (by rw [hspawng.exec, State.spawn_misaligned hlevel ha]) rfl hinh⟩
    · exact ⟨spawn_pools hspawn hlevel ha hheld hroom, spawn_pools hspawng hlevel ha hheld hroom⟩
    · exact ⟨spawn_stalls hspawn hlevel ha hpool hfull, spawn_stalls hspawng hlevel ha hpool hfull⟩
    · obtain ⟨hpool, hroom⟩ := hspills
      have hi' : Spawns a b r g k i := hi
      refine ⟨spawn_ends hi' hlevel ha hpool hroom, fun hw => ⟨fun loc u hu hwf => ?_,
        fun c hc => State.early_trap (State.det_of_level hlevel) hc, fun e he => ?_⟩⟩
      · obtain ⟨hspilled, hothers, hcarries⟩ := spawn_spilled (a := a) (b := b) (r := r) (k := k) (loc := loc)
          (State.accessed_early hu) (u.spilled_spillChild _ _ loc) hwf
        refine ⟨_, spawn_spills hi' hlevel ha hpool hroom hw hu, ?_, hothers, hcarries⟩
        obtain ⟨hnum, htail, hprog, harg, hword, hrest⟩ := hspilled
        refine ⟨hnum, htail, hprog, harg, hword.trans ?_, hrest⟩
        unfold Launch.childWord State.child roleCode
        rfl
      · obtain ⟨p, haddr, hentry, hframe, hslot⟩ := s.parked_parkHere (w64 s.spillVa) e
        exact ⟨_, p, spawn_parks hi' hlevel ha hpool hroom hw he, haddr, hentry, hframe, hslot⟩
  · refine ⟨fun hlevel hinh => trapsOpen_of s _ .determinism (exec_launch_level2 hlevel) rfl hinh,
      fun hlevel ha hinh => traps_of s _ .misaligned _ (exec_launch_misaligned hlevel ha) rfl hinh,
      fun hlevel ha hw hinh => traps_of s _ .poolRange _ (exec_launch_window hlevel ha hw) rfl hinh,
      fun hlevel ha hw m n u v hu hv => ?_⟩
    obtain ⟨hacc, hexec⟩ := exec_launch_queued hlevel ha hw hu hv
    exact ⟨_, hexec, State.launched_eq hacc (s.rx a)⟩

end Sys2Proof.Machine
end

section
/-! Flits that arrive (O60). -/

namespace Sys2Proof.Machine

/-! ## Lists written to memory and to tables -/

/-- Where each location is written once, it holds what is written. -/
theorem Memory.get_setAll_mem {m : Memory} (w : m.wf = true) {cs : List (Nat × Byte)} (hnd : (cs.map (·.1)).Nodup)
    {n : Nat} {b : Byte} (h : (n, b) ∈ cs) : (m.setAll cs).get n = b := by
  induction cs generalizing m with
  | nil => cases h
  | cons c cs ih =>
    obtain ⟨hc, hnd⟩ := List.nodup_cons.1 hnd
    rcases List.mem_cons.1 h with rfl | h
    · show ((m.set n b).setAll cs).get n = b
      rw [Memory.get_setAll_of_not_mem (Memory.wf_set w n b) fun x hx he => hc (List.mem_map.2 ⟨x, hx, he⟩),
        Memory.get_set w, if_pos rfl]
    · exact ih (Memory.wf_set w c.1 c.2) hnd h

/-- Consecutive bytes written from a location on. -/
def cellsFrom (n : Nat) (bs : List Byte) : List (Nat × Byte) := bs.zipIdx.map fun x => (n + x.2, x.1)

theorem Memory.get_setAll_cellsFrom {m : Memory} (w : m.wf = true) (n : Nat) {bs : List Byte} {k : Nat} (h : k < bs.length) :
    (m.setAll (cellsFrom n bs)).get (n + k) = bs.getD k 0 := by
  have hlocs : (cellsFrom n bs).map (·.1) = (List.range' 0 bs.length).map (n + ·) := by
    unfold cellsFrom
    rw [List.map_map, ← List.zipIdx_map_snd, List.map_map]
    rfl
  refine Memory.get_setAll_mem w ?_ ?_
  · rw [hlocs]
    exact (List.nodup_range').map fun a b h => Nat.add_left_cancel h
  · refine List.mem_map.2 ⟨(bs.getD k 0, k), ?_, rfl⟩
    rw [List.mk_mem_zipIdx_iff_getElem?]
    simp [h]

/-- A table with the entries of a list written one after the other from entry n on. -/
def writeList {α : Type} (n : Nat) (vs : List (α × Nat)) (t : Table α) : Table α :=
  vs.foldl (fun t x => tset t (n + x.2) x.1) t

theorem tget_writeList_before {α : Type} (d : α) (n : Nat) (vs : List α) {j k : Nat} (h : k < j) (t : Table α) :
    tget d (writeList n (vs.zipIdx j) t) (n + k) = tget d t (n + k) := by
  induction vs generalizing j t with
  | nil => rfl
  | cons v vs ih =>
    show tget d (writeList n (vs.zipIdx (j + 1)) (tset t (n + j) v)) (n + k) = _
    rw [ih (by omega), tget_tset_ne _ _ _ (by omega)]

theorem tget_writeList_from {α : Type} (d : α) (n : Nat) (vs : List α) (j : Nat) {k : Nat} (h : k < vs.length) (t : Table α) :
    tget d (writeList n (vs.zipIdx j) t) (n + (j + k)) = vs.getD k d := by
  induction vs generalizing j k t with
  | nil => cases h
  | cons v vs ih =>
    show tget d (writeList n (vs.zipIdx (j + 1)) (tset t (n + j) v)) (n + (j + k)) = _
    cases k with
    | zero => rw [tget_writeList_before d n vs (by omega), Nat.add_zero, tget_tset_same]; rfl
    | succ k =>
      rw [show j + (k + 1) = j + 1 + k by omega, ih (j + 1) (by simpa using h)]
      rfl

theorem tget_writeList {α : Type} (d : α) (n : Nat) {vs : List α} {k : Nat} (h : k < vs.length) (t : Table α) :
    tget d (writeList n vs.zipIdx t) (n + k) = vs.getD k d := by
  rw [← tget_writeList_from d n vs 0 h t, Nat.zero_add]

/-! ## A flit acts -/

section
variable {s : State} {f : Flit}

theorem flit_passes (h : f.dest ≠ s.devid) : Happens s (.flit f) { s with outbox := s.outbox ++ [f] } := by
  show execFlit f s = _
  unfold execFlit
  rw [if_neg h]; rfl

theorem flit_acts {b : FlitBody} (h : f.dest = s.devid) (hb : f.body = b) : Happens s (.flit f) (s.takeFlit b) := by
  show execFlit f s = _
  unfold execFlit
  rw [if_pos h, hb]; rfl

/-- A flit that acts comes to a state. -/
theorem flit_gives {b : FlitBody} {u : State} (h : f.dest = s.devid) (hu : s.takeFlit b = u) :
    f.body = b → Happens s (.flit f) u := fun hb => hu ▸ flit_acts h hb

theorem flit_does {b : FlitBody} {p : State → Prop} (h : f.dest = s.devid) (hp : p (s.takeFlit b)) :
    f.body = b → ∃ t, Happens s (.flit f) t ∧ p t := fun hb => ⟨_, flit_acts h hb, hp⟩

end

/-! ## Semaphore operations and answers (R214 to R219, R244) -/

/-- The operations that a flit's code names. -/
theorem semOfCode_eq (code launch tcb : Nat) (v : W64) : semOfCode code launch tcb v =
    ([.sig v, .wait v false, .wait v true, .add v, .set v, .read, .arm launch tcb v] : List SemKind)[code]? := by
  rcases code with _ | _ | _ | _ | _ | _ | _ | _ <;> rfl

theorem slotRef_val (core : Nat) (k : Fin 4) : slotRef core k.val = ⟨core, k⟩ := by
  unfold slotRef
  congr 1
  exact Fin.ofNat_val_eq_self k

section
variable {s : State} {core : Nat} {k : Fin 4} {task : Nat} {v : W64}

/-- The answer to an operation meets the slot of the task that asked for it. -/
def State.Meets (s : State) (core : Nat) (k : Fin 4) (task : Nat) : Prop :=
  task ≠ 0 ∧ (s.slotAt ⟨core, k⟩).occ = true ∧ (s.slotAt ⟨core, k⟩).uid = task

/-- Of what an answer does, the part that depends on what the slot waits for. -/
theorem State.answerSem_meets (h : s.Meets core k task) (way : Nat) : s.answerSem ⟨core, k⟩ task v way =
    match (s.slotAt ⟨core, k⟩).wait with
    | .sem d false => s.modSlot ⟨core, k⟩ fun l => { l with wait := .semDone d v false (s.refclk + way + l.lag) }
    | .sem d true =>
      s.modSlot ⟨core, k⟩ fun l => { l with wait := .semDone d v true (s.refclk + way), away := none, cancelled := false }
    | .arm d i name t =>
      (if v = 0 then (s.writeArm (s.slotAt ⟨core, k⟩).launch i name t).modLaunch (s.slotAt ⟨core, k⟩).launch fun x =>
          { x with remoteArms := x.remoteArms + 1 }
        else s).modSlot ⟨core, k⟩ fun l => { l with wait := .semDone d v false (s.refclk + way) }
    | .withdrawn => s.modSlot ⟨core, k⟩ fun l => { l with wait := .run }
    | _ => s := by
  obtain ⟨htask, hocc, hmine⟩ := h
  unfold State.answerSem
  dsimp only
  rw [if_neg htask, if_neg (by simp [hocc, hmine])] <;> rfl

theorem State.answerSem_stray (htask : task ≠ 0)
    (h : (s.slotAt ⟨core, k⟩).occ = false ∨ (s.slotAt ⟨core, k⟩).uid ≠ task) (way : Nat) :
    s.answerSem ⟨core, k⟩ task v way = s := by
  unfold State.answerSem
  dsimp only
  rw [if_neg htask, if_pos]
  rcases h with h | h <;> simp [h]

theorem State.packetAnswer_idle (h : (s.queue core).waiting = false) : s.packetAnswer core = s := by
  unfold State.packetAnswer
  rw [h]
  rfl

theorem State.packetAnswer_waiting (h : (s.queue core).waiting = true) :
    ((s.packetAnswer core).queue core).waiting = false ∧
      ((s.packetAnswer core).queue core).head = (s.queue core).head + 1 := by
  unfold State.packetAnswer State.consume
  rw [h, if_pos rfl, State.queue_ring]
  obtain ⟨x, hx⟩ := State.queue_syncQueue
    (((s.modQueue core fun u => { u with waiting := false })).modQueue core fun u => { u with head := u.head + 1 }) core core
  rw [hx, State.queue_modQueue_same, State.queue_modQueue_same]
  exact ⟨rfl, rfl⟩

/-- The answer to a withdrawal lets the slot go on where it waits. -/
theorem State.waitCancelled_meets (h : s.Meets core k task)
    (hw : (∃ d, (s.slotAt ⟨core, k⟩).wait = .sem d true) ∨ (s.slotAt ⟨core, k⟩).wait = .withdrawn) :
    s.waitCancelled ⟨core, k⟩ task =
      s.setSlot ⟨core, k⟩ { s.slotAt ⟨core, k⟩ with wait := .run, away := none, cancelled := false } := by
  obtain ⟨htask, hocc, hmine⟩ := h
  unfold State.waitCancelled
  dsimp only
  rw [if_neg (by simp [hocc, hmine, htask])]
  rcases hw with ⟨d, hw⟩ | hw <;> (rw [hw]; rfl)

theorem State.waitCancelled_run (hw : (s.slotAt ⟨core, k⟩).wait = .run) : s.waitCancelled ⟨core, k⟩ task = s := by
  unfold State.waitCancelled
  dsimp only
  rw [hw]
  split <;> rfl

end

theorem State.modDie_congr {s : State} {d : Nat} {f g : Die → Die} (h : f (s.die d) = g (s.die d)) :
    s.modDie d f = s.modDie d g := by
  unfold State.modDie
  rw [h]

/-- A wait that is alone at its home is withdrawn (R244). -/
theorem State.cancelWait_waiter {s : State} {name : W64} {dev : BitVec 20} {core slot task : Nat} {w : Waiter}
    (hin : (s.die (semDie name)).inbox = []) (hw : (s.die (semDie name)).waiters = [w]) (hdev : w.dev = dev)
    (huid : w.uid = task) (hcore : w.core = core) : s.cancelWait name dev core slot task =
      { s.modDie (semDie name) (fun x => { x with waiters := [] }) with
        outbox := s.outbox ++ [{ dest := dev, body := .semCancelled core slot task }] } := by
  unfold State.cancelWait
  dsimp only
  rw [hin, hw, if_pos (by simp [hdev, huid, hcore])]
  refine congrArg (fun u : State => u.send dev (.semCancelled core slot task)) (State.modDie_congr ?_)
  rw [hin, hw]
  simp [hdev, huid, hcore]

theorem State.cancelWait_none {s : State} {name : W64} {dev : BitVec 20} {core slot task : Nat}
    (hin : (s.die (semDie name)).inbox = []) (hw : (s.die (semDie name)).waiters = []) :
    s.cancelWait name dev core slot task = s := by
  unfold State.cancelWait
  dsimp only
  rw [hin, hw]
  rfl

/-! ## Releases and fences (R51, R364) -/

/-- A TCB that another device releases enters the ready queue of the lowest-numbered die of its launch. -/
theorem State.releaseTcb_good {s : State} {n i : Nat} {p a w : Nat}
    (hp : (s.markTcb n i).fwRead (s.rootOf n) (s.tcbAt n i) 8 = some p)
    (ha : (s.markTcb n i).fwRead (s.rootOf n) (s.tcbAt n i + 8) 8 = some a)
    (hw : (s.markTcb n i).fwRead (s.rootOf n) (s.tcbAt n i + 16) 8 = some w) (hpc : p % 4 = 0) (hres : w / 2 ^ 49 = 0)
    (hrole : w / 2 ^ 40 % 4 ≠ 3) : s.releaseTcb n i 8 =
      (s.markTcb n i).modDie (lowestDie (s.launch n).mask) fun x =>
        { x with ready := insertReady ((s.markTcb n i).tcbEntry n i (w64 p) (w64 a) (w64 w)) x.ready } := by
  have hp64 : p < 2 ^ 64 := State.fwRead_lt hp
  have hw64 : w < 2 ^ 64 := State.fwRead_lt hw
  have hword : ∀ {k x : Nat}, (s.markTcb n i).fwRead (s.rootOf n) (s.tcbAt n i + k) 8 = some x →
      (s.markTcb n i).tcbWord n i k = w64 x := fun h => congrArg (fun x : Option Nat => w64 (x.getD 0)) h
  have hdie : readyDie (s.launch n).mask 8 = lowestDie (s.launch n).mask := by
    unfold readyDie
    rw [BitVec.getLsbD_of_ge _ _ (by decide)]
    rfl
  rw [State.releaseTcb_eq, hword (k := 0) hp, hword ha, hword hw, hdie]
  unfold State.enterTcb
  refine if_neg ?_
  simp only [Bool.or_eq_true, decide_eq_true_eq, bits_w64 _ _ hp64, bits_w64 _ _ hw64, Nat.pow_zero, Nat.div_one]
  omega

theorem mem_insertReady (p : ReadyTcb) (ps : List ReadyTcb) : p ∈ insertReady p ps := by
  obtain ⟨l, r, -, h, -⟩ := insertReady_split p ps
  rw [h]
  exact List.mem_append_right _ List.mem_cons_self

/-- The homes of a die without what a fence has made old (R364). -/
def Die.fence (x : Die) (dev : BitVec 20) (q : Nat) (gen : BitVec 8) : Die :=
  { x with
    inbox := x.inbox.filter fun o => !(o.dev == dev && o.queue == q && o.gen != gen)
    waiters := x.waiters.filter fun w => !(w.dev == dev && w.queue == q && w.gen != gen) }

/-- A fence drops at every home what it has made old. -/
theorem State.die_takeFence (s : State) (dev : BitVec 20) (q : Nat) (gen : BitVec 8) (d : Nat) :
    (s.takeFence dev q gen).die d = (s.die d).fence dev q gen :=
  tget_map (fun _ (x : Die) => x.fence dev q gen) Die.reset s.dies d rfl

/-! ## Commands and their answers (R413, R419, R421) -/

/-- The mailbox bit of the queue cores changes nothing but them (R423). -/
theorem State.ringAll_keeps {α : Type} (s : State) (b : BitVec 7) (f : State → α)
    (hf : ∀ fc cur wk, f { s with fcores := fc, fcur := cur, fwoken := wk } = f s) : f (s.ringAll b) = f s := by
  obtain ⟨fc, cur, wk, h⟩ := s.ringAll_queueCores b
  rw [h, hf]

/-- The commands that are accepted in full service (R420). -/
theorem opStates_full {op : Nat} (hlo : 1 ≤ op) (hhi : op ≤ 17) (hne : op ≠ 16) :
    ∃ st, opStates op = some st ∧ st.contains (2 : BitVec 2).toNat = true := by
  unfold opStates
  split
  · exact ⟨_, rfl, by decide⟩
  · rw [if_pos ⟨hlo, hhi⟩]
    exact ⟨_, rfl, by decide⟩

theorem State.acceptCmd_accepted {s : State} {c : Cmd} {st : List Nat} (hcmd : s.mbox.cmd = some c)
    (hop : opStates c.opcode = some st) (hst : st.contains s.service.toNat = true) (hne : c.opcode ≠ 0x10) :
    s.acceptCmd = s := by
  unfold State.acceptCmd
  rw [hcmd]
  dsimp only
  rw [hop]
  exact if_neg (by rw [hst]; simp [hne])

theorem State.acceptCmd_unknown {s : State} {c : Cmd} (hcmd : s.mbox.cmd = some c) (hop : opStates c.opcode = none) :
    s.acceptCmd = s.putAnswer 1 [] := by
  unfold State.acceptCmd
  rw [hcmd]
  dsimp only
  rw [hop]

theorem State.putAnswer_away {s : State} {c : Cmd} {d : BitVec 20} (hcmd : s.mbox.cmd = some c) (hsrc : c.src = some d)
    (result : Nat) (res : List W64) : s.putAnswer result res =
      { s with
        mbox := { s.mbox with cmd := none }
        outbox := s.outbox ++ [{ dest := d, body := .mailboxAnswer c.tag (BitVec.ofNat 16 result) res }] } := by
  unfold State.putAnswer
  rw [hcmd]
  dsimp only
  rw [hsrc]

theorem State.putAnswer_host {s : State} {c : Cmd} (hcmd : s.mbox.cmd = some c) (hsrc : c.src = none)
    (result : Nat) (res : List W64) : s.putAnswer result res =
      { s with mbox := { s.mbox with
          cmd := none, go := false, result := BitVec.ofNat 16 result, rtag := c.tag
          res := writeList 0 res.zipIdx s.mbox.res } } := by
  unfold State.putAnswer
  rw [hcmd]
  dsimp only
  rw [hsrc]
  simp only [writeList, Nat.zero_add]

/-- The state in which a command is in progress. -/
def State.inProgress (s : State) (c : Cmd) : State := { s with mbox := { s.mbox with cmd := some c } }

/-- A command comes in where none is in progress. -/
theorem State.nextCmds_single {s : State} (h : s.mbox.cmd = none) (c : Cmd) :
    s.nextCmds [c] = { (s.inProgress c).acceptCmd with cmdWait := [] } := by
  show (if s.mbox.cmd.isSome then _ else _) = _
  rw [h]
  rfl

/-- The state in which the configuration block of a command has been filed (R410). -/
def State.filed (s : State) (c : Cmd) (block : List W64) : State :=
  { s with cfgblocks := writeList (16 * (c.args.getD 0 0).toNat) block.zipIdx s.cfgblocks }

theorem State.takeCommand_eq (s : State) (c : Cmd) (block : List W64) :
    s.takeCommand c block = ((s.filed c block).nextCmds (s.cmdWait ++ [c])).ringAll 0x10 := rfl

section
variable {s : State} {c : Cmd} {block : List W64} (hwait : s.cmdWait = [])
include hwait

/-- A command that the mailbox accepts is in progress. -/
theorem State.takeCommand_accepted (hnone : s.mbox.cmd = none) {st : List Nat} (hop : opStates c.opcode = some st)
    (hst : st.contains s.service.toNat = true) (hne : c.opcode ≠ 0x10) : s.takeCommand c block =
      ({ s.filed c block with mbox := { s.mbox with cmd := some c }, cmdWait := [] } : State).ringAll 0x10 := by
  rw [State.takeCommand_eq, hwait, List.nil_append, State.nextCmds_single (s := s.filed c block) hnone,
    State.acceptCmd_accepted (s := (s.filed c block).inProgress c) rfl hop hst hne]
  rfl

/-- A command with an OPCODE that no command has is answered 1. -/
theorem State.takeCommand_unknown {src : BitVec 20} (hnone : s.mbox.cmd = none) (hop : opStates c.opcode = none)
    (hsrc : c.src = some src) : s.takeCommand c block =
      ({ s.filed c block with
        mbox := { s.mbox with cmd := none }, cmdWait := []
        outbox := s.outbox ++ [{ dest := src, body := .mailboxAnswer c.tag 1 [] }] } : State).ringAll 0x10 := by
  rw [State.takeCommand_eq, hwait, List.nil_append, State.nextCmds_single (s := s.filed c block) hnone, 
    State.acceptCmd_unknown (s := (s.filed c block).inProgress c) rfl hop,
    State.putAnswer_away (s := (s.filed c block).inProgress c) rfl hsrc]
  rfl

/-- While another command is in progress a command waits. -/
theorem State.takeCommand_waits (hsome : s.mbox.cmd ≠ none) :
    s.takeCommand c block = ({ s.filed c block with cmdWait := [c] } : State).ringAll 0x10 := by
  rw [State.takeCommand_eq, hwait]
  exact congrArg (fun u : State => u.ringAll 0x10) (if_pos (Option.isSome_iff_ne_none.2 hsome))

/-- The answer to a command of the host that a group member has carried out. -/
theorem State.answerCmd_host {result : BitVec 16} {values : List W64} (hcmd : s.mbox.cmd = some c) (hsrc : c.src = none) :
    s.answerCmd result.toNat values = { s with mbox := { s.mbox with
        cmd := none, go := false, result := result, rtag := c.tag, res := writeList 0 values.zipIdx s.mbox.res } } := by
  unfold State.answerCmd
  rw [State.putAnswer_host hcmd hsrc, hwait, BitVec.ofNat_toNat, BitVec.setWidth_eq, State.nextCmds]

end

/-! ## The host window (R211, R333, R364, R409) -/

/-- A write or an atomic that a fence has made old (R364). -/
theorem State.stale_iff (s : State) (dev : BitVec 20) (stamp : Option (Nat × BitVec 8)) : s.stale dev stamp = true ↔
    ∃ q g h, stamp = some (q, g) ∧ (dev, q, h) ∈ s.foreign ∧ h ≠ g := by
  unfold State.stale
  rcases stamp with _ | ⟨q, g⟩
  · simp
  · constructor
    · intro h
      obtain ⟨⟨d, k, x⟩, hmem, hx⟩ := List.any_eq_true.1 h
      simp only [Bool.and_eq_true, beq_iff_eq, bne_iff_ne] at hx
      obtain ⟨⟨rfl, rfl⟩, hne⟩ := hx
      exact ⟨_, _, x, rfl, hmem, hne⟩
    · rintro ⟨q', g', x, he, hmem, hne⟩
      cases he
      exact List.any_eq_true.2 ⟨_, hmem, by simpa using hne⟩

/-- Whether the bridging device takes a write or an atomic. -/
theorem State.takes_iff (s : State) (dev : BitVec 20) (stamp : Option (Nat × BitVec 8)) :
    (s.bridge && !(s.stale dev stamp)) = true ↔
      s.bridge = true ∧ ¬ ∃ q g h, stamp = some (q, g) ∧ (dev, q, h) ∈ s.foreign ∧ h ≠ g := by
  rw [Bool.and_eq_true, Bool.not_eq_true', ← Bool.not_eq_true, s.stale_iff]

theorem State.peek_lt (s : State) (n k : Nat) : s.peek n k < 2 ^ (8 * k) := by
  unfold State.peek
  exact (natOfBytes_lt _).trans_eq (by rw [List.length_map, List.length_range])

theorem State.peek_poke {s : State} (w : s.mem.wf = true) (n k v : Nat) : (s.poke n k v).peek n k = v % 2 ^ (8 * k) := by
  have h := Memory.natOfBytes_setAll_cells w n v (a := 0) (b := k) (by rw [Nat.zero_add])
  rw [Nat.mul_zero, Nat.pow_zero, Nat.div_one] at h
  exact h

/-- The location of an offset in the host window. -/
def hostAt (offset : Nat) : Nat := 0x8000000000000 + offset

theorem State.toNat_peek_eight (s : State) (n : Nat) : (w64 (s.peek n 8)).toNat = s.peek n 8 := by
  unfold w64
  rw [BitVec.toNat_ofNat, Nat.mod_eq_of_lt (s.peek_lt n 8)]

theorem State.peek_send (s : State) (dest : BitVec 20) (b : FlitBody) (n k : Nat) : (s.send dest b).peek n k = s.peek n k := rfl

theorem State.bridgeAtomic_amo (s : State) (dev : BitVec 20) (tag offset : Nat) (p : AmoOp) (v : W64) :
    s.bridgeAtomic dev tag offset (.amo p v) =
      (s.poke (hostAt offset) 8 (amoNew p (w64 (s.peek (hostAt offset) 8)) v).toNat).send dev
        (.hostValue tag (bytesLE 8 (w64 (s.peek (hostAt offset) 8)).toNat)) := rfl

theorem State.bridgeAtomic_cas (s : State) (dev : BitVec 20) (tag offset : Nat) (e n : W64) :
    s.bridgeAtomic dev tag offset (.cas e n) =
      (if w64 (s.peek (hostAt offset) 8) = e then s.poke (hostAt offset) 8 n.toNat else s).send dev
        (.hostValue tag (bytesLE 8 (w64 (s.peek (hostAt offset) 8)).toNat)) := by
  unfold State.bridgeAtomic
  dsimp only [atomicOf, AtomicKind.size, AtomicKind.result]
  rw [show 0x8000000000000 + offset = hostAt offset from rfl]
  by_cases h : w64 (s.peek (hostAt offset) 8) = e
  · rw [if_pos h, if_pos h]
  · rw [if_neg h, if_neg h]

/-- What an AMO at the host bridge leaves and returns (R223). -/
theorem State.bridged_amo {s : State} (w : s.mem.wf = true) (dev : BitVec 20) (tag offset : Nat) (p : AmoOp) (v : W64) :
    (s.bridgeAtomic dev tag offset (.amo p v)).peek (hostAt offset) 8 =
        (amoNew p (BitVec.ofNat 64 (s.peek (hostAt offset) 8)) v).toNat ∧
      (s.bridgeAtomic dev tag offset (.amo p v)).outbox = s.outbox ++
        [{ dest := dev, body := .hostValue tag (bytesLE 8 (s.peek (hostAt offset) 8)) }] := by
  rw [State.bridgeAtomic_amo, State.peek_send, State.peek_poke w, s.toNat_peek_eight]
  exact ⟨Nat.mod_eq_of_lt (BitVec.isLt _), rfl⟩

/-- What a compare and swap at the host bridge leaves and returns (R224). -/
theorem State.bridged_cas {s : State} (w : s.mem.wf = true) (dev : BitVec 20) (tag offset : Nat) (e n : W64) :
    (s.bridgeAtomic dev tag offset (.cas e n)).peek (hostAt offset) 8 =
        (if s.peek (hostAt offset) 8 = e.toNat then n.toNat else s.peek (hostAt offset) 8) ∧
      (s.bridgeAtomic dev tag offset (.cas e n)).outbox = s.outbox ++
        [{ dest := dev, body := .hostValue tag (bytesLE 8 (s.peek (hostAt offset) 8)) }] := by
  have heq : w64 (s.peek (hostAt offset) 8) = e ↔ s.peek (hostAt offset) 8 = e.toNat := by
    rw [← BitVec.toNat_inj, s.toNat_peek_eight]
  rw [State.bridgeAtomic_cas, State.peek_send, s.toNat_peek_eight]
  by_cases h : w64 (s.peek (hostAt offset) 8) = e
  · rw [if_pos h, if_pos (heq.1 h), State.peek_poke w]
    exact ⟨Nat.mod_eq_of_lt n.isLt, rfl⟩
  · rw [if_neg h, if_neg (mt heq.2 h)]
    exact ⟨rfl, rfl⟩

theorem map_fst_zip_sublist {α β : Type} (xs : List α) (ys : List β) : ((xs.zip ys).map (·.1)).Sublist xs := by
  induction xs generalizing ys with
  | nil => exact List.Sublist.slnil
  | cons x xs ih =>
    cases ys with
    | nil => exact List.nil_sublist _
    | cons y ys => exact (ih ys).cons_cons x

/-- What the merge of an element leaves in the host window (R333). -/
theorem State.bridged_merge {s : State} (w : s.mem.wf = true) (dev : BitVec 20) (tag offset : Nat) (m : RedMode)
    {at_ : List Nat} (hnd : at_.Nodup) (element : List Byte) :
    let new := mergeElem m element (at_.map fun n => s.mem.get (hostAt n))
    (s.bridgeAtomic dev tag offset (.merge m at_ element)).outbox = s.outbox ∧ ∀ k, k < at_.length → k < new.length →
      (s.bridgeAtomic dev tag offset (.merge m at_ element)).mem.get (hostAt (at_.getD k 0)) = new.getD k 0 := by
  intro new
  refine ⟨rfl, fun k hk hnew => ?_⟩
  have hlocs : (at_.map hostAt).Nodup := hnd.map fun a b h => Nat.add_left_cancel h
  have hmem : (s.bridgeAtomic dev tag offset (.merge m at_ element)).mem = s.mem.setAll ((at_.map hostAt).zip new) := by
    show s.mem.setAll ((at_.map hostAt).zip (mergeElem m element ((at_.map hostAt).map fun n => s.mem.get n))) = _
    rw [List.map_map]
    rfl
  rw [hmem]
  refine Memory.get_setAll_mem w ?_ ?_
  · exact hlocs.sublist (map_fst_zip_sublist _ _)
  · refine List.mem_iff_getElem.2 ⟨k, by rw [List.length_zip, List.length_map]; omega, ?_⟩
    rw [List.getElem_zip, List.getElem_map]
    simp [hk, hnew]

/-! ## What the bridging device returns (R409) -/

theorem State.takeHostValue_none {s : State} {tag : Nat} (h : ∀ q, q ∈ s.hostReqs → q.tag ≠ tag ∨ q.back = true)
    (bytes : List Byte) : s.takeHostValue tag bytes = s := by
  have hfind : s.hostReqs.find? (fun q => q.tag == tag && !q.back) = none := by
    refine List.find?_eq_none.2 fun q hq hc => ?_
    simp only [Bool.and_eq_true, beq_iff_eq, Bool.not_eq_true'] at hc
    rcases h q hq with h | h
    · exact h hc.1
    · rw [hc.2] at h; exact absurd h (by decide)
  unfold State.takeHostValue
  rw [hfind]

section
variable {s : State} {tag : Nat} {q : HostReq} (hreqs : s.hostReqs = [q]) (htag : q.tag = tag) (hback : q.back = false)
include hreqs htag hback

/-- A granule for which a unit has asked. -/
theorem State.takeHostValue_granule (h : q.unit ≠ 4) (bytes : List Byte) : s.takeHostValue tag bytes =
    ({ s with mem := s.mem.setAll (cellsFrom (64 * q.granule) bytes), hostReqs := [{ q with back := true }] } : State).modSlot
      ⟨q.core, Fin.ofNat 4 q.slot⟩ fun l => { l with stalled := false } := by
  unfold State.takeHostValue
  rw [hreqs, List.find?_cons_of_pos (by simp [htag, hback]), List.filter_cons_of_neg (by simp [htag])]
  dsimp only
  rw [if_neg h]
  rfl

/-- The old value of an atomic for which the slot waits. -/
theorem State.takeHostValue_atomic {d : XReg} (h : q.unit = 4)
    (hwait : (s.slotAt ⟨q.core, Fin.ofNat 4 q.slot⟩).wait = .hostAtomic d false) (bytes : List Byte) :
    s.takeHostValue tag bytes = ({ s with hostReqs := [] } : State).modSlot ⟨q.core, Fin.ofNat 4 q.slot⟩ fun l =>
      (l.wx d (w64 (natOfBytes bytes))).resume := by
  have hslot : (({ s with hostReqs := [] } : State).slotAt (slotRef q.core q.slot)).wait = .hostAtomic d false := hwait
  unfold State.takeHostValue
  rw [hreqs, List.find?_cons_of_pos (by simp [htag, hback]), List.filter_cons_of_neg (by simp [htag])]
  dsimp only
  rw [if_pos h, List.filter_nil, hslot]
  rfl

end

/-- A member's words enter the table of the group under its number (R411). -/
theorem findIdx?_first {xs : List (BitVec 20)} {x : BitVec 20} {k : Nat} (hk : xs[k]? = some x)
    (hfirst : ∀ j, j < k → xs[j]? ≠ some x) : xs.findIdx? (· == x) = some k := by
  rw [List.findIdx?_eq_some_iff_getElem]
  obtain ⟨hlt, hget⟩ := List.getElem?_eq_some_iff.1 hk
  refine ⟨hlt, by simpa using hget, fun j hj => ?_⟩
  have := hfirst j hj
  rw [List.getElem?_eq_getElem (hj.trans hlt)] at this
  simpa using this

/-! ## What each kind of flit does -/

/-- The operation that a flit brings to its home. -/
def State.arrived (s : State) (name : W64) (kind : SemKind) (dev : BitVec 20) (core : Nat) (k : Fin 4) (task queue : Nat)
    (gen : BitVec 8) : SemOp :=
  { index := (name.extractLsb' 0 14).toNat, kind := kind, core := core, slot := k, uid := task, queue := queue, gen := gen
    dev := dev, due := s.refclk }

section
variable {s : State} {name v : W64} {code launch tcb : Nat} {dev : BitVec 20} {core : Nat} {k : Fin 4} {task queue : Nat}
  {gen : BitVec 8}

/-- A semaphore operation joins those that have reached its home. -/
theorem State.takeFlit_semUpdate {kind : SemKind} (h : semOfCode code launch tcb v = some kind) :
    s.takeFlit (.semUpdate name v code launch tcb dev core k.val task queue gen) =
      s.modDie (name.extractLsb' 29 3).toNat fun x =>
        { x with inbox := insertSem (s.arrived name kind dev core k task queue gen) x.inbox } := by
  unfold State.takeFlit
  dsimp only
  rw [h, semDie_eq, semIndex_eq, show Fin.ofNat 4 k.val = k from Fin.ofNat_val_eq_self k]
  rfl

theorem State.takeFlit_semUpdate_none (h : semOfCode code launch tcb v = none) :
    s.takeFlit (.semUpdate name v code launch tcb dev core k.val task queue gen) = s := by
  unfold State.takeFlit
  dsimp only
  rw [h]

theorem State.takeFlit_semAnswer : s.takeFlit (.semAnswer core k.val task v) = s.answerSem ⟨core, k⟩ task v 0 := by
  rw [← slotRef_val]
  rfl

theorem State.takeFlit_semCancelled : s.takeFlit (.semCancelled core k.val task) = s.waitCancelled ⟨core, k⟩ task := by
  rw [← slotRef_val]
  rfl

theorem State.launch_modSlot (s : State) (r : SlotRef) (f : Slot → Slot) (n : Nat) :
    (s.modSlot r f).launch n = s.launch n := rfl

theorem State.die_modLaunch (s : State) (n : Nat) (f : Launch → Launch) (d : Nat) : (s.modLaunch n f).die d = s.die d := rfl

/-- The device of an arm has been answered that the TCB is armed (R51). -/
theorem State.answered_arm (s : State) (r : SlotRef) (n i : Nat) (name t : W64) (f : Slot → Slot) :
    let u := ((s.writeArm n i name t).modLaunch n fun x => { x with remoteArms := x.remoteArms + 1 }).modSlot r f
    u.slotAt r = f (s.slotAt r) ∧ (u.launch n).remoteArms = (s.launch n).remoteArms + 1 := by
  refine ⟨State.slotAt_modSlot_same _ _ _, ?_⟩
  rw [State.launch_modSlot, State.launch_modLaunch_same]
  rfl

end

/-- Settles O60: each kind of flit acts as the lemma on its kind says. -/
theorem flits : Obligations.Flits := by
  unfold Obligations.Flits
  intro s f
  refine ⟨flit_passes, fun hdest => ⟨?_, ?_, ?_, ?_, ?_, ?_, ?_, ?_, ?_, ?_, ?_, ?_, ?_, ?_, ?_, ?_, ?_⟩⟩
  · intro name v code launch tcb dev core k task queue gen
    refine ⟨fun kind hkind => flit_gives hdest (State.takeFlit_semUpdate ?_), fun hcode => flit_gives hdest
      (State.takeFlit_semUpdate_none ?_)⟩
    · rw [semOfCode_eq]; exact hkind
    · rw [semOfCode_eq]; exact List.getElem?_eq_none hcode
  · intro core k task v
    refine ⟨fun htask hocc hmine => ?_, fun htask h => ?_, fun htask h => ?_, fun htask h => ?_, fun htask hocc hmine h => ?_,
      fun h => ?_⟩
    · have hmeets := State.answerSem_meets (v := v) (⟨htask, hocc, hmine⟩ : s.Meets core k task) 0
      rw [← State.takeFlit_semAnswer] at hmeets
      refine ⟨fun d hw => ?_, fun d hw => ?_, fun d i name t hw hv => ?_, fun d i name t hw hv => ?_, fun hw => ?_,
        fun hw => ?_⟩
      · rw [hw] at hmeets
        exact flit_gives hdest hmeets
      · rw [hw] at hmeets
        exact flit_gives hdest hmeets
      · rw [hw] at hmeets
        simp only [if_neg hv] at hmeets
        exact flit_gives hdest hmeets
      · rw [hw] at hmeets
        simp only [if_pos hv] at hmeets
        refine flit_does hdest ?_
        rw [hmeets]
        exact State.answered_arm s ⟨core, k⟩ _ i name t _
      · rw [hw] at hmeets
        exact flit_gives hdest hmeets
      · rw [hw] at hmeets
        exact flit_gives hdest hmeets
    · exact flit_gives hdest (State.takeFlit_semAnswer.trans (State.answerSem_stray htask h 0))
    · subst htask
      exact flit_does hdest (State.packetAnswer_waiting h)
    · subst htask
      exact flit_gives hdest (State.packetAnswer_idle h)
    · exact flit_gives hdest (State.takeFlit_semCancelled.trans (State.waitCancelled_meets ⟨htask, hocc, hmine⟩ h))
    · exact flit_gives hdest (State.takeFlit_semCancelled.trans (State.waitCancelled_run h))
  · intro name dev core slot task
    rw [← semDie_eq]
    exact ⟨fun w hin hw hdev huid hcore => flit_gives hdest (State.cancelWait_waiter hin hw hdev huid hcore),
      fun hin hw => flit_gives hdest (State.cancelWait_none hin hw)⟩
  · intro n i gen
    refine ⟨fun h => flit_gives hdest (if_neg ?_), fun hstage hgen p a w hp ha hw hpc hres hrole => flit_does hdest ?_⟩
    · rw [Bool.and_eq_true, beq_iff_eq, beq_iff_eq]
      exact fun hc => h.elim (fun hs => hs hc.1) fun hg => hg hc.2
    · have hgood := State.releaseTcb_good hp ha hw hpc hres hrole
      have hw64 : w < 2 ^ 64 := State.fwRead_lt hw
      have htake : s.takeFlit (.tcbRelease n i gen) = (s.releaseTcb n i 8).modLaunch n fun l =>
          { l with remoteArms := l.remoteArms - 1 } := if_pos (by simp [hstage, hgen])
      rw [htake, hgood]
      refine ⟨congrArg Launch.remoteArms (State.launch_modLaunch_same _ _ _),
        (s.markTcb n i).tcbEntry n i (w64 p) (w64 a) (w64 w), ?_, rfl, rfl, rfl, rfl, rfl, ?_, ?_⟩
      · rw [State.die_modLaunch, State.die_modDie_same]
        exact mem_insertReady _ _
      · show BitVec.ofNat 32 (bits (w64 w) 31 0) = _
        rw [bits_w64 _ _ hw64, Nat.pow_zero, Nat.div_one]
        exact ofNat_mod_two_pow 32 _
      · show BitVec.ofNat 8 (bits (w64 w) 39 32) = _
        rw [bits_w64 _ _ hw64]
        exact ofNat_mod_two_pow 8 _
  · intro dev q gen
    refine ⟨flit_does hdest ⟨List.mem_append_right _ (List.mem_singleton.2 rfl), rfl, fun d o w => ?_⟩, fun hr hg =>
      flit_gives hdest (if_pos (by simp [hr, hg])), fun h => flit_gives hdest (if_neg ?_)⟩
    · rw [show (s.takeFlit (.fence dev q gen)).die d = (s.die d).fence dev q gen from s.die_takeFence dev q gen d]
      simp only [Die.fence, List.mem_filter, Bool.not_eq_true', Bool.and_eq_false_iff, beq_eq_false_iff_ne,
        bne_eq_false_iff_eq]
      exact ⟨and_congr_right fun _ => by tauto, and_congr_right fun _ => by tauto⟩
    · rcases h with h | h <;> simp [h]
  · intro src tag op args block hwait
    have hfiled : ∀ (u : State), u.cfgblocks = writeList (16 * (args.getD 0 0).toNat) block.zipIdx s.cfgblocks →
        ∀ k, k < block.length → tget 0 u.cfgblocks (16 * (args.getD 0 0).toNat + k) = block.getD k 0 := fun u hu k hk => by
      rw [hu]
      exact tget_writeList 0 _ hk _
    let c : Cmd := { opcode := op.toNat, tag := tag, args := args, src := some src, away := false, started := false }
    have htake : s.takeFlit (.mailboxCommand src tag op args block) = s.takeCommand c block := rfl
    refine ⟨fun hnone hlo hhi hne hservice => flit_does hdest ?_, fun hnone hop => flit_does hdest ?_,
      fun hsome => flit_does hdest ?_⟩ <;> rw [htake]
    · obtain ⟨st, hst, hmem⟩ := opStates_full hlo hhi hne
      rw [State.takeCommand_accepted hwait hnone (c := c) hst (by rw [hservice]; exact hmem) hne]
      exact ⟨State.ringAll_keeps _ _ State.mbox fun _ _ _ => rfl, hfiled _ (State.ringAll_keeps _ _ State.cfgblocks fun _ _ _ => rfl),
        State.ringAll_keeps _ _ State.outbox fun _ _ _ => rfl⟩
    · have hnop : opStates op.toNat = none := by
        rw [← Option.isNone_iff_eq_none, opStates_isNone_iff]
        omega
      rw [State.takeCommand_unknown hwait hnone (c := c) hnop rfl]
      exact ⟨State.ringAll_keeps _ _ (fun u => u.mbox.cmd) fun _ _ _ => rfl, State.ringAll_keeps _ _ State.outbox fun _ _ _ => rfl⟩
    · rw [State.takeCommand_waits hwait hsome]
      exact ⟨State.ringAll_keeps _ _ State.mbox fun _ _ _ => rfl, State.ringAll_keeps _ _ State.cmdWait fun _ _ _ => rfl,
        hfiled _ (State.ringAll_keeps _ _ State.cfgblocks fun _ _ _ => rfl)⟩
  · intro c tag result values hcmd haway htag hsrc hwait
    have htake : s.takeFlit (.mailboxAnswer tag result values) = s.answerCmd result.toNat values := by
      unfold State.takeFlit
      dsimp only
      rw [hcmd]
      exact if_pos (by simp [haway, htag])
    refine flit_does hdest ?_
    rw [htake, State.answerCmd_host hwait hcmd hsrc, htag]
    refine ⟨rfl, rfl, rfl, rfl, fun k hk => ?_, rfl⟩
    rw [← tget_writeList 0 0 hk s.mbox.res, Nat.zero_add]
  · intro src words k hk hfirst
    refine flit_gives hdest ?_
    unfold State.takeFlit
    dsimp only
    rw [findIdx?_first hk hfirst]
  · intro dev stamp offset bytes
    have htakes := s.takes_iff dev stamp
    have htaken : ∀ {b : State}, s.bridge = true →
        ¬ (∃ q g h, stamp = some (q, g) ∧ (dev, q, h) ∈ s.foreign ∧ h ≠ g) →
        (if s.bridge && !(s.stale dev stamp) then b else s) = b := fun hb hs => if_pos (htakes.2 ⟨hb, hs⟩)
    refine ⟨fun hb hs hwf => flit_does hdest ?_, fun h => ?_, fun tag size o v hb hs hwf => flit_does hdest ?_,
      fun tag size e n hb hs hwf => flit_does hdest ?_, fun tag size m at_ element hb hs hwf hnd => flit_does hdest ?_⟩
    · rw [show s.takeFlit (.hostWrite dev stamp offset bytes) = s.homeWrite (cellsFrom (hostAt offset) bytes) from
        htaken hb hs]
      exact ⟨fun k hk => Memory.get_setAll_cellsFrom hwf _ hk, rfl⟩
    · have hdrop : ¬ ((s.bridge && !(s.stale dev stamp)) = true) := fun hc => by
        obtain ⟨hb, hs⟩ := htakes.1 hc
        exact h.elim (fun hn => by rw [hb] at hn; cases hn) hs
      exact ⟨flit_gives hdest (if_neg hdrop), fun _ _ _ => flit_gives hdest (if_neg hdrop)⟩
    · rw [show s.takeFlit (.hostAtomic dev stamp tag offset size (.amo o v)) = s.bridgeAtomic dev tag offset (.amo o v) from
        htaken hb hs]
      exact State.bridged_amo hwf dev tag offset o v
    · rw [show s.takeFlit (.hostAtomic dev stamp tag offset size (.cas e n)) = s.bridgeAtomic dev tag offset (.cas e n) from
        htaken hb hs]
      exact State.bridged_cas hwf dev tag offset e n
    · rw [show s.takeFlit (.hostAtomic dev stamp tag offset size (.merge m at_ element)) =
        s.bridgeAtomic dev tag offset (.merge m at_ element) from htaken hb hs]
      exact State.bridged_merge hwf dev tag offset m hnd element
  · intro dev tag offset size hbridge
    exact flit_gives hdest (if_pos hbridge)
  · intro tag bytes h
    exact flit_gives hdest (State.takeHostValue_none h bytes)
  · intro tag bytes q hreqs htag hback
    refine ⟨fun hunit hwf => flit_does hdest ?_, fun d hunit hw => flit_does hdest ?_⟩
    · rw [show s.takeFlit (.hostValue tag bytes) = _ from State.takeHostValue_granule hreqs htag hback hunit bytes]
      exact ⟨rfl, fun k hk => Memory.get_setAll_cellsFrom hwf _ hk, State.slotAt_modSlot_same _ _ _⟩
    · rw [show s.takeFlit (.hostValue tag bytes) = _ from State.takeHostValue_atomic hreqs htag hback hunit hw bytes]
      refine ⟨rfl, rfl, (State.slotAt_modSlot_same _ _ _).trans ?_⟩
      unfold Slot.wx
      split <;> rfl
  · exact flit_does hdest ⟨rfl, rfl⟩
  · exact fun dev nonce => ⟨_, flit_gives hdest rfl⟩
  · exact fun sig => flit_gives hdest rfl
  · exact fun dev port cost => flit_gives hdest rfl
  · exact fun bits => flit_gives hdest rfl

end Sys2Proof.Machine
end

section
/-! A task that is placed in a slot (R28, R29, R55, R63, R299): what the slot holds then, and what stays. -/

namespace Sys2Proof.Machine

/-! ## A core that receives its first task -/

theorem State.openPair_eq (s : State) (g : Nat) (m : BitVec 3) : ∃ cs, s.openPair g m = { s with cores := cs } := by
  unfold State.openPair
  dsimp only
  split
  · exact ⟨_, rfl⟩
  · exact ⟨_, rfl⟩

theorem State.slotAt_openPair (s : State) (g : Nat) (m : BitVec 3) (p : SlotRef) :
    (s.openPair g m).slotAt p = s.slotAt p := by
  unfold State.openPair
  split
  · exact (State.slotAt_modCore _ _ _ p (by intro; rfl)).trans (State.slotAt_modCore _ _ _ p (by intro; rfl))
  · rfl

/-- A core that is opened changes the cores, and memory where its pool is cleared. -/
theorem State.openCore_eq (s : State) (g : Nat) (l : Launch) :
    ∃ cs m o p, s.openCore g l = { s with cores := cs, mem := m, overlay := o, poison := p } := by
  unfold State.openCore
  dsimp only
  split
  · exact ⟨_, _, _, _, rfl⟩
  · obtain ⟨cs, h⟩ := State.openPair_eq (if ((s.core g).context == some l.queue && (s.core g).b0 == l.b0 &&
      (s.core g).b1 == l.b1 && (s.core g).b2 == l.b2) = true then s else s.clearPool g) g (s.queue l.queue).mxw
    rw [h]
    split <;> exact ⟨_, _, _, _, rfl⟩

theorem State.slotAt_openCore (s : State) (g : Nat) (l : Launch) (p : SlotRef) :
    (s.openCore g l).slotAt p = s.slotAt p := by
  unfold State.openCore
  dsimp only
  split
  · rfl
  · refine (State.slotAt_modCore _ _ _ p (by intro; rfl)).trans ((State.slotAt_openPair _ _ _ _).trans ?_)
    split <;> rfl

theorem State.b0_openCore (s : State) (g : Nat) (l : Launch) :
    ((s.openCore g l).core g).b0 = if (s.core g).empty then l.b0 else (s.core g).b0 := by
  unfold State.openCore
  dsimp only
  cases h : (s.core g).empty with
  | false => rfl
  | true =>
    rw [if_neg (by decide), if_pos rfl]
    refine (congrArg Core.b0 (State.core_modCore_same _ g _)).trans ?_
    rfl

/-! ## A task in its slot -/

/-- The state with a task of a launch in a slot, before it joins a gang. -/
def State.seat (s : State) (r : SlotRef) (n : Nat) (st : Start) : State :=
  let l := s.launch n
  let s1 := (s.openCore r.core l).modCluster (clusterOf r.core) fun k =>
    { k with placed := if k.placed.contains l.queue then k.placed else k.placed ++ [l.queue] }
  let s2 := s1.modCore r.core fun c => { c with tlb := (l.trans ++ c.tlb).eraseDups.take Config.tlbEntries }
  ({ s2 with nextUid := s2.nextUid + 1 }).setSlot r (Slot.start st n l s2.nextUid)

/-- A task of a launch has been placed in a slot. -/
structure Seated (s t : State) (r : SlotRef) (n : Nat) (st : Start) : Prop where
  slot : ∃ w, t.slotAt r = { Slot.start st n (s.launch n) s.nextUid with wait := w }
  others : ∀ p, p ≠ r → t.slotAt p = s.slotAt p
  launches : t.launches = s.launches
  waiting : ∀ d, (t.die d).ready = (s.die d).ready ∧ (t.die d).pool = (s.die d).pool
  placed : (s.launch n).queue ∈ (t.cluster (clusterOf r.core)).placed
  b0 : (t.core r.core).b0 = if (s.core r.core).empty then (s.launch n).b0 else (s.core r.core).b0

theorem State.b0_modSlot (s : State) (r : SlotRef) (f : Slot → Slot) (g : Nat) :
    ((s.modSlot r f).core g).b0 = (s.core g).b0 := by
  unfold State.modSlot State.setSlot
  rw [State.core_setCore]
  split
  · next h => rw [h]; rfl
  · rfl

/-- What waits at a die for a slot is beside its gangs. -/
theorem State.waiting_postGang (s : State) (e : Nat) (o : GangOp) (d : Nat) :
    ((s.postGang e o).die d).ready = (s.die d).ready ∧ ((s.postGang e o).die d).pool = (s.die d).pool := by
  unfold State.postGang
  rw [State.die_modDie]
  split
  · next h => rw [h]; exact ⟨rfl, rfl⟩
  · exact ⟨rfl, rfl⟩

theorem State.seated_seat (s : State) (r : SlotRef) (n : Nat) (st : Start) : Seated s (s.seat r n st) r n st := by
  let l := s.launch n
  let f : Cluster → Cluster := fun k =>
    { k with placed := if k.placed.contains l.queue then k.placed else k.placed ++ [l.queue] }
  let g : Core → Core := fun c => { c with tlb := (l.trans ++ c.tlb).eraseDups.take Config.tlbEntries }
  let s1 := (s.openCore r.core l).modCluster (clusterOf r.core) f
  obtain ⟨cs, m, o, p, hopen⟩ := s.openCore_eq r.core l
  have huid : s1.nextUid = s.nextUid := by
    show (s.openCore r.core l).nextUid = s.nextUid
    rw [hopen]
  have hseat : s.seat r n st = ({ s1.modCore r.core g with nextUid := s1.nextUid + 1 } : State).setSlot r
      (Slot.start st n l s1.nextUid) := rfl
  have hslot : ∀ p, ({ s1.modCore r.core g with nextUid := s1.nextUid + 1 } : State).slotAt p = s.slotAt p := fun p =>
    (State.slotAt_modCore s1 r.core g p fun _ => rfl).trans (s.slotAt_openCore r.core l p)
  have hb0 : (({ s1.modCore r.core g with nextUid := s1.nextUid + 1 } : State).core r.core).b0 =
      if (s.core r.core).empty then l.b0 else (s.core r.core).b0 :=
    (congrArg Core.b0 (State.core_modCore_same s1 r.core g)).trans (s.b0_openCore r.core l)
  rw [hseat]
  exact
    { slot := ⟨_, (State.slotAt_setSlot_same _ _ _).trans (by rw [huid])⟩
      others := fun p hp => (State.slotAt_setSlot_ne _ _ hp).trans (hslot p)
      launches := by
        show (s.openCore r.core l).launches = s.launches
        rw [hopen]
      waiting := fun d => by
        have hd : (s.openCore r.core l).die d = s.die d := by rw [hopen]; rfl
        exact ⟨congrArg Die.ready hd, congrArg Die.pool hd⟩
      placed := by
        refine (congrArg (fun k : Cluster => l.queue ∈ k.placed) (State.cluster_modCluster_same (s.openCore r.core l) _ f)).mpr ?_
        show l.queue ∈ if _ then _ else _
        split
        · next h => exact List.contains_iff_mem.1 h
        · simp
      b0 := (congrArg Core.b0 (State.core_setCore_same _ _ _)).trans hb0 }

/-- The slot of a task that joins a gang. -/
def Slot.joining (g : BitVec 6) (x : Slot) : Slot := { x with wait := .joining g }

/-- A task in its slot that joins a gang waits there (R55). -/
theorem Seated.join {s t : State} {r : SlotRef} {n : Nat} {st : Start} (h : Seated s t r n st) (g : BitVec 6) (e : Nat)
    (o : GangOp) : Seated s ((t.modSlot r (Slot.joining g)).postGang e o) r n st where
  slot := by
    obtain ⟨w, hw⟩ := h.slot
    exact ⟨.joining g, (State.slotAt_modSlot_same t r (Slot.joining g)).trans (by rw [hw]; rfl)⟩
  others p hp := ((State.slotAt_modSlot t r p (Slot.joining g)).trans (if_neg hp)).trans (h.others p hp)
  launches := h.launches
  waiting d :=
    ⟨(State.waiting_postGang _ e o d).1.trans (h.waiting d).1, (State.waiting_postGang _ e o d).2.trans (h.waiting d).2⟩
  placed := h.placed
  b0 := (t.b0_modSlot r (Slot.joining g) r.core).trans h.b0

/-- A task is admitted to its slot, whether it joins a gang there or not (R29, R55). -/
theorem State.seated_admitTask (s : State) (r : SlotRef) (n : Nat) (st : Start) : Seated s (s.admitTask r n st) r n st := by
  have h := s.seated_seat r n st
  unfold State.admitTask
  dsimp only
  split
  · exact h
  · next g _ => exact h.join g _ _

end Sys2Proof.Machine
end

section
/-! The admission sequence of a die (R40, R41): its head, and the slot that the head gets. -/

namespace Sys2Proof.Machine

/-! ## What a started slot holds (R29) -/

/-- A slot holds a task of a launch at its first instruction (R29). -/
def State.StartsAt (t : State) (n : Nat) (l : Launch) (r : SlotRef) (task : W32) (pc arg : W64) (role : Role) : Prop :=
  let m := t.slotAt r
  m.occ = true ∧ m.launch = n ∧ m.task = task ∧ m.pc = pc ∧ m.rx 1 = arg ∧ m.rx 2 = task.setWidth 64 ∧
  m.rx 3 = BitVec.ofNat 64 l.count ∧ (∀ k : XReg, 4 ≤ k.toNat → m.rx k = 0) ∧ m.p = 0 ∧ m.role = role ∧ m.tvec = l.tvec ∧
  m.yield = (if l.det = 2 then 0 else 16) ∧ m.started = false

theorem Slot.rx_start (st : Start) (n : Nat) (l : Launch) (u : Nat) {k : XReg} (hk : k ≠ 0) : (Slot.start st n l u).rx k =
    if k.toNat = 1 then st.arg else if k.toNat = 2 then st.num.setWidth 64 else if k.toNat = 3 then w64 l.count else 0 := by
  unfold Slot.rx Slot.start
  rw [if_neg hk]
  simp

/-- A slot that holds a start, whatever group it is in and whether its task waits to join a gang. -/
theorem State.startsAt_of {t : State} {r : SlotRef} {st : Start} {n u : Nat} {l : Launch} {w : Wait} {g : Option Nat}
    (h : t.slotAt r = { Slot.start st n l u with wait := w, group := g }) :
    t.StartsAt n l r st.num st.pc st.arg st.role := by
  have hrx : ∀ k : XReg, (t.slotAt r).rx k = (Slot.start st n l u).rx k := fun k => by rw [h]; rfl
  have hhigh : ∀ k : XReg, 4 ≤ k.toNat → (t.slotAt r).rx k = 0 := fun k hk => by
    have hk0 : k ≠ 0 := by rintro rfl; exact absurd hk (by decide)
    rw [hrx, Slot.rx_start _ _ _ _ hk0, if_neg (by omega), if_neg (by omega), if_neg (by omega)]
  refine ⟨?_, ?_, ?_, ?_, ?_, ?_, ?_, hhigh, ?_, ?_, ?_, ?_, ?_⟩
  case refine_5 => rw [hrx, Slot.rx_start _ _ _ _ (by decide)]; rfl
  case refine_6 => rw [hrx, Slot.rx_start _ _ _ _ (by decide)]; rfl
  case refine_7 => rw [hrx, Slot.rx_start _ _ _ _ (by decide)]; rfl
  all_goals rw [h]; rfl

theorem Seated.startsAt {s t : State} {r : SlotRef} {n : Nat} {st : Start} (h : Seated s t r n st) :
    t.StartsAt n (s.launch n) r st.num st.pc st.arg st.role := by
  obtain ⟨w, hw⟩ := h.slot
  exact State.startsAt_of (g := none) (hw.trans rfl)

/-! ## The operation of a die's scheduler -/

section
variable {s t : State} {d : Nat}

theorem launchAdmission_does (h : s.scheduleDie d = some t) : Happens s (.launchAdmission d) t := by
  show execLaunchAdmission d s = _
  unfold execLaunchAdmission
  rw [h]; rfl

theorem launchAdmission_idle (h : s.scheduleDie d = none) : Idle s (.launchAdmission d) := by
  show execLaunchAdmission d s = _
  unfold execLaunchAdmission
  rw [h]; rfl

variable (hserve : s.service = 1 ∨ s.service = 2) (hdisp : (s.die d).disp = [])
include hserve hdisp

/-- With no packet offered, the head of the die's sequence comes first, then a launch, then a superstep. -/
theorem State.scheduleDie_eq : s.scheduleDie d =
    ((s.placeHead d).or ((s.dueLaunches d).findSome? fun n => s.admitLaunch n)).or (s.superstepDue d) := by
  have hoffer : s.takeOffer d = none := by unfold State.takeOffer; rw [hdisp]
  unfold State.scheduleDie
  rw [if_neg (by rcases hserve with h | h <;> simp [h]), hoffer]
  dsimp only
  cases s.placeHead d with
  | some t => rfl
  | none => cases (s.dueLaunches d).findSome? fun n => s.admitLaunch n <;> rfl

theorem launchAdmission_places (h : s.placeHead d = some t) : Happens s (.launchAdmission d) t :=
  launchAdmission_does (by rw [State.scheduleDie_eq hserve hdisp, h]; rfl)

end

/-! ## The head of the sequence (R40) -/

/-- The state with a released TCB in a slot. -/
def State.placeTcb (s : State) (d : Nat) (r : SlotRef) (x : ReadyTcb) : State :=
  let s1 := (s.modDie d fun y => { y with ready := y.ready.erase x }).admitTask r x.launch x.start
  match x.index with
  | some i => s1.setTcbState x.launch i 3
  | none => s1

/-- The state with a child in a slot. -/
def State.placeChild (s : State) (d : Nat) (r : SlotRef) (c : Child) : State :=
  (s.modDie d fun y => { y with pool := y.pool.erase c }).admitTask r c.launch (c.start (s.launch c.launch))

/-- The state with the next task of a launch in a slot. -/
def State.placeTask (s : State) (r : SlotRef) (n : Nat) : State :=
  (s.admitTask r n ((s.launch n).direct (s.launch n).nextTask)).modLaunch n fun l => { l with nextTask := l.nextTask + 1 }

/-- Whether the next task of a launch stands in a die's sequence. -/
def State.inSequence (s : State) (d n : Nat) (l : Launch) : Bool :=
  l.stage == .admitted && l.det != 2 && l.mask.getLsbD d && decide (l.nextTask < l.count) && s.admits n

/-- The launch, of some with their orders, that was admitted first. -/
def firstOf (acc : Option (Nat × Nat)) (x : Nat × Launch) : Option (Nat × Nat) :=
  match acc with
  | none => some (x.1, x.2.order)
  | some (m, o) => if x.2.order < o then some (x.1, x.2.order) else some (m, o)

/-- The launch whose next task is at the head of a die's sequence, with no TCB and no child before it. -/
def State.headLaunch (s : State) (d : Nat) : Option (Nat × Nat) :=
  (s.launches.filter fun x => s.inSequence d x.1 x.2).foldl firstOf none

/-- The next task or group of a launch, where there is one and it has a slot. -/
def State.placeNext (s : State) (d n : Nat) : Option State :=
  if (s.launch n).lastTask ≤ (s.launch n).nextTask then none
  else if (s.launch n).cgran then s.placeGroup d n
  else (s.findSlot d (s.launch n)).map fun r => s.placeTask r n

section
variable {s : State} {d : Nat}

theorem State.placeHead_tcb {x : ReadyTcb} {r : SlotRef} (hready : (s.die d).ready = [x]) (hadmits : s.admits x.launch = true)
    (hfind : s.findSlot d (s.launch x.launch) = some r) : s.placeHead d = some (s.placeTcb d r x) := by
  unfold State.placeHead
  simp only [hready, List.find?_cons, hadmits, hfind, Option.map_some]
  rfl

theorem State.placeHead_child {c : Child} {r : SlotRef} (hready : (s.die d).ready = []) (hpool : (s.die d).pool = [c])
    (hadmits : s.admits c.launch = true) (hfind : s.findSlot d (s.launch c.launch) = some r) :
    s.placeHead d = some (s.placeChild d r c) := by
  unfold State.placeHead
  simp only [hready, hpool, List.find?_nil, List.find?_cons, hadmits, hfind, Option.map_some]
  rfl

theorem State.placeHead_launches (hready : (s.die d).ready = []) (hpool : (s.die d).pool = []) :
    s.placeHead d = (s.headLaunch d).bind fun x => s.placeNext d x.1 := by
  unfold State.placeHead
  simp only [hready, hpool, List.find?_nil]
  change (match s.headLaunch d with | none => none | some (n, _) => _) = _
  cases s.headLaunch d with
  | none => rfl
  | some x => rfl

end

end Sys2Proof.Machine
end

section
/-! What the placement of the head of a die's sequence leaves (R40, R41). -/

namespace Sys2Proof.Machine

theorem Seated.memory {s t u : State} {r : SlotRef} {n : Nat} {st : Start} (h : Seated s t r n st) (k : MemoryOnly t u) :
    Seated s u r n st where
  slot := by
    obtain ⟨w, hw⟩ := h.slot
    exact ⟨w, (k.keeps (·.slotAt r) rfl).trans hw⟩
  others p hp := (k.keeps (·.slotAt p) rfl).trans (h.others p hp)
  launches := (k.keeps State.launches rfl).trans h.launches
  waiting d := by
    have hd : u.die d = t.die d := k.keeps (·.die d) rfl
    rw [hd]
    exact h.waiting d
  placed := by
    have hc : u.cluster (clusterOf r.core) = t.cluster (clusterOf r.core) := k.keeps (·.cluster (clusterOf r.core)) rfl
    rw [hc]
    exact h.placed
  b0 := (k.keeps (fun x : State => (x.core r.core).b0) rfl).trans h.b0

theorem Seated.launch {s t : State} {r : SlotRef} {n : Nat} {st : Start} (h : Seated s t r n st) (m : Nat) :
    t.launch m = s.launch m := congrArg (fun ls => tget Launch.blank ls m) h.launches

section
variable {s : State} {d n : Nat} {r : SlotRef}

/-! ## A released TCB and a child -/

theorem State.seated_placeTcb (s : State) (d : Nat) (r : SlotRef) (x : ReadyTcb) :
    Seated (s.modDie d fun y => { y with ready := y.ready.erase x }) (s.placeTcb d r x) r x.launch x.start := by
  have h := (s.modDie d fun y => { y with ready := y.ready.erase x }).seated_admitTask r x.launch x.start
  unfold State.placeTcb
  dsimp only
  split
  · exact h.memory (State.setTcbState_memoryOnly _ _ _ 3)
  · exact h

theorem State.ready_placeTcb {x : ReadyTcb} (hready : (s.die d).ready = [x]) : ((s.placeTcb d r x).die d).ready = [] := by
  rw [((s.seated_placeTcb d r x).waiting d).1, State.die_modDie_same]
  show (s.die d).ready.erase x = []
  rw [hready, List.erase_cons_head]

theorem State.pool_placeChild {c : Child} (hpool : (s.die d).pool = [c]) : ((s.placeChild d r c).die d).pool = [] := by
  have h := (s.modDie d fun y => { y with pool := y.pool.erase c }).seated_admitTask r c.launch (c.start (s.launch c.launch))
  refine (h.waiting d).2.trans ?_
  rw [State.die_modDie_same]
  show (s.die d).pool.erase c = []
  rw [hpool, List.erase_cons_head]

/-! ## The next task of a launch -/

theorem State.launch_placeTask (s : State) (r : SlotRef) (n m : Nat) : (s.placeTask r n).launch m =
    if m = n then { s.launch n with nextTask := (s.launch n).nextTask + 1 } else s.launch m := by
  have h := s.seated_admitTask r n ((s.launch n).direct (s.launch n).nextTask)
  refine (State.launch_modLaunch _ n m _).trans ?_
  rw [h.launch n, h.launch m]

end

/-! ## A group of four (R41) -/

/-- The group that a slot belongs to. -/
def Slot.inGroup (id : Nat) (x : Slot) : Slot := { x with group := some id }

/-- The state with a task of a group of a launch in the first free slot of its core, where there is one. -/
def State.placeMember (n : Nat) (l : Launch) (id g : Nat) (s : State) (t : Nat) : State :=
  match (s.core (g + t % 4)).freeSlot with
  | some k => (s.admitTask ⟨g + t % 4, k⟩ n (l.direct t)).modSlot ⟨g + t % 4, k⟩ (Slot.inGroup id)
  | none => s

theorem Core.freeSlot_congr {b c : Core} (h : ∀ k, b.slot k = c.slot k) : b.freeSlot = c.freeSlot := by
  unfold Core.freeSlot
  simp only [h]

theorem State.freeSlot_congr {s t : State} {g : Nat} (h : ∀ p : SlotRef, p.core = g → t.slotAt p = s.slotAt p) :
    (t.core g).freeSlot = (s.core g).freeSlot :=
  Core.freeSlot_congr fun k => h ⟨g, k⟩ rfl

/-- A slot holds a task of a group that its launch admits by itself. -/
def State.HoldsMember (t : State) (n : Nat) (l : Launch) (id : Nat) (r : SlotRef) (task : Nat) : Prop :=
  ∃ u w, t.slotAt r = { Slot.start (l.direct task) n l u with wait := w, group := some id }

section
variable {s : State} {n id g : Nat} {l : Launch}

theorem State.launches_placeMember (s : State) (t : Nat) : (s.placeMember n l id g t).launches = s.launches := by
  unfold State.placeMember
  split
  · exact (s.seated_admitTask _ n (l.direct t)).launches
  · rfl

theorem State.slotAt_placeMember_ne (s : State) (t : Nat) {p : SlotRef} (hp : p.core ≠ g + t % 4) :
    (s.placeMember n l id g t).slotAt p = s.slotAt p := by
  unfold State.placeMember
  split
  · next k _ =>
    have hne : p ≠ ⟨g + t % 4, k⟩ := fun h => hp (congrArg SlotRef.core h)
    exact ((State.slotAt_modSlot _ _ p _).trans (if_neg hne)).trans ((s.seated_admitTask _ n (l.direct t)).others p hne)
  · rfl

theorem State.holdsMember_placeMember {t : Nat} {k : Fin 4} (hl : s.launch n = l)
    (hk : (s.core (g + t % 4)).freeSlot = some k) :
    (s.placeMember n l id g t).HoldsMember n l id ⟨g + t % 4, k⟩ t := by
  obtain ⟨w, hw⟩ := (s.seated_admitTask ⟨g + t % 4, k⟩ n (l.direct t)).slot
  have hmember : s.placeMember n l id g t =
      (s.admitTask ⟨g + t % 4, k⟩ n (l.direct t)).modSlot ⟨g + t % 4, k⟩ (Slot.inGroup id) := by
    unfold State.placeMember
    rw [hk]
  refine ⟨s.nextUid, w, ?_⟩
  rw [hmember, State.slotAt_modSlot_same, hw, hl]
  rfl

/-- The tasks of a group come to lie on the cores that their numbers name, each in the slot that was the first free one. -/
theorem State.placeMembers {ts : List Nat} (hnd : (ts.map (· % 4)).Nodup) (hl : s.launch n = l) :
    let t := ts.foldl (State.placeMember n l id g) s
    t.launches = s.launches ∧ (∀ p : SlotRef, (∀ i, i ∈ ts → p.core ≠ g + i % 4) → t.slotAt p = s.slotAt p) ∧
    ∀ i, i ∈ ts → ∀ k, (s.core (g + i % 4)).freeSlot = some k → t.HoldsMember n l id ⟨g + i % 4, k⟩ i := by
  induction ts generalizing s with
  | nil => exact ⟨rfl, fun _ _ => rfl, fun _ h => absurd h List.not_mem_nil⟩
  | cons a ts ih =>
    obtain ⟨ha, hnd⟩ := List.nodup_cons.1 hnd
    have hcores : ∀ i, i ∈ ts → g + i % 4 ≠ g + a % 4 := fun i hi h =>
      ha (List.mem_map.2 ⟨i, hi, show i % 4 = a % 4 by omega⟩)
    have hlaunch : (s.placeMember n l id g a).launch n = l :=
      (congrArg (fun ls => tget Launch.blank ls n) (s.launches_placeMember a)).trans hl
    obtain ⟨hls, hothers, hmembers⟩ := ih hnd hlaunch
    refine ⟨hls.trans (s.launches_placeMember a), fun p hp => ?_, fun i hi k hk => ?_⟩
    · exact (hothers p fun i hi => hp i (List.mem_cons_of_mem a hi)).trans
        (s.slotAt_placeMember_ne a (hp a List.mem_cons_self))
    · rcases List.mem_cons.1 hi with rfl | hi
      · obtain ⟨u, w, h⟩ := State.holdsMember_placeMember (id := id) hl hk
        exact ⟨u, w, (hothers _ fun j hj h => hcores j hj h.symm).trans h⟩
      · refine hmembers i hi k ?_
        rw [State.freeSlot_congr fun p hp => s.slotAt_placeMember_ne a (by rw [hp]; exact hcores i hi)]
        exact hk

end

/-- Whether a group of a launch has a slot on each core of a cluster whose first core is given. -/
def State.clusterFits (s : State) (l : Launch) (g : Nat) : Bool :=
  (List.range 4).all fun c => s.coreFits (g + c) l && ((s.core (g + c)).freeSlot).isSome

theorem State.clusterFits_iff {s : State} {l : Launch} {g : Nat} : s.clusterFits l g = true ↔
    ∀ c, c < 4 → s.coreFits (g + c) l = true ∧ (s.core (g + c)).freeSlot ≠ none := by
  simp [State.clusterFits, Option.isSome_iff_ne_none]

/-- The first number below a bound that meets a test is the one that a search for it finds. -/
theorem findSome?_range_first {α : Type} {m k : Nat} {p : Nat → Bool} {f : Nat → α} (hk : k < m) (hp : p k = true)
    (hfirst : ∀ j, j < k → p j = false) : ((List.range m).findSome? fun j => if p j then some (f j) else none) = some (f k) := by
  obtain ⟨i, rfl⟩ : ∃ i, m = k + (i + 1) := ⟨m - k - 1, by omega⟩
  rw [List.range_add, List.findSome?_append, List.findSome?_eq_none_iff.2 fun j hj => by
    rw [hfirst j (List.mem_range.1 hj)]; rfl]
  simp [List.range_succ_eq_map, hp]

/-- The state with a group of a launch on the cluster whose first core is given. -/
def State.groupOn (s : State) (n g : Nat) : State :=
  ((s.launch n).groupTasks.foldl (State.placeMember n (s.launch n) s.nextUid g) s).modLaunch n fun x =>
    { x with nextTask := (s.launch n).nextTask + (s.launch n).groupTasks.length }

theorem State.placeGroup_first {s : State} {d n k : Nat} (hk : k < 24)
    (hfits : s.clusterFits (s.launch n) (96 * d + 4 * k) = true)
    (hfirst : ∀ j, j < k → s.clusterFits (s.launch n) (96 * d + 4 * j) = false) :
    s.placeGroup d n = some (s.groupOn n (96 * d + 4 * k)) :=
  findSome?_range_first (p := fun j => s.clusterFits (s.launch n) (96 * d + 4 * j))
    (f := fun j => s.groupOn n (96 * d + 4 * j)) hk hfits hfirst

/-- A whole group of four: task 4k + c goes to core c. -/
theorem Launch.groupTasks_whole {l : Launch} (hlast : l.nextTask + 4 ≤ l.lastTask) (hfour : l.nextTask % 4 = 0) :
    l.groupTasks = [l.nextTask, l.nextTask + 1, l.nextTask + 2, l.nextTask + 3] := by
  unfold Launch.groupTasks
  rw [show Nat.min l.lastTask (4 * (l.nextTask / 4 + 1)) - l.nextTask = 4 by
    rw [show Nat.min l.lastTask (4 * (l.nextTask / 4 + 1)) = 4 * (l.nextTask / 4 + 1) from Nat.min_eq_right (by omega)]
    omega]
  rfl

theorem State.groupOn_whole {s : State} {n g : Nat} (hlast : (s.launch n).nextTask + 4 ≤ (s.launch n).lastTask)
    (hfour : (s.launch n).nextTask % 4 = 0) :
    ((s.groupOn n g).launch n).nextTask = (s.launch n).nextTask + 4 ∧
    ∀ c k, c < 4 → (s.core (g + c)).freeSlot = some k →
      (s.groupOn n g).HoldsMember n (s.launch n) s.nextUid ⟨g + c, k⟩ ((s.launch n).nextTask + c) := by
  have htasks := Launch.groupTasks_whole hlast hfour
  have hmod : ∀ c, c < 4 → ((s.launch n).nextTask + c) % 4 = c := fun c hc => by omega
  have hnd : ((s.launch n).groupTasks.map (· % 4)).Nodup := by
    rw [htasks]
    simp only [List.map_cons, List.map_nil, hfour, hmod 1 (by decide), hmod 2 (by decide), hmod 3 (by decide)]
    decide
  obtain ⟨-, -, hmembers⟩ := State.placeMembers (g := g) (id := s.nextUid) hnd rfl
  refine ⟨?_, fun c k hc hk => ?_⟩
  · unfold State.groupOn
    rw [State.launch_modLaunch_same, htasks]
    rfl
  · have hmem : (s.launch n).nextTask + c ∈ (s.launch n).groupTasks := by
      rw [htasks]
      simp only [List.mem_cons, List.not_mem_nil]
      omega
    have h := hmembers _ hmem k (by rw [hmod c hc]; exact hk)
    rw [hmod c hc] at h
    exact h

end Sys2Proof.Machine
end

section
/-! The turn of a launch: which launch a die's sequence or its scheduler comes to, and when neither comes to one (R40, R389). -/

namespace Sys2Proof.Machine

section
variable {s : State} {d n : Nat} {l : Launch}

/-! ## Tables of one entry -/

theorem tget_single {α : Type} (z : α) (n : Nat) (x : α) : tget z [(n, x)] n = x := by simp [tget]

theorem State.launch_single (h : s.launches = [(n, l)]) : s.launch n = l := by
  unfold State.launch; rw [h, tget_single]

theorem State.queue_single {q : Nat} {u : Queue} (h : s.queues = [(q, u)]) : s.queue q = u := by
  unfold State.queue; rw [h, tget_single]

theorem State.admits_iff : s.admits n = true ↔
    (s.queue (s.launch n).queue).stopped = false ∧ (s.queue (s.launch n).queue).resetting = false := by
  simp [State.admits]

/-! ## The head of the sequence -/

theorem State.inSequence_of (hstage : l.stage = .admitted) (hdet : l.det ≠ 2) (hmask : l.mask.getLsbD d = true)
    (hcount : l.nextTask < l.count) (hadmits : s.admits n = true) : s.inSequence d n l = true := by
  simpa [State.inSequence, hstage, hmask, hcount, hadmits] using hdet

theorem State.headLaunch_single (hls : s.launches = [(n, l)]) (hin : s.inSequence d n l = true) :
    s.headLaunch d = some (n, l.order) := by
  unfold State.headLaunch
  simp only [hls, List.filter_cons, List.filter_nil, hin]
  rfl

/-- Of two launches of a sequence the earlier one is its head, in whichever order they stand. -/
theorem State.headLaunch_two {m : Nat} {x : Launch} (hls : s.launches = [(n, l), (m, x)] ∨ s.launches = [(m, x), (n, l)])
    (hl : s.inSequence d n l = true) (hx : s.inSequence d m x = true) (hord : l.order < x.order) :
    s.headLaunch d = some (n, l.order) := by
  unfold State.headLaunch
  rcases hls with h | h
  · simp only [h, List.filter_cons, List.filter_nil, hl, hx]
    show (if x.order < l.order then _ else _) = _
    rw [if_neg (by omega)]
  · simp only [h, List.filter_cons, List.filter_nil, hl, hx]
    show (if l.order < x.order then _ else _) = _
    rw [if_pos hord]

/-- A launch that is queued has no task in a sequence. -/
theorem State.headLaunch_queued (hls : s.launches = [(n, l)]) (hstage : l.stage = .queued) : s.headLaunch d = none := by
  have hin : s.inSequence d n l = false := by simp [State.inSequence, hstage]
  unfold State.headLaunch
  simp only [hls, List.filter_cons, List.filter_nil, hin]
  rfl

theorem State.placeNext_later (h : (s.launch n).lastTask ≤ (s.launch n).nextTask) : s.placeNext d n = none := if_pos h

theorem State.placeNext_slotless (hgran : (s.launch n).cgran = false) (h : s.findSlot d (s.launch n) = none) :
    s.placeNext d n = none := by
  unfold State.placeNext
  rw [hgran, h]
  split <;> rfl

theorem State.placeNext_task {r : SlotRef} (hgran : (s.launch n).cgran = false)
    (hlast : (s.launch n).nextTask < (s.launch n).lastTask) (h : s.findSlot d (s.launch n) = some r) :
    s.placeNext d n = some (s.placeTask r n) := by
  unfold State.placeNext
  rw [if_neg (by omega), hgran, h]
  rfl

theorem State.placeNext_group (hgran : (s.launch n).cgran = true)
    (hlast : (s.launch n).nextTask < (s.launch n).lastTask) : s.placeNext d n = s.placeGroup d n := by
  unfold State.placeNext
  rw [if_neg (by omega), if_pos hgran]

/-! ## Launches and supersteps that are due -/

theorem State.dueLaunches_nil (h : ∀ e, e ∈ s.launches → e.2.stage ≠ .queued) : s.dueLaunches d = [] := by
  unfold State.dueLaunches
  rw [List.filterMap_eq_nil_iff.2 fun x _ => ?_]
  · rfl
  · dsimp only
    split
    · rfl
    · split
      · next k e he =>
        rw [if_neg]
        have := h (k, e) (List.mem_of_find?_eq_some he)
        simpa using this
      · rfl

theorem State.dueLaunches_head {q : Nat} {u : Queue} (hls : s.launches = [(n, l)]) (hqs : s.queues = [(q, u)])
    (hlq : l.queue = q) (hstop : u.stopped = false) (hreset : u.resetting = false) (hdie : lowestDie u.dies = d)
    (hstage : l.stage = .queued) : s.dueLaunches d = [n] := by
  unfold State.dueLaunches
  simp [hqs, hls, hlq, hstop, hreset, hdie, hstage]

theorem State.superstepDue_none (h : ∀ e, e ∈ s.launches → e.2.stage = .admitted → e.2.det ≠ 2) :
    s.superstepDue d = none := by
  have hnone : ∀ q, s.admitSuperstep q = none := fun q => by
    unfold State.admitSuperstep
    rw [List.find?_eq_none.2 fun e he => ?_]
    have := h e he
    simp only [Bool.and_eq_true, beq_iff_eq, decide_eq_true_eq, not_and]
    exact fun ⟨⟨_, hstage⟩, hdet⟩ => absurd hdet (this hstage)
  unfold State.superstepDue
  split
  · rfl
  · rw [List.findSome?_eq_none_iff]
    intro x _
    simp [hnone]

section
variable (hserve : s.service = 1 ∨ s.service = 2) (hdisp : (s.die d).disp = [])
include hserve hdisp

/-- With nothing at the head of the sequence and every launch admitted at a level below D2, the scheduler does nothing. -/
theorem launchAdmission_rests (hplace : s.placeHead d = none)
    (h : ∀ e, e ∈ s.launches → e.2.stage = .admitted ∧ e.2.det ≠ 2) : Idle s (.launchAdmission d) := by
  refine launchAdmission_idle ?_
  rw [State.scheduleDie_eq hserve hdisp, hplace, State.dueLaunches_nil fun e he hq => ?_,
    State.superstepDue_none fun e he _ => (h e he).2]
  · rfl
  · rw [(h e he).1] at hq
    exact absurd hq (by decide)

/-- With the only launch in its turn, the scheduler does what its admission comes to. -/
theorem State.scheduleDie_due {q : Nat} {u : Queue} (hready : (s.die d).ready = []) (hpool : (s.die d).pool = [])
    (hls : s.launches = [(n, l)]) (hqs : s.queues = [(q, u)]) (hlq : l.queue = q) (hstop : u.stopped = false)
    (hreset : u.resetting = false) (hdie : lowestDie u.dies = d) (hstage : l.stage = .queued) :
    s.scheduleDie d = s.admitLaunch n := by
  have hstep : s.superstepDue d = none := State.superstepDue_none fun e he ha => by
    rw [hls, List.mem_singleton] at he
    rw [he, hstage] at ha
    exact absurd ha (by decide)
  rw [State.scheduleDie_eq hserve hdisp, State.placeHead_launches hready hpool, State.headLaunch_queued hls hstage,
    State.dueLaunches_head hls hqs hlq hstop hreset hdie hstage, hstep]
  cases h : s.admitLaunch n with
  | none => simp [h]
  | some t => simp [h]

end

end

end Sys2Proof.Machine
end

section
/-! The checks of a descriptor (R36): the fields that each error code reads. -/

namespace Sys2Proof.Machine

/-- Bits [hi:lo] of word k of a descriptor. -/
def descField (w : List W64) (k hi lo : Nat) : Nat := ((w.getD k 0).extractLsb' lo (hi - lo + 1)).toNat

theorem descField_eq (w : List W64) (k : Nat) {hi lo : Nat} (h : lo ≤ hi) : descField w k hi lo = bits (w.getD k 0) hi lo :=
  toNat_extract _ hi lo _ (by omega)

theorem bitOf_eq_bits (x : W64) (n : Nat) : bitOf x n = (bits x n n == 1) := by
  unfold bitOf bits
  rw [show n + 1 - n = 1 by omega, Nat.pow_one]

theorem bits_all (x : W64) : bits x 63 0 = x.toNat := by
  unfold bits
  rw [Nat.pow_zero, Nat.div_one, Nat.mod_eq_of_lt x.isLt]

/-! ## ERR 1 to ERR 4 -/

/-- ERR 1 (R34, R35). -/
def DescReserved (w : List W64) : Prop :=
  let f := descField w
  f 2 63 32 ≠ 0 ∨ f 5 63 59 ≠ 0 ∨ f 5 30 30 ≠ 0 ∨ f 5 23 23 ≠ 0 ∨ f 5 15 15 ≠ 0 ∨ f 5 7 7 ≠ 0 ∨
  f 8 7 5 ≠ 0 ∨ f 8 31 16 ≠ 0 ∨ f 8 63 48 ≠ 0 ∨ f 12 63 32 ≠ 0 ∨ f 14 63 0 ≠ 0 ∨ f 15 63 0 ≠ 0 ∨
  (∃ k, k ≤ f 5 35 34 ∧ f 5 (37 + 2 * k) (36 + 2 * k) = 3) ∨ f 0 1 0 ≠ 0 ∨ f 6 1 0 ≠ 0 ∨ 16 < f 8 4 0 ∨ 48 < f 5 29 24

/-- ERR 2. -/
def DescBounds (w : List W64) : Prop :=
  let f := descField w
  ¬ (f 5 6 0 ≤ f 5 14 8 ∧ f 5 14 8 ≤ f 5 22 16 ∧ f 5 22 16 ≤ 64) ∨
  f 5 6 0 * 16384 < 32768 + 4 * (f 5 29 24 * 512 + 1024)

/-- ERR 3, on a queue of some level. -/
def DescLevel (w : List W64) (level : Nat) (service : BitVec 2) : Prop :=
  let det := descField w 5 33 32
  det ≠ level ∨ det = 3 ∨ (det = 2 ∧ service = 1)

/-- ERR 4. -/
def DescDies (w : List W64) : Prop :=
  let f := descField w
  f 5 49 47 < f 5 46 44 ∨ (f 5 33 32 = 2 ∧ f 5 46 44 ≠ f 5 49 47)

theorem bits_bit_ne_zero (x : W64) (n : Nat) : bits x n n ≠ 0 ↔ bitOf x n = true := by
  rw [bitOf_eq_bits, beq_iff_eq]
  unfold bits
  rw [show n + 1 - n = 1 by omega]
  omega

theorem ne_zero_iff_bits_all (x : W64) : bits x 63 0 ≠ 0 ↔ x ≠ 0 := by
  rw [bits_all, Ne, Ne, ← BitVec.toNat_inj]; rfl

theorem descBad1_iff (w : List W64) : descBad1 w = true ↔ DescReserved w := by
  unfold descBad1 DescReserved
  simp (disch := omega) only [descField_eq, bits_bit_ne_zero, ne_zero_iff_bits_all, Bool.or_eq_true, bne_iff_ne, ne_eq,
    decide_eq_true_eq, List.any_eq_true, List.mem_range, beq_iff_eq, or_assoc, cfgNent, Nat.lt_succ_iff]

theorem descBad2_iff (w : List W64) : descBad2 (w.getD 5 0) = true ↔ DescBounds w := by
  unfold descBad2 DescBounds
  simp (disch := omega) only [descField_eq, Bool.or_eq_true, Bool.not_eq_true', decide_eq_true_eq, decide_eq_false_iff_not]

/-! ## The count and the phases (R39, R43) -/

/-- The task count; none for ERR 5. -/
def State.taskCount (s : State) (root : W64) (w : List W64) : Option Nat :=
  let f := descField w
  if f 3 63 0 = 0 then some (f 2 31 0) else if f 3 63 0 % 8 ≠ 0 then none
  else match s.fwRead root (f 3 63 0) 8 with | some v => if v < 2 ^ 32 then some v else none | none => none

theorem State.descCount_eq (s : State) (root : W64) (w : List W64) : s.descCount root w = s.taskCount root w := by
  unfold State.descCount State.taskCount
  simp (disch := omega) only [descField_eq, bits_all]
  by_cases h0 : w.getD 3 0 = 0
  · rw [if_pos h0, h0]; rfl
  · have hne : (w.getD 3 0).toNat ≠ 0 := fun h => h0 (BitVec.eq_of_toNat_eq h)
    rw [if_neg h0, if_neg hne]
    split
    · rfl
    · cases s.fwRead root (w.getD 3 0).toNat 8 with
      | none => rfl
      | some v =>
        have hdiv : v / 2 ^ 32 = 0 ↔ v < 2 ^ 32 := by rw [Nat.div_eq_zero_iff]; simp
        simp only [hdiv]

/-- The first task of phase p in the bytes of a phase table. -/
def phaseFirst (v p : Nat) : Nat := v / 2 ^ (64 * p) % 2 ^ 32

/-- The number of tasks of phase p in the bytes of a phase table. -/
def phaseSize (v p : Nat) : Nat := v / 2 ^ (64 * p + 32) % 2 ^ 32

/-- The phases in the bytes of a phase table. -/
def phasesOf (n v : Nat) : List (Nat × Nat) := (List.range n).map fun p => (phaseFirst v p, phaseSize v p)

/-- Some phases, one after the other, hold tasks 0 to c - 1. -/
def PhasesCover (n v c : Nat) : Prop :=
  phaseFirst v 0 = 0 ∧ (∀ p, p + 1 < n → phaseFirst v (p + 1) = phaseFirst v p + phaseSize v p) ∧
  phaseFirst v (n - 1) + phaseSize v (n - 1) = c

/-- ERR 7, for some task count. -/
def State.PhasesBad (s : State) (root : W64) (w : List W64) (c : Nat) : Prop :=
  0 < descField w 8 15 8 ∧ ∀ v, s.fwRead root (descField w 9 63 0) (8 * descField w 8 15 8) = some v →
    ¬ PhasesCover (descField w 8 15 8) v c

theorem phasesCover_from (v c j k at_ : Nat) :
    phasesCover at_ ((List.range' j (k + 1)).map fun p => (phaseFirst v p, phaseSize v p)) c = true ↔
    phaseFirst v j = at_ ∧ (∀ p, j ≤ p → p < j + k → phaseFirst v (p + 1) = phaseFirst v p + phaseSize v p) ∧
    phaseFirst v (j + k) + phaseSize v (j + k) = c := by
  induction k generalizing j at_ with
  | zero =>
    show (phaseFirst v j == at_ && at_ + phaseSize v j == c) = true ↔ _
    rw [Bool.and_eq_true, beq_iff_eq, beq_iff_eq, Nat.add_zero]
    constructor
    · rintro ⟨rfl, h⟩
      exact ⟨rfl, fun p h1 h2 => absurd h2 (by omega), h⟩
    · rintro ⟨rfl, -, h⟩
      exact ⟨rfl, h⟩
  | succ k ih =>
    rw [List.range'_succ, List.map_cons, phasesCover, Bool.and_eq_true, beq_iff_eq, ih,
      show j + 1 + k = j + (k + 1) by omega]
    constructor
    · rintro ⟨rfl, hnext, hstep, hlast⟩
      refine ⟨rfl, fun p h1 h2 => ?_, hlast⟩
      rcases Nat.eq_or_lt_of_le h1 with rfl | h1
      · exact hnext
      · exact hstep p h1 (by omega)
    · rintro ⟨rfl, hstep, hlast⟩
      exact ⟨rfl, hstep j (Nat.le_refl j) (by omega), fun p h1 h2 => hstep p (by omega) (by omega), hlast⟩

theorem phasesCover_phasesOf {n : Nat} (hn : 0 < n) (v c : Nat) : phasesCover 0 (phasesOf n v) c = true ↔ PhasesCover n v c := by
  obtain ⟨k, rfl⟩ : ∃ k, n = k + 1 := ⟨n - 1, by omega⟩
  unfold phasesOf PhasesCover
  rw [List.range_eq_range', phasesCover_from]
  simp only [Nat.zero_le, true_implies, Nat.zero_add, Nat.add_sub_cancel, Nat.add_lt_add_iff_right]

/-- The phases of a descriptor whose table is good. -/
def State.PhasesAre (s : State) (root : W64) (w : List W64) (c : Nat) (ps : List (Nat × Nat)) : Prop :=
  (descField w 8 15 8 = 0 ∧ ps = [(0, c)]) ∨
  (0 < descField w 8 15 8 ∧ ∃ v, s.fwRead root (descField w 9 63 0) (8 * descField w 8 15 8) = some v ∧
    PhasesCover (descField w 8 15 8) v c ∧ ps = phasesOf (descField w 8 15 8) v)

theorem State.descPhases_none {s : State} {root : W64} {w : List W64} {c : Nat} (hn : descField w 8 15 8 = 0) :
    s.descPhases root w c = some [(0, c)] := by
  rw [descField_eq _ _ (by omega)] at hn
  unfold State.descPhases
  rw [if_pos hn]

theorem State.descPhases_table {s : State} {root : W64} {w : List W64} {c : Nat} (hn : 0 < descField w 8 15 8) :
    s.descPhases root w c = (s.fwRead root (descField w 9 63 0) (8 * descField w 8 15 8)).map
      (phasesOf (descField w 8 15 8)) := by
  rw [descField_eq w 9 (by omega), bits_all, descField_eq w 8 (by omega)] at *
  unfold State.descPhases
  rw [if_neg (by omega)]
  rfl

/-- What a descriptor's phases come to: the phases, or ERR 7. -/
theorem State.phases_or_bad (s : State) (root : W64) (w : List W64) (c : Nat) :
    (s.PhasesBad root w c ∧ ∀ ps, s.descPhases root w c = some ps → phasesCover 0 ps c = false) ∨
    (¬ s.PhasesBad root w c ∧ ∃ ps, s.descPhases root w c = some ps ∧ phasesCover 0 ps c = true ∧ s.PhasesAre root w c ps) := by
  rcases Nat.eq_zero_or_pos (descField w 8 15 8) with h0 | hpos
  · exact .inr ⟨fun h => absurd h.1 (by omega), _, State.descPhases_none h0, by simp [phasesCover], .inl ⟨h0, rfl⟩⟩
  · rw [State.descPhases_table hpos]
    cases hread : s.fwRead root (descField w 9 63 0) (8 * descField w 8 15 8) with
    | none =>
      refine .inl ⟨⟨hpos, fun v hv => ?_⟩, fun ps h => ?_⟩
      · rw [hread] at hv; exact absurd hv (by simp)
      · exact absurd h (by simp)
    | some v =>
      by_cases hc : PhasesCover (descField w 8 15 8) v c
      · refine .inr ⟨fun h => h.2 v hread hc, _, rfl, (phasesCover_phasesOf hpos v c).2 hc, .inr ⟨hpos, v, hread, hc, rfl⟩⟩
      · refine .inl ⟨⟨hpos, fun v' hv => ?_⟩, fun ps h => ?_⟩
        · rw [hread, Option.some.injEq] at hv
          rwa [← hv]
        · rw [Option.map_some, Option.some.injEq] at h
          rw [← h, ← Bool.not_eq_true, phasesCover_phasesOf hpos]
          exact hc

/-! ## The checks that need no die -/

/-- ERR 12 of a D2 descriptor for what D2 does not have. -/
def DescD2 (w : List W64) : Prop := descField w 5 33 32 = 2 ∧ (0 < descField w 8 47 32 ∨ descField w 5 50 50 = 1)

/-- ERR 6, for some task count. -/
def DescGroups (w : List W64) (c : Nat) : Prop := descField w 5 31 31 = 1 ∧ c % 4 ≠ 0

section
variable {s : State} {q : Nat} {w : List W64}

/-- The checks up to ERR 4 find nothing. -/
def State.DescPlain (s : State) (q : Nat) (w : List W64) : Prop :=
  ¬ DescReserved w ∧ ¬ DescBounds w ∧ ¬ DescLevel w (s.queue q).level.toNat s.service ∧ ¬ DescDies w

/-- The checks of a descriptor whose task count is known. -/
def State.checkTasks (s : State) (q : Nat) (w : List W64) (n : Nat) : Sum Nat (Nat × List (Nat × Nat)) :=
  if bitOf (w.getD 5 0) 31 && n % 4 != 0 then .inl 6
  else match s.descPhases (s.queue q).troot w n with
    | none => .inl 7
    | some ps =>
      if !(phasesCover 0 ps n) then .inl 7
      else if bits (w.getD 5 0) 33 32 = 2 && (decide (0 < bits (w.getD 8 0) 47 32) || bitOf (w.getD 5 0) 50) then .inl 12
      else .inr (n, ps)

theorem descLevel_iff (level : Nat) (service : BitVec 2) : (bits (w.getD 5 0) 33 32 ≠ level ||
    bits (w.getD 5 0) 33 32 == 3 || (bits (w.getD 5 0) 33 32 == 2 && service == 1)) = true ↔ DescLevel w level service := by
  unfold DescLevel
  simp (disch := omega) only [descField_eq, Bool.or_eq_true, Bool.and_eq_true, decide_eq_true_eq, beq_iff_eq, or_assoc, ne_eq]

theorem descDies_iff : (bits (w.getD 5 0) 49 47 < bits (w.getD 5 0) 46 44 ||
    (bits (w.getD 5 0) 33 32 == 2 && bits (w.getD 5 0) 49 47 != bits (w.getD 5 0) 46 44)) = true ↔ DescDies w := by
  unfold DescDies
  simp (disch := omega) only [descField_eq, Bool.or_eq_true, Bool.and_eq_true, decide_eq_true_eq, beq_iff_eq, bne_iff_ne,
    ne_comm (a := bits (w.getD 5 0) 46 44)]

theorem State.descCheck_reserved (h : DescReserved w) : s.descCheck q w = .inl 1 := by
  unfold State.descCheck
  dsimp only
  rw [if_pos ((descBad1_iff w).2 h)]

theorem State.descCheck_bounds (h1 : ¬ DescReserved w) (h : DescBounds w) : s.descCheck q w = .inl 2 := by
  unfold State.descCheck
  dsimp only
  rw [if_neg (mt (descBad1_iff w).1 h1), if_pos ((descBad2_iff w).2 h)]

theorem State.descCheck_level (h1 : ¬ DescReserved w) (h2 : ¬ DescBounds w)
    (h : DescLevel w (s.queue q).level.toNat s.service) : s.descCheck q w = .inl 3 := by
  unfold State.descCheck
  dsimp only
  rw [if_neg (mt (descBad1_iff w).1 h1), if_neg (mt (descBad2_iff w).1 h2), if_pos ((descLevel_iff _ _).2 h)]

theorem State.descCheck_dies (h1 : ¬ DescReserved w) (h2 : ¬ DescBounds w)
    (h3 : ¬ DescLevel w (s.queue q).level.toNat s.service) (h : DescDies w) : s.descCheck q w = .inl 4 := by
  unfold State.descCheck
  dsimp only
  rw [if_neg (mt (descBad1_iff w).1 h1), if_neg (mt (descBad2_iff w).1 h2), if_neg (mt (descLevel_iff _ _).1 h3),
    if_pos (descDies_iff.2 h)]

theorem State.descCheck_plain (h : s.DescPlain q w) :
    s.descCheck q w = (s.taskCount (s.queue q).troot w).elim (.inl 5) (s.checkTasks q w) := by
  obtain ⟨h1, h2, h3, h4⟩ := h
  unfold State.descCheck
  dsimp only
  rw [if_neg (mt (descBad1_iff w).1 h1), if_neg (mt (descBad2_iff w).1 h2), if_neg (mt (descLevel_iff _ _).1 h3),
    if_neg (mt descDies_iff.1 h4), State.descCount_eq]
  cases s.taskCount (s.queue q).troot w <;> rfl

theorem State.descCheck_count {c : Nat} (h : s.DescPlain q w) (hc : s.taskCount (s.queue q).troot w = some c) :
    s.descCheck q w = s.checkTasks q w c := by
  rw [State.descCheck_plain h, hc, Option.elim_some]

theorem State.descCheck_countless (h : s.DescPlain q w) (hc : s.taskCount (s.queue q).troot w = none) :
    s.descCheck q w = .inl 5 := by
  rw [State.descCheck_plain h, hc, Option.elim_none]

variable {c : Nat}

theorem descGroups_iff : (bitOf (w.getD 5 0) 31 && c % 4 != 0) = true ↔ DescGroups w c := by
  unfold DescGroups
  simp (disch := omega) only [descField_eq, Bool.and_eq_true, bne_iff_ne, bitOf_eq_bits, beq_iff_eq, ne_eq]

theorem descD2_iff : (bits (w.getD 5 0) 33 32 = 2 && (decide (0 < bits (w.getD 8 0) 47 32) || bitOf (w.getD 5 0) 50)) = true ↔
    DescD2 w := by
  unfold DescD2
  simp (disch := omega) only [descField_eq, Bool.and_eq_true, Bool.or_eq_true, bitOf_eq_bits, beq_iff_eq, decide_eq_true_eq]

theorem State.checkTasks_groups (h : DescGroups w c) : s.checkTasks q w c = .inl 6 := by
  unfold State.checkTasks
  rw [if_pos (descGroups_iff.2 h)]

theorem State.checkTasks_phases (h6 : ¬ DescGroups w c) (h : s.PhasesBad (s.queue q).troot w c) :
    s.checkTasks q w c = .inl 7 := by
  obtain ⟨-, hbad⟩ | ⟨hgood, -⟩ := s.phases_or_bad (s.queue q).troot w c
  · unfold State.checkTasks
    rw [if_neg (mt descGroups_iff.1 h6)]
    split
    · rfl
    · next ps hps => rw [hbad ps hps]; rfl
  · exact absurd h hgood

/-- Where the phases are good, a D2 descriptor is refused for what D2 does not have, and any other one is good. -/
theorem State.checkTasks_good (h6 : ¬ DescGroups w c) (h : ¬ s.PhasesBad (s.queue q).troot w c) :
    (DescD2 w → s.checkTasks q w c = .inl 12) ∧
    (¬ DescD2 w → ∃ ps, s.PhasesAre (s.queue q).troot w c ps ∧ s.checkTasks q w c = .inr (c, ps)) := by
  obtain ⟨hbad, -⟩ | ⟨-, ps, hps, hcover, hare⟩ := s.phases_or_bad (s.queue q).troot w c
  · exact absurd hbad h
  · unfold State.checkTasks
    rw [if_neg (mt descGroups_iff.1 h6), hps]
    dsimp only
    rw [hcover, if_neg (by decide)]
    exact ⟨fun hd => if_pos (descD2_iff.2 hd), fun hd => ⟨ps, hare, if_neg (mt descD2_iff.1 hd)⟩⟩

/-- Some slots are too few for a phase. -/
def State.PhaseTooBig (s : State) (root : W64) (w : List W64) (c have_ : Nat) : Prop :=
  (descField w 8 15 8 = 0 ∧ have_ < c) ∨ (0 < descField w 8 15 8 ∧ ∃ v p,
    s.fwRead root (descField w 9 63 0) (8 * descField w 8 15 8) = some v ∧ p < descField w 8 15 8 ∧ have_ < phaseSize v p)

theorem State.PhasesAre.tooBig_iff {root : W64} {ps : List (Nat × Nat)} (h : s.PhasesAre root w c ps) (m : Nat) :
    (ps.any fun p => decide (m < p.2)) = true ↔ s.PhaseTooBig root w c m := by
  unfold State.PhaseTooBig
  rcases h with ⟨h0, rfl⟩ | ⟨hpos, v, hread, -, rfl⟩
  · simp [h0]
  · have hn : descField w 8 15 8 ≠ 0 := by omega
    simp [hn, hpos, hread, phasesOf]

/-- The first phase of a launch begins at task 0. -/
theorem State.PhasesAre.head {root : W64} {ps : List (Nat × Nat)} (h : s.PhasesAre root w c ps) :
    (ps.headD (0, 0)).1 = 0 ∧ (descField w 8 15 8 = 0 → (ps.headD (0, 0)).2 = c) ∧
    ∀ v, 0 < descField w 8 15 8 → s.fwRead root (descField w 9 63 0) (8 * descField w 8 15 8) = some v →
      (ps.headD (0, 0)).2 = phaseSize v 0 := by
  rcases h with ⟨h0, rfl⟩ | ⟨hpos, v, hread, hcover, rfl⟩
  · exact ⟨rfl, fun _ => rfl, fun _ hpos => absurd hpos (by omega)⟩
  · obtain ⟨k, hk⟩ : ∃ k, descField w 8 15 8 = k + 1 := ⟨descField w 8 15 8 - 1, by omega⟩
    have hhead : (phasesOf (descField w 8 15 8) v).headD (0, 0) = (phaseFirst v 0, phaseSize v 0) := by
      rw [hk, phasesOf, List.range_succ_eq_map]; rfl
    rw [hhead]
    refine ⟨hcover.1, fun h0 => absurd h0 (by omega), fun v' _ hv => ?_⟩
    rw [hread, Option.some.injEq] at hv
    rw [hv]

end

end Sys2Proof.Machine
end

section
/-! The lease table of a descriptor (R84), and the admission of a launch that it leads to (R36, R37, R85). -/

namespace Sys2Proof.Machine

/-! ## The lease table -/

/-- Bits [hi:lo] of entry k of a lease table. -/
def leaseField (v k hi lo : Nat) : Nat := v / 2 ^ (128 * k + lo) % 2 ^ (hi + 1 - lo)

/-- A lease table at fault: ERR 10 of a launch of level det. -/
def State.LeasesBad (s : State) (root : W64) (w : List W64) (det : Nat) : Prop :=
  descField w 7 63 0 % 16 ≠ 0 ∨ (0 < descField w 8 4 0 ∧ ∀ v, s.fwRead root (descField w 7 63 0) (16 * descField w 8 4 0) = some v →
    ∃ k, k < descField w 8 4 0 ∧ (leaseField v k 15 0 ≠ 0 ∨ canonical (leaseField v k 63 0) = false ∨ leaseField v k 127 99 ≠ 0 ∨
      leaseField v k 95 64 = 0 ∨ (leaseField v k 98 98 = 1 ∧ det = 2)))

theorem bits_w64_wide (x : Nat) {hi lo : Nat} (hlo : lo ≤ hi) (hhi : hi < 64) :
    bits (w64 x) hi lo = x / 2 ^ lo % 2 ^ (hi + 1 - lo) := by
  unfold bits w64
  rw [BitVec.toNat_ofNat, show 2 ^ 64 = 2 ^ lo * 2 ^ (64 - lo) by rw [← Nat.pow_add]; congr 1; omega,
    Nat.mod_mul_right_div_self, Nat.mod_mod_of_dvd _ (Nat.pow_dvd_pow 2 (by omega))]

theorem leaseField_base (v k : Nat) {hi lo : Nat} (hlo : lo ≤ hi) (hhi : hi < 64) :
    bits (w64 (v / 2 ^ (128 * k))) hi lo = leaseField v k hi lo := by
  rw [bits_w64_wide _ hlo hhi, Nat.div_div_eq_div_mul, ← Nat.pow_add]
  rfl

theorem leaseField_pages (v k : Nat) {hi lo : Nat} (hlo : lo ≤ hi) (hhi : hi < 64) :
    bits (w64 (v / 2 ^ (128 * k + 64))) hi lo = leaseField v k (64 + hi) (64 + lo) := by
  rw [bits_w64_wide _ hlo hhi, Nat.div_div_eq_div_mul, ← Nat.pow_add, Nat.add_assoc, leaseField,
    show 64 + hi + 1 - (64 + lo) = hi + 1 - lo by omega]

theorem State.descLeases_eq_none_iff (s : State) (root : W64) (w : List W64) (det : Nat) :
    s.descLeases root w det = none ↔ s.LeasesBad root w det := by
  unfold State.descLeases State.LeasesBad
  simp (disch := omega) only [descField_eq, bits_all]
  generalize (w.getD 7 0).toNat = a, bits (w.getD 8 0) 4 0 = m
  by_cases halign : a % 16 = 0
  case neg => simp [halign]
  rcases Nat.eq_zero_or_pos m with rfl | hpos
  · simp [halign]
  rw [if_neg (by simpa using halign), if_neg (by omega)]
  cases hread : s.fwRead root a (16 * m) with
  | none => simp [halign, hpos]
  | some v =>
    have hentry : ∀ k, (bits (w64 (v / 2 ^ (128 * k))) 15 0 != 0 || !(canonical (w64 (v / 2 ^ (128 * k))).toNat) ||
        bits (w64 (v / 2 ^ (128 * k + 64))) 63 35 != 0 || bits (w64 (v / 2 ^ (128 * k + 64))) 31 0 == 0 ||
        (bitOf (w64 (v / 2 ^ (128 * k + 64))) 34 && det == 2)) = true ↔
        (leaseField v k 15 0 ≠ 0 ∨ canonical (leaseField v k 63 0) = false ∨ leaseField v k 127 99 ≠ 0 ∨
          leaseField v k 95 64 = 0 ∨ (leaseField v k 98 98 = 1 ∧ det = 2)) := fun k => by
      rw [← bits_all (w64 (v / 2 ^ (128 * k))), bitOf_eq_bits, leaseField_base v k (by omega) (by omega),
        leaseField_base v k (by omega) (by omega), leaseField_pages v k (by omega) (by omega),
        leaseField_pages v k (by omega) (by omega), leaseField_pages v k (by omega) (by omega)]
      simp only [Bool.or_eq_true, bne_iff_ne, Bool.not_eq_true', beq_iff_eq, Bool.and_eq_true, or_assoc]
    dsimp only
    simp only [List.any_map, List.any_eq_true, List.mem_range, Function.comp, hentry, halign, hpos, Option.some.injEq,
      forall_eq', ne_eq, not_true, false_or, true_and]
    split
    · next h => simpa using h
    · next h => simpa using h

end Sys2Proof.Machine
end

section
/-! The admission of a launch and its end (R36, R37, R38, R85): what its entry in the launch table holds then. -/

namespace Sys2Proof.Machine

/-! ## A launch that is over (R37, R38) -/

/-- A launch is over in a state with an error code. -/
structure Closed (s t : State) (n st err : Nat) : Prop where
  stage : (t.launch n).stage = .over
  state : (t.launch n).state = BitVec.ofNat 8 st
  err : (t.launch n).err = BitVec.ofNat 8 err
  gstepEnd : (t.launch n).gstepEnd = s.gstep
  cores : t.cores = s.cores

theorem State.unpin_memoryOnly (s : State) (n : Nat) : MemoryOnly s (s.unpin n) := by
  unfold State.unpin
  induction (s.launch n).pinned.filter fun a => !(s.pinHeld n a) generalizing s with
  | nil => exact MemoryOnly.refl s
  | cons a as ih => exact (State.homeWrite_memoryOnly s _).trans (ih _)

theorem State.putStatus_memoryOnly (s : State) (n : Nat) : MemoryOnly s (s.putStatus n) := rfl

/-- A launch with its state and error code. -/
def Launch.inState (st err : Nat) (l : Launch) : Launch := { l with state := BitVec.ofNat 8 st, err := BitVec.ofNat 8 err }

theorem State.launch_setLaunchState (s : State) (n st err : Nat) :
    (s.setLaunchState n st err).launch n = (s.launch n).inState st err := by
  refine ((State.putStatus_memoryOnly (s.modLaunch n (Launch.inState st err)) n).keeps (·.launch n) rfl).trans ?_
  exact State.launch_modLaunch_same s n _

/-- A launch that is over, whose state is yet to be written. -/
def Launch.finished (g : W64) (armed : Nat) (l : Launch) : Launch :=
  { l with stage := .over, gstepEnd := g, armedLeft := armed, nextTask := 0, lastTask := 0, spillHead := [], spillTail := [],
           gangs := [] }

/-- A launch that holds no pin. -/
def Launch.unpinned (l : Launch) : Launch := { l with pinned := [] }

theorem State.closeLaunch_eq (s : State) (n st err : Nat) : ∃ ds k, s.closeLaunch n st err =
    ((((((({ s with dies := ds } : State).modLaunch n (Launch.finished s.gstep k)).unpin n).setLaunchState n st err).modLaunch n
      Launch.unpinned).syncQueue (s.launch n).queue).ring (s.launch n).queue 4) := ⟨_, _, rfl⟩

theorem State.closed_closeLaunch (s : State) (n st err : Nat) : Closed s (s.closeLaunch n st err) n st err := by
  obtain ⟨ds, k, h⟩ := s.closeLaunch_eq n st err
  let u1 := ({ s with dies := ds } : State).modLaunch n (Launch.finished s.gstep k)
  let u2 := (u1.unpin n).setLaunchState n st err
  let u3 := u2.modLaunch n Launch.unpinned
  have hfirm : FirmwareOnly u3 (s.closeLaunch n st err) := by
    rw [h]
    exact (State.syncQueue_firmwareOnly u3 _).trans (State.ring_firmwareOnly _ _ 4)
  have hfinished : u1.launch n = (s.launch n).finished s.gstep k := State.launch_modLaunch_same ({ s with dies := ds } : State) n _
  have hlaunch : (s.closeLaunch n st err).launch n = (((s.launch n).finished s.gstep k).inState st err).unpinned :=
    calc (s.closeLaunch n st err).launch n
      _ = u3.launch n := hfirm.keeps (·.launch n) rfl
      _ = (u2.launch n).unpinned := State.launch_modLaunch_same u2 n _
      _ = (((u1.unpin n).launch n).inState st err).unpinned := by rw [State.launch_setLaunchState]
      _ = _ := by rw [(u1.unpin_memoryOnly n).keeps (·.launch n) rfl, hfinished]
  have hcores : (s.closeLaunch n st err).cores = s.cores :=
    calc (s.closeLaunch n st err).cores
      _ = u3.cores := hfirm.keeps State.cores rfl
      _ = ((u1.unpin n).modLaunch n (Launch.inState st err)).cores :=
        (State.putStatus_memoryOnly ((u1.unpin n).modLaunch n (Launch.inState st err)) n).keeps State.cores rfl
      _ = u1.cores := (u1.unpin_memoryOnly n).keeps State.cores rfl
  refine ⟨?_, ?_, ?_, ?_, hcores⟩
  all_goals rw [hlaunch]; rfl

/-! ## A launch that is admitted (R37, R85) -/

theorem getLsbD_maskOfDies (ds : List Nat) {e : Nat} (he : e < 8) : (maskOfDies ds).getLsbD e = true ↔ e ∈ ds := by
  have hfold : ∀ m : BitVec 8, (ds.foldl (fun m d => m ||| (1#8 <<< d)) m).getLsbD e = true ↔ m.getLsbD e = true ∨ e ∈ ds := by
    induction ds with
    | nil => simp
    | cons d ds ih =>
      intro m
      have hbit : (1#8 <<< d).getLsbD e = true ↔ e = d := by
        simp only [BitVec.getLsbD_shiftLeft, BitVec.getLsbD_one, Bool.and_eq_true, decide_eq_true_eq, Bool.not_eq_true',
          decide_eq_false_iff_not]
        omega
      rw [List.foldl_cons, ih, BitVec.getLsbD_or, Bool.or_eq_true, hbit, List.mem_cons, or_assoc]
  unfold maskOfDies
  rw [hfold]
  simp

theorem State.deferTests_clusters (s : State) (d : Nat) : ∃ cs, s.deferTests d = { s with clusters := cs } := by
  unfold State.deferTests
  induction List.range 24 generalizing s with
  | nil => exact ⟨_, rfl⟩
  | cons k ks ih =>
    rw [List.foldl_cons]
    split
    · obtain ⟨cs, h⟩ := ih (s.modCluster (24 * d + k) fun c => { c with test := .none, testDue := true })
      exact ⟨cs, h⟩
    · exact ih s

/-- A die that is taken changes the dies and the clusters. -/
theorem State.ownDie_eq (s : State) (d q : Nat) : ∃ cs ds, s.ownDie d q = { s with clusters := cs, dies := ds } := by
  unfold State.ownDie
  split
  · exact ⟨_, _, rfl⟩
  · obtain ⟨cs, h⟩ := (s.deferTests d).rebaseDie_clusters d
    obtain ⟨cs', h'⟩ := s.deferTests_clusters d
    rw [h, h']
    exact ⟨_, _, rfl⟩

theorem State.ownDies_eq (s : State) (q : Nat) (es : List Nat) :
    ∃ cs ds, es.foldl (fun s d => s.ownDie d q) s = { s with clusters := cs, dies := ds } := by
  induction es generalizing s with
  | nil => exact ⟨_, _, rfl⟩
  | cons e es ih =>
    obtain ⟨cs, ds, h⟩ := s.ownDie_eq e q
    obtain ⟨cs', ds', h'⟩ := ih (s.ownDie e q)
    rw [List.foldl_cons, h', h]
    exact ⟨_, _, rfl⟩

theorem State.pinAll_memoryOnly (s : State) (ts : List TlbEntry) :
    MemoryOnly s (ts.foldl (fun s t => s.homeWrite [(t.pteAt, s.mem.get t.pteAt ||| 0x40)]) s) := by
  induction ts generalizing s with
  | nil => exact MemoryOnly.refl s
  | cons t ts ih => exact (State.homeWrite_memoryOnly s _).trans (ih _)

/-- A launch admitted on some dies. -/
structure Opened (s t : State) (n : Nat) (ds : List Nat) (ls : List Lease) : Prop where
  stage : (t.launch n).stage = .admitted
  state : (t.launch n).state = 1
  err : (t.launch n).err = 0
  count : (t.launch n).count = (s.launch n).count
  prog : (t.launch n).prog = (s.launch n).prog
  args : (t.launch n).args = (s.launch n).args
  leases : (t.launch n).leases = ls
  gstepStart : (t.launch n).gstepStart = s.gstep
  nextTask : (t.launch n).nextTask = ((s.launch n).phases.headD (0, 0)).1
  lastTask : (t.launch n).lastTask = ((s.launch n).phases.headD (0, 0)).1 + ((s.launch n).phases.headD (0, 0)).2
  mask : (t.launch n).mask = maskOfDies ds

/-- The entry of a launch that is admitted, before its state is written. -/
def Launch.opened (order : Nat) (g : W64) (ds : List Nat) (ls : List Lease) (ts : List TlbEntry) (ph : Nat × Nat) (l : Launch) :
    Launch :=
  { l with
    stage := .admitted, order := order, leases := ls, trans := ts
    pinned := (ts.map fun t => t.pteAt).eraseDups, mask := maskOfDies ds, home := ds.headD 0, gstepStart := g
    phase := 0, nextTask := ph.1, lastTask := ph.1 + ph.2, phaseStart := (l.nextNum, 0, 0) }

theorem State.opened_openLaunch (s : State) (n : Nat) (ds : List Nat) (ls : List Lease) (ts : List TlbEntry) :
    Opened s (s.openLaunch n ds ls ts) n ds ls := by
  let s1 := ts.foldl (fun s t => s.homeWrite [(t.pteAt, s.mem.get t.pteAt ||| 0x40)]) s
  let s2 := if (s.launch n).det = 2 then ds.foldl (fun u d => u.ownDie d (s.launch n).queue) s1 else s1
  let s3 : State := { s2 with nextOrder := s2.nextOrder + 1 }
  let f := Launch.opened s2.nextOrder s.gstep ds ls ts ((s.launch n).phases.headD (0, 0))
  have hopen : s.openLaunch n ds ls ts = (s3.modLaunch n f).setLaunchState n 1 0 := rfl
  have howned : s2.launch n = s.launch n := by
    have hpins : s1.launch n = s.launch n := (s.pinAll_memoryOnly ts).keeps (·.launch n) rfl
    show (if (s.launch n).det = 2 then ds.foldl (fun u d => u.ownDie d (s.launch n).queue) s1 else s1).launch n = _
    split
    · obtain ⟨cs, es, h⟩ := s1.ownDies_eq (s.launch n).queue ds
      rw [h]
      exact hpins
    · exact hpins
  have hlaunch : (s.openLaunch n ds ls ts).launch n = (f (s.launch n)).inState 1 0 :=
    calc (s.openLaunch n ds ls ts).launch n
      _ = ((s3.modLaunch n f).launch n).inState 1 0 := by rw [hopen, State.launch_setLaunchState]
      _ = (f (s3.launch n)).inState 1 0 := by rw [State.launch_modLaunch_same]
      _ = (f (s.launch n)).inState 1 0 := by rw [show s3.launch n = s.launch n from howned]
  refine ⟨?_, ?_, ?_, ?_, ?_, ?_, ?_, ?_, ?_, ?_, ?_⟩
  all_goals rw [hlaunch]; rfl

end Sys2Proof.Machine
end

section
/-! The outcomes of the admission of a queued launch (R36, R84, R390, R428): a rejection with its code, a wait, or the launch
on its dies. -/

namespace Sys2Proof.Machine

/-- The state with a launch as its descriptor says. -/
def State.described (s : State) (n : Nat) (w : List W64) : State := s.modLaunch n (·.ofDesc w)

/-- A launch with its task count and its phases. -/
def Launch.counted (c : Nat) (ps : List (Nat × Nat)) (l : Launch) : Launch := { l with count := c, nextNum := c, phases := ps }

/-- The state with a launch whose descriptor is good. -/
def State.counted (s : State) (n : Nat) (w : List W64) (c : Nat) (ps : List (Nat × Nat)) : State :=
  (s.described n w).modLaunch n (Launch.counted c ps)

/-- The dies that a launch takes. -/
def State.diesOf (s : State) (q : Nat) (w : List W64) : List Nat :=
  (s.diesFor q (descField w 5 33 32)).take (descField w 5 46 44 + 1)

/-- The rest of a launch's admission, with its dies known. -/
def State.openLeased (s : State) (n : Nat) (w : List W64) (c : Nat) (ps : List (Nat × Nat)) : Option State :=
  match s.descLeases (s.rootOf n) w (descField w 5 33 32) with
  | none => some ((s.counted n w c ps).closeLaunch n 4 10)
  | some ls =>
    if s.service = 1 ∧ ls.any (s.leaseService (s.rootOf n)) = true then some ((s.counted n w c ps).closeLaunch n 4 11)
    else (s.residentPages (s.rootOf n) ls []).map fun ts =>
      (s.counted n w c ps).openLaunch n (s.diesOf (s.launch n).queue w) ls ts

/-- The rest of a launch's admission, with its descriptor good. -/
def State.openOn (s : State) (n : Nat) (w : List W64) (c : Nat) (ps : List (Nat × Nat)) : Option State :=
  if s.service = 1 ∧ 0 < descField w 5 46 44 then some ((s.counted n w c ps).closeLaunch n 4 11)
  else if (s.diesOf (s.launch n).queue w).length < descField w 5 46 44 + 1 then none
  else if descField w 5 33 32 = 2 ∧ (ps.any fun p =>
      decide (s.slotCount (s.launch n).queue (s.diesOf (s.launch n).queue w) < p.2)) = true then
    some ((s.counted n w c ps).closeLaunch n 4 12)
  else s.openLeased n w c ps

section
variable {s : State} {n c : Nat} {w : List W64} {ps : List (Nat × Nat)}

theorem Launch.det_ofDesc (l : Launch) (w : List W64) : (l.ofDesc w).det.toNat = descField w 5 33 32 := by
  rw [descField_eq _ _ (by omega)]
  show (BitVec.ofNat 2 (bits (w.getD 5 0) 33 32)).toNat = _
  rw [BitVec.toNat_ofNat]
  exact Nat.mod_eq_of_lt (Nat.mod_lt _ (by decide))

theorem Launch.det_ofDesc_eq_two (l : Launch) (w : List W64) : (l.ofDesc w).det = 2 ↔ descField w 5 33 32 = 2 := by
  rw [← Launch.det_ofDesc l w, ← BitVec.toNat_inj]
  rfl

theorem Launch.mindie_ofDesc (l : Launch) (w : List W64) : (l.ofDesc w).mindie = descField w 5 46 44 :=
  (descField_eq w 5 (by omega)).symm

theorem State.launch_described (s : State) (n : Nat) (w : List W64) : (s.described n w).launch n = (s.launch n).ofDesc w :=
  State.launch_modLaunch_same s n _

theorem State.launch_counted (s : State) (n : Nat) (w : List W64) (c : Nat) (ps : List (Nat × Nat)) :
    (s.counted n w c ps).launch n = ((s.launch n).ofDesc w).counted c ps := by
  refine (State.launch_modLaunch_same (s.described n w) n (Launch.counted c ps)).trans ?_
  rw [State.launch_described]

variable (hw : s.descWords (s.rootOf n) (s.launch n).desc = some w)
include hw

theorem State.admitLaunch_refused {e : Nat} (h : s.descCheck (s.launch n).queue w = .inl e) :
    s.admitLaunch n = some ((s.described n w).closeLaunch n 4 e) := by
  unfold State.rootOf at hw
  unfold State.admitLaunch
  dsimp only
  rw [hw]
  dsimp only
  rw [h]
  rfl

theorem State.admitLaunch_checked (h : s.descCheck (s.launch n).queue w = .inr (c, ps)) :
    s.admitLaunch n = s.openOn n w c ps := by
  unfold State.rootOf at hw
  unfold State.admitLaunch
  dsimp only
  rw [hw]
  dsimp only
  rw [h]
  dsimp only
  rw [show (s.modLaunch n fun x => x.ofDesc w).launch n = (s.launch n).ofDesc w from s.launch_described n w]
  simp only [Launch.mindie_ofDesc, Launch.det_ofDesc, Launch.det_ofDesc_eq_two, Bool.and_eq_true, decide_eq_true_eq]
  rfl

end

section
variable {s : State} {n c : Nat} {w : List W64} {ps : List (Nat × Nat)}

theorem State.openOn_reduced (h1 : s.service = 1) (h : 0 < descField w 5 46 44) :
    s.openOn n w c ps = some ((s.counted n w c ps).closeLaunch n 4 11) := if_pos ⟨h1, h⟩

variable (hserve : s.service = 2 ∨ descField w 5 46 44 = 0)
include hserve

theorem not_reduced : ¬ (s.service = 1 ∧ 0 < descField w 5 46 44) := by
  rintro ⟨h1, hpos⟩
  rcases hserve with h | h
  · rw [h1] at h; exact absurd h (by decide)
  · omega

theorem State.openOn_waits (h : (s.diesOf (s.launch n).queue w).length < descField w 5 46 44 + 1) :
    s.openOn n w c ps = none := by
  unfold State.openOn
  rw [if_neg (not_reduced hserve), if_pos h]

variable (hlen : (s.diesOf (s.launch n).queue w).length = descField w 5 46 44 + 1)
include hlen

theorem State.openOn_big (hps : s.PhasesAre (s.rootOf n) w c ps) (hdet : descField w 5 33 32 = 2)
    (h : s.PhaseTooBig (s.rootOf n) w c (s.slotCount (s.launch n).queue (s.diesOf (s.launch n).queue w))) :
    s.openOn n w c ps = some ((s.counted n w c ps).closeLaunch n 4 12) := by
  unfold State.openOn
  rw [if_neg (not_reduced hserve), if_neg (by omega), if_pos ⟨hdet, (hps.tooBig_iff _).2 h⟩]

variable (hps : s.PhasesAre (s.rootOf n) w c ps)
  (hfit : ¬ (descField w 5 33 32 = 2 ∧
    s.PhaseTooBig (s.rootOf n) w c (s.slotCount (s.launch n).queue (s.diesOf (s.launch n).queue w))))
include hps hfit

theorem State.openOn_fits : s.openOn n w c ps = s.openLeased n w c ps := by
  unfold State.openOn
  rw [if_neg (not_reduced hserve), if_neg (by omega), if_neg fun h => hfit ⟨h.1, (hps.tooBig_iff _).1 h.2⟩]

theorem State.openOn_leaseless (h : s.LeasesBad (s.rootOf n) w (descField w 5 33 32)) :
    s.openOn n w c ps = some ((s.counted n w c ps).closeLaunch n 4 10) := by
  rw [State.openOn_fits hserve hlen hps hfit, State.openLeased, (s.descLeases_eq_none_iff _ w _).2 h]

variable {ls : List Lease} (hls : s.descLeases (s.rootOf n) w (descField w 5 33 32) = some ls)
include hls

theorem State.openOn_far (h1 : s.service = 1) (h : ls.any (s.leaseService (s.rootOf n)) = true) :
    s.openOn n w c ps = some ((s.counted n w c ps).closeLaunch n 4 11) := by
  rw [State.openOn_fits hserve hlen hps hfit, State.openLeased, hls]
  exact if_pos ⟨h1, h⟩

theorem State.openOn_opens (h : s.service = 2 ∨ ls.any (s.leaseService (s.rootOf n)) = false) :
    s.openOn n w c ps = (s.residentPages (s.rootOf n) ls []).map fun ts =>
      (s.counted n w c ps).openLaunch n (s.diesOf (s.launch n).queue w) ls ts := by
  rw [State.openOn_fits hserve hlen hps hfit, State.openLeased, hls]
  refine if_neg fun hfar => ?_
  rcases h with h | h
  · rw [hfar.1] at h; exact absurd h (by decide)
  · rw [hfar.2] at h; exact absurd h (by decide)

end

end Sys2Proof.Machine
end

section
/-! Phases, ends and spill queues (R38, R43, R48), with one launch in the launch table. -/

namespace Sys2Proof.Machine

section
variable {s : State} {n : Nat} {l : Launch}

/-! ## The next phase, and the end -/

/-- A launch whose next phase has been admitted. -/
def Launch.nextPhase (l : Launch) : Launch :=
  { l with
    phase := l.phase + 1, nextTask := (l.phases.getD (l.phase + 1) (0, 0)).1
    lastTask := (l.phases.getD (l.phase + 1) (0, 0)).1 + (l.phases.getD (l.phase + 1) (0, 0)).2
    barrier := none, phaseStart := (l.nextNum, l.exited, l.faulted) }

theorem Launch.morePhases_iff : l.morePhases = true ↔ l.phase + 1 < l.phases.length := by simp [Launch.morePhases]

theorem State.launches_modLaunch_single (hls : s.launches = [(n, l)]) (f : Launch → Launch) :
    (s.modLaunch n f).launches = [(n, f l)] := by
  unfold State.modLaunch
  rw [State.launch_single hls, hls]
  simp [tset]

theorem phaseAdmission_does (hls : s.launches = [(n, l)]) (hstage : l.stage = .admitted) (hdet : l.det ≠ 2)
    (hmore : l.phase + 1 < l.phases.length) (hquiet : s.launchQuiet n = true) :
    ∃ t, Happens s (.phaseAdmission n) t ∧ t.launches = [(n, l.nextPhase)] ∧ t.mem = s.mem := by
  refine ⟨s.nextPhase n, ?_, State.launches_modLaunch_single hls Launch.nextPhase, rfl⟩
  show execPhaseAdmission n s = _
  unfold execPhaseAdmission
  dsimp only
  rw [State.launch_single hls, if_pos (by simp [hstage, hquiet, Launch.morePhases_iff.2 hmore]; exact hdet)]
  rfl

theorem phaseAdmission_idle (hls : s.launches = [(n, l)])
    (h : ¬ l.phase + 1 < l.phases.length ∨ s.launchQuiet n = false) : Idle s (.phaseAdmission n) := by
  show execPhaseAdmission n s = _
  unfold execPhaseAdmission
  dsimp only
  rw [State.launch_single hls, if_neg fun hc => ?_]
  · rfl
  · simp only [Bool.and_eq_true, Launch.morePhases_iff] at hc
    obtain ⟨⟨-, hmore⟩, hquiet⟩ := hc
    rcases h with h | h
    · exact h hmore
    · rw [hquiet] at h; exact absurd h (by decide)

theorem launchEnd_does (hls : s.launches = [(n, l)]) (hstage : l.stage = .admitted)
    (hmore : ¬ l.phase + 1 < l.phases.length) (hquiet : s.launchQuiet n = true) (hdet : l.det ≠ 2) :
    ∃ t, Happens s (.launchEnd n) t ∧ (t.launch n).stage = .over ∧
      (t.launch n).state = (if l.faulted = 0 then 2 else 3) ∧ (t.launch n).gstepEnd = s.gstep := by
  have h := s.closed_closeLaunch n (if l.faulted = 0 then 2 else 3) 0
  refine ⟨_, ?_, h.stage, h.state.trans ?_, h.gstepEnd⟩
  · show execLaunchEnd n s = _
    unfold execLaunchEnd State.endLaunch
    dsimp only
    rw [State.launch_single hls, if_neg ?_]
    · rfl
    · have htwo : ¬ (l.det = 2 ∧ 0 < l.count ∧ l.doneAt.isNone = true) := fun hc => hdet hc.1
      rw [decide_eq_false htwo]
      simp [hstage, hquiet, Launch.morePhases, hmore]
  · split <;> rfl

theorem launchEnd_idle (hls : s.launches = [(n, l)])
    (h : l.stage ≠ .admitted ∨ l.phase + 1 < l.phases.length ∨ s.launchQuiet n = false) : Idle s (.launchEnd n) := by
  show execLaunchEnd n s = _
  unfold execLaunchEnd State.endLaunch
  dsimp only
  rw [State.launch_single hls, if_pos ?_]
  · rfl
  · simp only [Bool.or_eq_true, decide_eq_true_eq, Launch.morePhases_iff, Bool.not_eq_true']
    tauto

/-! ## Spill queues (R48) -/

variable {d q : Nat} {u : Queue}

/-- The child in the bytes of an entry of a spill queue. -/
def spilledChild (n v : Nat) : Child :=
  let w := w64 (v / 2 ^ 128)
  { launch := n, num := BitVec.ofNat 32 (bits w 31 0), prog := w64 v, arg := w64 (v / 2 ^ 64), role := roleOf (bits w 41 40),
    gang := if bitOf w 48 then some (BitVec.ofNat 6 (bits w 47 42)) else none }

/-- A child enters the pool of a die. -/
def Die.pooled (c : Child) (x : Die) : Die := { x with pool := x.pool ++ [c] }

/-- The head of a die's spill queue of a launch has left it. -/
def Launch.refilled (d h : Nat) (l : Launch) : Launch := { l with spillHead := tset l.spillHead d (h + 1) }

theorem bitOf_w64_wide (x : Nat) {n : Nat} (hn : n < 64) : bitOf (w64 x) n = true ↔ x / 2 ^ n % 2 = 1 := by
  rw [bitOf_eq_bits, bits_w64_wide x (Nat.le_refl n) hn, beq_iff_eq, show n + 1 - n = 1 by omega, Nat.pow_one]

theorem ofNat_bits_w64 (k : Nat) (x : Nat) {hi lo : Nat} (hlo : lo ≤ hi) (hhi : hi < 64) (hk : k = hi + 1 - lo) :
    BitVec.ofNat k (bits (w64 x) hi lo) = BitVec.ofNat k (x / 2 ^ lo) := by
  subst hk
  rw [bits_w64_wide x hlo hhi, ofNat_mod_two_pow]

theorem num_spilledChild (n v : Nat) : (spilledChild n v).num = BitVec.ofNat 32 (v / 2 ^ 128) := by
  refine (ofNat_bits_w64 32 _ (by omega) (by omega) rfl).trans ?_
  rw [Nat.pow_zero, Nat.div_one]

theorem gang_spilledChild (n v : Nat) : (spilledChild n v).gang =
    if v / 2 ^ 176 % 2 = 1 then some (BitVec.ofNat 6 (v / 2 ^ 170)) else none := by
  have hbit : v / 2 ^ 128 / 2 ^ 48 = v / 2 ^ 176 := by rw [Nat.div_div_eq_div_mul, ← Nat.pow_add]
  have hgang : v / 2 ^ 128 / 2 ^ 42 = v / 2 ^ 170 := by rw [Nat.div_div_eq_div_mul, ← Nat.pow_add]
  show (if bitOf (w64 (v / 2 ^ 128)) 48 = true then _ else _) = _
  simp only [bitOf_w64_wide _ (show 48 < 64 by decide), ofNat_bits_w64 6 _ (show 42 ≤ 47 by decide) (by decide) rfl, hbit, hgang]

variable (hls : s.launches = [(n, l)]) (hqs : s.queues = [(q, u)]) (hlq : l.queue = q)
include hls hqs hlq

theorem State.admits_single : s.admits n = true ↔ u.stopped = false ∧ u.resetting = false := by
  rw [State.admits_iff, State.launch_single hls, hlq, State.queue_single hqs]

theorem State.refill_moves (hstage : l.stage = .admitted) (hstop : u.stopped = false) (hreset : u.resetting = false)
    (hheld : 0 < l.spilled d) (hroom : (s.die d).pool.length < 1024) {v : Nat}
    (hread : s.fwRead u.troot (l.spillAt d (tget 0 l.spillHead d)) 64 = some v) :
    s.refill d = some ((s.modDie d (Die.pooled (spilledChild n v))).modLaunch n
      (Launch.refilled d (tget 0 l.spillHead d))) := by
  have hadmits : s.admits n = true := (State.admits_single hls hqs hlq).2 ⟨hstop, hreset⟩
  unfold State.refill
  rw [if_neg (by simpa [Config.pendingPool] using hroom), hls]
  simp only [List.find?_cons, hstage, hadmits, hheld, Option.map_some, beq_self_eq_true, decide_true, Bool.and_self,
    hlq, State.queue_single hqs, hread, Option.getD_some]
  rfl

theorem State.refill_none (h : 1024 ≤ (s.die d).pool.length ∨ l.spilled d = 0 ∨ u.stopped = true ∨ u.resetting = true) :
    s.refill d = none := by
  unfold State.refill
  split
  · rfl
  · next hroom =>
    have hout : ¬ (s.admits n = true ∧ 0 < l.spilled d) := by
      rw [State.admits_single hls hqs hlq]
      rintro ⟨⟨hstop, hreset⟩, hheld⟩
      rcases h with h | h | h | h
      · exact hroom h
      · omega
      · rw [hstop] at h; exact absurd h (by decide)
      · rw [hreset] at h; exact absurd h (by decide)
    rw [hls, List.find?_eq_none.2 fun e he => ?_]
    · rfl
    · rw [List.mem_singleton.1 he]
      simp only [Bool.and_eq_true, decide_eq_true_eq]
      exact fun hc => hout ⟨hc.1.2, hc.2⟩

theorem spillRefill_moves (hstage : l.stage = .admitted) (hstop : u.stopped = false) (hreset : u.resetting = false)
    (hheld : 0 < l.spilled d) (hroom : (s.die d).pool.length < 1024) {v : Nat}
    (hread : s.fwRead u.troot (l.spillAt d (tget 0 l.spillHead d)) 64 = some v) :
    ∃ t c, Happens s (.spillRefill d) t ∧ (t.die d).pool = (s.die d).pool ++ [c] ∧ c.launch = n ∧
      c.prog = BitVec.ofNat 64 v ∧ c.arg = BitVec.ofNat 64 (v / 2 ^ 64) ∧ c.num = BitVec.ofNat 32 (v / 2 ^ 128) ∧
      c.gang = (if v / 2 ^ 176 % 2 = 1 then some (BitVec.ofNat 6 (v / 2 ^ 170)) else none) ∧
      tget 0 (t.launch n).spillHead d = tget 0 l.spillHead d + 1 := by
  have hmoves := State.refill_moves hls hqs hlq hstage hstop hreset hheld hroom hread
  refine ⟨(s.modDie d (Die.pooled (spilledChild n v))).modLaunch n (Launch.refilled d (tget 0 l.spillHead d)), spilledChild n v,
    ?_, ?_, rfl, rfl, rfl, num_spilledChild n v, gang_spilledChild n v, ?_⟩
  · show execSpillRefill d s = _
    unfold execSpillRefill
    rw [hmoves]; rfl
  · exact (congrArg Die.pool (State.die_modDie_same s d _)).trans rfl
  · rw [State.launch_modLaunch_same]
    show tget 0 (tset _ d _) d = _
    rw [tget_tset_same]

theorem spillRefill_idle (h : 1024 ≤ (s.die d).pool.length ∨ l.spilled d = 0 ∨ u.stopped = true ∨ u.resetting = true) :
    Idle s (.spillRefill d) := by
  show execSpillRefill d s = _
  unfold execSpillRefill
  rw [State.refill_none hls hqs hlq h]; rfl

end

end Sys2Proof.Machine
end

section
/-! Level switches and ticks of the cadence (R378, R394, R395, R404): what becomes of the dies, their clusters and the queue. -/

namespace Sys2Proof.Machine

/-! ## A die that a D2 context takes (R394, R404) -/

/-- What a cluster says of in-field tests. -/
def Cluster.mark (c : Cluster) : TestState × Bool := (c.test, c.testDue)

/-- A cluster whose emptying for a test is put off. -/
def Cluster.deferred (c : Cluster) : Cluster := if c.test == .emptying then { c with test := .none, testDue := true } else c

theorem Cluster.deferred_deferred (c : Cluster) : c.deferred.deferred = c.deferred := by
  by_cases h : c.test = .emptying <;> simp [Cluster.deferred, h]

/-- The state with the emptying of one cluster put off. -/
def State.deferTest (s : State) (j : Nat) : State :=
  if (s.cluster j).test == .emptying then s.modCluster j fun c => { c with test := .none, testDue := true } else s

theorem State.cluster_deferTest (s : State) (j i : Nat) :
    (s.deferTest j).cluster i = if i = j then (s.cluster j).deferred else s.cluster i := by
  unfold State.deferTest Cluster.deferred
  split
  · exact State.cluster_modCluster s j i _
  · split
    · next h => rw [h]
    · rfl

theorem State.cluster_deferAll (ks : List Nat) (s : State) (d i : Nat) :
    (ks.foldl (fun s k => s.deferTest (24 * d + k)) s).cluster i =
      if ∃ k, k ∈ ks ∧ i = 24 * d + k then (s.cluster i).deferred else s.cluster i := by
  induction ks generalizing s with
  | nil => simp
  | cons k ks ih =>
    rw [List.foldl_cons, ih, State.cluster_deferTest]
    by_cases hk : i = 24 * d + k
    · subst hk
      simp [Cluster.deferred_deferred]
    · simp [hk]

theorem State.cluster_deferTests (s : State) (d i : Nat) :
    (s.deferTests d).cluster i = if i / 24 = d then (s.cluster i).deferred else s.cluster i := by
  refine (State.cluster_deferAll (List.range 24) s d i).trans (if_congr ?_ rfl rfl)
  simp only [List.mem_range]
  constructor
  · rintro ⟨k, hk, rfl⟩; omega
  · rintro rfl; exact ⟨i % 24, Nat.mod_lt _ (by decide), by omega⟩

theorem State.mark_rebase (s : State) (k i : Nat) : ((s.rebase k).cluster i).mark = (s.cluster i).mark := by
  unfold State.rebase
  rw [State.cluster_modCluster]
  split
  · next h => rw [h]; rfl
  · rfl

theorem State.mark_rebaseDie (s : State) (d i : Nat) : ((s.rebaseDie d).cluster i).mark = (s.cluster i).mark := by
  unfold State.rebaseDie
  induction List.range 24 generalizing s with
  | nil => rfl
  | cons k ks ih => exact (ih _).trans (s.mark_rebase _ i)

theorem State.cluster_modDie (s : State) (d : Nat) (f : Die → Die) (i : Nat) : (s.modDie d f).cluster i = s.cluster i := rfl

theorem State.mark_ownDie (s : State) (d q i : Nat) : ((s.ownDie d q).cluster i).mark =
    if (s.die d).d2 ≠ some q ∧ i / 24 = d then (s.cluster i).deferred.mark else (s.cluster i).mark := by
  unfold State.ownDie
  by_cases h : (s.die d).d2 = some q
  · simp [h]
  · rw [if_neg h, State.cluster_modDie, State.mark_rebaseDie, State.cluster_deferTests]
    by_cases hi : i / 24 = d <;> simp [h, hi]

theorem State.d2_ownDie (s : State) (d q e : Nat) :
    ((s.ownDie d q).die e).d2 = if e = d then some q else (s.die e).d2 := by
  unfold State.ownDie
  by_cases h : (s.die d).d2 = some q
  · rw [if_pos h]
    split
    · next he => rw [he, h]
    · rfl
  · rw [if_neg h, State.die_modDie]
    split
    · rfl
    · obtain ⟨cs, hr⟩ := (s.deferTests d).rebaseDie_clusters d
      obtain ⟨cs', hd⟩ := s.deferTests_clusters d
      rw [hr, hd]
      rfl

/-- The state with some dies taken by a D2 context. -/
def State.ownDies (s : State) (q : Nat) (es : List Nat) : State := es.foldl (fun s d => s.ownDie d q) s

theorem State.d2_ownDies (s : State) (q : Nat) (es : List Nat) (e : Nat) :
    ((s.ownDies q es).die e).d2 = if e ∈ es then some q else (s.die e).d2 := by
  induction es generalizing s with
  | nil => rfl
  | cons d es ih =>
    refine (ih (s.ownDie d q)).trans ?_
    rw [State.d2_ownDie]
    by_cases he : e ∈ es <;> by_cases hd : e = d <;> simp [he, hd]

/-- The clusters of a die that is taken have the emptying for a test put off, once. -/
theorem State.mark_ownDies (s : State) (q : Nat) (es : List Nat) (i : Nat) : ((s.ownDies q es).cluster i).mark =
    if (s.die (i / 24)).d2 ≠ some q ∧ i / 24 ∈ es then (s.cluster i).deferred.mark else (s.cluster i).mark := by
  induction es generalizing s with
  | nil => simp [State.ownDies]
  | cons d es ih =>
    have hstep := s.mark_ownDie d q i
    refine (ih (s.ownDie d q)).trans ?_
    rw [State.d2_ownDie]
    by_cases hd : i / 24 = d
    · rw [hstep]
      simp [hd]
    · have hsame : ((s.ownDie d q).cluster i).mark = (s.cluster i).mark := by rw [hstep]; simp [hd]
      have hdefer : ((s.ownDie d q).cluster i).deferred.mark = (s.cluster i).deferred.mark := by
        obtain ⟨htest, hdue⟩ := Prod.mk.inj hsame
        unfold Cluster.deferred Cluster.mark
        rw [htest]
        split
        · rfl
        · rw [htest, hdue]
      rw [hsame, hdefer]
      simp [hd]

/-! ## Dies that return to the elastic clock (R356, R394) -/

theorem State.release_clusters (s : State) (k : Nat) : ∃ cs, s.release k = { s with clusters := cs } := by
  unfold State.release
  split
  · exact ⟨_, rfl⟩
  · exact ⟨_, rfl⟩

theorem State.releaseDie_clusters (s : State) (d : Nat) :
    ∃ cs, (List.range 24).foldl (fun s k => s.release (24 * d + k)) s = { s with clusters := cs } := by
  induction List.range 24 generalizing s with
  | nil => exact ⟨_, rfl⟩
  | cons k ks ih =>
    obtain ⟨cs, h⟩ := s.release_clusters (24 * d + k)
    obtain ⟨cs', h'⟩ := ih (s.release (24 * d + k))
    exact ⟨cs', by rw [List.foldl_cons, h', h]⟩

/-- A die on the elastic clock, with no Drizzle window. -/
def Die.elastic (now : Nat) (x : Die) : Die := { x with d2 := none, drzWindow := false, drzAt := now }

theorem State.disownDie_eq (s : State) (d : Nat) :
    ∃ cs now, s.disownDie d = ({ s with clusters := cs } : State).modDie d (Die.elastic now) := by
  obtain ⟨cs, h⟩ := s.releaseDie_clusters d
  obtain ⟨cs', h'⟩ := (((List.range 24).foldl (fun s k => s.release (24 * d + k)) s)).rebaseDie_clusters d
  unfold State.disownDie
  rw [h', h]
  exact ⟨cs', s.refclk, rfl⟩

/-- The state with the dies of a context, among some, back on the elastic clock. -/
def State.disownAll (s : State) (q : Nat) (es : List Nat) : State :=
  es.foldl (fun s d => if (s.die d).d2 = some q then s.disownDie d else s) s

theorem State.disownAll_eq (s : State) (q : Nat) (es : List Nat) :
    ∃ cs ds, s.disownAll q es = { s with clusters := cs, dies := ds } := by
  unfold State.disownAll
  induction es generalizing s with
  | nil => exact ⟨_, _, rfl⟩
  | cons d es ih =>
    rw [List.foldl_cons]
    split
    · obtain ⟨cs, now, h⟩ := s.disownDie_eq d
      obtain ⟨cs', ds', h'⟩ := ih (s.disownDie d)
      rw [h', h]
      exact ⟨_, _, rfl⟩
    · exact ih s

/-- No die that does not belong to a context comes to belong to it. -/
theorem State.d2_disownDie_ne {s : State} {d q e : Nat} (h : (s.die e).d2 ≠ some q) :
    ((s.disownDie d).die e).d2 ≠ some q := by
  obtain ⟨cs, now, heq⟩ := s.disownDie_eq d
  rw [heq, State.die_modDie]
  split
  · exact fun hc => by cases hc
  · exact h

theorem State.d2_disownDie_same (s : State) (d : Nat) : ((s.disownDie d).die d).d2 = none := by
  obtain ⟨cs, now, heq⟩ := s.disownDie_eq d
  rw [heq, State.die_modDie_same]
  rfl

theorem State.d2_disownAll (s : State) (q : Nat) (es : List Nat) {e : Nat} (h : e ∈ es ∨ (s.die e).d2 ≠ some q) :
    ((s.disownAll q es).die e).d2 ≠ some q := by
  unfold State.disownAll
  induction es generalizing s with
  | nil => exact h.resolve_left List.not_mem_nil
  | cons d es ih =>
    rw [List.foldl_cons]
    by_cases hd : (s.die d).d2 = some q
    · rw [if_pos hd]
      by_cases hed : e = d
      · refine ih _ (.inr ?_)
        rw [hed, State.d2_disownDie_same]
        exact fun hc => by cases hc
      · exact ih _ (h.imp (fun hm => (List.mem_cons.1 hm).resolve_left hed) State.d2_disownDie_ne)
    · rw [if_neg hd]
      refine ih _ ?_
      rcases h with h | h
      · exact (List.mem_cons.1 h).elim (fun he => .inr (he ▸ hd)) .inl
      · exact .inr h

/-! ## The switch (R394) -/

section
variable {s : State} {q : Nat}

/-- A queue whose level has been switched. -/
def Queue.atLevel (lv : BitVec 2) (u : Queue) : Queue := { u with level := lv, switching := none }

/-- The state with the dies of a queue as a level asks for them. -/
def State.diesAtLevel (s : State) (q : Nat) (lv : BitVec 2) : State :=
  if lv = 2 then s.ownDies q (s.queue q).dieList else s.disownAll q (List.range 8)

theorem State.diesAtLevel_eq (s : State) (q : Nat) (lv : BitVec 2) :
    ∃ cs ds, s.diesAtLevel q lv = { s with clusters := cs, dies := ds } := by
  unfold State.diesAtLevel
  split
  · exact s.ownDies_eq q _
  · exact s.disownAll_eq q _

/-- A level takes effect on the queue and its dies. -/
def State.switchedTo (s : State) (q : Nat) (lv : BitVec 2) : State :=
  ((s.diesAtLevel q lv).modQueue q (Queue.atLevel lv)).consume q

theorem State.consume_firmwareOnly (s : State) (q : Nat) : FirmwareOnly s (s.consume q) :=
  (s.modQueue_firmwareOnly q _).trans (State.syncQueue_firmwareOnly _ q)

/-- The packet at HEAD is done with: HEAD moves on, and the status word follows (R414). -/
theorem State.queue_consume (s : State) (q : Nat) :
    ∃ v, (s.consume q).queue q = { s.queue q with head := (s.queue q).head + 1, statword := v } := by
  obtain ⟨v, hv⟩ := (s.modQueue q fun u => { u with head := u.head + 1 }).queue_syncQueue q q
  rw [State.queue_modQueue_same] at hv
  exact ⟨v, hv⟩

theorem State.queue_switchedTo (s : State) (q : Nat) (lv : BitVec 2) : ((s.switchedTo q lv).queue q).level = lv ∧
    ((s.switchedTo q lv).queue q).switching = none ∧ ((s.switchedTo q lv).queue q).head = (s.queue q).head + 1 := by
  obtain ⟨v, hv⟩ := ((s.diesAtLevel q lv).modQueue q (Queue.atLevel lv)).queue_consume q
  obtain ⟨cs, ds, h⟩ := s.diesAtLevel_eq q lv
  have hq : (s.diesAtLevel q lv).queue q = s.queue q := by rw [h]; rfl
  unfold State.switchedTo
  rw [hv, State.queue_modQueue_same, hq]
  exact ⟨rfl, rfl, rfl⟩

theorem State.dies_switchedTo (s : State) (q : Nat) (lv : BitVec 2) :
    (s.switchedTo q lv).dies = (s.diesAtLevel q lv).dies ∧ (s.switchedTo q lv).clusters = (s.diesAtLevel q lv).clusters :=
  have h := State.consume_firmwareOnly ((s.diesAtLevel q lv).modQueue q (Queue.atLevel lv)) q
  ⟨h.keeps State.dies rfl, h.keeps State.clusters rfl⟩

theorem State.mem_dieList {d : Nat} : d ∈ (s.queue q).dieList ↔ d < 8 ∧ (s.queue q).dies.getLsbD d = true := by
  simp [Queue.dieList]

theorem State.die_switchedTo (s : State) (q : Nat) (lv : BitVec 2) (d : Nat) :
    (s.switchedTo q lv).die d = (s.diesAtLevel q lv).die d :=
  congrArg (fun ds => tget Die.reset ds d) (s.dies_switchedTo q lv).1

theorem State.cluster_switchedTo (s : State) (q : Nat) (lv : BitVec 2) (i : Nat) :
    (s.switchedTo q lv).cluster i = (s.diesAtLevel q lv).cluster i :=
  congrArg (fun cs => tget Cluster.reset cs i) (s.dies_switchedTo q lv).2

theorem State.d2_switchedTo_taken {lv : BitVec 2} {d : Nat} (htwo : lv = 2) (hd : d < 8)
    (hmine : (s.queue q).dies.getLsbD d = true) : ((s.switchedTo q lv).die d).d2 = some q := by
  rw [State.die_switchedTo, State.diesAtLevel, if_pos htwo, State.d2_ownDies, if_pos (State.mem_dieList.2 ⟨hd, hmine⟩)]

theorem State.d2_switchedTo_left {lv : BitVec 2} {d : Nat} (hne : lv ≠ 2) (hd : d < 8) :
    ((s.switchedTo q lv).die d).d2 ≠ some q := by
  rw [State.die_switchedTo, State.diesAtLevel, if_neg hne]
  exact State.d2_disownAll s q _ (.inl (List.mem_range.2 hd))

theorem State.test_switchedTo {lv : BitVec 2} {d k : Nat} (htwo : lv = 2) (hd : d < 8)
    (hmine : (s.queue q).dies.getLsbD d = true) (hd2 : (s.die d).d2 ≠ some q) (hk : k < 24)
    (htest : (s.cluster (24 * d + k)).test = .emptying) : ((s.switchedTo q lv).cluster (24 * d + k)).test = .none ∧
      ((s.switchedTo q lv).cluster (24 * d + k)).testDue = true := by
  have hdiv : (24 * d + k) / 24 = d := by omega
  have h := s.mark_ownDies q (s.queue q).dieList (24 * d + k)
  rw [hdiv, if_pos ⟨hd2, State.mem_dieList.2 ⟨hd, hmine⟩⟩] at h
  have hput : (s.cluster (24 * d + k)).deferred.mark = (.none, true) := by
    simp [Cluster.deferred, Cluster.mark, htest]
  rw [hput] at h
  rw [State.cluster_switchedTo, State.diesAtLevel, if_pos htwo]
  exact Prod.mk.inj h

theorem State.queueQuiet_iff : s.queueQuiet q = true ↔ ∀ e, e ∈ s.launches → e.2.queue = q → e.2.stage = .over := by
  unfold State.queueQuiet
  simp only [List.all_eq_true, Bool.or_eq_true, bne_iff_ne, beq_iff_eq]
  exact forall_congr' fun e => forall_congr' fun _ => or_iff_not_imp_left.trans (by rw [not_not])

/-- A cluster under test keeps its die from a context that does not own it yet (R404). -/
theorem State.dieFree_testing {d k : Nat} (hd2 : (s.die d).d2 ≠ some q) (hk : k < 24)
    (htest : (s.cluster (24 * d + k)).test = .running) : s.dieFree d q = false := by
  have hallow : s.testsAllow d = false := by
    unfold State.testsAllow
    rw [List.all_eq_false]
    exact ⟨k, List.mem_range.2 hk, by simp [htest]⟩
  unfold State.dieFree
  simp [hd2, hallow]

variable {lv : BitVec 2}

theorem levelSwitch_none (h : (s.queue q).switching = none) : Idle s (.levelSwitch q) := by
  show execLevelSwitch q s = _
  unfold execLevelSwitch State.switchLevel
  dsimp only
  rw [h]
  rfl

variable (hlv : (s.queue q).switching = some lv)
include hlv

theorem levelSwitch_busy (h : ¬ s.queueQuiet q = true) : Idle s (.levelSwitch q) := by
  show execLevelSwitch q s = _
  unfold execLevelSwitch State.switchLevel
  dsimp only
  rw [hlv]
  dsimp only
  rw [if_pos (by simpa using h)]
  rfl

theorem levelSwitch_taken {d : Nat} (htwo : lv = 2) (hd : d < 8) (hmine : (s.queue q).dies.getLsbD d = true)
    (h : s.dieFree d q = false) : Idle s (.levelSwitch q) := by
  show execLevelSwitch q s = _
  unfold execLevelSwitch State.switchLevel
  dsimp only
  rw [hlv]
  dsimp only
  have hall : ((s.queue q).dieList.all fun d => s.dieFree d q) = false := by
    rw [List.all_eq_false]
    exact ⟨d, State.mem_dieList.2 ⟨hd, hmine⟩, by simp [h]⟩
  rw [hall, htwo]
  split <;> rfl

theorem levelSwitch_does (hquiet : s.queueQuiet q = true)
    (h : lv ≠ 2 ∨ ∀ d, d < 8 → (s.queue q).dies.getLsbD d = true → s.dieFree d q = true) :
    Happens s (.levelSwitch q) (s.switchedTo q lv) := by
  show execLevelSwitch q s = _
  unfold execLevelSwitch State.switchLevel
  dsimp only
  rw [hlv]
  dsimp only
  have hfree : ¬ (decide (lv = 2) && !((s.queue q).dieList.all fun d => s.dieFree d q)) = true := by
    rw [Bool.and_eq_true, decide_eq_true_eq, Bool.not_eq_true', List.all_eq_false]
    rintro ⟨htwo, d, hd, hnot⟩
    obtain ⟨hlt, hmine⟩ := State.mem_dieList.1 hd
    exact hnot ((h.resolve_left fun hne => hne htwo) d hlt hmine)
  rw [hquiet, if_neg (by decide), if_neg hfree]
  rfl

end

end Sys2Proof.Machine
end

section
/-! Ticks of a queue's cadence (R395, R423). -/

namespace Sys2Proof.Machine

section
variable {s : State} {q : Nat}

/-- A queue core that is awake gets a pending bit (R423). -/
theorem State.fcore_ring_awake (hres : (s.queue q).resident = true) (ha : (s.fcore (s.queue q).qcore).asleep = false)
    (b : BitVec 7) : (s.ring q b).fcore (s.queue q).qcore =
      { s.fcore (s.queue q).qcore with pending := (s.fcore (s.queue q).qcore).pending ||| b } := by
  have hsig : (s.fcore (s.queue q).qcore).signal b =
      { s.fcore (s.queue q).qcore with pending := (s.fcore (s.queue q).qcore).pending ||| b } := by
    simp [FCore.signal, ha]
  simp [State.ring, hres, ha, hsig]

/-- A queue whose next tick is a period later. -/
def Queue.ticked (u : Queue) : Queue := { u with tick := u.tick + u.period.setWidth 64 }

/-- A launch that no longer waits for a tick. -/
def Launch.released (l : Launch) : Launch := { l with stage := .queued }

/-- The tick of a queue is due (R395). -/
def State.TickDue (s : State) (q : Nat) : Prop :=
  (s.queue q).cadence = true ∧ (s.queue q).tick.toNat / 65536 = s.gstep.toNat % 2 ^ 48

theorem bits_tick (x : W64) : bits x 63 16 = x.toNat / 65536 := by
  unfold bits
  rw [show 2 ^ 16 = 65536 from rfl]
  exact Nat.mod_eq_of_lt (by have := x.isLt; omega)

/-- The first launch that waits for a tick is released, or the tick is posted where none waits. -/
def State.giveTick (s : State) (q : Nat) : State :=
  match s.ticking q with
  | n :: _ => s.modLaunch n Launch.released
  | [] => s.postEvent q (s.plainEvent 4 0 31)

theorem State.cadenceTick_eq (h : s.TickDue q) :
    s.cadenceTick q = some (((s.giveTick q).modQueue q Queue.ticked).ring q 8) := by
  obtain ⟨hcad, htick⟩ := h
  unfold State.cadenceTick
  dsimp only
  rw [hcad, bits_tick, htick, if_neg (by simp)]
  rfl

theorem cadenceTick_does {t : State} (h : s.cadenceTick q = some t) : Happens s (.cadenceTick q) t := by
  show execCadenceTick q s = _
  unfold execCadenceTick
  rw [h]; rfl

theorem cadenceTick_idle (h : (s.queue q).cadence = false ∨ (s.queue q).tick.toNat / 65536 ≠ s.gstep.toNat % 2 ^ 48) :
    Idle s (.cadenceTick q) := by
  show execCadenceTick q s = _
  unfold execCadenceTick State.cadenceTick
  dsimp only
  rw [bits_tick, if_pos (by simpa using h)]
  rfl

/-- A launch that waits for the tick is released. -/
def State.tickedFor (s : State) (q n : Nat) : State := ((s.modLaunch n Launch.released).modQueue q Queue.ticked).ring q 8

/-- A tick for which no launch waits is posted. -/
def State.tickedNone (s : State) (q : Nat) : State :=
  ((s.postEvent q (s.plainEvent 4 0 31)).modQueue q Queue.ticked).ring q 8

theorem cadenceTick_releases (h : s.TickDue q) {n : Nat} {l : Launch} (hls : s.launches = [(n, l)]) (hlq : l.queue = q)
    (hstage : l.stage = .ticking) : Happens s (.cadenceTick q) (s.tickedFor q n) := by
  have hticking : s.ticking q = [n] := by simp [State.ticking, hls, hlq, hstage]
  refine cadenceTick_does ?_
  rw [State.cadenceTick_eq h, State.giveTick, hticking]
  rfl

theorem cadenceTick_posts (h : s.TickDue q) (hls : s.launches = []) : Happens s (.cadenceTick q) (s.tickedNone q) := by
  have hticking : s.ticking q = [] := by simp [State.ticking, hls]
  refine cadenceTick_does ?_
  rw [State.cadenceTick_eq h, State.giveTick, hticking]
  rfl

theorem State.queue_ticked (u : State) (q : Nat) (b : BitVec 7) :
    ((u.modQueue q Queue.ticked).ring q b).queue q = (u.queue q).ticked := by
  rw [State.queue_ring, State.queue_modQueue_same]

theorem State.queue_tickedFor (s : State) (q n : Nat) : (s.tickedFor q n).queue q = (s.queue q).ticked :=
  State.queue_ticked (s.modLaunch n Launch.released) q 8

theorem State.launches_tickedFor {n : Nat} {l : Launch} (hls : s.launches = [(n, l)]) (q : Nat) :
    (s.tickedFor q n).launches = [(n, l.released)] ∧ (s.tickedFor q n).mem = s.mem := by
  obtain ⟨fc, cur, wk, h⟩ := ((s.modLaunch n Launch.released).modQueue q Queue.ticked).ring_queueCores q 8
  unfold State.tickedFor
  rw [h]
  exact ⟨State.launches_modLaunch_single hls _, rfl⟩

theorem State.fcore_tickedFor (n : Nat) (hres : (s.queue q).resident = true)
    (ha : (s.fcore (s.queue q).qcore).asleep = false) : (s.tickedFor q n).fcore (s.queue q).qcore =
      { s.fcore (s.queue q).qcore with pending := (s.fcore (s.queue q).qcore).pending ||| 8 } := by
  let u := (s.modLaunch n Launch.released).modQueue q Queue.ticked
  have hq : u.queue q = (s.queue q).ticked := State.queue_modQueue_same (s.modLaunch n Launch.released) q _
  have hcore : (u.queue q).qcore = (s.queue q).qcore := by rw [hq]; rfl
  have h := State.fcore_ring_awake (s := u) (q := q) (by rw [hq]; exact hres) (by rw [hcore]; exact ha) 8
  rw [hcore] at h
  exact h

theorem State.queue_tickedNone (hknown : tmem s.queues q = true) :
    ((s.tickedNone q).queue q).evseq = (s.queue q).evseq + 1 ∧
    ((s.tickedNone q).queue q).tick = (s.queue q).tick + (s.queue q).period.setWidth 64 := by
  obtain ⟨o, c, v, hq⟩ := s.queue_postEvent q (s.plainEvent 4 0 31) hknown
  have h := State.queue_ticked (s.postEvent q (s.plainEvent 4 0 31)) q 8
  rw [hq] at h
  unfold State.tickedNone
  rw [h]
  exact ⟨rfl, rfl⟩

end

end Sys2Proof.Machine
end

section
/-! A die's scheduler with one launch in the launch table (R29, R36 to R41): what the operation of the scheduler comes to. -/

namespace Sys2Proof.Machine

/-- The scheduler of a die runs with no packet offered, and admits for a queue. -/
def State.Runs (s : State) (d : Nat) (u : Queue) : Prop :=
  (s.service = 1 ∨ s.service = 2) ∧ (s.die d).disp = [] ∧ u.stopped = false ∧ u.resetting = false

/-- No TCB and no child waits at the die. -/
def State.Free (s : State) (d : Nat) (u : Queue) : Prop := s.Runs d u ∧ (s.die d).ready = [] ∧ (s.die d).pool = []

/-- The launch itself comes next. -/
def State.Own (s : State) (d : Nat) (u : Queue) (l : Launch) : Prop :=
  s.Free d u ∧ l.stage = .admitted ∧ l.det ≠ 2 ∧ l.mask.getLsbD d = true ∧ l.nextTask < l.count

section
variable {s : State} {d n q : Nat} {l : Launch} {u : Queue} {r : SlotRef}
variable (hls : s.launches = [(n, l)]) (hqs : s.queues = [(q, u)]) (hlq : l.queue = q)
include hls hqs hlq

/-! ## The placement of a task -/

theorem launchAdmission_tcb (hruns : s.Runs d u) {x : ReadyTcb} (hready : (s.die d).ready = [x]) (hx : x.launch = n)
    (hfind : s.findSlot d l = some r) : ∃ t, Happens s (.launchAdmission d) t ∧
      t.StartsAt n l r x.num x.prog x.arg x.role ∧ (t.slotAt r).origin = x.origin ∧ (t.die d).ready = [] ∧
      ∀ p, p ≠ r → t.slotAt p = s.slotAt p := by
  subst hx
  obtain ⟨hserve, hdisp, hstop, hreset⟩ := hruns
  have hl := State.launch_single hls
  have hadmits := (State.admits_single hls hqs hlq).2 ⟨hstop, hreset⟩
  have hseat := s.seated_placeTcb d r x
  have hstarts : (s.placeTcb d r x).StartsAt x.launch l r x.num x.prog x.arg x.role := by
    have h := hseat.startsAt
    rwa [show (s.modDie d fun y => { y with ready := y.ready.erase x }).launch x.launch = l from hl] at h
  refine ⟨_, launchAdmission_places hserve hdisp (State.placeHead_tcb hready hadmits (by rw [hl]; exact hfind)), hstarts, ?_,
    State.ready_placeTcb hready, hseat.others⟩
  obtain ⟨w, hw⟩ := hseat.slot
  rw [hw]
  rfl

theorem launchAdmission_child (hruns : s.Runs d u) (hready : (s.die d).ready = []) {x : Child}
    (hpool : (s.die d).pool = [x]) (hx : x.launch = n) (hfind : s.findSlot d l = some r) :
    ∃ t, Happens s (.launchAdmission d) t ∧ t.StartsAt n l r x.num x.prog x.arg x.role ∧ (t.slotAt r).origin = .child ∧
      (t.die d).pool = [] ∧ ∀ p, p ≠ r → t.slotAt p = s.slotAt p := by
  subst hx
  obtain ⟨hserve, hdisp, hstop, hreset⟩ := hruns
  have hl := State.launch_single hls
  have hadmits := (State.admits_single hls hqs hlq).2 ⟨hstop, hreset⟩
  have hseat := (s.modDie d fun y => { y with pool := y.pool.erase x }).seated_admitTask r x.launch
    (x.start (s.launch x.launch))
  have hstarts : (s.placeChild d r x).StartsAt x.launch l r x.num x.prog x.arg x.role := by
    have h := hseat.startsAt
    rwa [show (s.modDie d fun y => { y with pool := y.pool.erase x }).launch x.launch = l from hl] at h
  refine ⟨_, launchAdmission_places hserve hdisp (State.placeHead_child hready hpool hadmits (by rw [hl]; exact hfind)),
    hstarts, ?_, State.pool_placeChild hpool, hseat.others⟩
  obtain ⟨w, hw⟩ := hseat.slot
  exact (congrArg Slot.origin hw).trans rfl

/-- The launch is the head of the die's sequence. -/
theorem State.placeHead_own (hown : s.Own d u l) : s.placeHead d = s.placeNext d n := by
  obtain ⟨⟨⟨_, _, hstop, hreset⟩, hready, hpool⟩, hstage, hdet, hmask, hcount⟩ := hown
  have hadmits := (State.admits_single hls hqs hlq).2 ⟨hstop, hreset⟩
  rw [State.placeHead_launches hready hpool,
    State.headLaunch_single hls (State.inSequence_of hstage hdet hmask hcount hadmits)]
  rfl

theorem launchAdmission_own {t : State} (hown : s.Own d u l) (h : s.placeNext d n = some t) :
    Happens s (.launchAdmission d) t := by
  have hplace := State.placeHead_own hls hqs hlq hown
  obtain ⟨⟨⟨hserve, hdisp, _⟩, _⟩, _⟩ := hown
  exact launchAdmission_places hserve hdisp (hplace.trans h)

/-- While its next task belongs to a phase that is not admitted yet, the launch holds the others back (R40). -/
theorem launchAdmission_later (hown : s.Own d u l) (hlast : l.lastTask ≤ l.nextTask) : Idle s (.launchAdmission d) := by
  have hl := State.launch_single hls
  have hplace := State.placeHead_own hls hqs hlq hown
  obtain ⟨⟨⟨hserve, hdisp, _⟩, _⟩, hstage, hdet, _⟩ := hown
  refine launchAdmission_rests hserve hdisp (hplace.trans (State.placeNext_later (by rw [hl]; exact hlast))) fun e he => ?_
  rw [hls, List.mem_singleton] at he
  rw [he]
  exact ⟨hstage, hdet⟩

/-- The entry point of a task (R29). -/
def Launch.entryOf (l : Launch) (k : Nat) : W64 :=
  l.prog + BitVec.ofNat 64 (4 * (l.entries.getD (k % (l.nent + 1)) 0).toNat)

/-- The role of a task (R29). -/
def Launch.roleOfTask (l : Launch) (k : Nat) : Role := roleOf (l.roles.getD (k % (l.nent + 1)) 0).toNat

theorem launchAdmission_task (hown : s.Own d u l) (hlast : l.nextTask < l.lastTask) (hgran : l.cgran = false)
    (hfind : s.findSlot d l = some r) : ∃ t, Happens s (.launchAdmission d) t ∧
      t.StartsAt n l r (BitVec.ofNat 32 l.nextTask) (l.entryOf l.nextTask) l.args (l.roleOfTask l.nextTask) ∧
      (t.slotAt r).uid = s.nextUid ∧ (t.launch n).nextTask = l.nextTask + 1 ∧ (∀ p, p ≠ r → t.slotAt p = s.slotAt p) ∧
      q ∈ (t.cluster (r.core / 4)).placed ∧
      (t.core r.core).b0 = (if (s.core r.core).empty then l.b0 else (s.core r.core).b0) := by
  have hl := State.launch_single hls
  have hseat := s.seated_admitTask r n (l.direct l.nextTask)
  have hplace : s.placeNext d n = some (s.placeTask r n) :=
    State.placeNext_task (by rw [hl]; exact hgran) (by rw [hl]; exact hlast) (by rw [hl]; exact hfind)
  have htask : s.placeTask r n = (s.admitTask r n (l.direct l.nextTask)).modLaunch n fun l =>
      { l with nextTask := l.nextTask + 1 } := by
    unfold State.placeTask; rw [hl]
  refine ⟨_, launchAdmission_own hls hqs hlq hown hplace, ?_⟩
  have hnext : ((s.placeTask r n).launch n).nextTask = l.nextTask + 1 := by
    rw [State.launch_placeTask, if_pos rfl, hl]
  refine ⟨?_, ?_, hnext, ?_, ?_, ?_⟩
  · have h := hseat.startsAt
    rw [hl] at h
    rw [htask]
    exact h
  · obtain ⟨w, hw⟩ := hseat.slot
    rw [htask]
    exact (congrArg Slot.uid hw).trans rfl
  · rw [htask]; exact hseat.others
  · have h := hseat.placed
    rw [hl, hlq] at h
    rw [htask]
    exact h
  · have h := hseat.b0
    rw [hl] at h
    rw [htask]
    exact h

theorem launchAdmission_group (hown : s.Own d u l) (hlast : l.nextTask + 4 ≤ l.lastTask) (hfour : l.nextTask % 4 = 0)
    (hgran : l.cgran = true) {k : Nat} (hk : k < 24) (hfits : s.clusterFits l (96 * d + 4 * k) = true)
    (hfirst : ∀ j, j < k → s.clusterFits l (96 * d + 4 * j) = false) : ∃ t, Happens s (.launchAdmission d) t ∧
      (t.launch n).nextTask = l.nextTask + 4 ∧ ∀ c, c < 4 → ∃ j, (s.core (96 * d + 4 * k + c)).freeSlot = some j ∧
        t.StartsAt n l ⟨96 * d + 4 * k + c, j⟩ (BitVec.ofNat 32 (l.nextTask + c)) (l.entryOf (l.nextTask + c)) l.args
          (l.roleOfTask (l.nextTask + c)) ∧ (t.slotAt ⟨96 * d + 4 * k + c, j⟩).group = some s.nextUid := by
  have hl := State.launch_single hls
  have hplace : s.placeNext d n = some (s.groupOn n (96 * d + 4 * k)) := by
    rw [State.placeNext_group (by rw [hl]; exact hgran) (by rw [hl]; omega)]
    exact State.placeGroup_first hk (by rw [hl]; exact hfits) (by rw [hl]; exact hfirst)
  obtain ⟨hnext, hmembers⟩ := State.groupOn_whole (s := s) (n := n) (g := 96 * d + 4 * k) (by rw [hl]; exact hlast)
    (by rw [hl]; exact hfour)
  rw [hl] at hnext hmembers
  refine ⟨_, launchAdmission_own hls hqs hlq hown hplace, hnext, fun c hc => ?_⟩
  obtain ⟨j, hj⟩ := Option.ne_none_iff_exists'.1 ((State.clusterFits_iff.1 hfits c hc).2)
  obtain ⟨v, w, hslot⟩ := hmembers c j hc hj
  exact ⟨j, hj, State.startsAt_of hslot, by rw [hslot]⟩

end

end Sys2Proof.Machine
end

section
/-! The scheduler's decision on a queued launch (R36, R37, R84, R390, R428). -/

namespace Sys2Proof.Machine

/-- The scheduler of a die rejects a launch with an error code, and touches no core. -/
def State.Rejects (s : State) (d n : Nat) (e : BitVec 8) : Prop :=
  ∃ t, Happens s (.launchAdmission d) t ∧ (t.launch n).stage = .over ∧ (t.launch n).state = 4 ∧ (t.launch n).err = e ∧
    t.cores = s.cores

/-- A launch as the scheduler opens it on some dies, with its descriptor, its count and its leases. -/
structure OpensAs (s t : State) (n c : Nat) (w : List W64) (ls : List Lease) : Prop where
  stage : (t.launch n).stage = .admitted
  state : (t.launch n).state = 1
  err : (t.launch n).err = 0
  count : (t.launch n).count = c
  prog : (t.launch n).prog = w.getD 0 0
  args : (t.launch n).args = w.getD 1 0
  leases : (t.launch n).leases = ls
  gstepStart : (t.launch n).gstepStart = s.gstep
  nextTask : (t.launch n).nextTask = 0
  onePhase : descField w 8 15 8 = 0 → (t.launch n).lastTask = c
  lastTask : ∀ v, 0 < descField w 8 15 8 → s.fwRead (s.rootOf n) (descField w 9 63 0) (8 * descField w 8 15 8) = some v →
    (t.launch n).lastTask = phaseSize v 0
  mask : ∀ e, e < 8 → ((t.launch n).mask.getLsbD e = true ↔ e ∈ s.diesOf (s.launch n).queue w)

theorem State.opensAs_openLaunch {s : State} {n c : Nat} {w : List W64} {ps : List (Nat × Nat)}
    (hps : s.PhasesAre (s.rootOf n) w c ps) (ls : List Lease) (ts : List TlbEntry) :
    OpensAs s ((s.counted n w c ps).openLaunch n (s.diesOf (s.launch n).queue w) ls ts) n c w ls := by
  have h := (s.counted n w c ps).opened_openLaunch n (s.diesOf (s.launch n).queue w) ls ts
  have hl := s.launch_counted n w c ps
  obtain ⟨hfirst, hone, hmany⟩ := hps.head
  have hnext := h.nextTask
  have hlast := h.lastTask
  rw [hl] at hnext hlast
  have hfirst' : (((s.launch n).ofDesc w).counted c ps).phases.headD (0, 0) = ps.headD (0, 0) := rfl
  rw [hfirst', hfirst] at hnext hlast
  rw [Nat.zero_add] at hlast
  exact
    { stage := h.stage
      state := h.state
      err := h.err
      count := h.count.trans (by rw [hl]; rfl)
      prog := h.prog.trans (by rw [hl]; rfl)
      args := h.args.trans (by rw [hl]; rfl)
      leases := h.leases
      gstepStart := h.gstepStart
      nextTask := hnext
      onePhase := fun h0 => hlast.trans (hone h0)
      lastTask := fun v hpos hv => hlast.trans (hmany v hpos hv)
      mask := fun e he => by rw [h.mask]; exact getLsbD_maskOfDies _ he }

section
variable {s : State} {d n : Nat} {w : List W64}
variable (hls : s.launches = [(n, s.launch n)]) (hqs : s.queues = [((s.launch n).queue, s.queue (s.launch n).queue)])
  (hfree : s.Free d (s.queue (s.launch n).queue)) (hstage : (s.launch n).stage = .queued)
  (hdie : lowestDie (s.queue (s.launch n).queue).dies = d) (hw : s.descWords (s.rootOf n) (s.launch n).desc = some w)
include hls hqs hfree hstage hdie

theorem launchAdmission_due : s.scheduleDie d = s.admitLaunch n := by
  obtain ⟨⟨hserve, hdisp, hstop, hreset⟩, hready, hpool⟩ := hfree
  exact State.scheduleDie_due hserve hdisp hready hpool hls hqs rfl hstop hreset hdie hstage

theorem rejects_of {u : State} {e : Nat} (h : s.admitLaunch n = some (u.closeLaunch n 4 e)) (hc : u.cores = s.cores) :
    s.Rejects d n (BitVec.ofNat 8 e) := by
  have hclosed := u.closed_closeLaunch n 4 e
  exact ⟨_, launchAdmission_does ((launchAdmission_due hls hqs hfree hstage hdie).trans h), hclosed.stage, hclosed.state,
    hclosed.err, hclosed.cores.trans hc⟩

include hw

/-- A check that fails rejects the launch with its code (R36). -/
theorem rejects_checked {e : Nat} (h : s.descCheck (s.launch n).queue w = .inl e) : s.Rejects d n (BitVec.ofNat 8 e) :=
  rejects_of hls hqs hfree hstage hdie (State.admitLaunch_refused hw h) rfl

variable {c : Nat} {ps : List (Nat × Nat)} (hcheck : s.descCheck (s.launch n).queue w = .inr (c, ps))
include hcheck

/-- With its descriptor good, a launch is still rejected with a code where its dies or its leases ask for it. -/
theorem rejects_openOn {e : Nat} (h : s.openOn n w c ps = some ((s.counted n w c ps).closeLaunch n 4 e)) :
    s.Rejects d n (BitVec.ofNat 8 e) :=
  rejects_of hls hqs hfree hstage hdie ((State.admitLaunch_checked hw hcheck).trans h) rfl

theorem launchAdmission_waits (h : s.openOn n w c ps = none) : Idle s (.launchAdmission d) :=
  launchAdmission_idle ((launchAdmission_due hls hqs hfree hstage hdie).trans ((State.admitLaunch_checked hw hcheck).trans h))

theorem launchAdmission_opens {t : State} (h : s.openOn n w c ps = some t) : Happens s (.launchAdmission d) t :=
  launchAdmission_does ((launchAdmission_due hls hqs hfree hstage hdie).trans ((State.admitLaunch_checked hw hcheck).trans h))

end

/-! ## The outcomes in their order (R36) -/

/-- A descriptor that passes every check that needs no die. -/
def State.DescGood (s : State) (q : Nat) (w : List W64) (c : Nat) : Prop :=
  s.DescPlain q w ∧ ¬ DescGroups w c ∧ ¬ s.PhasesBad (s.queue q).troot w c ∧ ¬ DescD2 w

/-- The dies that a launch needs are there. -/
def State.DiesEnough (s : State) (q : Nat) (w : List W64) : Prop :=
  (s.service = 2 ∨ descField w 5 46 44 = 0) ∧ (s.diesOf q w).length = descField w 5 46 44 + 1

/-- A phase of a D2 launch has more tasks than its dies have slots (R390). -/
def State.StepTooBig (s : State) (n c : Nat) (w : List W64) : Prop :=
  descField w 5 33 32 = 2 ∧ s.PhaseTooBig (s.rootOf n) w c
    (s.slotCount (s.launch n).queue (s.diesOf (s.launch n).queue w))

theorem State.DescGood.checked {s : State} {q c : Nat} {w : List W64} (h : s.DescGood q w c)
    (hc : s.taskCount (s.queue q).troot w = some c) :
    ∃ ps, s.PhasesAre (s.queue q).troot w c ps ∧ s.descCheck q w = .inr (c, ps) := by
  obtain ⟨hplain, h6, h7, h12⟩ := h
  obtain ⟨ps, hps, hcheck⟩ := (State.checkTasks_good h6 h7).2 h12
  exact ⟨ps, hps, (State.descCheck_count hplain hc).trans hcheck⟩

section
variable {s : State} {d n : Nat} {w : List W64}
variable (hls : s.launches = [(n, s.launch n)]) (hqs : s.queues = [((s.launch n).queue, s.queue (s.launch n).queue)])
  (hfree : s.Free d (s.queue (s.launch n).queue)) (hstage : (s.launch n).stage = .queued)
  (hdie : lowestDie (s.queue (s.launch n).queue).dies = d) (hw : s.descWords (s.rootOf n) (s.launch n).desc = some w)
include hls hqs hfree hstage hdie hw

/-- ERR 1 to ERR 5. -/
theorem rejects_plain : (DescReserved w → s.Rejects d n 1) ∧ (¬ DescReserved w → DescBounds w → s.Rejects d n 2) ∧
    (¬ DescReserved w → ¬ DescBounds w → DescLevel w (s.queue (s.launch n).queue).level.toNat s.service → s.Rejects d n 3) ∧
    (¬ DescReserved w → ¬ DescBounds w → ¬ DescLevel w (s.queue (s.launch n).queue).level.toNat s.service → DescDies w →
      s.Rejects d n 4) ∧
    (s.DescPlain (s.launch n).queue w → s.taskCount (s.rootOf n) w = none → s.Rejects d n 5) := by
  have hrej : ∀ {e : Nat}, s.descCheck (s.launch n).queue w = .inl e → s.Rejects d n (BitVec.ofNat 8 e) :=
    rejects_checked hls hqs hfree hstage hdie hw
  exact ⟨fun h1 => hrej (State.descCheck_reserved h1), fun h1 h2 => hrej (State.descCheck_bounds h1 h2),
    fun h1 h2 h3 => hrej (State.descCheck_level h1 h2 h3), fun h1 h2 h3 h4 => hrej (State.descCheck_dies h1 h2 h3 h4),
    fun h hc => hrej (State.descCheck_countless h hc)⟩

variable {c : Nat} (hc : s.taskCount (s.rootOf n) w = some c)
include hc

/-- ERR 6, 7 and 12, of the checks that need no die. -/
theorem rejects_tasks (h : s.DescPlain (s.launch n).queue w) : (DescGroups w c → s.Rejects d n 6) ∧
    (¬ DescGroups w c → s.PhasesBad (s.rootOf n) w c → s.Rejects d n 7) ∧
    (¬ DescGroups w c → ¬ s.PhasesBad (s.rootOf n) w c → DescD2 w → s.Rejects d n 12) := by
  have hrej : ∀ {e : Nat}, s.checkTasks (s.launch n).queue w c = .inl e → s.Rejects d n (BitVec.ofNat 8 e) := fun he =>
    rejects_checked hls hqs hfree hstage hdie hw ((State.descCheck_count h hc).trans he)
  exact ⟨fun h6 => hrej (State.checkTasks_groups h6), fun h6 h7 => hrej (State.checkTasks_phases h6 h7),
    fun h6 h7 h12 => hrej ((State.checkTasks_good h6 h7).1 h12)⟩

variable (hgood : s.DescGood (s.launch n).queue w c)
include hgood

/-- ERR 11 for a launch of more than one die in reduced service, and the wait for dies (R428). -/
theorem admission_dies : (s.service = 1 → 0 < descField w 5 46 44 → s.Rejects d n 11) ∧
    (s.service = 2 ∨ descField w 5 46 44 = 0 → (s.diesOf (s.launch n).queue w).length < descField w 5 46 44 + 1 →
      Idle s (.launchAdmission d)) := by
  obtain ⟨ps, -, hcheck⟩ := hgood.checked hc
  exact ⟨fun h1 h => rejects_openOn hls hqs hfree hstage hdie hw hcheck (State.openOn_reduced h1 h),
    fun h1 h => launchAdmission_waits hls hqs hfree hstage hdie hw hcheck (State.openOn_waits h1 h)⟩

variable (henough : s.DiesEnough (s.launch n).queue w)
include henough

/-- ERR 12 of a superstep that does not fit (R390). -/
theorem rejects_tooBig (h : s.StepTooBig n c w) : s.Rejects d n 12 := by
  obtain ⟨ps, hps, hcheck⟩ := hgood.checked hc
  obtain ⟨hserve, hlen⟩ := henough
  obtain ⟨hdet, hbig⟩ := h
  exact rejects_openOn hls hqs hfree hstage hdie hw hcheck (State.openOn_big hserve hlen hps hdet hbig)

variable (hfit : ¬ s.StepTooBig n c w)
include hfit

/-- ERR 10 (R84). -/
theorem rejects_leases (h : s.LeasesBad (s.rootOf n) w (descField w 5 33 32)) : s.Rejects d n 10 := by
  obtain ⟨ps, hps, hcheck⟩ := hgood.checked hc
  obtain ⟨hserve, hlen⟩ := henough
  exact rejects_openOn hls hqs hfree hstage hdie hw hcheck (State.openOn_leaseless hserve hlen hps hfit h)

variable {ls : List Lease} (hleases : s.descLeases (s.rootOf n) w (descField w 5 33 32) = some ls)
include hleases

/-- ERR 11 of a lease that maps far memory or the host window in reduced service (R428). -/
theorem rejects_far (h1 : s.service = 1) (h : ls.any (s.leaseService (s.rootOf n)) = true) : s.Rejects d n 11 := by
  obtain ⟨ps, hps, hcheck⟩ := hgood.checked hc
  obtain ⟨hserve, hlen⟩ := henough
  exact rejects_openOn hls hqs hfree hstage hdie hw hcheck (State.openOn_far hserve hlen hps hfit hleases h1 h)

/-- With its leases good, a launch waits for a page that is missing, and is admitted with none missing (R85). -/
theorem admission_pages (h : s.service = 2 ∨ ls.any (s.leaseService (s.rootOf n)) = false) :
    (s.residentPages (s.rootOf n) ls [] = none → Idle s (.launchAdmission d)) ∧
    ∀ ts, s.residentPages (s.rootOf n) ls [] = some ts →
      ∃ t, Happens s (.launchAdmission d) t ∧ OpensAs s t n c w ls := by
  obtain ⟨ps, hps, hcheck⟩ := hgood.checked hc
  obtain ⟨hserve, hlen⟩ := henough
  have hopen := State.openOn_opens hserve hlen hps hfit hleases h
  refine ⟨fun hnone => ?_, fun ts hsome => ?_⟩
  · rw [hnone] at hopen
    exact launchAdmission_waits hls hqs hfree hstage hdie hw hcheck hopen
  · rw [hsome] at hopen
    exact ⟨_, launchAdmission_opens hls hqs hfree hstage hdie hw hcheck hopen, State.opensAs_openLaunch hps ls ts⟩

end

end Sys2Proof.Machine
end

section
/-! Two admitted launches of a die (R40), and the obligation on the scheduler, on level switches and on ticks. -/

namespace Sys2Proof.Machine

section
variable {s : State} {d n m : Nat} {l x : Launch}

/-- A launch whose next task stands in a die's sequence, to be placed by itself. -/
def State.Stands (s : State) (d : Nat) (y : Launch) : Prop :=
  y.stage = .admitted ∧ y.det ≠ 2 ∧ y.mask.getLsbD d = true ∧ y.nextTask < y.count ∧ y.cgran = false ∧
    (s.queue y.queue).stopped = false ∧ (s.queue y.queue).resetting = false

variable (hls : s.launches = [(n, l), (m, x)] ∨ s.launches = [(m, x), (n, l)]) (hnm : n ≠ m)
include hls hnm

theorem State.launch_two : s.launch n = l ∧ s.launch m = x := by
  unfold State.launch
  rcases hls with h | h <;> simp [h, tget, hnm, hnm.symm]

variable (hserve : s.service = 1 ∨ s.service = 2) (hdisp : (s.die d).disp = []) (hready : (s.die d).ready = [])
  (hpool : (s.die d).pool = []) (hl : s.Stands d l) (hx : s.Stands d x) (hord : l.order < x.order)
include hready hpool hl hx hord

/-- The earlier of two launches is at the head of the sequence. -/
theorem State.placeHead_two : s.placeHead d = s.placeNext d n := by
  obtain ⟨hn, hm⟩ := State.launch_two hls hnm
  have hin : ∀ {k : Nat} {y : Launch}, s.launch k = y → s.Stands d y → s.inSequence d k y = true := by
    rintro k y hk ⟨hstage, hdet, hmask, hcount, -, hstop, hreset⟩
    exact State.inSequence_of hstage hdet hmask hcount (State.admits_iff.2 (by rw [hk]; exact ⟨hstop, hreset⟩))
  rw [State.placeHead_launches hready hpool, State.headLaunch_two hls (hin hn hl) (hin hm hx) hord]
  rfl

include hserve hdisp

/-- While the earlier launch's next task has no slot or belongs to a later phase, the other launch waits too. -/
theorem launchAdmission_two_waits (h : l.lastTask ≤ l.nextTask ∨ s.findSlot d l = none) : Idle s (.launchAdmission d) := by
  obtain ⟨hn, -⟩ := State.launch_two hls hnm
  have hplace : s.placeNext d n = none := by
    rcases h with h | h
    · exact State.placeNext_later (by rw [hn]; exact h)
    · obtain ⟨-, -, -, -, hgran, -⟩ := hl
      exact State.placeNext_slotless (by rw [hn]; exact hgran) (by rw [hn]; exact h)
  refine launchAdmission_rests hserve hdisp ((State.placeHead_two hls hnm hready hpool hl hx hord).trans hplace)
    fun e he => ?_
  obtain ⟨hlstage, hldet, -⟩ := hl
  obtain ⟨hxstage, hxdet, -⟩ := hx
  have hmem : e = (n, l) ∨ e = (m, x) := by
    rcases hls with h | h
    · simpa [h] using he
    · simpa [h, or_comm] using he
  rcases hmem with rfl | rfl
  · exact ⟨hlstage, hldet⟩
  · exact ⟨hxstage, hxdet⟩

theorem launchAdmission_two_places (hlast : l.nextTask < l.lastTask) {r : SlotRef} (hfind : s.findSlot d l = some r) :
    ∃ t, Happens s (.launchAdmission d) t ∧ (t.slotAt r).occ = true ∧ (t.slotAt r).launch = n ∧
      (t.slotAt r).task = BitVec.ofNat 32 l.nextTask ∧ (t.launch n).nextTask = l.nextTask + 1 ∧
      (t.launch m).nextTask = x.nextTask ∧ ∀ p, p ≠ r → t.slotAt p = s.slotAt p := by
  obtain ⟨hn, hm⟩ := State.launch_two hls hnm
  have hplace : s.placeNext d n = some (s.placeTask r n) := by
    obtain ⟨-, -, -, -, hgran, -⟩ := hl
    exact State.placeNext_task (by rw [hn]; exact hgran) (by rw [hn]; exact hlast) (by rw [hn]; exact hfind)
  have hseat := s.seated_admitTask r n ((s.launch n).direct (s.launch n).nextTask)
  obtain ⟨hocc, hlaunch, htask, -⟩ := hseat.startsAt
  refine ⟨_, launchAdmission_places hserve hdisp
    ((State.placeHead_two hls hnm hready hpool hl hx hord).trans hplace), hocc, hlaunch, ?_, ?_, ?_, hseat.others⟩
  · exact htask.trans (by rw [hn]; rfl)
  · rw [State.launch_placeTask, if_pos rfl, hn]
  · rw [State.launch_placeTask, if_neg hnm.symm, hm]

end

/-! ## The obligation -/

/-- Settles O54: the head of a die's sequence, the outcomes of an admission in the order of their codes, phases, ends, spill
queues, and the dies and ticks of a queue. -/
theorem schedulingAndLevels : Obligations.SchedulingAndLevels := by
  unfold Obligations.SchedulingAndLevels
  refine ⟨?_, ?_, ?_⟩
  · intro s d n q l u hls hqs hlq
    dsimp only
    refine ⟨?_, ?_, ?_, ?_, ?_, ?_, ?_, ?_⟩
    · intro hruns x hready hx r hfind
      exact launchAdmission_tcb hls hqs hlq hruns hready hx hfind
    · intro hruns hready x hpool hx r hfind
      exact launchAdmission_child hls hqs hlq hruns hready hpool hx hfind
    · intro hown hlast hgran r hfind
      obtain ⟨hfree, hstage, hdet, hmask, hcount⟩ := hown
      exact launchAdmission_task hls hqs hlq ⟨hfree, hstage, hdet, hmask, hcount⟩ hlast hgran hfind
    · intro hown hlast hfour hgran k hk hfits hfirst
      refine launchAdmission_group hls hqs hlq hown hlast hfour hgran hk (State.clusterFits_iff.2 hfits) fun j hj => ?_
      rw [← Bool.not_eq_true, State.clusterFits_iff]
      exact hfirst j hj
    · intro hown hlast
      exact launchAdmission_later hls hqs hlq hown hlast
    · intro hfree hstage hdie w hw
      obtain rfl := State.launch_single hls
      subst hlq
      obtain rfl := State.queue_single hqs
      obtain ⟨h1, h2, h3, h4, h5⟩ := rejects_plain hls hqs hfree hstage hdie hw
      refine ⟨h1, h2, h3, h4, h5, fun c hc => ?_⟩
      have htasks := rejects_tasks hls hqs hfree hstage hdie hw hc
      have hdies := admission_dies hls hqs hfree hstage hdie hw hc
      refine ⟨fun h => (htasks h).1, fun h => (htasks h).2.1, fun h => (htasks h).2.2, fun h => (hdies h).1,
        fun h => (hdies h).2, rejects_tooBig hls hqs hfree hstage hdie hw hc,
        rejects_leases hls hqs hfree hstage hdie hw hc, ?_, ?_⟩
      · exact fun _ _ _ hleases hnone => hleases ((s.descLeases_eq_none_iff _ w _).1 hnone)
      · intro hgood henough hfit es hes
        refine ⟨rejects_far hls hqs hfree hstage hdie hw hc hgood henough hfit hes, fun hserve => ?_⟩
        obtain ⟨hnone, hsome⟩ := admission_pages hls hqs hfree hstage hdie hw hc hgood henough hfit hes hserve
        refine ⟨hnone, fun ts hts => ?_⟩
        obtain ⟨t, ht, h⟩ := hsome ts hts
        exact ⟨t, ht, h.stage, h.state, h.err, h.count, h.prog, h.args, h.leases, h.gstepStart, h.nextTask, h.onePhase,
          h.lastTask, h.mask⟩
    · refine ⟨phaseAdmission_does hls, phaseAdmission_idle hls, launchEnd_does hls, launchEnd_idle hls⟩
    · refine ⟨fun hstage hstop hreset hheld hroom v hread => ?_, spillRefill_idle hls hqs hlq⟩
      exact spillRefill_moves hls hqs hlq hstage hstop hreset hheld hroom hread
  · intro s d n m l x hls hnm hserve hdisp hready hpool hstand hord
    have hl := hstand l (.inl rfl)
    have hx := hstand x (.inr rfl)
    exact ⟨launchAdmission_two_waits hls hnm hserve hdisp hready hpool hl hx hord,
      fun hlast r hfind => launchAdmission_two_places hls hnm hserve hdisp hready hpool hl hx hord hlast hfind⟩
  · intro s q hknown
    dsimp only
    refine ⟨fun lv hlv => ⟨fun hbusy => ?_, fun _ htwo hnot => ?_, fun _ htwo htest => ?_, fun hquiet hdies => ?_⟩,
      levelSwitch_none, fun hcad htick => ⟨fun n l hls hlq hstage => ?_, fun hls => ?_⟩, cadenceTick_idle⟩
    · exact levelSwitch_busy hlv fun h => hbusy (State.queueQuiet_iff.1 h)
    · obtain ⟨d, hd, hmine, hfree⟩ := hnot
      exact levelSwitch_taken hlv htwo hd hmine hfree
    · obtain ⟨d, k, hd, hmine, hd2, hk, hrun⟩ := htest
      exact levelSwitch_taken hlv htwo hd hmine (State.dieFree_testing hd2 hk hrun)
    · obtain ⟨hlevel, hswitching, hhead⟩ := s.queue_switchedTo q lv
      refine ⟨_, levelSwitch_does hlv (State.queueQuiet_iff.2 hquiet) hdies, hlevel, hswitching, hhead, ?_, ?_, ?_⟩
      · exact fun d hd hmine htwo => State.d2_switchedTo_taken htwo hd hmine
      · exact fun d k hd hmine htwo hd2 hk htest => State.test_switchedTo htwo hd hmine hd2 hk htest
      · exact fun d hd hne => State.d2_switchedTo_left hne hd
    · have h : s.TickDue q := ⟨hcad, htick⟩
      obtain ⟨hlaunches, hmem⟩ := State.launches_tickedFor hls q
      have hq := s.queue_tickedFor q n
      exact ⟨_, cadenceTick_releases h hls hlq hstage, hlaunches, by rw [hq]; rfl, by rw [hq]; rfl, hmem,
        State.fcore_tickedFor n⟩
    · obtain ⟨hseq, htick'⟩ := State.queue_tickedNone hknown
      exact ⟨_, cadenceTick_posts ⟨hcad, htick⟩ hls, htick', hseq⟩

end Sys2Proof.Machine
end

section
/-! Every step keeps the invariant, first part: what an instruction answers, a family of meanings at a time. -/

namespace Sys2Proof.Machine

/-! ## Shapes of an answer -/

theorem inv_ite {c : Prop} [Decidable c] {a b : State} (ha : c → a.Inv) (hb : ¬ c → b.Inv) : (if c then a else b).Inv := by
  split
  · exact ha ‹_›
  · exact hb ‹_›

theorem keeps_ite {c : Prop} [Decidable c] {a b : Out} (ha : c → Keeps a) (hb : ¬ c → Keeps b) : Keeps (if c then a else b) := by
  split
  · exact ha ‹_›
  · exact hb ‹_›

theorem optInv_ite {c : Prop} [Decidable c] {a b : Option State} (ha : c → OptInv a) (hb : ¬ c → OptInv b) :
    OptInv (if c then a else b) := by
  split
  · exact ha ‹_›
  · exact hb ‹_›

theorem occurs_keeps {s : State} (h : s.Inv) {x : Option State} (hx : OptInv x) : Keeps (occurs x s) := by
  cases x with
  | none => exact h
  | some t => exact State.wakeAll_inv (hx t rfl)

theorem engineEvent_keeps {s : State} (h : s.Inv) (e : Nat) {f : State → Nat → Option State} (core : Nat)
    (hf : OptInv (f s core)) : Keeps (engineEvent e f core s) := by
  unfold engineEvent Keeps
  dsimp only
  split
  · rename_i t ht
    refine State.wakeAll_inv (State.modCore_inv ?_ _ _)
    split at ht
    · cases ht
    · exact hf t ht
  · exact h

/-! ## Scalar instructions, loads and stores -/

theorem State.put_keeps {s : State} (h : s.Inv) (d : XReg) (v : W64) : Keeps (s.put d v) :=
  State.retire_inv (State.wx_inv h d v)

theorem State.putP_keeps {s : State} (h : s.Inv) (d : PReg) (v : Bool) : Keeps (s.putP d v) :=
  State.retire_inv (State.wp_inv h d v)

theorem State.fpDone_keeps {s : State} (h : s.Inv) (fl : Fl) (word : W32) (write : Slot → Slot) :
    Keeps (s.fpDone fl word write) := by
  unfold State.fpDone
  dsimp only
  split
  · exact State.trap_inv (State.mapSlot_inv h _) _ _ _
  · exact State.retire_inv (State.mapSlot_inv (State.mapSlot_inv h _) _)

theorem State.loadTo_keeps {s : State} (h : s.Inv) (d : XReg) (va : W64) (n : Nat) (signed : Bool) (word : W32) :
    Keeps (s.loadTo d va n signed word) :=
  State.load_inv h va n word _ fun v _ ht => State.retire_inv (State.wx_inv ht d (extendTo n signed v))

theorem State.branch_keeps {s : State} (h : s.Inv) (c : Bool) (o : BitVec 14) : Keeps (s.branch c o) :=
  inv_ite (fun _ => State.jump_inv h _) fun _ => State.retire_inv h

theorem State.csrWrite_keeps {s : State} (h : s.Inv) (n : BitVec 12) (word : W32) (rw clr : W64 → W64) :
    Keeps (s.csrWrite n word rw clr) := by
  unfold State.csrWrite Keeps
  dsimp only
  split
  · exact State.trap_inv h _ _ _
  · exact inv_ite (fun _ => State.trapOpen_inv h _ _) fun _ => State.retire_inv (State.mapSlot_inv h _)

theorem State.tagOp_keeps {s : State} (h : s.Inv) (word : W32) {f : State → State} (hf : (f s).Inv) :
    Keeps (s.tagOp word f) := by
  unfold State.tagOp
  split
  · exact State.trap_inv (State.modCore_inv (State.freeFor_inv h s.cur true) _ _) _ _ _
  · exact hf

theorem execCbo_keeps {s : State} (h : s.Inv) (o : CboOp) (a : XReg) (i : BitVec 12) : Keeps (execCbo o a i s) := by
  refine keeps_ite (fun _ => keeps_ite (fun _ => State.trap_inv h _ _ _) fun _ => State.retire_inv h) fun _ => ?_
  have hc := State.check_inv h s.cur (s.maddr a i).toNat 1 .read Mode.early
  generalize s.check s.cur (s.maddr a i).toNat 1 .read Mode.early = c at hc
  cases c with
  | ok loc t =>
    have ht : t.Inv := hc loc t rfl
    exact State.retire_inv (inv_ite (fun _ => ht) fun _ => State.cleanLine_inv ht _ _)
  | trap x => exact State.trap_inv h _ _ _
  | park e => exact State.parkHere_inv h _ _
  | stall w => exact State.stallHere_inv h
  | away x y => exact State.stallHere_inv h

theorem execTins_keeps {s : State} (h : s.Inv) (a b : XReg) : Keeps (execTins a b s) :=
  State.tagOp_keeps h _ (inv_ite (fun _ => State.trap_inv h _ _ _) fun _ => State.retire_inv (State.modCore_inv h _ _))

theorem execTlook_keeps {s : State} (h : s.Inv) (d a : XReg) (info : Bool) : Keeps (execTlook d a info s) :=
  State.tagOp_keeps h _ (State.retire_inv (State.wx_inv h _ _))

theorem execTdel_keeps {s : State} (h : s.Inv) (a : XReg) : Keeps (execTdel a s) :=
  State.tagOp_keeps h _ (State.retire_inv (State.modCore_inv h _ _))

theorem execJalr_keeps {s : State} (h : s.Inv) (d a : XReg) (o : BitVec 14) : Keeps (execJalr d a o s) := by
  unfold execJalr
  dsimp only
  split
  · exact State.trap_inv h _ _ _
  · exact State.jump_inv (State.wx_inv h _ _) _

theorem execLix_keeps {s : State} (h : s.Inv) (i : BitVec 28) : Keeps (execLix i s) := by
  unfold execLix
  split
  · exact State.mapSlot_inv h _
  · split
    · exact State.trap_inv h _ _ _
    · exact State.mapSlot_inv h _
  · exact State.trapOpen_inv h _ _

/-! ## Synchronisation, gangs and atomics -/

/-- An operation on a semaphore for whose answer the slot waits. -/
theorem semAnswered_inv {s : State} (h : s.Inv) (name : W64) (k : SemKind) (after : Nat) (w : Wait) :
    ((s.sendSem name k after).waitFor w).Inv := State.waitFor_inv (State.sendSem_inv h name k after) w

theorem execSemSig_keeps {s : State} (h : s.Inv) (a b : XReg) (sc : Scope) : Keeps (execSemSig a b sc s) :=
  inv_ite (fun _ => State.trapOpen_inv h _ _) fun _ => State.withName_inv h _ _ _ fun _ ht =>
    State.retire_inv (State.occupy_inv (State.sendSem_inv (State.boundary_inv ht _ _) _ _ _) _)

theorem execSemWait_keeps {s : State} (h : s.Inv) (d a b : XReg) (take : Bool) : Keeps (execSemWait d a b take s) :=
  State.withName_inv h _ _ _ fun _ ht => State.noteAway_inv (semAnswered_inv ht _ _ _ _) _

theorem execSemArm_keeps {s : State} (h : s.Inv) (d a b : XReg) : Keeps (execSemArm d a b s) := by
  have refused : ∀ (at_ : W64) (word : W32) {c : Check} {k : State → State}, CheckInv c → (∀ t, t.Inv → (k t).Inv) →
      State.Inv (match c with
        | .ok _ t => k t
        | .park entry => s.parkHere at_ entry
        | .stall _ | .away .. => s.stallHere
        | .trap _ => s.trap .lease at_ word) := fun at_ word c k hc hk => by
    cases c with
    | ok loc t => exact hk t (hc loc t rfl)
    | trap x => exact State.trap_inv h _ _ _
    | park e => exact State.parkHere_inv h _ _
    | stall w => exact State.stallHere_inv h
    | away x y => exact State.stallHere_inv h
  refine inv_ite (fun _ => State.trapOpen_inv h _ _) fun _ => inv_ite
    (fun _ => State.withName_inv h _ _ _ fun _ ht => State.retire_inv (State.wx_inv ht _ _)) fun _ => ?_
  refine refused _ _ (State.checkTranslated_inv h _ _ _ _ _) fun t ht =>
    refused _ _ (State.checkTranslated_inv ht _ _ _ _ _) fun u hu => State.withName_inv hu _ _ _ fun v hv => ?_
  exact inv_ite (fun _ => semAnswered_inv hv _ _ _ _) fun _ => inv_ite (fun _ => semAnswered_inv hv _ _ _ _) fun _ =>
    State.retire_inv (State.wx_inv hv _ _)

theorem execWaite_keeps {s : State} (h : s.Inv) (e : Eng) (k : BitVec 5) : Keeps (execWaite e k s) := by
  unfold execWaite Keeps
  dsimp only
  split
  · exact State.trap_inv h _ _ _
  · exact State.engineWait_inv h _ _ _ _ fun _ => State.retire_inv

theorem execWaitwm_keeps {s : State} (h : s.Inv) (d a : XReg) (n : BitVec 3) : Keeps (execWaitwm d a n s) :=
  inv_ite (fun _ => State.stallHere_inv h) fun _ => inv_ite (fun _ => State.trap_inv h _ _ _) fun _ =>
    State.retire_inv (State.wx_inv (State.mapSlot_inv h _) _ _)

theorem execToksig_keeps {s : State} (h : s.Inv) (e : Eng) (t : BitVec 3) : Keeps (execToksig e t s) := by
  unfold execToksig Keeps
  dsimp only
  split
  · exact State.retire_inv (State.mapSlot_inv h _)
  · exact State.issueTo_inv h _ _ _ _

theorem execTokwait_keeps {s : State} (h : s.Inv) (e : Eng) (t : BitVec 3) : Keeps (execTokwait e t s) := by
  unfold execTokwait Keeps
  dsimp only
  split
  · exact inv_ite (fun _ => State.stallHere_inv h) fun _ =>
      State.retire_inv (State.joinEnded_inv (State.mapSlot_inv h _))
  · exact State.issueTo_inv h _ _ _ _

theorem execPhase_keeps {s : State} (h : s.Inv) (sc : Scope) (c : Bool) : Keeps (execPhase sc c s) := by
  have done : ∀ t : State, t.Inv → (((t.boundary t.cur sc).occupy (t.slot.pubCycles sc)).mapSlot fun l =>
      { l with tstat := l.tstat &&& ~~~0x80#64 }).Inv :=
    fun t ht => State.mapSlot_inv (State.occupy_inv (State.boundary_inv ht _ _) _) _
  exact inv_ite (fun _ => State.trapOpen_inv h _ _) fun _ => inv_ite
    (fun _ => State.engineWait_inv h _ _ _ _ fun t ht => State.retire_inv (State.writeCheckpoint_inv (done t ht) _))
    fun _ => State.retire_inv (done s h)

theorem execCsrr_keeps {s : State} (h : s.Inv) (d : XReg) (c : BitVec 12) : Keeps (execCsrr d c s) := by
  unfold execCsrr Keeps
  dsimp only
  split
  · exact State.trap_inv h _ _ _
  · exact inv_ite (fun _ => State.trapOpen_inv h _ _) fun _ => State.retire_inv (State.wx_inv h _ _)

theorem execExit_keeps {s : State} (h : s.Inv) : Keeps (execExit s) := by
  have h1 : ((s.modCore s.cur.core (·.dropTokenWaits s.slot.uid)).mapSlot fun l =>
      { l with exiting := true, started := true }).Inv := State.mapSlot_inv (State.modCore_inv h _ _) _
  unfold execExit Keeps
  dsimp only
  refine inv_ite (fun _ => State.stallHere_inv h1) fun _ => ?_
  have h3 := State.countEnd_inv (State.removeTask_inv (State.boundary_inv (State.quitGangs_inv (State.joinEnded_inv h1))
    s.cur .package) s.cur) s.slot.launch false
  split
  · exact State.setTcbState_inv h3 _ _ _
  · exact h3

theorem execEret_keeps {s : State} (h : s.Inv) : Keeps (execEret s) :=
  inv_ite (fun _ => State.modCore_inv (State.mapSlot_inv h _) _ _) fun _ => State.trapOpen_inv h _ _

theorem execLaunch_keeps {s : State} (h : s.Inv) (a : XReg) : Keeps (execLaunch a s) := by
  have half : ∀ (word : W32) (va x : W64) {t : State} {k : State → State}, t.Inv → (∀ u : State, u.Inv → (k u).Inv) →
      State.Inv (match t.check t.cur x.toNat 64 .read Mode.early with
        | .ok _ s1 => k s1
        | .trap c => t.trap c va word
        | .park entry => t.parkHere x entry
        | .stall _ | .away .. => t.stallHere) := fun word va x t k ht hk => by
    have hc := State.check_inv ht t.cur x.toNat 64 .read Mode.early
    generalize t.check t.cur x.toNat 64 .read Mode.early = c at hc
    cases c with
    | ok loc u => exact hk u (hc loc u rfl)
    | trap x => exact State.trap_inv ht _ _ _
    | park e => exact State.parkHere_inv ht _ _
    | stall w => exact State.stallHere_inv ht
    | away x y => exact State.stallHere_inv ht
  exact inv_ite (fun _ => State.trapOpen_inv h _ _) fun _ => inv_ite (fun _ => State.trap_inv h _ _ _) fun _ =>
    inv_ite (fun _ => State.trap_inv h _ _ _) fun _ => half _ _ _ h fun t ht => half _ _ _ ht fun u hu =>
      State.retire_inv (State.queueLaunch_inv (State.boundary_inv hu _ _) _ _)

/-! ## Engine instructions -/

theorem State.vecIssue_keeps {s : State} (h : s.Inv) (i : Instr) : Keeps (s.vecIssue i) := by
  unfold State.vecIssue Keeps
  dsimp only
  split
  · exact State.trap_inv h _ _ _
  · split
    · exact State.trap_inv h _ _ _
    · refine inv_ite (fun _ => State.trapOpen_inv h _ _) fun _ => ?_
      split
      · exact inv_ite (fun _ => inv_ite (fun _ => State.stallHere_inv h) fun _ => State.vecAppend_inv h _ _ _)
          fun _ => State.vecMemIssue_inv h _ _ _ _
      · exact inv_ite (fun _ => State.stallHere_inv h) fun _ => State.vecAppend_inv h _ _ _

theorem State.copyIssue_keeps {s : State} (h : s.Inv) (i : Instr) (k : CopyKind) (b : RecBase) : Keeps (s.copyIssue i k b) := by
  unfold State.copyIssue Keeps
  dsimp only
  split
  · exact State.trap_inv h _ _ _
  · exact inv_ite (fun _ => State.stallHere_inv h) fun _ => inv_ite
      (fun _ => inv_ite (fun _ => State.trapOpen_inv h _ _) fun _ => State.issueTo_inv (State.mapSlot_inv h _) _ _ _ _)
      fun _ => State.issueTo_inv h _ _ _ _

theorem State.mxIssue_keeps {s : State} (h : s.Inv) (i : Instr) (code : Option Nat) (ops : List W64) (f : QRec → QRec) :
    Keeps (s.mxIssue i code ops f) := by
  cases code with
  | none => exact State.issueTo_inv h _ _ _ _
  | some c => exact State.trap_inv h _ _ _

theorem execCopyRowLanded_keeps {s : State} (h : s.Inv) (core entry : Nat) : Keeps (execCopyRowLanded core entry s) :=
  engineEvent_keeps h 1 core (f := fun s g => s.copyLand g entry) (State.copyLand_inv h core entry)

theorem execCopyEntryEnd_keeps {s : State} (h : s.Inv) (core entry : Nat) : Keeps (execCopyEntryEnd core entry s) :=
  engineEvent_keeps h 1 core (f := fun s g => s.copyEnd g entry) (State.copyEnd_inv h core entry)

theorem execRngaw_keeps {s : State} (h : s.Inv) (d : XReg) (r : BitVec 2) : Keeps (execRngaw d r s) :=
  inv_ite (fun _ => State.retire_inv (State.wx_inv (State.mapSlot_inv (State.modCore_inv h _ _) _) _ _)) fun _ =>
    inv_ite (fun _ => State.trap_inv h _ _ _) fun _ => State.stallHere_inv h

theorem execRngrel_keeps {s : State} (h : s.Inv) (r : BitVec 2) : Keeps (execRngrel r s) :=
  inv_ite (fun _ => State.retire_inv (State.modCore_inv h _ _)) fun _ => State.trap_inv h _ _ _

theorem execRnginit_keeps {s : State} (h : s.Inv) (a b : XReg) (r : BitVec 2) : Keeps (execRnginit a b r s) :=
  inv_ite (fun _ => State.trap_inv h _ _ _) fun _ => inv_ite (fun _ => State.stallHere_inv h) fun _ =>
    State.retire_inv (State.modCore_inv h _ _)

theorem execCpx_keeps {s : State} (h : s.Inv) (n : BitVec 3) : Keeps (execCpx n s) := by
  unfold execCpx
  dsimp only
  refine State.retire_inv ?_
  split
  · exact inv_ite (fun _ => State.modCore_inv h _ _) fun _ => h
  · exact h

/-! ## Queue cores -/

theorem execRfetch_keeps {s : State} (h : s.Inv) (a d : BitVec 5) : Keeps (execRfetch a d s) :=
  inv_ite (fun _ => State.fbFault_inv h _ _) fun _ => inv_ite (fun _ => State.fbPut_inv (State.modQueue_inv h _ _) _ _) fun _ =>
    inv_ite (fun _ => State.fbFault_inv h _ _) fun _ =>
      State.fbPut_inv (State.modQueue_inv (State.consume_inv (State.modFcore_inv h _ _) _) _ _) _ _

theorem execSwait_keeps {s : State} (h : s.Inv) (b a d : BitVec 5) : Keeps (execSwait b a d s) :=
  inv_ite (fun _ => State.fbFault_inv h _ _) fun _ => inv_ite (fun _ => State.modFcore_inv h _ _) fun _ =>
    State.inv_of_eq h rfl rfl rfl rfl rfl

theorem execDisp_keeps {s : State} (h : s.Inv) (b a d : BitVec 5) : Keeps (execDisp b a d s) :=
  inv_ite (fun _ => State.fbFault_inv h _ _) fun _ => inv_ite (fun _ => State.fbPut_inv h _ _) fun _ =>
    State.fbPut_inv (State.modQueue_inv (State.modDie_inv h _ _) _ _) _ _

end Sys2Proof.Machine
end

section
/-! Every step keeps the invariant, second part: packets, mailbox commands, register writes and the device's other agents. -/

namespace Sys2Proof.Machine

section
variable {s : State} (h : s.Inv)
include h

/-- A mailbox command that refuses or answers with a state of its own. -/
theorem optInv_answer (n : Nat) (res : List W64) : OptInv (some (s.answerCmd n res)) :=
  optInv_some (State.answerCmd_inv h n res)

/-- A launch whose stage alone is written again, for each launch of a list. -/
theorem State.stages_inv (g : Stage) (ns : List Nat) :
    State.Inv (ns.foldl (fun s n => s.modLaunch n fun l => { l with stage := g }) s) :=
  foldl_inv h fun _ n ht => State.modLaunch_inv ht n _

theorem execLaunchPacket_keeps (q : Nat) : Keeps (execLaunchPacket q s) :=
  occurs_keeps h (State.onPacket_inv h q _ _ fun _ _ ht => optInv_ite (fun _ => optInv_none) fun _ =>
    optInv_some (Act.finish_inv (State.actLaunch_inv ht _ _) _))

theorem execWaitPacket_keeps (q : Nat) : Keeps (execWaitPacket q s) :=
  occurs_keeps h (State.onPacket_inv h q _ _ fun _ _ ht => optInv_ite (fun _ => optInv_some (State.failQueue_inv ht _ _)) fun _ =>
    optInv_some (State.modQueue_inv (State.firmSem_inv ht _ _ _) _ _))

theorem execCopyPacket_keeps (q : Nat) : Keeps (execCopyPacket q s) :=
  occurs_keeps h (State.onPacket_inv h q _ _ fun _ _ ht => optInv_ite
    (fun _ => optInv_some (Act.finish_inv (State.actCopy_inv ht _ _) _)) fun _ => optInv_none)

theorem execBarrier_keeps (q : Nat) : Keeps (execBarrier q s) :=
  occurs_keeps h (State.onPacket_inv h q _ _ fun _ _ ht => optInv_ite
    (fun _ => optInv_some (Act.finish_inv (State.actBarrier_inv ht _ _ _) _)) fun _ => optInv_none)

theorem execDetlevel_keeps (q : Nat) : Keeps (execDetlevel q s) :=
  occurs_keeps h (State.onPacket_inv h q _ _ fun _ _ ht => optInv_ite (fun _ => optInv_some (State.failQueue_inv ht _ _))
    fun _ => optInv_some (State.modQueue_inv ht _ _))

theorem execCadence_keeps (q : Nat) : Keeps (execCadence q s) :=
  occurs_keeps h (State.onPacket_inv h q _ _ fun _ _ ht => optInv_ite
    (fun _ => optInv_some (State.consume_inv (State.modQueue_inv (State.stages_inv ht _ _) _ _) _)) fun _ => optInv_ite
    (fun _ => optInv_some (State.failQueue_inv ht _ _)) fun _ =>
      optInv_some (State.consume_inv (State.modQueue_inv ht _ _) _))

theorem execCreate_keeps : Keeps (execCreate s) :=
  occurs_keeps h (State.onCmd_inv h _ _ fun _ => optInv_ite (fun _ => optInv_answer h _ _) fun _ => optInv_ite
    (fun _ => optInv_answer h _ _) fun _ => optInv_ite (fun _ => optInv_answer h _ _) fun _ =>
      optInv_answer (State.createQueue_inv h _) _ _)

theorem execDestroy_keeps : Keeps (execDestroy s) :=
  occurs_keeps h (State.onQueue_inv h _ _ fun _ _ => optInv_ite
    (fun _ => optInv_answer (State.destroyQueue_inv h _) _ _) fun _ => optInv_answer h _ _)

theorem execQreset_keeps : Keeps (execQreset s) :=
  occurs_keeps h (State.onQueue_inv h _ _ fun _ _ => optInv_ite (fun _ => optInv_none) fun _ =>
    optInv_some (State.startCmd_inv (State.resetQueue_inv h _)))

theorem execQueueResetComplete_keeps (q : Nat) : Keeps (execQueueResetComplete q s) := by
  refine occurs_keeps h (optInv_ite (fun _ => optInv_none) fun _ => ?_)
  have hq : (s.modQueue q fun u => { u with resetting := false, fences := [] }).Inv := State.modQueue_inv h _ _
  split
  · exact optInv_ite (fun _ => optInv_answer hq _ _) fun _ => optInv_some hq
  · exact optInv_some hq

theorem execPreempt_keeps : Keeps (execPreempt s) :=
  occurs_keeps h (State.onQueue_inv h _ _ fun _ _ => optInv_ite
    (fun _ => optInv_some (State.startCmd_inv (State.startLadder_inv h _))) fun _ => optInv_ite
    (fun _ => optInv_answer h _ _) fun _ => optInv_none)

theorem execResume_keeps : Keeps (execResume s) :=
  occurs_keeps h (State.onQueue_inv h _ _ fun _ q => optInv_ite (fun _ => optInv_answer h _ _) fun _ =>
    optInv_map fun _ ht => State.startCmd_inv (State.resumeQueue_inv h q _ ht))

theorem execPkgreset_keeps : Keeps (execPkgreset s) :=
  occurs_keeps h (State.onCmd_inv h _ _ fun _ => optInv_some (State.packageReset_inv (State.putAnswer_inv h _ _)))

/-- PCAP writes only a power cap within its limits. -/
theorem execPcap_keeps : Keeps (execPcap s) := by
  refine occurs_keeps h (State.onCmd_inv h _ _ fun _ => optInv_ite (fun hw => ?_) fun _ => optInv_answer h _ _)
  obtain ⟨hm, hl, -, hw2, hf⟩ := h
  exact optInv_answer (by exact ⟨hm, hl, hw, hw2, hf⟩) _ _

/-- SETPARAM writes only a parameter within its limits. -/
theorem execSetparam_keeps : Keeps (execSetparam s) := by
  refine occurs_keeps h (State.onCmd_inv h _ _ fun c => ?_)
  have refused : OptInv (some (s.answerCmd 2 [])) := optInv_answer h _ _
  have h' := h
  obtain ⟨hm, hl, hp, hw, hf⟩ := h'
  dsimp only
  split
  · exact optInv_ite (fun hv => optInv_answer (by exact ⟨hm, hl, hp, hv, hf⟩) _ _) fun _ => refused
  · exact optInv_ite (fun hv => optInv_answer (by exact ⟨hm, hl, hp, hw, hv⟩) _ _) fun _ => refused
  · exact optInv_ite (fun _ => refused) fun hv => optInv_ite (fun _ => optInv_answer h _ _) fun _ =>
      optInv_answer (by exact ⟨hm, by simpa using hv, hp, hw, hf⟩) _ _
  · exact refused

theorem execSnapshot_keeps : Keeps (execSnapshot s) :=
  occurs_keeps h (State.onCmd_inv h _ _ fun _ => optInv_answer (by exact inv_ite (fun _ => State.inv_of_eq h rfl rfl rfl rfl rfl) fun _ => h) _ _)

theorem execDevread_keeps : Keeps (execDevread s) :=
  occurs_keeps h (State.onCmd_inv h _ _ fun _ => optInv_some
    (inv_ite (fun _ => State.answerCmd_inv h _ _) fun _ => State.answerCmd_inv h _ _))

theorem execDevwrite_keeps : Keeps (execDevwrite s) := by
  refine occurs_keeps h (State.onCmd_inv h _ _ fun c => ?_)
  have hw := State.devWrite_inv h (c.arg 0).toNat (c.arg 1)
  generalize s.devWrite (c.arg 0).toNat (c.arg 1) = o at hw
  cases o with
  | none => exact optInv_answer h _ _
  | some t => exact optInv_answer (hw t rfl) _ _

theorem execClearmap_keeps : Keeps (execClearmap s) :=
  occurs_keeps h (State.onCmd_inv h _ _ fun _ => optInv_ite (fun _ => optInv_answer h _ _) fun _ => optInv_ite
    (fun _ => optInv_answer (by exact State.restoreWays_inv (State.inv_of_eq h rfl rfl rfl rfl rfl)) _ _) fun _ =>
      optInv_answer (by exact State.inv_of_eq h rfl rfl rfl rfl rfl) _ _)

theorem execSlotwrite_keeps : Keeps (execSlotwrite s) :=
  occurs_keeps h (State.onCmd_inv h _ _ fun _ => optInv_ite (fun _ => optInv_answer h _ _) fun _ => optInv_ite
    (fun _ => optInv_answer h _ _) fun _ => optInv_answer (State.setImage_inv h _ _) _ _)

theorem execSlotverify_keeps : Keeps (execSlotverify s) :=
  occurs_keeps h (State.onCmd_inv h _ _ fun _ => optInv_ite (fun _ => optInv_answer h _ _) fun _ => optInv_ite
    (fun _ => optInv_answer (State.setImage_inv h _ _) _ _) fun _ => optInv_answer (State.setImage_inv h _ _) _ _)

theorem execSetslot_keeps : Keeps (execSetslot s) :=
  occurs_keeps h (State.onCmd_inv h _ _ fun _ => optInv_ite (fun _ => optInv_answer h _ _) fun _ => optInv_ite
    (fun _ => optInv_answer (by exact State.inv_of_eq h rfl rfl rfl rfl rfl) _ _) fun _ => optInv_answer h _ _)

/-- What UPDATE does once it has begun: it hands over when the queue cores stand at packet boundaries. -/
theorem State.handOverNext_inv (o : Option Update) :
    OptInv (match o with | some u => if !u.handed && s.atPackets then some (s.handOver u) else none | none => none) := by
  cases o with
  | none => exact optInv_none
  | some u => exact optInv_ite (fun _ => optInv_some (State.handOver_inv h u)) fun _ => optInv_none

theorem execUpdate_keeps : Keeps (execUpdate s) := by
  refine occurs_keeps h (State.onCmd_inv h _ _ fun _ => optInv_ite (fun _ => State.handOverNext_inv h _) fun _ => optInv_ite
    (fun _ => optInv_answer h _ _) fun _ => optInv_ite (fun _ => optInv_answer (State.setImage_inv h _ _) _ _) fun _ => ?_)
  have begun : ∀ (k : Nat) (i : Image) (u : Update), ({ s.setImage k i with update := some u } : State).startCmd.Inv :=
    fun k i u => State.startCmd_inv (State.inv_of_eq (State.setImage_inv h k i) rfl rfl rfl rfl rfl)
  exact optInv_some (inv_ite (fun _ => State.handOver_inv (begun _ _ _) _) fun _ => begun _ _ _)

/-- The enumeration of the system writes STEPLEN only with a length that the manual allows. -/
theorem execSystemEnumeration_keeps (found : List Reached) (others : List (BitVec 20)) (n : Nat) :
    Keeps (execSystemEnumeration found others n s) := by
  have hr : State.Inv (found.foldl (fun s x => s.addRoute x) s) := foldl_inv h fun _ x ht => State.addRoute_inv ht x
  obtain ⟨hm, hl, hp, hw, hf⟩ := hr
  have hn : steplenOk (if steplenOk n then n else s.steplen) = true := by
    split
    · assumption
    · exact h.2.1
  have h1 : State.Inv { found.foldl (fun s x => s.addRoute x) s with
      aligned := true, gstep := 0, stepBase := s.refclk, steplen := if steplenOk n then n else s.steplen
      hostDev := if s.bridge then s.devid else others.headD 0 } := ⟨hm, hn, hp, hw, hf⟩
  exact occurs_keeps h (optInv_ite (fun _ => optInv_none) fun _ => optInv_ite
    (fun _ => optInv_some (foldl_inv (State.inv_of_eq h1 rfl rfl rfl rfl rfl) fun _ id ht => State.claim_inv ht id)) fun _ =>
    optInv_ite (fun _ => optInv_some h1) fun _ => optInv_some (State.sendInfo_inv (State.inv_of_eq h1 rfl rfl rfl rfl rfl)))

theorem execReducedServiceEnd_keeps : Keeps (execReducedServiceEnd s) :=
  occurs_keeps h (optInv_ite (fun _ => optInv_some (State.sendInfo_inv (State.setService_inv h _))) fun _ => optInv_none)

theorem execFlit_keeps (f : Flit) : Keeps (execFlit f s) :=
  occurs_keeps h (optInv_some (inv_ite (fun _ => State.takeFlit_inv h _) fun _ => State.inv_of_eq h rfl rfl rfl rfl rfl))

theorem execCoreReset_keeps (core : Nat) : Keeps (execCoreReset core s) :=
  occurs_keeps h (optInv_some (State.resetCore_inv h core))

theorem execLaneError_keeps (link lane : Nat) : Keeps (execLaneError link lane s) := by
  have hl : (s.modLink link fun l => { l with errors := l.errors + 1 }).Inv := State.modLink_inv h _ _
  have hc := State.countFault_inv hl (.lane link lane)
  exact occurs_keeps h (optInv_ite (fun _ => optInv_none) fun _ => optInv_ite
    (fun _ => optInv_some (State.retryFlit_inv hl _)) fun _ =>
      optInv_some (inv_ite (fun _ => State.dropLane_inv hc _ _) fun _ => hc))

theorem execL2EccError_keeps (die set way : Nat) (corrected : Bool) (line : Nat) :
    Keeps (execL2EccError die set way corrected line s) := by
  have hc := State.countFault_inv h (.way die set way)
  exact occurs_keeps h (optInv_some (inv_ite (fun _ => inv_ite
    (fun _ => State.reportLasting_inv (State.disableWay_inv hc _ _ _) _ _) fun _ => hc) fun _ => State.poisonLine_inv h _))

theorem execPoolEccError_keeps (core line : Nat) (corrected : Bool) : Keeps (execPoolEccError core line corrected s) := by
  have hc := State.countFault_inv h (.line core line)
  refine occurs_keeps h (optInv_some ?_)
  refine inv_ite (fun _ => inv_ite (fun _ => h) fun _ => State.modCore_inv h _ _) fun _ => inv_ite (fun _ => ?_) fun _ => ?_
  · refine inv_ite (fun _ => State.reportLasting_inv ?_ _ _) fun _ => hc
    exact State.inv_of_eq hc rfl rfl rfl rfl rfl
  · exact State.modCore_inv (State.poisonLine_inv h _) _ _

theorem execInFieldTest_keeps (cluster : Nat) : Keeps (execInFieldTest cluster s) := by
  refine occurs_keeps h (optInv_ite (fun _ => optInv_none) fun _ => ?_)
  have wrote : ∀ f, OptInv (some (s.modCluster cluster f)) := fun f => optInv_some (State.modCluster_inv h _ f)
  split
  · exact optInv_ite (fun _ => wrote _) fun _ => optInv_ite (fun _ => optInv_none) fun _ => wrote _
  · exact optInv_ite (fun _ => wrote _) fun _ => optInv_none
  · exact optInv_none

theorem execClusterEmptyTimeout_keeps (cluster : Nat) : Keeps (execClusterEmptyTimeout cluster s) :=
  occurs_keeps h (optInv_ite (fun _ => optInv_some (State.modCluster_inv
    (foldl_inv h fun _ q ht => State.startLadder_inv ht q) _ _)) fun _ => optInv_none)

theorem State.resumes_inv (qs : List Nat) : State.Inv (qs.foldl (fun s q => resumeAll q 768 s) s) :=
  foldl_inv h fun _ q ht => resumeAll_inv q 768 ht

theorem execClusterTestResult_keeps (cluster : Nat) (pass : Bool) : Keeps (execClusterTestResult cluster pass s) := by
  refine occurs_keeps h ?_
  dsimp only
  split
  · exact optInv_none
  · split
    · exact optInv_some (State.resumes_inv (State.modCluster_inv h _ _) _)
    · refine optInv_some (State.resumes_inv (State.snapEvent_inv
        (foldl_inv (State.sendInfo_inv ?_) fun _ q ht => State.postEvent_inv ht q _) _) _)
      exact State.inv_of_eq h rfl rfl rfl rfl rfl

theorem execMonSample_keeps (cluster : Nat) (proc vdd temp : BitVec 16) (watts : Nat) :
    Keeps (execMonSample cluster proc vdd temp watts s) := by
  refine occurs_keeps h (optInv_ite (fun _ => optInv_none) fun _ => optInv_some ?_)
  have sampled : ∀ f, State.Inv { s.modCluster cluster f with watts := watts } :=
    fun f => State.inv_of_eq (State.modCluster_inv h cluster f) rfl rfl rfl rfl rfl
  refine inv_ite (fun _ => State.packageReset_inv (sampled _)) fun _ => inv_ite (fun _ => ?_) fun _ => sampled _
  split
  · exact State.modQueue_inv (sampled _) _ _
  · exact sampled _

end

end Sys2Proof.Machine
end

section
/-! Every step keeps the invariant, third part: every instruction and event, and what a step does with them. -/

namespace Sys2Proof.Machine

theorem exec_keeps (i : Instr) {s : State} (h : s.Inv) : Keeps (exec i s) := by
  have vec := State.vecIssue_keeps h i
  cases i
  case mulh | mulhn | div | divn | rem | remn | minn | maxn | slt | sltn | seq | sne | clz | ctz | popc | brev
      | bfx | bfi | sext | zext | sel | madd | movp | addi | andi | ori | xori | slli | srli | srai | slti
      | sltni | seqi | muli | li | addpc | bfxi | bfii | add | sub | and | or | xor | andn | orn | sll | srl
      | sra | rol | ror | mul | min | max => exact State.put_keeps h _ _
  case cmpp | plog | pmov => exact State.putP_keeps h _ _
  case fadd | fsub | fmul | ffma | fdiv | fsqrt | fmin | fmax | fabs | fneg | icvtf | fcvt => exact State.fpDone_keeps h _ _ _
  case ldS8 | ldN8 | ldS16 | ldN16 | ldS32 | ldN32 | ld64 | ldx => exact State.loadTo_keeps h _ _ _ _ _
  case st8 | st16 | st32 | st64 | stx => exact State.store_inv h _ _ _ _
  case beq | bne | blt | bge | bltn | bgen | bpt | bpf => exact State.branch_keeps h _ _
  case vadd | vsub | vmul | vfma | vmin | vmax | vabs | vneg | vand | vor | vxor | vandn | vshl | vshr | vsra
      | vaddw | vsubw | vmulw | vdotw | vavg | vsadd | vssub | vmulh | vclamp | vaddScalar | vsubScalar
      | vmulScalar | vfmaScalar | vminScalar | vmaxScalar | vandScalar | vorScalar | vxorScalar | vandnScalar
      | vshlScalar | vshrScalar | vsraScalar | vaddwScalar | vsubwScalar | vmulwScalar | vdotwScalar
      | vavgScalar | vsaddScalar | vssubScalar | vmulhScalar | vclampScalar | vcmpeq | vcmpne | vcmplt | vcmple
      | vcmpltn | vcmplen | vcmpeqScalar | vcmpneScalar | vcmpltScalar | vcmpleScalar | vcmpltnScalar
      | vcmplenScalar | vsel | vmand | vmor | vmxor | vmnot | vmpop | vmfirst | vperm | vrot | vslideup
      | vslidedn | vzip | vunzip | vbcast | vins | vext | vcompress | viota | vmovv | vld | vst | vlds | vsts
      | vldg | vstg | vcvt | vqnt | vdqnt | vround | vnarrow | vexp2 | vlog2 | vexp | vlog | vrcp | vrsq | vsqrt
      | vtanh | vsigm | vsin | vcos | vdiv | vredsum | vredmax | vredmin | vscan | vexpmax | vacc | vacccvt
      | vrng => exact vec
  case cp | cpt | cpr | cpg | cps | cpf | cpred | cppf => exact State.copyIssue_keeps h _ _ _
  case mxldw | mxldwScaled | mxsta | mxgo | mxgog => exact State.mxIssue_keeps h _ _ _ _
  case mxmrk | mxswp | mxclr => exact State.mxIssue_keeps h _ none [] id
  case csrw | csrs | csrc => exact State.csrWrite_keeps h _ _ _ _
  case reductionMerge => exact engineEvent_keeps h _ _ (State.copyMerge_inv h _)
  case vectorEntryStart => exact engineEvent_keeps h _ _ (State.vecStart_inv h _)
  case vectorEntryEnd => exact engineEvent_keeps h _ _ (State.vecEnd_inv h _)
  case copyEntryStart => exact engineEvent_keeps h _ _ (State.copyStart_inv h _)
  case cptRelease => exact engineEvent_keeps h _ _ (State.cptStart_inv h _)
  case matrixEntryStart => exact engineEvent_keeps h _ _ (State.mxStart_inv h _)
  case planeLoadDone => exact engineEvent_keeps h _ _ (State.mxLoad_inv h _)
  case matrixPass => exact engineEvent_keeps h _ _ (State.mxPass_inv h _)
  case matrixCommit => exact engineEvent_keeps h _ _ (State.mxCommit_inv h _)
  case copyRowLanded => exact execCopyRowLanded_keeps h _ _
  case copyEntryEnd => exact execCopyEntryEnd_keeps h _ _
  case fcmpp => exact State.fpDone_keeps h _ _ _
  case fcvti => exact State.fpDone_keeps h _ _ _
  case fclass => exact State.retire_inv (State.wx_inv h _ _)
  case pfh => exact State.retire_inv h
  case cbo => exact execCbo_keeps h _ _ _
  case tlook => exact execTlook_keeps h _ _ _
  case tins => exact execTins_keeps h _ _
  case tdel => exact execTdel_keeps h _
  case loop => exact State.branch_keeps (State.wx_inv h _ _) _ _
  case jalr => exact execJalr_keeps h _ _ _
  case jal => exact State.jump_inv (State.wx_inv h _ _) _
  case semSig => exact execSemSig_keeps h _ _ _
  case semWait => exact execSemWait_keeps h _ _ _ _
  case semAdd => exact State.withName_inv h _ _ _ fun _ ht => semAnswered_inv ht _ _ _ _
  case semSet => exact State.withName_inv h _ _ _ fun _ ht => semAnswered_inv ht _ _ _ _
  case semArm => exact execSemArm_keeps h _ _ _
  case phase => exact execPhase_keeps h _ _
  case bar => exact State.waitFor_inv (State.sendGang_inv (State.boundary_inv h _ _) _ _ _) _
  case gangJoin => exact State.waitFor_inv (State.sendGang_inv h _ _ _) _
  case gangLeave => exact State.waitFor_inv (State.sendGang_inv h _ _ _) _
  case amo => exact State.atomicGo_inv h _ _ _ _ _ _
  case amocas => exact State.atomicGo_inv h _ _ _ _ _ _
  case amof => exact inv_ite (fun _ => State.trapOpen_inv h _ _) fun _ => State.atomicGo_inv h _ _ _ _ _ _
  case toksig => exact execToksig_keeps h _ _
  case tokwait => exact execTokwait_keeps h _ _
  case waite => exact execWaite_keeps h _ _
  case waitwm => exact execWaitwm_keeps h _ _ _
  case fenceE => exact State.engineWait_inv h _ _ _ _ fun _ => State.retire_inv
  case semRead => exact State.withName_inv h _ _ _ fun _ ht => semAnswered_inv ht _ _ _ _
  case cpx => exact execCpx_keeps h _
  case wmrd => exact State.retire_inv (State.wx_inv (State.wx_inv h _ _) _ _)
  case rngaw => exact execRngaw_keeps h _ _
  case rngrel => exact execRngrel_keeps h _
  case rnginit => exact execRnginit_keeps h _ _ _
  case cpq => exact State.retire_inv (State.wx_inv (State.mapSlot_inv h _) _ _)
  case mxcfg => exact State.retire_inv (State.mapSlot_inv h _)
  case mxanc => exact State.retire_inv (State.mapSlot_inv h _)
  case vsett => exact inv_ite (fun _ => State.trap_inv h _ _ _) fun _ => State.retire_inv (State.mapSlot_inv h _)
  case spawn => exact State.spawn_inv h _ _ _ _ _
  case spawng => exact State.spawn_inv h _ _ _ _ _
  case yield => exact State.retire_inv (State.mapSlot_inv h _)
  case role => exact State.retire_inv (State.mapSlot_inv h _)
  case csrr => exact execCsrr_keeps h _ _
  case trap => exact State.trap_inv h _ _ _
  case bkpt => exact State.trap_inv h _ _ _
  case launch => exact execLaunch_keeps h _
  case lix => exact execLix_keeps h _
  case exit => exact execExit_keeps h
  case eret => exact execEret_keeps h
  case nop => exact State.retire_inv h
  case rfetch => exact execRfetch_keeps h _ _
  case flambeolBfx => exact inv_ite (fun _ => State.fbFault_inv h _ _) fun _ => State.fbPut_inv h _ _
  case swait => exact execSwait_keeps h _ _ _
  case disp => exact execDisp_keeps h _ _ _
  case illegal => exact inv_ite (fun _ => State.fbIllegal_inv h) fun _ => State.trap_inv h _ _ _
  case nopPacket => exact occurs_keeps h (State.onPacket_inv h _ _ _ fun _ _ ht => optInv_some (State.consume_inv ht _))
  case launchPacket => exact execLaunchPacket_keeps h _
  case waitPacket => exact execWaitPacket_keeps h _
  case signalPacket => exact occurs_keeps h (State.onPacket_inv h _ _ _ fun _ _ ht => optInv_some (Act.finish_inv (State.actSignal_inv ht _ _ _) _))
  case copyPacket => exact execCopyPacket_keeps h _
  case detlevel => exact execDetlevel_keeps h _
  case cadence => exact execCadence_keeps h _
  case barrier => exact execBarrier_keeps h _
  case doorbell => exact occurs_keeps h (State.doorbell_inv h _ _)
  case pendingMapScan => exact occurs_keeps h (State.scanMap_inv h)
  case create => exact execCreate_keeps h
  case destroy => exact execDestroy_keeps h
  case qreset => exact execQreset_keeps h
  case preempt => exact execPreempt_keeps h
  case resume => exact execResume_keeps h
  case pkgreset => exact execPkgreset_keeps h
  case update => exact execUpdate_keeps h
  case slotwrite => exact execSlotwrite_keeps h
  case slotverify => exact execSlotverify_keeps h
  case setslot => exact execSetslot_keeps h
  case pcap => exact execPcap_keeps h
  case setparam => exact execSetparam_keeps h
  case snapshot => exact execSnapshot_keeps h
  case devread => exact execDevread_keeps h
  case devwrite => exact execDevwrite_keeps h
  case clearmap => exact execClearmap_keeps h
  case group => exact occurs_keeps h (State.onCmd_inv h _ _ fun _ => optInv_answer h _ _)
  case getMeasurements => exact occurs_keeps h (optInv_some (State.attested_inv h _))
  case challenge => exact occurs_keeps h (optInv_some (State.attested_inv h _))
  case deviceRegisterWrite => exact occurs_keeps h (optInv_some (State.regWrite_inv h _ _ _))
  case hbeat => exact occurs_keeps h (optInv_some (State.beat_inv h _))
  case heartbeatTimeout => exact occurs_keeps h (State.beatOver_inv h)
  case boot => exact occurs_keeps h (optInv_ite (fun _ => optInv_some (State.booted_inv h)) fun _ => optInv_none)
  case systemEnumeration => exact execSystemEnumeration_keeps h _ _ _
  case reducedServiceEnd => exact execReducedServiceEnd_keeps h
  case flit => exact execFlit_keeps h _
  case routeCostFlit => exact occurs_keeps h (optInv_some (State.modLink_inv h _ _))
  case launchAdmission => exact occurs_keeps h (State.scheduleDie_inv h _)
  case phaseAdmission => exact occurs_keeps h (optInv_ite (fun _ => optInv_some (State.nextPhase_inv h _)) fun _ => optInv_none)
  case spillRefill => exact occurs_keeps h (State.refill_inv h _)
  case launchEnd => exact occurs_keeps h (State.endLaunch_inv h _)
  case semUpdateAtHome => exact occurs_keeps h (State.semAtHome_inv h _)
  case semWaitComplete => exact occurs_keeps h (State.waitDone_inv h _)
  case gangArrivalAtHome => exact occurs_keeps h (State.gangAtHome_inv h _)
  case barComplete => exact occurs_keeps h (State.barDone_inv h _)
  case atomicAtHome => exact occurs_keeps h (State.performAtomic_inv h _)
  case homeFence => exact occurs_keeps h (optInv_ite (fun _ => optInv_some (State.modQueue_inv h _ _)) fun _ => optInv_none)
  case queueResetComplete => exact execQueueResetComplete_keeps h _
  case parkWake => exact occurs_keeps h (State.parkWake_inv h _ _)
  case parkTimeout => exact occurs_keeps h (State.parkTimeout_inv h _ _)
  case shootdown => exact occurs_keeps h (State.shootdown_inv h _ _ _)
  case shootdownAck => exact occurs_keeps h (State.shootAck_inv h _)
  case shootWaitExpiry => exact occurs_keeps h (State.shootExpire_inv h _)
  case engineTrapDelivery => exact occurs_keeps h (State.deliverTrap_inv h _)
  case watchdog => exact occurs_keeps h (State.watchdog_inv h _ _)
  case parityAlarm => exact occurs_keeps h (optInv_some (State.alarm_inv h _ _ _))
  case protocolAlarm => exact occurs_keeps h (optInv_some (State.alarm_inv h _ _ _))
  case testAlarm => exact occurs_keeps h (State.testAlarm_inv h _)
  case drizzleReset => exact occurs_keeps h (State.drizzleReset_inv h _)
  case coreReset => exact execCoreReset_keeps h _
  case dieReset => exact occurs_keeps h (optInv_some (State.resetDie_inv h _))
  case packageReset => exact occurs_keeps h (optInv_some (State.packageReset_inv h))
  case drainTimeout => exact occurs_keeps h (State.drainOver_inv h _)
  case saveComplete => exact occurs_keeps h (State.saveDone_inv h _)
  case saveTimeout => exact occurs_keeps h (State.saveOver_inv h _)
  case stepBoundary => exact occurs_keeps h (optInv_ite (fun _ => optInv_some (State.boundaryStep_inv h)) fun _ => optInv_none)
  case scycHold => exact occurs_keeps h (optInv_ite (fun _ => optInv_some (State.modCluster_inv h _ _)) fun _ => optInv_none)
  case replay => exact occurs_keeps h (optInv_ite (fun _ => optInv_none) fun _ => optInv_some (State.standStill_inv h _ _))
  case droopStretch => exact occurs_keeps h (optInv_ite (fun _ => optInv_none) fun _ => optInv_some (State.modCluster_inv h _ _))
  case drizzleWindow => exact occurs_keeps h (State.openWindow_inv h _)
  case cadenceTick => exact occurs_keeps h (State.cadenceTick_inv h _)
  case levelSwitch => exact occurs_keeps h (State.switchLevel_inv h _)
  case laneError => exact execLaneError_keeps h _ _
  case laneRotation => exact occurs_keeps h (optInv_ite (fun _ => optInv_some (State.modLink_inv h _ _)) fun _ => optInv_none)
  case l2EccError => exact execL2EccError_keeps h _ _ _ _ _
  case poolEccError => exact execPoolEccError_keeps h _ _ _
  case inFieldTest => exact execInFieldTest_keeps h _
  case clusterTestResult => exact execClusterTestResult_keeps h _ _
  case snapshotLatch => exact occurs_keeps h (optInv_ite (fun _ => optInv_some (State.latchSnapshot_inv h)) fun _ => optInv_none)
  case monSample => exact execMonSample_keeps h _ _ _ _ _
  case swaitTimeout => exact occurs_keeps h (State.swaitOver_inv h _)
  case linkRetrain => exact occurs_keeps h (optInv_ite (fun _ => optInv_some (State.modLink_inv h _ _)) fun _ => optInv_none)
  case clusterEmptyTimeout => exact execClusterEmptyTimeout_keeps h _

theorem mapNext_keeps {f : State → State} (hf : ∀ t : State, t.Inv → (f t).Inv) {o : Out} (h : Keeps o) : Keeps (mapNext f o) := by
  cases o with
  | next t => exact hf t h
  | fault r => trivial
  | refused r => trivial

theorem State.fetchTrap_inv {s : State} (h : s.Inv) (c : Cause) : (s.fetchTrap c).Inv :=
  State.trap_inv (pairInv_get rfl (State.freeFor_inv h s.cur true)) _ _ _

/-- A word that is fetched comes with a state that keeps the invariant. -/
theorem State.fetch_inv {s : State} (h : s.Inv) {r : SlotRef} {w : W32} {t : State} (hw : s.fetch r = .word w t) : t.Inv := by
  have hc := State.check_inv h r (s.slotAt r).pc.toNat 4 .fetch Mode.early
  unfold State.fetch at hw
  dsimp only at hw
  generalize s.check r (s.slotAt r).pc.toNat 4 .fetch Mode.early = c at hc hw
  split at hw
  · cases hw
  · cases c with
    | ok loc u =>
      have hu : u.Inv := hc loc u rfl
      dsimp only at hw
      split at hw
      · cases hw
      · split at hw
        · cases hw
        · cases hw
          exact inv_ite (fun _ => State.doneHost_inv hu _ _) fun _ => hu
    | trap c => cases hw
    | park e => cases hw
    | stall w => cases hw
    | away a b => cases hw

theorem State.runWord_keeps {s : State} (h : s.Inv) (w : W32) : Keeps (s.runWord w) := by
  refine keeps_ite (fun _ => ?_) fun _ => keeps_ite (fun _ => State.stallOn_inv h _) fun _ => exec_keeps _ h
  show State.Inv _
  split
  · exact State.trap_inv h _ _ _
  · exact State.trapOpen_inv h _ _

theorem State.runNext_keeps {s : State} (h : s.Inv) : Keeps s.runNext := by
  unfold State.runNext
  split
  · exact State.runWord_keeps (State.fetch_inv h ‹_›) _
  · exact State.fetchTrap_inv h _
  · exact State.parkHere_inv h _ _
  · exact State.stallHere_inv h
  · exact State.stallOn_inv (State.askHost_inv h _ _ _) _

/-- The chain of prefixes and the instruction that they belong to, an instruction at a time. -/
theorem State.runChain_keeps (n : Nat) {s : State} (h : s.Inv) : Keeps (s.runChain n) := by
  induction n generalizing s with
  | zero => exact h
  | succ n ih =>
    have hn := State.runNext_keeps h
    unfold State.runChain
    generalize s.runNext = o at hn
    cases o with
    | next u => exact keeps_ite (fun _ => hn) fun _ => ih hn
    | fault r => trivial
    | refused r => trivial

theorem State.runSlot_keeps {s : State} (h : s.Inv) : Keeps s.runSlot := by
  have deliver := exec_keeps (.engineTrapDelivery s.cur.core s.cur.slot.val) h
  refine keeps_ite (fun _ => State.runNext_keeps h) fun _ => ?_
  split
  · exact State.runNext_keeps h
  · refine keeps_ite (fun _ => deliver) fun _ => ?_
    have hc := State.runChain_keeps 3 h
    generalize s.runChain 3 = o at hc
    cases o with
    | next u => exact keeps_ite (fun _ => hc) fun _ => deliver
    | fault r => trivial
    | refused r => trivial

theorem State.settle_inv {s : State} (h : s.Inv) (r : SlotRef) : (s.settle r).Inv := inv_ite (fun _ => h) fun _ => h

theorem State.giveBack_inv {s : State} (h : s.Inv) (old : State) (r : SlotRef) : (s.giveBack old r).Inv :=
  inv_ite (fun _ => h) fun _ => h

theorem State.endDying_inv {s : State} (h : s.Inv) (r : SlotRef) : (s.endDying r).Inv :=
  inv_ite (fun _ => State.endAborted_inv (getD_inv h (State.finishAtomic_inv h r)) r) fun _ => h

theorem State.passCores_inv {s : State} (h : s.Inv) (lo hi : Nat) : (s.passCores lo hi).Inv := h

theorem State.issue_keeps {s : State} (h : s.Inv) (r : SlotRef) : Keeps (s.issue r) :=
  mapNext_keeps (fun _ ht => State.endDying_inv (State.giveBack_inv (State.settle_inv ht r) s r) r)
    (State.runSlot_keeps (inv_ite (fun _ => h) fun _ => h))

theorem State.runFcore_keeps {s : State} (h : s.Inv) (n : Nat) : Keeps (s.runFcore n) := by
  unfold State.runFcore
  split
  · trivial
  · trivial
  · split <;> exact exec_keeps _ h

theorem State.endCycle_keeps {s : State} (h : s.Inv) : Keeps s.endCycle := by
  have h1 : State.Inv { (s.passCores s.sweep Config.cores).tick with sweep := 0 } := State.tick_inv (State.passCores_inv h _ _)
  refine keeps_ite (fun _ => h1) fun _ => ?_
  split
  · exact exec_keeps _ h1
  · exact h1

theorem State.runDevice_keeps {s : State} (h : s.Inv) : Keeps s.runDevice := by
  unfold State.runDevice
  split
  · exact exec_keeps _ h
  · split
    · exact State.issue_keeps h _
    · exact State.endCycle_keeps h

theorem step_keeps {s : State} (h : s.Inv) : Keeps (step s) := by
  unfold step State.advance
  split
  · exact exec_keeps _ (State.inv_of_eq h rfl rfl rfl rfl rfl)
  · split
    · exact State.runFcore_keeps h _
    · exact State.runDevice_keeps h

/-- Settles O5: each operation of the state keeps the invariant, so each instruction and each event does, and a step is
made of those. -/
theorem stepKeepsInv : Obligations.StepKeepsInv := by
  unfold Obligations.StepKeepsInv
  intro s t h ht
  exact (ht ▸ step_keeps h : Keeps (.next t))

end Sys2Proof.Machine
end

section
/-! Loads, stores and atomics whose access does not proceed (R87, R173 to R175): each of them is one aligned access, whose answers
the shared law of such accesses names. -/

namespace Sys2Proof.Machine

section
variable {s : State} {i : Instr} {va : W64} {n : Nat}

/-- An instruction that is one aligned access halts where the access does. -/
theorem halts_aligned {k : Access} {f : Nat → State → State} (h : exec i s = .next (s.aligned_ va n k i.encode f)) :
    Halts s i va n k :=
  halts_of s i va n k f (fun c hc => endsTask_of s i c va _ hc) h

theorem halts_loadTo {d : XReg} {signed : Bool} (h : exec i s = s.loadTo d va n signed i.encode) : Halts s i va n .read :=
  halts_aligned h

theorem halts_store {v : Nat} (h : exec i s = .next (s.store va n v i.encode)) : Halts s i va n .write := halts_aligned h

/-- An atomic halts where its access does, once its scope raises no DETERMINISM (R225). -/
theorem halts_atomicGo {d a : XReg} {sc : AmoScope} {k : AtomicKind} (hsc : ∀ c, sc = .pub c → s.scopeOk c = true)
    (h : exec i s = .next (s.atomicGo d a n sc k i.encode)) : Halts s i (s.rx a) n .both := by
  cases sc with
  | pub c => simp only [State.atomicGo, hsc c rfl] at h; exact halts_aligned h
  | unpublished => exact halts_aligned h

end

/-- A floating-point atomic in D0 (R225). -/
theorem halts_amof {s : State} {sc : AmoScope} (d a b : XReg) (hsc : ∀ c, sc = .pub c → s.scopeOk c = true)
    (hlevel : s.level = 0) : Halts s (.amof d a b sc) (s.rx a) 4 .both := by
  refine halts_atomicGo (d := d) (k := .addF ((s.rx b).setWidth 32)) hsc ?_
  show Host.Outcome.next _ = _
  rw [if_neg (not_not.2 hlevel)]

/-- Settles O17: every load, store and atomic is one aligned access. -/
theorem accessesThatDoNotProceed : Obligations.AccessesThatDoNotProceed := by
  unfold Obligations.AccessesThatDoNotProceed
  intro s d a b imm mw e k va vx nx
  have hnx : nx = memBytes mw := by cases mw <;> rfl
  have open_ : ∀ c, AmoScope.unpublished = .pub c → s.scopeOk c = true := nofun
  rw [hnx]
  refine ⟨halts_loadTo rfl, halts_loadTo rfl, halts_loadTo rfl, halts_loadTo rfl, halts_loadTo rfl, halts_loadTo rfl,
    halts_loadTo rfl, halts_loadTo rfl, halts_store rfl, halts_store rfl, halts_store rfl, halts_store rfl, halts_store rfl,
    fun o sc hsc => ?_, fun o => ⟨halts_atomicGo open_ rfl, halts_atomicGo open_ rfl, halts_amof d a b open_⟩⟩
  have hpub : ∀ c, AmoScope.pub sc = .pub c → s.scopeOk c = true := fun c hc => by cases hc; exact hsc
  exact ⟨halts_atomicGo hpub rfl, halts_atomicGo hpub rfl, halts_amof d a b hpub⟩

end Sys2Proof.Machine
end

section
/-! ERET (R240, R366, R89): what the end of a handler leaves of the slot, of its core's engine queues and of everything else. -/

namespace Sys2Proof.Machine

/-- Memory reads as before where nothing has moved towards it and no slot's buffer or refresh point has changed. -/
theorem memoryKept_of {s t : State} (hm : t.mem = s.mem) (ho : t.overlay = s.overlay)
    (hp : ∀ r, (t.slotAt r).pend = (s.slotAt r).pend) (hs : ∀ r, (t.slotAt r).snap = (s.slotAt r).snap) : MemoryKept s t := by
  have hvis : ∀ g n, t.vis g n = s.vis g n := fun g n => by unfold State.vis; rw [hm, ho]
  exact fun n _ => ⟨by rw [hm], fun g => hvis g n, fun r => by unfold State.readByte; dsimp only; rw [hp, hs, hvis]⟩

/-! ## The parked entry whose PARK_TIMEOUT the handler served (R89) -/

/-- The entry whose engine raised the PARK_TIMEOUT that a slot's trap registers name. -/
def Slot.Raised (l : Slot) (w : Which) (r : QRec) : Prop :=
  r.uid = l.uid ∧ l.tcause = 0x11 ∧ l.tstat.extractLsb' 4 3 = w.orig ∧ (l.tstat.extractLsb' 16 8).toNat = r.idx % 256

theorem Slot.endsPark_iff (l : Slot) (w : Which) (r : QRec) : l.endsPark w r = true ↔ l.Raised w r := by
  simp only [Slot.endsPark, Slot.Raised, Bool.and_eq_true, beq_iff_eq, ← toNat_extract l.tstat 6 4 3 rfl,
    ← toNat_extract l.tstat 23 16 8 rfl, BitVec.toNat_inj, and_assoc]

/-- An entry after its slot's ERET at a reference cycle. -/
def QRec.restarted (l : Slot) (now : Nat) (w : Which) (r : QRec) : QRec :=
  if l.endsPark w r then { r with park := r.park.map (·.restart now) } else r

theorem Core.queue_restartParks (c : Core) (l : Slot) (now : Nat) (w : Which) :
    (c.restartParks l now).queue w = { c.queue w with recs := (c.queue w).recs.map (QRec.restarted l now w) } := by
  cases w <;> rfl

theorem QRec.restarted_of_raised {l : Slot} {now : Nat} {w : Which} {r : QRec} (h : l.Raised w r) :
    r.restarted l now w = { r with park := r.park.map fun p => { p with since := now, expired := false } } :=
  if_pos ((l.endsPark_iff w r).2 h)

theorem QRec.restarted_of_not {l : Slot} {now : Nat} {w : Which} {r : QRec} (h : ¬ l.Raised w r) : r.restarted l now w = r :=
  if_neg fun e => h ((l.endsPark_iff w r).1 e)

/-! ## The state after ERET -/

/-- The state in which ERET leaves a handler. -/
def State.returned (s : State) : State := (s.mapSlot Slot.eret).modCore s.cur.core (·.restartParks s.slot s.refclk)

theorem exec_eret_handler {s : State} (h : s.slot.inh = true) : exec .eret s = .next s.returned := by
  show Host.Outcome.next (if s.slot.inh then _ else _) = _
  rw [if_pos h]
  rfl

theorem exec_eret_outside {s : State} (h : s.slot.inh = false) : exec .eret s = .next (s.trapOpen .priv Instr.eret.encode) := by
  show Host.Outcome.next (if s.slot.inh then _ else _) = _
  rw [if_neg (by simp [h])]

theorem State.slotAt_returned (s : State) (r : SlotRef) : s.returned.slotAt r = (s.mapSlot Slot.eret).slotAt r :=
  State.slotAt_modCore _ _ _ _ fun _ => rfl

theorem State.here_returned (s : State) :
    s.returned.here = (s.here.setSlot s.cur.slot s.slot.eret).restartParks s.slot s.refclk := by
  show s.returned.core s.cur.core = _
  rw [State.returned, State.core_modCore_same, State.mapSlot, State.modSlot, State.setSlot, State.core_setCore, if_pos rfl]
  rfl

theorem State.core_returned_ne (s : State) {g : Nat} (h : g ≠ s.cur.core) : s.returned.core g = s.core g := by
  rw [State.returned, State.core_modCore, if_neg h]
  exact (State.core_setCore _ _ _ _).trans (if_neg h)

theorem State.memoryKept_returned (s : State) : MemoryKept s s.returned := by
  refine memoryKept_of rfl rfl (fun r => ?_) fun r => ?_ <;> rw [State.slotAt_returned, State.slotAt_mapSlot] <;> split
  · subst r; rfl
  · rfl
  · subst r; rfl
  · rfl

/-- Settles O24. -/
theorem returnFromTrap : Obligations.ReturnFromTrap := by
  unfold Obligations.ReturnFromTrap
  intro s raised
  refine ⟨fun h => ⟨s.returned, exec_eret_handler h, ?_, rfl, fun r hr => ?_, s.memoryKept_returned,
    fun g hg => s.core_returned_ne hg, ?_, fun w => ?_⟩, fun h => trapsOpen_of s _ _ (exec_eret_outside h) rfl h⟩
  · exact (s.slotAt_returned s.cur).trans (State.slot_mapSlot s _)
  · rw [State.slotAt_returned, State.slotAt_mapSlot, if_neg hr]
  · rw [State.here_returned]; rfl
  · rw [State.here_returned, Core.queue_restartParks]
    have hq : (s.here.setSlot s.cur.slot s.slot.eret).queue w = s.here.queue w := by cases w <;> rfl
    rw [hq]
    refine ⟨_, rfl, List.length_map _, fun k a b ha hb => ?_⟩
    rw [List.getElem?_map, ha] at hb
    obtain rfl : QRec.restarted s.slot s.refclk w a = b := by simpa using hb
    exact ⟨QRec.restarted_of_not, QRec.restarted_of_raised⟩

end Sys2Proof.Machine
end

section
/-! The pool windows (R60, R66, R67) and the tag-table instructions (R70, R182 to R184). -/

namespace Sys2Proof.Machine

/-! ## Pools that nothing holds (R175, R296, R324) -/

/-- A watermark register that is neither landing nor frozen holds no access. -/
theorem Wm.holds_eq_zero {w : Wm} (h : w.state ≠ 1 ∧ w.state ≠ 3) (g va n : Nat) : w.holds g va n = 0 := by
  unfold Wm.holds
  dsimp only
  split
  · split
    · exact absurd ‹_› h.1
    · exact absurd ‹_› h.2
    · rfl
  · rfl

theorem Core.wmHolds_eq_zero {c : Core} (h : ∀ w ∈ c.wms.toList, w.state ≠ 1 ∧ w.state ≠ 3) (g va n : Nat) (x : Option Nat) :
    c.wmHolds g va n x = 0 := by
  have hk : ∀ k, (c.wms.toList.getD k Wm.reset).holds g va n = 0 := fun k => by
    refine Wm.holds_eq_zero ?_ g va n
    rw [List.getD_eq_getElem?_getD]
    cases hw : c.wms.toList[k]? with
    | none => exact ⟨by decide, by decide⟩
    | some w => exact h w (List.mem_of_getElem? hw)
  unfold Core.wmHolds
  generalize List.range 8 = ks
  induction ks with
  | nil => rfl
  | cons k ks ih => rw [List.foldl_cons, hk]; simpa using ih

theorem State.entryGuards_idle {s : State} {h : Nat} (hm : (s.core h).mq.recs = []) (hc : (s.core h).cq.recs = []) (a : Nat) :
    s.entryGuards h a = false := by
  simp [State.entryGuards, hm, hc]

/-- The pools of a task's cluster as the statement has them: nothing holds an access, and no sibling's start is awaited. -/
structure State.QuietPools (s : State) (r : SlotRef) : Prop where
  poison : s.poison = []
  whole : ∀ h, h / 4 = r.core / 4 → (s.core h).degraded = false
  wms : ∀ h, h / 4 = r.core / 4 → ∀ w ∈ (s.core h).wms.toList, w.state ≠ 1 ∧ w.state ≠ 3
  vec : ∀ h, h / 4 = r.core / 4 → (s.core h).vq.recs = []
  mx : ∀ h, h / 4 = r.core / 4 → (s.core h).mq.recs = []
  copy : ∀ h, h / 4 = r.core / 4 → (s.core h).cq.recs = []
  saving : ∀ h, h / 4 = r.core / 4 → (s.core h).saving = false
  saved : ∀ v ∈ s.saved, v.queue ≠ (s.launchOf r).queue
  started : ∀ h, h / 4 = r.core / 4 → ∀ l ∈ (s.core h).slots.toList, l.occ = false ∧ l.held = false ∨ l.started = true

section
variable {s : State} {r : SlotRef} (q : s.QuietPools r)
include q

theorem State.QuietPools.pin {g : Nat} (hg : g / 4 = r.core / 4) (off : Nat) : s.pin g off = some s := by
  simp [State.pin, q.whole g hg]

theorem State.QuietPools.siblingIdle {g : Nat} (hg : g / 4 = r.core / 4) : s.siblingIdle r g = false := by
  have hslots : (s.core g).slots.toList.any (fun l => (l.occ || l.held) && (s.slotAt r).mate l && !l.started) = false := by
    rw [List.any_eq_false]
    intro l hl
    rcases q.started g hg l hl with ⟨ho, hh⟩ | hs
    · simp [ho, hh]
    · simp [hs]
  have hsaved : s.saved.any (fun v => v.core % 4 == g % 4 && v.queue == (s.launchOf r).queue &&
      (v.slots ++ v.held).any fun x => (s.slotAt r).mate x.2) = false := by
    rw [List.any_eq_false]
    intro v hv
    simp [q.saved v hv]
  simp only [State.siblingIdle, hslots, hsaved, q.saving g hg, Bool.or_false, Bool.and_false]

theorem State.QuietPools.guarded {g : Nat} (hg : g / 4 = r.core / 4) (off n : Nat) : s.guarded g off n = false := by
  simp only [State.guarded, List.any_eq_false, List.mem_range]
  intro k hk
  have hh : (g / 4 * 4 + k) / 4 = r.core / 4 := by omega
  simp [State.entryGuards_idle (q.mx _ hh) (q.copy _ hh)]

theorem State.QuietPools.vecGuarded (va n : Nat) : s.vecGuarded r va n = false := by
  simp [State.vecGuarded, q.vec r.core rfl]

/-- A task's own access to a quiet pool passes steps 6 and 7 of R174, at its own core or at a sibling's port. -/
theorem State.QuietPools.checkLate {g off : Nat} (hg : g / 4 = r.core / 4) (hoff : off < 2 ^ 20) (va n : Nat)
    {port : Option (Nat × Nat)} (hp : port = none ∨ port = some (g, off)) (k : Access) :
    s.checkLate r va (poolLoc g off) n port k .task = .ok (poolLoc g off) s := by
  have hhost : hostLoc (poolLoc g off) = false := decide_eq_false (by unfold poolLoc; omega)
  have hpool : (poolLoc g off - 4503599627370496) / 1048576 = g := by unfold poolLoc; omega
  have hown := Core.wmHolds_eq_zero (q.wms r.core rfl)
  have hfar := Core.wmHolds_eq_zero (q.wms g hg)
  rcases hp with rfl | rfl <;>
    simp [State.checkLate, Mode.task, hown, hfar, q.siblingIdle hg, hpool, q.guarded hg, q.vecGuarded, hhost, q.poison]

end

/-! ## The windows (R66, R67) -/

theorem Core.regionOk_own (c : Core) (off n : Nat) : c.regionOk false off n = true ↔
    (c.b0.toNat * 16384 ≤ off ∧ off + n ≤ c.b1.toNat * 16384) ∨ (c.b2.toNat * 16384 ≤ off ∧ off + n ≤ 1048576) := by
  simp [Core.regionOk]

theorem Core.regionOk_sibling (c : Core) (off n : Nat) : c.regionOk true off n = true ↔
    c.b0.toNat * 16384 ≤ off ∧ off + n ≤ c.b1.toNat * 16384 := by
  simp [Core.regionOk]

section
variable (s : State) (r : SlotRef) {va off : Nat} (n : Nat) {k : Access} (hva : va % 2 ^ 20 = off)
include hva

section
variable (hw : va / 2 ^ 52 = 0xFFF)
include hw

/-- A local window address whose middle bits are zero reaches the own pool where the region permits it. -/
theorem State.check_local (hmid : va / 2 ^ 20 % 2 ^ 32 = 0) (hk : k ≠ .fetch)
    (hr : (s.core r.core).regionOk false off n = true) (q : s.QuietPools r) :
    s.check r va n k .task = .ok (poolLoc r.core off) s := by
  have hoff : off < 2 ^ 20 := hva ▸ Nat.mod_lt _ (by decide)
  have hpass : (decide (k = .fetch) || decide (va / 2 ^ 20 % 2 ^ 32 ≠ 0) ||
      !((s.core r.core).regionOk false off n)) = false := by
    rw [hmid, hr]
    simp [hk]
  unfold State.check
  rw [if_pos hw]
  dsimp only
  rw [hva, hpass, if_neg Bool.false_ne_true, q.pin rfl]
  exact q.checkLate rfl hoff va n (.inl rfl) k

theorem State.check_local_trap (h : va / 2 ^ 20 % 2 ^ 32 ≠ 0 ∨ (s.core r.core).regionOk false off n = false) :
    s.check r va n k .task = .trap .poolRange := by
  have hfail : (decide (k = .fetch) || decide (va / 2 ^ 20 % 2 ^ 32 ≠ 0) ||
      !((s.core r.core).regionOk false off n)) = true := by
    rcases h with h | h
    · rw [decide_eq_true h]; simp
    · rw [h]; simp
  unfold State.check
  rw [if_pos hw]
  dsimp only
  rw [hva, hfail, if_pos rfl]

end

section
variable {c : Nat} (hw : va / 2 ^ 52 = 0xFFE) (hc : va / 2 ^ 20 % 4 = c)
include hw hc

/-- A sibling window address whose middle bits are zero reaches the pool that it names, in a cluster-granular launch and where
the region permits it. -/
theorem State.check_sibling (hmid : va / 2 ^ 22 % 2 ^ 30 = 0) (hk : k ≠ .fetch) (hgran : (s.launchOf r).cgran = true)
    (hr : (s.core (r.core / 4 * 4 + c)).regionOk true off n = true) (q : s.QuietPools r) :
    s.check r va n k .task = .ok (poolLoc (r.core / 4 * 4 + c) off) s := by
  have hoff : off < 2 ^ 20 := hva ▸ Nat.mod_lt _ (by decide)
  have hg : (r.core / 4 * 4 + c) / 4 = r.core / 4 := by omega
  have hpass : (decide (k = .fetch) || decide (va / 2 ^ 22 % 2 ^ 30 ≠ 0) || !(s.launchOf r).cgran ||
      !((s.core (r.core / 4 * 4 + c)).regionOk true off n)) = false := by
    rw [hmid, hr, hgran]
    simp [hk]
  unfold State.check
  rw [if_neg (by omega), if_pos hw]
  dsimp only
  rw [hva, hc, hpass, if_neg Bool.false_ne_true, q.pin hg]
  refine q.checkLate hg hoff va n ?_ k
  split
  · exact .inl rfl
  · exact .inr rfl

theorem State.check_sibling_trap (h : va / 2 ^ 22 % 2 ^ 30 ≠ 0 ∨ (s.launchOf r).cgran = false ∨
      (s.core (r.core / 4 * 4 + c)).regionOk true off n = false) : s.check r va n k .task = .trap .poolRange := by
  have hfail : (decide (k = .fetch) || decide (va / 2 ^ 22 % 2 ^ 30 ≠ 0) || !(s.launchOf r).cgran ||
      !((s.core (r.core / 4 * 4 + c)).regionOk true off n)) = true := by
    rcases h with h | h | h
    · rw [decide_eq_true h]; simp
    · rw [h]; simp
    · rw [h]; simp
  unfold State.check
  rw [if_neg (by omega), if_pos hw]
  dsimp only
  rw [hva, hc, hfail, if_pos rfl]

end
end

/-! ## The tag table (R70, R182 to R184) -/

/-- An operation that changes the executing core beside its slots and goes on to the next word. -/
theorem coreBecomes_of {s : State} {i : Instr} {f : Core → Core} (hf : ∀ c, (f c).slots = c.slots)
    (h : exec i s = .next (s.modCore s.cur.core f).retire) : CoreBecomes s i (f s.here) s.slot.next := by
  have hat : ∀ r, (s.modCore s.cur.core f).slotAt r = s.slotAt r := fun r => State.slotAt_modCore _ _ _ _ hf
  refine ⟨_, h, ?_, memoryKept_of rfl rfl (fun r => ?_) fun r => ?_⟩
  · show (s.modCore s.cur.core f).setSlot s.cur ((s.modCore s.cur.core f).slotAt s.cur).next = _
    rw [hat, State.setSlot, State.core_modCore_same, State.modCore, State.setCore_setCore]
    rfl
  all_goals
    unfold State.retire
    rw [State.slotAt_mapSlot]
    split
    · subst r; rw [← hat]; rfl
    · rw [hat]

/-- A table operation of a core whose tag table holds no entry that ECC cannot correct (R72). -/
theorem State.tagOp_of_good {s : State} (h : ∀ x, x ∈ s.here.tags → x.2.bad = false) (word : W32) (f : State → State) :
    s.tagOp word f = .next (f s) := by
  have hbad : s.here.tags.any (fun (_, e) => e.bad) = false := by
    rw [List.any_eq_false]
    intro x hx
    simp [h x hx]
  unfold State.tagOp
  rw [if_neg (by rw [hbad]; simp)]

/-- The window address of a placement (R181). -/
theorem windowOf_eq (off : BitVec 10) :
    0xFFF0000000000000 + w64 (off.toNat * 1024) = 0xFFF0000000000000 + off.setWidth 64 * 1024#64 := by
  congr 1

/-- The placement word, field by field (R181). -/
theorem placementWord_eq {j : Nat} (hj : j < 256) (e : TagEntry) :
    placementWord j e = (1#1 ++ (0#34 ++ (BitVec.ofNat 8 j ++ (e.len ++ e.off))) : BitVec (1 + (34 + (8 + (11 + 10))))) := by
  have hoff := e.off.isLt
  have hlen := e.len.isLt
  have h1 : e.len.toNat <<< 10 ||| e.off.toNat = e.len.toNat * 1024 + e.off.toNat := by
    rw [← Nat.shiftLeft_add_eq_or_of_lt hoff, Nat.shiftLeft_eq]
  have h2 : j <<< 21 ||| (e.len.toNat * 1024 + e.off.toNat) = j * 2097152 + (e.len.toNat * 1024 + e.off.toNat) := by
    rw [← Nat.shiftLeft_add_eq_or_of_lt (by omega), Nat.shiftLeft_eq]
  have h3 : 1 <<< 63 ||| (j * 2097152 + (e.len.toNat * 1024 + e.off.toNat)) =
      2 ^ 63 + (j * 2097152 + (e.len.toNat * 1024 + e.off.toNat)) := by
    rw [← Nat.shiftLeft_add_eq_or_of_lt (by omega), Nat.shiftLeft_eq, Nat.one_mul]
  apply BitVec.eq_of_toNat_eq
  simp only [BitVec.toNat_append, BitVec.toNat_ofNat, Nat.mod_eq_of_lt (show j < 2 ^ 8 from hj), Nat.zero_mod, Nat.zero_shiftLeft,
    Nat.zero_or]
  show _ = 1 <<< 63 ||| (j <<< 21 ||| (e.len.toNat <<< 10 ||| e.off.toNat))
  rw [h1, h2, h3]
  simp only [placementWord, w64, BitVec.toNat_ofNat]
  omega

section
variable {s : State} (hbad : ∀ x, x ∈ s.here.tags → x.2.bad = false)
include hbad

theorem puts_tlook (d a : XReg) (info : Bool) : Puts s (.tlook d a info) d (match s.here.tagFind (s.rx a) with
    | none => 0
    | some (i, e) => if info then placementWord i e else 0xFFF0000000000000 + w64 (e.off.toNat * 1024)) :=
  puts_of s _ d _ (by show execTlook d a info s = _; exact State.tagOp_of_good hbad _ _)

/-- TINS of a range that lies in the slot region (R183). -/
theorem exec_tins_good {a b : XReg} (hlo : s.here.b2.toNat * 16384 ≤ bits (s.rx b) 9 0 * 1024)
    (hhi : (bits (s.rx b) 9 0 + bits (s.rx b) 20 10) * 1024 ≤ 1048576) (hlen : bits (s.rx b) 20 10 ≠ 0) :
    exec (.tins a b) s = .next (s.modCore s.cur.core fun c => c.setTag (bits (s.rx b) 28 21)
      { key := s.rx a, off := BitVec.ofNat 10 (bits (s.rx b) 9 0), len := BitVec.ofNat 11 (bits (s.rx b) 20 10),
        valid := true, bad := false }).retire := by
  show execTins a b s = _
  refine (State.tagOp_of_good hbad _ _).trans ?_
  have h : (decide (bits (s.rx b) 9 0 * 1024 < s.here.b2.toNat * 16384) ||
      decide (1048576 < (bits (s.rx b) 9 0 + bits (s.rx b) 20 10) * 1024) || bits (s.rx b) 20 10 == 0) = false := by
    simp [hlen, Nat.not_lt.2 hlo, Nat.not_lt.2 hhi]
  exact congrArg _ (if_neg (by rw [h]; simp))

theorem exec_tins_outside {a b : XReg} (h : bits (s.rx b) 9 0 * 1024 < s.here.b2.toNat * 16384 ∨
      1048576 < (bits (s.rx b) 9 0 + bits (s.rx b) 20 10) * 1024 ∨ bits (s.rx b) 20 10 = 0) :
    exec (.tins a b) s = .next (s.trap .poolRange (s.rx b) (Instr.tins a b).encode) := by
  show execTins a b s = _
  refine (State.tagOp_of_good hbad _ _).trans ?_
  have h : (decide (bits (s.rx b) 9 0 * 1024 < s.here.b2.toNat * 16384) ||
      decide (1048576 < (bits (s.rx b) 9 0 + bits (s.rx b) 20 10) * 1024) || bits (s.rx b) 20 10 == 0) = true := by
    rcases h with h | h | h <;> simp [h]
  exact congrArg _ (if_pos h)

end

/-! ## The obligation -/

theorem State.quietPools_of {s : State} {r : SlotRef} (h : s.poison = [] ∧ ∀ h, h / 4 = r.core / 4 →
      (s.core h).degraded = false ∧ (∀ w, w ∈ (s.core h).wms.toList → w.state ≠ 1 ∧ w.state ≠ 3) ∧
      (s.core h).vq.recs = [] ∧ (s.core h).mq.recs = [] ∧ (s.core h).cq.recs = [] ∧ (s.core h).saving = false ∧
      (∀ v, v ∈ s.saved → v.queue ≠ (s.launchOf r).queue) ∧
      ∀ l, l ∈ (s.core h).slots.toList → l.occ = false ∧ l.held = false ∨ l.started = true) : s.QuietPools r where
  poison := h.1
  whole g hg := match h.2 g hg with | ⟨hdeg, _⟩ => hdeg
  wms g hg := match h.2 g hg with | ⟨_, hwm, _⟩ => hwm
  vec g hg := match h.2 g hg with | ⟨_, _, hvec, _⟩ => hvec
  mx g hg := match h.2 g hg with | ⟨_, _, _, hmx, _⟩ => hmx
  copy g hg := match h.2 g hg with | ⟨_, _, _, _, hcopy, _⟩ => hcopy
  saving g hg := match h.2 g hg with | ⟨_, _, _, _, _, hsaving, _⟩ => hsaving
  saved := match h.2 r.core rfl with | ⟨_, _, _, _, _, _, hsaved, _⟩ => hsaved
  started g hg := match h.2 g hg with | ⟨_, _, _, _, _, _, _, hstarted⟩ => hstarted

/-- The windows of R66 and R67, at an offset of a pool. -/
theorem poolWindows (s : State) (r : SlotRef) (c off n : Nat) (k : Access) (hc : c < 4) (hoff : off < 2 ^ 20) (hk : k ≠ .fetch) :
    let own := (s.core r.core).regionOk false off n
    let sib := (s.core (r.core / 4 * 4 + c)).regionOk true off n
    (own = true → s.QuietPools r → s.check r (0xFFF0000000000000 + off) n k .task = .ok (poolLoc r.core off) s) ∧
    (own = false → s.check r (0xFFF0000000000000 + off) n k .task = .trap .poolRange) ∧
    (∀ j, 0 < j → j < 2 ^ 32 → s.check r (0xFFF0000000000000 + j * 2 ^ 20 + off) n k .task = .trap .poolRange) ∧
    ((s.launchOf r).cgran = true → sib = true → s.QuietPools r →
      s.check r (0xFFE0000000000000 + c * 2 ^ 20 + off) n k .task = .ok (poolLoc (r.core / 4 * 4 + c) off) s) ∧
    ((s.launchOf r).cgran = false ∨ sib = false →
      s.check r (0xFFE0000000000000 + c * 2 ^ 20 + off) n k .task = .trap .poolRange) ∧
    (∀ j, 0 < j → j < 2 ^ 30 →
      s.check r (0xFFE0000000000000 + j * 2 ^ 22 + c * 2 ^ 20 + off) n k .task = .trap .poolRange) := by
  refine ⟨fun hr q => ?_, fun hr => ?_, fun j hj hj2 => ?_, fun hg hr q => ?_, fun hr => ?_, fun j hj hj2 => ?_⟩
  · exact s.check_local r n (by omega) (by omega) (by omega) hk hr q
  · exact s.check_local_trap r n (off := off) (by omega) (by omega) (.inr hr)
  · exact s.check_local_trap r n (off := off) (by omega) (by omega) (.inl (by omega))
  · exact s.check_sibling r n (by omega) (by omega) (by omega) (by omega) hk hg hr q
  · exact s.check_sibling_trap r n (off := off) (c := c) (by omega) (by omega) (by omega) (.inr hr)
  · exact s.check_sibling_trap r n (off := off) (c := c) (by omega) (by omega) (by omega) (.inl (by omega))

/-- Settles O18. -/
theorem poolWindowsAndTagTable : Obligations.PoolWindowsAndTagTable := by
  unfold Obligations.PoolWindowsAndTagTable
  refine ⟨fun s r c off n k hc hoff hk => ?_, fun s d a b hbad => ?_⟩
  · obtain ⟨h1, h2, h3, h4, h5, h6⟩ := poolWindows s r c off n k hc hoff hk
    intro g quiet pad slots
    have own : (s.core r.core).regionOk false off n = true ↔ pad r.core ∨ slots r.core := Core.regionOk_own _ _ _
    have sib : (s.core g).regionOk true off n = true ↔ pad g := Core.regionOk_sibling _ _ _
    refine ⟨fun h q => h1 (own.2 h) (State.quietPools_of q), fun hp hs => h2 ?_, h3,
      fun hg hp q => h4 hg (sib.2 hp) (State.quietPools_of q), fun h => h5 ?_, h6⟩
    · exact Bool.eq_false_iff.2 fun e => (own.1 e).elim hp hs
    · exact h.imp_right fun hp => Bool.eq_false_iff.2 fun e => hp (sib.1 e)
  · intro off len i del
    have hoff : off.toNat = bits (s.rx b) 9 0 := toNat_extract _ _ _ _ rfl
    have hlen : len.toNat = bits (s.rx b) 20 10 := toNat_extract _ _ _ _ rfl
    have hi : i.toNat = bits (s.rx b) 28 21 := toNat_extract _ _ _ _ rfl
    have hdel : del = bits (s.rx a) 28 21 := toNat_extract _ _ _ _ rfl
    have hlen0 : len = 0 ↔ bits (s.rx b) 20 10 = 0 := (bits_eq_zero_iff (s.rx b) 20 10 11 rfl).symm
    have look := puts_tlook hbad d a
    refine ⟨fun h => ?_, fun j e h hj => ?_, fun hlo hhi hne => ?_, fun h hinh => ?_, ?_⟩
    · rw [h] at look
      exact ⟨look false, look true⟩
    · rw [h] at look
      exact ⟨windowOf_eq e.off ▸ look false, placementWord_eq hj e ▸ look true⟩
    · rw [hoff] at hlo
      rw [hoff, hlen] at hhi
      have h := exec_tins_good hbad (a := a) hlo hhi fun e => hne (hlen0.2 e)
      rw [ofNat_bits _ 9 0 10 rfl, ofNat_bits _ 20 10 11 rfl] at h
      rw [hi]
      exact coreBecomes_of (f := fun c => c.setTag _ _) (fun _ => rfl) h
    · rw [hoff, hlen, hlen0] at h
      exact traps_of s _ _ _ (exec_tins_outside hbad h) rfl hinh
    · rw [hdel]
      exact coreBecomes_of (f := fun c => c.setTag (bits (s.rx a) 28 21) { c.tag (bits (s.rx a) 28 21) with valid := false })
        (fun _ => rfl) (by show execTdel a s = _; exact State.tagOp_of_good hbad _ _)

end Sys2Proof.Machine
end

section
/-! The mailbox commands on the device (R400, R406, R409, R419 to R421, R429). -/

namespace Sys2Proof.Machine

/-! ## A command in progress and its answer (R419, R421) -/

/-- The command that each OPCODE of R420 names. -/
def hostCommands : List (Nat × Instr) :=
  [(1, .create), (2, .destroy), (3, .qreset), (4, .preempt), (5, .resume), (6, .pkgreset), (7, .update), (8, .slotwrite),
   (9, .slotverify), (10, .setslot), (11, .pcap), (12, .setparam), (13, .snapshot), (14, .devread), (15, .devwrite),
   (16, .clearmap), (17, .group)]

/-- Each command acts only on a command in progress of its own OPCODE. -/
theorem exec_hostCommand {k : Nat} {i : Instr} (h : (k, i) ∈ hostCommands) (s : State) :
    ∃ f, exec i s = occurs (s.onCmd k f) s := by
  simp only [hostCommands, List.mem_cons, Prod.mk.injEq, List.not_mem_nil, or_false] at h
  rcases h with ⟨rfl, rfl⟩ | ⟨rfl, rfl⟩ | ⟨rfl, rfl⟩ | ⟨rfl, rfl⟩ | ⟨rfl, rfl⟩ | ⟨rfl, rfl⟩ | ⟨rfl, rfl⟩ | ⟨rfl, rfl⟩ | ⟨rfl, rfl⟩ |
    ⟨rfl, rfl⟩ | ⟨rfl, rfl⟩ | ⟨rfl, rfl⟩ | ⟨rfl, rfl⟩ | ⟨rfl, rfl⟩ | ⟨rfl, rfl⟩ | ⟨rfl, rfl⟩ | ⟨rfl, rfl⟩ <;>
    exact ⟨_, rfl⟩

/-- The command that is in progress is the host's own, of this device, and no other waits. -/
structure State.HostCmd (s : State) (c : Cmd) : Prop where
  cmd : s.mbox.cmd = some c
  here : c.away = false
  src : c.src = none
  wait : s.cmdWait = []

/-- A mailbox with the command in progress answered. -/
def Mailbox.answered (m : Mailbox) (c : Cmd) (r : BitVec 16) : Mailbox :=
  { m with cmd := none, go := false, result := r, rtag := c.tag }

section
variable {s : State} {c : Cmd} (h : s.HostCmd c)
include h

theorem State.HostCmd.idle {k : Nat} {f : Cmd → Option State} {i : Instr} (hi : exec i s = occurs (s.onCmd k f) s)
    (hk : c.opcode ≠ k) : Idle s i := by
  have hnone : s.onCmd k f = none := by simp [State.onCmd, h.cmd, hk]
  unfold Idle
  rw [hi, hnone]
  rfl

theorem State.HostCmd.happens {k : Nat} {f : Cmd → Option State} {i : Instr} {t : State}
    (hi : exec i s = occurs (s.onCmd k f) s) (hk : c.opcode = k) (hf : f c = some t) : Happens s i t := by
  have hsome : s.onCmd k f = some t := by simp [State.onCmd, h.cmd, hk, h.here, hf]
  unfold Happens
  rw [hi, hsome]
  rfl

theorem State.HostCmd.answer (r : BitVec 16) : s.answerCmd r.toNat [] = { s with mbox := s.mbox.answered c r } :=
  State.answerCmd_host h.wait h.cmd h.src

theorem State.HostCmd.answerWith (r : BitVec 16) (v : W64) :
    s.answerCmd r.toNat [v] = { s with mbox := { s.mbox.answered c r with res := tset s.mbox.res 0 v } } :=
  State.answerCmd_host h.wait h.cmd h.src

end

/-- A state with the mailbox of another. -/
theorem State.HostCmd.of_eq {s t : State} {c : Cmd} (h : s.HostCmd c) (hm : t.mbox = s.mbox) (hw : t.cmdWait = s.cmdWait) :
    t.HostCmd c := ⟨hm ▸ h.cmd, h.here, h.src, hw ▸ h.wait⟩

/-! ## PKGRESET, PCAP and SETPARAM (R362, R429, R93, R404, R382) -/

section
variable {s : State} {c : Cmd} (h : s.HostCmd c)
include h

theorem pkgreset_happens (hop : c.opcode = 6) : Happens s .pkgreset { s with mbox := s.mbox.answered c 0 }.packageReset := by
  refine h.happens (k := 6) rfl hop ?_
  exact congrArg (fun t : State => some t.packageReset) (State.putAnswer_host h.cmd h.src 0 [])

theorem pcap_happens (hop : c.opcode = 11) (hw : 800 ≤ (c.arg 0).toNat ∧ (c.arg 0).toNat ≤ 1950) :
    Happens s .pcap { s with pcap := (c.arg 0).toNat, mbox := s.mbox.answered c 0 } := by
  refine h.happens (k := 11) rfl hop ((if_pos hw).trans ?_)
  exact congrArg some ((h.of_eq (t := { s with pcap := (c.arg 0).toNat }) rfl rfl).answer 0)

theorem pcap_refused (hop : c.opcode = 11) (hw : ¬ (800 ≤ (c.arg 0).toNat ∧ (c.arg 0).toNat ≤ 1950)) :
    Happens s .pcap { s with mbox := s.mbox.answered c 2 } :=
  h.happens (k := 11) rfl hop ((if_neg hw).trans (congrArg some (h.answer 2)))

/-- What SETPARAM comes to, by the number of the parameter. -/
theorem setparam_happens {t : State} (hop : c.opcode = 12) (ht : (match (c.arg 0).toNat with
      | 1 => if 1 ≤ (c.arg 1).toNat ∧ (c.arg 1).toNat ≤ 65535 then
          some (({ s with shootWait := (c.arg 1).toNat } : State).answerCmd 0 [c.arg 1]) else some (s.answerCmd 2 [])
      | 2 => if 1 ≤ (c.arg 1).toNat ∧ (c.arg 1).toNat ≤ 168 then
          some (({ s with ftper := (c.arg 1).toNat } : State).answerCmd 0 [c.arg 1]) else some (s.answerCmd 2 [])
      | 3 => if !(steplenOk (c.arg 1).toNat) then some (s.answerCmd 2 [])
        else if !s.queues.isEmpty then some (s.answerCmd 4 [])
        else some (({ s with steplen := (c.arg 1).toNat } : State).answerCmd 0 [c.arg 1])
      | _ => some (s.answerCmd 2 [])) = some t) : Happens s .setparam t :=
  h.happens (k := 12) rfl hop ht

theorem setparam_shootWait (hop : c.opcode = 12) (ha : c.arg 0 = 1)
    (hv : 1 ≤ (c.arg 1).toNat ∧ (c.arg 1).toNat ≤ 65535) : Happens s .setparam
      { s with shootWait := (c.arg 1).toNat, mbox := { s.mbox.answered c 0 with res := tset s.mbox.res 0 (c.arg 1) } } := by
  refine setparam_happens h hop ?_
  rw [ha]
  exact (if_pos hv).trans (congrArg some ((h.of_eq (t := { s with shootWait := (c.arg 1).toNat }) rfl rfl).answerWith 0 _))

theorem setparam_ftper (hop : c.opcode = 12) (ha : c.arg 0 = 2)
    (hv : 1 ≤ (c.arg 1).toNat ∧ (c.arg 1).toNat ≤ 168) : Happens s .setparam
      { s with ftper := (c.arg 1).toNat, mbox := { s.mbox.answered c 0 with res := tset s.mbox.res 0 (c.arg 1) } } := by
  refine setparam_happens h hop ?_
  rw [ha]
  exact (if_pos hv).trans (congrArg some ((h.of_eq (t := { s with ftper := (c.arg 1).toNat }) rfl rfl).answerWith 0 _))

section
variable (hop : c.opcode = 12) (ha : c.arg 0 = 3) (hv : steplenOk (c.arg 1).toNat = true)
include hop ha hv

theorem setparam_steplen (hq : s.queues = []) : Happens s .setparam
    { s with steplen := (c.arg 1).toNat, mbox := { s.mbox.answered c 0 with res := tset s.mbox.res 0 (c.arg 1) } } := by
  refine setparam_happens h hop ?_
  rw [ha]
  refine (if_neg (by simp [hv])).trans ((if_neg (by simp [hq])).trans ?_)
  exact congrArg some ((h.of_eq (t := { s with steplen := (c.arg 1).toNat }) rfl rfl).answerWith 0 _)

theorem setparam_queues (hq : s.queues ≠ []) : Happens s .setparam { s with mbox := s.mbox.answered c 4 } := by
  refine setparam_happens h hop ?_
  rw [ha]
  exact (if_neg (by simp [hv])).trans ((if_pos (by simp [hq])).trans (congrArg some (h.answer 4)))

end

/-- A parameter that there is not, or a value outside its limits. -/
theorem setparam_refused (hop : c.opcode = 12) (hbad : (c.arg 0 = 1 ∧ ¬ (1 ≤ (c.arg 1).toNat ∧ (c.arg 1).toNat ≤ 65535)) ∨
      (c.arg 0 = 2 ∧ ¬ (1 ≤ (c.arg 1).toNat ∧ (c.arg 1).toNat ≤ 168)) ∨ (c.arg 0 = 3 ∧ steplenOk (c.arg 1).toNat = false) ∨
      c.arg 0 = 0 ∨ 4 ≤ (c.arg 0).toNat) : Happens s .setparam { s with mbox := s.mbox.answered c 2 } := by
  refine setparam_happens h hop ?_
  have ans : some (s.answerCmd 2 []) = some { s with mbox := s.mbox.answered c 2 } := congrArg some (h.answer 2)
  rcases hbad with ⟨ha, hv⟩ | ⟨ha, hv⟩ | ⟨ha, hv⟩ | ha | ha
  · rw [ha]; exact (if_neg hv).trans ans
  · rw [ha]; exact (if_neg hv).trans ans
  · rw [ha]; exact (if_pos (by simp [hv])).trans ans
  · rw [ha]; exact ans
  · split
    · omega
    · omega
    · omega
    · exact ans

/-! ## SNAPSHOT (R406) and GROUP (R409) -/

theorem snapshot_happens (hop : c.opcode = 13) : Happens s .snapshot
    { (if bitOf s.snapctl 0 && bits s.snapctl 3 2 == 3 then { s with snapDue := some s.refclk } else s : State) with
      mbox := s.mbox.answered c 0 } := by
  refine h.happens (k := 13) rfl hop (congrArg some ?_)
  split
  · exact (h.of_eq (t := { s with snapDue := some s.refclk }) rfl rfl).answer 0
  · exact h.answer 0

theorem group_happens (hop : c.opcode = 17) (v : W64)
    (hv : v = w64 (2 ^ (s.members.length + 1) - 1 + s.refusedIds % 65536 * 65536)) : Happens s .group
      { s with mbox := { s.mbox.answered c 0 with res := tset s.mbox.res 0 v } } :=
  h.happens (k := 17) rfl hop (hv ▸ congrArg some (h.answerWith 0 _))

/-! ## DEVREAD and DEVWRITE (R420) -/

theorem devread_refused (hop : c.opcode = 14) (ha : (c.arg 0).toNat % 8 ≠ 0 ∨ (0xF000000000000 ≤ (c.arg 0).toNat ∧
      isDevReg (c.arg 0).toNat = false ∧ Config.inFuses (c.arg 0).toNat = true)) :
    Happens s .devread { s with mbox := s.mbox.answered c 2 } := by
  refine h.happens (k := 14) rfl hop (congrArg some ((if_pos ?_).trans (h.answer 2)))
  rcases ha with ha | ⟨hlo, hreg, hfuse⟩
  · simp [ha]
  · simp [hlo, hreg, hfuse]

/-- A multiple of 8 outside the fuse block is read. -/
theorem devread_happens (hop : c.opcode = 14) (ha : (c.arg 0).toNat % 8 = 0) (hb : (c.arg 0).toNat < 0xF000000000000 ∨
      isDevReg (c.arg 0).toNat = true ∨ Config.inFuses (c.arg 0).toNat = false) {v : W64} (hv : s.devRead (c.arg 0).toNat = v) :
    Happens s .devread { s with mbox := { s.mbox.answered c 0 with res := tset s.mbox.res 0 v } } := by
  refine h.happens (k := 14) rfl hop (congrArg some ((if_neg ?_).trans (hv ▸ h.answerWith 0 _)))
  rcases hb with hb | hb | hb
  · simp [ha, Nat.not_le.2 hb]
  · simp [ha, hb]
  · simp [ha, hb]

theorem devwrite_happens (hop : c.opcode = 15) {t : State} (ht : s.devWrite (c.arg 0).toNat (c.arg 1) = some t)
    (hm : t.mbox = s.mbox) (hw : t.cmdWait = s.cmdWait) : Happens s .devwrite { t with mbox := t.mbox.answered c 0 } := by
  refine h.happens (k := 15) rfl hop ?_
  rw [ht]
  exact congrArg some ((h.of_eq hm hw).answer 0)

theorem devwrite_refused (hop : c.opcode = 15) (ht : s.devWrite (c.arg 0).toNat (c.arg 1) = none) :
    Happens s .devwrite { s with mbox := s.mbox.answered c 2 } := by
  refine h.happens (k := 15) rfl hop ?_
  rw [ht]
  exact congrArg some (h.answer 2)

/-! ## CLEARMAP (R400) -/

theorem clearmap_refused (hop : c.opcode = 16)
    (ha : 8 ≤ (c.arg 0).toNat ∨ 2 ≤ (c.arg 1).toNat ∨ 786432 ≤ (c.arg 2).toNat) :
    Happens s .clearmap { s with mbox := s.mbox.answered c 2 } := by
  refine h.happens (k := 16) rfl hop ((if_pos ?_).trans (congrArg some (h.answer 2)))
  simpa [or_assoc] using ha

end

/-- The device registers read where each of them lies (R420). -/
theorem State.devRead_low (s : State) {a : Nat} (h : a < 0xF000000000000) : s.devRead a = 0 := if_pos h

theorem isDevReg_iff (a : Nat) : isDevReg a = true ↔ 0xF000000000000 ≤ a ∧ (a - 0xF000000000000 < 0x38 ∨ a - 0xF000000000000 = 0x1000 ∨
    (0x100000 ≤ a - 0xF000000000000 ∧ a - 0xF000000000000 < 0x180000) ∨
    (0x200000 ≤ a - 0xF000000000000 ∧ a - 0xF000000000000 < 0x280000 ∧ 0x100 ≤ (a - 0xF000000000000) % 0x10000 ∧
      (a - 0xF000000000000) % 0x10000 < 0x1C0) ∨ a - 0xF000000000000 = 0x300000 ∨ a - 0xF000000000000 = 0x300008) := by
  simp only [isDevReg, Bool.and_eq_true, Bool.or_eq_true, decide_eq_true_eq, beq_iff_eq, or_assoc]

/-- An address that holds no register reads 0. -/
theorem State.devRead_none (s : State) {a : Nat} (h : isDevReg a = false) : s.devRead a = 0 := by
  rw [← Bool.not_eq_true, isDevReg_iff] at h
  unfold State.devRead
  dsimp only
  by_cases hlo : a < 0xF000000000000
  · rw [if_pos hlo]
  · simp only [not_and, not_or] at h
    obtain ⟨h1, h2, h3, h4, h5, h6⟩ := h (Nat.not_lt.1 hlo)
    rw [if_neg hlo, if_neg h1, if_neg h2, if_neg fun e => h3 e.1 e.2, if_neg fun e => h4 e.1 e.2.1 e.2.2.1 e.2.2.2, if_neg h5,
      if_neg h6]

/-- The monitor register of a cluster (R407). -/
theorem State.devRead_mon (s : State) {k : Nat} (hk : k < 192) :
    s.devRead (0xF000000200100 + 0x10000 * (k / 24) + 8 * (k % 24)) = (s.cluster k).mon := by
  have h1 : 0xF000000200100 + 0x10000 * (k / 24) + 8 * (k % 24) - 0xF000000000000 = 0x200100 + 0x10000 * (k / 24) + 8 * (k % 24) := by
    omega
  have h2 : (0x200100 + 0x10000 * (k / 24) + 8 * (k % 24) - 0x200000) / 0x10000 * 24 +
      ((0x200100 + 0x10000 * (k / 24) + 8 * (k % 24)) % 0x10000 - 0x100) / 8 = k := by omega
  unfold State.devRead
  dsimp only
  rw [h1, if_neg (by omega), if_neg (by omega), if_neg (by omega), if_neg (by omega), if_pos (by omega), h2]

/-- NBCTL of a die (R352). -/
theorem State.devRead_nbctl (s : State) {d : Nat} (hd : d < 8) : s.devRead (0xF000000100000 + 0x10000 * d) = (s.die d).nbctl := by
  have h1 : 0xF000000100000 + 0x10000 * d - 0xF000000000000 = 0x100000 + 0x10000 * d := by omega
  have h2 : (0x100000 + 0x10000 * d - 0x100000) / 0x10000 = d := by omega
  have h3 : (0x100000 + 0x10000 * d - 0x100000) % 0x10000 = 0 := by omega
  unfold State.devRead
  dsimp only
  rw [h1, if_neg (by omega), if_neg (by omega), if_neg (by omega), if_pos (by omega), h2, h3]
  rfl

/-- NBWDOG of a die is written with its least value respected (R351). -/
theorem State.devWrite_nbwdog (s : State) {d : Nat} (hd : d < 8) (v : W64) : s.devWrite (0xF000000100008 + 0x10000 * d) v =
    some (s.modDie d fun x => { x with nbwdog := BitVec.ofNat 64 (max 1024 (v.toNat % 2 ^ 32)) }) := by
  have h1 : 0xF000000100008 + 0x10000 * d - 0xF000000000000 = 0x100008 + 0x10000 * d := by omega
  have h2 : (0x100008 + 0x10000 * d - 0x100000) / 0x10000 = d := by omega
  have h3 : (0x100008 + 0x10000 * d - 0x100000) % 0x10000 = 8 := by omega
  have h4 : bits v 31 0 = v.toNat % 2 ^ 32 := by simp [bits]
  unfold State.devWrite
  dsimp only
  rw [h1, if_neg (by omega), if_pos (by omega), h2, h3]
  simp only [Die.setNimbus, Option.map_some, h4]
  rfl

/-- The ways of the disable bitmap are put out of service again, one after the other: nothing of the mailbox or of the lines has
changed, and the bitmap holds no other way. -/
theorem State.disableWays_keeps (ws : List (Nat × Nat × Nat)) (s : State) :
    let t := ws.foldl (fun s (d, set, way) => s.disableWay d set way) s
    t.mbox = s.mbox ∧ t.cmdWait = s.cmdWait ∧ t.flashLines = s.flashLines ∧
      ∀ x, x ∈ t.flashWays → x ∈ s.flashWays ∨ x ∈ ws := by
  induction ws generalizing s with
  | nil => exact ⟨rfl, rfl, rfl, fun x hx => .inl hx⟩
  | cons w ws ih =>
    obtain ⟨d, set, way⟩ := w
    obtain ⟨hm, hw, hl, hx⟩ := ih (s.disableWay d set way)
    refine ⟨hm, hw, hl, fun x hmem => ?_⟩
    rcases hx x hmem with hmem | hmem
    · have hway : x ∈ (if s.flashWays.contains (d, set, way) then s.flashWays else s.flashWays ++ [(d, set, way)]) := hmem
      split at hway
      · exact .inl hway
      · rcases List.mem_append.1 hway with hway | hway
        · exact .inl hway
        · exact .inr (List.mem_cons.2 (.inl (List.mem_singleton.1 hway)))
    · exact .inr (List.mem_cons_of_mem _ hmem)

theorem State.restoreWays_keeps (s : State) : s.restoreWays.mbox = s.mbox ∧ s.restoreWays.cmdWait = s.cmdWait ∧
    s.restoreWays.flashLines = s.flashLines ∧ ∀ x, x ∈ s.restoreWays.flashWays → x ∈ s.flashWays := by
  obtain ⟨hm, hwait, hl, hx⟩ := State.disableWays_keeps s.flashWays
    { s with dies := s.dies.map fun (k, d) => (k, { d with l2off := [], slices := 0 }) }
  exact ⟨hm, hwait, hl, fun x hmem => or_self_iff.1 (hx x hmem)⟩

section
variable {s : State} {c : Cmd} (h : s.HostCmd c) (hop : c.opcode = 16) (hd : (c.arg 0).toNat < 8)
  (hi : (c.arg 2).toNat < 786432)
include h hop hd hi

theorem clearmap_lines (hk : c.arg 1 = 1) : ∃ t, Happens s .clearmap t ∧ t.mbox = s.mbox.answered c 0 ∧
    t.flashWays = s.flashWays ∧ ∀ x, x ∈ t.flashLines ↔
      x ∈ s.flashLines ∧ x ≠ (96 * (c.arg 0).toNat + (c.arg 2).toNat / 8192, (c.arg 2).toNat % 8192) := by
  have h1 : (c.arg 1).toNat = 1 := by rw [hk]; rfl
  have hf : (decide (8 ≤ (c.arg 0).toNat) || decide (2 ≤ (c.arg 1).toNat) || decide (786432 ≤ (c.arg 2).toNat)) = false := by
    simp [hd, hi, h1]
  have hl : ∀ ls, ({ s with flashLines := ls } : State).HostCmd c := fun _ => h.of_eq rfl rfl
  refine ⟨_, h.happens (k := 16) rfl hop ((if_neg (by rw [hf]; simp)).trans ((if_neg (by omega)).trans
    (congrArg some ((hl _).answer 0)))), rfl, rfl, fun x => ?_⟩
  simp [List.mem_filter]

theorem clearmap_ways (hk : c.arg 1 = 0) : ∃ t, Happens s .clearmap t ∧ t.mbox = s.mbox.answered c 0 ∧
    t.flashLines = s.flashLines ∧ ((c.arg 0).toNat, (c.arg 2).toNat / 16, (c.arg 2).toNat % 16) ∉ t.flashWays := by
  have h1 : (c.arg 1).toNat = 0 := by rw [hk]; rfl
  have hf : (decide (8 ≤ (c.arg 0).toNat) || decide (2 ≤ (c.arg 1).toNat) || decide (786432 ≤ (c.arg 2).toNat)) = false := by
    simp [hd, hi, h1]
  have hr : ∀ ws, ({ s with flashWays := ws } : State).restoreWays.HostCmd c := fun ws => by
    obtain ⟨hm, hwait, -⟩ := State.restoreWays_keeps { s with flashWays := ws }
    exact h.of_eq hm hwait
  obtain ⟨hm, -, hl, hx⟩ := State.restoreWays_keeps
    { s with flashWays := s.flashWays.filter (· != ((c.arg 0).toNat, (c.arg 2).toNat / 16, (c.arg 2).toNat % 16)) }
  refine ⟨_, h.happens (k := 16) rfl hop ((if_neg (by rw [hf]; simp)).trans ((if_pos h1).trans
    (congrArg some ((hr _).answer 0)))), congrArg (fun m : Mailbox => m.answered c 0) hm, hl, fun hmem => ?_⟩
  simpa using hx _ hmem

end

/-! ## The obligation -/

theorem bitOf_eq_getLsbD {w : Nat} (x : BitVec w) (n : Nat) : bitOf x n = x.getLsbD n := by
  simp [bitOf, BitVec.getLsbD, Nat.testBit_eq_decide_div_mod_eq]
  rfl

/-- SNAPCTL enables a snapshot at the host's command (R406). -/
theorem snapMode_iff (x : W64) : (bitOf x 0 && bits x 3 2 == 3) = true ↔ x.getLsbD 0 = true ∧ x.extractLsb' 2 2 = 3 := by
  rw [Bool.and_eq_true, beq_iff_eq, bitOf_eq_getLsbD, ← toNat_extract x 3 2 2 rfl, ← BitVec.toNat_inj]
  rfl

theorem steplenOk_iff {n : Nat} : steplenOk n = true ↔ n % 256 = 0 ∧ 256 ≤ n ∧ n ≤ 65536 := by
  simp [steplenOk]

/-- A register at a fixed address. -/
theorem devread_register {s : State} {c : Cmd} (h : s.HostCmd c) (hop : c.opcode = 14) {a v : W64} (ha : c.arg 0 = a)
    (h8 : a.toNat % 8 = 0) (hreg : isDevReg a.toNat = true) (hv : s.devRead a.toNat = v) :
    Happens s .devread { s with mbox := { s.mbox.answered c 0 with res := tset s.mbox.res 0 v } } :=
  devread_happens h hop (ha ▸ h8) (.inr (.inl (ha ▸ hreg))) (ha ▸ hv)

/-- Settles O50. -/
theorem deviceCommands : Obligations.DeviceCommands := by
  unfold Obligations.DeviceCommands
  intro s c hcmd hhere hsrc hwait arg ans ans1 commands v
  have h : s.HostCmd c := ⟨hcmd, hhere, hsrc, hwait⟩
  have hv : v = (c.arg 1).toNat := rfl
  have harg : arg = c.arg := rfl
  clear_value v arg
  subst harg hv
  refine ⟨fun k i hi hop => ?_, fun hop => ?_, fun hop => ⟨fun hlo hhi => ?_, fun hw => ?_⟩,
    fun hop => ⟨fun ha hlo hhi => ?_, fun ha hlo hhi => ?_, fun ha h256 hlo hhi => ⟨fun hq => ?_, fun hq => ?_⟩, fun hbad => ?_⟩,
    fun hop => ⟨fun hen hmode => ?_, fun hoff => ?_⟩,
    fun hop => ⟨devread_refused h hop, fun ha hb => ?_, fun k hk ha => ?_, fun ha => ?_, fun ha => ?_, fun d hd ha => ?_,
      fun ha => ?_⟩, fun hop => ⟨fun ha => ?_, fun d hd ha => ?_, fun ha => ?_⟩,
    fun hop => ⟨clearmap_refused h hop, fun hd hk hi => clearmap_lines h hop hd hi hk,
      fun hd hk hi => clearmap_ways h hop hd hi hk⟩, fun hop _ => group_happens h hop _ rfl⟩
  · obtain ⟨f, hf⟩ := exec_hostCommand hi s
    exact h.idle hf hop
  · exact ⟨_, pkgreset_happens h hop, rfl, rfl, rfl, rfl, rfl, rfl, rfl, rfl, rfl⟩
  · exact pcap_happens h hop ⟨hlo, hhi⟩
  · exact pcap_refused h hop (by omega)
  · exact setparam_shootWait h hop ha ⟨hlo, hhi⟩
  · exact setparam_ftper h hop ha ⟨hlo, hhi⟩
  · exact setparam_steplen h hop ha (steplenOk_iff.2 ⟨h256, hlo, hhi⟩) hq
  · exact setparam_queues h hop ha (steplenOk_iff.2 ⟨h256, hlo, hhi⟩) hq
  · refine setparam_refused h hop ?_
    rcases hbad with ⟨ha, hv⟩ | ⟨ha, hv⟩ | ⟨ha, hv⟩ | ha | ha
    · exact .inl ⟨ha, by omega⟩
    · exact .inr (.inl ⟨ha, by omega⟩)
    · exact .inr (.inr (.inl ⟨ha, Bool.eq_false_iff.2 fun e => by have := steplenOk_iff.1 e; omega⟩))
    · exact .inr (.inr (.inr (.inl ha)))
    · exact .inr (.inr (.inr (.inr ha)))
  · have hsnap := snapshot_happens h hop
    rwa [if_pos ((snapMode_iff s.snapctl).2 ⟨hen, hmode⟩)] at hsnap
  · have hsnap := snapshot_happens h hop
    rwa [if_neg fun e => ?_] at hsnap
    obtain ⟨hen, hmode⟩ := (snapMode_iff s.snapctl).1 e
    exact hoff.elim (fun hoff => Bool.false_ne_true (hoff.symm.trans hen)) fun hoff => hoff hmode
  · refine devread_happens h hop ha (hb.imp_right fun hb => .inr hb.2) ?_
    rcases hb with hb | ⟨hb, -⟩
    · exact s.devRead_low hb
    · exact s.devRead_none hb
  · refine devread_happens h hop (by omega) (.inr (.inl ((isDevReg_iff _).2 (by omega)))) ?_
    rw [ha]
    exact s.devRead_mon hk
  · exact devread_register h hop ha (by simp) (by simp [isDevReg]) (by simp [State.devRead])
  · exact devread_register h hop ha (by simp) (by simp [isDevReg]) (by simp [State.devRead])
  · refine devread_happens h hop (by omega) (.inr (.inl ((isDevReg_iff _).2 (by omega)))) ?_
    rw [ha]
    exact s.devRead_nbctl hd
  · exact devread_register h hop ha (by simp) (by simp [isDevReg]) (by simp [State.devRead]; rfl)
  · refine devwrite_happens h hop (t := { s with snapstep := c.arg 1 }) ?_ rfl rfl
    rw [ha]
    simp [State.devWrite]
  · refine devwrite_happens h hop (t := s.modDie d _) ?_ rfl rfl
    rw [ha]
    exact s.devWrite_nbwdog hd _
  · refine devwrite_refused h hop ?_
    rcases ha with ha | ha
    · exact if_pos ha
    · rw [ha]
      simp [State.devWrite]

end Sys2Proof.Machine
end

section
/-! Pieces of an image that rise without overlapping, and what memory holds after they have been written (R360, R373, R374). -/

namespace Sys2Proof.Machine

/-! ## Pieces that rise between two offsets -/

/-- The pieces lie between two offsets, and each begins at or behind the end of every earlier one. -/
structure Rising (lo hi : Nat) (ps : List Piece) : Prop where
  within : ∀ p ∈ ps, lo ≤ p.1 ∧ p.1 + p.2.1 ≤ hi
  apart : ps.Pairwise fun p q => p.1 + p.2.1 ≤ q.1

theorem Rising.nil (lo hi : Nat) : Rising lo hi [] := ⟨nofun, .nil⟩

theorem Rising.single (o k v : Nat) : Rising o (o + k) [(o, k, v)] :=
  ⟨fun p hp => by obtain rfl := List.mem_singleton.1 hp; exact ⟨Nat.le_refl _, Nat.le_refl _⟩, List.pairwise_singleton _ _⟩

theorem Rising.mono {lo hi lo' hi' : Nat} {ps : List Piece} (h : Rising lo hi ps) (hl : lo' ≤ lo) (hh : hi ≤ hi') :
    Rising lo' hi' ps :=
  ⟨fun p hp => ⟨Nat.le_trans hl (h.within p hp).1, Nat.le_trans (h.within p hp).2 hh⟩, h.apart⟩

theorem Rising.append {lo mid mid' hi : Nat} {ps qs : List Piece} (h : Rising lo mid ps) (k : Rising mid' hi qs)
    (hm : mid ≤ mid') (hl : lo ≤ mid') (hh : mid ≤ hi) : Rising lo hi (ps ++ qs) where
  within p hp := (List.mem_append.1 hp).elim
    (fun hp => ⟨(h.within p hp).1, Nat.le_trans (h.within p hp).2 hh⟩)
    fun hp => ⟨Nat.le_trans hl (k.within p hp).1, (k.within p hp).2⟩
  apart := List.pairwise_append.2 ⟨h.apart, k.apart, fun p hp q hq =>
    Nat.le_trans (h.within p hp).2 (Nat.le_trans hm (k.within q hq).1)⟩

/-- Blocks of one size, one for each entry of a list. -/
theorem Rising.blocks {α : Type} (base size : Nat) (f : α × Nat → List Piece)
    (hf : ∀ x k, Rising (base + size * k) (base + size * (k + 1)) (f (x, k))) (xs : List α) (j : Nat) :
    Rising (base + size * j) (base + size * (j + xs.length)) ((xs.zipIdx j).flatMap f) := by
  induction xs generalizing j with
  | nil => exact Rising.nil _ _
  | cons x xs ih =>
    have hstep : size * j ≤ size * (j + 1) := Nat.mul_le_mul_left _ (by omega)
    have hend : size * (j + 1) ≤ size * (j + 1 + xs.length) := Nat.mul_le_mul_left _ (by omega)
    rw [List.zipIdx_cons, List.flatMap_cons, List.length_cons, Nat.add_comm xs.length, ← Nat.add_assoc]
    exact (hf x j).append (ih (j + 1)) (Nat.le_refl _) (by omega) (by omega)

/-- A row of pieces of one width at one distance. -/
theorem Rising.row (base size width : Nat) (hw : width ≤ size) (v : Nat → Nat) (n : Nat) :
    Rising base (base + size * n) ((List.range n).map fun k => (base + size * k, width, v k)) := by
  induction n with
  | zero => exact Rising.nil _ _
  | succ n ih =>
    have hstep : size * (n + 1) = size * n + size := Nat.mul_succ _ _
    rw [List.range_succ, List.map_append]
    exact ih.append (Rising.single _ _ _ |>.mono (Nat.le_refl _) (hi' := base + size * (n + 1)) (by omega)) (Nat.le_refl _)
      (by omega) (by omega)

/-- A row of pieces with the values of a list. -/
theorem Rising.values {α : Type} (base size width : Nat) (hw : width ≤ size) (v : α → Nat) (xs : List α) :
    Rising base (base + size * xs.length) (xs.zipIdx.map fun (x, k) => (base + size * k, width, v x)) := by
  have h := Rising.blocks base size (fun (x, k) => [(base + size * k, width, v x)])
    (fun x k => (Rising.single _ _ _).mono (Nat.le_refl _) (by rw [Nat.mul_succ]; omega)) xs 0
  rw [List.map_eq_flatMap]
  simpa using h

/-! ## What they leave in memory -/

theorem mem_cellsLE {n k v : Nat} {c : Nat × Byte} (h : c ∈ cellsLE n k v) : n ≤ c.1 ∧ c.1 < n + k := by
  obtain ⟨j, hj, rfl⟩ := List.mem_map.1 h
  have hj := List.mem_range.1 hj
  exact ⟨Nat.le_add_right _ _, by omega⟩

theorem mem_piecesAt {base : Nat} {ps : List Piece} {c : Nat × Byte} (h : c ∈ piecesAt base ps) :
    ∃ p ∈ ps, base + p.1 ≤ c.1 ∧ c.1 < base + p.1 + p.2.1 := by
  obtain ⟨p, hp, hc⟩ := List.mem_flatMap.1 h
  exact ⟨p, hp, mem_cellsLE hc⟩

/-- A location that no piece covers keeps its byte. -/
theorem Memory.get_piecesAt_outside {m : Memory} (w : m.wf = true) {base lo hi : Nat} {ps : List Piece} (h : Rising lo hi ps)
    {n : Nat} (hn : n < base + lo ∨ base + hi ≤ n) : (m.setAll (piecesAt base ps)).get n = m.get n := by
  refine Memory.get_setAll_of_not_mem w fun c hc he => ?_
  obtain ⟨p, hp, h1, h2⟩ := mem_piecesAt hc
  obtain ⟨h3, h4⟩ := h.within p hp
  omega

/-- Some of the bytes of a piece, read back. -/
theorem Memory.natOfBytes_piecesAt {m : Memory} (w : m.wf = true) {base lo hi : Nat} {ps : List Piece} (h : Rising lo hi ps)
    {o k v : Nat} (hp : (o, k, v) ∈ ps) {a b : Nat} (hab : a + b ≤ k) :
    natOfBytes ((List.range b).map fun j => (m.setAll (piecesAt base ps)).get (base + o + a + j)) =
      v / 2 ^ (8 * a) % 2 ^ (8 * b) := by
  induction ps generalizing m with
  | nil => cases hp
  | cons p ps ih =>
    obtain ⟨happart, hrest⟩ := List.pairwise_cons.1 h.apart
    have hps : Rising lo hi ps := ⟨fun q hq => h.within q (List.mem_cons_of_mem _ hq), hrest⟩
    obtain ⟨o', k', v'⟩ := p
    show natOfBytes ((List.range b).map fun j =>
      (m.setAll (cellsLE (base + o') k' v' ++ piecesAt base ps)).get (base + o + a + j)) = _
    rw [Memory.setAll_append]
    have w' := Memory.wf_setAll w (cellsLE (base + o') k' v')
    rcases List.mem_cons.1 hp with he | hp
    · cases he
      rw [← Memory.natOfBytes_setAll_cells w (base + o) v hab]
      refine congrArg natOfBytes (List.map_congr_left fun j hj => ?_)
      have hj := List.mem_range.1 hj
      refine Memory.get_setAll_of_not_mem w' fun c hc he => ?_
      obtain ⟨q, hq, h1, h2⟩ := mem_piecesAt hc
      have hafter : o + k ≤ q.1 := happart q hq
      omega
    · exact ih w' hps hp

/-- A piece read back whole. -/
theorem State.peek_piecesAt {s t : State} (w : s.mem.wf = true) {base lo hi : Nat} {ps : List Piece}
    (ht : t.mem = s.mem.setAll (piecesAt base ps)) (h : Rising lo hi ps) {o k v : Nat} (hp : (o, k, v) ∈ ps)
    (hv : v < 2 ^ (8 * k)) : t.peek (base + o) k = v := by
  have hb := Memory.natOfBytes_piecesAt w (base := base) h hp (a := 0) (b := k) (by omega)
  rw [Nat.mul_zero, Nat.pow_zero, Nat.div_one, Nat.mod_eq_of_lt hv] at hb
  rw [State.peek, ht]
  exact hb

end Sys2Proof.Machine
end

section
/-! What PHASE publishes, and where it is then seen (R195 to R198, R220, R231). -/

namespace Sys2Proof.Machine

/-! ## The state that a publication leaves -/

/-- The state in which what a slot publishes has left its buffer for its scope or its homes (R195 to R198). -/
def State.departed (s : State) (r : SlotRef) (sc : Scope) : State :=
  let l := s.slotAt r
  match sc with
  | .package | .system =>
    ((s.flushBy fun o => (o.uid == l.uid && o.eng.isNone) || l.joinedHere o).homeWrite l.pend).carry
      (some (s.stampOf l.launch)) l.pend
  | _ => { s with overlay := (l.pend.map fun c => (⟨l.uid, sc, r.core, c.1, c.2, none, s.stampOf l.launch⟩ : Over)) ++
      s.overlay.map fun o => if l.joinedHere o then { o with eng := none, scope := .package } else o }

theorem State.publishAt_departed (s : State) (r : SlotRef) (sc : Scope) :
    s.publishAt r sc = (s.departed r sc).modSlot r Slot.published := by
  cases sc <;> rfl

/-- A slot that PHASE has published, before it goes on. -/
def Slot.phased (l : Slot) (now : Nat) (sc : Scope) : Slot :=
  { l with
    pend := [], snap := [], hidden := l.hidden.filter fun h => !h.joined
    busyTill := Nat.max now l.busyTill + l.pubCycles sc, tstat := l.tstat &&& ~~~0x80#64 }

/-- A core whose slot PHASE has published. -/
def Core.phased (c : Core) (k : Fin 4) (now : Nat) (sc : Scope) : Core :=
  { c.setSlot k ((c.slot k).phased now sc) with
    shoots := c.shoots.map fun x => { x with lagging := x.lagging.filter (· != (c.slot k).uid) } }

/-- The state that PHASE leaves, before the slot goes on. -/
def State.phased (s : State) (sc : Scope) : State :=
  (s.departed s.cur sc).modCore s.cur.core (·.phased s.cur.slot s.refclk sc)

theorem State.core_departed (s : State) (r : SlotRef) (sc : Scope) (g : Nat) : (s.departed r sc).core g = s.core g := by
  cases sc <;> rfl
theorem State.cur_departed (s : State) (r : SlotRef) (sc : Scope)  : (s.departed r sc).cur = s.cur := by
  cases sc <;> rfl
theorem State.refclk_departed (s : State) (r : SlotRef) (sc : Scope)  : (s.departed r sc).refclk = s.refclk := by
  cases sc <;> rfl

/-- Changes of one slot of a core, one after the other, and a change of what is not a slot between them. -/
theorem State.modSlot_modCore_modSlot (d : State) (r : SlotRef) (f h : Slot → Slot) (k : Core → Core)
    (hk : ∀ (c : Core) (l : Slot), (k (c.setSlot r.slot l)).setSlot r.slot (h l) = k (c.setSlot r.slot (h l)))
    (hs : ∀ c : Core, (k c).slots = c.slots) :
    ((d.modSlot r f).modCore r.core k).modSlot r h = d.modCore r.core fun c => k (c.setSlot r.slot (h (f (c.slot r.slot)))) := by
  have hslot : ((d.modSlot r f).modCore r.core k).slotAt r = f (d.slotAt r) :=
    (State.slotAt_modCore _ _ _ _ hs).trans (State.slotAt_modSlot_same _ _ _)
  unfold State.modSlot State.setSlot at *
  rw [hslot, State.core_modCore_same, State.core_setCore_same, hk]
  simp only [State.modCore, State.setCore_setCore]
  rfl

theorem State.phased_eq (s : State) (sc : Scope) :
    ((s.boundary s.cur sc).occupy (s.slot.pubCycles sc)).mapSlot (fun l => { l with tstat := l.tstat &&& ~~~0x80#64 }) =
      s.phased sc := by
  have hcur := s.cur_departed s.cur sc
  have hclk := s.refclk_departed s.cur sc
  have hslot : s.slot = ((s.departed s.cur sc).core s.cur.core).slot s.cur.slot := by rw [s.core_departed]; rfl
  unfold State.boundary State.phased State.occupy
  rw [State.publishAt_departed, State.modSlot_modSlot, State.mapSlot_mapSlot, show s.slotAt s.cur = s.slot from rfl, hslot]
  generalize s.departed s.cur sc = d at *
  rw [← hclk]
  unfold State.mapSlot
  refine Eq.trans ?_ (d.modSlot_modCore_modSlot s.cur (fun l => { l.published with hidden := l.hidden.filter fun h => !h.joined })
    (fun l => { l with
      busyTill := Nat.max d.refclk l.busyTill + ((d.core s.cur.core).slot s.cur.slot).pubCycles sc
      tstat := l.tstat &&& ~~~0x80#64 })
    (fun c => { c with shoots := c.shoots.map fun x =>
      { x with lagging := x.lagging.filter (· != ((d.core s.cur.core).slot s.cur.slot).uid) } })
    (fun c l => by simp [Core.setSlot]) fun c => rfl)
  exact congrArg (fun r => State.modSlot _ r _) hcur

/-! ## Bytes on the way (R195, R198, R201) -/

/-- A location holds what was written to it last. -/
theorem Memory.get_setAll {m : Memory} (w : m.wf = true) (cs : List (Nat × Byte)) (n : Nat) :
    (m.setAll cs).get n = ((cs.reverse.find? fun c => c.1 == n).map (·.2)).getD (m.get n) := by
  induction cs using List.reverseRecOn with
  | nil => rfl
  | append_singleton cs c ih =>
    rw [Memory.setAll_append, List.reverse_append]
    show ((m.setAll cs).set c.1 c.2).get n = _
    rw [Memory.get_set (Memory.wf_setAll w cs), ih]
    by_cases h : n = c.1
    · simp [h]
    · simp [h, Ne.symm h]

theorem overFind_append (os ps : List Over) (g n : Nat) :
    overFind (os ++ ps) g n = (overFind os g n).or (overFind ps g n) := by
  induction os with
  | nil => rfl
  | cons o os ih =>
    simp only [List.cons_append, overFind]
    split
    · rfl
    · exact ih

theorem overFind_eq_none {os : List Over} {n : Nat} (h : ∀ o ∈ os, o.loc ≠ n) (g : Nat) : overFind os g n = none := by
  induction os with
  | nil => rfl
  | cons o os ih =>
    rw [overFind, if_neg fun e => h o (by simp) e.1]
    exact ih fun x hx => h x (by simp [hx])

/-- Removing bytes of other locations changes nothing of a location. -/
theorem overFind_filter {p : Over → Bool} {n : Nat} (os : List Over) (h : ∀ o ∈ os, o.loc = n → p o = true) (g : Nat) :
    overFind (os.filter p) g n = overFind os g n := by
  induction os with
  | nil => rfl
  | cons o os ih =>
    have ih := ih fun x hx => h x (by simp [hx])
    by_cases hp : p o = true
    · rw [List.filter_cons_of_pos hp, overFind, overFind, ih]
    · rw [List.filter_cons_of_neg hp, ih, overFind, if_neg fun e => hp (h o (by simp) e.1)]

/-- Bytes that change their publication, but neither what they are nor who sees them. -/
theorem overFind_map {f : Over → Over} (hloc : ∀ o, (f o).loc = o.loc) (hbyte : ∀ o, (f o).byte = o.byte)
    (hsees : ∀ o g, (f o).sees g = o.sees g) (os : List Over) (g n : Nat) : overFind (os.map f) g n = overFind os g n := by
  induction os with
  | nil => rfl
  | cons o os ih => rw [List.map_cons, overFind, overFind, hloc, hbyte, hsees, ih]

/-- Bytes published at a narrow scope: the cores of the domain find the first of a location, and the others none. -/
theorem overFind_published {f : Nat × Byte → Over} {g : Nat} {seen : Bool} (hloc : ∀ c, (f c).loc = c.1)
    (hbyte : ∀ c, (f c).byte = c.2) (hsees : ∀ c, (f c).sees g = seen) (cs : Table Byte) (n : Nat) :
    overFind (cs.map f) g n = if tmem cs n && seen then some (tget 0 cs n) else none := by
  induction cs with
  | nil => rfl
  | cons c cs ih =>
    obtain ⟨k, b⟩ := c
    rw [List.map_cons, overFind, hloc, hbyte, hsees, ih]
    by_cases hk : k = n
    · cases seen <;> simp [hk, tmem, tget]
    · simp [hk, tmem, tget]

theorem mem_dropBy {p : Over → Bool} {os : List Over} {seen : List Nat} {o : Over} (h : o ∈ dropBy p os seen) :
    o ∈ os ∧ p o = false := by
  induction os generalizing seen with
  | nil => cases h
  | cons x os ih =>
    unfold dropBy at h
    split at h
    · exact ⟨List.mem_cons_of_mem _ (ih h).1, (ih h).2⟩
    · next hp =>
      split at h
      · exact ⟨List.mem_cons_of_mem _ (ih h).1, (ih h).2⟩
      · rcases List.mem_cons.1 h with rfl | h
        · exact ⟨List.mem_cons_self, by simpa using hp⟩
        · exact ⟨List.mem_cons_of_mem _ (ih h).1, (ih h).2⟩

theorem dropBy_of_none {p : Over → Bool} {os : List Over} (h : ∀ o ∈ os, p o = false) : dropBy p os [] = os := by
  induction os with
  | nil => rfl
  | cons o os ih =>
    unfold dropBy
    rw [if_neg (by rw [h o (by simp)]; simp), if_neg (by simp), ih fun x hx => h x (by simp [hx])]

/-- Nothing is on the way that the test names: nothing reaches its home. -/
theorem State.flushBy_of_none {s : State} {p : Over → Bool} (h : ∀ o ∈ s.overlay, p o = false) :
    (s.flushBy p).mem = s.mem ∧ (s.flushBy p).overlay = s.overlay := by
  have hout : s.overlay.reverse.filter p = [] := List.filter_eq_nil_iff.2 fun o ho => by simp [h o (List.mem_reverse.1 ho)]
  refine ⟨?_, dropBy_of_none h⟩
  show s.mem.setAll ((s.overlay.reverse.filter p).map _) = _
  rw [hout]
  rfl

/-- A location whose bytes on the way have all reached their home holds the newest of them. -/
theorem State.get_flushBy {s : State} (w : s.mem.wf = true) {p : Over → Bool} {n : Nat} {o : Over} {os : List Over}
    (hn : s.overlay.filter (fun x => x.loc == n) = o :: os) (ho : p o = true) : (s.flushBy p).mem.get n = o.byte := by
  show (s.mem.setAll ((s.overlay.reverse.filter p).map fun o => (o.loc, o.byte))).get n = _
  have hhead : (s.overlay.filter p).find? (fun x => x.loc == n) = some o := by
    have hswap : (s.overlay.filter p).find? (fun x => x.loc == n) = (s.overlay.filter fun x => x.loc == n).find? p := by
      rw [List.find?_filter, List.find?_filter]
      exact congrArg (fun q => List.find? q s.overlay) (funext fun x => by rw [decide_eq_decide, and_comm])
    rw [hswap, hn]
    exact List.find?_cons_of_pos ho
  have hfind : (((s.overlay.reverse.filter p).map fun o => (o.loc, o.byte)).reverse.find? fun c => c.1 == n) =
      some (o.loc, o.byte) := by
    rw [← List.map_reverse, List.filter_reverse, List.reverse_reverse, List.find?_map, Function.comp_def, hhead]
    rfl
  rw [Memory.get_setAll w, hfind]
  rfl

theorem runsOf_start {cs : List (Nat × Byte)} {m : Nat} {bs : List Byte} (h : (m, bs) ∈ runsOf cs) : ∃ b, (m, b) ∈ cs := by
  induction cs generalizing m bs with
  | nil => cases h
  | cons c cs ih =>
    obtain ⟨n, b⟩ := c
    have later : (m, bs) ∈ runsOf cs → ∃ b', (m, b') ∈ (n, b) :: cs := fun h =>
      (ih h).imp fun _ hb => List.mem_cons_of_mem _ hb
    unfold runsOf at h
    split at h
    · next m' bs' rest heq =>
      split at h
      · rcases List.mem_cons.1 h with he | h
        · cases he; exact ⟨b, List.mem_cons_self⟩
        · exact later (heq ▸ List.mem_cons_of_mem _ h)
      · rcases List.mem_cons.1 h with he | h
        · cases he; exact ⟨b, List.mem_cons_self⟩
        · exact later (heq ▸ h)
    · cases List.mem_singleton.1 h
      exact ⟨b, List.mem_cons_self⟩

/-- Each byte is one of a run. -/
theorem mem_runsOf {cs : List (Nat × Byte)} {n : Nat} {b : Byte} (h : (n, b) ∈ cs) :
    ∃ m bs j, (m, bs) ∈ runsOf cs ∧ n = m + j ∧ bs[j]? = some b := by
  induction cs with
  | nil => cases h
  | cons c cs ih =>
    obtain ⟨k, x⟩ := c
    unfold runsOf
    split
    · next m' bs' rest heq =>
      rw [heq] at ih
      split
      · next hm =>
        rcases List.mem_cons.1 h with he | h
        · cases he; exact ⟨n, b :: bs', 0, List.mem_cons_self, rfl, rfl⟩
        · obtain ⟨m, bs, j, hmem, hn, hb⟩ := ih h
          rcases List.mem_cons.1 hmem with he | hmem
          · cases he; exact ⟨k, x :: bs', j + 1, List.mem_cons_self, by omega, hb⟩
          · exact ⟨m, bs, j, List.mem_cons_of_mem _ hmem, hn, hb⟩
      · rcases List.mem_cons.1 h with he | h
        · cases he; exact ⟨n, [b], 0, List.mem_cons_self, rfl, rfl⟩
        · obtain ⟨m, bs, j, hmem, hn, hb⟩ := ih h
          exact ⟨m, bs, j, List.mem_cons_of_mem _ hmem, hn, hb⟩
    · next heq =>
      rcases List.mem_cons.1 h with he | h
      · cases he; exact ⟨n, [b], 0, List.mem_cons_self, rfl, rfl⟩
      · obtain ⟨m, bs, j, hmem, -, -⟩ := ih h
        rw [heq] at hmem
        cases hmem

/-- A byte for the host window leaves in a flit, on a device that does not bridge (R409). -/
theorem State.mem_hostFlits {s : State} (hb : s.bridge = false) (stamp : Option (Nat × BitVec 8)) {cs : List (Nat × Byte)}
    {n : Nat} {b : Byte} (h : (n, b) ∈ cs) (hn : hostLoc n = true) : ∃ off bs j,
      ({ dest := s.hostDev, body := .hostWrite s.devid stamp off bs } : Flit) ∈ s.hostFlits stamp cs ∧
      n = 0x8000000000000 + off + j ∧ bs[j]? = some b := by
  obtain ⟨m, bs, j, hmem, he, hbs⟩ := mem_runsOf (List.mem_filter (p := fun c => hostLoc c.1).2 ⟨h, hn⟩)
  obtain ⟨b', hb'⟩ := runsOf_start hmem
  have hm := of_decide_eq_true (List.mem_filter.1 hb').2
  refine ⟨m - 0x8000000000000, bs, j, ?_, by omega, hbs⟩
  rw [State.hostFlits, if_neg (by simp [hb])]
  exact List.mem_map.2 ⟨(m, bs), hmem, rfl⟩

/-! ## What PHASE leaves of slots and cores -/

theorem State.slotAt_phased (s : State) (sc : Scope) (r : SlotRef) :
    (s.phased sc).slotAt r = if r = s.cur then s.slot.phased s.refclk sc else s.slotAt r := by
  unfold State.phased State.slotAt
  rw [State.core_modCore, s.core_departed, s.core_departed]
  by_cases hg : r.core = s.cur.core
  · rw [if_pos hg]
    by_cases hk : r.slot = s.cur.slot
    · have hr : r = s.cur := by cases r; simp only at hg hk; rw [hg, hk]
      rw [if_pos hr, hk]
      exact Core.slot_setSlot_same _ _ _
    · rw [if_neg fun e => hk (by rw [e])]
      exact (Core.slot_setSlot_ne _ _ hk).trans (by rw [hg])
  · rw [if_neg hg, if_neg fun e => hg (by rw [e])]

theorem State.cur_phased (s : State) (sc : Scope) : (s.phased sc).cur = s.cur := s.cur_departed s.cur sc

theorem State.slot_phased (s : State) (sc : Scope) : (s.phased sc).slot = s.slot.phased s.refclk sc := by
  show (s.phased sc).slotAt (s.phased sc).cur = _
  rw [s.cur_phased, s.slotAt_phased, if_pos rfl]

theorem State.slot_phase (s : State) (sc : Scope) : (s.phased sc).retire.slot = (s.slot.phased s.refclk sc).next := by
  rw [State.retire, State.slot_mapSlot, s.slot_phased]

theorem State.othersKept_phase (s : State) (sc : Scope) : OthersKept s (s.phased sc).retire := fun r hr => by
  rw [State.retire, State.slotAt_mapSlot, s.cur_phased, if_neg hr, s.slotAt_phased, if_neg hr]

/-- Of the cores PHASE changes only the slots and the shootdowns that wait. -/
theorem State.core_phase (s : State) (sc : Scope) (g : Nat) : { (s.phased sc).retire.core g with
    slots := (s.core g).slots, shoots := (s.core g).shoots } = s.core g := by
  have h := (deviceKept_setSlot (s.phased sc) (s.phased sc).cur (s.phased sc).slot.next).2 g
  have hp : { (s.phased sc).core g with slots := (s.core g).slots, shoots := (s.core g).shoots } = s.core g := by
    unfold State.phased
    rw [State.core_modCore]
    split
    · next hg => rw [s.core_departed, ← hg]; rfl
    · rw [s.core_departed]
  rw [← hp]
  exact congrArg (fun c : Core => { c with slots := (s.core g).slots, shoots := (s.core g).shoots }) h

/-- No shootdown waits for the task any longer (R92). -/
theorem State.shoots_phase (s : State) (sc : Scope) {x : Shoot}
    (h : x ∈ ((s.phased sc).retire.core s.cur.core).shoots) : s.slot.uid ∉ x.lagging := by
  have hkept := (deviceKept_setSlot (s.phased sc) (s.phased sc).cur (s.phased sc).slot.next).2 s.cur.core
  have hcore : ((s.phased sc).retire.core s.cur.core).shoots = ((s.phased sc).core s.cur.core).shoots :=
    Eq.trans (by rfl) (congrArg Core.shoots hkept)
  rw [hcore, State.phased, State.core_modCore_same, s.core_departed] at h
  obtain ⟨y, -, rfl⟩ := List.mem_map.1 h
  intro hx
  exact absurd rfl (bne_iff_ne.1 (List.mem_filter.1 hx).2)

/-! ## What PHASE leaves of memory -/

/-- The bytes on the way that a publication at package scope sends home: the task's own, and those of engine operations it has
joined (R197, R198). -/
def Slot.ownOver (l : Slot) (o : Over) : Bool := (o.uid == l.uid && o.eng.isNone) || l.joinedHere o

theorem tmem_eq_any {α : Type} (t : Table α) (n : Nat) : tmem t n = t.any fun c => c.1 == n := by
  induction t with
  | nil => rfl
  | cons c t ih => rw [List.any_cons, ← ih]; rfl

theorem tmem_eq_false {α : Type} {t : Table α} {n : Nat} (h : tmem t n = false) : ∀ c ∈ t, c.1 ≠ n := fun c hc he => by
  rw [tmem_eq_any, List.any_eq_false] at h
  exact h c hc (by simp [he])

theorem tget_mem {α : Type} (d : α) {t : Table α} {n : Nat} (h : tmem t n = true) : (n, tget d t n) ∈ t := by
  induction t with
  | nil => cases h
  | cons c t ih =>
    obtain ⟨k, v⟩ := c
    by_cases hk : k = n
    · simp [tget, hk]
    · have ht : tmem t n = true := by simpa [tmem, hk] using h
      simp [tget, hk, ih ht]

theorem Slot.joinedHere_of_eng (l : Slot) {o : Over} (h : o.eng = none) : l.joinedHere o = false := by
  simp [Slot.joinedHere, h]

section
variable (s : State) (r : SlotRef)

section
variable {sc : Scope} (hsc : sc = .core ∨ sc = .cluster ∨ sc = .die)
include hsc

/-- At a narrow scope nothing reaches its home. -/
theorem State.departed_narrow : (s.departed r sc).mem = s.mem ∧ (s.departed r sc).poison = s.poison ∧
    (s.departed r sc).outbox = s.outbox := by
  rcases hsc with rfl | rfl | rfl <;> exact ⟨rfl, rfl, rfl⟩

theorem State.overlay_departed_narrow : (s.departed r sc).overlay =
    ((s.slotAt r).pend.map fun c => (⟨(s.slotAt r).uid, sc, r.core, c.1, c.2, none, s.stampOf (s.slotAt r).launch⟩ : Over)) ++
      s.overlay.map fun o => if (s.slotAt r).joinedHere o then { o with eng := none, scope := .package } else o := by
  rcases hsc with rfl | rfl | rfl <;> rfl

/-- The cores of the domain see the pending stores, and nothing else changes for any core (R195, R201). -/
theorem State.vis_departed_narrow (g n : Nat) : (s.departed r sc).vis g n =
    if tmem (s.slotAt r).pend n && (⟨(s.slotAt r).uid, sc, r.core, n, 0, none, s.stampOf (s.slotAt r).launch⟩ : Over).sees g
    then tget 0 (s.slotAt r).pend n else s.vis g n := by
  unfold State.vis
  rw [s.overlay_departed_narrow r hsc, (s.departed_narrow r hsc).1, overFind_append,
    overFind_published (f := fun c => ⟨(s.slotAt r).uid, sc, r.core, c.1, c.2, none, s.stampOf (s.slotAt r).launch⟩)
      (seen := (⟨(s.slotAt r).uid, sc, r.core, n, 0, none, s.stampOf (s.slotAt r).launch⟩ : Over).sees g)
      (fun _ => rfl) (fun _ => rfl) (fun _ => rfl),
    overFind_map (fun o => by split <;> rfl) (fun o => by split <;> rfl) fun o g => ?_]
  · generalize (tmem (s.slotAt r).pend n && Over.sees _ g) = seen
    cases seen <;> rfl
  · split
    · next hj =>
      have heng : o.eng.isSome = true := Option.isSome_iff_ne_none.2 fun e => by
        rw [(s.slotAt r).joinedHere_of_eng e] at hj; cases hj
      simp [Over.sees, heng]
    · rfl

end

section
variable {sc : Scope} (hsc : sc = .package ∨ sc = .system)
include hsc

theorem State.mem_departed_wide :
    (s.departed r sc).mem = (s.flushBy (s.slotAt r).ownOver).mem.setAll (s.slotAt r).pend := by
  rcases hsc with rfl | rfl <;> rfl

theorem State.overlay_departed_wide : (s.departed r sc).overlay =
    (dropBy (s.slotAt r).ownOver s.overlay []).filter fun o => !((s.slotAt r).pend.any fun c => c.1 == o.loc) := by
  rcases hsc with rfl | rfl <;> rfl

theorem State.outbox_departed_wide : (s.departed r sc).outbox = s.outbox ++
    s.overFlits (s.overlay.reverse.filter (s.slotAt r).ownOver) ++
      s.hostFlits (some (s.stampOf (s.slotAt r).launch)) (s.slotAt r).pend := by
  rcases hsc with rfl | rfl <;> rfl

/-- A store in the buffer is at its home. -/
theorem State.departed_wide_stored (w : s.mem.wf = true) {n : Nat} (hn : tmem (s.slotAt r).pend n = true) (g : Nat) :
    (s.departed r sc).vis g n = (s.departed r sc).mem.get n ∧ (((s.slotAt r).pend.map (·.1)).Nodup →
      (s.departed r sc).mem.get n = tget 0 (s.slotAt r).pend n) := by
  constructor
  · unfold State.vis
    rw [s.overlay_departed_wide r hsc, overFind_eq_none fun o ho he => ?_]
    have ho := (List.mem_filter.1 ho).2
    rw [he, ← tmem_eq_any, hn] at ho
    cases ho
  · intro hnd
    rw [s.mem_departed_wide r hsc]
    exact Memory.get_setAll_mem (Memory.wf_setAll w _) hnd (tget_mem 0 hn)

/-- A byte that nothing of the task's on the way concerns stays as it was. -/
theorem State.departed_wide_other (hown : ∀ o ∈ s.overlay, o.uid ≠ (s.slotAt r).uid) :
    (s.departed r sc).mem = s.mem.setAll (s.slotAt r).pend ∧
      ∀ g n, tmem (s.slotAt r).pend n = false → s.mem.wf = true → (s.departed r sc).vis g n = s.vis g n := by
  have hnone : ∀ o ∈ s.overlay, (s.slotAt r).ownOver o = false := fun o ho => by
    simp [Slot.ownOver, Slot.joinedHere, hown o ho]
  obtain ⟨hmem, hover⟩ := State.flushBy_of_none hnone
  have hm := s.mem_departed_wide r hsc
  rw [hmem] at hm
  refine ⟨hm, fun g n hn w => ?_⟩
  unfold State.vis
  rw [s.overlay_departed_wide r hsc, dropBy_of_none hnone, overFind_filter _ fun o _ he => ?_, hm,
    Memory.get_setAll_of_not_mem w (tmem_eq_false hn)]
  rw [he, ← tmem_eq_any, hn]
  rfl

/-- The newest of the task's bytes on the way to a location has reached its home. -/
theorem State.departed_wide_newest (w : s.mem.wf = true) {n : Nat} (hn : tmem (s.slotAt r).pend n = false) {o : Over}
    {os : List Over} (hos : s.overlay.filter (fun x => x.loc == n) = o :: os)
    (hown : ∀ x ∈ o :: os, (s.slotAt r).ownOver x = true) :
    (s.departed r sc).mem.get n = o.byte ∧ ∀ g, (s.departed r sc).vis g n = o.byte := by
  have hflush : (s.flushBy (s.slotAt r).ownOver).mem.wf = true := Memory.wf_setAll w _
  have hmem : (s.departed r sc).mem.get n = o.byte := by
    rw [s.mem_departed_wide r hsc, Memory.get_setAll_of_not_mem hflush (tmem_eq_false hn)]
    exact State.get_flushBy w hos (hown o List.mem_cons_self)
  refine ⟨hmem, fun g => ?_⟩
  unfold State.vis
  rw [s.overlay_departed_wide r hsc, overFind_eq_none fun x hx he => ?_, hmem]
  obtain ⟨hx, hnot⟩ := mem_dropBy (List.mem_filter.1 hx).1
  have hx := hown x (hos ▸ List.mem_filter.2 ⟨hx, by simp [he]⟩)
  rw [hnot] at hx
  cases hx

end

/-- No write of an engine operation that the task has joined is still the operation's own. -/
theorem State.joined_departed {sc : Scope} {o : Over} (h : o ∈ (s.departed r sc).overlay) : (s.slotAt r).joinedHere o = false := by
  have narrow : (sc = .core ∨ sc = .cluster ∨ sc = .die) → (s.slotAt r).joinedHere o = false := fun hsc => by
    rw [s.overlay_departed_narrow r hsc] at h
    rcases List.mem_append.1 h with h | h
    · obtain ⟨c, -, rfl⟩ := List.mem_map.1 h
      exact (s.slotAt r).joinedHere_of_eng rfl
    · obtain ⟨x, -, rfl⟩ := List.mem_map.1 h
      split
      · exact (s.slotAt r).joinedHere_of_eng rfl
      · next hx => simpa using hx
  have wide : (sc = .package ∨ sc = .system) → (s.slotAt r).joinedHere o = false := fun hsc => by
    rw [s.overlay_departed_wide r hsc] at h
    have hp := (mem_dropBy (List.mem_filter.1 h).1).2
    exact (Bool.or_eq_false_iff.1 hp).2
  cases sc with
  | core => exact narrow (.inl rfl)
  | cluster => exact narrow (.inr (.inl rfl))
  | die => exact narrow (.inr (.inr rfl))
  | package => exact wide (.inl rfl)
  | system => exact wide (.inr rfl)

end

/-! ## PHASE -/

theorem exec_phase {s : State} {sc : Scope} (h : s.scopeOk sc = true) : exec (.phase sc false) s = .next (s.phased sc).retire := by
  show execPhase sc false s = _
  unfold execPhase
  rw [h, ← s.phased_eq sc]
  rfl

/-- The publication adds its cycles to the unit of the slot that sends (R231). -/
theorem Slot.next_phased (l : Slot) (now : Nat) (sc : Scope) : (l.phased now sc).next = { l with
    pend := [], snap := [], hidden := l.hidden.filter (fun h => !h.joined)
    busyTill := Nat.max now l.busyTill +
      (match sc with | .core => 2 | .cluster => 8 | .die => 24 | .package => 96 | .system => 400) +
      ((granules l.pend).length + 3) / 4
    tstat := l.tstat &&& ~~~0x80#64, pc := l.pc + 4, pfx := [], started := true, stalled := false } := by
  unfold Slot.phased Slot.pubCycles cdiv
  rw [← Nat.add_assoc]
  rfl

theorem State.rest_phase (s : State) (sc : Scope) : { (s.phased sc).retire with
    cores := s.cores, mem := s.mem, overlay := s.overlay, poison := s.poison, armed := s.armed, outbox := s.outbox } = s := by
  cases sc <;> rfl

theorem State.outbox_phase (s : State) (sc : Scope) : (s.phased sc).retire.outbox = (s.departed s.cur sc).outbox := rfl
theorem State.vis_phase (s : State) (sc : Scope) (g n : Nat) :
    (s.phased sc).retire.vis g n = (s.departed s.cur sc).vis g n := rfl

theorem State.carries_phase (s : State) (sc : Scope) : Carries s (s.phased sc).retire := by
  have wide : (sc = .package ∨ sc = .system) → Carries s (s.phased sc).retire := fun h => by
    obtain ⟨hb, hf⟩ := (s.leave_overFlits (s.overlay.reverse.filter s.slot.ownOver)).append
      (s.leave_hostFlits (some (s.stampOf s.slot.launch)) s.slot.pend)
    refine ⟨_, ?_, hb, hf⟩
    rw [s.outbox_phase, s.outbox_departed_wide s.cur h, List.append_assoc]
    rfl
  have narrow : (s.departed s.cur sc).outbox = s.outbox → Carries s (s.phased sc).retire := fun h =>
    ⟨[], ((s.outbox_phase sc).trans h).trans (List.append_nil _).symm, fun _ => rfl, fun _ hf => absurd hf List.not_mem_nil⟩
  cases sc with
  | core => exact narrow rfl
  | cluster => exact narrow rfl
  | die => exact narrow rfl
  | package => exact wide (.inl rfl)
  | system => exact wide (.inr rfl)

/-- A pending store in the host window leaves for the bridging device, with the queue and its generation (R363, R409). -/
theorem State.host_phase (s : State) {sc : Scope} (hsc : sc = .package ∨ sc = .system) (hb : s.bridge = false) {n : Nat} {b : Byte}
    (hp : (n, b) ∈ s.slot.pend) (hn : hostLoc n = true) : ∃ f off bs j, f ∈ (s.phased sc).retire.outbox ∧
      n = 0x8000000000000 + off + j ∧ bs[j]? = some b ∧ f = {
        dest := s.hostDev
        body := .hostWrite s.devid (some ((s.launchOf s.cur).queue, (s.queueOf s.cur).gen)) off bs } := by
  obtain ⟨off, bs, j, hf, he, hbs⟩ := State.mem_hostFlits hb (some (s.stampOf s.slot.launch)) hp hn
  refine ⟨_, off, bs, j, ?_, he, hbs, rfl⟩
  rw [s.outbox_phase, s.outbox_departed_wide s.cur hsc]
  exact List.mem_append_right _ hf

/-- Who sees a publication at a narrow scope: the core, its cluster, its die (R195). -/
theorem sees_published {uid core n g : Nat} {stamp : Nat × BitVec 8} {sc : Scope} :
    sc = .core ∨ sc = .cluster ∨ sc = .die → (⟨uid, sc, core, n, 0, none, stamp⟩ : Over).sees g = match sc with
      | .core => g == core | .cluster => g / 4 == core / 4 | _ => g / 96 == core / 96 := by
  rintro (rfl | rfl | rfl) <;> exact BEq.comm

theorem phase_determinism {s : State} {sc : Scope} (hsc : sc = .system) (hl : s.level = 2) (hi : s.slot.inh = false) (c : Bool) :
    TrapsOpen s (.phase sc c) .determinism := by
  refine trapsOpen_of s _ _ ?_ rfl hi
  have hno : s.scopeOk sc = false := by rw [hsc, State.scopeOk, hl]; rfl
  show execPhase sc c s = _
  unfold execPhase
  rw [hno]
  rfl

end Sys2Proof.Machine
end

section
/-! The slot block of an image and the checkpoint record as pieces (R360, R374). -/

namespace Sys2Proof.Machine

/-! ## The layout of a slot block and of a checkpoint record (R360, R374) -/

theorem rising_trapPieces (t : PendTrap) (k : Nat) : Rising (0x300 + 32 * k) (0x300 + 32 * (k + 1)) (trapPieces k t) := by
  have h0 := Rising.single (0x300 + 32 * k) 8 (t.cause.code.toNat + t.qent.toNat * 2 ^ 16 + t.orig.toNat * 2 ^ 32)
  have h1 := Rising.single (0x308 + 32 * k) 8 t.tval.toNat
  have h2 := Rising.single (0x310 + 32 * k) 8 t.word.toNat
  have h3 := Rising.single (0x318 + 32 * k) 8 0
  exact (h0.append (h1.append (h2.append h3 (by omega) (by omega) (by omega)) (by omega) (by omega) (by omega))
    (by omega) (by omega) (by omega)).mono (Nat.le_refl _) (by omega)

theorem rising_pendingTraps (ts : List PendTrap) (h : ts.length ≤ 5) : Rising 0x300 0x400
    ((ts.zipIdx.flatMap fun (t, k) => trapPieces k t) ++ [(0x300 + 32 * ts.length, 0x100 - 32 * ts.length, 0)]) := by
  have hts := Rising.blocks 0x300 32 (fun (t, k) => trapPieces k t) rising_trapPieces ts 0
  have hrest := Rising.single (0x300 + 32 * ts.length) (0x100 - 32 * ts.length) 0
  exact (hts.append hrest (by omega) (by omega) (by omega)).mono (by omega) (by omega)

theorem Slot.rising_blockPieces (l : Slot) (pc : W64) : Rising 0 0x400 (l.blockPieces pc) := by
  have hpc := Rising.single 0 8 pc.toNat
  have hx := Rising.row 8 8 8 (Nat.le_refl _) (fun k => (l.x.toList.getD (k + 1) 0).toNat) 31
  have hp := Rising.single 0x100 8 (l.p.toNat / 2 * 2)
  have htok := Rising.row 0x108 2 2 (Nat.le_refl _) (fun k => (l.tok.toList.getD k 0).toNat) 8
  have hzero := Rising.single 0x118 8 0
  have hcsr := Rising.values 0x120 8 8 (Nat.le_refl _) BitVec.toNat l.csrList
  have htask := Rising.single 0x180 8 (l.task.toNat + roleCode l.role * 2 ^ 32 + l.entry.toNat * 2 ^ 34 + b2n l.occ * 2 ^ 36)
  have hfill := Rising.single 0x188 0x78 0
  have hmx := Rising.row 0x200 16 16 (Nat.le_refl _) (fun k => (l.mxtab.toList.getD k 0).toNat) 16
  have htraps := rising_pendingTraps (l.pendingTraps.take 5) (List.length_take_le _ _)
  have hlen : l.csrList.length = 12 := rfl
  have hx' : Rising 8 0x100 ((List.range 31).map fun k => (8 * (k + 1), 8, (l.x.toList.getD (k + 1) 0).toNat)) := by
    refine cast (congrArg (Rising 8 0x100) (List.map_congr_left fun k _ => ?_)) hx
    rw [show 8 * (k + 1) = 8 + 8 * k by omega]
  have hlast := (htask.append hfill (by omega) (by omega) (by omega)).append
    (hmx.append htraps (by omega) (by omega) (by omega)) (by omega) (by omega) (by omega)
  have hmid := htok.append (hzero.append (hcsr.append hlast (by omega) (by omega) (by omega)) (by omega) (by omega) (by omega))
    (by omega) (by omega) (by omega)
  exact hpc.append (hx'.append (hp.append hmid (by omega) (by omega) (by omega)) (by omega) (by omega) (by omega))
    (by omega) (by omega) (by omega)

theorem Slot.rising_checkpointPieces (l : Slot) (pc : W64) (vregs : Nat) :
    Rising 0 (0x800 + 512 * vregs) (l.checkpointPieces pc vregs) := by
  have hm := Rising.row 0x480 128 128 (Nat.le_refl _) (fun k => (l.m.toList.getD (k + 1) 0).toNat) 7
  have hv := Rising.row 0x800 512 512 (Nat.le_refl _) (fun n => (l.rv n).toNat) vregs
  have hm' : Rising 0x480 0x800 ((List.range 7).map fun k => (0x400 + 128 * (k + 1), 128, (l.m.toList.getD (k + 1) 0).toNat)) := by
    refine cast (congrArg (Rising 0x480 0x800) (List.map_congr_left fun k _ => ?_)) hm
    rw [show 0x400 + 128 * (k + 1) = 0x480 + 128 * k by omega]
  exact (l.rising_blockPieces pc).append (hm'.append hv (by omega) (by omega) (by omega)) (by omega) (by omega) (by omega)

/-! ## The fields of a slot block and of a checkpoint record -/

theorem getD_toList {α : Type} {n : Nat} (xs : Vector α n) (d : α) {k : Nat} (hk : k < n) : xs.toList.getD k d = xs[k] := by
  rw [List.getD_eq_getElem?_getD, Vector.getElem?_toList, Vector.getElem?_eq_getElem hk]
  rfl

section
variable (l : Slot) (pc : W64)

theorem Slot.pc_block : (0, 8, pc.toNat) ∈ l.blockPieces pc := List.mem_append_left _ (List.mem_singleton.2 rfl)

theorem Slot.rx_block {r : XReg} (hr : r ≠ 0) : (8 * r.toNat, 8, (l.rx r).toNat) ∈ l.blockPieces pc := by
  have hpos : r.toNat ≠ 0 := fun e => hr (BitVec.eq_of_toNat_eq e)
  have hlt : r.toNat < 32 := r.isLt
  refine List.mem_append_right _ (List.mem_append_left _ (List.mem_map.2 ⟨r.toNat - 1, List.mem_range.2 (by omega), ?_⟩))
  rw [Nat.sub_add_cancel (by omega), getD_toList l.x 0 hlt, Slot.rx, if_neg hr]

theorem Slot.p_block : (0x100, 8, l.p.toNat / 2 * 2) ∈ l.blockPieces pc :=
  List.mem_append_right _ (List.mem_append_right _ (List.mem_append_left _ (List.mem_singleton.2 rfl)))

theorem Slot.tok_block (k : Fin 8) : (0x108 + 2 * k.val, 2, (l.tok[k]).toNat) ∈ l.blockPieces pc := by
  refine List.mem_append_right _ (List.mem_append_right _ (List.mem_append_right _ (List.mem_append_left _
    (List.mem_map.2 ⟨k.val, List.mem_range.2 k.isLt, ?_⟩))))
  rw [getD_toList l.tok 0 k.isLt]
  rfl

/-- What follows the tokens and the zeros behind them. -/
theorem Slot.mem_block_of_late {p : Piece} (h : p ∈ (l.csrList.zipIdx.map fun (v, k) => (0x120 + 8 * k, 8, v.toNat)) ++
    ([(0x180, 8, l.task.toNat + roleCode l.role * 2 ^ 32 + l.entry.toNat * 2 ^ 34 + b2n l.occ * 2 ^ 36), (0x188, 0x78, 0)] ++
      ((List.range 16).map fun k => (0x200 + 16 * k, 16, (l.mxtab.toList.getD k 0).toNat)))) : p ∈ l.blockPieces pc := by
  refine List.mem_append_right _ (List.mem_append_right _ (List.mem_append_right _ (List.mem_append_right _
    (List.mem_append_right _ ?_))))
  rcases List.mem_append.1 h with h | h
  · exact List.mem_append_left _ h
  · refine List.mem_append_right _ ?_
    rcases List.mem_append.1 h with h | h
    · exact List.mem_append_left _ h
    · exact List.mem_append_right _ (List.mem_append_left _ h)

theorem Slot.csr_block {k : Nat} {v : W64} (h : l.csrList[k]? = some v) : (0x120 + 8 * k, 8, v.toNat) ∈ l.blockPieces pc :=
  l.mem_block_of_late pc (List.mem_append_left _ (List.mem_map.2 ⟨(v, k), List.mk_mem_zipIdx_iff_getElem?.2 h, rfl⟩))

theorem Slot.task_block : (0x180, 8, l.task.toNat + roleCode l.role * 2 ^ 32 + l.entry.toNat * 2 ^ 34 + b2n l.occ * 2 ^ 36) ∈
    l.blockPieces pc :=
  l.mem_block_of_late pc (List.mem_append_right _ (List.mem_append_left _ List.mem_cons_self))

theorem Slot.mxtab_block (k : Fin 16) : (0x200 + 16 * k.val, 16, (l.mxtab[k]).toNat) ∈ l.blockPieces pc := by
  refine l.mem_block_of_late pc (List.mem_append_right _ (List.mem_append_right _
    (List.mem_map.2 ⟨k.val, List.mem_range.2 k.isLt, ?_⟩)))
  rw [getD_toList l.mxtab 0 k.isLt]
  rfl

theorem Slot.mask_checkpoint (vregs : Nat) {k : Fin 8} (hk : k ≠ 0) :
    (0x400 + 128 * k.val, 128, (l.m[k]).toNat) ∈ l.checkpointPieces pc vregs := by
  have hpos : k.val ≠ 0 := fun e => hk (Fin.ext e)
  refine List.mem_append_right _ (List.mem_append_left _ (List.mem_map.2 ⟨k.val - 1, List.mem_range.2 (by omega), ?_⟩))
  rw [Nat.sub_add_cancel (by omega), getD_toList l.m 0 k.isLt]
  rfl

theorem Slot.vector_checkpoint {vregs : Nat} {n : Fin 48} (hn : n.val < vregs) :
    (0x800 + 512 * n.val, 512, (l.v[n]).toNat) ∈ l.checkpointPieces pc vregs := by
  refine List.mem_append_right _ (List.mem_append_right _ (List.mem_map.2 ⟨n.val, List.mem_range.2 hn, ?_⟩))
  rw [Slot.rv, getD_toList l.v 0 n.isLt]
  rfl

end

theorem taskWord_lt (task : BitVec 32) (role : Role) (entry : BitVec 2) (occ : Bool) :
    task.toNat + roleCode role * 2 ^ 32 + entry.toNat * 2 ^ 34 + b2n occ * 2 ^ 36 < 2 ^ (8 * 8) := by
  have hrole : roleCode role ≤ 2 := by cases role <;> decide
  have hocc : b2n occ ≤ 1 := by cases occ <;> decide
  have htask := task.isLt
  have hentry := entry.isLt
  omega

end Sys2Proof.Machine
end

section
/-! PHASE with the checkpoint flag (R220, R228, R360). -/

namespace Sys2Proof.Machine

/-! ## PHASE with the checkpoint flag -/

theorem State.wf_departed {s : State} (w : s.mem.wf = true) (r : SlotRef) (sc : Scope) : (s.departed r sc).mem.wf = true := by
  cases sc with
  | core => exact w
  | cluster => exact w
  | die => exact w
  | package => exact Memory.wf_setAll (Memory.wf_setAll w _) _
  | system => exact Memory.wf_setAll (Memory.wf_setAll w _) _

theorem State.queues_departed (s : State) (r : SlotRef) (sc : Scope) :
    (s.departed r sc).queues = s.queues ∧ (s.departed r sc).launches = s.launches := by
  cases sc <;> exact ⟨rfl, rfl⟩

theorem State.queueOf_phased (s : State) (sc : Scope) : (s.phased sc).queueOf s.cur = s.queueOf s.cur := by
  obtain ⟨hq, hl⟩ := s.queues_departed s.cur sc
  have hslot : ((s.phased sc).slotAt s.cur).launch = s.slot.launch := by rw [s.slotAt_phased, if_pos rfl]; rfl
  unfold State.queueOf State.launchOf State.queue State.launch
  rw [hslot]
  exact congrArg₂ (fun qs ls => tget Queue.blank qs (tget Launch.blank ls s.slot.launch).queue) hq hl

theorem State.vregs_phased (s : State) (sc : Scope) : ((s.phased sc).core s.cur.core).vregs = s.here.vregs := by
  unfold State.phased
  rw [State.core_modCore_same, s.core_departed]
  rfl

theorem State.queueOf_mapSlot (s : State) {f : Slot → Slot} (hf : (f s.slot).launch = s.slot.launch) :
    (s.mapSlot f).queueOf s.cur = s.queueOf s.cur := by
  have hslot : ((s.mapSlot f).slotAt s.cur).launch = s.slot.launch := by rw [State.slotAt_mapSlot, if_pos rfl]; exact hf
  unfold State.queueOf State.launchOf
  rw [hslot]
  rfl

theorem State.vregs_mapSlot (s : State) (f : Slot → Slot) : ((s.mapSlot f).core s.cur.core).vregs = s.here.vregs :=
  Eq.trans (by rfl) (congrArg Core.vregs ((deviceKept_setSlot s s.cur (f s.slot)).2 s.cur.core))

section
variable (s : State) (cs : List (Nat × Byte)) (r : SlotRef) (f : Slot → Slot)
theorem State.mem_homeWrite_modSlot : ((s.homeWrite cs).modSlot r f).mem = s.mem.setAll cs := rfl
theorem State.cur_homeWrite_modSlot : ((s.homeWrite cs).modSlot r f).cur = s.cur := rfl
theorem State.slotAt_homeWrite_modSlot (q : SlotRef) :
    ((s.homeWrite cs).modSlot r f).slotAt q = if q = r then f (s.slotAt r) else s.slotAt q := State.slotAt_modSlot _ _ _ _
end

theorem State.mem_writeCheckpoint (s : State) (r : SlotRef) : (s.writeCheckpoint r).mem = s.mem.setAll
    (piecesAt (s.checkpointAt r) ((s.slotAt r).checkpointPieces ((s.slotAt r).pc + 4) (s.core r.core).vregs)) := by
  unfold State.writeCheckpoint
  exact State.mem_homeWrite_modSlot _ _ _ _

theorem State.cur_writeCheckpoint (s : State) (r : SlotRef) : (s.writeCheckpoint r).cur = s.cur := by
  unfold State.writeCheckpoint
  exact State.cur_homeWrite_modSlot _ _ _ _

theorem State.slotAt_writeCheckpoint (s : State) (r q : SlotRef) : (s.writeCheckpoint r).slotAt q = if q = r then
    { s.slotAt r with
      ckpt := true
      ckIssued := [(s.slotAt r).issuedVecs, (s.slotAt r).issuedCopies, (s.slotAt r).issuedMxs, (s.slotAt r).opens] }
    else s.slotAt q := by
  unfold State.writeCheckpoint
  exact State.slotAt_homeWrite_modSlot _ _ _ _ _

section
variable (s : State)

theorem State.queueOf_joinEnded : s.joinEnded.queueOf s.cur = s.queueOf s.cur := by
  unfold State.joinEnded
  exact s.queueOf_mapSlot rfl

/-- The slot whose checkpoint record PHASE writes. -/
def State.ckptSlot (sc : Scope) : Slot := s.joinEnded.slot.phased s.refclk sc

theorem State.joinEnded_slot : ∃ f, s.joinEnded.slot = s.slot.join f := ⟨_, State.slot_mapSlot _ _⟩

theorem State.ckptSlot_eq (sc : Scope) : ∃ hs, s.ckptSlot sc = { s.slot.phased s.refclk sc with hidden := hs } := by
  obtain ⟨f, hf⟩ := s.joinEnded_slot
  exact ⟨_, by rw [State.ckptSlot, hf]; rfl⟩

variable (sc : Scope)

/-- The state after PHASE with the checkpoint flag. -/
def State.checkpointed : State := ((s.joinEnded.phased sc).writeCheckpoint s.cur).retire

theorem State.slotAt_joinEnded_phased (r : SlotRef) :
    (s.joinEnded.phased sc).slotAt r = if r = s.cur then s.ckptSlot sc else s.slotAt r := by
  refine (s.joinEnded.slotAt_phased sc r).trans ?_
  by_cases hr : r = s.cur
  · rw [if_pos hr]
    exact if_pos hr
  · rw [if_neg hr]
    refine (if_neg hr).trans ?_
    exact (State.slotAt_mapSlot _ _ _).trans (if_neg hr)

theorem State.cur_joinEnded_phased : (s.joinEnded.phased sc).cur = s.cur := s.joinEnded.cur_phased sc

theorem State.mem_checkpointed : (s.checkpointed sc).mem = (s.joinEnded.phased sc).mem.setAll
    (piecesAt ((s.queueOf s.cur).ckbase.toNat + (4 * s.cur.core + s.cur.slot.val) * 32768)
      ((s.ckptSlot sc).checkpointPieces (s.slot.pc + 4) s.here.vregs)) := by
  have hpc : (s.ckptSlot sc).pc = s.slot.pc := by obtain ⟨hs, he⟩ := s.ckptSlot_eq sc; rw [he]; rfl
  have hqueue := (s.joinEnded.queueOf_phased sc).trans s.queueOf_joinEnded
  have hbase : (s.joinEnded.phased sc).checkpointAt s.cur =
      (s.queueOf s.cur).ckbase.toNat + (4 * s.cur.core + s.cur.slot.val) * 32768 :=
    congrArg (fun q : Queue => q.ckbase.toNat + (4 * s.cur.core + s.cur.slot.val) * 32768) hqueue
  have hvregs : ((s.joinEnded.phased sc).core s.cur.core).vregs = s.here.vregs :=
    (s.joinEnded.vregs_phased sc).trans (s.vregs_mapSlot _)
  have hmem : (s.checkpointed sc).mem = ((s.joinEnded.phased sc).writeCheckpoint s.cur).mem := by
    unfold State.checkpointed
    generalize (s.joinEnded.phased sc).writeCheckpoint s.cur = t
    rfl
  rw [hmem, State.mem_writeCheckpoint, hbase, hvregs, s.slotAt_joinEnded_phased, if_pos rfl, hpc]

theorem State.slot_checkpointed : (s.checkpointed sc).slot = { (s.ckptSlot sc).next with
    ckpt := true
    ckIssued := [(s.ckptSlot sc).issuedVecs, (s.ckptSlot sc).issuedCopies, (s.ckptSlot sc).issuedMxs, (s.ckptSlot sc).opens] } := by
  unfold State.checkpointed
  rw [State.retire, State.slot_mapSlot, State.slot, State.cur_writeCheckpoint, s.cur_joinEnded_phased,
    State.slotAt_writeCheckpoint, if_pos rfl, s.slotAt_joinEnded_phased, if_pos rfl]
  rfl

theorem State.othersKept_checkpointed : OthersKept s (s.checkpointed sc) := fun r hr => by
  unfold State.checkpointed
  rw [State.retire, State.slotAt_mapSlot, State.cur_writeCheckpoint, s.cur_joinEnded_phased, if_neg hr,
    State.slotAt_writeCheckpoint, if_neg hr, s.slotAt_joinEnded_phased, if_neg hr]

theorem exec_phase_checkpoint (h : s.scopeOk sc = true) (hmet : s.fenceMet 0 = true) (hf : s.slot.frozen = []) :
    exec (.phase sc true) s = .next (s.checkpointed sc) := by
  show execPhase sc true s = _
  unfold execPhase State.engineWait State.checkpointed
  rw [h, hmet, hf, ← s.joinEnded.phased_eq sc]
  rfl

theorem phase_stalls (h : s.scopeOk sc = true) (hmet : s.fenceMet 0 = false) : Stalls s (.phase sc true) := by
  refine ⟨.condition, becomes_of s _ (fun l => { l with stalled := true, stall := .condition }) ?_ rfl rfl⟩
  show execPhase sc true s = _
  unfold execPhase State.engineWait
  rw [h, hmet]
  rfl

/-- A frozen copy that no wait has reported comes first, and is joined (R228). -/
theorem phase_frozen (h : s.scopeOk sc = true) (hmet : s.fenceMet 0 = true) {f : Nat × W64} {fs : List (Nat × W64)}
    (hf : s.slot.frozen = f :: fs) : exec (.phase sc true) s =
      .next ((s.mapSlot fun l => { l with frozen := fs, hidden := l.hidden.map fun h =>
        if h.queue = 1 ∧ h.ord = f.1 then { h with joined := true } else h }).trap .wmFrozen f.2 (Instr.phase sc true).encode) := by
  show execPhase sc true s = _
  unfold execPhase State.engineWait
  rw [h, hmet, hf]
  have hslot : ({ s.slot with frozen := s.slot.frozen.erase f } : Slot).join (fun h => h.queue == 1 && h.ord == f.1) =
      { s.slot with frozen := fs, hidden := s.slot.hidden.map fun h =>
        if h.queue = 1 ∧ h.ord = f.1 then { h with joined := true } else h } := by
    rw [hf, List.erase_cons_head]
    unfold Slot.join
    simp only [Bool.and_eq_true, beq_iff_eq]
  exact congrArg (fun l => Host.Outcome.next ((s.setSlot s.cur l).trap .wmFrozen f.2 (Instr.phase sc true).encode)) hslot

end

/-- What a reader of the record finds of the slot (R360). -/
theorem State.peek_checkpointed {s : State} (sc : Scope) (w : s.mem.wf = true) {o k v : Nat}
    (hp : (o, k, v) ∈ (s.ckptSlot sc).checkpointPieces (s.slot.pc + 4) s.here.vregs) (hv : v < 2 ^ (8 * k)) :
    (s.checkpointed sc).peek ((s.queueOf s.cur).ckbase.toNat + (4 * s.cur.core + s.cur.slot.val) * 32768 + o) k = v := by
  have hwf : (s.joinEnded.phased sc).mem.wf = true := State.wf_departed (s := s.joinEnded) w _ _
  exact State.peek_piecesAt (s := s.joinEnded.phased sc) hwf (s.mem_checkpointed sc) (Slot.rising_checkpointPieces _ _ _) hp hv

theorem State.peek_checkpointed_block {s : State} (sc : Scope) (w : s.mem.wf = true) {o k v : Nat}
    (hp : (o, k, v) ∈ (s.ckptSlot sc).blockPieces (s.slot.pc + 4)) (hv : v < 2 ^ (8 * k)) :
    (s.checkpointed sc).peek ((s.queueOf s.cur).ckbase.toNat + (4 * s.cur.core + s.cur.slot.val) * 32768 + o) k = v :=
  State.peek_checkpointed sc w (List.mem_append_left _ hp) hv

theorem taskWord_eq (task role entry : Nat) (occ : Bool) : task + role * 2 ^ 32 + entry * 2 ^ 34 + b2n occ * 2 ^ 36 =
    task + 2 ^ 32 * (role + 4 * entry + if occ then 16 else 0) := by
  cases occ
  · show task + role * 2 ^ 32 + entry * 2 ^ 34 + 0 * 2 ^ 36 = task + 2 ^ 32 * (role + 4 * entry + 0)
    omega
  · show task + role * 2 ^ 32 + entry * 2 ^ 34 + 1 * 2 ^ 36 = task + 2 ^ 32 * (role + 4 * entry + 16)
    omega

theorem roleCode_eq (r : Role) : roleCode r = match r with | .epilogue => 0 | .arith => 1 | .loader => 2 := by cases r <;> rfl

theorem predicates_even (p : BitVec 8) : p.toNat / 2 * 2 = (p &&& 0xFE).toNat := by
  revert p; decide +revert

/-- The checkpoint record (R360). -/
theorem checkpoint_record {s : State} (sc : Scope) (w : s.mem.wf = true) :
    let t := s.checkpointed sc
    let base := (s.queueOf s.cur).ckbase.toNat + (4 * s.cur.core + s.cur.slot.val) * 32768
    t.peek base 8 = (s.slot.pc + 4).toNat ∧
    (∀ r : XReg, r ≠ 0 → t.peek (base + 8 * r.toNat) 8 = (s.rx r).toNat) ∧
    t.peek (base + 0x180) 8 = s.slot.task.toNat +
      2 ^ 32 * ((match s.slot.role with | .epilogue => 0 | .arith => 1 | .loader => 2) + 4 * s.slot.entry.toNat +
        if s.slot.occ then 16 else 0) ∧
    t.peek (base + 0x100) 8 = (s.slot.p &&& 0xFE).toNat ∧
    (∀ k : Fin 8, t.peek (base + 0x108 + 2 * k.val) 2 = (s.slot.tok[k]).toNat) ∧
    (∀ k v, [s.slot.ageLimit, s.slot.gangctl, s.slot.parklim, s.slot.fpctl, s.slot.accanch, s.slot.vcfg, s.slot.tvec,
        s.slot.tcause, s.slot.tpc, s.slot.tval, s.slot.tword, s.slot.tstat &&& ~~~0x80#64][k]? = some v →
      t.peek (base + 0x120 + 8 * k) 8 = v.toNat) ∧
    (∀ k : Fin 16, t.peek (base + 0x200 + 16 * k.val) 16 = (s.slot.mxtab[k]).toNat) ∧
    (∀ k : Fin 8, k ≠ 0 → t.peek (base + 0x400 + 128 * k.val) 128 = (s.slot.m[k]).toNat) ∧
    (∀ n : Fin 48, n.val < s.here.vregs → t.peek (base + 0x800 + 512 * n.val) 512 = (s.slot.v[n]).toNat) := by
  intro t base
  obtain ⟨hs, hl⟩ := s.ckptSlot_eq sc
  have block : ∀ {o k v : Nat}, (o, k, v) ∈ Slot.blockPieces { s.slot.phased s.refclk sc with hidden := hs } (s.slot.pc + 4) →
      v < 2 ^ (8 * k) → t.peek (base + o) k = v := fun hp hv => State.peek_checkpointed_block sc w (hl ▸ hp) hv
  have rest : ∀ {o k v : Nat}, (o, k, v) ∈ Slot.checkpointPieces { s.slot.phased s.refclk sc with hidden := hs } (s.slot.pc + 4)
      s.here.vregs → v < 2 ^ (8 * k) → t.peek (base + o) k = v := fun hp hv => State.peek_checkpointed sc w (hl ▸ hp) hv
  refine ⟨?_, fun r hr => ?_, ?_, ?_, fun k => ?_, fun k v hv => ?_, fun k => ?_, fun k hk => ?_, fun n hn => ?_⟩
  · rw [← Nat.add_zero base]
    exact block (Slot.pc_block _ _) (BitVec.isLt _)
  · exact block (Slot.rx_block _ _ hr) (BitVec.isLt _)
  · rw [block (Slot.task_block _ _) (taskWord_lt _ _ _ _), ← roleCode_eq]
    exact taskWord_eq _ _ _ _
  · rw [← predicates_even]
    refine block (Slot.p_block _ _) ?_
    have := s.slot.p.isLt
    show s.slot.p.toNat / 2 * 2 < 2 ^ 64
    omega
  · rw [Nat.add_assoc]
    exact block (Slot.tok_block _ _ k) (BitVec.isLt _)
  · rw [Nat.add_assoc]
    exact block (Slot.csr_block _ _ hv) (BitVec.isLt _)
  · rw [Nat.add_assoc]
    exact block (Slot.mxtab_block _ _ k) (BitVec.isLt _)
  · rw [Nat.add_assoc]
    exact rest (Slot.mask_checkpoint _ _ _ hk) (s.slot.m[k]).isLt
  · rw [Nat.add_assoc]
    exact rest (Slot.vector_checkpoint _ _ hn) (BitVec.isLt _)

/-- The bytes that a publication at package or system scope has brought home. -/
theorem phase_home {s : State} {sc : Scope} (hsc : sc = .package ∨ sc = .system) (w : s.mem.wf = true) :
    (∀ g n, tmem s.slot.pend n = true → (s.phased sc).retire.vis g n = (s.phased sc).retire.mem.get n ∧
      ((s.slot.pend.map (·.1)).Nodup → (s.phased sc).retire.mem.get n = tget 0 s.slot.pend n)) ∧
    ∀ n o os, tmem s.slot.pend n = false → s.overlay.filter (fun x => x.loc == n) = o :: os →
      (∀ x, x ∈ o :: os → x.uid = s.slot.uid ∧ (x.eng = none ∨ s.slot.joinedHere x = true)) →
      (s.phased sc).retire.mem.get n = o.byte ∧ ∀ g, (s.phased sc).retire.vis g n = o.byte := by
  refine ⟨fun g n hn => s.departed_wide_stored s.cur hsc w hn g, fun n o os hn hos hown => ?_⟩
  refine s.departed_wide_newest s.cur hsc w hn hos fun x hx => ?_
  obtain ⟨huid, heng⟩ := hown x hx
  rcases heng with heng | heng
  · have hu : x.uid = (s.slotAt s.cur).uid := huid
    simp [Slot.ownOver, heng, hu]
  · exact Bool.or_eq_true_iff.2 (.inr heng)

/-- Settles O27: PHASE leaves the state `State.phased`, whose bytes on the way and memory are those of `State.departed`, and
the checkpoint record is a list of pieces that lie apart from each other. -/
theorem publishingAndCheckpoints : Obligations.PublishingAndCheckpoints := by
  unfold Obligations.PublishingAndCheckpoints
  refine ⟨fun s sc => ⟨fun hsc hl hi c => phase_determinism hsc hl hi c, fun h => ?_⟩, fun s sc h w => ⟨?_, ?_, ?_⟩⟩
  · refine ⟨(s.phased sc).retire, exec_phase (State.scopeOk_of h), ?_, s.othersKept_phase sc, s.rest_phase sc, s.carries_phase sc,
      fun hsc => ?_, fun hsc hb n b hp hn => s.host_phase hsc hb hp hn, s.core_phase sc, fun x hx => s.shoots_phase sc hx,
      fun o ho => s.joined_departed s.cur ho, fun hsc => ?_, fun hsc hown => ?_, fun hsc w => phase_home hsc w⟩
    · exact (s.slot_phase sc).trans (Slot.next_phased _ _ _)
    · exact (s.departed_narrow s.cur hsc).2.2
    · obtain ⟨hmem, hpoison, -⟩ := s.departed_narrow s.cur hsc
      refine ⟨hmem, hpoison, fun g n => ?_⟩
      rw [s.vis_phase, s.vis_departed_narrow s.cur hsc, sees_published hsc]
      rfl
    · obtain ⟨hmem, hvis⟩ := s.departed_wide_other s.cur hsc hown
      exact ⟨hmem, hvis⟩
  · exact phase_stalls s sc (State.scopeOk_of h)
  · intro hmet hf
    obtain ⟨hs, hl⟩ := s.ckptSlot_eq sc
    have hslot := s.slot_checkpointed sc
    rw [hl] at hslot
    exact ⟨s.checkpointed sc, exec_phase_checkpoint s sc (State.scopeOk_of h) hmet hf, (congrArg Slot.ckpt hslot :),
      (congrArg Slot.pend hslot :), (congrArg Slot.pc hslot :), (congrArg Slot.x hslot :), s.othersKept_checkpointed sc,
      checkpoint_record sc w⟩
  · intro f fs hmet hf hi
    exact ⟨_, phase_frozen s sc (State.scopeOk_of h) hmet hf,
      trapped_trap _ _ _ _ rfl ((State.slot_mapSlot _ _).symm ▸ hi)⟩

end Sys2Proof.Machine
end

section
/-! The parks of slots and of engine entries (R87 to R89). -/

namespace Sys2Proof.Machine

/-! ## Which parks are heard (R87) -/

section
variable {s : State} {g : Nat} {o : ParkOwner} {k : Fin 4} {idx : Option Nat} {p : Park}

/-- The walker walks again for a park. -/
def State.Hears (s : State) (g : Nat) (p : Park) : Prop :=
  if p.monitored = true then (p.entry, true) ∈ s.armed else p.entry ∈ s.monitors (g / 4) ∨
    ((s.monitors (g / 4)).length < 64 ∧ ∀ y, y ∈ s.parksIn (g / 4) → y.monitored = true ∨ p.order ≤ y.order)

theorem State.lineHit_iff (s : State) (p : Park) : s.lineHit p = true ↔ (p.entry, true) ∈ s.armed := by
  unfold State.lineHit
  rw [List.any_eq_true]
  constructor
  · rintro ⟨⟨e, hit⟩, hmem, h⟩
    obtain ⟨he, hh⟩ := Bool.and_eq_true_iff.1 h
    obtain rfl : hit = true := hh
    exact beq_iff_eq.1 he ▸ hmem
  · exact fun h => ⟨_, h, by simp⟩

theorem State.walksAgain_iff (s : State) (g : Nat) (p : Park) : s.walksAgain g p = true ↔ s.Hears g p := by
  unfold State.walksAgain State.Hears clusterOf
  by_cases hm : p.monitored = true
  · rw [if_pos hm, if_pos hm, s.lineHit_iff]
  · rw [if_neg hm, if_neg hm]
    simp only [Bool.or_eq_true, Bool.and_eq_true, List.contains_iff_mem, List.all_eq_true, decide_eq_true_eq]

/-! ## A park of one owner -/

theorem parkWake_deaf (hp : s.parksOf g o = [(k, idx, p)]) (h : ¬ s.Hears g p) : Idle s (.parkWake g o) := by
  have hno : s.walksAgain g p = false := Bool.not_eq_true _ ▸ fun e => h ((s.walksAgain_iff g p).1 e)
  show occurs (s.parkWake g o) s = _
  unfold State.parkWake
  rw [hp, List.findSome?_singleton]
  dsimp only
  rw [hno]
  rfl

/-- What the walker does for the one park of an owner that it hears. -/
theorem parkWake_hears (hp : s.parksOf g o = [(k, idx, p)]) (h : s.Hears g p) {t : State}
    (ht : t = match s.walk (s.queueOf ⟨g, k⟩).troot p.addr.toNat with
      | .ok .. => s.setPark g o k idx none
      | .invalid entry => s.parkAgain g o k idx p entry) : Happens s (.parkWake g o) t := by
  show occurs (s.parkWake g o) s = _
  unfold State.parkWake
  rw [hp, List.findSome?_singleton, ht]
  dsimp only
  rw [(s.walksAgain_iff g p).2 h]
  cases s.walk (s.queueOf ⟨g, k⟩).troot p.addr.toNat <;> rfl

theorem parkWake_goes_on (hp : s.parksOf g o = [(k, idx, p)]) (h : s.Hears g p) {e x y z}
    (hw : s.walk (s.queueOf ⟨g, k⟩).troot p.addr.toNat = .ok e x y z) :
    Happens s (.parkWake g o) (s.setPark g o k idx none) :=
  parkWake_hears hp h (by rw [hw])

theorem parkWake_again (hp : s.parksOf g o = [(k, idx, p)]) (h : s.Hears g p) {e : Nat}
    (hw : s.walk (s.queueOf ⟨g, k⟩).troot p.addr.toNat = .invalid e) :
    Happens s (.parkWake g o) (s.parkAgain g o k idx p e) :=
  parkWake_hears hp h (by rw [hw])

/-- Parking again gives the access a new park at the entry that stopped it, whose limit runs on. -/
theorem State.parkAgain_eq (s : State) (g : Nat) (o : ParkOwner) (k : Fin 4) (idx : Option Nat) (p : Park) (e : Nat) :
    ∃ p1 armed,
      s.parkAgain g o k idx p e =
        ({ s.setPark g o k idx none with armed := armed } : State).setPark g o k idx (some p1) ∧
      p1.addr = p.addr ∧ p1.entry = e ∧ p1.since = p.since ∧ p1.expired = p.expired := by
  have harm : ∀ (t : State) (x : Park), ∃ armed, t.arm x = { t with armed := armed } := fun t x => by
    unfold State.arm
    split
    · exact ⟨_, rfl⟩
    · exact ⟨t.armed, rfl⟩
  unfold State.parkAgain
  generalize s.setPark g o k idx none = t
  obtain ⟨armed, ha⟩ := harm t { t.newPark g p.addr e with since := p.since, expired := p.expired }
  exact ⟨_, armed, congrArg (fun u : State => u.setPark g o k idx _) ha, rfl, rfl, rfl, rfl⟩

theorem parkTimeout_idle (hp : s.parksOf g o = [(k, idx, p)])
    (h : p.expired = true ∨ s.refclk - p.since < ((s.slotAt ⟨g, k⟩).parklim.extractLsb' 0 16).toNat * 1024) :
    Idle s (.parkTimeout g o) := by
  have hno : (p.expired || decide (s.refclk - p.since < bits (s.slotAt ⟨g, k⟩).parklim 15 0 * 1024)) = true := by
    rw [toNat_extract _ 15 0 16 rfl] at h
    rcases h with h | h
    · rw [h]; rfl
    · rw [decide_eq_true h, Bool.or_true]
  show occurs (s.parkTimeout g o) s = _
  unfold State.parkTimeout
  rw [hp, List.findSome?_singleton]
  dsimp only
  rw [if_pos hno]
  rfl

end

/-! ## The park of a slot -/

section
variable {s : State} {g : Nat} {k : Fin 4} {p : Park}

theorem State.parksOf_slot (h : (s.slotAt ⟨g, k⟩).park = some p) : s.parksOf g (.slot k.val) = [(k, none, p)] := by
  unfold State.parksOf
  dsimp only
  rw [slotRef_val, h]

theorem State.parksOf_slot_none (h : (s.slotAt ⟨g, k⟩).park = none) : s.parksOf g (.slot k.val) = [] := by
  unfold State.parksOf
  dsimp only
  rw [slotRef_val, h]

theorem park_none_idle (h : (s.slotAt ⟨g, k⟩).park = none) :
    Idle s (.parkWake g (.slot k.val)) ∧ Idle s (.parkTimeout g (.slot k.val)) := by
  constructor
  · show occurs (s.parkWake g (.slot k.val)) s = _
    unfold State.parkWake
    rw [State.parksOf_slot_none h]
    rfl
  · show occurs (s.parkTimeout g (.slot k.val)) s = _
    unfold State.parkTimeout
    rw [State.parksOf_slot_none h]
    rfl

theorem State.slotAt_setPark_slot (s : State) (g n : Nat) (k : Fin 4) (x : Option Park) (r : SlotRef) :
    (s.setPark g (.slot n) k none x).slotAt r =
      if r = ⟨g, k⟩ then { s.slotAt ⟨g, k⟩ with park := x } else s.slotAt r := State.slotAt_modSlot _ _ _ _

theorem slot_goes_on (h : (s.slotAt ⟨g, k⟩).park = some p) (hh : s.Hears g p) {e x y z}
    (hw : s.walk (s.queueOf ⟨g, k⟩).troot p.addr.toNat = .ok e x y z) :
    Happens s (.parkWake g (.slot k.val)) (s.setSlot ⟨g, k⟩ { s.slotAt ⟨g, k⟩ with park := none }) :=
  parkWake_goes_on (State.parksOf_slot h) hh hw

theorem slot_parks_again (h : (s.slotAt ⟨g, k⟩).park = some p) (hh : s.Hears g p) {e : Nat}
    (hw : s.walk (s.queueOf ⟨g, k⟩).troot p.addr.toNat = .invalid e) : ∃ t p1, Happens s (.parkWake g (.slot k.val)) t ∧
      t.slotAt ⟨g, k⟩ = { s.slotAt ⟨g, k⟩ with park := some p1 } ∧ p1.addr = p.addr ∧ p1.entry = e ∧ p1.since = p.since ∧
      p1.expired = p.expired ∧ (∀ y, y ≠ ⟨g, k⟩ → t.slotAt y = s.slotAt y) ∧ t.mem = s.mem := by
  obtain ⟨p1, armed, ht, haddr, hentry, hsince, hexp⟩ := s.parkAgain_eq g (.slot k.val) k none p e
  let u : State := { s.setPark g (.slot k.val) k none none with armed := armed }
  have hu : ∀ r, u.slotAt r = if r = ⟨g, k⟩ then { s.slotAt ⟨g, k⟩ with park := none } else s.slotAt r :=
    s.slotAt_setPark_slot g k.val k none
  refine ⟨_, p1, parkWake_again (State.parksOf_slot h) hh hw, ?_, haddr, hentry, hsince, hexp, fun y hy => ?_, ?_⟩
  · rw [ht, u.slotAt_setPark_slot, if_pos rfl, hu, if_pos rfl]
  · rw [ht, u.slotAt_setPark_slot, if_neg hy, hu, if_neg hy]
  · rw [ht]; rfl

/-- Reading the word at fault changes at most the count of free values. -/
theorem State.wordAt_eq (s : State) (r : SlotRef) : ∃ w t n, s.wordAt r = (w, t) ∧
    t.slotAt r = { s.slotAt r with evOpens := n } ∧ (∀ q, q ≠ r → t.slotAt q = s.slotAt q) ∧ t.mem = s.mem := by
  unfold State.wordAt
  dsimp only
  split
  · exact ⟨_, s, (s.slotAt r).evOpens, rfl, rfl, fun _ _ => rfl, rfl⟩
  · unfold State.freeFor State.freeAs
    dsimp only
    split
    · exact ⟨_, _, _, rfl, State.slotAt_modSlot_same _ _ _, fun q hq => (State.slotAt_modSlot _ _ _ _).trans (if_neg hq), rfl⟩
    · exact ⟨_, _, _, rfl, State.slotAt_modSlot_same _ _ _, fun q hq => (State.slotAt_modSlot _ _ _ _).trans (if_neg hq), rfl⟩

theorem bits_zero_of_low {x : W64} (h : bits x 31 0 = 1) : bits x 0 0 = 1 := by
  simp only [bits] at h ⊢
  omega

theorem slot_times_out (h : (s.slotAt ⟨g, k⟩).park = some p) (he : p.expired = false)
    (hl : ((s.slotAt ⟨g, k⟩).parklim.extractLsb' 0 16).toNat * 1024 ≤ s.refclk - p.since)
    (hi : (s.slotAt ⟨g, k⟩).inh = false) : ∃ t, Happens s (.parkTimeout g (.slot k.val)) t ∧
      (t.slotAt ⟨g, k⟩).tcause = 0x11 ∧ (t.slotAt ⟨g, k⟩).tval = p.addr ∧
      (t.slotAt ⟨g, k⟩).tpc = (s.slotAt ⟨g, k⟩).trapPc ∧ (t.slotAt ⟨g, k⟩).pc = (s.slotAt ⟨g, k⟩).tvec ∧
      (t.slotAt ⟨g, k⟩).park = none ∧ (t.slotAt ⟨g, k⟩).x = (s.slotAt ⟨g, k⟩).x ∧ bits (t.slotAt ⟨g, k⟩).tstat 0 0 = 1 ∧
      (∀ p, p ≠ ⟨g, k⟩ → t.slotAt p = s.slotAt p) ∧ t.mem = s.mem := by
  obtain ⟨w, u, n, hu, hslot, hothers, hmem⟩ := s.wordAt_eq ⟨g, k⟩
  rw [toNat_extract _ 15 0 16 rfl] at hl
  have hno : (p.expired || decide (s.refclk - p.since < bits (s.slotAt ⟨g, k⟩).parklim 15 0 * 1024)) = false := by
    rw [he, Bool.false_or, decide_eq_false (Nat.not_lt.2 hl)]
  let trap : PendTrap := { cause := .parkTimeout, tval := p.addr, word := w, qent := 0, orig := 0 }
  have hinh : (u.slotAt ⟨g, k⟩).inh = false := by rw [hslot]; exact hi
  refine ⟨u.modSlot ⟨g, k⟩ (·.enterTrap trap (s.slotAt ⟨g, k⟩).trapPc), ?_, ?_⟩
  · show occurs (s.parkTimeout g (.slot k.val)) s = _
    unfold State.parkTimeout
    rw [State.parksOf_slot h, List.findSome?_singleton]
    dsimp only
    rw [if_neg (by rw [hno]; exact Bool.false_ne_true), hu]
    dsimp only
    rw [State.takeTrap, hinh]
    rfl
  · rw [State.slotAt_modSlot_same, hslot]
    refine ⟨rfl, rfl, rfl, rfl, rfl, rfl, bits_zero_of_low (bits_trapStat_low _ trap rfl rfl), fun q hq => ?_, hmem⟩
    rw [State.slotAt_modSlot, if_neg hq, hothers q hq]

end

/-! ## The park of an engine's entry -/

theorem Core.slots_modRec (c : Core) (w : Which) (i : Nat) (f : QRec → QRec) : (c.modRec w i f).slots = c.slots := by
  cases w <;> rfl

theorem Core.queue_modRec (c : Core) (w : Which) (i : Nat) (f : QRec → QRec) :
    ((c.modRec w i f).queue w).recs = (c.queue w).recs.map fun r => if r.idx = i then f r else r := by
  cases w <;> rfl

theorem State.queue_modSlot (s : State) (r : SlotRef) (f : Slot → Slot) (g : Nat) (w : Which) :
    ((s.modSlot r f).core g).queue w = (s.core g).queue w := by
  unfold State.modSlot State.setSlot
  rw [State.core_setCore]
  split
  · next h => rw [h]; cases w <;> rfl
  · rfl

section
variable {s : State} {g : Nat} {k : Fin 4} {e : EngId} {q : QRec} {p : Park}

/-- The one record in the queue of an engine is parked. -/
structure State.EngineParked (s : State) (g : Nat) (k : Fin 4) (e : EngId) (q : QRec) (p : Park) : Prop where
  recs : ((s.core g).queue (whichOf e)).recs = [q]
  slot : q.slot = k
  park : q.park = some p

theorem State.EngineParked.parksOf (h : s.EngineParked g k e q p) : s.parksOf g (.engine e) = [(k, some q.idx, p)] := by
  unfold State.parksOf
  dsimp only
  rw [h.recs, List.filterMap_cons, h.park, h.slot]
  rfl

theorem State.EngineParked.recs_setPark (h : s.EngineParked g k e q p) (x : Option Park) :
    (((s.setPark g (.engine e) k (some q.idx) x).core g).queue (whichOf e)).recs = [{ q with park := x }] := by
  show (((s.modCore g fun c => c.modRec (whichOf e) q.idx fun r => { r with park := x }).core g).queue _).recs = _
  rw [State.core_modCore_same, Core.queue_modRec, h.recs, List.map_singleton, if_pos rfl]

theorem State.slotAt_setPark_engine (s : State) (g : Nat) (e : EngId) (k : Fin 4) (i : Nat) (x : Option Park) (r : SlotRef) :
    (s.setPark g (.engine e) k (some i) x).slotAt r = s.slotAt r :=
  State.slotAt_modCore s g _ r fun c => c.slots_modRec _ _ _

theorem State.EngineParked.again (h : s.EngineParked g k e q p) (hh : s.Hears g p) {a : Nat}
    (hw : s.walk (s.queueOf ⟨g, k⟩).troot p.addr.toNat = .invalid a) : ∃ t p1, Happens s (.parkWake g (.engine e)) t ∧
      ((t.core g).queue (whichOf e)).recs = [{ q with park := some p1 }] ∧
      ((∀ y, t.slotAt y = s.slotAt y) ∧ t.mem = s.mem) ∧ p1.addr = p.addr ∧ p1.entry = a ∧ p1.since = p.since ∧
      p1.expired = p.expired := by
  obtain ⟨p1, armed, ht, haddr, hentry, hsince, hexp⟩ := s.parkAgain_eq g (.engine e) k (some q.idx) p a
  let u : State := { s.setPark g (.engine e) k (some q.idx) none with armed := armed }
  have hu : ((u.core g).queue (whichOf e)).recs = [{ q with park := none }] := h.recs_setPark none
  refine ⟨_, p1, parkWake_again h.parksOf hh hw, ?_, ⟨fun y => ?_, ?_⟩, haddr, hentry, hsince, hexp⟩
  · rw [ht]
    show (((u.modCore g fun c => c.modRec (whichOf e) q.idx fun r => { r with park := some p1 }).core g).queue _).recs = _
    rw [State.core_modCore_same, Core.queue_modRec, hu, List.map_singleton, if_pos rfl]
  · rw [ht]
    exact (u.slotAt_setPark_engine g e k q.idx (some p1) y).trans (s.slotAt_setPark_engine g e k q.idx none y)
  · rw [ht]; rfl

/-- Another trap of the entry's queue is pending, which holds the timeout up (R367). -/
theorem State.EngineParked.held_up (h : s.EngineParked g k e q p)
    (hx : ∃ x, x ∈ (s.slotAt ⟨g, k⟩).engTraps ∧ x.orig = (whichOf e).orig) : Idle s (.parkTimeout g (.engine e)) := by
  have hany : ((s.slotAt ⟨g, k⟩).engTraps.any fun x => x.orig == (whichOf e).orig) = true := by
    obtain ⟨x, hmem, ho⟩ := hx
    exact List.any_eq_true.2 ⟨x, hmem, beq_iff_eq.2 ho⟩
  show occurs (s.parkTimeout g (.engine e)) s = _
  unfold State.parkTimeout
  rw [h.parksOf, List.findSome?_singleton]
  dsimp only
  rw [hany]
  split <;> rfl

theorem State.EngineParked.times_out (h : s.EngineParked g k e q p) (he : p.expired = false)
    (hl : ((s.slotAt ⟨g, k⟩).parklim.extractLsb' 0 16).toNat * 1024 ≤ s.refclk - p.since)
    (hn : (s.slotAt ⟨g, k⟩).engTraps = []) : ∃ t x, Happens s (.parkTimeout g (.engine e)) t ∧
      ((t.core g).queue (whichOf e)).recs = [{ q with park := some { p with expired := true } }] ∧
      (t.slotAt ⟨g, k⟩).engTraps = [x] ∧ x.cause = .parkTimeout ∧ x.tval = p.addr ∧ x.word = q.instr.encode ∧
      x.qent = BitVec.ofNat 8 q.idx ∧ x.orig = (whichOf e).orig ∧ (t.slotAt ⟨g, k⟩).pc = (s.slotAt ⟨g, k⟩).pc ∧
      (t.slotAt ⟨g, k⟩).x = (s.slotAt ⟨g, k⟩).x ∧ (∀ y, y ≠ ⟨g, k⟩ → t.slotAt y = s.slotAt y) ∧ t.mem = s.mem := by
  rw [toNat_extract _ 15 0 16 rfl] at hl
  have hno : (p.expired || decide (s.refclk - p.since < bits (s.slotAt ⟨g, k⟩).parklim 15 0 * 1024)) = false := by
    rw [he, Bool.false_or, decide_eq_false (Nat.not_lt.2 hl)]
  let u := s.setPark g (.engine e) k (some q.idx) (some { p with expired := true })
  let x := q.report (whichOf e) .parkTimeout p.addr
  have hslot : u.slotAt ⟨g, k⟩ = s.slotAt ⟨g, k⟩ := s.slotAt_setPark_engine _ _ _ _ _ _
  have hpend : (u.pendTrap ⟨g, k⟩ x).slotAt ⟨g, k⟩ =
      { s.slotAt ⟨g, k⟩ with engTraps := [{ x with stop := u.stopTime }], stalled := false } := by
    unfold State.pendTrap
    rw [State.slotAt_modSlot_same, hslot, hn]
    rfl
  refine ⟨u.pendTrap ⟨g, k⟩ x, { x with stop := u.stopTime }, ?_, ?_, ?_⟩
  · show occurs (s.parkTimeout g (.engine e)) s = _
    unfold State.parkTimeout
    rw [h.parksOf, List.findSome?_singleton]
    dsimp only
    rw [if_neg (by rw [hno]; exact Bool.false_ne_true), hn, h.recs, List.find?_cons, beq_self_eq_true]
    rfl
  · unfold State.pendTrap
    rw [State.queue_modSlot]
    exact h.recs_setPark _
  · rw [hpend]
    refine ⟨rfl, rfl, rfl, rfl, rfl, rfl, rfl, rfl, fun y hy => ?_, rfl⟩
    unfold State.pendTrap
    rw [State.slotAt_modSlot, if_neg hy]
    exact s.slotAt_setPark_engine _ _ _ _ _ _

end

end Sys2Proof.Machine
end

section
/-! Shootdowns: how they are posted, acknowledged, and stop a task (R91 to R93). -/

namespace Sys2Proof.Machine

/-! ## A shootdown is posted (R91, R92) -/

section
variable {s : State} {q : Nat} {base : W64} {pages : Nat}

theorem shootdown_waits (hp : s.rangePinned (s.queue q).troot base pages = true) :
    ((q, base, pages) ∈ s.shootReqs → Idle s (.shootdown q base pages)) ∧
    ((q, base, pages) ∉ s.shootReqs → Happens s (.shootdown q base pages)
      { s with shootReqs := s.shootReqs ++ [(q, base, pages)] }) := by
  constructor
  · intro h
    show occurs (s.shootdown q base pages) s = _
    unfold State.shootdown
    rw [if_pos hp, if_pos (List.contains_iff_mem.2 h)]
    rfl
  · intro h
    show occurs (s.shootdown q base pages) s = _
    unfold State.shootdown
    rw [if_pos hp, if_neg fun e => h (List.contains_iff_mem.1 e)]
    rfl

/-- The tasks that a posted shootdown waits for: those in the core's slots, but none where one of them is of a D2 context (R92). -/
def State.lagging (s : State) (c : Core) : List Nat :=
  if c.slots.toList.any fun l => l.occ && (s.launch l.launch).det == 2 then []
  else (c.slots.toList.filter fun l => l.occ).map fun l => l.uid

theorem Core.mem_slots {c : Core} {l : Slot} : l ∈ c.slots.toList ↔ ∃ j : Fin 4, c.slot j = l := by
  rw [Vector.mem_toList_iff, Vector.mem_iff_getElem]
  exact ⟨fun ⟨i, hi, h⟩ => ⟨⟨i, hi⟩, h⟩, fun ⟨j, h⟩ => ⟨j.val, j.isLt, h⟩⟩

theorem State.mem_lagging {c : Core} (hd : ∀ j, (c.slot j).occ = true → (s.launch (c.slot j).launch).det ≠ 2) (u : Nat) :
    u ∈ s.lagging c ↔ ∃ j, (c.slot j).occ = true ∧ (c.slot j).uid = u := by
  have hno : (c.slots.toList.any fun l => l.occ && (s.launch l.launch).det == 2) ≠ true := fun h => by
    obtain ⟨l, hl, h⟩ := List.any_eq_true.1 h
    obtain ⟨j, rfl⟩ := Core.mem_slots.1 hl
    obtain ⟨ho, hdet⟩ := Bool.and_eq_true_iff.1 h
    exact hd j ho (beq_iff_eq.1 hdet)
  rw [State.lagging, if_neg hno, List.mem_map]
  constructor
  · rintro ⟨l, hl, rfl⟩
    obtain ⟨hl, ho⟩ := List.mem_filter.1 hl
    obtain ⟨j, rfl⟩ := Core.mem_slots.1 hl
    exact ⟨j, ho, rfl⟩
  · rintro ⟨j, ho, rfl⟩
    exact ⟨_, List.mem_filter.2 ⟨Core.mem_slots.2 ⟨j, rfl⟩, ho⟩, rfl⟩

theorem State.lagging_d2 {c : Core} (h : ∃ j, (c.slot j).occ = true ∧ (s.launch (c.slot j).launch).det = 2) :
    s.lagging c = [] := by
  obtain ⟨j, ho, hd⟩ := h
  refine if_pos (List.any_eq_true.2 ⟨_, Core.mem_slots.2 ⟨j, rfl⟩, ?_⟩)
  rw [ho, hd]; rfl

theorem shootdown_posts {g : Nat} {c : Core} (hp : s.rangePinned (s.queue q).troot base pages = false)
    (hc : s.cores = [(g, c)]) (hq : c.context = some q) : Happens s (.shootdown q base pages)
      (({ s with shootReqs := s.shootReqs.erase (q, base, pages) } : State).setCore g { c with shoots := c.shoots ++
        [{ base := base, pages := pages, since := s.refclk, lagging := s.lagging c, stopped := [] }] }) := by
  have hcore : s.core g = c := by rw [State.core, hc, tget_single]
  show occurs (s.shootdown q base pages) s = _
  unfold State.shootdown
  rw [if_neg (by rw [hp]; exact Bool.false_ne_true)]
  dsimp only
  have hone : (s.cores.filter fun (x : Nat × Core) => x.2.context == some q) = [(g, c)] := by
    rw [hc, List.filter_cons_of_pos (by rw [hq]; exact beq_self_eq_true _), List.filter_nil]
  subst hcore
  exact congrArg (fun cs : List (Nat × Core) => occurs (some (cs.foldl (fun s (g, _) => s.postShoot g base pages)
    ({ s with shootReqs := s.shootReqs.erase (q, base, pages) } : State))) s) hone

end

/-! ## A shootdown is acknowledged (R92) -/

/-- With nothing to bring home only what is left on the way changes. -/
theorem State.land_nil (s : State) (left : List Over) : s.land [] left = { s with overlay := left } := by
  have hpoison : (s.poison.filter fun g => !((List.range 64).all fun k => ([] : List (Nat × Byte)).any fun c => c.1 == 64 * g + k)) =
      s.poison := List.filter_eq_self.2 fun _ _ => rfl
  have harmed : (s.armed.map fun (e, hit) => (e, hit || ([] : List (Nat × Byte)).any fun c => c.1 / 128 == e / 128)) = s.armed := by
    refine List.map_id'' (fun x => ?_) _
    exact Prod.ext rfl (Bool.or_false x.2)
  unfold State.land
  rw [hpoison, harmed]
  rfl

/-- With nothing on its way a write-back changes nothing. -/
theorem State.flushBy_of_nil {s : State} (h : s.overlay = []) (p : Over → Bool) : s.flushBy p = s := by
  unfold State.flushBy
  simp only [h, List.reverse_nil, List.filter_nil, List.map_nil, State.land_nil]
  show ({ s with overlay := [], outbox := s.outbox ++ [] } : State) = s
  rw [List.append_nil, ← h]

/-- The physical page of a one-page entry. -/
theorem ptePa_one (e : W64) (v : Nat) : ptePa e 1 (65536 * v) / 65536 = (e.extractLsb' 16 36).toNat := by
  rw [toNat_extract _ 51 16 36 rfl, ptePa]
  omega

theorem TlbEntry.touches_self {e : TlbEntry} {x : Shoot} (he : e.pages = 1) (hx : x.pages = 1)
    (hv : e.vpn = x.base.toNat / 65536 % 2 ^ 39) : e.touches x = true := by
  unfold TlbEntry.touches
  rw [hv, he, hx]
  exact decide_eq_true ⟨Nat.lt_succ_self _, Nat.lt_succ_self _⟩

theorem Core.mapsTo_one {c : Core} {e : TlbEntry} {x : Shoot} (hc : c.tlb = [e]) (he : e.pages = 1) (hx : x.pages = 1)
    (hv : e.vpn = x.base.toNat / 65536 % 2 ^ 39) (loc : Nat) :
    c.mapsTo x loc = (loc / 65536 == (e.pte.extractLsb' 16 36).toNat) := by
  unfold Core.mapsTo
  have hrange : List.range 1 = [0] := rfl
  rw [hc, List.any_cons, List.any_nil, Bool.or_false, TlbEntry.touches_self he hx hv, Bool.true_and, hx, hrange, List.any_cons,
    List.any_nil, Bool.or_false]
  dsimp only
  rw [he, ptePa_one, hv, Nat.add_zero, decide_eq_true ⟨Nat.le_refl _, Nat.lt_succ_self _⟩, Bool.true_and]

section
variable {s : State} {g : Nat} {x : Shoot}

/-- What a core writes back when it acknowledges a shootdown. -/
def State.ackFlush (s : State) (g : Nat) (x : Shoot) (o : Over) : Bool :=
  o.eng.isNone && o.sees g && (s.core g).mapsTo x o.loc

theorem shootdownAck_idle (hs : (s.core g).shoots = [x]) (h : x.lagging ≠ []) : Idle s (.shootdownAck g) := by
  have hno : x.lagging.isEmpty = false := by rw [List.isEmpty_eq_false_iff]; exact h
  show occurs (s.shootAck g) s = _
  unfold State.shootAck
  rw [hs, List.find?_cons, hno]
  rfl

theorem shootdownAck_happens (hs : (s.core g).shoots = [x]) (h : x.lagging = []) : Happens s (.shootdownAck g)
    ((s.flushBy (s.ackFlush g x)).setCore g
      { s.core g with tlb := (s.core g).tlb.filter fun t => !(t.touches x), shoots := [] }) := by
  have hyes : x.lagging.isEmpty = true := by rw [h]; rfl
  show occurs (s.shootAck g) s = _
  unfold State.shootAck
  rw [hs, List.find?_cons, hyes]
  have herase : [x].erase x = [] := List.erase_cons_head _ _
  show Host.Outcome.next (((s.flushBy (s.ackFlush g x)).setCore g { s.core g with
    tlb := (s.core g).tlb.filter fun t => !(t.touches x), shoots := (s.core g).shoots.erase x }).wakeAll) = _
  rw [hs, herase]

variable {o : Over} {e : TlbEntry}

theorem State.ackFlush_one (ho : o.eng = none) (hsees : o.sees g = true) (hc : (s.core g).tlb = [e]) (he : e.pages = 1)
    (hx : x.pages = 1) (hv : e.vpn = x.base.toNat / 65536 % 2 ^ 39) :
    s.ackFlush g x o = (o.loc / 65536 == (e.pte.extractLsb' 16 36).toNat) := by
  unfold State.ackFlush
  rw [ho, hsees, Core.mapsTo_one hc he hx hv]
  rfl

theorem shootdownAck_one (hs : (s.core g).shoots = [x]) (h : x.lagging = []) (hover : s.overlay = [o]) (ho : o.eng = none)
    (hsees : o.sees g = true) (w : s.mem.wf = true) (hc : (s.core g).tlb = [e]) (he : e.pages = 1) (hx : x.pages = 1)
    (hv : e.vpn = x.base.toNat / 65536 % 2 ^ 39) :
    (o.loc / 65536 = (e.pte.extractLsb' 16 36).toNat → ∃ t, Happens s (.shootdownAck g) t ∧ t.mem.get o.loc = o.byte ∧
      t.overlay = [] ∧ (t.core g).shoots = [] ∧ (t.core g).tlb = []) ∧
    (o.loc / 65536 ≠ (e.pte.extractLsb' 16 36).toNat → ∃ t, Happens s (.shootdownAck g) t ∧ t.mem = s.mem ∧
      t.overlay = [o] ∧ (t.core g).shoots = [] ∧ (t.core g).tlb = []) := by
  have hflush := State.ackFlush_one (s := s) (g := g) ho hsees hc he hx hv
  have htlb : ((s.core g).tlb.filter fun t => !(t.touches x)) = [] := by
    rw [hc, List.filter_cons_of_neg (by rw [TlbEntry.touches_self he hx hv]; simp), List.filter_nil]
  constructor
  · intro hloc
    rw [hloc, beq_self_eq_true] at hflush
    refine ⟨_, shootdownAck_happens hs h, ?_, ?_, ?_, ?_⟩
    · exact State.get_flushBy w (os := []) (by rw [hover]; simp) hflush
    · show dropBy _ s.overlay [] = []
      rw [hover, dropBy, if_pos hflush, dropBy]
    · rw [State.core_setCore_same]
    · rw [State.core_setCore_same, htlb]
  · intro hloc
    rw [beq_false_of_ne hloc] at hflush
    obtain ⟨hmem, hkept⟩ := State.flushBy_of_none (s := s) (p := s.ackFlush g x) fun y hy => by
      rw [hover] at hy
      rw [List.mem_singleton.1 hy, hflush]
    refine ⟨_, shootdownAck_happens hs h, hmem, hkept.trans hover, ?_, ?_⟩
    · rw [State.core_setCore_same]
    · rw [State.core_setCore_same, htlb]

theorem shootdownAck_nothing (hs : (s.core g).shoots = [x]) (h : x.lagging = []) (hover : s.overlay = []) : ∃ tlb,
    Happens s (.shootdownAck g) (s.setCore g { s.core g with shoots := [], tlb := tlb }) ∧
      ∀ e, e ∈ tlb ↔ e ∈ (s.core g).tlb ∧ e.touches x = false := by
  have hhap := shootdownAck_happens hs h
  rw [State.flushBy_of_nil hover] at hhap
  refine ⟨_, hhap, fun e => ?_⟩
  rw [List.mem_filter, Bool.not_eq_true']

end

/-! ## A task is stopped in place (R93) -/

theorem State.slotAt_haltTask (s : State) (r p : SlotRef) :
    (s.haltTask r).slotAt p = if p = r then (s.slotAt r).halt else s.slotAt p := by
  refine (State.slotAt_modCore (((s.dropHost (s.slotAt r).uid).withdraw (s.slotAt r).uid).modSlot r Slot.halt) r.core
    (·.haltWork (s.slotAt r).uid) p fun _ => rfl).trans ?_
  exact State.slotAt_modSlot _ _ _ _

theorem State.shoots_haltTask (s : State) (r : SlotRef) (g : Nat) : ((s.haltTask r).core g).shoots = (s.core g).shoots := by
  have hwithdrawn : (((s.dropHost (s.slotAt r).uid).withdraw (s.slotAt r).uid).core g) = s.core g := rfl
  have hkept := ((deviceKept_setSlot ((s.dropHost (s.slotAt r).uid).withdraw (s.slotAt r).uid) r (s.slotAt r).halt).2 g)
  have hmod : ((((s.dropHost (s.slotAt r).uid).withdraw (s.slotAt r).uid).modSlot r Slot.halt).core g).shoots =
      (s.core g).shoots := (congrArg Core.shoots hkept :)
  unfold State.haltTask
  rw [State.core_modCore]
  split
  · next h => rw [← h]; exact hmod
  · exact hmod

section
variable {s : State} {g : Nat} {k : Fin 4} {x : Shoot}

theorem State.lateTasks_one (hs : (s.core g).shoots = [x]) (hl : x.lagging = [(s.slotAt ⟨g, k⟩).uid]) : s.lateTasks g =
    if 800 * s.shootWait ≤ s.refclk - x.since then [(s.slotAt ⟨g, k⟩).uid] else [] := by
  unfold State.lateTasks
  rw [hs]
  by_cases h : 800 * s.shootWait ≤ s.refclk - x.since
  · rw [if_pos h, List.filter_cons_of_pos (by simpa using h), List.filter_nil, List.flatMap_cons, List.flatMap_nil, hl]
    rfl
  · rw [if_neg h, List.filter_cons_of_neg (by simpa using h), List.filter_nil]
    rfl

/-- The overdue tasks of a core. -/
def State.overdue (s : State) (g : Nat) : List SlotRef :=
  (([0, 1, 2, 3] : List (Fin 4)).map fun k => (⟨g, k⟩ : SlotRef)).filter fun r =>
    (s.slotAt r).occ && (s.lateTasks g).contains (s.slotAt r).uid

theorem shootWaitExpiry_early (hs : (s.core g).shoots = [x]) (hl : x.lagging = [(s.slotAt ⟨g, k⟩).uid])
    (ht : s.refclk - x.since < 800 * s.shootWait) : Idle s (.shootWaitExpiry g) := by
  have hnone : s.overdue g = [] := by
    unfold State.overdue
    rw [State.lateTasks_one hs hl, if_neg (Nat.not_le.2 ht)]
    exact List.filter_eq_nil_iff.2 fun r _ => by simp
  show occurs (s.shootExpire g) s = _
  unfold State.shootExpire
  unfold State.overdue at hnone
  dsimp only
  rw [hnone]
  rfl

/-- A filter of the four slots that only one of them passes. -/
theorem filter_slots (g : Nat) (k : Fin 4) {p : SlotRef → Bool} (hk : p ⟨g, k⟩ = true)
    (hne : ∀ j : Fin 4, j ≠ k → p ⟨g, j⟩ = false) :
    (([0, 1, 2, 3] : List (Fin 4)).map fun k => (⟨g, k⟩ : SlotRef)).filter p = [⟨g, k⟩] := by
  have hone : ∀ k : Fin 4, ([0, 1, 2, 3] : List (Fin 4)).filter (· == k) = [k] := by decide
  rw [List.filter_map, List.filter_congr (q := (· == k)) fun j _ => ?_, hone]
  · rfl
  · by_cases hj : j = k
    · rw [hj, beq_self_eq_true]; exact hk
    · rw [beq_false_of_ne hj]; exact hne j hj

theorem shootWaitExpiry_due (hs : (s.core g).shoots = [x]) (hl : x.lagging = [(s.slotAt ⟨g, k⟩).uid])
    (ht : 800 * s.shootWait ≤ s.refclk - x.since) (ho : (s.slotAt ⟨g, k⟩).occ = true)
    (hothers : ∀ j : Fin 4, j ≠ k → (s.slotAt ⟨g, j⟩).occ = false) (ha : (s.slotAt ⟨g, k⟩).away = none) :
    s.shootExpire g = if (s.slotAt ⟨g, k⟩).atBoundary then some ((s.haltTask ⟨g, k⟩).modCore g fun c => { c with
      shoots := c.shoots.map fun x => x.stop (s.slotAt ⟨g, k⟩).uid }) else none := by
  have hone : s.overdue g = [⟨g, k⟩] := by
    refine filter_slots g k ?_ fun j hj => ?_
    · rw [ho, State.lateTasks_one hs hl, if_pos ht, Bool.true_and]
      exact List.contains_iff_mem.2 (List.mem_singleton.2 rfl)
    · rw [hothers j hj, Bool.false_and]
  have haway : (s.slotAt ⟨g, k⟩).needsCancel = false := by rw [Slot.needsCancel, ha]; rfl
  unfold State.shootExpire
  unfold State.overdue at hone
  dsimp only
  rw [hone]
  cases hb : (s.slotAt ⟨g, k⟩).atBoundary
  · simp [hb, haway]
  · simp [hb, haway]

/-- The task stands still at its boundary until the acknowledgement (R93). -/
theorem shootWaitExpiry_stops (hs : (s.core g).shoots = [x]) (hl : x.lagging = [(s.slotAt ⟨g, k⟩).uid])
    (ht : 800 * s.shootWait ≤ s.refclk - x.since) (ho : (s.slotAt ⟨g, k⟩).occ = true)
    (hothers : ∀ j : Fin 4, j ≠ k → (s.slotAt ⟨g, j⟩).occ = false) (ha : (s.slotAt ⟨g, k⟩).away = none)
    (hb : (s.slotAt ⟨g, k⟩).atBoundary = true) : ∃ t, Happens s (.shootWaitExpiry g) t ∧
      (t.core g).shoots = [{ x with lagging := [], stopped := x.stopped ++ [(s.slotAt ⟨g, k⟩).uid] }] ∧
      (t.slotAt ⟨g, k⟩).park = none ∧ (t.slotAt ⟨g, k⟩).pushes = 0 ∧ (t.slotAt ⟨g, k⟩).pc = (s.slotAt ⟨g, k⟩).trapPc ∧
      (t.slotAt ⟨g, k⟩).pfx = [] ∧ (t.slotAt ⟨g, k⟩).x = (s.slotAt ⟨g, k⟩).x ∧
      (t.slotAt ⟨g, k⟩).pend = (s.slotAt ⟨g, k⟩).pend ∧ t.mem = s.mem ∧ (t.core g).ready k = false := by
  let u := (s.slotAt ⟨g, k⟩).uid
  let t := (s.haltTask ⟨g, k⟩).modCore g fun c => { c with shoots := c.shoots.map fun x => x.stop u }
  have hslot : t.slotAt ⟨g, k⟩ = (s.slotAt ⟨g, k⟩).halt := by
    have hkept : t.slotAt ⟨g, k⟩ = (s.haltTask ⟨g, k⟩).slotAt ⟨g, k⟩ := State.slotAt_modCore _ g _ _ fun _ => rfl
    rw [hkept, State.slotAt_haltTask, if_pos rfl]
  have hstop : x.stop u = { x with lagging := [], stopped := x.stopped ++ [u] } := by
    unfold Shoot.stop
    rw [hl, if_pos (List.contains_iff_mem.2 (List.mem_singleton.2 rfl)), List.filter_cons_of_neg (by simp [u]), List.filter_nil]
  have hshoots : (t.core g).shoots = [{ x with lagging := [], stopped := x.stopped ++ [u] }] := by
    show (((s.haltTask ⟨g, k⟩).modCore g _).core g).shoots = _
    rw [State.core_modCore_same, ← hstop]
    exact congrArg (List.map fun x => x.stop u) ((s.shoots_haltTask ⟨g, k⟩ g).trans hs)
  refine ⟨t, ?_, hshoots, ?_⟩
  · show occurs (s.shootExpire g) s = _
    rw [shootWaitExpiry_due hs hl ht ho hothers ha, if_pos hb]
    rfl
  · rw [hslot]
    refine ⟨rfl, rfl, rfl, rfl, rfl, rfl, rfl, ?_⟩
    have huid : ((t.core g).slot k).uid = u := (congrArg Slot.uid hslot :)
    have hpaused : (t.core g).paused u = true := by
      unfold Core.paused
      rw [hshoots, List.any_cons, List.any_nil, Bool.or_false]
      exact List.contains_iff_mem.2 (List.mem_append_right _ (List.mem_singleton.2 rfl))
    rw [Core.ready, huid, hpaused, Bool.not_true, Bool.and_false]

end

end Sys2Proof.Machine
end

section
/-! The limits of the ladder, and what its end writes (R371, R372, R376). -/

namespace Sys2Proof.Machine

/-! ## The ladder's limits (R371, R376) -/

section
variable {s : State} {q g : Nat}

/-- The state in which the one core of a queue saves. -/
def State.saving (s : State) (q g reason : Nat) : State :=
  (s.modQueue q fun x => { x with breakWith := reason, saveAt := s.refclk }).setCore g { s.core g with saving := true }

theorem State.startSave_one (h : s.coresOf q = [g]) (reason : Nat) : s.startSave q reason = s.saving q g reason := by
  unfold State.startSave
  rw [h]
  rfl

theorem State.busy_one (h : s.coresOf q = [g]) (hs : (s.core g).saving = false) :
    (s.coresOf q).filter (fun g => !(s.core g).saving) = [g] := by
  rw [h, List.filter_cons_of_pos (by rw [hs]; rfl), List.filter_nil]

theorem drainTimeout_stopped (h : (s.queue q).stopped = false) : Idle s (.drainTimeout q) := by
  show occurs (s.drainOver q) s = _
  unfold State.drainOver
  dsimp only
  rw [h]
  rfl

theorem saveTimeout_stopped (h : (s.queue q).stopped = false) : Idle s (.saveTimeout q) := by
  show occurs (s.saveOver q) s = _
  unfold State.saveOver
  dsimp only
  rw [h]
  rfl

theorem drainTimeout_early (h : s.refclk < (s.queue q).ladder + 800 * (s.queue q).t1) : Idle s (.drainTimeout q) := by
  show occurs (s.drainOver q) s = _
  unfold State.drainOver
  dsimp only
  rw [if_pos (by simp [Nat.not_le.2 h])]
  rfl

variable (hc : s.coresOf q = [g]) (hst : (s.queue q).stopped = true) (hs : (s.core g).saving = false)
  (ht : (s.queue q).ladder + 800 * (s.queue q).t1 ≤ s.refclk)
include hc hst hs ht

/-- T1 has passed with a core of the queue at work. -/
theorem State.drainOver_due : s.drainOver q =
    if (s.queue q).level ≠ 2 then some (s.saving q g 0)
    else if (s.queue q).awaits then
      (if (s.queue q).ladder + 800 * ((s.queue q).t1 + (s.queue q).t2) ≤ s.refclk then some (s.saving q g 3) else none)
    else some (if Config.superstepFits s.freeCtr then { s.modQueue q fun x => { x with awaits := true } with freeCtr := s.freeCtr + 1 }
      else { s.saving q g 3 with freeCtr := s.freeCtr + 1 }) := by
  have hguard : (!(s.queue q).stopped || ((s.coresOf q).filter fun g => !(s.core g).saving).isEmpty ||
      !(decide ((s.queue q).ladder + 800 * (s.queue q).t1 ≤ s.refclk))) = false := by
    rw [hst, State.busy_one hc hs, decide_eq_true ht]
    rfl
  have hfree : ({ s with freeCtr := s.freeCtr + 1 } : State).startSave q 3 = { s.saving q g 3 with freeCtr := s.freeCtr + 1 } :=
    State.startSave_one (s := { s with freeCtr := s.freeCtr + 1 }) hc 3
  unfold State.drainOver
  dsimp only
  rw [if_neg (by rw [hguard]; exact Bool.false_ne_true), State.startSave_one hc, State.startSave_one hc, hfree]
  simp only [decide_eq_true_eq]
  rfl

theorem drainTimeout_saves (hl : (s.queue q).level ≠ 2) : Happens s (.drainTimeout q) (s.saving q g 0) := by
  show occurs (s.drainOver q) s = _
  rw [State.drainOver_due hc hst hs ht, if_pos hl]
  rfl

theorem drainTimeout_waits (hl : (s.queue q).level = 2) (ha : (s.queue q).awaits = false) :
    (Config.superstepFits s.freeCtr = false → Happens s (.drainTimeout q) { s.saving q g 3 with freeCtr := s.freeCtr + 1 }) ∧
    (Config.superstepFits s.freeCtr = true → Happens s (.drainTimeout q)
      { s.modQueue q fun x => { x with awaits := true } with freeCtr := s.freeCtr + 1 }) := by
  constructor
  · intro hf
    show occurs (s.drainOver q) s = _
    rw [State.drainOver_due hc hst hs ht, if_neg fun e => e hl, ha, hf]
    rfl
  · intro hf
    show occurs (s.drainOver q) s = _
    rw [State.drainOver_due hc hst hs ht, if_neg fun e => e hl, ha, hf]
    rfl

end

section
variable {s : State} {q g : Nat} (hc : s.coresOf q = [g]) (hst : (s.queue q).stopped = true) (hs : (s.core g).saving = false)
  (hl : (s.queue q).level = 2) (ha : (s.queue q).awaits = true)
include hc hst hs hl ha

theorem drainTimeout_still_waits (h : s.refclk < (s.queue q).ladder + 800 * ((s.queue q).t1 + (s.queue q).t2)) :
    Idle s (.drainTimeout q) := by
  by_cases ht : (s.queue q).ladder + 800 * (s.queue q).t1 ≤ s.refclk
  · show occurs (s.drainOver q) s = _
    rw [State.drainOver_due hc hst hs ht, if_neg fun e => e hl, ha, if_pos rfl, if_neg (Nat.not_le.2 h)]
    rfl
  · exact drainTimeout_early (Nat.not_le.1 ht)

theorem drainTimeout_saves_at_last (h : (s.queue q).ladder + 800 * ((s.queue q).t1 + (s.queue q).t2) ≤ s.refclk) :
    Happens s (.drainTimeout q) (s.saving q g 3) := by
  have ht : (s.queue q).ladder + 800 * (s.queue q).t1 ≤ s.refclk := by omega
  show occurs (s.drainOver q) s = _
  rw [State.drainOver_due hc hst hs ht, if_neg fun e => e hl, ha, if_pos rfl, if_pos h]
  rfl

end

/-! ## What the end of the ladder writes (R371, R372, R414) -/

theorem State.rung_settleLadder {t : State} {q : Nat} (hst : (t.queue q).stopped = true) (hnone : t.tasksOfQueue q = [])
    (hre : ∀ v ∈ t.saved, v.queue = q → v.remap = []) :
    ((t.settleLadder q).queue q).rung.toNat = max (t.queue q).rung.toNat (t.rungReached q) := by
  have hrung : t.rungReached q ≤ 3 := by
    unfold State.rungReached
    dsimp only
    split
    · decide
    · split <;> decide
  have hold := (t.queue q).rung.isLt
  have hany : (t.saved.any fun v => v.queue == q && !v.remap.isEmpty) = false := by
    rw [List.any_eq_false]
    intro v hv h
    obtain ⟨hq, hr⟩ := Bool.and_eq_true_iff.1 h
    rw [hre v hv (beq_iff_eq.1 hq)] at hr
    cases hr
  unfold State.settleLadder
  rw [hst, hnone, hany]
  obtain ⟨v, hv⟩ := (t.modQueue q fun u => { u with
    rung := BitVec.ofNat 2 (Nat.max u.rung.toNat (t.rungReached q)) }).queue_syncQueue q q
  refine (congrArg (fun u : Queue => u.rung.toNat) hv).trans ?_
  rw [State.queue_modQueue_same]
  show (BitVec.ofNat 2 (max _ _)).toNat = _
  rw [BitVec.toNat_ofNat, Nat.mod_eq_of_lt]
  omega

/-- Of memory it writes at most the eight bytes of the queue's status word. -/
theorem State.get_settleLadder {t : State} (w : t.mem.wf = true) (q : Nat) {n : Nat}
    (hn : n < (t.queue q).stataddr.toNat ∨ (t.queue q).stataddr.toNat + 8 ≤ n) :
    (t.settleLadder q).mem.get n = t.mem.get n := by
  unfold State.settleLadder
  split
  · let u := t.modQueue q fun x => { x with rung := BitVec.ofNat 2 (Nat.max x.rung.toNat (t.rungReached q)) }
    have haddr : (u.queue q).stataddr = (t.queue q).stataddr := by
      rw [State.queue_modQueue_same]
    show (u.syncQueue q).mem.get n = u.mem.get n
    unfold State.syncQueue
    dsimp only
    split
    · rfl
    · refine Memory.get_setAll_of_not_mem w fun c hc he => ?_
      have := mem_cellsLE hc
      rw [haddr] at this
      omega
  · rfl

end Sys2Proof.Machine
end

section
/-! What the stop, the reset and the save of a core leave (R359, R371, R373). -/

namespace Sys2Proof.Machine

/-! ## What stopping and resetting a core leaves (R339, R359, R371) -/

/-- What stays of a slot: whose task it holds. -/
def Slot.tenant (l : Slot) : Bool × Nat × Nat := (l.occ, l.uid, l.launch)

/-- What stays of a core: its context and its boundaries. -/
def Core.bounds (c : Core) : Option Nat × BitVec 7 × BitVec 7 × BitVec 7 := (c.context, c.b0, c.b1, c.b2)

/-- The stop or the reset of cores leaves whose task each slot holds, the context and the boundaries of every core, the queues, the
saved cores, and the queues that launches belong to. -/
structure Rests (s t : State) : Prop where
  slots : ∀ r, (t.slotAt r).tenant = (s.slotAt r).tenant
  bounds : ∀ g, (t.core g).bounds = (s.core g).bounds
  queues : t.queues = s.queues
  saved : t.saved = s.saved
  launch : ∀ n, (t.launch n).queue = (s.launch n).queue

section
variable {s t u : State}

theorem Rests.refl (s : State) : Rests s s := ⟨fun _ => rfl, fun _ => rfl, rfl, rfl, fun _ => rfl⟩

theorem Rests.trans (h : Rests s t) (k : Rests t u) : Rests s u :=
  ⟨fun r => (k.slots r).trans (h.slots r), fun g => (k.bounds g).trans (h.bounds g), k.queues.trans h.queues,
    k.saved.trans h.saved, fun n => (k.launch n).trans (h.launch n)⟩

theorem Rests.foldl {α : Type} {f : State → α → State} (hf : ∀ s x, Rests s (f s x)) (xs : List α) (s : State) :
    Rests s (xs.foldl f s) := by
  induction xs generalizing s with
  | nil => exact Rests.refl s
  | cons x xs ih => exact (hf s x).trans (ih _)

theorem foldl_eq_self {α β : Type} {f : β → α → β} {s : β} {xs : List α} (h : ∀ x ∈ xs, f s x = s) : xs.foldl f s = s := by
  induction xs with
  | nil => rfl
  | cons x xs ih => rw [List.foldl_cons, h x List.mem_cons_self, ih fun y hy => h y (List.mem_cons_of_mem x hy)]

theorem Rests.uid (h : Rests s t) (r : SlotRef) : (t.slotAt r).uid = (s.slotAt r).uid := congrArg (fun x => x.2.1) (h.slots r)
theorem Rests.occ (h : Rests s t) (r : SlotRef) : (t.slotAt r).occ = (s.slotAt r).occ := congrArg (fun x => x.1) (h.slots r)

theorem Rests.queueOf (h : Rests s t) (r : SlotRef) : (t.launchOf r).queue = (s.launchOf r).queue := by
  have hl : (t.slotAt r).launch = (s.slotAt r).launch := congrArg (fun x => x.2.2) (h.slots r)
  unfold State.launchOf
  rw [hl]
  exact h.launch _

end

section
variable (s : State)

theorem rests_setSlot (r : SlotRef) {l : Slot} (hl : l.tenant = (s.slotAt r).tenant) : Rests s (s.setSlot r l) where
  slots p := by
    rw [State.slotAt_setSlot]
    split
    · next h => rw [hl, h]
    · rfl
  bounds g := by
    have h := (deviceKept_setSlot s r l).2 g
    exact (congrArg Core.bounds h :)
  queues := rfl
  saved := rfl
  launch _ := rfl

theorem rests_modSlot (r : SlotRef) {f : Slot → Slot} (hf : ∀ l, (f l).tenant = l.tenant) : Rests s (s.modSlot r f) :=
  rests_setSlot s r (hf _)

theorem rests_modCore (g : Nat) {f : Core → Core} (hs : ∀ c, (f c).slots = c.slots) (hb : ∀ c, (f c).bounds = c.bounds) :
    Rests s (s.modCore g f) where
  slots p := by rw [State.slotAt_modCore s g f p hs]
  bounds h := by
    rw [State.core_modCore]
    split
    · next e => rw [hb, e]
    · rfl
  queues := rfl
  saved := rfl
  launch _ := rfl

theorem rests_modGang (n g : Nat) (f : Gang → Gang) : Rests s (s.modGang n g f) where
  slots _ := rfl
  bounds _ := rfl
  queues := rfl
  saved := rfl
  launch m := by
    show (tget Launch.blank (tset s.launches n _) m).queue = _
    rw [tget_tset]
    split
    · next h => rw [h]
    · rfl

theorem rests_flushBy (p : Over → Bool) : Rests s (s.flushBy p) :=
  ⟨fun _ => rfl, fun _ => rfl, rfl, rfl, fun _ => rfl⟩

theorem rests_cancelAway (r : SlotRef) : Rests s (s.cancelAway r) := by
  rcases s.cancelAway_eq r with h | ⟨fs, h⟩
  · rw [h]; exact Rests.refl s
  · rw [h]
    exact Rests.trans (t := { s with outbox := s.outbox ++ fs }) ⟨fun _ => rfl, fun _ => rfl, rfl, rfl, fun _ => rfl⟩
      (rests_modSlot _ r fun _ => rfl)

/-- A change of what no slot, core, queue, launch and saved core holds. -/
theorem rests_dies (ds : Table Die) (hs : List HostReq) : Rests s { s with dies := ds, hostReqs := hs } :=
  ⟨fun _ => rfl, fun _ => rfl, rfl, rfl, fun _ => rfl⟩

theorem rests_admitJoiners (n g : Nat) : Rests s (s.admitJoiners n g) := by
  unfold State.admitJoiners
  refine (rests_modGang s n g _).trans (Rests.foldl (fun u j => ?_) _ _)
  dsimp only
  split
  · split
    · exact rests_modSlot _ _ fun _ => rfl
    · exact rests_modSlot _ _ fun _ => rfl
    · exact Rests.refl u
  · exact Rests.refl u

theorem rests_forget (v : Nat) : Rests s (s.forget v) := by
  unfold State.forget
  refine (rests_dies s _ s.hostReqs).trans (Rests.foldl (fun u x => ?_) _ _)
  refine Rests.foldl (fun u y => ?_) _ _
  dsimp only
  split
  · split
    · exact (rests_modGang u _ _ _).trans (rests_admitJoiners _ _ _)
    · exact rests_modGang u _ _ _
  · split
    · exact rests_modGang u _ _ _
    · exact Rests.refl u

theorem rests_unjoin (v : Nat) : Rests s (s.unjoin v) := by
  unfold State.unjoin
  refine (rests_dies s _ s.hostReqs).trans (Rests.foldl (fun u x => ?_) _ _)
  refine Rests.foldl (fun u y => ?_) _ _
  dsimp only
  split
  · exact rests_modGang u _ _ _
  · exact Rests.refl u

theorem rests_haltTask (r : SlotRef) : Rests s (s.haltTask r) := by
  let u := (s.dropHost (s.slotAt r).uid).withdraw (s.slotAt r).uid
  have h1 : Rests s u := rests_dies s u.dies u.hostReqs
  have h2 : Rests u (u.modSlot r Slot.halt) := rests_modSlot u r fun _ => rfl
  exact (h1.trans h2).trans (rests_modCore _ r.core (f := (·.haltWork (s.slotAt r).uid)) (fun _ => rfl) fun _ => rfl)

theorem rests_stopCore (g : Nat) : Rests s (s.stopCore g) := by
  unfold State.stopCore
  refine Rests.trans (Rests.foldl (fun u r => ?_) _ s) (rests_flushBy _ _)
  exact (((rests_haltTask u r).trans (rests_unjoin _ _)).trans (rests_flushBy _ _)).trans (rests_modSlot _ r fun _ => rfl)

theorem Core.bounds_wiped (c : Core) : c.wiped.bounds = c.bounds := rfl

theorem State.tenant_restarted (r : SlotRef) (h : (s.slotAt r).occ = true) : (s.restarted r).tenant = (s.slotAt r).tenant := by
  have hfresh : (s.restarted r).tenant = (true, (s.slotAt r).uid, (s.slotAt r).launch) := by
    unfold State.restarted
    dsimp only
    split <;> rfl
  rw [hfresh, ← h]
  rfl

theorem rests_resetCore (g : Nat) (h : ∀ k : Fin 4, (s.slotAt ⟨g, k⟩).dying = false) : Rests s (s.resetCore g) := by
  let refs := ([0, 1, 2, 3] : List (Fin 4)).map fun k => (⟨g, k⟩ : SlotRef)
  have hnone : refs.foldl (fun s r => if (s.slotAt r).occ && (s.slotAt r).dying then s.endAborted r else s) s = s := by
    refine foldl_eq_self fun r hr => ?_
    obtain ⟨k, -, rfl⟩ := List.mem_map.1 hr
    exact if_neg (by rw [h k, Bool.and_false]; exact Bool.false_ne_true)
  have hstop : ∀ (u : State) (r : SlotRef), Rests u (if (u.slotAt r).occ = true then
      ((u.cancelAway r).flushStopped (u.slotAt r).uid).forget (u.slotAt r).uid else u) := fun u r => by
    split
    · exact ((rests_cancelAway u r).trans (rests_flushBy _ _)).trans (rests_forget _ _)
    · exact Rests.refl u
  have hwipe : ∀ u : State, Rests u ((u.clearPool g).modCore g Core.wiped) := fun u =>
    Rests.trans (t := u.clearPool g) ⟨fun _ => rfl, fun _ => rfl, rfl, rfl, fun _ => rfl⟩
      (rests_modCore _ g (fun _ => rfl) Core.bounds_wiped)
  have hback : ∀ (u : State) (r : SlotRef), Rests u (if (u.slotAt r).occ = true then u.setSlot r (u.restarted r) else u) :=
    fun u r => by
      split
      · next ho => exact rests_setSlot u r (u.tenant_restarted r ho)
      · exact Rests.refl u
  unfold State.resetCore
  dsimp only
  rw [hnone]
  exact (Rests.foldl hstop refs s).trans ((hwipe _).trans (Rests.foldl hback refs _))

end

/-! ## A saved core (R371, R373) -/

/-- The landings of a core that are left on their way when it is saved. -/
def State.lateOf (s : State) (g : Nat) (fresh : Bool) : List (List (Nat × Byte) × QRec × Wm) :=
  if fresh then [] else s.remapTable g

/-- The record of a core that is saved. -/
def State.savedNow (s : State) (g : Nat) (fresh : Bool) : Saved :=
  { (s.stopCore g).savedOf g fresh with remap := s.lateOf g fresh }

/-- A state in which a core has been left empty, with its save record kept. -/
def State.leftEmpty (m : State) (g : Nat) (busy : Bool) (v : Saved) : State :=
  { m.modCore g fun c => { c.emptied with saving := busy } with saved := m.saved ++ [v] }

/-- Memory with the image of a stopped core of a queue written (R373). -/
def State.imaged (u : State) (at_ g : Nat) (fresh : Bool) : State :=
  ((u.zeroRange at_ 0x200000).copyRange (poolLoc g 0) (at_ + 0x100000) 0x100000).homeWrite (piecesAt at_ (u.imageOf g fresh))

theorem State.zeroRange_memoryOnly (s : State) (at_ n : Nat) : MemoryOnly s (s.zeroRange at_ n) := rfl

theorem State.imaged_memoryOnly (u : State) (at_ g : Nat) (fresh : Bool) : MemoryOnly u (u.imaged at_ g fresh) :=
  ((u.zeroRange_memoryOnly _ _).trans (State.homeWrite_memoryOnly _ _)).trans (State.homeWrite_memoryOnly _ _)

theorem State.saveCore_eq (s : State) (g : Nat) (fresh : Bool) : s.saveCore g fresh =
    ((s.stopCore g).imaged ((s.stopCore g).imageAt (((s.stopCore g).core g).context.getD 0) g) g fresh).leftEmpty g
      (!(s.lateOf g fresh).isEmpty) (s.savedNow g fresh) := by
  unfold State.saveCore State.leftEmpty State.imaged State.savedNow State.lateOf
  rfl

section
variable (m : State) (g : Nat) (busy : Bool) (v : Saved)

theorem State.core_leftEmpty (h : Nat) : (m.leftEmpty g busy v).core h =
    if h = g then { (m.core g).emptied with saving := busy } else m.core h :=
  State.core_modCore m g h fun c => { c.emptied with saving := busy }

theorem State.slotAt_leftEmpty (r : SlotRef) : (m.leftEmpty g busy v).slotAt r =
    if r.core = g then Core.reset.slot r.slot else m.slotAt r := by
  unfold State.slotAt
  rw [State.core_leftEmpty]
  split <;> rfl

end

theorem Core.occ_reset (k : Fin 4) : (Core.reset.slot k).occ = false := by
  revert k; decide

theorem tget_of_not_tmem {α : Type} (d : α) {t : Table α} {n : Nat} (h : tmem t n = false) : tget d t n = d := by
  induction t with
  | nil => rfl
  | cons c t ih =>
    obtain ⟨hk, ht⟩ := Bool.or_eq_false_iff.1 h
    rw [tget, if_neg (by simpa using hk), ih ht]

theorem State.mem_slotRefs_of_occ {s : State} {r : SlotRef} (h : (s.slotAt r).occ = true) : r ∈ s.slotRefs := by
  have hcore : tmem s.cores r.core = true := by
    cases hm : tmem s.cores r.core with
    | true => rfl
    | false =>
      have hd : s.core r.core = Core.reset := tget_of_not_tmem _ hm
      rw [State.slotAt, hd, Core.occ_reset] at h
      cases h
  obtain ⟨g, k⟩ := r
  refine List.mem_flatMap.2 ⟨_, tget_mem Core.reset hcore, ?_⟩
  fin_cases k <;> simp

section
variable {s u : State} {q g : Nat}

/-- The tasks of a queue stand in the one core that it has. -/
theorem State.core_of_coresOf (hc : s.coresOf q = [g]) {r : SlotRef} (ho : (s.slotAt r).occ = true)
    (hq : (s.launchOf r).queue = q) : r.core = g := by
  have hmem : r.core ∈ s.coresOf q := by
    unfold State.coresOf
    refine List.mem_eraseDups.2 (List.mem_map.2 ⟨r, List.mem_filter.2 ⟨State.mem_slotRefs_of_occ ho, ?_⟩, rfl⟩)
    rw [ho, hq, Bool.true_or, beq_self_eq_true]
    rfl
  rw [hc] at hmem
  exact List.mem_singleton.1 hmem

/-- What is left of the core and of the queue once the one core of a queue has been saved. -/
structure Emptied (s t : State) (q g : Nat) (n : BitVec 2) : Prop where
  context : (t.core g).context = (s.core g).context
  saving : (t.core g).saving = false
  b0 : (t.core g).b0 = (s.core g).b0
  b1 : (t.core g).b1 = (s.core g).b1
  b2 : (t.core g).b2 = (s.core g).b2
  vq : (t.core g).vq = EngQ.reset
  cq : (t.core g).cq = EngQ.reset
  mq : (t.core g).mq = EngQ.reset
  free : ∀ k : Fin 4, (t.slotAt ⟨g, k⟩).occ = false
  record : ∃ v : Saved, t.saved = s.saved ++ [v] ∧ v.queue = q ∧ v.core = g ∧ v.fresh = (n == 3) ∧
    ∀ k : Fin 4, (s.slotAt ⟨g, k⟩).occ = true → ∃ l, (k.val, l) ∈ v.slots ∧ l.uid = (s.slotAt ⟨g, k⟩).uid
  rung : (s.queue q).stopped = true → (∀ v, v ∈ s.saved → v.queue = q → v.fresh = false ∧ v.remap = []) →
    (t.queue q).rung.toNat = max (s.queue q).rung.toNat n.toNat

/-- The rung of a save. -/
def rungOf (fresh : Bool) : BitVec 2 := if fresh then 3 else 2

theorem MemoryOnly.rests {m : State} (h : MemoryOnly u m) : Rests u m :=
  ⟨fun r => h.keeps (fun x => (x.slotAt r).tenant) rfl, fun g => h.keeps (fun x => (x.core g).bounds) rfl,
    h.keeps State.queues rfl, h.keeps State.saved rfl, fun n => h.keeps (fun x => (x.launch n).queue) rfl⟩

/-- The record of a core of a queue that is saved with no landing left on its way: it names the queue, and holds the tasks. -/
structure Records (s : State) (q g : Nat) (fresh : Bool) (v : Saved) : Prop where
  queue : v.queue = q
  core : v.core = g
  fresh : v.fresh = fresh
  remap : v.remap = []
  slots : ∀ k : Fin 4, (s.slotAt ⟨g, k⟩).occ = true → ∃ l, (k.val, l) ∈ v.slots ∧ l.uid = (s.slotAt ⟨g, k⟩).uid

theorem Rests.records (hr : Rests s u) (hq : (s.core g).context = some q) {fresh : Bool} (hlate : u.lateOf g fresh = []) :
    Records s q g fresh (u.savedNow g fresh) where
  queue := by
    have hstop := (hr.trans (rests_stopCore u g)).bounds g
    have hctx : ((u.stopCore g).core g).context = some q := (congrArg (fun x => x.1) hstop).trans hq
    exact congrArg (fun c : Option Nat => c.getD 0) hctx
  core := rfl
  fresh := rfl
  remap := hlate
  slots k ho := by
    have hstop := hr.trans (rests_stopCore u g)
    refine ⟨(u.stopCore g).slotAt ⟨g, k⟩, List.mem_map.2 ⟨k, List.mem_filter.2 ⟨?_, ?_⟩, rfl⟩, hstop.uid _⟩
    · fin_cases k <;> simp
    · exact (hstop.occ _).trans ho

section
variable {m : State} {v : Saved} {fresh : Bool} (hm : Rests s m) (hc : s.coresOf q = [g]) (hv : Records s q g fresh v)
include hm hc

/-- With the one core of a queue left empty, no task of the queue is in a slot. -/
theorem Rests.tasksOfQueue_leftEmpty : (m.leftEmpty g false v).tasksOfQueue q = [] := by
  refine List.filter_eq_nil_iff.2 fun r _ h => ?_
  obtain ⟨ho, hqueue⟩ := Bool.and_eq_true_iff.1 h
  have hslot := m.slotAt_leftEmpty g false v r
  by_cases hg : r.core = g
  · rw [if_pos hg] at hslot
    rw [hslot, Core.occ_reset] at ho
    cases ho
  · rw [if_neg hg] at hslot
    have hlaunch : (m.leftEmpty g false v).launchOf r = m.launchOf r := by
      unfold State.launchOf
      rw [hslot]
      rfl
    rw [hslot, hm.occ] at ho
    rw [hlaunch, hm.queueOf] at hqueue
    exact hg (State.core_of_coresOf hc ho (beq_iff_eq.1 hqueue))

include hv

omit hc in
theorem Rests.rungReached_leftEmpty (hold : ∀ v, v ∈ s.saved → v.queue = q → v.fresh = false ∧ v.remap = []) :
    (m.leftEmpty g false v).rungReached q = (rungOf fresh).toNat := by
  have hsaved : (m.leftEmpty g false v).saved = s.saved ++ [v] := congrArg (· ++ [v]) hm.saved
  have hne : ((s.saved ++ [v]).filter fun x => x.queue == q).isEmpty = false := by
    rw [List.isEmpty_eq_false_iff]
    exact List.ne_nil_of_mem (List.mem_filter.2 ⟨List.mem_append_right _ (List.mem_singleton.2 rfl), beq_iff_eq.2 hv.queue⟩)
  have hany : (((s.saved ++ [v]).filter fun x => x.queue == q).any fun x => x.fresh) = fresh := by
    rw [List.filter_append, List.any_append, List.filter_cons_of_pos (by simpa using hv.queue), List.filter_nil]
    have hno : ((s.saved.filter fun x => x.queue == q).any fun x => x.fresh) = false := by
      rw [List.any_eq_false]
      intro x hx
      obtain ⟨hx, hxq⟩ := List.mem_filter.1 hx
      rw [(hold x hx (beq_iff_eq.1 hxq)).1]
      exact Bool.false_ne_true
    rw [hno, List.any_cons, List.any_nil, hv.fresh, Bool.or_false, Bool.false_or]
  unfold State.rungReached
  dsimp only
  rw [hsaved, hne, hany]
  cases fresh <;> rfl

theorem Rests.emptied : Emptied s ((m.leftEmpty g false v).settleLadder q) q g (rungOf fresh) := by
  let t := m.leftEmpty g false v
  have hfirm := t.settleLadder_firmwareOnly q
  have hcore : (t.settleLadder q).core g = { (m.core g).emptied with saving := false } :=
    (hfirm.keeps (·.core g) rfl).trans ((m.core_leftEmpty g false v g).trans (if_pos rfl))
  obtain ⟨hctx, hb⟩ := Prod.mk.inj (hm.bounds g)
  obtain ⟨hb0, hb⟩ := Prod.mk.inj hb
  obtain ⟨hb1, hb2⟩ := Prod.mk.inj hb
  have hsaved : t.saved = s.saved ++ [v] := congrArg (· ++ [v]) hm.saved
  exact
    { context := (congrArg Core.context hcore :).trans hctx
      saving := (congrArg Core.saving hcore :)
      b0 := (congrArg Core.b0 hcore :).trans hb0
      b1 := (congrArg Core.b1 hcore :).trans hb1
      b2 := (congrArg Core.b2 hcore :).trans hb2
      vq := (congrArg Core.vq hcore :)
      cq := (congrArg Core.cq hcore :)
      mq := (congrArg Core.mq hcore :)
      free := fun k => (congrArg (fun c : Core => (c.slot k).occ) hcore :).trans (Core.occ_reset k)
      record := ⟨v, (hfirm.keeps State.saved rfl).trans hsaved, hv.queue, hv.core, by rw [hv.fresh]; cases fresh <;> rfl, hv.slots⟩
      rung := fun hst hold => by
        have hqueue : t.queue q = s.queue q := congrArg (fun qs => tget Queue.blank qs q) hm.queues
        have hre : ∀ x ∈ t.saved, x.queue = q → x.remap = [] := fun x hx hxq => by
          rw [hsaved] at hx
          rcases List.mem_append.1 hx with hx | hx
          · exact (hold x hx hxq).2
          · rw [List.mem_singleton.1 hx]; exact hv.remap
        rw [State.rung_settleLadder (hqueue ▸ hst) (hm.tasksOfQueue_leftEmpty hc) hre,
          hm.rungReached_leftEmpty hv hold, hqueue] }

end

/-- The one core of a queue is saved, with no landing left on its way. -/
theorem Rests.emptied_saveCore (hr : Rests s u) (hc : s.coresOf q = [g]) (hq : (s.core g).context = some q) {fresh : Bool}
    (hlate : u.lateOf g fresh = []) : Emptied s ((u.saveCore g fresh).settleLadder q) q g (rungOf fresh) := by
  have hm := (hr.trans (rests_stopCore u g)).trans (State.imaged_memoryOnly (u.stopCore g)
    ((u.stopCore g).imageAt (((u.stopCore g).core g).context.getD 0) g) g fresh).rests
  rw [u.saveCore_eq, hlate]
  exact hm.emptied hc (hr.records hq hlate)

end

end Sys2Proof.Machine
end

section
/-! A stopped core, and a copy of a range of memory (R371, R373). -/

namespace Sys2Proof.Machine

/-! ## A stopped core in the image (R371, R373) -/

/-- What the image holds of a core beside its slots and its engines. -/
def Core.store (c : Core) : Table TagEntry × Nat × BitVec 7 × BitVec 7 × BitVec 7 := (c.tags, c.vregs, c.b0, c.b1, c.b2)

/-- The stop of a core changes neither the tag tables nor the boundaries, gives no engine an entry, and where nothing is on its way
leaves memory as it is. -/
structure Stills (s t : State) : Prop where
  store : ∀ g, (t.core g).store = (s.core g).store
  idle : ∀ g w, ((s.core g).queue w).recs = [] → ((t.core g).queue w).recs = []
  quiet : s.overlay = [] → t.overlay = [] ∧ t.mem = s.mem
  gstep : t.gstep = s.gstep

section
variable {s t u : State}

theorem Stills.refl (s : State) : Stills s s := ⟨fun _ => rfl, fun _ _ h => h, fun h => ⟨h, rfl⟩, rfl⟩

theorem Stills.trans (h : Stills s t) (k : Stills t u) : Stills s u where
  store g := (k.store g).trans (h.store g)
  idle g w hr := k.idle g w (h.idle g w hr)
  quiet ho := ⟨(k.quiet (h.quiet ho).1).1, (k.quiet (h.quiet ho).1).2.trans (h.quiet ho).2⟩
  gstep := k.gstep.trans h.gstep

theorem Stills.foldl {α : Type} {f : State → α → State} (hf : ∀ s x, Stills s (f s x)) (xs : List α) (s : State) :
    Stills s (xs.foldl f s) := by
  induction xs generalizing s with
  | nil => exact Stills.refl s
  | cons x xs ih => exact (hf s x).trans (ih _)

end

section
variable (s : State)

theorem stills_modSlot (r : SlotRef) (f : Slot → Slot) : Stills s (s.modSlot r f) where
  store g := by
    have h := (deviceKept_setSlot s r (f (s.slotAt r))).2 g
    exact (congrArg Core.store h :)
  idle g w h := by rw [State.queue_modSlot]; exact h
  quiet h := ⟨h, rfl⟩
  gstep := rfl

theorem stills_modCore (g : Nat) {f : Core → Core} (hs : ∀ c, (f c).store = c.store)
    (hi : ∀ c w, (c.queue w).recs = [] → ((f c).queue w).recs = []) : Stills s (s.modCore g f) where
  store h := by
    rw [State.core_modCore]
    split
    · next e => rw [hs, e]
    · rfl
  idle h w hr := by
    rw [State.core_modCore]
    split
    · next e => exact hi _ w (e ▸ hr)
    · exact hr
  quiet h := ⟨h, rfl⟩
  gstep := rfl

theorem stills_flushBy (p : Over → Bool) : Stills s (s.flushBy p) where
  store _ := rfl
  idle _ _ h := h
  quiet h := by rw [State.flushBy_of_nil h]; exact ⟨h, rfl⟩
  gstep := rfl

theorem stills_launches (ls : Table Launch) (ds : Table Die) (hs : List HostReq) :
    Stills s { s with launches := ls, dies := ds, hostReqs := hs } :=
  ⟨fun _ => rfl, fun _ _ h => h, fun h => ⟨h, rfl⟩, rfl⟩

theorem stills_unjoin (v : Nat) : Stills s (s.unjoin v) := by
  unfold State.unjoin
  refine (stills_launches s s.launches _ s.hostReqs).trans (Stills.foldl (fun u x => ?_) _ _)
  refine Stills.foldl (fun u y => ?_) _ _
  dsimp only
  split
  · exact stills_launches u _ u.dies u.hostReqs
  · exact Stills.refl u

theorem Core.queue_haltWork {c : Core} {w : Which} (h : (c.queue w).recs = []) (uid : Nat) :
    ((c.haltWork uid).queue w).recs = [] := by
  have hmap : ((c.haltWork uid).queue w).recs = (c.queue w).recs.map fun r => if r.uid == uid then r.stopAtMark else r := by
    cases w <;> rfl
  rw [hmap, h, List.map_nil]

theorem stills_haltTask (r : SlotRef) : Stills s (s.haltTask r) := by
  let u := (s.dropHost (s.slotAt r).uid).withdraw (s.slotAt r).uid
  have h1 : Stills s u := stills_launches s s.launches u.dies u.hostReqs
  exact (h1.trans (stills_modSlot u r Slot.halt)).trans
    (stills_modCore _ r.core (f := (·.haltWork (s.slotAt r).uid)) (fun _ => rfl) fun _ _ h => Core.queue_haltWork h _)

/-- One task of a core stops for the save. -/
def State.stopTask (s : State) (r : SlotRef) : State :=
  (((s.haltTask r).unjoin (s.slotAt r).uid).flushStopped (s.slotAt r).uid).modSlot r fun l =>
    { l with snap := [], quiesced := true }

theorem stills_stopTask (r : SlotRef) : Stills s (s.stopTask r) :=
  (((stills_haltTask s r).trans (stills_unjoin _ _)).trans (stills_flushBy _ _)).trans (stills_modSlot _ r _)

/-- The occupied slots of a core. -/
def State.occupied (s : State) (g : Nat) : List SlotRef :=
  (([0, 1, 2, 3] : List (Fin 4)).map fun k => (⟨g, k⟩ : SlotRef)).filter fun r => (s.slotAt r).occ

theorem State.stopCore_eq (g : Nat) : s.stopCore g =
    ((s.occupied g).foldl State.stopTask s).flushBy fun o => inPool g o.loc := rfl

theorem stills_stopCore (g : Nat) : Stills s (s.stopCore g) := by
  rw [s.stopCore_eq]
  exact (Stills.foldl stills_stopTask _ s).trans (stills_flushBy _ _)

/-- A slot whose task has stopped for the save. -/
def Slot.saved (l : Slot) : Slot := { l.halt with snap := [], quiesced := true }

theorem State.slotAt_unjoin (v : Nat) (r : SlotRef) : (s.unjoin v).slotAt r = s.slotAt r := by
  have hfold : ∀ {α : Type} {f : State → α → State}, (∀ u x, (f u x).slotAt r = u.slotAt r) → ∀ (xs : List α) (u : State),
      (xs.foldl f u).slotAt r = u.slotAt r := fun {α f} hf xs => by
    induction xs with
    | nil => exact fun _ => rfl
    | cons x xs ih => exact fun u => (ih _).trans (hf u x)
  unfold State.unjoin
  refine (hfold (fun u x => ?_) _ _).trans rfl
  refine hfold (fun u y => ?_) _ _
  dsimp only
  split <;> rfl

theorem State.slotAt_stopTask (r p : SlotRef) : (s.stopTask r).slotAt p = if p = r then (s.slotAt r).saved else s.slotAt p := by
  unfold State.stopTask
  rw [State.slotAt_modSlot]
  have hflush : ∀ q, (((s.haltTask r).unjoin (s.slotAt r).uid).flushStopped (s.slotAt r).uid).slotAt q =
      ((s.haltTask r).unjoin (s.slotAt r).uid).slotAt q := fun _ => rfl
  rw [hflush, hflush, State.slotAt_unjoin, State.slotAt_unjoin, State.slotAt_haltTask, State.slotAt_haltTask, if_pos rfl]
  split <;> rfl

theorem State.slotAt_stopTasks {rs : List SlotRef} (hnd : rs.Nodup) (p : SlotRef) :
    (rs.foldl State.stopTask s).slotAt p = if p ∈ rs then (s.slotAt p).saved else s.slotAt p := by
  induction rs generalizing s with
  | nil => rfl
  | cons r rs ih =>
    obtain ⟨hr, hrs⟩ := List.nodup_cons.1 hnd
    rw [List.foldl_cons, ih _ hrs, State.slotAt_stopTask]
    by_cases hp : p = r
    · rw [if_neg (hp ▸ hr), if_pos hp, if_pos (hp ▸ List.mem_cons_self), hp]
    · simp only [List.mem_cons, hp, false_or, if_false]

theorem State.slotAt_stopCore (g : Nat) {k : Fin 4} (ho : (s.slotAt ⟨g, k⟩).occ = true) :
    (s.stopCore g).slotAt ⟨g, k⟩ = (s.slotAt ⟨g, k⟩).saved := by
  have hnd : (s.occupied g).Nodup := by
    refine List.Nodup.filter _ (List.Nodup.map (fun a b h => ?_) (by decide))
    exact (SlotRef.mk.inj h).2
  have hmem : (⟨g, k⟩ : SlotRef) ∈ s.occupied g := by
    refine List.mem_filter.2 ⟨List.mem_map.2 ⟨k, ?_, rfl⟩, ho⟩
    fin_cases k <;> simp
  rw [s.stopCore_eq]
  exact (s.slotAt_stopTasks hnd _).trans (if_pos hmem)

end

/-! ## A copy of a range of memory -/

theorem Memory.get_filter (m : Memory) (p : Nat → Bool) (n : Nat) :
    Memory.get (m.filter fun c => p c.1) n = if p n then m.get n else Memory.blank := by
  induction m with
  | nil => simp [Memory.get]
  | cons c m ih =>
    obtain ⟨k, b⟩ := c
    rw [List.filter_cons]
    by_cases hk : k = n
    · subst hk
      cases hp : p k
      · rw [if_neg Bool.false_ne_true, ih, hp]; rfl
      · rw [if_pos rfl, if_pos rfl, Memory.get, if_pos rfl, Memory.get, if_pos rfl]
    · have hget : Memory.get ((k, b) :: m) n = Memory.get m n := if_neg hk
      rw [hget, ← ih]
      split
      · exact if_neg hk
      · rfl

theorem Memory.lower_of_wfFrom {lo : Nat} {m : Memory} (w : Memory.wfFrom lo m = true) : ∀ c ∈ m, lo ≤ c.1 := by
  induction m generalizing lo with
  | nil => exact fun _ h => absurd h List.not_mem_nil
  | cons c m ih =>
    simp only [Memory.wfFrom, Bool.and_eq_true, decide_eq_true_eq] at w
    intro x hx
    rcases List.mem_cons.1 hx with rfl | hx
    · exact w.1.1
    · exact Nat.le_trans (Nat.le_succ_of_le w.1.1) (ih w.2 x hx)

theorem Memory.nodup_of_wfFrom {lo : Nat} {m : Memory} (w : Memory.wfFrom lo m = true) : (m.map (·.1)).Nodup := by
  induction m generalizing lo with
  | nil => exact List.nodup_nil
  | cons c m ih =>
    simp only [Memory.wfFrom, Bool.and_eq_true] at w
    refine List.nodup_cons.2 ⟨fun h => ?_, ih w.2⟩
    obtain ⟨x, hx, he⟩ := List.mem_map.1 h
    have hlo : c.1 + 1 ≤ x.1 := Memory.lower_of_wfFrom w.2 x hx
    have he : x.1 = c.1 := he
    omega

/-- A listed byte is not blank, and it is the one that the location holds. -/
theorem Memory.get_of_mem {lo : Nat} {m : Memory} (w : Memory.wfFrom lo m = true) {c : Host.Cell} (h : c ∈ m) :
    m.get c.1 = c.2 ∧ c.2 ≠ Memory.blank := by
  induction m generalizing lo with
  | nil => exact absurd h List.not_mem_nil
  | cons x m ih =>
    obtain ⟨k, b⟩ := x
    simp only [Memory.wfFrom, Bool.and_eq_true, Bool.not_eq_true', beq_eq_false_iff_ne] at w
    rcases List.mem_cons.1 h with rfl | h
    · exact ⟨if_pos rfl, w.1.2⟩
    · have hlo : k + 1 ≤ c.1 := Memory.lower_of_wfFrom w.2 c h
      obtain ⟨hget, hne⟩ := ih w.2 h
      exact ⟨(if_neg (by omega)).trans hget, hne⟩

/-- A byte that is not blank is listed. -/
theorem Memory.mem_of_get {m : Memory} {n : Nat} (h : m.get n ≠ Memory.blank) : (n, m.get n) ∈ m := by
  induction m with
  | nil => exact absurd rfl h
  | cons c m ih =>
    obtain ⟨k, b⟩ := c
    by_cases hk : k = n
    · rw [hk, Memory.get, if_pos rfl]; exact List.mem_cons_self
    · have hget : Memory.get ((k, b) :: m) n = Memory.get m n := if_neg hk
      rw [hget] at h ⊢
      exact List.mem_cons_of_mem _ (ih h)

/-- The cells that a copy of a range writes. -/
def copyCells (m : Memory) (src dst n : Nat) : List (Nat × Byte) :=
  (m.filter fun c => decide (src ≤ c.1 ∧ c.1 < src + n)).map fun c => (c.1 - src + dst, c.2)

/-- A location of the copy of a range into blank memory holds the byte of its original. -/
theorem Memory.get_copy {m : Memory} (w : m.wf = true) {src dst n o : Nat} (ho : o < n) (hblank : m.get (dst + o) = Memory.blank) :
    (m.setAll (copyCells m src dst n)).get (dst + o) = m.get (src + o) := by
  have hin : ∀ c ∈ m.filter (fun c => decide (src ≤ c.1 ∧ c.1 < src + n)), src ≤ c.1 ∧ c ∈ m := fun c hc => by
    obtain ⟨hm, hp⟩ := List.mem_filter.1 hc
    exact ⟨(of_decide_eq_true hp).1, hm⟩
  have hnd : ((copyCells m src dst n).map (·.1)).Nodup := by
    have hkeys := Memory.nodup_of_wfFrom (Memory.wf_filter w fun c => decide (src ≤ c.1 ∧ c.1 < src + n))
    unfold copyCells
    rw [List.map_map]
    refine List.Nodup.map_on (fun a ha b hb hab => ?_) (List.Nodup.of_map _ hkeys)
    have hsame : a.1 = b.1 := by
      have h1 := (hin a ha).1
      have h2 := (hin b hb).1
      simp only [Function.comp_apply] at hab
      omega
    exact List.inj_on_of_nodup_map hkeys ha hb hsame
  by_cases hb : m.get (src + o) = Memory.blank
  · rw [hb, ← hblank]
    refine Memory.get_setAll_of_not_mem w fun c hc he => ?_
    obtain ⟨x, hx, rfl⟩ := List.mem_map.1 hc
    obtain ⟨hlo, hm⟩ := hin x hx
    have hx1 : x.1 = src + o := by simp only at he; omega
    obtain ⟨hget, hne⟩ := Memory.get_of_mem w hm
    rw [hx1] at hget
    exact hne (hget.symm.trans hb)
  · refine Memory.get_setAll_mem w hnd (List.mem_map.2 ⟨(src + o, m.get (src + o)), List.mem_filter.2 ⟨Memory.mem_of_get hb, ?_⟩, ?_⟩)
    · exact decide_eq_true ⟨Nat.le_add_right _ _, by omega⟩
    · rw [Nat.add_sub_cancel_left, Nat.add_comm]

end Sys2Proof.Machine
end

section
/-! The layout of a core's image (R373). -/

namespace Sys2Proof.Machine

/-! ## The layout of a core's image (R373) -/

/-- The pieces lie between two offsets. -/
def Within (lo hi : Nat) (ps : List Piece) : Prop := ∀ p ∈ ps, lo ≤ p.1 ∧ p.1 + p.2.1 ≤ hi

/-- The pieces do not touch what lies between two offsets. -/
def Clear (lo hi : Nat) (ps : List Piece) : Prop := ∀ p ∈ ps, p.1 + p.2.1 ≤ lo ∨ hi ≤ p.1

section
variable {lo hi lo' hi' : Nat} {ps qs : List Piece}

theorem Within.append (h : Within lo hi ps) (k : Within lo hi qs) : Within lo hi (ps ++ qs) :=
  fun p hp => (List.mem_append.1 hp).elim (h p) (k p)

theorem Within.mono (h : Within lo hi ps) (hl : lo' ≤ lo) (hh : hi ≤ hi') : Within lo' hi' ps :=
  fun p hp => ⟨Nat.le_trans hl (h p hp).1, Nat.le_trans (h p hp).2 hh⟩

theorem Within.clear (h : Within lo hi ps) (ho : hi ≤ lo' ∨ hi' ≤ lo) : Clear lo' hi' ps := fun p hp => by
  have := h p hp
  omega

theorem Clear.append (h : Clear lo hi ps) (k : Clear lo hi qs) : Clear lo hi (ps ++ qs) :=
  fun p hp => (List.mem_append.1 hp).elim (h p) (k p)

/-- Pieces moved by an offset. -/
def shifted (d : Nat) (ps : List Piece) : List Piece := ps.map fun (o, n, v) => (d + o, n, v)

theorem Rising.shifted (h : Rising lo hi ps) (d : Nat) : Rising (d + lo) (d + hi) (shifted d ps) where
  within p hp := by
    obtain ⟨q, hq, rfl⟩ := List.mem_map.1 hp
    obtain ⟨h1, h2⟩ := h.within q hq
    exact ⟨Nat.add_le_add_left h1 d, by show d + q.1 + q.2.1 ≤ d + hi; omega⟩
  apart := List.pairwise_map.2 (h.apart.imp fun {p q} hpq => by show d + p.1 + p.2.1 ≤ d + q.1; omega)

theorem Within.shifted (h : Within lo hi ps) (d : Nat) : Within (d + lo) (d + hi) (shifted d ps) := fun p hp => by
  obtain ⟨q, hq, rfl⟩ := List.mem_map.1 hp
  obtain ⟨h1, h2⟩ := h q hq
  exact ⟨Nat.add_le_add_left h1 d, by show d + q.1 + q.2.1 ≤ d + hi; omega⟩

theorem piecesAt_append (base : Nat) (ps qs : List Piece) : piecesAt base (ps ++ qs) = piecesAt base ps ++ piecesAt base qs :=
  List.flatMap_append

/-- A location that no piece covers keeps its byte. -/
theorem Memory.get_piecesAt_clear {m : Memory} (w : m.wf = true) {base : Nat} (h : Clear lo hi ps) {n : Nat}
    (hn : base + lo ≤ n ∧ n < base + hi) : (m.setAll (piecesAt base ps)).get n = m.get n := by
  refine Memory.get_setAll_of_not_mem w fun c hc he => ?_
  obtain ⟨p, hp, h1, h2⟩ := mem_piecesAt hc
  have := h p hp
  omega

/-- A rising part of an image, with nothing that is written later over it, reads back. -/
theorem Memory.natOfBytes_image {m : Memory} (w : m.wf = true) {base : Nat} {as bs cs : List Piece} (hb : Rising lo hi bs)
    (hc : Clear lo hi cs) {o k v : Nat} (hp : (o, k, v) ∈ bs) {b : Nat} (hk : b ≤ k) :
    natOfBytes ((List.range b).map fun j => (m.setAll (piecesAt base (as ++ (bs ++ cs)))).get (base + o + j)) =
      v % 2 ^ (8 * b) := by
  have hin := hb.within _ hp
  have hread := Memory.natOfBytes_piecesAt (Memory.wf_setAll w (piecesAt base as)) (base := base) hb hp (a := 0) (b := b) (by omega)
  rw [Nat.mul_zero, Nat.pow_zero, Nat.div_one] at hread
  rw [← hread]
  refine congrArg natOfBytes (List.map_congr_left fun j hj => ?_)
  have hj := List.mem_range.1 hj
  have hwf := Memory.wf_setAll (Memory.wf_setAll w (piecesAt base as)) (piecesAt base bs)
  rw [piecesAt_append, piecesAt_append, Memory.setAll_append, Memory.setAll_append]
  exact Memory.get_piecesAt_clear hwf hc (by simp only at hin; omega)

end

section
variable {α : Type}

/-- A list of blocks with one of them taken out. -/
theorem flatMap_zipIdx_split {β : Type} (f : α × Nat → List β) {xs : List α} {k : Nat} (hk : k < xs.length) :
    ∃ as cs, xs.zipIdx.flatMap f = as ++ (f (xs[k], k) ++ cs) ∧ ∀ p ∈ cs, ∃ (j : Nat) (hj : j < xs.length), k < j ∧ p ∈ f (xs[j], j) := by
  have hlen : k < xs.zipIdx.length := by rw [List.length_zipIdx]; exact hk
  refine ⟨(xs.zipIdx.take k).flatMap f, (xs.zipIdx.drop (k + 1)).flatMap f, ?_, fun p hp => ?_⟩
  · have hget : xs.zipIdx[k] = (xs[k], k) := by rw [List.getElem_zipIdx, Nat.zero_add]
    rw [← hget, ← List.flatMap_cons, ← List.drop_eq_getElem_cons hlen, ← List.flatMap_append, List.take_append_drop]
  · obtain ⟨x, hx, hp⟩ := List.mem_flatMap.1 hp
    obtain ⟨i, hi, rfl⟩ := List.mem_iff_getElem.1 hx
    rw [List.getElem_drop, List.getElem_zipIdx, Nat.zero_add] at hp
    rw [List.length_drop, List.length_zipIdx] at hi
    exact ⟨k + 1 + i, by omega, by omega, hp⟩

/-- Blocks of equal size, one for each place, lie between the first and the last. -/
theorem Within.blocks {base size n : Nat} {f : α × Nat → List Piece}
    (hf : ∀ x k, Within (base + size * k) (base + size * (k + 1)) (f (x, k))) {xs : List α} (h : xs.length ≤ n) :
    Within base (base + size * n) (xs.zipIdx.flatMap f) := fun p hp => by
  obtain ⟨⟨x, k⟩, hx, hp⟩ := List.mem_flatMap.1 hp
  have hk := (List.mem_zipIdx hx).2.1
  obtain ⟨h1, h2⟩ := hf x k p hp
  have hle : size * (k + 1) ≤ size * n := Nat.mul_le_mul_left size (by omega)
  exact ⟨by omega, by omega⟩

end

/-! ## The parts of a core's image -/

/-- The watermark registers in the image. -/
def Core.wmPieces (c : Core) : List Piece := (c.wms.toList.zipIdx).flatMap fun (w, k) =>
  [(0x100 + 32 * k, 8, w.lo.toNat), (0x108 + 32 * k, 8, w.hi.toNat), (0x110 + 32 * k, 8, w.wm.toNat),
   (0x118 + 32 * k, 8, w.stat.toNat)]

/-- The rings in the image. -/
def Core.ringPieces (c : Core) : List Piece := (c.rings.toList.zipIdx).flatMap fun (r, k) =>
  [(0x200 + 64 * k, 8, r.base.toNat), (0x208 + 64 * k, 8, r.slotb.toNat + r.nslot.toNat * 2 ^ 32),
   (0x210 + 64 * k, 8, r.alloc), (0x218 + 64 * k, 8, r.fill), (0x220 + 64 * k, 8, r.acq), (0x228 + 64 * k, 8, r.rel)]

/-- The planes' sources, the boundaries and the window mode in the image. -/
def Core.planePieces (c : Core) : List Piece :=
  [(0x300, 8, c.active.src.toNat), (0x308, 8, c.active.scaleSrc.toNat), (0x310, 8, c.shadow.src.toNat),
   (0x318, 8, c.shadow.scaleSrc.toNat), (0x340, 8, c.b0.toNat), (0x348, 8, c.b1.toNat), (0x350, 8, c.b2.toNat),
   (0x358, 8, c.mxw.toNat)]

/-- A slot in the image: its block, its pending stores, and its vector registers and masks in the pool. -/
def Slot.imagePieces (vregs : Nat) (x : Slot × Nat) : List Piece :=
  (if x.1.occ then shifted (0x1000 + 0x400 * x.2) (x.1.blockPieces x.1.pc) else []) ++
  ((if x.1.occ then bufferPieces x.1.pend (0x3000 + 20480 * x.2) else []) ++
  (if x.1.occ then shifted 0x100000 (x.1.regPieces vregs x.2) else []))

/-- The tag table in the image. -/
def Core.tagPieces (c : Core) : List Piece := c.tags.flatMap fun (i, e) =>
  [(0x2000 + 16 * i, 8, e.key.toNat), (0x2008 + 16 * i, 8, e.off.toNat + e.len.toNat * 2 ^ 10 + b2n e.valid * 2 ^ 63)]

/-- The accumulator banks in the image. -/
def Core.bankPieces (c : Core) : List Piece := bankImage c.lower 0x20000 0xA0000 ++ bankImage c.upper 0x60000 0xA8000

section
variable {lo hi o n v : Nat} {ps : List Piece}

theorem within_nil (lo hi : Nat) : Within lo hi [] := fun _ hp => absurd hp List.not_mem_nil

theorem within_cons : Within lo hi ((o, n, v) :: ps) ↔ (lo ≤ o ∧ o + n ≤ hi) ∧ Within lo hi ps :=
  List.forall_mem_cons

theorem Rising.cons (h : Rising (o + n) hi ps) (hl : lo ≤ o) (hh : o + n ≤ hi) : Rising lo hi ((o, n, v) :: ps) :=
  ((Rising.single o n v).append h (Nat.le_refl _) (Nat.le_add_right _ _) hh).mono hl (Nat.le_refl _)

end

section
variable {c : Core}

theorem Core.image_eq (c : Core) (gen : BitVec 8) (rung : Nat) (gstep : W64) (off : QRec → Int) : c.image gen rung gstep off =
    [(0, 2, gen.toNat + rung * 256), (8, 8, gstep.toNat)] ++ (c.wmPieces ++ (c.ringPieces ++ (c.planePieces ++
      (c.slots.toList.zipIdx.flatMap (Slot.imagePieces c.vregs) ++ (c.tagPieces ++ (c.bankPieces ++
        shifted 0x100000 (c.area off))))))) := by
  unfold Core.image Core.wmPieces Core.ringPieces Core.planePieces Core.tagPieces Core.bankPieces shifted
  simp only [List.append_assoc]
  rfl

theorem Core.within_wmPieces (c : Core) : Within 0x100 0x200 c.wmPieces := by
  refine Within.blocks (base := 0x100) (size := 32) (n := 8) (fun w k => ?_) (by simp)
  simp only [within_cons, within_nil, and_true]
  omega

theorem Core.within_ringPieces (c : Core) : Within 0x200 0x300 c.ringPieces := by
  refine Within.blocks (base := 0x200) (size := 64) (n := 4) (fun w k => ?_) (by simp)
  simp only [within_cons, within_nil, and_true]
  omega

theorem Core.rising_planePieces (c : Core) : Rising 0x300 0x360 c.planePieces := by
  unfold Core.planePieces
  iterate 8 refine Rising.cons ?_ (by decide) (by decide)
  exact Rising.nil _ _

theorem rising_head (gen gstep : Nat) : Rising 0 0x100 [(0, 2, gen), (8, 8, gstep)] := by
  iterate 2 refine Rising.cons ?_ (by decide) (by decide)
  exact Rising.nil _ _

theorem Core.within_tagPieces (h : ∀ e, e ∈ c.tags → e.1 < 256) : Within 0x2000 0x3000 c.tagPieces := fun p hp => by
  obtain ⟨⟨i, e⟩, he, hp⟩ := List.mem_flatMap.1 hp
  have hi : i < 256 := h _ he
  refine (?_ : Within 0x2000 0x3000 _) p hp
  simp only [within_cons, within_nil, and_true]
  omega

theorem within_bankImage (b : Table Acc) {a f : Nat} (ha : 0x20000 ≤ a ∧ a ≤ 0x60000) (hf : 0xA0000 ≤ f ∧ f ≤ 0xA8000) :
    Within 0x20000 0xB0000 (bankImage b a f) := fun p hp => by
  obtain ⟨i, hi, hp⟩ := List.mem_flatMap.1 hp
  have hi := List.mem_range.1 hi
  refine (?_ : Within 0x20000 0xB0000 _) p hp
  simp only [within_cons, within_nil, and_true]
  omega

theorem Core.within_bankPieces (c : Core) : Within 0x20000 0xB0000 c.bankPieces :=
  (within_bankImage _ (by omega) (by omega)).append (within_bankImage _ (by omega) (by omega))

/-- With no entry in its queues the area holds the control words alone. -/
theorem Core.within_area (h : ∀ w, (c.queue w).recs = []) (off : QRec → Int) : Within 0 0x8000 (c.area off) := by
  have hv : c.vq.recs = [] := h .vec
  have hc : c.cq.recs = [] := h .copy
  have hm : c.mq.recs = [] := h .mx
  unfold Core.area
  rw [hv, hc, hm]
  simp only [List.flatMap_nil, List.nil_append, within_cons, within_nil, and_true]
  omega

end

section
variable {l : Slot} {vregs k top : Nat}

theorem Slot.rising_imageBlock (l : Slot) (k : Nat) :
    Rising (0x1000 + 0x400 * k) (0x1000 + 0x400 * (k + 1)) (shifted (0x1000 + 0x400 * k) (l.blockPieces l.pc)) :=
  ((l.rising_blockPieces l.pc).shifted (0x1000 + 0x400 * k)).mono (by omega) (by omega)

/-- The registers and the masks of a slot lie below the scratchpad. -/
theorem Slot.within_regPieces (l : Slot) (hk : k < 4) (ht : 32768 + 4 * (vregs * 512 + 1024) ≤ top) :
    Within 0x8000 top (l.regPieces vregs k) := by
  have hblock : k * (vregs * 512 + 1024) + (vregs * 512 + 1024) ≤ 4 * (vregs * 512 + 1024) := by
    have h := Nat.mul_le_mul_right (vregs * 512 + 1024) (show k + 1 ≤ 4 by omega)
    rwa [Nat.add_mul, Nat.one_mul] at h
  have hrow : Within 0x8000 top ((List.range vregs).map fun n => (regBlock vregs k + 512 * n, 512, (l.rv n).toNat)) := fun p hp => by
    obtain ⟨n, hn, rfl⟩ := List.mem_map.1 hp
    have hn := List.mem_range.1 hn
    unfold regBlock
    dsimp only
    omega
  have hmasks : Within 0x8000 top ((List.range 8).map fun n =>
      (regBlock vregs k + 512 * vregs + 128 * n, 128, (l.rm n).toNat)) := fun p hp => by
    obtain ⟨n, hn, rfl⟩ := List.mem_map.1 hp
    have hn := List.mem_range.1 hn
    unfold regBlock
    dsimp only
    omega
  exact hrow.append hmasks

theorem Slot.imagePieces_free (h : l.occ = false) (vregs k : Nat) : Slot.imagePieces vregs (l, k) = [] := by
  unfold Slot.imagePieces
  rw [h]
  rfl

/-- With no store pending a slot leaves its block and its registers. -/
theorem Slot.imagePieces_occ (h : l.occ = true) (hp : l.pend = []) (vregs k : Nat) : Slot.imagePieces vregs (l, k) =
    shifted (0x1000 + 0x400 * k) (l.blockPieces l.pc) ++ shifted 0x100000 (l.regPieces vregs k) := by
  unfold Slot.imagePieces
  dsimp only
  rw [h, hp, if_pos rfl, if_pos rfl, if_pos rfl]
  have hnone : bufferPieces [] (0x3000 + 20480 * k) = [] := rfl
  rw [hnone, List.nil_append]

/-- Where the pieces of a slot lie: in its block, or in the pool's registers. -/
theorem Slot.mem_imagePieces (hp : l.occ = true → l.pend = []) (hk : k < 4) (ht : 32768 + 4 * (vregs * 512 + 1024) ≤ top)
    {p : Piece} (h : p ∈ Slot.imagePieces vregs (l, k)) :
    (0x1000 + 0x400 * k ≤ p.1 ∧ p.1 + p.2.1 ≤ 0x1000 + 0x400 * (k + 1)) ∨ (0x108000 ≤ p.1 ∧ p.1 + p.2.1 ≤ 0x100000 + top) := by
  cases ho : l.occ with
  | false => rw [Slot.imagePieces_free ho] at h; exact absurd h List.not_mem_nil
  | true =>
    rw [Slot.imagePieces_occ ho (hp ho)] at h
    rcases List.mem_append.1 h with h | h
    · exact .inl ((l.rising_imageBlock k).within p h)
    · exact .inr ((l.within_regPieces hk ht).shifted 0x100000 p h)

end

/-! ## What the image holds -/

/-- A core whose engines have no entry, whose occupied slots have no store pending, and whose registers end below its scratchpad. -/
structure Core.Plain (c : Core) (top : Nat) : Prop where
  idle : ∀ w, (c.queue w).recs = []
  tags : ∀ e, e ∈ c.tags → e.1 < 256
  pend : ∀ k, (c.slot k).occ = true → (c.slot k).pend = []
  room : 32768 + 4 * (c.vregs * 512 + 1024) ≤ top

section
variable {c : Core} {top : Nat} (h : c.Plain top) (gen : BitVec 8) (rung : Nat) (gstep : W64) (off : QRec → Int)
include h

/-- The pieces of the slots. -/
theorem Core.Plain.mem_slots {p : Piece} (hp : p ∈ c.slots.toList.zipIdx.flatMap (Slot.imagePieces c.vregs)) : ∃ k < 4,
    (0x1000 + 0x400 * k ≤ p.1 ∧ p.1 + p.2.1 ≤ 0x1000 + 0x400 * (k + 1)) ∨ (0x108000 ≤ p.1 ∧ p.1 + p.2.1 ≤ 0x100000 + top) := by
  obtain ⟨⟨l, k⟩, hx, hp⟩ := List.mem_flatMap.1 hp
  obtain ⟨-, hk, hl⟩ := List.mem_zipIdx hx
  have hk4 : k < 4 := by simpa using hk
  have hl : l = c.slot ⟨k, hk4⟩ := hl
  exact ⟨k, hk4, Slot.mem_imagePieces (by rw [hl]; exact h.pend _) hk4 h.room hp⟩

theorem Core.Plain.within_slots :
    Within 0x1000 (0x100000 + top) (c.slots.toList.zipIdx.flatMap (Slot.imagePieces c.vregs)) := fun p hp => by
  obtain ⟨k, hk, hp⟩ := h.mem_slots hp
  omega

/-- What follows the slots in the image. -/
theorem Core.Plain.within_rest : Within 0x2000 0x108000 (c.tagPieces ++ (c.bankPieces ++ shifted 0x100000 (c.area off))) :=
  ((Core.within_tagPieces h.tags).mono (by omega) (by omega)).append ((c.within_bankPieces.mono (by omega) (by omega)).append
    (((Core.within_area h.idle off).shifted 0x100000).mono (by omega) (by omega)))

theorem Core.Plain.within_tail : Within 0x1000 (0x100000 + top) (c.slots.toList.zipIdx.flatMap (Slot.imagePieces c.vregs) ++
    (c.tagPieces ++ (c.bankPieces ++ shifted 0x100000 (c.area off)))) := by
  have htop : 0x108000 ≤ 0x100000 + top := Nat.add_le_add_left (Nat.le_trans (Nat.le_add_right 0x8000 _) h.room) 0x100000
  exact h.within_slots.append ((h.within_rest off).mono (by decide) htop)

/-- The image lies below the scratchpad's data. -/
theorem Core.Plain.within_image : Within 0 (0x100000 + top) (c.image gen rung gstep off) := by
  have hhead : Within 0 0x100 [(0, 2, gen.toNat + rung * 256), (8, 8, gstep.toNat)] := (rising_head _ _).within
  have hplanes : Within 0x300 0x360 c.planePieces := c.rising_planePieces.within
  have hlow : 0x360 ≤ 0x100000 + top := by omega
  have low : ∀ {lo hi : Nat} {ps : List Piece}, Within lo hi ps → hi ≤ 0x360 → Within 0 (0x100000 + top) ps :=
    fun hw hhi => hw.mono (Nat.zero_le _) (Nat.le_trans hhi hlow)
  rw [Core.image_eq]
  exact (low hhead (by decide)).append ((low c.within_wmPieces (by decide)).append ((low c.within_ringPieces (by decide)).append
    ((low hplanes (by decide)).append ((h.within_tail off).mono (Nat.zero_le _) (Nat.le_refl _)))))

theorem Core.Plain.image_head : ∃ cs, c.image gen rung gstep off =
    [] ++ ([(0, 2, gen.toNat + rung * 256), (8, 8, gstep.toNat)] ++ cs) ∧ Clear 0 0x100 cs := by
  have hplanes : Within 0x300 0x360 c.planePieces := c.rising_planePieces.within
  exact ⟨_, c.image_eq gen rung gstep off, (c.within_wmPieces.clear (by omega)).append ((c.within_ringPieces.clear (by omega)).append
    ((hplanes.clear (by omega)).append ((h.within_tail off).clear (by omega))))⟩

theorem Core.Plain.image_planes : ∃ as cs, c.image gen rung gstep off = as ++ (c.planePieces ++ cs) ∧ Clear 0x300 0x360 cs := by
  refine ⟨[(0, 2, gen.toNat + rung * 256), (8, 8, gstep.toNat)] ++ (c.wmPieces ++ c.ringPieces), _, ?_,
    (h.within_tail off).clear (by omega)⟩
  rw [c.image_eq]
  simp only [List.append_assoc]

theorem Core.Plain.image_slot {k : Fin 4} (ho : (c.slot k).occ = true) : ∃ as cs, c.image gen rung gstep off =
    as ++ (shifted (0x1000 + 0x400 * k.val) ((c.slot k).blockPieces (c.slot k).pc) ++ cs) ∧
      Clear (0x1000 + 0x400 * k.val) (0x1000 + 0x400 * (k.val + 1)) cs := by
  have hlen : k.val < c.slots.toList.length := by simp
  obtain ⟨as, cs, heq, hlater⟩ := flatMap_zipIdx_split (Slot.imagePieces c.vregs) hlen
  have hone : c.slots.toList[k.val] = c.slot k := Vector.getElem_toList _
  rw [hone, Slot.imagePieces_occ ho (h.pend k ho)] at heq
  have hregs := ((c.slot k).within_regPieces (vregs := c.vregs) k.isLt h.room).shifted 0x100000
  have hcs : Clear (0x1000 + 0x400 * k.val) (0x1000 + 0x400 * (k.val + 1)) cs := fun p hp => by
    obtain ⟨j, hj, hkj, hp⟩ := hlater p hp
    have hj4 : j < 4 := by simpa using hj
    have hone : c.slots.toList[j] = c.slot ⟨j, hj4⟩ := Vector.getElem_toList _
    rw [hone] at hp
    have hwhere := Slot.mem_imagePieces (h.pend _) hj4 h.room hp
    omega
  refine ⟨[(0, 2, gen.toNat + rung * 256), (8, 8, gstep.toNat)] ++ (c.wmPieces ++ (c.ringPieces ++ (c.planePieces ++ as))),
    shifted 0x100000 ((c.slot k).regPieces c.vregs k.val) ++ (cs ++
      (c.tagPieces ++ (c.bankPieces ++ shifted 0x100000 (c.area off)))), ?_,
    (hregs.clear (by omega)).append (hcs.append ((h.within_rest off).clear (by omega)))⟩
  rw [c.image_eq, heq]
  simp only [List.append_assoc]

end

end Sys2Proof.Machine
end

section
/-! The save of a core: what it leaves in memory, and when it completes or times out (R339, R371, R373). -/

namespace Sys2Proof.Machine

/-! ## What a saved core leaves in memory (R373) -/

/-- A core that may be saved: with no entry in its engines, nothing on its way, and an image that lies clear of the pools and of the
status word of its queue. -/
structure SavesPlain (s : State) (q g : Nat) : Prop where
  cores : s.coresOf q = [g]
  context : (s.core g).context = some q
  wf : s.mem.wf = true
  overlay : s.overlay = []
  fits : (s.queue q).savebase.toNat + g * 0x200000 + 0x200000 ≤ 2 ^ 52
  status : (s.queue q).stataddr.toNat + 8 ≤ (s.queue q).savebase.toNat + g * 0x200000 ∨
    (s.queue q).savebase.toNat + g * 0x200000 + 0x200000 ≤ (s.queue q).stataddr.toNat
  plain : (s.core g).Plain ((s.core g).b0.toNat * 16384)

section
variable {s : State} {q g : Nat} (h : SavesPlain s q g)
include h

omit h in
theorem State.queue_stopCore (s : State) (g q : Nat) : (s.stopCore g).queue q = s.queue q :=
  congrArg (fun qs => tget Queue.blank qs q) (rests_stopCore s g).queues

omit h in
theorem State.queue_saveCore (s : State) (g : Nat) (fresh : Bool) (q : Nat) : (s.saveCore g fresh).queue q = s.queue q := by
  have himg := ((s.stopCore g).imaged_memoryOnly ((s.stopCore g).imageAt (((s.stopCore g).core g).context.getD 0) g) g fresh).queue q
  rw [s.saveCore_eq, ← s.queue_stopCore g q, ← himg]
  generalize (s.stopCore g).imaged _ g fresh = m
  rfl

theorem SavesPlain.context_stopCore : ((s.stopCore g).core g).context = some q :=
  (congrArg (fun x => x.1) ((rests_stopCore s g).bounds g)).trans h.context

theorem SavesPlain.imageAt_stopCore :
    (s.stopCore g).imageAt (((s.stopCore g).core g).context.getD 0) g = (s.queue q).savebase.toNat + g * 0x200000 := by
  rw [h.context_stopCore]
  unfold State.imageAt
  rw [Option.getD_some, State.queue_stopCore]

theorem SavesPlain.plain_stopCore : ((s.stopCore g).core g).Plain ((s.core g).b0.toNat * 16384) := by
  have hstill := stills_stopCore s g
  obtain ⟨htags, hrest⟩ := Prod.mk.inj (hstill.store g)
  obtain ⟨hvregs, -⟩ := Prod.mk.inj hrest
  exact
    { idle := fun w => hstill.idle g w (h.plain.idle w)
      tags := htags ▸ h.plain.tags
      pend := fun k ho => by
        have ho' : (s.slotAt ⟨g, k⟩).occ = true := ((rests_stopCore s g).occ ⟨g, k⟩).symm.trans ho
        have hslot := s.slotAt_stopCore g ho'
        exact (congrArg Slot.pend hslot :).trans (h.plain.pend k ho')
      room := hvregs ▸ h.plain.room }

/-- Memory beside the image's pieces: the range of the image is blank, but for the copy of the pool. -/
def State.copied (s : State) (q g : Nat) : Memory :=
  let at_ := (s.queue q).savebase.toNat + g * 0x200000
  let z : Memory := s.mem.filter fun c => !(decide (at_ ≤ c.1 ∧ c.1 < at_ + 0x200000))
  Memory.setAll z (copyCells z (poolLoc g 0) (at_ + 0x100000) 0x100000)

omit h in
theorem State.wf_copied {s : State} (w : s.mem.wf = true) (q g : Nat) : (s.copied q g).wf = true :=
  Memory.wf_setAll (Memory.wf_filter w _) _

omit h in
theorem State.mem_imaged (u : State) (at_ g : Nat) (fresh : Bool) : (u.imaged at_ g fresh).mem =
    ((u.zeroRange at_ 0x200000).copyRange (poolLoc g 0) (at_ + 0x100000) 0x100000).mem.setAll (piecesAt at_ (u.imageOf g fresh)) := by
  unfold State.imaged
  exact State.homeWrite_mem _ _

omit h in
theorem State.mem_leftEmpty (m : State) (g : Nat) (busy : Bool) (v : Saved) : (m.leftEmpty g busy v).mem = m.mem := rfl

omit h in
theorem State.mem_copyRange (u : State) (at_ src dst n k : Nat) : ((u.zeroRange at_ n).copyRange src dst k).mem =
    Memory.setAll (u.mem.filter fun c => !(decide (at_ ≤ c.1 ∧ c.1 < at_ + n)))
      (copyCells (u.mem.filter fun c => !(decide (at_ ≤ c.1 ∧ c.1 < at_ + n))) src dst k) := rfl

theorem SavesPlain.mem_saveCore : (s.saveCore g false).mem = (s.copied q g).setAll
    (piecesAt ((s.queue q).savebase.toNat + g * 0x200000) ((s.stopCore g).imageOf g false)) := by
  have hmem := ((stills_stopCore s g).quiet h.overlay).2
  rw [s.saveCore_eq, h.imageAt_stopCore, State.mem_leftEmpty, State.mem_imaged, State.mem_copyRange, hmem]
  rfl

/-- The end of the ladder leaves the image. -/
theorem SavesPlain.get_save {n : Nat} (hn : (s.queue q).savebase.toNat + g * 0x200000 ≤ n ∧
    n < (s.queue q).savebase.toNat + g * 0x200000 + 0x200000) :
    ((s.saveCore g false).settleLadder q).mem.get n = (s.saveCore g false).mem.get n := by
  have hwf : (s.saveCore g false).mem.wf = true := by
    rw [h.mem_saveCore]
    exact Memory.wf_setAll (State.wf_copied h.wf q g) _
  have hqueue := s.queue_saveCore g false q
  have hstat := h.status
  exact State.get_settleLadder hwf q (by rw [hqueue]; omega)

omit h in
theorem State.imageOf_false (u : State) (g : Nat) : ∃ off, u.imageOf g false =
    (u.core g).image (u.queue ((u.core g).context.getD 0)).gen 2 u.gstep off := ⟨_, rfl⟩

/-- The image is that of the stopped core. -/
theorem SavesPlain.imageOf_eq : ∃ off, (s.stopCore g).imageOf g false =
    ((s.stopCore g).core g).image (s.queue q).gen 2 s.gstep off := by
  obtain ⟨off, himg⟩ := (s.stopCore g).imageOf_false g
  rw [h.context_stopCore, Option.getD_some, State.queue_stopCore, (stills_stopCore s g).gstep] at himg
  exact ⟨off, himg⟩

/-- A rising part of the image, with nothing that is written later over it, reads back after the save. -/
theorem SavesPlain.peek {lo hi : Nat} {as bs cs : List Piece} (hsplit : (s.stopCore g).imageOf g false = as ++ (bs ++ cs))
    (hb : Rising lo hi bs) (hc : Clear lo hi cs) (hhi : hi ≤ 0x200000) {o k v b : Nat} (hp : (o, k, v) ∈ bs) (hk : b ≤ k) :
    ((s.saveCore g false).settleLadder q).peek ((s.queue q).savebase.toNat + g * 0x200000 + o) b = v % 2 ^ (8 * b) := by
  rw [← Memory.natOfBytes_image (State.wf_copied h.wf q g) (as := as) hb hc hp hk, ← hsplit, ← h.mem_saveCore]
  refine congrArg natOfBytes (List.map_congr_left fun j hj => ?_)
  have hj := List.mem_range.1 hj
  obtain ⟨h1, h2⟩ := hb.within _ hp
  simp only at h1 h2
  exact h.get_save ⟨by omega, by omega⟩

theorem SavesPlain.peek_head :
    ((s.saveCore g false).settleLadder q).peek ((s.queue q).savebase.toNat + g * 0x200000) 2 = (s.queue q).gen.toNat + 2 * 256 ∧
    ((s.saveCore g false).settleLadder q).peek ((s.queue q).savebase.toNat + g * 0x200000 + 8) 8 = s.gstep.toNat := by
  obtain ⟨off, himg⟩ := h.imageOf_eq
  obtain ⟨cs, heq, hc⟩ := h.plain_stopCore.image_head (s.queue q).gen 2 s.gstep off
  have hsplit := himg.trans heq
  have hgen := (s.queue q).gen.isLt
  constructor
  · rw [← Nat.add_zero ((s.queue q).savebase.toNat + g * 0x200000)]
    refine (h.peek hsplit (rising_head _ _) hc (by decide) List.mem_cons_self (Nat.le_refl _)).trans (Nat.mod_eq_of_lt ?_)
    show _ < 2 ^ 16
    omega
  · exact (h.peek hsplit (rising_head _ _) hc (by decide) (List.mem_cons_of_mem _ List.mem_cons_self) (Nat.le_refl _)).trans
      (Nat.mod_eq_of_lt s.gstep.isLt)

theorem SavesPlain.peek_bounds :
    ((s.saveCore g false).settleLadder q).peek ((s.queue q).savebase.toNat + g * 0x200000 + 0x340) 8 = (s.core g).b0.toNat ∧
    ((s.saveCore g false).settleLadder q).peek ((s.queue q).savebase.toNat + g * 0x200000 + 0x348) 8 = (s.core g).b1.toNat ∧
    ((s.saveCore g false).settleLadder q).peek ((s.queue q).savebase.toNat + g * 0x200000 + 0x350) 8 = (s.core g).b2.toNat := by
  obtain ⟨off, himg⟩ := h.imageOf_eq
  obtain ⟨as, cs, heq, hc⟩ := h.plain_stopCore.image_planes (s.queue q).gen 2 s.gstep off
  have hsplit := himg.trans heq
  have read : ∀ {o : Nat} {x : BitVec 7}, (o, 8, x.toNat) ∈ ((s.stopCore g).core g).planePieces →
      ((s.saveCore g false).settleLadder q).peek ((s.queue q).savebase.toNat + g * 0x200000 + o) 8 = x.toNat := fun {o x} hp => by
    refine (h.peek hsplit (Core.rising_planePieces _) hc (by decide) hp (Nat.le_refl _)).trans (Nat.mod_eq_of_lt ?_)
    have := x.isLt
    show _ < 2 ^ 64
    omega
  obtain ⟨-, hrest⟩ := Prod.mk.inj ((stills_stopCore s g).store g)
  obtain ⟨-, hrest⟩ := Prod.mk.inj hrest
  obtain ⟨hb0, hrest⟩ := Prod.mk.inj hrest
  obtain ⟨hb1, hb2⟩ := Prod.mk.inj hrest
  rw [← hb0, ← hb1, ← hb2]
  exact ⟨read (by simp [Core.planePieces]), read (by simp [Core.planePieces]), read (by simp [Core.planePieces])⟩

/-- The slot block of a task that was stopped (R374). -/
theorem SavesPlain.peek_slot {k : Fin 4} (ho : (s.slotAt ⟨g, k⟩).occ = true) {o n v b : Nat}
    (hp : (o, n, v) ∈ (s.slotAt ⟨g, k⟩).saved.blockPieces (s.slotAt ⟨g, k⟩).trapPc) (hb : b ≤ n) :
    ((s.saveCore g false).settleLadder q).peek ((s.queue q).savebase.toNat + g * 0x200000 + 0x1000 + 0x400 * k.val + o) b =
      v % 2 ^ (8 * b) := by
  obtain ⟨off, himg⟩ := h.imageOf_eq
  have ho' : ((s.stopCore g).slotAt ⟨g, k⟩).occ = true := ((rests_stopCore s g).occ _).trans ho
  obtain ⟨as, cs, heq, hc⟩ := h.plain_stopCore.image_slot (s.queue q).gen 2 s.gstep off ho'
  have hslot : ((s.stopCore g).core g).slot k = (s.slotAt ⟨g, k⟩).saved := s.slotAt_stopCore g ho
  rw [hslot] at heq
  have hin : (0x1000 + 0x400 * k.val + o, n, v) ∈
      shifted (0x1000 + 0x400 * k.val) ((s.slotAt ⟨g, k⟩).saved.blockPieces (s.slotAt ⟨g, k⟩).saved.pc) :=
    List.mem_map.2 ⟨_, hp, rfl⟩
  have hread := h.peek (himg.trans heq) (Slot.rising_imageBlock _ _) hc (by omega) hin hb
  rw [← hread]
  congr 1
  omega

/-- The pool's data follow the image (R373). -/
theorem SavesPlain.get_pool {o : Nat} (hlo : (s.core g).b0.toNat * 16384 ≤ o) (hhi : o < 0x100000) :
    ((s.saveCore g false).settleLadder q).mem.get ((s.queue q).savebase.toNat + g * 0x200000 + 0x100000 + o) =
      s.mem.get (2 ^ 52 + g * 2 ^ 20 + o) := by
  obtain ⟨off, himg⟩ := h.imageOf_eq
  have hfits := h.fits
  have hclear : Clear (0x100000 + (s.core g).b0.toNat * 16384) 0x200000 ((s.stopCore g).imageOf g false) := by
    rw [himg]
    exact (h.plain_stopCore.within_image (s.queue q).gen 2 s.gstep off).clear (.inl (Nat.le_refl _))
  rw [h.get_save ⟨by omega, by omega⟩, h.mem_saveCore,
    Memory.get_piecesAt_clear (State.wf_copied h.wf q g) hclear ⟨by omega, by omega⟩]
  generalize hat : (s.queue q).savebase.toNat + g * 0x200000 = at_ at hfits
  unfold State.copied
  rw [hat]
  have hblank : Memory.get (s.mem.filter fun c => !(decide (at_ ≤ c.1 ∧ c.1 < at_ + 0x200000))) (at_ + 0x100000 + o) = Memory.blank := by
    rw [Memory.get_filter s.mem (fun n => !(decide (at_ ≤ n ∧ n < at_ + 0x200000))), if_neg]
    rw [decide_eq_true ⟨by omega, by omega⟩]
    exact Bool.false_ne_true
  have hcopy := Memory.get_copy (Memory.wf_filter h.wf fun c => !(decide (at_ ≤ c.1 ∧ c.1 < at_ + 0x200000))) (src := poolLoc g 0)
    hhi hblank
  have hpool : poolLoc g 0 = 2 ^ 52 + g * 2 ^ 20 := Nat.add_zero _
  refine hcopy.trans ?_
  rw [Memory.get_filter s.mem (fun n => !(decide (at_ ≤ n ∧ n < at_ + 0x200000))), if_pos]
  · rw [hpool]
  · rw [hpool, decide_eq_false (by omega)]
    rfl

end

/-! ## The save of a core completes (R339, R371) -/

section
variable {s : State} {q g : Nat}

theorem saveComplete_idle (h : (s.core g).saving = false) : Idle s (.saveComplete g) := by
  show occurs (s.saveDone g) s = _
  unfold State.saveDone
  dsimp only
  rw [h]
  rfl

/-- No landing is on its way into the pool of a core none of whose copies is landing. -/
theorem State.remapTable_nil (h : ∀ x, x ∈ (s.core g).cq.recs → x.landing = false) : s.remapTable g = [] := by
  have hnone : (s.core g).cq.recs.filterMap (s.lateLanding g) = [] := by
    refine List.filterMap_eq_nil_iff.2 fun x hx => ?_
    unfold State.lateLanding
    rw [h x hx]
    split
    · rfl
    · rfl
    · rfl
  unfold State.remapTable
  rw [hnone, List.take_nil]

theorem Core.atBoundaries_iff (c : Core) :
    c.atBoundaries = true ↔ ∀ k, (c.slot k).occ = true → (c.slot k).atBoundary = true := by
  unfold Core.atBoundaries
  rw [List.all_eq_true]
  constructor
  · intro h k ho
    have hk := h _ (Core.mem_slots.2 ⟨k, rfl⟩)
    rw [ho, Bool.not_true, Bool.false_or] at hk
    exact hk
  · intro h l hl
    obtain ⟨k, rfl⟩ := Core.mem_slots.1 hl
    cases ho : (c.slot k).occ with
    | false => rfl
    | true => rw [h k ho]; rfl

/-- A core that begins to save with no landing left to arrive and no wait to withdraw. -/
structure SavesNow (s : State) (g : Nat) : Prop where
  saving : (s.core g).saving = true
  home : ∀ k, (s.slotAt ⟨g, k⟩).away = none
  landed : ∀ v, v ∈ s.saved → v.core = g → v.remap = []

theorem SavesNow.saveDone (h : SavesNow s g) : s.saveDone g = if (s.core g).atBoundaries then
    some ((s.saveCore g false).settleLadder ((s.core g).context.getD 0)) else none := by
  have hrest : (s.saved.filter fun v => v.core == g && !v.remap.isEmpty) = [] := by
    refine List.filter_eq_nil_iff.2 fun v hv hp => ?_
    obtain ⟨hg, hr⟩ := Bool.and_eq_true_iff.1 hp
    rw [h.landed v hv (beq_iff_eq.1 hg)] at hr
    cases hr
  have haway : ((([0, 1, 2, 3] : List (Fin 4)).map fun k => (⟨g, k⟩ : SlotRef)).filter fun r => (s.slotAt r).needsCancel) = [] := by
    refine List.filter_eq_nil_iff.2 fun r hr => ?_
    obtain ⟨k, -, rfl⟩ := List.mem_map.1 hr
    rw [Slot.needsCancel, h.home k]
    exact Bool.false_ne_true
  unfold State.saveDone
  dsimp only
  rw [hrest, haway, h.saving]
  rfl

theorem SavesNow.waits (h : SavesNow s g) (hb : ∃ k, (s.slotAt ⟨g, k⟩).occ = true ∧ (s.slotAt ⟨g, k⟩).atBoundary = false) :
    Idle s (.saveComplete g) := by
  have hno : (s.core g).atBoundaries = false := by
    rw [← Bool.not_eq_true, Core.atBoundaries_iff]
    intro hall
    obtain ⟨k, ho, hk⟩ := hb
    have := hall k ho
    rw [show ((s.core g).slot k).atBoundary = false from hk] at this
    cases this
  show occurs (s.saveDone g) s = _
  rw [h.saveDone, hno]
  rfl

theorem SavesNow.happens (h : SavesNow s g) (hq : (s.core g).context = some q)
    (hb : ∀ k, (s.slotAt ⟨g, k⟩).occ = true → (s.slotAt ⟨g, k⟩).atBoundary = true) :
    Happens s (.saveComplete g) ((s.saveCore g false).settleLadder q) := by
  show occurs (s.saveDone g) s = _
  rw [h.saveDone, (Core.atBoundaries_iff (s.core g)).2 hb, hq]
  rfl

theorem MemoryOnly.core {s t : State} (h : MemoryOnly s t) (g : Nat) : t.core g = s.core g := h.keeps (·.core g) rfl
theorem FirmwareOnly.core {s t : State} (h : FirmwareOnly s t) (g : Nat) : t.core g = s.core g := h.keeps (·.core g) rfl

/-- A save leaves the tag table as it was. -/
theorem State.tags_saveCore (u : State) (g : Nat) (fresh : Bool) :
    (((u.saveCore g fresh).settleLadder q).core g).tags = (u.core g).tags := by
  have hstill : ((u.stopCore g).core g).tags = (u.core g).tags := congrArg (fun x => x.1) ((stills_stopCore u g).store g)
  have hmem := ((u.stopCore g).imaged_memoryOnly ((u.stopCore g).imageAt (((u.stopCore g).core g).context.getD 0) g) g fresh).core g
  rw [((u.saveCore g fresh).settleLadder_firmwareOnly q).core g, u.saveCore_eq, State.core_leftEmpty, if_pos rfl, hmem]
  exact hstill

/-! ## The save times out (R371) -/

theorem saveTimeout_early (h : s.refclk < (s.queue q).saveAt + 800 * (s.queue q).t2) : Idle s (.saveTimeout q) := by
  show occurs (s.saveOver q) s = _
  unfold State.saveOver
  dsimp only
  rw [if_pos (by simp [h])]
  rfl

theorem saveTimeout_happens (hc : s.coresOf q = [g]) (hst : (s.queue q).stopped = true) (hs : (s.core g).saving = true)
    (h : (s.queue q).saveAt + 800 * (s.queue q).t2 ≤ s.refclk) :
    Happens s (.saveTimeout q) (((s.resetCore g).saveCore g true).settleLadder q) := by
  have hlate : (s.coresOf q).filter (fun g => (s.core g).saving) = [g] := by
    rw [hc, List.filter_cons_of_pos (by simpa using hs), List.filter_nil]
  show occurs (s.saveOver q) s = _
  unfold State.saveOver
  dsimp only
  rw [hlate, hst, decide_eq_false (Nat.not_lt.2 h)]
  rfl

theorem Core.tags_wiped (c : Core) : c.wiped.tags = [] := rfl

theorem State.tags_resetCore (s : State) (g : Nat) : ((s.resetCore g).core g).tags = [] := by
  have hset : ∀ (rs : List SlotRef) (u : State), (u.core g).tags = [] →
      ((rs.foldl (fun s r => if (s.slotAt r).occ then s.setSlot r (s.restarted r) else s) u).core g).tags = [] := fun rs => by
    induction rs with
    | nil => exact fun _ hu => hu
    | cons r rs ih =>
      refine fun u hu => ih _ ?_
      dsimp only
      split
      · exact Eq.trans (congrArg Core.tags ((deviceKept_setSlot u r (u.restarted r)).2 g) :) hu
      · exact hu
  unfold State.resetCore
  dsimp only
  refine hset _ _ ?_
  rw [State.core_modCore_same]
  exact Core.tags_wiped _

end

/-! ## A landing that arrives after the save (R339) -/

section
variable {s : State} {q g : Nat} {v : Saved} {r : QRec} {wm : Wm} {loc : Nat} {b : Byte}

/-- The record of a core after its last landing has arrived. -/
def Saved.landed (v : Saved) (x : List (Nat × Byte) × QRec × Wm) : Saved :=
  { v with
    cq := { v.cq with recs := v.cq.recs.map fun r => if r.idx = x.2.1.stopAtMark.idx then x.2.1.stopAtMark else r }
    remap := v.remap.erase x }

/-- The bytes of a landing at their places in the image. -/
def landedCells (v : Saved) (at_ : Nat) (x : List (Nat × Byte) × QRec × Wm) : List (Nat × Byte) :=
  x.1.map (fun c => (c.1 - poolLoc v.core 0 + at_ + 0x100000, c.2))

/-- The watermark register of a landing at its place in the image. -/
def landedWm (at_ : Nat) (x : List (Nat × Byte) × QRec × Wm) : List (Nat × Byte) :=
  if cpWmen x.2.1.ops then piecesAt (at_ + 0x100 + 32 * cpWmi x.2.1.ops) [(16, 8, x.2.2.wm.toNat), (24, 8, x.2.2.stat.toNat)] else []

theorem State.landLate_eq (s : State) (v : Saved) (x : List (Nat × Byte) × QRec × Wm) : ∃ mark, s.landLate v x =
    { s.homeWrite (landedCells v (s.imageAt v.queue v.core) x ++ landedWm (s.imageAt v.queue v.core) x ++
        piecesAt (s.imageAt v.queue v.core + 0x100000) (x.2.1.stopAtMark.longPieces (0x2000 + 128 * x.2.1.idx) mark)) with
      saved := s.saved.map fun y => if y = v then y.landed x else y } := ⟨_, rfl⟩

theorem QRec.within_longPieces (q : QRec) (o mark : Nat) : Within o (o + 0x60) (q.longPieces o mark) := by
  unfold QRec.longPieces
  rw [within_cons, within_cons]
  refine ⟨by omega, by omega, fun p hp => ?_⟩
  obtain ⟨j, hj, rfl⟩ := List.mem_map.1 hp
  have hj := List.mem_range.1 hj
  dsimp only
  omega

theorem cpWmi_lt (o : List W64) : cpWmi o < 8 := by
  unfold cpWmi bits
  exact Nat.mod_lt _ (by decide)

theorem rising_landedWm (a c : Nat) : Rising 16 32 [(16, 8, a), (24, 8, c)] := by
  iterate 2 refine Rising.cons ?_ (by decide) (by decide)
  exact Rising.nil _ _

section
variable {m : Memory} (w : m.wf = true) {at_ mark : Nat} (hidx : r.idx < 64)
include w hidx

/-- The engine's record lies below what a landing writes of the pool and above the watermark registers. -/
theorem Memory.get_record {n : Nat} (hn : n < at_ + 0x100000 ∨ at_ + 0x108000 ≤ n) :
    (m.setAll (piecesAt (at_ + 0x100000) (r.stopAtMark.longPieces (0x2000 + 128 * r.idx) mark))).get n = m.get n := by
  have hrec := r.stopAtMark.within_longPieces (0x2000 + 128 * r.idx) mark
  refine Memory.get_setAll_of_not_mem w fun c hc he => ?_
  obtain ⟨p, hp, h1, h2⟩ := mem_piecesAt hc
  obtain ⟨h3, h4⟩ := hrec p hp
  omega

/-- The byte of a landing stands in the image of the pool. -/
theorem Memory.get_landed {core : Nat} (hcore : v.core = core)
    (hoff : 32768 ≤ loc - (2 ^ 52 + core * 2 ^ 20)) :
    (m.setAll (landedCells v at_ ([(loc, b)], r, wm) ++ landedWm at_ ([(loc, b)], r, wm) ++
      piecesAt (at_ + 0x100000) (r.stopAtMark.longPieces (0x2000 + 128 * r.idx) mark))).get
        (at_ + 0x100000 + (loc - (2 ^ 52 + core * 2 ^ 20))) = b := by
  have hpool : poolLoc v.core 0 = 2 ^ 52 + core * 2 ^ 20 := by rw [hcore]; exact Nat.add_zero _
  have hplace : loc - poolLoc v.core 0 + at_ + 0x100000 = at_ + 0x100000 + (loc - (2 ^ 52 + core * 2 ^ 20)) := by
    rw [hpool]; omega
  have hwmi := cpWmi_lt r.ops
  have hwf := Memory.wf_setAll w (landedCells v at_ ([(loc, b)], r, wm))
  rw [Memory.setAll_append, Memory.setAll_append, Memory.get_record (Memory.wf_setAll hwf _) hidx (.inr (by omega))]
  have hcells : landedCells v at_ ([(loc, b)], r, wm) = [(at_ + 0x100000 + (loc - (2 ^ 52 + core * 2 ^ 20)), b)] := by
    unfold landedCells
    rw [List.map_singleton, hplace]
  have hfirst : (m.setAll (landedCells v at_ ([(loc, b)], r, wm))).get (at_ + 0x100000 + (loc - (2 ^ 52 + core * 2 ^ 20))) = b := by
    rw [hcells]
    exact Memory.get_setAll_mem w (by simp) List.mem_cons_self
  refine Eq.trans ?_ hfirst
  unfold landedWm
  split
  · exact Memory.get_piecesAt_outside hwf (rising_landedWm _ _) (.inr (by dsimp only; omega))
  · rfl

/-- The watermark register of a landing stands in the image. -/
theorem Memory.natOfBytes_landedWm (hen : cpWmen r.ops = true) :
    natOfBytes ((List.range 8).map fun j => (m.setAll (landedCells v at_ ([(loc, b)], r, wm) ++
      landedWm at_ ([(loc, b)], r, wm) ++
      piecesAt (at_ + 0x100000) (r.stopAtMark.longPieces (0x2000 + 128 * r.idx) mark))).get
        (at_ + 0x100 + 32 * cpWmi r.ops + 16 + j)) = wm.wm.toNat := by
  have hwmi := cpWmi_lt r.ops
  have hwf := Memory.wf_setAll w (landedCells v at_ ([(loc, b)], r, wm))
  have hread := Memory.natOfBytes_piecesAt hwf (base := at_ + 0x100 + 32 * cpWmi r.ops)
    (rising_landedWm wm.wm.toNat wm.stat.toNat) List.mem_cons_self (a := 0) (b := 8) (by decide)
  rw [Nat.mul_zero, Nat.pow_zero, Nat.div_one, Nat.mod_eq_of_lt wm.wm.isLt] at hread
  rw [← hread]
  refine congrArg natOfBytes (List.map_congr_left fun j hj => ?_)
  have hj := List.mem_range.1 hj
  rw [Memory.setAll_append, Memory.setAll_append, Memory.get_record (Memory.wf_setAll hwf _) hidx (.inl (by omega))]
  unfold landedWm
  rw [if_pos hen]

end

variable (hv : s.saved = [v]) (hg : v.core = g) (hq : v.queue = q) (hr : v.remap = [([(loc, b)], r, wm)])
  (hs : (s.core g).saving = true)
include hv hg hq hr hs

/-- The state in which the last landing of a saved core has arrived. -/
theorem saveComplete_lands : Happens s (.saveComplete g)
    (((s.landLate v ([(loc, b)], r, wm)).modCore g fun c => { c with saving := false }).settleLadder q) := by
  have hrest : (s.saved.filter fun v => v.core == g && !v.remap.isEmpty) = [v] := by
    rw [hv, List.filter_cons_of_pos (by simp [hg, hr]), List.filter_nil]
  show occurs (s.saveDone g) s = _
  unfold State.saveDone
  dsimp only
  rw [hrest, hs]
  show occurs (v.remap.head?.map _) s = _
  rw [hr, ← hq]
  rfl

theorem saveComplete_landed : ∃ t v1, Happens s (.saveComplete g) t ∧ t.saved = [v1] ∧ v1.remap = [] ∧ v1.slots = v.slots ∧
    (t.core g).saving = false ∧ (s.mem.wf = true →
      (s.queue q).savebase.toNat + g * 0x200000 + 0x200000 ≤ 2 ^ 52 →
      (s.queue q).stataddr.toNat + 8 ≤ (s.queue q).savebase.toNat + g * 0x200000 ∨
        (s.queue q).savebase.toNat + g * 0x200000 + 0x200000 ≤ (s.queue q).stataddr.toNat →
      2 ^ 52 + g * 2 ^ 20 ≤ loc → 32768 ≤ loc - (2 ^ 52 + g * 2 ^ 20) → loc - (2 ^ 52 + g * 2 ^ 20) < 0x100000 → r.idx < 64 →
      t.mem.get ((s.queue q).savebase.toNat + g * 0x200000 + 0x100000 + (loc - (2 ^ 52 + g * 2 ^ 20))) = b ∧
      (cpWmen r.ops = true → t.peek ((s.queue q).savebase.toNat + g * 0x200000 + 0x100 + 32 * cpWmi r.ops + 16) 8 =
        wm.wm.toNat)) := by
  obtain ⟨mark, hland⟩ := s.landLate_eq v ([(loc, b)], r, wm)
  let u := (s.landLate v ([(loc, b)], r, wm)).modCore g fun c => { c with saving := false }
  have hfirm := u.settleLadder_firmwareOnly q
  have hsaved : u.saved = [v.landed ([(loc, b)], r, wm)] := by
    show (s.landLate v ([(loc, b)], r, wm)).saved = _
    rw [hland]
    show (s.saved.map _) = _
    rw [hv, List.map_singleton, if_pos rfl]
  have himage : s.imageAt v.queue v.core = (s.queue q).savebase.toNat + g * 0x200000 := by rw [hq, hg]; rfl
  refine ⟨u.settleLadder q, v.landed ([(loc, b)], r, wm), saveComplete_lands hv hg hq hr hs,
    (hfirm.keeps State.saved rfl).trans hsaved, ?_, rfl, ?_, fun w hfits hstat _ hoff htop hidx => ?_⟩
  · show v.remap.erase _ = []
    rw [hr]
    exact List.erase_cons_head _ _
  · rw [hfirm.core g]
    exact congrArg Core.saving (State.core_modCore_same _ _ _)
  · have hmem : u.mem = s.mem.setAll (landedCells v ((s.queue q).savebase.toNat + g * 0x200000) ([(loc, b)], r, wm) ++
        landedWm ((s.queue q).savebase.toNat + g * 0x200000) ([(loc, b)], r, wm) ++
        piecesAt ((s.queue q).savebase.toNat + g * 0x200000 + 0x100000) (r.stopAtMark.longPieces (0x2000 + 128 * r.idx) mark)) := by
      show (s.landLate v ([(loc, b)], r, wm)).mem = _
      rw [hland, himage]
      exact State.homeWrite_mem _ _
    have hwf : u.mem.wf = true := by rw [hmem]; exact Memory.wf_setAll w _
    have hqueue : u.queue q = s.queue q := by
      show (s.landLate v ([(loc, b)], r, wm)).queue q = _
      rw [hland]
      rfl
    have hget : ∀ n, (s.queue q).savebase.toNat + g * 0x200000 ≤ n →
        n < (s.queue q).savebase.toNat + g * 0x200000 + 0x200000 → (u.settleLadder q).mem.get n = u.mem.get n := fun n h1 h2 =>
      State.get_settleLadder hwf q (by rw [hqueue]; omega)
    have hwmi := cpWmi_lt r.ops
    constructor
    · rw [hget _ (by omega) (by omega), hmem]
      exact Memory.get_landed w hidx hg hoff
    · intro hen
      rw [← Memory.natOfBytes_landedWm w hidx hen (v := v) (loc := loc) (b := b) (wm := wm) (mark := mark), ← hmem]
      refine congrArg natOfBytes (List.map_congr_left fun j hj => ?_)
      have hj := List.mem_range.1 hj
      exact hget _ (by omega) (by omega)

end

end Sys2Proof.Machine
end

section
/-! Parks, shootdowns and the ladder, as the obligation states them. -/

namespace Sys2Proof.Machine

/-! ## The obligation -/

/-- The park of an engine's one entry, for each engine. -/
theorem State.EngineParked.settled {s : State} {g : Nat} {k : Fin 4} {e : EngId} {q : QRec} {p : Park}
    (h : s.EngineParked g k e q p) :
    (¬ s.Hears g p → Idle s (.parkWake g (.engine e))) ∧
    (s.Hears g p → ∀ a x y z, s.walk (s.queueOf ⟨g, k⟩).troot p.addr.toNat = .ok a x y z → ∃ t,
      Happens s (.parkWake g (.engine e)) t ∧ ((t.core g).queue (whichOf e)).recs = [{ q with park := none }] ∧
        ((∀ y, t.slotAt y = s.slotAt y) ∧ t.mem = s.mem)) ∧
    (p.expired = true ∨ s.refclk - p.since < ((s.slotAt ⟨g, k⟩).parklim.extractLsb' 0 16).toNat * 1024 ∨
        (∃ x, x ∈ (s.slotAt ⟨g, k⟩).engTraps ∧ x.orig = (whichOf e).orig) → Idle s (.parkTimeout g (.engine e))) := by
  refine ⟨parkWake_deaf h.parksOf, fun hh a x y z hw => ?_, fun hx => ?_⟩
  · exact ⟨_, parkWake_goes_on h.parksOf hh hw, h.recs_setPark none, fun y => s.slotAt_setPark_engine _ _ _ _ _ y, rfl⟩
  · rcases hx with hx | hx | hx
    · exact parkTimeout_idle h.parksOf (.inl hx)
    · exact parkTimeout_idle h.parksOf (.inr hx)
    · exact h.held_up hx

theorem shootdown_posted {s : State} {g q pages : Nat} {base : W64} {c : Core}
    (hp : s.rangePinned (s.queue q).troot base pages = false) (hc : s.cores = [(g, c)]) (hq : c.context = some q) :
    ∃ x : Shoot, Happens s (.shootdown q base pages)
        (({ s with shootReqs := s.shootReqs.erase (q, base, pages) } : State).setCore g { c with shoots := c.shoots ++ [x] }) ∧
      x.base = base ∧ x.pages = pages ∧ x.since = s.refclk ∧ x.stopped = [] ∧
      ((∀ j : Fin 4, (s.slotAt ⟨g, j⟩).occ = true → (s.launchOf ⟨g, j⟩).det ≠ 2) →
        ∀ uid, uid ∈ x.lagging ↔ ∃ j : Fin 4, (s.slotAt ⟨g, j⟩).occ = true ∧ (s.slotAt ⟨g, j⟩).uid = uid) ∧
      ((∃ j : Fin 4, (s.slotAt ⟨g, j⟩).occ = true ∧ (s.launchOf ⟨g, j⟩).det = 2) → x.lagging = []) := by
  have hcore : s.core g = c := by rw [State.core, hc, tget_single]
  subst hcore
  exact ⟨_, shootdown_posts hp hc hq, rfl, rfl, rfl, rfl, fun hd uid => State.mem_lagging (c := s.core g) hd uid,
    fun hd => State.lagging_d2 (c := s.core g) hd⟩

theorem task_mod (task : BitVec 32) (role entry : Nat) (occ : Bool) :
    (task.toNat + role * 2 ^ 32 + entry * 2 ^ 34 + b2n occ * 2 ^ 36) % 2 ^ (8 * 4) = task.toNat := by
  have htask := task.isLt
  omega

/-- A slot block of the saved core, field by field (R374). -/
theorem SavesPlain.peek_fields {s : State} {q g : Nat} (h : SavesPlain s q g) {k : Fin 4} (ho : (s.slotAt ⟨g, k⟩).occ = true) :
    let t := (s.saveCore g false).settleLadder q
    let at_ := (s.queue q).savebase.toNat + g * 0x200000
    t.peek (at_ + 0x1000 + 0x400 * k.val) 8 = (s.slotAt ⟨g, k⟩).trapPc.toNat ∧
    (∀ j : XReg, 1 ≤ j.toNat → t.peek (at_ + 0x1000 + 0x400 * k.val + 8 * j.toNat) 8 = ((s.slotAt ⟨g, k⟩).rx j).toNat) ∧
    t.peek (at_ + 0x1000 + 0x400 * k.val + 0x100) 8 = (s.slotAt ⟨g, k⟩).p.toNat / 2 * 2 ∧
    t.peek (at_ + 0x1000 + 0x400 * k.val + 0x180) 4 = (s.slotAt ⟨g, k⟩).task.toNat := by
  intro t at_
  refine ⟨?_, fun j hj => ?_, ?_, ?_⟩
  · rw [← Nat.add_zero (at_ + 0x1000 + 0x400 * k.val)]
    exact (h.peek_slot ho (Slot.pc_block _ _) (Nat.le_refl _)).trans (Nat.mod_eq_of_lt (BitVec.isLt _))
  · have hj0 : j ≠ 0 := fun e => by rw [e] at hj; exact absurd hj (by decide)
    exact (h.peek_slot ho (Slot.rx_block _ _ hj0) (Nat.le_refl _)).trans (Nat.mod_eq_of_lt (BitVec.isLt _))
  · refine (h.peek_slot ho (Slot.p_block _ _) (Nat.le_refl _)).trans (Nat.mod_eq_of_lt ?_)
    exact Nat.lt_of_le_of_lt (Nat.div_mul_le_self _ _) (Nat.lt_trans (BitVec.isLt _) (by decide))
  · refine (h.peek_slot ho (Slot.task_block _ _) (by decide)).trans ?_
    exact task_mod _ _ _ _

/-- Settles O55: a step lemma for each event; what the ladder leaves of a queue rests on what the stop and the reset of cores keep
(`Rests`), and what a save writes on the layout of the image, whose parts do not overlap those that are read. -/
theorem parksShootdownsAndPreemption : Obligations.ParksShootdownsAndPreemption := by
  unfold Obligations.ParksShootdownsAndPreemption
  refine ⟨fun s g k => ⟨?_, ?_, park_none_idle, ?_, ?_, ?_⟩, fun s q g hc hq => ⟨?_, ?_, ?_, ?_, ?_, ?_⟩⟩
  · intro p hp
    refine ⟨fun hh => parkWake_deaf (State.parksOf_slot hp) hh, fun hh e x y z hw => slot_goes_on hp hh hw, fun hh e hw => ?_⟩
    exact slot_parks_again hp hh hw
  · intro p hp he
    exact ⟨fun hl => parkTimeout_idle (State.parksOf_slot hp) (.inr hl), fun hl hi => slot_times_out hp he hl hi⟩
  · intro e q p hs hp w recs stays hears limit hrecs
    have hw : w = whichOf e := by cases e <;> rfl
    have h : s.EngineParked g k e q p := ⟨hw ▸ hrecs, hs, hp⟩
    obtain ⟨hdeaf, hgoes, hidle⟩ := h.settled
    cases e <;> exact ⟨hdeaf, hgoes, fun hh a hwalk => h.again hh hwalk, hidle, fun he hl hn => h.times_out he hl hn⟩
  · intro q base pages
    exact ⟨shootdown_waits, fun hp c hcores hctx => shootdown_posted hp hcores hctx⟩
  · intro x hx
    refine ⟨fun hl => shootdownAck_idle hx hl, fun hl ho => shootdownAck_nothing hx hl ho,
      fun hl o e hover ho hsees w htlb he hpages hv => shootdownAck_one hx hl hover ho hsees w htlb he hpages hv,
      fun hl ht => shootWaitExpiry_early (k := k) hx hl ht, fun hl ht ho hothers ha => ⟨fun hb => ?_, fun hb => ?_⟩⟩
    · show occurs (s.shootExpire g) s = _
      rw [shootWaitExpiry_due hx hl ht ho hothers ha, hb]
      rfl
    · exact shootWaitExpiry_stops hx hl ht ho hothers ha hb
  · intro hst hs
    refine ⟨fun ht => drainTimeout_early ht, fun hl ht => drainTimeout_saves hc hst hs ht hl,
      fun hl ha ht => drainTimeout_waits hc hst hs ht hl ha,
      fun hl ha => ⟨fun ht => drainTimeout_still_waits hc hst hs hl ha ht, fun ht => drainTimeout_saves_at_last hc hst hs hl ha ht⟩⟩
  · exact fun h => ⟨drainTimeout_stopped h, saveTimeout_stopped h⟩
  · exact fun h => saveComplete_idle h
  · intro v r w loc b hv hg hvq hr hs
    exact saveComplete_landed hv hg hvq hr hs
  · intro hs ha hland hre
    have hnow : SavesNow s g := ⟨hs, ha, hre⟩
    have he : Emptied s ((s.saveCore g false).settleLadder q) q g 2 :=
      (Rests.refl s).emptied_saveCore hc hq (fresh := false) (State.remapTable_nil hland)
    refine ⟨fun hb => hnow.waits hb, fun hb => ⟨_, hnow.happens hq hb, ?_, s.tags_saveCore g false, ?_⟩⟩
    · exact ⟨he.context, he.saving, he.b0, he.b1, he.b2, he.vq, he.cq, he.mq, he.free, he.record, he.rung⟩
    · intro at_ w hover hfits _ hroom hstat hidle htags hpend
      have h : SavesPlain s q g := ⟨hc, hq, w, hover, hfits, hstat, ⟨hidle, htags, hpend, hroom⟩⟩
      obtain ⟨hgen, hgstep⟩ := h.peek_head
      obtain ⟨hb0, hb1, hb2⟩ := h.peek_bounds
      exact ⟨hgen, hgstep, hb0, hb1, hb2, fun k ho => h.peek_fields ho, fun o hlo hhi => h.get_pool hlo hhi⟩
  · intro hst hs hd
    have he : Emptied s (((s.resetCore g).saveCore g true).settleLadder q) q g 3 :=
      (rests_resetCore s g hd).emptied_saveCore hc hq (fresh := true) rfl
    refine ⟨fun ht => saveTimeout_early ht, fun ht => ⟨_, saveTimeout_happens hc hst hs ht, ?_, ?_⟩⟩
    · exact ⟨he.context, he.saving, he.b0, he.b1, he.b2, he.vq, he.cq, he.mq, he.free, he.record, he.rung⟩
    · rw [State.tags_saveCore]
      exact s.tags_resetCore g

end Sys2Proof.Machine
end

section
/-! What an event of an engine leaves (R249, R282, R351). -/

namespace Sys2Proof.Machine

theorem State.core_wakeAll (s : State) (g : Nat) :
    s.wakeAll.core g = (s.core g).mapSlots fun l => { l with stalled := false } :=
  tget_map (fun _ (c : Core) => c.mapSlots fun l => { l with stalled := false }) _ _ _ (Core.reset_mapSlots rfl)

theorem State.wdog_wakeAll (s : State) (g : Nat) : (s.wakeAll.core g).wdog = (s.core g).wdog := by
  rw [State.core_wakeAll]
  rfl

/-- What an engine does, once it is known: its watchdog starts anew, and every slot may try again. -/
theorem engineEvent_some {e g : Nat} {f : State → Nat → Option State} {s u t : State}
    (hrun : s.clusterStopped (clusterOf g) = false) (hf : f s g = some t) (h : engineEvent e f g s = .next u.wakeAll) :
    u.wakeAll = (t.modCore g (·.progress e)).wakeAll := by
  unfold engineEvent at h
  rw [if_neg (by simp [hrun]), hf] at h
  exact (Host.Outcome.next.inj h).symm

theorem engineEvent_wdog {e g : Nat} {f : State → Nat → Option State} {s u t : State}
    (hrun : s.clusterStopped (clusterOf g) = false) (hf : f s g = some t) (h : engineEvent e f g s = .next u.wakeAll) :
    (u.core g).wdog = tdel (t.core g).wdog e := by
  rw [← State.wdog_wakeAll, engineEvent_some hrun hf h, State.wdog_wakeAll, State.core_modCore_same]
  rfl

theorem engineEvent_hostReqs {e g : Nat} {f : State → Nat → Option State} {s u t : State}
    (hrun : s.clusterStopped (clusterOf g) = false) (hf : f s g = some t) (h : engineEvent e f g s = .next u.wakeAll) :
    u.hostReqs = t.hostReqs := by
  change u.wakeAll.hostReqs = (t.modCore g (·.progress e)).wakeAll.hostReqs
  rw [engineEvent_some hrun hf h]

end Sys2Proof.Machine
end

section
/-! The matrix engine exchanges the planes while an earlier read of the host window is still open (O40). -/

namespace Sys2Proof.Machine

/-- A MXSWP that waits in the matrix queue of slot 0. -/
def QRec.waitingSwap : QRec := State.reset.newRec .mx .mxswp EngQ.reset []

/-- What the matrix engine has read of the host window for an earlier entry of the task: an MXLDW that met a trap after it
leaves such an answer. -/
def HostReq.readForPlane : HostReq :=
  { tag := 0, uid := 0, core := 0, slot := 0, unit := 3, granule := 0x8000000000000 / 64, back := true }

/-- On a device that does not bridge core 0 is about to exchange its planes. -/
def State.swapsPlanes : State := { State.reset with
  bridge := false
  cores := [(0, { Core.reset with mq := { EngQ.reset with recs := [.waitingSwap], tail := 1 } })]
  hostReqs := [.readForPlane] }

theorem swapsPlanes_starts : (State.swapsPlanes.mxStart 0).map (·.hostReqs) = some [] := by decide +kernel

/-- Refutes O40, for what an entry of the matrix engine leaves of the reads of the host window: an entry that starts drops
what the engine asked for its task before, while the statement has MXSWP change the core alone. -/
theorem not_matrixEngine : ¬ Obligations.MatrixEngine := by
  unfold Obligations.MatrixEngine
  rintro ⟨h, -⟩
  obtain ⟨hstart, -⟩ := h State.swapsPlanes 0 .waitingSwap rfl rfl rfl rfl rfl rfl
  obtain ⟨hswap, -⟩ := hstart rfl
  obtain ⟨t, ht, hreqs⟩ := Option.map_eq_some_iff.1 swapsPlanes_starts
  have hsame : [HostReq.readForPlane] = t.hostReqs := engineEvent_hostReqs (e := 2) rfl ht (hswap rfl)
  rw [hreqs] at hsame
  exact nomatch hsame

end Sys2Proof.Machine
end

section
/-! A group of vector registers that runs past v47 (O41). -/

namespace Sys2Proof.Machine

/-- The widening of v0 from I8 to v46 and the registers after it, whose group of four starts at a register that is no
multiple of four. -/
def vcvtToV46 : Instr := .vcvt 46 0 .i8 1 false false

theorem vcvtToV46_wf : vcvtToV46.wf = true := by decide

/-- Every task of core 0 has all 48 vector registers, and VCFG holds the type I16. -/
def State.ownsAllVectors : State := { State.reset with
  cores := [(0, { Core.reset with vregs := 48, slots := Vector.ofFn fun _ => { Slot.reset with occ := true, vcfg := 2 } })] }

/-- The latches have the numbers from 48 on, so that no register of the group is one at or above VREGS. -/
theorem ownsAllVectors_illegal :
    (vdesc vcvtToV46 .i16).map State.ownsAllVectors.vecIllegal = some (some 0) := by
  decide +kernel

/-- Refutes O41, at the end of the vector registers: the group v46 to v49 reaches the latches' numbers, and with VREGS = 48
the statement has ILLEGAL with TVAL 48. There is no vector register v48 (R126), and the model raises ILLEGAL for the group's
alignment, with TVAL 0. -/
theorem not_vectorInstructions : ¬ Obligations.VectorInstructions := by
  unfold Obligations.VectorInstructions
  intro h
  obtain ⟨d, hd, hill⟩ := Option.map_eq_some_iff.1 ownsAllVectors_illegal
  obtain ⟨hhigh, -⟩ := h .ownsAllVectors vcvtToV46 d hd
  have hreach : State.ownsAllVectors.here.vregs ≤ 48 ∧ ∃ g, g ∈ d.dst.toList ++ d.a.toList ++ d.b.toList ∧
      g.1.toNat < 48 ∧ g.1.toNat ≤ 48 ∧ 48 < g.1.toNat + g.2 := by
    cases hd
    exact ⟨Nat.le_refl 48, (46, 4), by decide, by decide⟩
  obtain ⟨t, ht, -, -, -, hslot⟩ := hhigh 48 hreach (fun m hm => hm.1) rfl
  have hexec : exec vcvtToV46 .ownsAllVectors = .next (State.ownsAllVectors.trap .illegal 0 vcvtToV46.encode) := by
    change State.ownsAllVectors.vecIssue vcvtToV46 = _
    unfold State.vecIssue
    rw [show vdesc vcvtToV46 (vcfgType (State.ownsAllVectors.slot.vcfg.setWidth 8)) = some d from hd]
    dsimp only
    rw [hill]
  have htval : t.slot.tval = 0 := by
    rw [Host.Outcome.next.inj (ht.symm.trans hexec)]
    rfl
  rw [hslot] at htval
  exact absurd (show (48 : W64) = 0 from htval) (by decide)

end Sys2Proof.Machine
end

section
/-! The vector engine asks the bridging device for a load's bytes (O43). -/

namespace Sys2Proof.Machine

/-- The read of the host window that a check has to be asked for: its location, and the unit that asks. -/
def Check.asks : Check → Option (Nat × Nat)
  | .away loc unit => some (loc, unit)
  | _ => none

theorem Check.eq_away_of_asks {x : Check} {loc unit : Nat} (h : x.asks = some (loc, unit)) : x = .away loc unit := by
  cases x with
  | away l u =>
    obtain ⟨rfl, rfl⟩ := Prod.mk.inj (Option.some.inj h)
    rfl
  | _ => exact nomatch h

section
variable (s : State) (r : SlotRef) (va n ctr : Nat) (k : Access) (m : Mode)

/-- What an access asks for does not depend on how many free values have been drawn. -/
theorem State.checkLate_asks_freeCtr (loc : Nat) (port : Option (Nat × Nat)) :
    (({ s with freeCtr := ctr } : State).checkLate r va loc n port k m).asks =
      (s.checkLate r va loc n port k m).asks := by
  unfold State.checkLate
  dsimp only
  simp only [apply_ite Check.asks]
  rfl

theorem State.touch_freeCtr (g a : Nat) (e : W64) :
    ({ s with freeCtr := ctr } : State).touch g e a k = { s.touch g e a k with freeCtr := ctr } := by
  unfold State.touch
  generalize e ||| (if k.writes then (0x30 : W64) else 0x10) = want
  dsimp only
  split <;> rfl

theorem State.check_asks_freeCtr {e : TlbEntry} (hw : isWindow va = false) (ht : (s.core r.core).tlbFind va = some e) :
    (({ s with freeCtr := ctr } : State).check r va n k m).asks = (s.check r va n k m).asks := by
  obtain ⟨h1, h2⟩ : va / 2 ^ 52 ≠ 0xFFF ∧ va / 2 ^ 52 ≠ 0xFFE := by simpa [isWindow] using hw
  have ht' : (({ s with freeCtr := ctr } : State).core r.core).tlbFind va = some e := ht
  unfold State.check
  rw [if_neg h1, if_neg h1, if_neg h2, if_neg h2]
  unfold State.checkTranslated
  simp only [ht, ht', apply_ite Check.asks, Option.isSome_some, if_true, State.touch_freeCtr, State.checkLate_asks_freeCtr]
  rfl

end

/-- The page of the host window that the task reads at address 0, as a core's TLB holds it: readable, and accessed before. -/
def TlbEntry.hostPage : TlbEntry := { vpn := 0, pages := 1, pte := 0x8000000000113, pteAt := 0 }

/-- A VLD of FP32 elements from address 0 on, which the engine has begun. -/
def QRec.begunLoad : QRec := { State.reset.newRec .vec (.vld 0 1 2 0 false false) EngQ.reset [0, 0] with st := .running }

/-- On a device that does not bridge core 0 runs that load, and its watchdog has counted a cycle. -/
def State.loadsFromHost : State := { State.reset with
  bridge := false
  cores := [(0, { Core.reset with
    tlb := [.hostPage], vq := { EngQ.reset with recs := [.begunLoad], tail := 1 }, wdog := [(0, 1)] })]
  launches := [(0, { Launch.blank with leases := [{ base := 0, pages := 1, lw := false, lx := false, demand := false }] })] }

theorem loadsFromHost_asks :
    (State.loadsFromHost.check ⟨0, 0⟩ 0 4 .read vecMode).asks = some (0x8000000000000, 1) := by
  decide +kernel

/-- The first access of the load has to be asked for; so has the load's. -/
theorem loadsFromHost_away (ctr : Nat) {es : List (Nat × Nat)} (h : es.head? = some (0, 0)) :
    ({ State.loadsFromHost with freeCtr := ctr } : State).vecAccess ⟨0, 0⟩ .read 4 es = .away 0x8000000000000 1 := by
  obtain ⟨es, rfl⟩ := List.head?_eq_some_iff.1 h
  have hasks := (State.check_asks_freeCtr State.loadsFromHost ⟨0, 0⟩ 0 4 ctr .read vecMode (e := .hostPage)
    rfl rfl).trans loadsFromHost_asks
  unfold State.vecAccess
  rw [if_neg (by simp), Check.eq_away_of_asks hasks]

theorem loadsFromHost_wdog :
    (State.loadsFromHost.vecStart 0).map (fun t => tdel (t.core 0).wdog 0) = some [] := by
  decide +kernel

/-- Refutes O43, for what an engine leaves of its watchdog: an entry that asks the bridging device for a read has made
progress, so the watchdog of its engine starts anew (R351), while the statement has the core unchanged. In
`State.loadsFromHost` a load runs whose first read the engine has not asked for yet, and the watchdog counts since the
cycle before. -/
theorem not_vectorEngine : ¬ Obligations.VectorEngine := by
  unfold Obligations.VectorEngine
  rintro ⟨h, -⟩
  replace h := h State.loadsFromHost 0 .begunLoad rfl rfl rfl rfl (by decide) (by decide) rfl 0 0 0 1 2 0 0 0 0 false false
    .fp32 fun _ => 0
  repeat replace h := h.2
  obtain ⟨-, -, haccess⟩ := h _ [] State.loadsFromHost
  obtain ⟨-, haway, -⟩ := haccess .read (.inl ⟨.inl ⟨rfl, rfl⟩, rfl⟩)
  have hasks := haway 0x8000000000000 (fun ctr => loadsFromHost_away ctr rfl) rfl
  obtain ⟨t, ht, hwdog⟩ := Option.map_eq_some_iff.1 loadsFromHost_wdog
  have hsame := engineEvent_wdog (e := 0) rfl ht hasks
  rw [hwdog] at hsame
  exact nomatch hsame

end Sys2Proof.Machine
end

section
/-! Rounding to a format, as it is of the real number that is rounded (R99, R101). -/

namespace Sys2Proof.Machine

/-- Orders agree where both strict relations do. -/
theorem compare_congr {α β : Type} [LinearOrder α] [LinearOrder β] {a b : α} {u v : β} (hlt : a < b ↔ u < v)
    (hgt : b < a ↔ v < u) : compare a b = compare u v := by
  rcases lt_trichotomy u v with h | h | h
  · rw [compare_lt_iff_lt.2 h, compare_lt_iff_lt.2 (hlt.2 h)]
  · have hab : a = b := le_antisymm (not_lt.1 fun hba => (hgt.1 hba).ne' h) (not_lt.1 fun hab => (hlt.1 hab).ne h)
    rw [compare_eq_iff_eq.2 h, compare_eq_iff_eq.2 hab]
  · rw [compare_gt_iff_gt.2 h, compare_gt_iff_gt.2 (hgt.2 h)]

theorem compare_beq_gt {α : Type} [LinearOrder α] (u v : α) : (compare u v == .gt) = decide (v < u) := by
  rw [Bool.eq_iff_iff, beq_iff_eq, decide_eq_true_iff, compare_gt_iff_gt]

theorem compare_bne_lt {α : Type} [LinearOrder α] (u v : α) : (compare u v != .lt) = decide (v ≤ u) := by
  rw [Bool.eq_iff_iff, bne_iff_ne, decide_eq_true_iff, Ne, compare_lt_iff_lt, not_lt]

/-- The magnitude x is m * 2^e, or exceeds it by less than 2^e when it is sticky. -/
def CutFrom (x : ℝ) (m : Nat) (e : Int) (sticky : Bool) : Prop :=
  x < (m + 1 : Nat) * (2 : ℝ) ^ e ∧ if sticky then (m : ℝ) * 2 ^ e < x else x = m * 2 ^ e

theorem cutFrom_exact (m : Nat) (e : Int) : CutFrom (m * 2 ^ e) m e false := by
  refine ⟨?_, rfl⟩
  have : (0 : ℝ) < 2 ^ e := by positivity
  push_cast
  linarith

section
variable {x : ℝ} {m : Nat} {e : Int} {sticky : Bool}

theorem CutFrom.le (h : CutFrom x m e sticky) : (m : ℝ) * 2 ^ e ≤ x := by
  obtain ⟨-, h⟩ := h
  cases sticky with
  | false => exact h.ge
  | true => exact h.le

/-- The magnitude against a whole number of 2^e. -/
theorem CutFrom.compare_units (h : CutFrom x m e sticky) (n : Nat) :
    compare x (n * 2 ^ e) = compare (2 * m + b2n sticky) (2 * n) := by
  have hp : (0 : ℝ) < 2 ^ e := by positivity
  obtain ⟨hlt, hcut⟩ := h
  have hup : m < n → x < n * 2 ^ e := fun hmn => hlt.trans_le (by gcongr; exact hmn)
  cases sticky with
  | false =>
    obtain rfl : x = m * 2 ^ e := hcut
    have hunits : ∀ u v : Nat, (u : ℝ) * 2 ^ e < v * 2 ^ e ↔ u < v := fun u v => by
      rw [mul_lt_mul_iff_left₀ hp, Nat.cast_lt]
    refine compare_congr ((hunits m n).trans ?_) ((hunits n m).trans ?_) <;> simp [b2n]
  | true =>
    have hgt : n ≤ m → (n : ℝ) * 2 ^ e < x := fun hnm => lt_of_le_of_lt (by gcongr) hcut
    refine compare_congr ⟨fun hx => ?_, fun hn => hup (by simp [b2n] at hn; omega)⟩
      ⟨fun hx => ?_, fun hn => hgt (by simp [b2n] at hn; omega)⟩
    · have : ¬ n ≤ m := fun hnm => (hgt hnm).not_gt hx
      simp [b2n]
      omega
    · have : ¬ m < n := fun hmn => (hup hmn).not_gt hx
      simp [b2n]
      omega

/-- The magnitude lies in the binade of its digits. -/
theorem CutFrom.binade (h : CutFrom x m e sticky) (hm : 0 < m) :
    (2 : ℝ) ^ ((m.log2 : Int) + e) ≤ x ∧ x < 2 ^ ((m.log2 : Int) + e + 1) := by
  have hp : (0 : ℝ) < 2 ^ e := by positivity
  constructor
  · refine le_trans ?_ h.le
    rw [zpow_add₀ two_ne_zero, zpow_natCast]
    gcongr
    exact_mod_cast Nat.log2_self_le hm.ne'
  · refine h.1.trans_le ?_
    rw [add_right_comm, zpow_add₀ two_ne_zero, ← Nat.cast_succ, zpow_natCast]
    gcongr
    exact_mod_cast Nat.lt_log2_self

end

/-! ## The cut at a quantum (R99) -/

section
variable {x : ℝ} {m : Nat} {e q : Int} {sticky : Bool} {k : Nat} {d : Nat → Ordering}

/-- A magnitude that needs no cut lies on the quanta. -/
theorem cutAt_eq_of_le (r : RMode) (neg : Bool) (h : CutFrom x m e false) (hq : q ≤ e)
    (hd : ∀ n, d n = compare x (n * 2 ^ (q - 1))) (hlo : d (2 * k) ≠ .lt) (hhi : d (2 * k + 2) = .lt) :
    cutAt r neg m e q false = (k + b2n (roundsAway r neg k 2 d), d (2 * k) == .gt) := by
  obtain ⟨c, hc⟩ := Int.eq_ofNat_of_zero_le (sub_nonneg.2 hq)
  have hx : x = ((2 * (m * 2 ^ c) : Nat) : ℝ) * 2 ^ (q - 1) := by
    rw [h.2, show e = (c : Int) + 1 + (q - 1) by omega, zpow_add₀ two_ne_zero, zpow_add₀ two_ne_zero]
    push_cast
    rw [zpow_natCast]
    ring
  have hd' : ∀ n, d n = compare (2 * (m * 2 ^ c)) n := fun n => by
    rw [hd, hx]
    have hp : (0 : ℝ) < 2 ^ (q - 1) := by positivity
    exact compare_congr (by rw [mul_lt_mul_iff_left₀ hp, Nat.cast_lt]) (by rw [mul_lt_mul_iff_left₀ hp, Nat.cast_lt])
  rw [hd', Ne, compare_lt_iff_lt] at hlo
  rw [hd', compare_lt_iff_lt] at hhi
  obtain rfl : k = m * 2 ^ c := by omega
  have heq : d (2 * (m * 2 ^ c)) = .eq := by rw [hd', compare_eq_iff_eq]
  have hlt : d (2 * (m * 2 ^ c) + 1) = .lt := by rw [hd', compare_lt_iff_lt]; omega
  unfold cutAt
  rw [if_pos hq, hc, Int.toNat_natCast]
  cases r <;> simp [roundsUp, roundsAway, heq, hlt, b2n]

/-- The part cut off, against half a quantum, is the magnitude against the midpoint. -/
theorem roundsUp_eq_roundsAway (r : RMode) (neg : Bool) {rem p c : Nat} (hp : 2 ^ c = p)
    (hd : d (2 * k) = compare (2 * rem + b2n sticky) 0) (hd' : d (2 * k + 1) = compare (2 * rem + b2n sticky) (2 * p)) :
    roundsUp r neg (k % 2 == 1) rem (c + 1) sticky = roundsAway r neg k 2 d := by
  have hgt : (d (2 * k) == .gt) = (rem != 0 || sticky) := by
    rw [hd, compare_beq_gt, Bool.eq_iff_iff]
    cases sticky <;> simp [b2n, Nat.pos_iff_ne_zero]
  have hpast : (d (2 * k + 1) == .gt) = (decide (p < rem) || (decide (p ≤ rem) && sticky)) := by
    rw [hd', compare_beq_gt, Bool.eq_iff_iff]
    cases sticky <;> simp [b2n]
    omega
  have hhalf : (d (2 * k + 1) != .lt) = decide (p ≤ rem) := by
    rw [hd', compare_bne_lt, Bool.eq_iff_iff]
    cases sticky <;> simp [b2n]
    omega
  have hodd : (decide (p < rem) || (decide (p ≤ rem) && sticky) || (decide (p ≤ rem) && k % 2 == 1)) =
      ((d (2 * k + 1) == .gt) || (d (2 * k + 1) == .eq && k % 2 == 1)) := by
    rw [← hpast, ← hhalf]
    cases d (2 * k + 1) <;> simp
  unfold roundsUp roundsAway
  simp only [Nat.add_sub_cancel, hp, Nat.succ_ne_zero, if_false, Nat.reduceDiv]
  cases r with
  | rne => exact hodd
  | rna => exact hhalf.symm
  | rtz => rfl
  | rdn => rw [hgt]
  | rup => rw [hgt]

/-- A magnitude between k and k + 1 quanta of 2^q, cut there: `d n` orders it against n half quanta. -/
theorem cutAt_eq (r : RMode) (neg : Bool) (h : CutFrom x m e sticky) (hsticky : sticky = true → e < q)
    (hd : ∀ n, d n = compare x (n * 2 ^ (q - 1))) (hlo : d (2 * k) ≠ .lt) (hhi : d (2 * k + 2) = .lt) :
    cutAt r neg m e q sticky = (k + b2n (roundsAway r neg k 2 d), d (2 * k) == .gt) := by
  by_cases hq : q ≤ e
  · obtain rfl : sticky = false := Bool.eq_false_iff.2 fun hs => absurd (hsticky hs) (not_lt.2 hq)
    exact cutAt_eq_of_le r neg h hq hd hlo hhi
  obtain ⟨c, hc⟩ := Int.eq_ofNat_of_zero_le (a := q - 1 - e) (by omega)
  obtain ⟨p, hp⟩ : ∃ p, 2 ^ c = p := ⟨_, rfl⟩
  have hd' : ∀ n, d n = compare (2 * m + b2n sticky) (2 * (n * p)) := fun n => by
    rw [hd, ← h.compare_units, ← hp, show q - 1 = (c : Int) + e by omega, zpow_add₀ two_ne_zero]
    push_cast
    rw [mul_assoc, zpow_natCast]
  have hbit : b2n sticky ≤ 1 := by cases sticky <;> simp [b2n]
  have hpos : 0 < p := hp ▸ Nat.two_pow_pos c
  rw [hd', Ne, compare_lt_iff_lt, not_lt] at hlo
  rw [hd', compare_lt_iff_lt] at hhi
  obtain ⟨rem, hrem⟩ : ∃ rem, m = k * (2 * p) + rem := Nat.exists_eq_add_of_le (by ring_nf at hlo ⊢; omega)
  have hsmall : rem < 2 * p := by
    subst hrem
    ring_nf at hhi
    omega
  have hdiv : m / (2 * p) = k := by
    rw [hrem, mul_comm, Nat.mul_add_div (by omega), Nat.div_eq_of_lt hsmall, add_zero]
  have hmod : m % (2 * p) = rem := by rw [hrem, mul_comm, Nat.mul_add_mod, Nat.mod_eq_of_lt hsmall]
  have hzero : d (2 * k) = compare (2 * rem + b2n sticky) 0 := by
    rw [hd', hrem]
    exact compare_congr (by ring_nf; omega) (by ring_nf; omega)
  have hhalf : d (2 * k + 1) = compare (2 * rem + b2n sticky) (2 * p) := by
    rw [hd', hrem]
    exact compare_congr (by ring_nf; omega) (by ring_nf; omega)
  unfold cutAt
  rw [if_neg hq, show (q - e).toNat = c + 1 by omega]
  dsimp only
  rw [pow_succ, hp, mul_comm p 2, hdiv, hmod, roundsUp_eq_roundsAway r neg hp hzero hhalf, hzero]
  refine congrArg _ ?_
  rw [compare_beq_gt, Bool.eq_iff_iff]
  cases sticky <;> simp [b2n, Nat.pos_iff_ne_zero]

end

/-! ## The quantum of a magnitude in a format (R96, R101) -/

section
variable {f : Fmt} {x : ℝ} {m : Nat} {e q : Int} {sticky : Bool} {k : Nat} {c : Nat → Ordering}

theorem two_zpow_lt {a b : Int} (h : (2 : ℝ) ^ a < 2 ^ b) : a < b := (zpow_lt_zpow_iff_right₀ one_lt_two).1 h

theorem quarter_units (n : Nat) (q : Int) : ((4 * n : Nat) : ℝ) * 2 ^ (q - 2) = n * 2 ^ q := by
  rw [show q = q - 2 + 2 by omega, zpow_add₀ two_ne_zero, show q - 2 + 2 - 2 = q - 2 by omega]
  push_cast
  ring

theorem half_units (n : Nat) (q : Int) : ((2 * n : Nat) : ℝ) * 2 ^ (q - 2) = n * 2 ^ (q - 1) := by
  rw [show q - 1 = q - 2 + 1 by omega, zpow_add₀ two_ne_zero]
  push_cast
  ring

theorem units_lt_mono {p : Int} {u v : Nat} (hc : ∀ n, c n = compare x (n * 2 ^ p)) (huv : u ≤ v) (hu : c u = .lt) :
    c v = .lt := by
  rw [hc, compare_lt_iff_lt] at hu ⊢
  exact hu.trans_le (by gcongr)

theorem Fmt.Fits.le (hfit : f.Fits q k c) (hc : ∀ n, c n = compare x (n * 2 ^ (q - 2))) : (k : ℝ) * 2 ^ q ≤ x := by
  obtain ⟨-, -, -, -, hlo, -⟩ := hfit
  rwa [hc, quarter_units, Ne, compare_lt_iff_lt, not_lt] at hlo

theorem Fmt.Fits.lt (hfit : f.Fits q k c) (hc : ∀ n, c n = compare x (n * 2 ^ (q - 2))) :
    x < (k + 1 : Nat) * (2 : ℝ) ^ q := by
  obtain ⟨-, -, -, -, -, hhi⟩ := hfit
  rwa [hc, show 4 * k + 4 = 4 * (k + 1) by omega, quarter_units, compare_lt_iff_lt] at hhi

/-- A magnitude below a power of two of quanta is below that binade. -/
theorem CutFrom.top_lt {n : Nat} (h : CutFrom x m e sticky) (hm : 0 < m) (hx : x < (k + 1 : Nat) * (2 : ℝ) ^ q)
    (hk : k < 2 ^ n) : (m.log2 : Int) + e < n + q := by
  refine two_zpow_lt ((h.binade hm).1.trans_lt (hx.trans_le ?_))
  rw [zpow_add₀ two_ne_zero, zpow_natCast]
  gcongr
  exact_mod_cast hk

theorem CutFrom.le_top {n : Nat} (h : CutFrom x m e sticky) (hm : 0 < m) (hx : (k : ℝ) * 2 ^ q ≤ x) (hk : 2 ^ n ≤ k) :
    (n : Int) + q ≤ (m.log2 : Int) + e := by
  refine Int.le_of_lt_add_one (two_zpow_lt (lt_of_le_of_lt (le_trans ?_ hx) (h.binade hm).2))
  rw [zpow_add₀ two_ne_zero, zpow_natCast]
  gcongr
  exact_mod_cast hk

/-- The quantum that fits is that of the magnitude's digits, or the least one of the format. -/
theorem Fmt.Fits.quantum (hfit : f.Fits q k c) (hc : ∀ n, c n = compare x (n * 2 ^ (q - 2))) (h : CutFrom x m e sticky)
    (hm : 0 < m) :
    q = if (m.log2 : Int) + e - f.fbits < f.emin - f.fbits then f.emin - f.fbits else (m.log2 : Int) + e - f.fbits := by
  have hlt := hfit.lt hc
  have hle := hfit.le hc
  obtain ⟨hq, hk, hdigits, -, -, -⟩ := hfit
  have htop := h.top_lt hm hlt hk
  push_cast at htop
  rcases hdigits with hleast | hdigits
  · split <;> omega
  · have := h.le_top hm hle hdigits
    split <;> omega

/-- Quarters that are halves of halves round alike. -/
theorem roundsAway_halves (r : RMode) (neg : Bool) (k : Nat) (c : Nat → Ordering) :
    roundsAway r neg k 2 (fun n => c (2 * n)) = roundsAway r neg k 4 c := by
  have h0 : 2 * (2 * k) = 4 * k := by omega
  have h1 : 2 * (2 * k + 2 / 2) = 4 * k + 4 / 2 := by omega
  simp only [roundsAway, h0, h1]

theorem roundsAway_of_lt {r : RMode} {neg : Bool} {d : Nat → Ordering} (h0 : d (2 * k) = .lt) (h1 : d (2 * k + 1) = .lt) :
    roundsAway r neg k 2 d = false := by
  cases r <;> simp [roundsAway, h0, h1]

/-- A magnitude that rounds up exceeds the lower of its neighbours. -/
theorem gt_of_roundsAway {r : RMode} {neg : Bool} (hc : ∀ n, c n = compare x (n * 2 ^ (q - 2)))
    (h : roundsAway r neg k 4 c = true) : c (4 * k) = .gt := by
  have hhalf : c (4 * k + 4 / 2) ≠ .lt → c (4 * k) = .gt := fun hne => by
    rw [hc, Ne, compare_lt_iff_lt, not_lt] at hne
    rw [hc, compare_gt_iff_gt]
    refine lt_of_lt_of_le ?_ hne
    gcongr
    omega
  unfold roundsAway at h
  cases r with
  | rne =>
    refine hhalf fun hlt => ?_
    rw [hlt] at h
    exact absurd h (by simp)
  | rna => exact hhalf (by simpa using h)
  | rtz => exact absurd h Bool.false_ne_true
  | rdn => exact eq_of_beq (Bool.and_eq_true_iff.1 h).2
  | rup => exact eq_of_beq (Bool.and_eq_true_iff.1 h).2

/-- The cut of a magnitude at the quantum that fits it. -/
theorem Fmt.Fits.cutAt (r : RMode) (neg : Bool) (hfit : f.Fits q k c) (hc : ∀ n, c n = compare x (n * 2 ^ (q - 2)))
    (h : CutFrom x m e sticky) (hsticky : sticky = true → e < q) :
    cutAt r neg m e q sticky = (k + b2n (roundsAway r neg k 4 c), c (4 * k) == .gt) := by
  obtain ⟨-, -, -, -, hlo, hhi⟩ := hfit
  have h4 : 2 * (2 * k) = 4 * k := by omega
  have := cutAt_eq (k := k) (d := fun n => c (2 * n)) r neg h hsticky (fun n => by rw [hc, half_units])
    (by rwa [h4]) (by rwa [show 2 * (2 * k + 2) = 4 * k + 4 by omega])
  rwa [roundsAway_halves, h4] at this

end

/-! ## What a format makes of a magnitude (R99, R101) -/

section
variable {f : Fmt} {x : ℝ} {m : Nat} {e q : Int} {sticky : Bool} {k : Nat} {c : Nat → Ordering}

theorem Fmt.bias_spec (he : 1 ≤ f.ebits) : 2 * f.bias + 2 = 2 ^ f.ebits := by
  obtain ⟨n, hn⟩ : ∃ n, f.ebits = n + 1 := ⟨f.ebits - 1, by omega⟩
  have : 0 < 2 ^ n := Nat.two_pow_pos n
  unfold Fmt.bias
  rw [hn, Nat.add_sub_cancel, pow_succ]
  omega

theorem Fmt.infBits_eq (he : 1 ≤ f.ebits) (neg : Bool) :
    f.infBits neg = f.zeroBits neg + (2 * f.bias + 1) * 2 ^ f.fbits := by
  rw [Fmt.infBits, Fmt.zeroBits, ← Fmt.bias_spec he]
  rfl

/-- What rounds below the least normal magnitude with an unbounded exponent: there the quantum is half the format's, where it
is not still less. -/
theorem Fmt.Fits.tiny (r : RMode) (neg : Bool) (hF : 1 ≤ f.fbits) (hfit : f.Fits q k c)
    (hc : ∀ n, c n = compare x (n * 2 ^ (q - 2))) (h : CutFrom x m e sticky) (hm : 0 < m)
    (hsticky : sticky = true → e + f.fbits < m.log2 + e) :
    decide ((if (Machine.cutAt r neg m e (m.log2 + e - f.fbits) sticky).1 = 2 ^ (f.fbits + 1) then (m.log2 : Int) + e + 1
      else m.log2 + e) < f.emin) =
    (decide (k < 2 ^ f.fbits) && !(k + 1 == 2 ^ f.fbits && roundsAway r neg (2 * k + 1) 2 c)) := by
  have hle := hfit.le hc
  have hlt := hfit.lt hc
  by_cases hk : k < 2 ^ f.fbits
  case neg =>
    have htop := h.le_top hm hle (not_lt.1 hk)
    have hq : f.emin - f.fbits ≤ q := hfit.1
    rw [decide_eq_false (p := k < _) hk, Bool.false_and, decide_eq_false_iff_not]
    split <;> omega
  obtain ⟨-, -, hdigits, -, hlo, hhi⟩ := hfit
  obtain rfl : q = f.emin - f.fbits := hdigits.resolve_right (by omega)
  have htop := h.top_lt hm hlt hk
  rw [decide_eq_true (p := k < _) hk, Bool.true_and]
  by_cases hbelow : (m.log2 : Int) + e < f.emin - 1
  case pos =>
    have hne : ¬ k + 1 = 2 ^ f.fbits := fun hk1 => by
      have hhalf : 2 ^ (f.fbits - 1) ≤ k := by
        have : 2 ^ (f.fbits - 1) + 2 ^ (f.fbits - 1) = 2 ^ f.fbits := by
          rw [← two_mul, ← pow_succ', Nat.sub_add_cancel hF]
        have := Nat.two_pow_pos (f.fbits - 1)
        omega
      have := h.le_top hm hle hhalf
      omega
    rw [show (k + 1 == 2 ^ f.fbits) = false by simpa using hne, Bool.false_and, Bool.not_false, decide_eq_true_iff]
    split <;> omega
  -- the magnitude lies in the last binade below the normal ones, where the unbounded quantum is half the format's
  have hqn : (m.log2 : Int) + e - f.fbits = f.emin - f.fbits - 1 := by omega
  have hd : ∀ n, c n = compare x (n * 2 ^ (f.emin - f.fbits - 1 - 1)) := fun n => by
    rw [hc, show f.emin - (f.fbits : Int) - 2 = f.emin - f.fbits - 1 - 1 by omega]
  have hs : sticky = true → e < f.emin - f.fbits - 1 := fun hst => by have := hsticky hst; omega
  obtain ⟨j, hj, hjlo, hjhi⟩ : ∃ j, (j = 2 * k ∧ c (4 * k + 2) = .lt ∨ j = 2 * k + 1) ∧ c (2 * j) ≠ .lt ∧
      c (2 * j + 2) = .lt := by
    by_cases hmid : c (4 * k + 2) = .lt
    · exact ⟨2 * k, .inl ⟨rfl, hmid⟩, by rwa [show 2 * (2 * k) = 4 * k by omega],
        by rwa [show 2 * (2 * k) + 2 = 4 * k + 2 by omega]⟩
    · exact ⟨2 * k + 1, .inr rfl, by rwa [show 2 * (2 * k + 1) = 4 * k + 2 by omega],
        by rwa [show 2 * (2 * k + 1) + 2 = 4 * k + 4 by omega]⟩
  rw [hqn, cutAt_eq r neg h hs hd hjlo hjhi]
  dsimp only
  have hfull : j + b2n (roundsAway r neg j 2 c) = 2 ^ (f.fbits + 1) ↔
      k + 1 = 2 ^ f.fbits ∧ roundsAway r neg (2 * k + 1) 2 c = true := by
    have hbit : b2n (roundsAway r neg j 2 c) ≤ 1 := by cases roundsAway r neg j 2 c <;> simp [b2n]
    rw [pow_succ]
    rcases hj with ⟨rfl, hmid⟩ | rfl
    · have h3 : c (2 * (2 * k + 1) + 1) = .lt := units_lt_mono hc (by omega) hmid
      rw [roundsAway_of_lt (k := 2 * k + 1) (by rwa [show 2 * (2 * k + 1) = 4 * k + 2 by omega]) h3]
      simp only [Bool.false_eq_true, and_false, iff_false]
      omega
    · cases roundsAway r neg (2 * k + 1) 2 c <;>
        simp only [b2n, if_true, if_false, Bool.false_eq_true, and_true, and_false, iff_false] <;> omega
  simp only [hfull]
  by_cases hboth : k + 1 = 2 ^ f.fbits ∧ roundsAway r neg (2 * k + 1) 2 c = true
  · rw [if_pos hboth, hboth.2, beq_iff_eq.2 hboth.1, decide_eq_false (by omega)]
    rfl
  · rw [if_neg hboth, decide_eq_true (by omega)]
    cases hr : roundsAway r neg (2 * k + 1) 2 c with
    | false => simp
    | true => simpa [hr] using hboth

end

section
variable {f : Fmt} {x : ℝ} {m : Nat} {e q : Int} {sticky : Bool} {k : Nat} {c : Nat → Ordering}

theorem or_flIf_false (a fl : Fl) : a ||| flIf false fl = a := BitVec.or_zero

/-- The code of k0 quanta of 2^q, where the digits of k0 are those of the format or one more. -/
def Fmt.codeAt (f : Fmt) (q : Int) (k0 : Nat) : Nat := (q - (f.emin - f.fbits)).toNat * 2 ^ f.fbits + k0

/-- A code below that of the infinity. -/
theorem Fmt.codeAt_lt (hq : f.emin - f.fbits ≤ q) (hqb : q + f.fbits ≤ f.bias) {k0 : Nat}
    (hk : k0 < 2 ^ (f.fbits + 1) ∨ k0 ≤ 2 ^ (f.fbits + 1) ∧ q + f.fbits < f.bias) :
    f.codeAt q k0 < (2 * f.bias + 1) * 2 ^ f.fbits := by
  obtain ⟨j, hj⟩ := Int.eq_ofNat_of_zero_le (sub_nonneg.2 hq)
  have hemin : f.emin = 1 - (f.bias : Int) := rfl
  rw [pow_succ] at hk
  have hpos := Nat.two_pow_pos f.fbits
  unfold Fmt.codeAt
  rw [hj, Int.toNat_natCast]
  rcases hk with hk | ⟨hk, hqb'⟩
  · have : j + 2 ≤ 2 * f.bias + 1 := by omega
    nlinarith
  · have : j + 3 ≤ 2 * f.bias + 1 := by omega
    nlinarith

theorem Fmt.codeAt_least (k0 : Nat) : f.codeAt (f.emin - f.fbits) k0 = k0 := by simp [Fmt.codeAt]

theorem Fmt.codeAt_normal (hq : f.emin - f.fbits ≤ q) {k0 : Nat} (hk : 2 ^ f.fbits ≤ k0) :
    (q - (f.emin - f.fbits) + 1).toNat * 2 ^ f.fbits + (k0 - 2 ^ f.fbits) = f.codeAt q k0 := by
  obtain ⟨j, hj⟩ := Int.eq_ofNat_of_zero_le (sub_nonneg.2 hq)
  unfold Fmt.codeAt
  rw [hj, show ((j : Int) + 1).toNat = j + 1 by omega, Int.toNat_natCast, add_one_mul]
  omega

/-- The code after those of 2^q quanta is the first of twice the quantum. -/
theorem Fmt.codeAt_carry (hq : f.emin - f.fbits ≤ q) :
    f.codeAt (q + 1) (2 ^ f.fbits) = f.codeAt q (2 ^ (f.fbits + 1)) := by
  obtain ⟨j, hj⟩ := Int.eq_ofNat_of_zero_le (sub_nonneg.2 hq)
  unfold Fmt.codeAt
  rw [show q + 1 - (f.emin - f.fbits) = (j + 1 : Nat) by omega, hj, Int.toNat_natCast, Int.toNat_natCast, pow_succ,
    add_one_mul]
  omega

theorem Fmt.codeAt_infinity (hq : f.emin - f.fbits ≤ q) (hqb : q + f.fbits = f.bias) :
    f.codeAt q (2 ^ (f.fbits + 1)) = (2 * f.bias + 1) * 2 ^ f.fbits := by
  have hemin : f.emin = 1 - (f.bias : Int) := rfl
  obtain ⟨j, hj⟩ : ∃ j, 2 * f.bias = j + 1 := ⟨2 * f.bias - 1, by omega⟩
  unfold Fmt.codeAt
  rw [show (q - (f.emin - f.fbits)).toNat = j by omega, hj, pow_succ]
  ring

/-- What `Fmt.round` answers once a magnitude is cut into k0 quanta of 2^q: `lost` where a part was cut off, `tiny` where the
magnitude rounds below the normal ones. -/
def Fmt.encoded (f : Fmt) (r : RMode) (flush neg : Bool) (q : Int) (k0 : Nat) (lost tiny : Bool) : Nat × Fl :=
  let k := if k0 = 2 ^ (f.fbits + 1) then 2 ^ f.fbits else k0
  let qq := if k0 = 2 ^ (f.fbits + 1) then q + 1 else q
  if 2 ^ f.fbits ≤ k ∧ (f.bias : Int) < qq + f.fbits then f.overflow r neg
  else if flush = true ∧ k < 2 ^ f.fbits ∧ k ≠ 0 then (f.zeroBits neg, flUF ||| flNX)
  else (f.zeroBits neg + if k < 2 ^ f.fbits then k else
    (qq - (f.emin - f.fbits) + 1).toNat * 2 ^ f.fbits + (k - 2 ^ f.fbits), flIf lost flNX ||| flIf (tiny && lost) flUF)

theorem Fmt.round_eq_encoded {r : RMode} {flush neg lost tiny : Bool} {k0 : Nat} (hm : 0 < m)
    (hq : q = if (m.log2 : Int) + e - f.fbits < f.emin - f.fbits then f.emin - f.fbits else (m.log2 : Int) + e - f.fbits)
    (hcut : cutAt r neg m e q sticky = (k0, lost))
    (htiny : decide ((if (cutAt r neg m e (m.log2 + e - f.fbits) sticky).1 = 2 ^ (f.fbits + 1) then (m.log2 : Int) + e + 1
      else m.log2 + e) < f.emin) = tiny) :
    f.round r flush neg m e sticky = f.encoded r flush neg q k0 lost tiny := by
  have hpow : 2 ^ (f.fbits + 1) / 2 = 2 ^ f.fbits := by rw [pow_succ, Nat.mul_div_cancel _ two_pos]
  unfold Fmt.round Fmt.encoded
  rw [if_neg (by simp [hm.ne'])]
  dsimp only
  rw [← hq, hcut, hpow]
  dsimp only
  rw [htiny]
  simp only [Bool.and_eq_true, decide_eq_true_iff, bne_iff_ne, and_assoc]
  refine if_congr Iff.rfl ?_ rfl
  cases r <;> cases neg <;> rfl

section
variable {r : RMode} {flush neg lost tiny : Bool} {k0 : Nat}

/-- The code of quanta that the format has the digits for. -/
theorem Fmt.encoded_of_lt (hq : f.emin - f.fbits ≤ q) (hqb : q + f.fbits ≤ f.bias) (hk : k0 < 2 ^ (f.fbits + 1))
    (hdigits : q = f.emin - f.fbits ∨ 2 ^ f.fbits ≤ k0) :
    f.encoded r flush neg q k0 lost tiny =
      if flush = true ∧ f.codeAt q k0 < 2 ^ f.fbits ∧ f.codeAt q k0 ≠ 0 then (f.zeroBits neg, flUF ||| flNX)
      else (f.zeroBits neg + f.codeAt q k0, flIf lost flNX ||| flIf (tiny && lost) flUF) := by
  unfold Fmt.encoded
  simp only [if_neg hk.ne]
  rw [if_neg (fun h => absurd h.2 (by omega))]
  by_cases hsub : k0 < 2 ^ f.fbits
  · obtain rfl : q = f.emin - f.fbits := hdigits.resolve_right (by omega)
    rw [Fmt.codeAt_least, if_pos hsub]
  · have hlarge : ¬ f.codeAt q k0 < 2 ^ f.fbits := by unfold Fmt.codeAt; omega
    rw [if_neg (fun h => hsub h.2.1), if_neg hsub, if_neg (fun h => hlarge h.2.1), f.codeAt_normal hq (not_lt.1 hsub)]

/-- The code after the last of a quantum, where the next quantum is one of the format. -/
theorem Fmt.encoded_carry (hq : f.emin - f.fbits ≤ q) (hqb : q + f.fbits < f.bias) :
    f.encoded r flush neg q (2 ^ (f.fbits + 1)) lost tiny =
      (f.zeroBits neg + f.codeAt q (2 ^ (f.fbits + 1)), flIf lost flNX ||| flIf (tiny && lost) flUF) := by
  unfold Fmt.encoded
  simp only [if_true, lt_irrefl, if_false, false_and, and_false]
  rw [if_neg (fun h => absurd h.2 (by omega)), f.codeAt_normal (by omega) le_rfl, f.codeAt_carry hq]

theorem Fmt.encoded_of_bias_lt (hk : 2 ^ f.fbits ≤ k0) (hqb : (f.bias : Int) < q + f.fbits) :
    f.encoded r flush neg q k0 lost tiny = f.overflow r neg := by
  unfold Fmt.encoded
  refine if_pos ?_
  split <;> constructor <;> omega

theorem Fmt.encoded_infinity (hqb : q + f.fbits = f.bias) :
    f.encoded r flush neg q (2 ^ (f.fbits + 1)) lost tiny = f.overflow r neg := by
  unfold Fmt.encoded
  simp only [if_true]
  exact if_pos ⟨le_rfl, by omega⟩

end

/-- `Fmt.nearest` by the code of the neighbour that the mode selects. -/
theorem Fmt.nearest_eq (hE : 1 ≤ f.ebits) (r : RMode) (flush neg : Bool) (q : Int) (k : Nat) (c : Nat → Ordering) {code : Nat}
    (hcode : f.codeAt q (k + b2n (roundsAway r neg k 4 c)) = code) :
    f.nearest r flush neg q k c =
      if flush = true ∧ code < 2 ^ f.fbits ∧ code ≠ 0 then (f.zeroBits neg, flUF ||| flNX)
      else (f.zeroBits neg + code, flIf (c (4 * k) == .gt) flNX ||| flIf (code == (2 * f.bias + 1) * 2 ^ f.fbits) flOF |||
        flIf ((decide (k < 2 ^ f.fbits) && !(k + 1 == 2 ^ f.fbits && roundsAway r neg (2 * k + 1) 2 c)) &&
          c (4 * k) == .gt) flUF) := by
  have hinf : (f.zeroBits neg + code == f.infBits neg) = (code == (2 * f.bias + 1) * 2 ^ f.fbits) := by
    rw [Fmt.infBits_eq hE, Bool.eq_iff_iff, beq_iff_eq, beq_iff_eq, Nat.add_left_cancel_iff]
  unfold Fmt.nearest
  dsimp only
  rw [add_assoc (_ * _) k, ← Fmt.codeAt, hcode, hinf]
  refine if_congr ?_ rfl rfl
  simp only [Bool.and_eq_true, decide_eq_true_iff, bne_iff_ne]
  tauto

/-- Rounding a magnitude to a format gives the one of its two neighbours that the mode selects, with its flags. -/
theorem Fmt.round_eq_nearest (r : RMode) (flush neg : Bool) (hF : 1 ≤ f.fbits) (hE : 1 ≤ f.ebits) (hfit : f.Fits q k c)
    (hc : ∀ n, c n = compare x (n * 2 ^ (q - 2))) (h : CutFrom x m e sticky) (hm : 0 < m)
    (hsticky : sticky = true → e + f.fbits < m.log2 + e) :
    f.round r flush neg m e sticky = f.nearest r flush neg q k c := by
  have hquantum := hfit.quantum hc h hm
  have hcut := hfit.cutAt r neg hc h fun hs => by
    have := hsticky hs
    split at hquantum <;> omega
  have hup := gt_of_roundsAway (r := r) (neg := neg) (k := k) hc
  rw [Fmt.round_eq_encoded hm hquantum hcut (hfit.tiny r neg hF hc h hm hsticky)]
  obtain ⟨hq, hk, hdigits, hqb, -, -⟩ := hfit
  have hsucc : 2 ^ (f.fbits + 1) = 2 * 2 ^ f.fbits := pow_succ' 2 f.fbits
  by_cases hfull : k + b2n (roundsAway r neg k 4 c) = 2 ^ (f.fbits + 1)
  case neg =>
    have hbit : b2n (roundsAway r neg k 4 c) ≤ 1 := by cases roundsAway r neg k 4 c <;> simp [b2n]
    have hk0 : k + b2n (roundsAway r neg k 4 c) < 2 ^ (f.fbits + 1) := by omega
    have hcode := f.codeAt_lt hq hqb (.inl hk0)
    rw [Fmt.encoded_of_lt hq hqb hk0 (by omega), Fmt.nearest_eq hE r flush neg q k c rfl, beq_eq_false_iff_ne.2 hcode.ne,
      or_flIf_false _ flOF]
  have haway : roundsAway r neg k 4 c = true := by
    cases hr : roundsAway r neg k 4 c with
    | true => rfl
    | false => exact absurd hfull (by rw [hr]; exact hk.ne)
  have hbig : ¬ k < 2 ^ f.fbits := by
    rw [haway, b2n, if_pos rfl] at hfull
    have := Nat.two_pow_pos f.fbits
    omega
  have hlarge : ¬ f.codeAt q (2 ^ (f.fbits + 1)) < 2 ^ f.fbits := by
    unfold Fmt.codeAt
    omega
  rw [Fmt.nearest_eq hE r flush neg q k c (congrArg (f.codeAt q) hfull), if_neg (fun h => hlarge h.2.1), hfull, hup haway,
    decide_eq_false hbig, Bool.false_and, Bool.false_and]
  by_cases hmax : q + f.fbits = f.bias
  · rw [Fmt.encoded_infinity hmax, Fmt.codeAt_infinity hq hmax, beq_self_eq_true (_ * _), ← Fmt.infBits_eq hE]
    unfold Fmt.overflow
    rw [if_neg]
    · exact Prod.ext rfl rfl
    · rintro (rfl | ⟨rfl, rfl⟩ | ⟨rfl, rfl⟩) <;> exact Bool.noConfusion haway
  · have hcode := f.codeAt_lt (k0 := 2 ^ (f.fbits + 1)) hq hqb (.inr ⟨le_rfl, by omega⟩)
    rw [Fmt.encoded_carry hq (by omega), beq_eq_false_iff_ne.2 hcode.ne, or_flIf_false _ flOF, Bool.false_and]

end

section
variable {f : Fmt} {m : Nat} {e : Int}

/-- A magnitude that is cut at the quantum of its digits keeps as many digits as the format has. -/
theorem le_cutAt (r : RMode) (neg sticky : Bool) (n : Nat) (hm : 0 < m) :
    2 ^ n ≤ (cutAt r neg m e (m.log2 + e - n) sticky).1 := by
  have hlog := Nat.log2_self_le hm.ne'
  unfold cutAt
  split
  case isTrue hq =>
    refine le_trans ?_ (Nat.le_add_right _ _)
    rw [show n = m.log2 + (e - (m.log2 + e - n)).toNat by omega, pow_add]
    rw [show ((m.log2 + (e - (m.log2 + e - n)).toNat : Nat) : Int) = n by omega]
    gcongr
  case isFalse hq =>
    refine le_trans ?_ (Nat.le_add_right _ _)
    rw [Nat.le_div_iff_mul_le (Nat.two_pow_pos _), ← pow_add, show n + ((m.log2 : Int) + e - n - e).toNat = m.log2 by omega]
    exact hlog

/-- Past the largest finite magnitude, and the half quantum after it, the mode decides. -/
theorem Fmt.round_eq_overflow (r : RMode) (flush neg sticky : Bool) (hm : 0 < m) (htop : (f.bias : Int) + 1 ≤ m.log2 + e) :
    f.round r flush neg m e sticky = f.overflow r neg := by
  have hemin : f.emin = 1 - (f.bias : Int) := rfl
  have hcut := le_cutAt (e := e) r neg sticky f.fbits hm
  rw [Fmt.round_eq_encoded hm (q := m.log2 + e - f.fbits) (by rw [if_neg]; omega) rfl rfl]
  exact Fmt.encoded_of_bias_lt hcut (by omega)

end

/-! ## Magnitudes as integers at a common exponent -/

section
variable {m n : Nat} {e p b : Int}

theorem scaled_eq (m : Nat) (hb : b ≤ e) : ((m * 2 ^ (e - b).toNat : Nat) : ℝ) * 2 ^ b = m * 2 ^ e := by
  obtain ⟨j, hj⟩ := Int.eq_ofNat_of_zero_le (sub_nonneg.2 hb)
  rw [hj, Int.toNat_natCast, show e = j + b by omega, zpow_add₀ two_ne_zero]
  push_cast
  rw [mul_assoc, zpow_natCast]

theorem compare_mul_right {u v t : ℝ} (ht : 0 < t) : compare (u * t) (v * t) = compare u v :=
  compare_congr (mul_lt_mul_iff_left₀ ht) (mul_lt_mul_iff_left₀ ht)

theorem compare_cast (u v : Nat) : compare (u : ℝ) v = compare u v := compare_congr Nat.cast_lt Nat.cast_lt

theorem compare_scaled (m n : Nat) (he : b ≤ e) (hp : b ≤ p) :
    compare (m * 2 ^ (e - b).toNat) (n * 2 ^ (p - b).toNat) = compare ((m : ℝ) * 2 ^ e) (n * 2 ^ p) := by
  rw [← scaled_eq m he, ← scaled_eq n hp, compare_mul_right (by positivity), compare_cast]

theorem le_log2_iff (hm : 0 < m) (he : b ≤ e) (hp : b ≤ p) :
    2 ^ (p - b).toNat ≤ m * 2 ^ (e - b).toNat ↔ p ≤ m.log2 + e := by
  rw [← one_mul (2 ^ (p - b).toNat), ← not_lt, ← compare_lt_iff_lt, compare_scaled m 1 he hp, compare_lt_iff_lt, not_lt,
    Nat.cast_one, one_mul]
  obtain ⟨hle, hlt⟩ := (cutFrom_exact m e).binade hm
  exact ⟨fun h => Int.le_of_lt_add_one (two_zpow_lt (h.trans_lt hlt)),
    fun h => (zpow_le_zpow_right₀ one_le_two h).trans hle⟩

end

/-! ## Quotients and roots (R163) -/

section
variable {n m1 m2 m : Nat} {e1 e2 e : Int}

/-- The quotient that division rounds: its digits, and whether a remainder is left. -/
theorem divMag_cutFrom (hm2 : 0 < m2) : CutFrom (m1 * 2 ^ e1 / (m2 * 2 ^ e2)) (divMag n m1 e1 m2 e2).1
    (divMag n m1 e1 m2 e2).2.1 (divMag n m1 e1 m2 e2).2.2 := by
  unfold divMag
  generalize n + m2.log2 + 2 = sh
  dsimp only
  have hpos : (0 : ℝ) < m2 := Nat.cast_pos.2 hm2
  have hx : (m1 : ℝ) * 2 ^ e1 / (m2 * 2 ^ e2) = (m1 * 2 ^ sh : Nat) / m2 * 2 ^ (e1 - e2 - sh) := by
    rw [zpow_sub₀ two_ne_zero, zpow_sub₀ two_ne_zero, zpow_natCast]
    push_cast
    field_simp
  rw [hx]
  generalize m1 * 2 ^ sh = u
  have hdiv : (u : ℝ) = m2 * (u / m2 : Nat) + (u % m2 : Nat) := by exact_mod_cast (Nat.div_add_mod u m2).symm
  have hmod : ((u % m2 : Nat) : ℝ) < m2 := Nat.cast_lt.2 (Nat.mod_lt u hm2)
  refine ⟨?_, ?_⟩
  · refine mul_lt_mul_of_pos_right ?_ (by positivity)
    rw [div_lt_iff₀ hpos]
    push_cast
    linarith
  · by_cases hrem : u % m2 = 0
    · rw [hrem, bne_self_eq_false, if_neg Bool.false_ne_true]
      congr 1
      rw [div_eq_iff hpos.ne', mul_comm]
      simpa [hrem] using hdiv
    · rw [if_pos (by simpa using hrem)]
      refine mul_lt_mul_of_pos_right ?_ (by positivity)
      rw [lt_div_iff₀ hpos]
      have : (0 : ℝ) < (u % m2 : Nat) := Nat.cast_pos.2 (Nat.pos_of_ne_zero hrem)
      linarith

/-- A quotient has more digits than asked for. -/
theorem lt_log2_divMag (hm1 : 0 < m1) (hm2 : 0 < m2) :
    0 < (divMag n m1 e1 m2 e2).1 ∧ n < (divMag n m1 e1 m2 e2).1.log2 := by
  have hlt : m2 < 2 ^ (m2.log2 + 1) := Nat.lt_log2_self
  have hle : 2 ^ (n + 1) ≤ (divMag n m1 e1 m2 e2).1 := by
    unfold divMag
    rw [Nat.le_div_iff_mul_le hm2, show n + m2.log2 + 2 = n + 1 + (m2.log2 + 1) by omega, pow_add _ (n + 1)]
    exact (Nat.mul_le_mul_left _ hlt.le).trans (Nat.le_mul_of_pos_left _ hm1)
  have hpos : 0 < (divMag n m1 e1 m2 e2).1 := (Nat.two_pow_pos _).trans_le hle
  exact ⟨hpos, (Nat.le_log2 hpos.ne').2 hle⟩

theorem isqrtFrom_spec (n k : Nat) : ∀ a, a * a ≤ n → n < (a + 2 ^ k) * (a + 2 ^ k) →
    isqrtFrom n k a * isqrtFrom n k a ≤ n ∧ n < (isqrtFrom n k a + 1) * (isqrtFrom n k a + 1) := by
  induction k with
  | zero => exact fun a hlo hhi => ⟨hlo, hhi⟩
  | succ k ih =>
    intro a hlo hhi
    have htwice : a + 2 ^ (k + 1) = a + 2 ^ k + 2 ^ k := by rw [pow_succ]; omega
    unfold isqrtFrom
    dsimp only
    split
    case isTrue hb => exact ih _ hb (by rwa [← htwice])
    case isFalse hb => exact ih _ hlo (not_le.1 hb)

theorem isqrt_spec (n : Nat) : isqrt n * isqrt n ≤ n ∧ n < (isqrt n + 1) * (isqrt n + 1) := by
  refine isqrtFrom_spec n _ 0 (Nat.zero_le n) ?_
  rw [zero_add, ← pow_add]
  exact Nat.lt_log2_self.trans_le (Nat.pow_le_pow_right two_pos (by omega))

/-- The root that the square root rounds: its digits, and whether it has more. -/
theorem sqrtMag_cutFrom : CutFrom √(m * 2 ^ e) (sqrtMag n m e).1 (sqrtMag n m e).2.1 (sqrtMag n m e).2.2 := by
  unfold sqrtMag
  generalize hsh : 2 * n + (if (e - 2 * (n : Int)) % 2 = 0 then 0 else 1) = sh
  dsimp only
  obtain ⟨j, hj⟩ : ∃ j, e = sh + 2 * j := ⟨(e - sh) / 2, by split at hsh <;> omega⟩
  have hx : √(m * 2 ^ e) = √(m * 2 ^ sh : Nat) * 2 ^ j := by
    rw [hj, zpow_add₀ two_ne_zero, two_mul j, zpow_add₀ two_ne_zero, zpow_natCast, ← mul_assoc,
      Real.sqrt_mul (by positivity), Real.sqrt_mul_self (by positivity)]
    push_cast
    rfl
  rw [hx, show (e - sh) / 2 = j by omega]
  generalize m * 2 ^ sh = u
  obtain ⟨hlo, hhi⟩ := isqrt_spec u
  have hpos : (0 : ℝ) < 2 ^ j := by positivity
  refine ⟨mul_lt_mul_of_pos_right ?_ hpos, ?_⟩
  · rw [Real.sqrt_lt' (by positivity), sq]
    exact_mod_cast hhi
  · by_cases hsq : isqrt u * isqrt u = u
    · rw [hsq, bne_self_eq_false, if_neg Bool.false_ne_true]
      congr 1
      rw [Real.sqrt_eq_iff_mul_self_eq (by positivity) (by positivity)]
      exact_mod_cast hsq.symm
    · rw [if_pos (by simpa using hsq)]
      refine mul_lt_mul_of_pos_right ?_ hpos
      rw [Real.lt_sqrt (by positivity), sq]
      exact_mod_cast lt_of_le_of_ne hlo hsq

theorem le_log2_sqrtMag (hm : 0 < m) : 0 < (sqrtMag n m e).1 ∧ n ≤ (sqrtMag n m e).1.log2 := by
  have hle : 2 ^ n ≤ (sqrtMag n m e).1 := by
    unfold sqrtMag
    generalize (if (e - 2 * (n : Int)) % 2 = 0 then 0 else 1) = t
    obtain ⟨-, hhi⟩ := isqrt_spec (m * 2 ^ (2 * n + t))
    have hu : 2 ^ n * 2 ^ n ≤ m * 2 ^ (2 * n + t) := by
      rw [← pow_add, ← two_mul]
      exact (Nat.pow_le_pow_right two_pos (by omega)).trans (Nat.le_mul_of_pos_left _ hm)
    exact Nat.lt_succ_iff.1 (Nat.mul_self_lt_mul_self_iff.1 (hu.trans_lt hhi))
  have hpos := (Nat.two_pow_pos n).trans_le hle
  exact ⟨hpos, (Nat.le_log2 hpos.ne').2 hle⟩

end

/-! ## What a format writes and reads (R96 to R101, R122, R163) -/

theorem fmtOf_digits (f : FFmt) : 1 ≤ (fmtOf f).fbits ∧ 1 ≤ (fmtOf f).ebits := by
  cases f <;> decide

section
variable (f : FFmt) (r : RMode) (flush neg : Bool) {m m1 m2 k : Nat} {e e1 e2 q b : Int}

theorem write_eq_nearest {c : Nat → Ordering} (hm : 0 < m) (hb : b ≤ e) (hq : b + 2 ≤ q)
    (hc : ∀ n, c n = compare (m * 2 ^ (e - b).toNat) (n * 2 ^ (q - 2 - b).toNat)) (hfit : (fmtOf f).Fits q k c) :
    (fmtOf f).write r flush (.fin neg m e) = (fmtOf f).nearest r flush neg q k c := by
  obtain ⟨hF, hE⟩ := fmtOf_digits f
  exact Fmt.round_eq_nearest r flush neg hF hE hfit (fun n => by rw [hc, compare_scaled m n hb (by omega)])
    (cutFrom_exact m e) hm (fun h => nomatch h)

theorem write_eq_overflow (hm : 0 < m) (hb : b ≤ e) (hbias : b ≤ (fmtOf f).bias)
    (h : 2 ^ ((fmtOf f).bias + 1 - b).toNat ≤ m * 2 ^ (e - b).toNat) :
    (fmtOf f).write r flush (.fin neg m e) = (fmtOf f).overflow r neg :=
  Fmt.round_eq_overflow r flush neg false hm ((le_log2_iff hm hb (by omega)).1 h)

theorem div_fin (n1 n2 : Bool) (hm1 : 0 < m1) (hm2 : 0 < m2) :
    (fmtOf f).div r flush (.fin n1 m1 e1) (.fin n2 m2 e2) =
      (fmtOf f).round r flush (n1 != n2) (divMag ((fmtOf f).fbits + 4) m1 e1 m2 e2).1
        (divMag ((fmtOf f).fbits + 4) m1 e1 m2 e2).2.1 (divMag ((fmtOf f).fbits + 4) m1 e1 m2 e2).2.2 := by
  unfold Fmt.div
  dsimp only
  rw [if_neg hm2.ne', if_neg hm1.ne']

theorem div_eq_nearest (n1 n2 : Bool) {c : Nat → Ordering} (hm1 : 0 < m1) (hm2 : 0 < m2) (hb : b ≤ e1) (hq : b + 2 ≤ e2 + q)
    (hc : ∀ n, c n = compare (m1 * 2 ^ (e1 - b).toNat) (n * m2 * 2 ^ (e2 + q - 2 - b).toNat))
    (hfit : (fmtOf f).Fits q k c) :
    (fmtOf f).div r flush (.fin n1 m1 e1) (.fin n2 m2 e2) = (fmtOf f).nearest r flush (n1 != n2) q k c := by
  obtain ⟨hF, hE⟩ := fmtOf_digits f
  obtain ⟨hpos, hlog⟩ := lt_log2_divMag (n := (fmtOf f).fbits + 4) (e1 := e1) (e2 := e2) hm1 hm2
  rw [div_fin f r flush n1 n2 hm1 hm2]
  refine Fmt.round_eq_nearest r flush _ hF hE hfit (fun n => ?_) (divMag_cutFrom hm2) hpos (fun _ => by omega)
  have ht : (0 : ℝ) < m2 * 2 ^ e2 := by positivity
  rw [hc, compare_scaled m1 (n * m2) hb (by omega), ← compare_mul_right (u := _ / _) ht,
    div_mul_cancel₀ _ ht.ne', show e2 + q - 2 = e2 + (q - 2) by omega, zpow_add₀ two_ne_zero]
  push_cast
  congr 1
  ring

theorem div_eq_overflow (n1 n2 : Bool) (hm1 : 0 < m1) (hm2 : 0 < m2) (hb1 : b ≤ e1) (hb2 : b ≤ e2)
    (h : m2 * 2 ^ (e2 + (fmtOf f).bias + 1 - b).toNat ≤ m1 * 2 ^ (e1 - b).toNat) :
    (fmtOf f).div r flush (.fin n1 m1 e1) (.fin n2 m2 e2) = (fmtOf f).overflow r (n1 != n2) := by
  obtain ⟨hpos, -⟩ := lt_log2_divMag (n := (fmtOf f).fbits + 4) (e1 := e1) (e2 := e2) hm1 hm2
  rw [div_fin f r flush n1 n2 hm1 hm2]
  refine Fmt.round_eq_overflow r flush _ _ hpos ?_
  have hcut := divMag_cutFrom (n := (fmtOf f).fbits + 4) (m1 := m1) (e1 := e1) (e2 := e2) hm2
  have ht : (0 : ℝ) < m2 * 2 ^ e2 := by positivity
  rw [← not_lt, ← compare_lt_iff_lt, compare_scaled m1 m2 hb1 (by omega), compare_lt_iff_lt, not_lt, add_assoc,
    zpow_add₀ two_ne_zero, ← mul_assoc, mul_comm, ← le_div_iff₀ ht] at h
  exact Int.le_of_lt_add_one (two_zpow_lt (h.trans_lt (hcut.binade hpos).2))

theorem sqrt_eq_nearest {c : Nat → Ordering} (hm : 0 < m) (hb : 2 * b ≤ e) (hq : b + 2 ≤ q)
    (hc : ∀ n, c n = compare (m * 2 ^ (e - 2 * b).toNat) (n * n * 2 ^ (2 * (q - 2 - b)).toNat))
    (hfit : (fmtOf f).Fits q k c) :
    (fmtOf f).sqrt r flush (.fin false m e) = (fmtOf f).nearest r flush false q k c := by
  obtain ⟨hF, hE⟩ := fmtOf_digits f
  obtain ⟨hpos, hlog⟩ := le_log2_sqrtMag (n := (fmtOf f).fbits + 4) (e := e) hm
  have hround : (fmtOf f).sqrt r flush (.fin false m e) =
      (fmtOf f).round r flush false (sqrtMag ((fmtOf f).fbits + 4) m e).1 (sqrtMag ((fmtOf f).fbits + 4) m e).2.1
        (sqrtMag ((fmtOf f).fbits + 4) m e).2.2 := by
    unfold Fmt.sqrt
    dsimp only
    rw [if_neg hm.ne', if_neg Bool.false_ne_true]
  rw [hround]
  refine Fmt.round_eq_nearest r flush _ hF hE hfit (fun n => ?_) sqrtMag_cutFrom hpos (fun _ => by omega)
  have hsq : ((n * n : Nat) : ℝ) * 2 ^ (2 * (q - 2)) = (n * 2 ^ (q - 2)) ^ 2 := by
    rw [two_mul, zpow_add₀ two_ne_zero]
    push_cast
    ring
  rw [hc, show 2 * (q - 2 - b) = 2 * (q - 2) - 2 * b by omega, compare_scaled m (n * n) hb (by omega), hsq]
  have hy : (0 : ℝ) ≤ n * 2 ^ (q - 2) := by positivity
  rw [← Real.sqrt_sq hy, Real.sq_sqrt (sq_nonneg _)]
  exact compare_congr (Real.sqrt_lt_sqrt_iff (by positivity)).symm (Real.sqrt_lt_sqrt_iff (sq_nonneg _)).symm

end

end Sys2Proof.Machine
end

section
/-! Exact values as integers at a common exponent (R99, R103, R104). -/

namespace Sys2Proof.Machine

/-- A value (-1)^n * m * 2^e in units of 2^b. -/
def signedAt (b : Int) (n : Bool) (m : Nat) (e : Int) : Int := (if n then -1 else 1) * (m * 2 ^ (e - b).toNat : Nat)

section
variable {b e e1 e2 e3 : Int} {m m1 m2 m3 k : Nat} {n n1 n2 n3 : Bool} {r : RMode}

theorem signedAt_not (b : Int) (n : Bool) (m : Nat) (e : Int) : signedAt b (!n) m e = -signedAt b n m e := by
  cases n <;> simp [signedAt]

theorem signedAt_eq (b : Int) (n : Bool) (m : Nat) (e : Int) : signedAt b n m e = signedMag n m * 2 ^ (e - b).toNat := by
  cases n <;> simp [signedAt, signedMag]

theorem signedMag_natAbs (i : Int) : signedMag (decide (i < 0)) i.natAbs = i := by
  unfold signedMag
  split <;> rename_i h <;> simp at h <;> omega

theorem signedMag_mul_pow (m : Nat) (hb : b ≤ e) (he : e ≤ e1) :
    signedMag n m * 2 ^ (e1 - e).toNat * 2 ^ (e - b).toNat = signedAt b n m e1 := by
  rw [signedAt_eq, mul_assoc, ← pow_add]
  congr 2
  omega

/-- The exact sum, in units of a lower power of two. -/
theorem addExact_scaled (n1 n2 : Bool) (m1 m2 : Nat) (hb1 : b ≤ e1) (hb2 : b ≤ e2) :
    b ≤ (addExact n1 m1 e1 n2 m2 e2).2 ∧
      (addExact n1 m1 e1 n2 m2 e2).1 * 2 ^ ((addExact n1 m1 e1 n2 m2 e2).2 - b).toNat =
        signedAt b n1 m1 e1 + signedAt b n2 m2 e2 := by
  have hmin : ∀ e, b ≤ e → e ≤ e1 → e ≤ e2 →
      (signedMag n1 m1 * 2 ^ (e1 - e).toNat + signedMag n2 m2 * 2 ^ (e2 - e).toNat) * 2 ^ (e - b).toNat =
        signedAt b n1 m1 e1 + signedAt b n2 m2 e2 := fun e hb h1 h2 => by
    rw [add_mul, signedMag_mul_pow m1 hb h1, signedMag_mul_pow m2 hb h2]
  unfold addExact
  by_cases hle : e1 ≤ e2
  · simp only [if_pos hle]
    exact ⟨hb1, hmin e1 hb1 le_rfl hle⟩
  · simp only [if_neg hle]
    exact ⟨hb2, hmin e2 hb2 (not_le.1 hle).le le_rfl⟩

/-- The order of finite values. -/
theorem lt_fin_iff (n1 n2 : Bool) (m1 m2 : Nat) (hb1 : b ≤ e1) (hb2 : b ≤ e2) :
    (Num.fin n1 m1 e1).lt (.fin n2 m2 e2) = true ↔ signedAt b n1 m1 e1 < signedAt b n2 m2 e2 := by
  obtain ⟨-, hsum⟩ := addExact_scaled n1 (!n2) m1 m2 hb1 hb2
  have hpos : (0 : Int) < 2 ^ ((addExact n1 m1 e1 (!n2) m2 e2).2 - b).toNat := by positivity
  rw [signedAt_not] at hsum
  unfold Num.lt
  dsimp only
  rw [decide_eq_true_iff, ← sub_neg (a := signedAt b n1 m1 e1), sub_eq_add_neg, ← hsum, mul_neg_iff]
  simp [hpos, hpos.le]

/-- The exact sum of finite values. -/
theorem add_fin (r : RMode) (n1 n2 : Bool) (m1 m2 : Nat) (hb1 : b ≤ e1) (hb2 : b ≤ e2) :
    ∃ n m e, Num.add r (.fin n1 m1 e1) (.fin n2 m2 e2) = (.fin n m e, 0) ∧ b ≤ e ∧
      signedAt b n m e = signedAt b n1 m1 e1 + signedAt b n2 m2 e2 ∧
      (m = 0 → n = if m1 = 0 ∧ m2 = 0 ∧ n1 = n2 then n1 else r == .rdn) := by
  obtain ⟨hb, hsum⟩ := addExact_scaled n1 n2 m1 m2 hb1 hb2
  unfold Num.add
  dsimp only
  generalize addExact n1 m1 e1 n2 m2 e2 = s at hb hsum ⊢
  obtain ⟨i, e⟩ := s
  dsimp only at hb hsum ⊢
  by_cases hi : i = 0
  · rw [if_pos hi]
    refine ⟨_, _, _, rfl, hb, ?_, fun _ => rfl⟩
    rw [← hsum, hi, signedAt_eq]
    simp [signedMag]
  · rw [if_neg hi]
    exact ⟨_, _, _, rfl, hb, by rw [signedAt_eq, signedMag_natAbs, hsum], fun h => absurd (Int.natAbs_eq_zero.1 h) hi⟩

theorem mul_fin (n1 n2 : Bool) (m1 m2 : Nat) (e1 e2 : Int) :
    Num.mul (.fin n1 m1 e1) (.fin n2 m2 e2) = (.fin (n1 != n2) (m1 * m2) (e1 + e2), 0) := rfl

/-- The exact fused product of finite values. -/
theorem fma_fin (r : RMode) (n1 n2 n3 : Bool) (m1 m2 m3 : Nat) (hb : b ≤ e1 + e2) (hb3 : b ≤ e3) :
    ∃ n m e, Num.fma r (.fin n1 m1 e1) (.fin n2 m2 e2) (.fin n3 m3 e3) = (.fin n m e, 0) ∧ b ≤ e ∧
      signedAt b n m e = signedAt b (n1 != n2) (m1 * m2) (e1 + e2) + signedAt b n3 m3 e3 ∧
      (m = 0 → n = if (m1 = 0 ∨ m2 = 0) ∧ m3 = 0 ∧ (n1 != n2) = n3 then n3 else r == .rdn) := by
  obtain ⟨n, m, e, hadd, hbe, hsum, hsign⟩ := add_fin r (n1 != n2) n3 (m1 * m2) m3 hb hb3
  refine ⟨n, m, e, ?_, hbe, hsum, fun hm => ?_⟩
  · unfold Num.fma
    rw [mul_fin]
    dsimp only
    rw [if_neg (by simp [Num.isNan, flNV]), hadd]
    simp
  · simp only [hsign hm, Nat.mul_eq_zero]
    split <;> rename_i h
    · exact h.2.2
    · rfl

/-- Whether the first of two finite values orders below the second for minimum and maximum, where -0 is below +0 (R103). -/
def Num.below (x y : Num) : Bool := x.lt y || (x.eqv y && x.neg && !y.neg)

theorem minmax_of_not_nan {x y : Num} (w : Bool) (hx : x.isNan = false) (hy : y.isNan = false) :
    Num.minmax w x y = (if x.below y == w then y else x, 0) := by
  unfold Num.minmax
  rw [hx, hy]
  rfl

theorem below_fin_iff (n1 n2 : Bool) (m1 m2 : Nat) (hb1 : b ≤ e1) (hb2 : b ≤ e2) :
    (Num.fin n1 m1 e1).below (.fin n2 m2 e2) = true ↔ signedAt b n1 m1 e1 < signedAt b n2 m2 e2 ∨
      signedAt b n1 m1 e1 = signedAt b n2 m2 e2 ∧ n1 = true ∧ n2 = false := by
  have hlt := lt_fin_iff n1 n2 m1 m2 hb1 hb2
  have hgt := lt_fin_iff n2 n1 m2 m1 hb2 hb1
  have hbelow : (Num.fin n1 m1 e1).below (.fin n2 m2 e2) = true ↔ (Num.fin n1 m1 e1).lt (.fin n2 m2 e2) = true ∨
      (¬ (Num.fin n1 m1 e1).lt (.fin n2 m2 e2) = true ∧ ¬ (Num.fin n2 m2 e2).lt (.fin n1 m1 e1) = true) ∧
        n1 = true ∧ n2 = false := by
    simp [Num.below, Num.eqv, Num.isNan, Num.neg, and_assoc]
  rw [hbelow, hlt, hgt]
  generalize signedAt b n1 m1 e1 = u
  generalize signedAt b n2 m2 e2 = v
  constructor
  · rintro (h | ⟨h, hn⟩)
    · exact .inl h
    · exact .inr ⟨by omega, hn⟩
  · rintro (h | ⟨h, hn⟩)
    · exact .inl h
    · exact .inr ⟨by omega, hn⟩

/-- The integer that a finite value rounds to. -/
theorem toIntBounded_fin (r : RMode) (lo hi : Int) {c : Nat → Ordering} (hb : b ≤ e) (hb1 : b ≤ -1)
    (hc : ∀ j, c j = compare (m * 2 ^ (e - b).toNat) (j * 2 ^ (-1 - b).toNat)) (hlo : c (2 * k) ≠ .lt)
    (hhi : c (2 * k + 2) = .lt) :
    (Num.fin n m e).toIntBounded r lo hi =
      (let i := signedMag n (k + b2n (roundsAway r n k 2 c))
       if i < lo then (lo, flNV) else if hi < i then (hi, flNV) else (i, if c (2 * k) = .gt then flNX else 0)) := by
  have hcut := cutAt_eq (q := 0) (d := c) r n (cutFrom_exact m e) (fun h => nomatch h)
    (fun j => by rw [hc, compare_scaled m j hb hb1]; rfl) hlo hhi
  unfold Num.toIntBounded roundInt
  dsimp only
  rw [hcut]
  simp only [flIf, beq_iff_eq]

end

end Sys2Proof.Machine
end

section
/-! Floating-point arithmetic and conversions (O13). -/

namespace Sys2Proof.Machine

/-- Where FPCTL enables no trap, a floating-point instruction that writes a register writes no other and no predicate. -/
theorem fpDone_completes (s : State) (i : Instr) (fl : Fl) (d : XReg) (v : W64)
    (hen : s.slot.fpctl.extractLsb' 24 5 = 0) (h : exec i s = s.fpDone fl i.encode (·.wx d v)) :
    ∃ t, exec i s = .next t ∧ Frame s t ∧ s.slot.Computed t.slot ∧ (∀ x, x ≠ d → t.rx x = s.rx x) ∧
      t.slot.p = s.slot.p := by
  have hends := fpDone_ends s i fl (·.wx d v) (fun t => (∀ x, x ≠ d → t.rx x = s.rx x) ∧ t.slot.p = s.slot.p) h
    (fun l => by simp) (fun l => by simp) (fun l => by simp) (fun l => Slot.computed_wx _ _ _)
    ⟨fun x hx => by rw [State.rx_mapSlot, Slot.rx_next, Slot.rx_wx, if_neg hx]; rfl,
      by rw [State.slot_mapSlot]; exact Slot.wx_p _ _ _⟩
  have hnone : enabledFlags s.slot.fpctl fl = 0 := by
    rw [enabledFlags, (bits_eq_zero_iff s.slot.fpctl 28 24 5 rfl).2 hen]
    exact BitVec.and_zero
  obtain ⟨t, ht, hframe, hcomp, -, hdone⟩ := hends.1 hnone
  exact ⟨t, ht, hframe, hcomp, hdone⟩

/-- The value of the bits of a format (R96 to R98, R101). -/
theorem read_cases (g : Fmt) (flush : Bool) (n : Nat) :
    let neg := n / 2 ^ (g.width - 1) % 2 == 1
    let e := n / 2 ^ g.fbits % 2 ^ g.ebits
    let m := n % 2 ^ g.fbits
    let top := 2 ^ g.ebits - 1
    (e = top → m = 0 → g.read flush n = .inf neg) ∧
    (e = top → m ≠ 0 → g.read flush n = .nan (decide (m < 2 ^ (g.fbits - 1)))) ∧
    (e ≠ top → e = 0 → g.read flush n = .fin neg (if flush then 0 else m) (1 - (g.bias : Int) - g.fbits)) ∧
    (e ≠ 0 → e ≠ top → g.read flush n = .fin neg (m + 2 ^ g.fbits) ((e : Int) - g.bias - g.fbits)) := by
  intro neg e m top
  unfold Fmt.read
  refine ⟨fun he hm => ?_, fun he hm => ?_, fun het he => ?_, fun he het => ?_⟩
  · exact (if_pos he).trans (if_pos hm)
  · exact (if_pos he).trans (if_neg hm)
  · exact (if_neg het).trans (if_pos he)
  · refine ((if_neg het).trans (if_neg he)).trans (congrArg (Num.fin neg _) ?_)
    change g.emin - g.fbits + (e : Int) - 1 = _
    unfold Fmt.emin
    omega

/-- Minimum and maximum of two values that are no NaNs, of which the first is the lower or the higher. -/
theorem minmax_of_below {x y : Num} (hx : x.isNan = false) (hy : y.isNan = false) (hxy : x.below y = true)
    (hyx : y.below x = false) :
    Num.minmax false x y = (x, 0) ∧ Num.minmax true x y = (y, 0) ∧ Num.minmax false y x = (x, 0) ∧
      Num.minmax true y x = (y, 0) := by
  rw [minmax_of_not_nan false hx hy, minmax_of_not_nan true hx hy, minmax_of_not_nan false hy hx,
    minmax_of_not_nan true hy hx, hxy, hyx]
  exact ⟨rfl, rfl, rfl, rfl⟩

theorem minmax_fin (n1 n2 : Bool) (m1 m2 : Nat) {b e1 e2 : Int} (hb1 : b ≤ e1) (hb2 : b ≤ e2)
    (h : signedAt b n1 m1 e1 < signedAt b n2 m2 e2 ∨
      signedAt b n1 m1 e1 = signedAt b n2 m2 e2 ∧ n1 = true ∧ n2 = false) :
    Num.minmax false (.fin n1 m1 e1) (.fin n2 m2 e2) = (.fin n1 m1 e1, 0) ∧
      Num.minmax true (.fin n1 m1 e1) (.fin n2 m2 e2) = (.fin n2 m2 e2, 0) ∧
      Num.minmax false (.fin n2 m2 e2) (.fin n1 m1 e1) = (.fin n1 m1 e1, 0) ∧
      Num.minmax true (.fin n2 m2 e2) (.fin n1 m1 e1) = (.fin n2 m2 e2, 0) := by
  refine minmax_of_below rfl rfl ((below_fin_iff n1 n2 m1 m2 hb1 hb2).2 h) (Bool.eq_false_iff.2 fun hyx => ?_)
  rcases h with h | ⟨h, h1, h2⟩ <;> rcases (below_fin_iff n2 n1 m2 m1 hb2 hb1).1 hyx with hyx | ⟨hyx, h2', -⟩
  · omega
  · omega
  · omega
  · exact Bool.noConfusion (h2.symm.trans h2')

/-- An infinity against a value that is no NaN: minimum and maximum take it, or the value, by its sign. -/
theorem minmax_inf (n : Bool) {x : Num} (hx : x.isNan = false) :
    Num.minmax n (.inf n) x = (x, 0) ∧ Num.minmax n x (.inf n) = (x, 0) ∧
      Num.minmax (!n) (.inf n) x = (.inf n, 0) ∧ Num.minmax (!n) x (.inf n) = (.inf n, 0) := by
  cases x with
  | nan sg => exact nomatch hx
  | inf k => cases n <;> cases k <;> decide
  | fin k m e => cases n <;> cases k <;> exact ⟨rfl, rfl, rfl, rfl⟩

/-- Division by, and of, zeros, infinities and NaNs (R122, R163). -/
theorem div_nan (g : Fmt) (r : RMode) (flush n : Bool) (x : Num) :
    g.div r flush (.nan n) x = (g.canonNan, if n || x.isSig then flNV else 0) ∧
      (x.isNan = false → g.div r flush x (.nan n) = (g.canonNan, if n then flNV else 0)) := by
  cases x with
  | nan sg => exact ⟨rfl, fun h => nomatch h⟩
  | inf k => exact ⟨rfl, fun _ => rfl⟩
  | fin k m e => exact ⟨rfl, fun _ => rfl⟩

theorem add_nan (r : RMode) {x y : Num} (h : x.isNan = true ∨ y.isNan = true) :
    Num.add r x y = (.nan false, if x.isSig || y.isSig then flNV else 0) := by
  cases x with
  | nan sg => rfl
  | _ => cases y with
    | nan sg => rfl
    | _ => exact absurd h (by simp [Num.isNan])

theorem mul_nan {x y : Num} (h : x.isNan = true ∨ y.isNan = true) :
    Num.mul x y = (.nan false, if x.isSig || y.isSig then flNV else 0) := by
  cases x with
  | nan sg => rfl
  | _ => cases y with
    | nan sg => rfl
    | _ => exact absurd h (by simp [Num.isNan])

theorem minmax_nan (w : Bool) {x y : Num} (h : x.isNan = true ∨ y.isNan = true) :
    Num.minmax w x y = (.nan false, if x.isSig || y.isSig then flNV else 0) :=
  if_pos (by simpa using h)

theorem exists_fin {x : Num} (hx : x.isNan = false) (hi : x.isInf = false) : ∃ n m e, x = .fin n m e := by
  cases x with
  | fin n m e => exact ⟨n, m, e, rfl⟩
  | inf n => exact Bool.noConfusion hi
  | nan sg => exact Bool.noConfusion hx

theorem exists_inf {x : Num} (h : x.isInf = true) : ∃ n, x = .inf n := by
  cases x with
  | inf n => exact ⟨n, rfl⟩
  | fin n m e => exact Bool.noConfusion h
  | nan sg => exact Bool.noConfusion h

theorem exists_zero {x : Num} (h : x.isZero = true) : ∃ n e, x = .fin n 0 e := by
  cases x with
  | fin n m e => exact ⟨n, e, by rw [show m = 0 from eq_of_beq h]⟩
  | inf n => exact Bool.noConfusion h
  | nan sg => exact Bool.noConfusion h

/-- An infinity times a zero has no product (R163). -/
def Num.NoProduct (x y : Num) : Prop := x.isInf = true ∧ y.isZero = true ∨ x.isZero = true ∧ y.isInf = true

theorem mul_noProduct {x y : Num} (h : x.NoProduct y) :
    Num.mul x y = (.nan false, flNV) ∧ x.isNan = false ∧ y.isNan = false := by
  rcases h with ⟨hx, hy⟩ | ⟨hx, hy⟩
  · obtain ⟨n, rfl⟩ := exists_inf hx
    obtain ⟨k, e, rfl⟩ := exists_zero hy
    exact ⟨rfl, rfl, rfl⟩
  · obtain ⟨n, e, rfl⟩ := exists_zero hx
    obtain ⟨k, rfl⟩ := exists_inf hy
    exact ⟨rfl, rfl, rfl⟩

theorem mul_inf {x y : Num} (hxy : ¬ x.NoProduct y) (hx : x.isNan = false) (hy : y.isNan = false)
    (h : x.isInf = true ∨ y.isInf = true) : Num.mul x y = (.inf (x.neg != y.neg), 0) := by
  rcases h with h | h
  · obtain ⟨n, rfl⟩ := exists_inf h
    cases y with
    | nan sg => exact Bool.noConfusion hy
    | inf k => rfl
    | fin k m e => exact if_neg fun hz => hxy (.inl ⟨rfl, hz⟩)
  · obtain ⟨k, rfl⟩ := exists_inf h
    cases x with
    | nan sg => exact Bool.noConfusion hx
    | inf n => rfl
    | fin n m e => exact if_neg fun hz => hxy (.inr ⟨hz, rfl⟩)

theorem inf_mul_fin (n k : Bool) (m : Nat) (e : Int) :
    Num.mul (.inf n) (.fin k m e) = if m = 0 then (.nan false, flNV) else (.inf (n != k), 0) := by
  simp [Num.mul, Num.isZero, Num.neg]

theorem fin_mul_inf (n k : Bool) (m : Nat) (e : Int) :
    Num.mul (.fin k m e) (.inf n) = if m = 0 then (.nan false, flNV) else (.inf (n != k), 0) := by
  rw [show (n != k) = (k != n) by cases n <;> cases k <;> rfl]
  simp [Num.mul, Num.isZero, Num.neg]

/-- A fused product is the sum of the product and the addend, where there is a product. -/
theorem fma_of_mul (r : RMode) {x y z p : Num} {fl : Fl} (h : Num.mul x y = (p, fl))
    (hfl : fl = flNV → x.isNan = true ∨ y.isNan = true) :
    Num.fma r x y z = ((Num.add r p z).1, fl ||| (Num.add r p z).2) := by
  unfold Num.fma
  rw [h]
  refine if_neg fun hc => ?_
  rw [Bool.and_eq_true_iff, decide_eq_true_iff] at hc
  obtain ⟨hnv, hnan⟩ := hc
  rcases hfl hnv with hx | hy
  · simp [hx] at hnan
  · simp [hy] at hnan

theorem fma_noProduct (r : RMode) {x y : Num} (z : Num) (h : x.NoProduct y) :
    Num.fma r x y z = (.nan false, flNV) := by
  obtain ⟨hmul, hx, hy⟩ := mul_noProduct h
  unfold Num.fma
  rw [hmul]
  exact if_pos (by simp [hx, hy])

theorem isSig_eq_false {x : Num} (h : x.isNan = false) : x.isSig = false := by
  cases x with
  | nan sg => exact nomatch h
  | _ => rfl

/-- A product of values that are no NaNs is none, and raises nothing. -/
theorem mul_exact {x y : Num} (hxy : ¬ x.NoProduct y) (hx : x.isNan = false) (hy : y.isNan = false) :
    ∃ p, Num.mul x y = (p, 0) ∧ p.isNan = false := by
  by_cases h : x.isInf = true ∨ y.isInf = true
  · exact ⟨_, mul_inf hxy hx hy h, rfl⟩
  · obtain ⟨hix, hiy⟩ : x.isInf = false ∧ y.isInf = false := by simpa using h
    obtain ⟨n1, m1, e1, rfl⟩ := exists_fin hx hix
    obtain ⟨n2, m2, e2, rfl⟩ := exists_fin hy hiy
    exact ⟨_, rfl, rfl⟩

theorem fma_exact (r : RMode) {x y : Num} (z : Num) (hxy : ¬ x.NoProduct y) (hx : x.isNan = false) (hy : y.isNan = false) :
    Num.fma r x y z = Num.add r (Num.mul x y).1 z := by
  obtain ⟨p, hmul, -⟩ := mul_exact hxy hx hy
  rw [fma_of_mul r hmul (fun h => absurd h (by decide)), hmul]
  exact Prod.ext rfl BitVec.zero_or

theorem fma_nan (r : RMode) {x y z : Num} (hxy : ¬ x.NoProduct y)
    (h : x.isNan = true ∨ y.isNan = true ∨ z.isNan = true) :
    Num.fma r x y z = (.nan false, if x.isSig || y.isSig || z.isSig then flNV else 0) := by
  by_cases hnan : x.isNan = true ∨ y.isNan = true
  · rw [fma_of_mul r (mul_nan hnan) (fun _ => hnan), add_nan r (.inl rfl)]
    cases x.isSig || y.isSig <;> cases z.isSig <;> rfl
  · obtain ⟨hx, hy⟩ : x.isNan = false ∧ y.isNan = false := by simpa using hnan
    obtain ⟨p, hmul, hp⟩ := mul_exact hxy hx hy
    have hz : z.isNan = true := by simpa [hx, hy] using h
    rw [fma_exact r z hxy hx hy, hmul, add_nan r (.inr hz), isSig_eq_false hx, isSig_eq_false hy, isSig_eq_false hp]
    rfl

theorem not_noProduct_of_fin {x y : Num} (hx : x.isInf = false) (hy : y.isInf = false) : ¬ x.NoProduct y := by
  rintro (⟨h, -⟩ | ⟨-, h⟩)
  · exact absurd (hx.symm.trans h) Bool.false_ne_true
  · exact absurd (hy.symm.trans h) Bool.false_ne_true

/-- Settles O13. The rounding lemmas relate what the model rounds to the real number behind it; an integer at a common
exponent, a quotient and a root are each such a number. -/
theorem floatResults : Obligations.FloatResults := by
  unfold Obligations.FloatResults
  refine ⟨?_, ?_, ?_, ?_, ?_, ?_, ?_, ?_⟩
  · intro s d a b f g t r i hen hi
    rcases hi with rfl | rfl | rfl | rfl | rfl | rfl | rfl | rfl | rfl | rfl | rfl <;>
      exact fpDone_completes s _ _ d _ hen rfl
  · intro f r flush neg m e w
    refine ⟨rfl, rfl, rfl, rfl, fun hm => ⟨fun q b k hb hq hfit => ?_, fun b hb hbias h => ?_⟩⟩
    · exact write_eq_nearest f r flush neg hm hb hq (fun _ => rfl) hfit
    · exact write_eq_overflow f r flush neg hm hb hbias h
  · intro f r flush n1 n2 m1 m2 e1 e2 div nan
    refine ⟨div_nan (fmtOf f) r flush n1, by cases n1 <;> rfl, rfl, rfl, rfl,
      fun hm1 => if_neg hm1.ne', fun hm2 => (if_neg hm2.ne').trans (if_pos rfl),
      fun hm1 hm2 => ⟨fun q b k hb hq hfit => ?_, fun b hb1 hb2 h => ?_⟩⟩
    · exact div_eq_nearest f r flush n1 n2 hm1 hm2 hb hq (fun _ => rfl) hfit
    · exact div_eq_overflow f r flush n1 n2 hm1 hm2 hb1 hb2 h
  · intro f r flush neg m e sqrt
    refine ⟨rfl, rfl, rfl, rfl, fun hm => ⟨if_neg hm.ne', fun q b k hb hq hfit => ?_⟩⟩
    exact sqrt_eq_nearest f r flush hm hb hq (fun _ => rfl) hfit
  · intro f flush n g neg e m top
    obtain ⟨hinf, hnan, hsub, hnorm⟩ := read_cases g flush n
    have htop : 0 ≠ top := by cases f <;> decide
    exact ⟨hinf, hnan, fun he => hsub (he.trans_ne htop) he, hnorm⟩
  · intro r n1 n2 n3 m1 m2 m3 e1 e2 e3 b part x y
    refine ⟨add_fin r n1 n2 m1 m2, fun hb => ⟨_, _, mul_fin n1 n2 m1 m2 e1 e2, hb, rfl⟩,
      fma_fin r n1 n2 n3 m1 m2 m3, fun hb1 hb2 => ⟨fun h => ?_, fun w => ?_⟩, fun lo hi k hb hb1 hlo hhi => ?_⟩
    · exact minmax_fin n1 n2 m1 m2 hb1 hb2 h
    · rw [minmax_of_not_nan w rfl rfl]
      split
      · exact .inr rfl
      · exact .inl rfl
    · rw [toIntBounded_fin r lo hi hb hb1 (fun _ => rfl) hlo hhi]
      cases n1 <;> simp [signedMag]
  · intro r x y z n k w m e lo hi nv nan invalid
    refine ⟨fun h => ⟨add_nan r h, mul_nan h, minmax_nan w h⟩, rfl, rfl, rfl, rfl, inf_mul_fin n k m e,
      fin_mul_inf n k m e, fma_noProduct r z, fma_nan r, fun hxy hx hy h => ⟨?_, ?_⟩, fun hx hy hix hiy => ?_, minmax_inf n,
      rfl, rfl⟩
    · rw [fma_exact r _ hxy hx hy, mul_inf hxy hx hy h]
      cases x.neg != y.neg <;> cases k <;> rfl
    · rw [fma_exact r _ hxy hx hy, mul_inf hxy hx hy h]
      rfl
    · rw [fma_exact r _ (not_noProduct_of_fin hix hiy) hx hy]
      obtain ⟨n1, m1, e1, rfl⟩ := exists_fin hx hix
      obtain ⟨n2, m2, e2, rfl⟩ := exists_fin hy hiy
      rfl
  · intro s d a b f r m x y
    exact ⟨floatPuts_of s _ d _ _ rfl, floatPuts_of s _ d _ _ rfl, floatPuts_of s _ d _ _ rfl,
      floatPuts_of s _ d _ _ rfl, floatPuts_of s _ d _ _ rfl, floatPuts_of s _ d _ _ rfl, floatPuts_of s _ d _ _ rfl,
      floatPuts_of s _ d _ _ rfl, fun t => floatPuts_of s _ d _ _ rfl, floatPuts_of s _ d _ _ rfl,
      floatPuts_of s _ d _ _ rfl, floatPuts_of s _ d _ _ rfl, floatPuts_of s _ d _ _ rfl,
      fun t => floatWrites_of s _ _ d _ rfl⟩

end Sys2Proof.Machine
end

section
/-! Signs, classes and relations of floating-point values (O14). -/

namespace Sys2Proof.Machine

/-! ## Values that a format holds -/

/-- A value of a format is written as its own code, with no flag. -/
theorem write_held (f : FFmt) (r : RMode) (neg : Bool) {k E : Nat} (hk : k < 2 ^ ((fmtOf f).fbits + 1)) (hE : 1 ≤ E)
    (hmax : E ≤ 2 * (fmtOf f).bias) (hdigits : E = 1 ∨ 2 ^ (fmtOf f).fbits ≤ k) :
    (fmtOf f).write r false (.fin neg k ((fmtOf f).emin - (fmtOf f).fbits + (E : Int) - 1)) =
      ((fmtOf f).zeroBits neg + ((E - 1) * 2 ^ (fmtOf f).fbits + k), 0) := by
  generalize hg : fmtOf f = g at *
  generalize hq : g.emin - g.fbits + (E : Int) - 1 = q
  have hemin : g.emin = 1 - (g.bias : Int) := rfl
  obtain ⟨hF, hE⟩ := fmtOf_digits f
  rw [hg] at hF hE
  rcases Nat.eq_zero_or_pos k with rfl | hpos
  · have := Nat.two_pow_pos g.fbits
    obtain rfl : E = 1 := hdigits.resolve_right (by omega)
    simp [Fmt.write, Fmt.round]
  have hc : ∀ n : Nat, compare (4 * k) n = compare ((k : ℝ) * 2 ^ q) (n * 2 ^ (q - 2)) := fun n => by
    rw [← quarter_units, compare_mul_right (by positivity), compare_cast]
  have heq : compare (4 * k) (4 * k) = .eq := compare_eq_iff_eq.2 rfl
  have hhalf : compare (4 * k) (4 * k + 4 / 2) = .lt := compare_lt_iff_lt.2 (by omega)
  have hqmin : g.emin - g.fbits ≤ q := by omega
  have hqmax : q + g.fbits ≤ g.bias := by omega
  have hfit : g.Fits q k (compare (4 * k)) :=
    ⟨hqmin, hk, by omega, hqmax, by rw [heq]; decide, compare_lt_iff_lt.2 (by omega)⟩
  have hround : g.write r false (.fin neg k q) = g.nearest r false neg q k (compare (4 * k)) :=
    Fmt.round_eq_nearest r false neg hF hE hfit hc (cutFrom_exact k q) hpos (fun h => nomatch h)
  have hdown : roundsAway r neg k 4 (compare (4 * k)) = false := by
    cases r <;> simp [roundsAway, hhalf]
  have hcode := g.codeAt_lt hqmin hqmax (.inl hk)
  have hq : (q - (g.emin - g.fbits)).toNat = E - 1 := by omega
  rw [Fmt.codeAt, hq] at hcode
  rw [hround]
  unfold Fmt.nearest
  rw [hdown, heq, hq, Fmt.infBits_eq hE]
  simp [flIf, b2n]
  omega

/-! ## Codes and their parts (R96) -/

/-- The code below the sign bit, from the exponent field and the fraction. -/
theorem mod_sign_eq (g : Fmt) (n : Nat) :
    n % 2 ^ (g.width - 1) = n / 2 ^ g.fbits % 2 ^ g.ebits * 2 ^ g.fbits + n % 2 ^ g.fbits := by
  rw [show g.width - 1 = g.fbits + g.ebits by unfold Fmt.width; omega, pow_add, Nat.mod_mul, add_comm, mul_comm]

theorem two_pow_width (g : Fmt) : 2 ^ g.width = 2 * 2 ^ (g.width - 1) := by
  rw [← pow_succ', show g.width - 1 + 1 = g.width by unfold Fmt.width; omega]

/-- A code with its sign bit inverted. -/
theorem flip_sign {x p : Nat} (hx : x < 2 * p) : b2n (!(x / p % 2 == 1)) * p + x % p = (x + p) % (2 * p) := by
  have hp : 0 < p := by omega
  by_cases hs : x < p
  · rw [Nat.div_eq_of_lt hs, Nat.mod_eq_of_lt hs, Nat.mod_eq_of_lt (show x + p < 2 * p by omega)]
    simp [b2n, add_comm]
  · obtain ⟨y, rfl⟩ := Nat.exists_eq_add_of_le (not_lt.1 hs)
    have hy : y < p := by omega
    rw [Nat.add_div_left y hp, Nat.div_eq_of_lt hy, Nat.add_mod_left, Nat.mod_eq_of_lt hy,
      show p + y + p = 2 * p + y by omega, Nat.add_mod_left, Nat.mod_eq_of_lt (show y < 2 * p by omega)]
    simp [b2n]

/-- A code as the operand flush leaves it: a subnormal is a zero of its sign (R101). -/
def Fmt.flushed (g : Fmt) (flush : Bool) (n : Nat) : Nat :=
  if flush = true ∧ n / 2 ^ g.fbits % 2 ^ g.ebits = 0 then n - n % 2 ^ g.fbits else n

theorem flushed_le (g : Fmt) (flush : Bool) (n : Nat) : g.flushed flush n ≤ n := by
  unfold Fmt.flushed
  split
  · exact Nat.sub_le _ _
  · exact le_rfl

/-- A flush clears the fraction of a code whose exponent field is 0, and nothing else. -/
theorem flushed_div_mod (g : Fmt) (flush : Bool) (n : Nat) :
    g.flushed flush n / 2 ^ (g.width - 1) = n / 2 ^ (g.width - 1) ∧
      g.flushed flush n % 2 ^ (g.width - 1) =
        if flush = true ∧ n / 2 ^ g.fbits % 2 ^ g.ebits = 0 then 0 else n % 2 ^ (g.width - 1) := by
  unfold Fmt.flushed
  split
  case isTrue h =>
    have hmod := mod_sign_eq g n
    rw [h.2, Nat.zero_mul, Nat.zero_add] at hmod
    have hsub : n - n % 2 ^ g.fbits = 2 ^ (g.width - 1) * (n / 2 ^ (g.width - 1)) := by
      rw [← hmod]
      exact Nat.sub_eq_of_eq_add (Nat.div_add_mod n _).symm
    rw [hsub]
    exact ⟨Nat.mul_div_cancel_left _ (Nat.two_pow_pos _), Nat.mul_mod_right _ _⟩
  case isFalse h => exact ⟨rfl, rfl⟩

/-! ## Values with another sign (R164) -/

/-- A value with its sign replaced; a NaN has none. -/
def Num.withSign (s : Bool) : Num → Num
  | .fin _ m e => .fin s m e
  | .inf _ => .inf s
  | .nan sg => .nan sg

theorem abs_eq_withSign (x : Num) : x.abs = x.withSign false := by
  cases x with
  | fin n m e => cases n <;> rfl
  | inf n => cases n <;> rfl
  | nan sg => rfl

theorem flip_eq_withSign (x : Num) : x.flip = x.withSign (!x.neg) := by
  cases x <;> rfl

/-- The value of a code that is no NaN, with a sign, is written as the code with that sign. -/
theorem write_withSign_read (f : FFmt) (flush s : Bool) (n : Nat)
    (hn : n / 2 ^ (fmtOf f).fbits % 2 ^ (fmtOf f).ebits ≠ 2 ^ (fmtOf f).ebits - 1 ∨ n % 2 ^ (fmtOf f).fbits = 0) :
    ((fmtOf f).read flush n).neg = (n / 2 ^ ((fmtOf f).width - 1) % 2 == 1) ∧
      (fmtOf f).write .rne false (((fmtOf f).read flush n).withSign s) =
        ((fmtOf f).zeroBits s + (fmtOf f).flushed flush n % 2 ^ ((fmtOf f).width - 1), 0) := by
  obtain ⟨hinf, -, hsub, hnorm⟩ := read_cases (fmtOf f) flush n
  have hmod := mod_sign_eq (fmtOf f) n
  have hbias := Fmt.bias_spec (fmtOf_digits f).2
  have hpos : 1 ≤ (fmtOf f).bias := by cases f <;> decide
  have hm : n % 2 ^ (fmtOf f).fbits < 2 ^ (fmtOf f).fbits := Nat.mod_lt _ (Nat.two_pow_pos _)
  have he : n / 2 ^ (fmtOf f).fbits % 2 ^ (fmtOf f).ebits < 2 ^ (fmtOf f).ebits := Nat.mod_lt _ (Nat.two_pow_pos _)
  have hemin : (fmtOf f).emin = 1 - ((fmtOf f).bias : Int) := rfl
  have hdouble : 2 ^ ((fmtOf f).fbits + 1) = 2 ^ (fmtOf f).fbits + 2 ^ (fmtOf f).fbits := by rw [pow_succ, mul_two]
  rw [(flushed_div_mod (fmtOf f) flush n).2]
  generalize n % 2 ^ (fmtOf f).fbits = m at *
  generalize n / 2 ^ (fmtOf f).fbits % 2 ^ (fmtOf f).ebits = e at *
  by_cases htop : e = 2 ^ (fmtOf f).ebits - 1
  · obtain rfl : m = 0 := hn.resolve_left (not_not.2 htop)
    rw [hinf htop rfl, if_neg (by omega), hmod, htop]
    exact ⟨rfl, rfl⟩
  by_cases hzero : e = 0
  · have hheld := write_held f .rne s (k := if flush then 0 else m) (E := 1) (by split <;> omega) le_rfl (by omega) (.inl rfl)
    rw [hsub htop hzero, hmod, hzero]
    refine ⟨rfl, ?_⟩
    rw [show (fmtOf f).emin - (fmtOf f).fbits + ((1 : Nat) : Int) - 1 = 1 - ((fmtOf f).bias : Int) - (fmtOf f).fbits by omega]
      at hheld
    refine hheld.trans ?_
    cases flush <;> simp
  · have hheld := write_held f .rne s (k := m + 2 ^ (fmtOf f).fbits) (E := e) (by omega) (by omega) (by omega)
      (.inr (Nat.le_add_left _ _))
    rw [hnorm hzero htop, hmod, if_neg (fun h => hzero h.2)]
    refine ⟨rfl, ?_⟩
    rw [show (fmtOf f).emin - (fmtOf f).fbits + (e : Int) - 1 = (e : Int) - (fmtOf f).bias - (fmtOf f).fbits by omega]
      at hheld
    refine hheld.trans ?_
    obtain ⟨j, rfl⟩ := Nat.exists_eq_succ_of_ne_zero hzero
    rw [Nat.succ_sub_one, Nat.succ_mul, add_assoc, add_comm m]

/-! ## Relations (R165) -/

/-- No value is below one that is below it. -/
theorem lt_asymm_num (x y : Num) (h : x.lt y = true) : y.lt x = false := by
  cases x with
  | nan sg => cases y <;> simp_all [Num.lt]
  | inf n => cases y <;> simp_all [Num.lt]
  | fin n1 m1 e1 =>
    cases y with
    | nan sg => exact Bool.noConfusion h
    | inf k => simp_all [Num.lt]
    | fin n2 m2 e2 =>
      have hb1 : min e1 e2 ≤ e1 := min_le_left _ _
      have hb2 : min e1 e2 ≤ e2 := min_le_right _ _
      rw [Bool.eq_false_iff, Ne, lt_fin_iff n2 n1 m2 m1 hb2 hb1, not_lt]
      exact ((lt_fin_iff n1 n2 m1 m2 hb1 hb2).1 h).le

theorem frel_ne (x y : Num) : (frel .ne x y).1 = (x.isNan || y.isNan || x.lt y || y.lt x) := by
  change (x.isNan || y.isNan || !(!(x.isNan || y.isNan) && !(x.lt y) && !(y.lt x))) = _
  cases x.isNan || y.isNan <;> simp

/-- Of two values that are no NaNs, one is below the other or equal to it where the other is not below it. -/
theorem frel_le (x y : Num) : (frel .le x y).1 = (!(x.isNan || y.isNan) && !(y.lt x)) := by
  change (!(x.isNan || y.isNan) && (x.lt y || (!(x.isNan || y.isNan) && !(x.lt y) && !(y.lt x)))) = _
  cases hxy : x.lt y with
  | true => rw [lt_asymm_num x y hxy]; simp
  | false => cases x.isNan || y.isNan <;> simp

/-! ## Classes (R168) -/

/-- The class of a code, by its sign, its exponent field and its fraction. -/
theorem fclassBit_eq (f : FFmt) (n : Nat) :
    fclassBit f n =
      let neg := n / 2 ^ ((fmtOf f).width - 1) % 2 == 1
      let e := n / 2 ^ (fmtOf f).fbits % 2 ^ (fmtOf f).ebits
      let m := n % 2 ^ (fmtOf f).fbits
      if e = 2 ^ (fmtOf f).ebits - 1 then (if m = 0 then (if neg then 0 else 7)
        else if m < 2 ^ ((fmtOf f).fbits - 1) then 8 else 9)
      else if e = 0 then (if m = 0 then (if neg then 3 else 4) else if neg then 2 else 5)
      else if neg then 1 else 6 := by
  obtain ⟨hinf, hnan, hsub, hnorm⟩ := read_cases (fmtOf f) false n
  have hmod := mod_sign_eq (fmtOf f) n
  have hm : n % 2 ^ (fmtOf f).fbits < 2 ^ (fmtOf f).fbits := Nat.mod_lt _ (Nat.two_pow_pos _)
  unfold fclassBit
  dsimp only
  rw [hmod]
  generalize n % 2 ^ (fmtOf f).fbits = m at *
  generalize n / 2 ^ (fmtOf f).fbits % 2 ^ (fmtOf f).ebits = e at *
  by_cases htop : e = 2 ^ (fmtOf f).ebits - 1
  · rw [if_pos htop]
    by_cases hzero : m = 0
    · rw [hinf htop hzero, if_pos hzero]
    · rw [hnan htop hzero, if_neg hzero]
      simp only [decide_eq_true_iff]
  · rw [if_neg htop]
    by_cases hzero : e = 0
    · rw [hsub htop hzero, if_pos hzero, hzero]
      simp [hm]
    · rw [hnorm hzero htop, if_neg hzero]
      have hbig : ¬ e * 2 ^ (fmtOf f).fbits + m < 2 ^ (fmtOf f).fbits := by
        obtain ⟨j, rfl⟩ := Nat.exists_eq_succ_of_ne_zero hzero
        rw [Nat.succ_mul]
        omega
      simp [hbig]

theorem w64_two_pow (k : Nat) : w64 (2 ^ k) = 1#64 <<< k :=
  BitVec.eq_of_toNat_eq (by simp [w64, Nat.shiftLeft_eq])

/-! ## The instructions -/

section
variable (s : State) (d a : XReg) (f : FFmt) (r : Rnd)

/-- FABS and FNEG of an operand that is no NaN: its code as the operand flush leaves it, with the sign bit cleared or
inverted (R164). -/
theorem fabs_fneg_put (h : floatBits f (s.rx a) / 2 ^ (fmtOf f).fbits % 2 ^ (fmtOf f).ebits ≠ 2 ^ (fmtOf f).ebits - 1 ∨
      floatBits f (s.rx a) % 2 ^ (fmtOf f).fbits = 0) :
    let x := (fmtOf f).flushed (flushIn s.slot.flush f) (floatBits f (s.rx a))
    FloatPuts s (.fabs d a f r) d (x % 2 ^ ((fmtOf f).width - 1), 0) 0 ∧
      FloatPuts s (.fneg d a f r) d ((x + 2 ^ ((fmtOf f).width - 1)) % 2 ^ (fmtOf f).width, 0) 0 := by
  intro x
  obtain ⟨hsign, habs⟩ := write_withSign_read f (flushIn s.slot.flush f) false _ h
  obtain ⟨-, hneg⟩ := write_withSign_read f (flushIn s.slot.flush f)
    (!(floatBits f (s.rx a) / 2 ^ ((fmtOf f).width - 1) % 2 == 1)) _ h
  rw [Fmt.zeroBits, b2n, if_neg Bool.false_ne_true, Nat.zero_mul, Nat.zero_add] at habs
  constructor
  · have hput := floatPuts_of s (.fabs d a f r) d _ 0 rfl
    rwa [abs_eq_withSign, State.fsrc, habs] at hput
  · have hput := floatPuts_of s (.fneg d a f r) d _ 0 rfl
    have hx : x < 2 * 2 ^ ((fmtOf f).width - 1) := by
      rw [← two_pow_width]
      exact lt_of_le_of_lt (flushed_le _ _ _) (Nat.mod_lt _ (Nat.two_pow_pos _))
    rw [flip_eq_withSign, State.fsrc, hsign, hneg] at hput
    rwa [two_pow_width, ← flip_sign hx, (flushed_div_mod _ _ _).1]

/-- FABS and FNEG of a NaN. -/
theorem fabs_fneg_put_nan {sg : Bool} (h : s.fsrc f a = .nan sg) :
    FloatPuts s (.fabs d a f r) d ((fmtOf f).canonNan, flIf sg flNV) 0 ∧
      FloatPuts s (.fneg d a f r) d ((fmtOf f).canonNan, flIf sg flNV) 0 := by
  have habs := floatPuts_of s (.fabs d a f r) d _ 0 rfl
  have hneg := floatPuts_of s (.fneg d a f r) d _ 0 rfl
  rw [h] at habs hneg
  exact ⟨habs, hneg⟩

theorem sign_floatBits :
    (floatBits f (s.rx a) / 2 ^ ((fmtOf f).width - 1) % 2 == 1) = (s.rx a).getLsbD ((fmtOf f).width - 1) := by
  have hbit : (floatBits f (s.rx a)).testBit ((fmtOf f).width - 1) = (s.rx a).getLsbD ((fmtOf f).width - 1) := by
    rw [floatBits, Nat.testBit_mod_two_pow, decide_eq_true (by cases f <;> decide), Bool.true_and]
    rfl
  rw [← hbit, Nat.testBit_eq_decide_div_mod_eq]
  rfl

end

/-- Settles O14: a value of a format is written as its own code, so that a sign is all that FABS and FNEG change; the order
of values is that of `addExact`, and no two values are each below the other. -/
theorem floatSignsClassesAndRelations : Obligations.FloatSignsClassesAndRelations := by
  unfold Obligations.FloatSignsClassesAndRelations
  refine ⟨fun n1 n2 m1 m2 e1 e2 b hb1 hb2 => ⟨lt_fin_iff n1 n2 m1 m2 hb1 hb2, rfl, rfl, rfl⟩, ?_⟩
  intro s a b f w n neg e m top half
  refine ⟨fun d r => ⟨fun hfin hflush => ?_, fun hfin hflush => ?_, fun htop hm fl hfl => ?_, ?_⟩, fun d => ?_⟩
  · have hput := fabs_fneg_put s d a f r hfin
    rw [hflush] at hput
    exact hput
  · have hput := fabs_fneg_put s d a f r hfin
    have hflushed : (fmtOf f).flushed true n = if e = 0 then n - m else n := by simp [Fmt.flushed, e, m]
    rw [hflush, show floatBits f (s.rx a) = n from rfl, hflushed] at hput
    exact hput
  · have hread : s.fsrc f a = .nan (decide (m < half)) := (read_cases (fmtOf f) _ n).2.1 htop hm
    have hflags : flIf (decide (m < half)) flNV = fl := by simp [flIf, hfl]
    rw [← hflags]
    exact fabs_fneg_put_nan s d a f r hread
  · have hput := puts_of s (.fclass d a f r) d _ rfl
    rwa [fclassBit_eq f, sign_floatBits, w64_two_pow] at hput
  · intro x y un quiet any
    refine ⟨floatPredicate_of s _ _ d _ rfl, floatPredicate_of s _ _ d _ ?_, floatPredicate_of s _ _ d _ rfl,
      floatPredicate_of s _ _ d _ ?_, floatPredicate_of s _ _ d _ rfl, floatPredicate_of s _ _ d _ rfl⟩
    · rw [← frel_ne x y]
      rfl
    · rw [← frel_le x y]
      rfl

end Sys2Proof.Machine
end
